-- ==== Sys2Proof/Word.lean ====
section
/-!
DEFINITION. The word types of the model (R9): a byte and a 32-bit register word.
-/

namespace Sys2Proof

/-- One byte (R9). -/
abbrev Byte := BitVec 8

/-- One 32-bit register word (R65). -/
abbrev Word := BitVec 32

end Sys2Proof
end

