-- ==== Sys2Proof/Syntax.lean ====
section
/-!
DEFINITION. The commands the block takes (one constructor per row of the table) and the types of their operands.
-/

namespace Sys2Proof

/-- An agent of an access (Table 2.18). -/
inductive Agent where
  /-- The host on the USB4 port. -/
  | host
  /-- The remote device with a ring id, over the guyline. -/
  | remote (ring : BitVec 8)
  /-- The management port. -/
  | management
  /-- Firmware processor 0 to 6, in the order of R488. -/
  | firmware (core : Fin 7)
  /-- A unit of a cluster. -/
  | cluster (c : Fin 4) (unit : BitVec 8)
  /-- Dispatch hardware. -/
  | dispatch
  /-- The record-and-replay unit. -/
  | recorder
  /-- An image pipe. -/
  | pipe (q : Fin 16)
  /-- The point-preparation unit. -/
  | pointPrep
  /-- The statistics unit. -/
  | statistics
  /-- The decode section. -/
  | decode
  /-- Ingress. -/
  | ingress
  /-- The sequence engine. -/
  | sequence
  /-- The memory patrol scrubber. -/
  | scrubber
  deriving DecidableEq, Repr

/-- A peg of the device (R288). -/
inductive PegId where
  /-- Peg `i` of cluster `c`. -/
  | cluster (c : Fin 4) (i : Fin 1024)
  /-- Global peg `i`. -/
  | glob (i : Fin 4096)
  deriving DecidableEq, Repr

/-- The MACsec tag of a received frame: association number, packet number, and whether its ICV is valid. -/
structure SecTag where
  an : BitVec 2
  pn : BitVec 64
  icvOk : Bool
  deriving DecidableEq, Repr

/-- A received Ethernet frame: check sequence, destination, MACsec tag if protected, type, and client data. -/
structure EthFrame where
  fcsOk : Bool
  dest : BitVec 48
  sec : Option SecTag
  etherType : BitVec 16
  data : List Byte
  deriving DecidableEq, Repr

/-- An 802.1AS message that a sensor port receives. -/
inductive GptpMsg where
  /-- A peer-delay request received at 802.1AS time t2. -/
  | pdelayReq (t2 : BitVec 64)
  /-- The times of a completed peer-delay exchange that the device started. -/
  | pdelayResp (t1 t2 t3 t4 : BitVec 64)
  /-- Any other message. -/
  | other
  deriving DecidableEq, Repr

/-- Why a link went down. -/
inductive LinkCause where
  | openFibre | laserFault | other
  deriving DecidableEq, Repr

/-- Coded and output size of a picture in luma samples. -/
structure FrameSize where
  codedW : BitVec 16
  codedH : BitVec 16
  outW : BitVec 16
  outH : BitVec 16
  deriving DecidableEq, Repr

/-- A parameter set (HEVC) or sequence header (AV1) of a bitstream (R163, Table 6.5). -/
structure StreamSet where
  id : BitVec 4
  /-- general_profile_idc or seq_profile. -/
  profile : BitVec 8
  /-- HEVC compatibility flags 1 and 2. -/
  compat1 : Bool
  compat2 : Bool
  /-- general_level_idc or seq_level_idx. -/
  level : BitVec 8
  chroma420 : Bool
  bitDepth : BitVec 8
  size : FrameSize
  /-- sps_max_dec_pic_buffering (HEVC). -/
  pictures : BitVec 8
  deriving DecidableEq, Repr

/-- What a decode core finds in the headers of a compressed sample (Table 6.5): the parameter sets or sequence header
and the slice or frame header, read by the rules of the codec. -/
structure SampleHeaders where
  /-- Every NAL unit or OBU length lies within the sample, the headers parse, and there is exactly one picture. -/
  parses : Bool
  av1 : Bool
  /-- A tool that Table 6.1 lists as not supported is used. -/
  unsupported : Bool
  /-- The parameter sets or the sequence header that the sample carries, and the one that its picture uses. -/
  sets : List StreamSet
  uses : BitVec 4
  /-- The frame header's own size, where it gives one (AV1). -/
  size : Option FrameSize
  /-- An HEVC IDR, CRA or BLA picture, or an AV1 shown key frame. -/
  key : Bool
  /-- The pictures that it references, by the names the codec gives them (HEVC: picture order counts; AV1: frame slots). -/
  refs : List (BitVec 32)
  /-- The pictures already held that stay held after it, and the names under which it is held itself. -/
  kept : List (BitVec 32)
  names : List (BitVec 32)
  deriving DecidableEq, Repr

/-- A decoded picture: the codes of its three planes, row by row. -/
structure Picture where
  y : List (BitVec 16)
  cb : List (BitVec 16)
  cr : List (BitVec 16)
  deriving DecidableEq, Repr

/-- Bank cycles that accesses of an operation lost: how many, and the bank, requester (in the order of Table 10.1),
direction and granule of the first (R284). -/
structure BankLoss where
  count : Nat
  bank : BitVec 6
  requester : BitVec 4
  write : Bool
  granule : BitVec 13
  deriving DecidableEq, Repr

/-- What a weight buffer or loader suffers physically (Table 8.5). -/
inductive LoadFault where
  /-- A single bit of the buffer, corrected. -/
  | eccCorrected
  | eccUncorrectable
  /-- The two decodings differ. -/
  | decodeMismatch
  deriving DecidableEq, Repr

/-- One bit of a chunk sum flips: token and column of the tile, chunk, bit (R235). -/
structure SumFlip where
  tok : Nat
  col : Nat
  chunk : Nat
  bit : Nat
  deriving DecidableEq, Repr

/-- What befalls a stored word of memory before it is read (R285, R375). -/
inductive Upset where
  /-- These symbols of a codeword, or bits of a scratch word, check symbols and bits included. -/
  | syms (l : List (Fin 72))
  /-- The channel returns the codeword of another address. -/
  | address
  deriving DecidableEq, Repr

/-- What an array suffers physically while it forms an output tile (Table 8.5). -/
inductive TileFault where
  /-- Bits of chunk sums of the tile flip. -/
  | sums (flips : List SumFlip)
  /-- The weight buffer gives the integer `q` for the weight at a column of the tile and a reduction position. -/
  | weight (col k : Nat) (q : Int)
  /-- The partner's result differs at a token and column. -/
  | pair (tok col : Nat)
  /-- The duplicated group formation differs at a token. -/
  | group (tok : Nat)
  /-- The duplicated edge units differ at a token and column. -/
  | edge (tok col : Nat)
  /-- A word of the weight buffer is uncorrectable. -/
  | eccUncorrectable
  deriving DecidableEq, Repr

/-- What befalls the load of a weight tile: a fault of the buffer or the loader (Table 8.5), and the cycles that its reads of
scratch lost (R284). -/
structure LoadEvents where
  fault : Option LoadFault := none
  loss : Option BankLoss := none
  deriving DecidableEq, Repr

/-- What befalls the forming of an output tile: a fault of the array (Table 8.5), and the cycles that its accesses to scratch
lost (R284). -/
structure TileEvents where
  fault : Option TileFault := none
  loss : Option BankLoss := none
  deriving DecidableEq, Repr

/-- What an engine suffers physically (R252). -/
inductive EngineFault where
  | mismatch | eccCorrected | eccUncorrectable
  deriving DecidableEq, Repr

/-- Who sends a sequence command: the next command of a job's firing, or a control pod by its arrival number. -/
inductive SeqFrom where
  | job (exec : BitVec 32)
  | pod (no : Nat)
  deriving DecidableEq, Repr

/-- A report of a detecting mechanism that no other command carries (R462): source, status, detail, root-cause tag, and
the class of the work concerned (0 for none). -/
structure FaultIn where
  source : BitVec 9
  status : BitVec 16
  detail : Word
  tag : BitVec 16
  cls : BitVec 2
  deriving DecidableEq, Repr

/-- What is executed again (R467): an operation, a timed-out job of an instance, or a failed sequence command. -/
inductive Reexec where
  | op (id : Nat)
  | job (inst job : Nat)
  | seq (id : Nat)
  deriving DecidableEq, Repr

/-- What the power-management core measures and has calibrated (R519): package power in units of 0.1 W, the rails in mV and
mA, what everything but the arrays draws in mW and in mA of VCORE, and each array's VCORE current in mA at levels 0 to 16. -/
structure PowerSample where
  pkg : BitVec 16
  volts : Vector (BitVec 16) 6
  amps : Vector (BitVec 20) 6
  basePower : Nat
  baseCurrent : Nat
  levels : List (List Nat)
  deriving DecidableEq, Repr

/-- An access to BAR2: a read of a length, or a write of bytes. -/
inductive BusAccess where
  | read (len : Nat)
  | write (bytes : List Byte)
  deriving DecidableEq, Repr

/-- What the training of a guyline port brings from the peer (R410, R504): its ring id and sending port, its alias certificate
and IK public key, and its encapsulation key or its ciphertext; and the slots of each receive buffer class of this port. -/
structure GlTraining where
  ring : BitVec 8
  peerPort : Fin 3
  cert : List Byte
  ik : List Byte
  kem : List Byte
  buffers : Vector (BitVec 13) 6
  deriving DecidableEq, Repr

/-- What a management frame carries beside its operation (R417, R418): addresses, MACsec tag if protected, session, sequence,
and whether the tag of an in-session body verifies (R500). -/
structure MgtFrame where
  src : BitVec 48
  dest : BitVec 48
  sec : Option SecTag
  session : Word
  seq : Word
  tagOk : Bool
  deriving DecidableEq, Repr


/-- The commands of the block: one constructor per row of the table of operations and events, in its order. -/
inductive Instr where
  /-- POWER_ON_RESET (R532): A rail stays below its POR threshold for 1 µs or longer, so reset is asserted and every register, peg, window, key and LOCK is cleared. -/
  | powerOnReset
  /-- POWER_GOOD (R532): 1 ms after the last rail enters its window, reset is released and boot starts from the ROM. -/
  | powerGood
  /-- RAIL_WINDOW_FAULT (R516): A rail stays outside its operating window for 2 µs or longer and its supply fault source becomes active. -/
  | railWindowFault (rail : Fin 6) (above : Bool)
  /-- CLOCK_LOST (R527): REF or the SNT oscillator deviates by more than 1 % for 10 µs or stops; on SNT loss REF forces both collector rails directly. -/
  | clockLost (snt : Bool) (stopped : Bool)
  /-- PLL_UNLOCKED (R527): A phase-locked domain clock loses lock and reports it at once through source 0x15A. -/
  | pllUnlocked (d : Fin 26)
  /-- AON_FAULT (R527): The AON oscillator fails its check against REF and the failure is recorded in CLK_MON. -/
  | aonFault
  /-- IMAGE_BEGIN (R490): Management request that starts or restarts an image transfer, binds it to the source address and checks the length. -/
  | imageBegin (f : MgtFrame) (kind : BitVec 8) (len : Word)
  /-- IMAGE_CHUNK (R490): Management request that stages one chunk of image data at its offset. -/
  | imageChunk (f : MgtFrame) (off : Word) (data : List Byte)
  /-- IMAGE_END (R489): Management request that ends a transfer; the image is checked in the order of Table 17.5 and accepted or refused. -/
  | imageEnd (f : MgtFrame) (fuseFails : Bool)
  /-- IMAGE_TIMEOUT (R491): An image transfer that receives no request for 2 s is abandoned. -/
  | imageTimeout
  /-- CONFIG_WAIT_TIMEOUT (R492): 2 s pass after the firmware image without an IMAGE_BEGIN of kind 0x02, and the ROM proceeds without a configuration image. -/
  | configWaitTimeout
  /-- DRAM_TRAINING_DONE (R533): DRAM training of all 16 channels ends; staged images are copied to the firmware region or boot stops with MEM_TRAIN_FAIL. -/
  | dramTrainingDone (failed : BitVec 16)
  /-- POWER_ON_BIST_DONE (R476): Power-on BIST ends; failing fenceable units are fenced with C3 and any other failing unit latches C5. -/
  | powerOnBistDone (failed : List (BitVec 6))
  /-- BOOT_COMPLETE (R534): Stage 6 is reached; the pod port starts accepting writes, the lanterns light and READY is queued. -/
  | bootComplete
  /-- REGISTER_WRITE (R11): A write to a register field without behaviour of its own acts by its access code, including range, key, lock and size checks. -/
  | registerWrite (agent : Agent) (addr : BitVec 24) (bytes : List Byte)
  /-- POSTED_WRITE_APPLY (R78): A queued posted write reaches the head of its queue and is applied in the page's domain. -/
  | postedWriteApply (page : BitVec 12)
  /-- EVT_ACK (R71): A sequence-matched acknowledgement clears the masked event flags, or sets EVT_ACK.stale when the sequence differs. -/
  | evtAck (agent : Agent) (page : BitVec 12) (mask : BitVec 16) (seq : BitVec 8)
  /-- MBX_SEL_CAPTURE (R74): A non-zero selector written to MBX_SEL clears valid and error and requests a capture. -/
  | mbxSelCapture (agent : Agent) (page : BitVec 12) (sel : BitVec 8)
  /-- MBX_SEL_CANCEL (R75): A selector of 0x00 cancels any pending capture and clears valid and error. -/
  | mbxSelCancel (agent : Agent) (page : BitVec 12)
  /-- MBX_CAPTURE_DONE (R74): The selected value is captured in one source-domain cycle, MBX_DATA updated, capture_seq incremented and valid set, or error set for an undefined selector. -/
  | mbxCaptureDone (page : BitVec 12)
  /-- KEY (R87): A correct KEY write arms a one-shot unlock for the writing agent; a wrong one sets GUARD_REFUSED. -/
  | key (agent : Agent) (page : BitVec 12) (v : Word)
  /-- UNLOCK_LAPSE (R87): An armed unlock lapses unused after 10,000 ridge ticks. -/
  | unlockLapse (agent : Agent) (page : BitVec 12)
  /-- LOCK (R89): Writing 1 to LOCK freezes every RWK, RWL and guarded RWI field of the page until reset. -/
  | lock (agent : Agent) (page : BitVec 12) (bit : Bool)
  /-- UPDATE_STROBE (R81): A strobe copies the shadow of every page in the named groups to pending and arms their application time T. -/
  | updateStrobe (agent : Agent) (mask : BitVec 16)
  /-- UPDATE_GROUP_APPLY (R83): At ridge count T an armed group applies its pending copies to the live copies in every domain of the group. -/
  | updateGroupApply (g : Fin 16)
  /-- POD_PORT_WRITE (R40): A host write through BAR0 into the pod-port window at the expected stream position enters the pod stream. -/
  | podPortWrite (off : BitVec 20) (bytes : List Byte)
  /-- POD_RESYNC (R40): A write of a multiple of 32 during stream loss sets the next stream position and resumes the stream. -/
  | podResync (agent : Agent) (v : Word)
  /-- POD_RECEIVE (R43): A whole pod is received and checked in the order of Table 2.8, taking ring credit, marking the duplicate window and queueing it. -/
  | podReceive (via : Fin 4) (rrLost : Bool)
  /-- POD_START (R35): A received pod starts once its fences, wait peg and launch_ridge conditions all hold. -/
  | podStart (no : Nat)
  /-- ORIGIN_CLOSE (R46): Dispatch control pod that asks to close the sending origin's window. -/
  | originClose (no : Nat)
  /-- ORIGIN_WINDOW_CLOSE (R46): The origin window closes once every earlier pod from that origin has completed. -/
  | originWindowClose (origin : BitVec 16)
  /-- RETAIN_CFG (R49): A write of the retention store size takes effect at once, freeing the oldest retained results until the rest fit. -/
  | retainCfg (agent : Agent) (v : Word)
  /-- BAR2_ACCESS (R23): A host access through the BAR2 aperture is performed, forwarded or refused as one whole access. -/
  | bar2Access (off : BitVec 28) (acc : BusAccess) (rrLost : Bool)
  /-- REMOTE_TIMEOUT (R400): A host aperture read of a remote ring id gets no completion within 200 µs and completes as Completer Abort. -/
  | remoteTimeout
  /-- U4_APERTURE (R400): A write of U4_APERTURE_HI moves the BAR2 base, both halves together. -/
  | u4Aperture (agent : Agent) (v : Word)
  /-- FUNCTION_LEVEL_RESET (R397): FLR resets only the PCIe function state, its BARs and MSI-X state, and makes the host unauthenticated. -/
  | functionLevelReset
  /-- MSIX_UNMASK (R398): Unmasking a vector sends a message whose pending bit is set. -/
  | msixUnmask (agent : Agent) (vector : Fin 64) (v : Word)
  /-- USB4_BLOCK_RECEIVE (R396): A media-layer block arrives on the host lanes and is checked by CRC and sequence, with retransmission on failure. -/
  | usb4BlockReceive (seq : BitVec 12) (ok : Bool) (jobs : List (BitVec 32))
  /-- HOST_LINK_DOWN (R401): The host port goes down; transactions are lost, the pod port enters stream loss and retraining begins. -/
  | hostLinkDown (jobs : List (BitVec 32))
  /-- HOST_LINK_UP (R401): The host link is restored after training and the host becomes unauthenticated. -/
  | hostLinkUp (gen4 : Bool)
  /-- TSF_FRAME_RECEIVE (R103): A frame arrives on a sensor port and is checked in the order of Table 4.4, then shaped into lines, points or control responses. -/
  | tsfFrameReceive (port : Fin 32) (frame : EthFrame) (rrLost : Bool)
  /-- STREAM_WINDOW_START (R106): At the start of frame window W(k) ingress takes the stream's live configuration for frame k. -/
  | streamWindowStart (port : Fin 32) (vc : Fin 16)
  /-- FS_DEADLINE (R108): No frame start or line by fs_deadline emits a void frame and reports FRAME_MISSING. -/
  | fsDeadline (port : Fin 32) (vc : Fin 16)
  /-- FE_DEADLINE (R108): No frame end by fe_deadline closes the frame with FE_TIMEOUT and pads the rest. -/
  | feDeadline (port : Fin 32) (vc : Fin 16)
  /-- TP_DEADLINE (R111): No camera pattern by tp_deadline raises TP_CAMERA_FAIL. -/
  | tpDeadline (port : Fin 32) (vc : Fin 16)
  /-- STREAM_ENABLE (R104): A write of ST_CTL.enable = 1 with configuration outside the limits is ignored and sets CONFIG_REJECTED. -/
  | streamEnable (agent : Agent) (port : Fin 32) (vc : Fin 16) (v : Word)
  /-- CAM_SETTINGS (R115): Ingress control pod that sends camera settings for a target frame to the selected ports, or is refused. -/
  | camSettings (no : Nat)
  /-- CONTROL_RESPONSE (R117): A camera's control response is matched to its message; the pod completes when all ports have answered or given up. -/
  | controlResponse (port : Fin 32)
  /-- CAM_ACK_TIMEOUT (R117): No response within the timeout resends the message, up to the retry count and never after apply_ridge. -/
  | camAckTimeout (port : Fin 32)
  /-- SETTINGS_APPLY_RIDGE (R115): apply_ridge passes and the settings stop being outstanding on the port. -/
  | settingsApplyRidge (port : Fin 32)
  /-- GPTP_SYNC_SEND (R94): The device sends an 802.1AS Sync on each enabled sensor port every Sync interval. -/
  | gptpSyncSend (port : Fin 32)
  /-- GPTP_MESSAGE_RECEIVE (R94): An 802.1AS message arrives and the port's peer delay is measured. -/
  | gptpMessageReceive (port : Fin 32) (msg : GptpMsg)
  /-- SENSOR_LINK_UP (R125): A sensor port link comes up and PORT_CFG applies. -/
  | sensorLinkUp (port : Fin 32)
  /-- SENSOR_LINK_DOWN (R125): A sensor port link goes down and LINK_DOWN is reported. -/
  | sensorLinkDown (port : Fin 32) (cause : LinkCause)
  /-- MKA_FRAME_RECEIVE (R503): A MACsec Key Agreement frame arrives on a keyed port. -/
  | mkaFrameReceive (port : Fin 33) (icvOk : Bool)
  /-- MACSEC_REKEY (R503): The packet number reaches its threshold and a new SAK is drawn and distributed. -/
  | macsecRekey (port : Fin 33)
  /-- OLD_SA_EXPIRE (R503): 3 s after a rekey without a frame on the new SA, the old SA is no longer accepted. -/
  | oldSaExpire (port : Fin 33)
  /-- PIPE_LINE (R128): A queued line is processed by the pipe under its matching slot through the stages of Table 5.1. -/
  | pipeLine (q : Fin 16) (mainErr : Word) (tapErr : Word)
  /-- STATISTICS_POD (R145): After a frame closes, one statistics pod of each enabled operation is sent. -/
  | statisticsPod (q : Fin 16) (slot : Fin 4)
  /-- PP_FORMATION_START (R151): At window end plus guard, point preparation chooses its path and starts forming the table. -/
  | ppFormationStart
  /-- PP_FORMATION_DONE (R155): Formation completes, the output is written with its tag flags and PP_OUT_PEG incremented. -/
  | ppFormationDone
  /-- BATCH_SUBMIT (R167): Batch pod operation that queues peas on a host decode queue after the checks of Table 6.4. -/
  | batchSubmit (no : Nat)
  /-- QUEUE_RESET (R173): Batch pod operation that invalidates the queue's decoding context after every earlier batch. -/
  | queueReset (no : Nat)
  /-- DECODE_SAMPLE_START (R168): A core begins a sample in queue order; compressed headers are checked, raw peas copied, skip peas voided. -/
  | decodeSampleStart (q : Fin 64) (hdr : SampleHeaders)
  /-- DECODE_SAMPLE_DONE (R170): A sample finishes; its slot, tag entry and DQ_PEG increment are written in order. -/
  | decodeSampleDone (q : Fin 64) (pic : Option Picture)
  /-- DECODE_DEADLINE (R176): The ridge counter reaches a sample's deadline; the sample is abandoned or not started and becomes void. -/
  | decodeDeadline (q : Fin 64)
  /-- DECODE_CONFIG_APPLY (R174): At the next sample boundary after its group applies, a queue's configuration applies or is rejected. -/
  | decodeConfigApply (q : Fin 64)
  /-- ARRAY_ISSUE (R243): The control core validates an issue of array descriptors, checks frames and starts the operations. -/
  | arrayIssue (exec : BitVec 32) (n : Fin 33)
  /-- WEIGHT_TILE_LOAD (R195): A weight tile with its row scales enters the buffer, is decoded twice and checked. -/
  | weightTileLoad (op : Nat) (kt : Nat) (nt : Nat) (fault : LoadEvents)
  /-- ARRAY_TILE_DONE (R236): A tile's chunk sums leave the cells, are combined at the edge and written. -/
  | arrayTileDone (op : Nat) (fault : TileEvents)
  /-- ABFT_VERDICT (R235): The row and column checks of a tile complete; a failure is ABFT_FAIL. -/
  | abftVerdict (op : Nat)
  /-- ABFT_LATE (R236): No verdict within 5 µs of the tile counts as a failure. -/
  | abftLate (op : Nat)
  /-- ARRAY_OPERATION_DONE (R242): An operation's last tile and tag block are written and, if every check passed, out_peg increments. -/
  | arrayOperationDone (op : Nat) (loss : Option BankLoss)
  /-- BALLAST_END (R232): 5 µs of ballast without an operation end and the level begins to fall. -/
  | ballastEnd (c : Fin 4) (a : Fin 4)
  /-- ACTIVITY_LEVEL_STEP (R231): Every 0.5 µs an array's activity level moves one step towards its target. -/
  | activityLevelStep (c : Fin 4) (a : Fin 4)
  /-- ARR_FENCE (R245): A guarded write fences or unfences an array. -/
  | arrFence (agent : Agent) (c : Fin 4) (a : Fin 4) (v : Word)
  /-- ABFT_INJECT (R246): A guarded write arms a one-bit flip in the next tile of an array. -/
  | abftInject (agent : Agent) (c : Fin 4) (v : Word)
  /-- ENGINE_ISSUE (R253): An engine descriptor is validated by Table 9.2 and its operation started in queue order. -/
  | engineIssue (exec : BitVec 32) (e : Fin 4)
  /-- ENGINE_OPERATION_DONE (R249): An engine operation writes its outputs and flags and increments out_peg. -/
  | engineOperationDone (c : Fin 4) (e : Fin 4) (loss : Option BankLoss) (fault : Option EngineFault)
  /-- ENG_FENCE (R278): A guarded write fences or unfences an engine. -/
  | engFence (agent : Agent) (c : Fin 4) (e : Fin 4) (v : Word)
  /-- ENG_INJECT (R278): A guarded write arms a bit flip on the engine's second datapath. -/
  | engInject (agent : Agent) (c : Fin 4) (e : Fin 4) (v : Word)
  /-- SCRATCH_SCRUB_PASS (R286): A scratch scrub period ends; an overrun sets SCRUB_LAG and starts the next pass. -/
  | scratchScrubPass (c : Fin 4) (complete : Bool)
  /-- SCR_INJECT (R305): A guarded write arms bit flips in the next word a bank writes. -/
  | scrInject (agent : Agent) (c : Fin 4) (v : Word)
  /-- PEG_COUNT (R288): A write sets a peg's count without release meaning and clears saturated. -/
  | pegCount (agent : Agent) (peg : PegId) (v : Word)
  /-- PEG_CFG (R289): A write of a peg's configuration takes effect at once or is refused. -/
  | pegCfg (agent : Agent) (peg : PegId) (v : Word)
  /-- PEG_INC_WRITE (R290): A write to PEG_INC increments the count with release meaning. -/
  | pegIncWrite (agent : Agent) (peg : PegId) (v : Word)
  /-- ROLL_ENABLE (R297): Enabling an idle roll validates it and zeroes head, tail and reservation. -/
  | rollEnable (agent : Agent) (c : Fin 4) (r : Fin 64) (ctl : Word)
  /-- ROLL_APPEND_RESERVE (R300): An append reserves its span when space allows, after waiting for the tail. -/
  | rollAppendReserve (c : Fin 4) (r : Fin 64)
  /-- ROLL_APPEND_COMMIT (R300): An append's writes are performed and it commits in reservation order. -/
  | rollAppendCommit (c : Fin 4) (r : Fin 64)
  /-- ROLL_COMMIT (R302): An external producer's commit advances the head or sets ROLL_OVERFLOW. -/
  | rollCommit (agent : Agent) (c : Fin 4) (r : Fin 64) (v : Word)
  /-- ROLL_RELEASE (R302): An external consumer's release advances the tail or sets ROLL_SPAN_ERROR. -/
  | rollRelease (agent : Agent) (c : Fin 4) (r : Fin 64) (v : Word)
  /-- ROLL_RESET (R303): Resets an unreferenced roll, or sets ROLL_BUSY. -/
  | rollReset (agent : Agent) (c : Fin 4) (r : Fin 64)
  /-- OPEN (R318): Sequence command that opens a context, allocating and zeroing its map. -/
  | seqOpen (src : SeqFrom)
  /-- CLOSE (R318): Sequence command that frees every page of a context after earlier commands. -/
  | seqClose (src : SeqFrom)
  /-- APPEND (R320): Sequence command that quantises and writes one layer of a token group, committing at the last layer. -/
  | seqAppend (src : SeqFrom)
  /-- STAGE (R326): Sequence command that selects and pins blocks for a view. -/
  | seqStage (src : SeqFrom)
  /-- STAGE_START (R324): A STAGE waiting on an overlapping live view proceeds once that view is released. -/
  | stageStart (id : Nat)
  /-- STAGE_COPY_DONE (R326): The view's blocks are copied into the page cache and out_peg increments. -/
  | stageCopyDone (id : Nat) (mismatch : Bool)
  /-- RELEASE (R324): Sequence command that frees a view's cache frames. -/
  | seqRelease (src : SeqFrom)
  /-- IMPORTANCE (R328): Sequence command that updates block scores from per-slot masses. -/
  | seqImportance (src : SeqFrom)
  /-- RESTORE (R331): Sequence command that writes one layer of a recomputed block, making it live at the last layer. -/
  | seqRestore (src : SeqFrom)
  /-- RECOMPUTE_TIMEOUT (R332): A block not live within SEQ_RECOMP_TIMEOUT of its request fails its STAGE. -/
  | recomputeTimeout (ctx : BitVec 20) (pos : Nat)
  /-- SEQ_CTL (R338): Enabling or disabling the sequence engine, checked against its regions and open contexts. -/
  | seqCtl (agent : Agent) (v : Word)
  /-- SEQ_INJECT (R337): A guarded write arms a bit flip on the sequence engine's second datapath. -/
  | seqInject (agent : Agent) (v : Word)
  /-- GRAPH_LOAD (R341): Dispatch control pod that checks and loads a graph image into a slot. -/
  | graphLoad (no : Nat)
  /-- GRAPH_UNLOAD (R342): Dispatch control pod that removes a slot's image after its running instance. -/
  | graphUnload (no : Nat)
  /-- INSTANCE_START (R343): A queued job pod or recompute request starts an on-demand instance when its slot is free. -/
  | instanceStart (slot : BitVec 8)
  /-- CYCLE_LAUNCH (R345): At L(k) dispatch ends the prior cycle, applies update groups, re-arms pegs and arms instance k. -/
  | cycleLaunch (g : Fin 8)
  /-- JOB_FIRE (R345): A job whose waits are all satisfied fires and issues its descriptors. -/
  | jobFire
  /-- JOB_COMPLETE (R346): A job's last descriptor completes and its completion peg increments. -/
  | jobComplete (exec : BitVec 32)
  /-- JOB_TIMEOUT (R350): The effective timeout expires; the job ends, its sequence is retired and the timeout reported. -/
  | jobTimeout (exec : BitVec 32)
  /-- CYCLE_DEADLINE (R347): At the deadline unfired jobs are cancelled and running ones discarded. -/
  | cycleDeadline (g : Fin 8)
  /-- FG_ENABLE (R344): Enabling a frame group starts it on its launch grid, or is refused while unlocked. -/
  | fgEnable (agent : Agent) (g : Fin 8)
  /-- FG_DISABLE (R344): Clearing FG_CTL.enable stops further launches at once. -/
  | fgDisable (agent : Agent) (g : Fin 8)
  /-- DET_CTL (R353): A change of STRICT applies only while idle, otherwise sets STRICT_REFUSED. -/
  | detCtl (agent : Agent) (v : Word)
  /-- RR_RECORD (R355): RR_CTL mode record starts capturing external inputs into the ring. -/
  | rrRecord (agent : Agent) (v : Word)
  /-- RR_REPLAY (R358): RR_CTL mode replay is accepted under STRICT from a launch marker, or sets RR_REFUSED. -/
  | rrReplay (agent : Agent) (v : Word)
  /-- RR_OFF (R368): RR_CTL mode off stops recording or replay. -/
  | rrOff (agent : Agent) (v : Word)
  /-- REPLAY_ENTRY (R358): A recorded entry takes effect at its stamp plus Δ. -/
  | replayEntry
  /-- RING_POD_WRITE (R360): A pod is written into its host ring, its head copy updated and MSI-X signalled. -/
  | ringPodWrite (r : Fin 16)
  /-- RING_WAIT_EXPIRE (R361): A pod waits 100 µs for ring space and is dropped. -/
  | ringWaitExpire (r : Fin 16)
  /-- RING_TAIL (R360): The host reports consumption by writing RING_TAIL. -/
  | ringTail (agent : Agent) (r : Fin 16) (v : Word)
  /-- RING_CFG_WRITE (R370): A write configures a disabled ring, or disables an enabled one. -/
  | ringCfgWrite (agent : Agent) (r : Fin 16) (v : Word)
  /-- MSIX_COALESCE_EXPIRE (R364): The coalescing interval ends and one MSI-X message covers the pods written. -/
  | msixCoalesceExpire (r : Fin 16)
  /-- DRAM_REFRESH (R384): Each channel refreshes every 7.8 µs, or 3.9 µs when hot. -/
  | dramRefresh (ch : Fin 16)
  /-- DRAM_TEMP_SAMPLE (R384): Each stack reports its hottest die every 1 ms and refresh rate and hot flags follow. -/
  | dramTempSample (temps : Vector (BitVec 16) 20)
  /-- DRAM_CE_RATE (R376): Each second that corrections exceed CH_CE_LIMIT, the channel reports DRAM_CE_RATE. -/
  | dramCeRate (ch : Fin 16)
  /-- DRAM_SCRUB_PASS (R378): A DRAM scrub period ends; an overrun sets SCRUB_LAG and starts the next pass. -/
  | dramScrubPass (complete : Bool)
  /-- CH_INJECT (R389): A guarded write arms corruption of the next codeword written. -/
  | chInject (agent : Agent) (ch : Fin 16) (v : Word)
  /-- ENC_REGION_ENABLE (R380): The security core enables a region, which starts zero-filling. -/
  | encRegionEnable (agent : Agent) (r : Fin 16) (v : Word)
  /-- ENC_REGION_READY (R380): The zero-fill completes and ENC_STATUS.ready is set. -/
  | encRegionReady (r : Fin 16)
  /-- ENC_REGION_DISABLE (R380): Disabling a region leaves its ciphertext unreadable in place. -/
  | encRegionDisable (agent : Agent) (r : Fin 16) (v : Word)
  /-- GUYLINE_FLIT_RECEIVE (R403): A flit is checked, acknowledged or nak'd, and its packets and node_state taken. -/
  | guylineFlitReceive (port : Fin 3) (flit : List Byte) (uncorrectable : Bool) (jobs : List (BitVec 32))
  /-- FLIT_ACK_TIMEOUT (R403): ack makes no progress for 250 ns and the transmitter replays. -/
  | flitAckTimeout (port : Fin 3)
  /-- LINK_RETRY_FAIL (R403): After 8 retries or 2 µs the link goes down with a root-cause tag. -/
  | linkRetryFail (port : Fin 3) (jobs : List (BitVec 32))
  /-- GUYLINE_TRAINING_DONE (R410): Lane lock, ring-id exchange and authentication complete and the link comes up or is refused. -/
  | guylineTrainingDone (port : Fin 3) (t : GlTraining)
  /-- GUYLINE_PACKET_SEND (R406): A packet is sent once the next hop holds credit for its slots. -/
  | guylinePacketSend (port : Fin 3)
  /-- WRITE (R407): Guyline packet that writes data and increments a peg on the destination. -/
  | glWrite (port : Fin 3) (rrLost : Bool)
  /-- READ_REQ (R409): Guyline packet that reads up to 4,096 bytes as a remote agent. -/
  | glReadReq (port : Fin 3)
  /-- READ_CPL (R409): Guyline packet that completes a read with data or a status. -/
  | glReadCpl (port : Fin 3)
  /-- POD (R408): Guyline packet carrying a pod segment for reassembly and Table 2.8 checks. -/
  | glPod (port : Fin 3)
  /-- PEG_INC (R407): Guyline packet that increments a peg after earlier writes are performed. -/
  | glPegInc (port : Fin 3)
  /-- SYNC (R414): Guyline time message carrying the upstream time t1. -/
  | glSync (port : Fin 3)
  /-- DELAY_REQ (R414): Guyline time message from the downstream end at t3. -/
  | glDelayReq (port : Fin 3)
  /-- DELAY_RESP (R414): Guyline time message returning t4; the offset is computed and lock state updated. -/
  | glDelayResp (port : Fin 3) (hops : BitVec 8) (epoch : BitVec 64)
  /-- SYNC_INTERVAL (R414): Every 125 µs the upstream end starts a time exchange. -/
  | syncInterval (port : Fin 3)
  /-- SYNC_TIMEOUT (R416): No SYNC for 1 ms unlocks ridge time and reports RIDGE_UNLOCKED. -/
  | syncTimeout
  /-- ROUTE_FAILOVER (R412): 101 µs after a link-down, routes switch to alternate egress. -/
  | routeFailover (port : Fin 3)
  /-- ROUTE_RESTORE (R412): 101 µs after a link-up, routes return to primary egress. -/
  | routeRestore (port : Fin 3)
  /-- OPEN_FIBRE (R394): No light for 50 µs shuts the port's transmitters down. -/
  | openFibre (lane : Fin 49) (jobs : List (BitVec 32))
  /-- LIGHT_RECEIVED (R394): Light on a lane in shutdown resumes transmission within 10 µs. -/
  | lightReceived (lane : Fin 49)
  /-- PROBE_START (R394): Every probe interval a lane in shutdown sends a probe. -/
  | probeStart (group : Fin 37)
  /-- PROBE_END (R394): The 2 ms probe ends and the lane goes dark. -/
  | probeEnd (group : Fin 37)
  /-- LASER_FAULT (R393): The monitor finds a lane above its ceiling, cuts it and latches the fault. -/
  | laserFault (lane : Fin 49) (jobs : List (BitVec 32))
  /-- HELLO (R418): Management request that returns ordering code, ring id and states. -/
  | mgtHello (f : MgtFrame)
  /-- START (R499): Session step that returns nonces and draws an ML-KEM key pair. -/
  | mgtStart (f : MgtFrame) (slot : BitVec 8) (privs : BitVec 8) (nonce : List Byte)
  /-- GET (R499): Session step that returns a fragment of a key or certificate. -/
  | mgtGet (f : MgtFrame) (obj : BitVec 8) (off : BitVec 16)
  /-- PUT_CT (R499): Session step that receives a ciphertext fragment. -/
  | mgtPutCt (f : MgtFrame) (off : BitVec 16) (data : List Byte)
  /-- PUT_KEY (R499): Session step that receives an owner public key fragment. -/
  | mgtPutKey (f : MgtFrame) (off : BitVec 16) (data : List Byte)
  /-- FINISH (R499): Session step that verifies the owner signature and opens the session. -/
  | mgtFinish (f : MgtFrame) (sig : List Byte)
  /-- SESSION_CLOSE (R500): Management request that closes the session. -/
  | sessionClose (f : MgtFrame)
  /-- SESSION_IDLE_TIMEOUT (R500): 60 s without a request closes the session. -/
  | sessionIdleTimeout
  /-- REG_READ (R418): Management request that reads a register. -/
  | mgtRegRead (f : MgtFrame) (addr : BitVec 56)
  /-- REG_WRITE (R418): Management request that writes a register. -/
  | mgtRegWrite (f : MgtFrame) (addr : BitVec 56) (v : Word)
  /-- MEM_READ (R418): Management request that reads memory. -/
  | mgtMemRead (f : MgtFrame) (addr : BitVec 56) (len : BitVec 11)
  /-- MEM_WRITE (R418): Management request that writes memory. -/
  | mgtMemWrite (f : MgtFrame) (addr : BitVec 56) (bytes : List Byte)
  /-- RESET (R419): Management request that forces safe state and schedules a device reset. -/
  | mgtReset (f : MgtFrame)
  /-- RESET_EXECUTE (R419): 1 ms after a verified RESET the device resets and boot restarts. -/
  | resetExecute
  /-- STATUS (R418): Management request that returns node_state, lantern state and fault summary. -/
  | mgtStatus (f : MgtFrame)
  /-- LANTERN_WORD_BOUNDARY (R420): At each 32 µs boundary the lanterns begin a new word. -/
  | lanternWordBoundary
  /-- LANTERN_TEST (R422): A guarded write darkens both lanterns for LANTERN_TEST_LEN. -/
  | lanternTest (agent : Agent) (v : Word)
  /-- LANTERN_TEST_END (R422): The test length expires; lanterns relight with after_test. -/
  | lanternTestEnd
  /-- SENTRY_ENABLE (R434): Enabling the sentry checks its SRAM regions or sets CONFIG_REJECTED. -/
  | sentryEnable (agent : Agent) (v : Word)
  /-- SENTRY_RUN_START (R435): A run starts when all taps are written or at the start limit. -/
  | sentryRunStart
  /-- SENTRY_RUN_END (R436): The run writes its grid and releases the tap buffers. -/
  | sentryRunEnd (cells : List (BitVec 2)) (corrected : Nat) (uncorrectable : Bool)
  /-- SNT_INJECT (R453): A guarded write marks the next grid's zone 0 cells free. -/
  | sntInject (agent : Agent) (v : Word)
  /-- COMP_ENABLE (R454): Enabling the comparator checks grid, zones and entries. -/
  | compEnable (agent : Agent) (v : Word)
  /-- JUDGEMENT_CUT_OFF (R441): At J(k) judgement starts with whatever inputs are complete. -/
  | judgementCutOff
  /-- COMP_VERDICT (R443): Judgement ends with a verdict and its releases. -/
  | compVerdict (rail : Bool)
  /-- LOCKSTEP_MISMATCH (R448): The lock-step checker finds a difference, stops the pair and reports it. -/
  | lockstepMismatch (p : Fin 5) (addr : Word)
  /-- LS_DEBUG_HALT (R450): A debug halt request halts a pair, forcing safe state first if needed. -/
  | lsDebugHalt (agent : Agent) (mask : BitVec 5) (copy : Fin 2)
  /-- LS_DEBUG_RESUME (R450): A resume restarts both copies together. -/
  | lsDebugResume (agent : Agent)
  /-- LS_INJECT (R457): A guarded write forces one difference in a chosen pair. -/
  | lsInject (agent : Agent) (v : Word)
  /-- FAULT_REPORT (R462): A report reaches the collector, is classified, recorded and reacted to. -/
  | faultReport (ext : Option FaultIn)
  /-- FAULT_LEVEL_CLEAR (R460): A level source's condition clears and it becomes inactive. -/
  | faultLevelClear (src : BitVec 9)
  /-- QUIET_PERIOD_EXPIRE (R471): The quiet period expires and the device leaves safe state. -/
  | quietPeriodExpire
  /-- FC_SELF_FAULT (R473): Rail copies or CRCs differ and the force signal is asserted. -/
  | fcSelfFault (copies : Bool) (crcs : Bool)
  /-- FC_FORCE_SAFE (R469): A write of 1 forces safe state. -/
  | fcForceSafe (agent : Agent) (v : Word)
  /-- FC_KILL (R474): A guarded write latches C5. -/
  | fcKill (agent : Agent) (v : Word)
  /-- FC_INJECT (R474): A guarded write raises one injected report from a source. -/
  | fcInject (agent : Agent) (v : Word)
  /-- REEXECUTION_START (R467): A failed operation is re-issued on a free array. -/
  | reexecutionStart (t : Reexec)
  /-- BIST_CMD (R477): A commanded BIST starts or is refused. -/
  | bistCmd (agent : Agent) (v : Word)
  /-- BIST_RESULT (R477): A commanded BIST ends and its result is sent. -/
  | bistResult (sig : BitVec 128)
  /-- BIST_SLICE_START (R478): An in-field slice starts when permitted, else is deferred. -/
  | bistSliceStart (u : BitVec 6)
  /-- BIST_SLICE_END (R479): A slice ends; a signature mismatch raises BIST_FAIL. -/
  | bistSliceEnd (u : BitVec 6) (fail : Bool)
  /-- COVERAGE_LAPSE (R480): A unit exceeds BIST_INTERVAL without a full pass. -/
  | coverageLapse (u : BitVec 6)
  /-- COVERAGE_LAPSE_DOUBLE (R480): A unit reaches twice BIST_INTERVAL without a full pass. -/
  | coverageLapseDouble (u : BitVec 6)
  /-- WD_KICK (R505): A core kicks its watchdog. -/
  | wdKick (agent : Agent) (core : Fin 7) (token : BitVec 8)
  /-- WATCHDOG_EXPIRED (R506): A watchdog's window closes without a valid kick. -/
  | watchdogExpired (core : Fin 7)
  /-- ATTEST (R497): Base control pod that asks for an attestation object. -/
  | attest (no : Nat)
  /-- ATTEST_OUTPUT_WRITTEN (R497): The attestation object is written and the completion peg incremented. -/
  | attestOutputWritten
  /-- HOST_AUTH (R498): Base control pod that authenticates the host. -/
  | hostAuth (no : Nat)
  /-- KEY_IMPORT (R502): Base control pod that imports a model key. -/
  | keyImport (no : Nat)
  /-- MODEL_IMPORT (R502): Base control pod that decrypts a model package into a region. -/
  | modelImport (no : Nat)
  /-- KEY_CLEAR (R501): Base control pod that zeroes an imported key. -/
  | keyClear (no : Nat)
  /-- REGION_SET (R501): Base control pod that sets an encryption region entry. -/
  | regionSet (no : Nat)
  /-- SEC_SVN_COMMIT (R496): A privileged write blows counter bits up to the running security version. -/
  | secSvnCommit (agent : Agent) (v : Word)
  /-- TRNG_FAILED (R507): The entropy source fails its health tests and the failure is latched. -/
  | trngFailed
  /-- PM_SLEEP (R531): Base control pod that puts the device into H4 or is refused. -/
  | pmSleep (no : Nat)
  /-- H4_WAKE (R531): The wake count or light on lanes 44–46 wakes the device from H4. -/
  | h4Wake (light : Bool)
  /-- PM_BUDGET_INTERVAL (R519): Every 100 µs the power-management core sets L_S and L_AQ. -/
  | pmBudgetInterval (m : PowerSample)
  /-- GOVERNOR_SAMPLE (R521): Every 1 µs the governor samples VCORE and lowers levels above I_lim. -/
  | governorSample (ma : BitVec 20)
  /-- PM_EMERGENCY_CAP (R522): A write sets or removes the VCORE emergency cap. -/
  | pmEmergencyCap (agent : Agent) (v : Word)
  /-- DRAM_HOT_REDUCTION (R524): Every 100 ms the working package limit steps down or up. -/
  | dramHotReduction
  /-- DIE_TEMP_SAMPLE (R525): Every 100 µs the die sensors are read; 115 °C raises DIE_CRITICAL. -/
  | dieTempSample (temps : Vector (BitVec 16) 16)
  /-- CLOCK_STEP (R525): A timed clock step lowers or raises the cluster and sequence clocks. -/
  | clockStep
  /-- HOLD_LEVEL_ENTRY (R528): An idle domain descends a hold level after its idle time. -/
  | holdLevelEntry (d : Fin 26) (idle : BitVec 64)
  /-- DOMAIN_WAKE (R530): A held domain reaches H0, applying pending groups and starting waiting jobs. -/
  | domainWake (d : Fin 26)
  /-- PM_WAKE (R529): A write of a class wake budget changes the depth domains may descend. -/
  | pmWake (agent : Agent) (c : Fin 3) (v : Word)
  /-- MGT_LINK_UP (R427): The management port's 2.5GBASE-AU link completes acquisition and comes up, so HELLO and image transfer can be served. -/
  | mgtLinkUp
  /-- MGT_LINK_DOWN (R427): The management port link goes down, setting LINK_DOWN on page 0x2A0. -/
  | mgtLinkDown
  /-- PATROL_SCRUB_READ (R378): The patrol scrubber of DRAM or of a cluster's scratch reads its next codeword or granule, corrects single errors and reports uncorrectable ones. -/
  | patrolScrubRead (u : Fin 5) (upset : Option Upset)
  /-- SEQ_COMMAND_COMPLETE (R320): A sequence-engine command that took time (APPEND, RESTORE, CLOSE) finishes; at the last layer the group commits and out_peg increments. -/
  | seqCommandComplete (id : Nat) (mismatch : Bool)
  /-- MODEL_IMPORT_DONE (R502): A MODEL_IMPORT finishes decrypting its package into the region, or stops at a failing tag, and the pod completes. -/
  | modelImportDone
  /-- CORE_RESTARTED (R506): A firmware core that was reset, such as the power-management core after its watchdog expired, finishes restarting from the firmware region and resumes. -/
  | coreRestarted (core : Fin 7)
  deriving DecidableEq, Repr

end Sys2Proof
end

