-- ==== Sys2Proof/Decode.lean ====
section
/-!
DEFINITION. The command that a word of the table spells. The table gives no row an encoding (every row's list of
fields is empty), so no word spells a command.
-/

namespace Sys2Proof

/-- The command that `nbits` bits `w` spell by the table's bits: none, since no row has any (log entry 3). -/
def decodeTableWord (_nbits _w : Nat) : Option Instr := none

end Sys2Proof
end

