-- ==== Sys2Proof/Machine/Bits.lean ====
section
/-!
DEFINITION. Bit fields, byte order, CRC-32C and the sparse map in which the state keeps registers, memory and
tables of objects: helpers the meanings share. Everything is little-endian (R9).
-/

namespace Sys2Proof.Machine

/-- Field [hi:lo] of a number (R9: both ends included). -/
def fldN (w hi lo : Nat) : Nat := (w >>> lo) % 2 ^ (hi + 1 - lo)

/-- Field [hi:lo] of a register word. -/
def fld (w : Word) (hi lo : Nat) : Nat := fldN w.toNat hi lo

/-- Bit `i` of a number. -/
def bitN (w i : Nat) : Bool := (w >>> i) % 2 == 1

/-- `w` with field [hi:lo] replaced by `v` (its low bits). -/
def setFldN (w hi lo v : Nat) : Nat :=
  w - 2 ^ lo * fldN w hi lo + 2 ^ lo * (v % 2 ^ (hi + 1 - lo))

/-- One for true, zero for false. -/
def b2n (b : Bool) : Nat := if b then 1 else 0

/-- The number that little-endian bytes spell. -/
def leNat : List Byte → Nat
  | [] => 0
  | b :: t => b.toNat + 256 * leNat t

/-- `n` little-endian bytes of `v`. -/
def leBytes : Nat → Nat → List Byte
  | 0, _ => []
  | n + 1, v => BitVec.ofNat 8 v :: leBytes n (v / 256)

/-- `n` zero bytes. -/
def zeros (n : Nat) : List Byte := List.replicate n 0

/-- The first `n` bytes of a list, zero-filled at its end. -/
def padTo (n : Nat) (l : List Byte) : List Byte := l.take n ++ zeros (n - l.length)

/-- Bytes `off` to `off + n - 1` of a list as a little-endian number; bytes past the end count as zero. -/
def leAt (l : List Byte) (off n : Nat) : Nat := leNat ((l.drop off).take n)

/-- The signed value of the low `w` bits of a number. -/
def sgn (w v : Nat) : Int :=
  if v % 2 ^ w < 2 ^ (w - 1) then ((v % 2 ^ w : Nat) : Int) else ((v % 2 ^ w : Nat) : Int) - 2 ^ w

/-- `w` bits of a signed number, two's complement. -/
def unsgn (w : Nat) (v : Int) : Nat := (v % 2 ^ w).toNat

/-- `n` rounded up to a multiple of `m`. -/
def roundUp (n m : Nat) : Nat := (n + (m - 1)) / m * m

/-- The quotient rounded up. -/
def ceilDiv (n m : Nat) : Nat := (n + (m - 1)) / m

/-- `true` at every index below `n`. -/
def allBelow (n : Nat) (p : Nat → Bool) : Bool := (List.range n).all p

/-- Insert into a sorted list, behind the elements that do not come after it. -/
def insertBy {α : Type} (lt : α → α → Bool) (x : α) : List α → List α
  | [] => [x]
  | y :: t => if lt x y then x :: y :: t else y :: insertBy lt x t

/-- A stable sort. -/
def sortBy {α : Type} (lt : α → α → Bool) (l : List α) : List α := l.foldl (fun acc x => insertBy lt x acc) []

/-- Replace the element at an index of a list. -/
def setAt {α : Type} (l : List α) (i : Nat) (v : α) : List α := l.set i v

/-- A free value among the finite codes of a sign-and-magnitude format, negative zero left out: `half` codes are not negative, and
`sign` is the sign bit. -/
def finiteCode (half sign n : Nat) : Nat :=
  let v := n % (2 * half - 1)
  if v < half then v else v - half + sign + 1

/-! ### CRC-32C (R34) -/

/-- One bit of the reflected CRC-32C division. -/
def crcBit (c : Word) : Word :=
  if c.getLsbD 0 then (c >>> 1) ^^^ 0x82F63B78#32 else c >>> 1

/-- One byte of the reflected CRC-32C division. -/
def crcByte (c : Word) (b : Byte) : Word :=
  crcBit (crcBit (crcBit (crcBit (crcBit (crcBit (crcBit (crcBit (c ^^^ b.setWidth 32))))))))

/-- CRC-32C: initial value and final XOR of all ones, reflected in and out (R34). -/
@[irreducible] def crc32c (l : List Byte) : Nat := ((l.foldl crcByte 0xFFFFFFFF#32) ^^^ 0xFFFFFFFF#32).toNat

/-! ### The sparse map

A list of (key, value) pairs with strictly rising keys and no entry equal to what an unlisted key reads as, so
that equal maps are equal data. -/

/-- The value at a key; an unlisted key reads as the default. -/
def smGet {α : Type} (d : Nat → α) : List (Nat × α) → Nat → α
  | [], k => d k
  | (a, v) :: t, k => if a = k then v else smGet d t k

/-- Insert a value at a key of a list with rising keys. -/
def smPut {α : Type} : List (Nat × α) → Nat → α → List (Nat × α)
  | [], k, v => [(k, v)]
  | (a, w) :: t, k, v =>
    if k < a then (k, v) :: (a, w) :: t
    else if a = k then (k, v) :: t
    else (a, w) :: smPut t k v

/-- Remove a key. -/
def smDel {α : Type} : List (Nat × α) → Nat → List (Nat × α)
  | [], _ => []
  | (a, w) :: t, k => if a = k then smDel t k else (a, w) :: smDel t k

/-- Write a value at a key, keeping the canonical form. -/
def smSet {α : Type} [DecidableEq α] (d : Nat → α) (m : List (Nat × α)) (k : Nat) (v : α) : List (Nat × α) :=
  if v = d k then smDel m k else smPut m k v

/-- The keys rise strictly from above `lo`, and no entry equals its default. -/
def smWfFrom {α : Type} [DecidableEq α] (d : Nat → α) : Option Nat → List (Nat × α) → Bool
  | _, [] => true
  | lo, (a, v) :: t =>
    (match lo with | none => true | some l => decide (l < a)) && decide (v ≠ d a) && smWfFrom d (some a) t

/-- The canonical form of a sparse map. -/
def smWf {α : Type} [DecidableEq α] (d : Nat → α) (m : List (Nat × α)) : Bool := smWfFrom d none m

/-- Remove every key of a range. -/
def smDelRange {α : Type} (m : List (Nat × α)) (lo n : Nat) : List (Nat × α) :=
  m.filter (fun e => decide (e.1 < lo) || decide (lo + n ≤ e.1))

/-- Write a value at every key of a list. -/
def smSetAll {α : Type} [DecidableEq α] (d : Nat → α) (m : List (Nat × α)) (ks : List (Nat × α)) : List (Nat × α) :=
  ks.foldl (fun m e => smSet d m e.1 e.2) m

/-- Change every listed value; an unlisted key keeps its default. -/
def smMap {α : Type} [DecidableEq α] (d : Nat → α) (m : List (Nat × α)) (f : α → α) : List (Nat × α) :=
  (m.map (fun e => (e.1, f e.2))).filter (fun e => decide (e.2 ≠ d e.1))

/-! ### The shape of a register table -/

/-- Access codes (Table 0.3). -/
inductive Acc where
  | ro | rw | rws | rwi | wo | rwk | rwl
  deriving DecidableEq, Repr

/-- How a register's reset value is given. -/
inductive ResetVal where
  /-- A number in the table. -/
  | const (n : Nat)
  /-- "Identity": the colour matrix (Table 5.7). -/
  | identity
  /-- The normalisation means and scales (Table 5.7). -/
  | norm
  /-- The extrinsics of page 0x0A1 (R161). -/
  | extr
  /-- Table 18.5, frequency. -/
  | clkFreq
  /-- Table 18.5, deepest hold level. -/
  | clkHold
  /-- Table 16.2, through FC_SRC_CFG (Table 16.12). -/
  | source
  /-- Fixed by fuses or ROM: held in the fuses of the state. -/
  | fuse
  /-- Computed from other state. -/
  | derived
  deriving DecidableEq, Repr

/-- Whether a register is a half of a wide field that is staged when it is written (R66, second bullet). -/
inductive Wide where
  | no | low | high
  deriving DecidableEq, Repr

/-- One row of a register table: offset, array dimensions (count, stride in bytes), access, reset, writable bits,
the field ranges (low bit, width, least, greatest) of R10's third bullet, and the half of a wide field. -/
structure RegRow where
  off : Nat
  dims : List (Nat × Nat)
  acc : Acc
  reset : ResetVal
  mask : Nat
  ranges : List (Nat × Nat × Nat × Nat)
  wide : Wide
  deriving DecidableEq, Repr

/-- The rows of one page, and how pages of that layout repeat (count, stride in pages). -/
structure RegGroup where
  page : Nat
  dims : List (Nat × Nat)
  rows : List RegRow
  deriving DecidableEq, Repr

/-- Take `x` apart by strides, outermost first: the indices, if every one is in range and nothing is left. -/
def splitDims : List (Nat × Nat) → Nat → Option (List Nat)
  | [], x => if x = 0 then some [] else none
  | (n, st) :: t, x =>
    if x / st < n then
      match splitDims t (x % st) with
      | some is => some (x / st :: is)
      | none => none
    else none

end Sys2Proof.Machine
end

