-- ==== Sys2Proof/Machine/Flags.lean ====
section
/-!
DEFINITION. The data tag and its flags (Tables 2.12 and 1.6, R27, R54, R138).
-/

namespace Sys2Proof.Machine

/-- A data tag (Table 2.12). `flags` holds bits [60:54]: SHORT, LONG, PAD, CUT, VOID, CONTESTED,
SETTINGS_UNKNOWN, which is also the format of a flag byte (R138). -/
structure Tag where
  frame : Nat
  stream : Nat
  settings : Nat
  cls : Nat
  flags : Nat
  deriving DecidableEq, Repr

/-- SHORT. -/
abbrev flShort : Nat := 1
/-- LONG. -/
abbrev flLong : Nat := 2
/-- PAD. -/
abbrev flPad : Nat := 4
/-- CUT. -/
abbrev flCut : Nat := 8
/-- VOID. -/
abbrev flVoid : Nat := 16
/-- CONTESTED. -/
abbrev flContested : Nat := 32
/-- SETTINGS_UNKNOWN. -/
abbrev flUnknown : Nat := 64

/-- The 64 bits of a tag. -/
def tagBits (t : Tag) : Nat :=
  t.frame % 2 ^ 32 + 2 ^ 32 * (t.stream % 2 ^ 12) + 2 ^ 44 * (t.settings % 256) + 2 ^ 52 * (t.cls % 4)
    + 2 ^ 54 * (t.flags % 128)

/-- Read a tag. -/
def parseTag (v : Nat) : Tag :=
  { frame := v % 2 ^ 32, stream := fldN v 43 32, settings := fldN v 51 44, cls := fldN v 53 52, flags := fldN v 60 54 }

/-- The 8 bytes of a tag. -/
def tagBytes (t : Tag) : List Byte := leBytes 8 (tagBits t)

/-- A tag is void. -/
def isVoid (t : Tag) : Bool := bitN t.flags 4

/-- The flags that an output inherits: all but CONTESTED (Table 1.6). -/
def inheritFlags (l : List Nat) : Nat := (l.foldl (fun a f => a ||| f) 0) &&& 0x5F

/-- The tag of a job's output (R27): frame of the instance, class of the pod that started the job, the output
stream of the descriptor, and the tags of the data inputs. -/
def outputTag (frame cls stream : Nat) (ins : List Tag) : Tag :=
  { frame := frame, cls := cls,
    stream := match ins with
      | [] => stream
      | t :: r => if r.all (fun u => u.stream == t.stream) then t.stream else stream,
    settings := match ins with | [] => 0 | t :: _ => t.settings,
    flags := inheritFlags (ins.map (·.flags)) }

/-- The lag check of an input frame (R54). -/
def lagMet (cycle input lag : Nat) : Bool := (cycle + 2 ^ 32 - input % 2 ^ 32) % 2 ^ 32 == lag

end Sys2Proof.Machine
end

