-- ==== Sys2Proof/Machine/Codes.lean ====
section
/-!
DEFINITION. The status codes (R51 and the status table of each chapter) and the operation codes of the event and
statistics pods, by the spec's names.
-/

namespace Sys2Proof.Machine

namespace St

/-- Table 2.7. -/
abbrev OK : Nat := 0x0000
/-- Table 2.7. -/
abbrev INVALID : Nat := 0x0001
/-- Table 2.7. -/
abbrev DUPLICATE : Nat := 0x0002
/-- Table 2.7. -/
abbrev VERSION_UNSUPPORTED : Nat := 0x0010
/-- Table 2.7. -/
abbrev KIND_INVALID : Nat := 0x0011
/-- Table 2.7. -/
abbrev CLASS_INVALID : Nat := 0x0012
/-- Table 2.7. -/
abbrev LENGTH_INVALID : Nat := 0x0013
/-- Table 2.7. -/
abbrev LENGTH_EXCEEDED : Nat := 0x0014
/-- Table 2.7. -/
abbrev RESERVED_NONZERO : Nat := 0x0015
/-- Table 2.7. -/
abbrev CRC_ERROR : Nat := 0x0016
/-- Table 2.7. -/
abbrev TRAILER_MISMATCH : Nat := 0x0017
/-- Table 2.7. -/
abbrev SEQUENCE_STALE : Nat := 0x0018
/-- Table 2.7. -/
abbrev ORIGIN_LIMIT : Nat := 0x0019
/-- Table 2.7. -/
abbrev CLASS_UNAVAILABLE : Nat := 0x001A
/-- Table 2.7. -/
abbrev TARGET_INVALID : Nat := 0x001B
/-- Table 2.7. -/
abbrev PEG_INVALID : Nat := 0x001C
/-- Table 2.7. -/
abbrev LAUNCH_PAST : Nat := 0x001D
/-- Table 2.7. -/
abbrev LAUNCH_FAR : Nat := 0x001E
/-- Table 2.7. -/
abbrev DATA_COUNT_INVALID : Nat := 0x001F
/-- Table 2.7. -/
abbrev POD_OVERRUN : Nat := 0x0020
/-- Table 2.7. -/
abbrev STREAM_LOST : Nat := 0x0021
/-- Table 2.7. -/
abbrev CONTROL_OP_INVALID : Nat := 0x0022
/-- Table 2.7. -/
abbrev STREAM_POSITION_INVALID : Nat := 0x0023
/-- Table 2.7. -/
abbrev FRAME_MISMATCH : Nat := 0x0030
/-- Table 2.7. -/
abbrev ADDR_UNMAPPED : Nat := 0x0031
/-- Table 2.7. -/
abbrev ADDR_UNREACHABLE : Nat := 0x0032
/-- Table 4.11. -/
abbrev TSF_HEADER_INVALID : Nat := 0x0100
/-- Table 4.11. -/
abbrev TSF_LENGTH_INVALID : Nat := 0x0101
/-- Table 4.11. -/
abbrev TSF_LENGTH_EXCEEDED : Nat := 0x0102
/-- Table 4.11. -/
abbrev TSF_STALE : Nat := 0x0103
/-- Table 4.11. -/
abbrev MACSEC_FAIL : Nat := 0x0104
/-- Table 4.11. -/
abbrev STREAM_DISABLED : Nat := 0x0105
/-- Table 4.11. -/
abbrev CSI2_SEGMENT_LOST : Nat := 0x0106
/-- Table 4.11. -/
abbrev CSI2_ECC_UNCORRECTABLE : Nat := 0x0107
/-- Table 4.11. -/
abbrev CSI2_DT_UNEXPECTED : Nat := 0x0108
/-- Table 4.11. -/
abbrev CSI2_WC_TRUNCATED : Nat := 0x0109
/-- Table 4.11. -/
abbrev CSI2_EXCESS : Nat := 0x010A
/-- Table 4.11. -/
abbrev CSI2_CRC_ERROR : Nat := 0x010B
/-- Table 4.11. -/
abbrev LINE_MISSING : Nat := 0x010C
/-- Table 4.11. -/
abbrev LINE_ORDER : Nat := 0x010D
/-- Table 4.11. -/
abbrev FE_TIMEOUT : Nat := 0x010E
/-- Table 4.11. -/
abbrev FS_MISSING : Nat := 0x010F
/-- Table 4.11. -/
abbrev FRAME_MISSING : Nat := 0x0111
/-- Table 4.11. -/
abbrev FRAME_EXTRA : Nat := 0x0112
/-- Table 4.11. -/
abbrev LATE_DATA : Nat := 0x0113
/-- Table 4.11. -/
abbrev TP_CAMERA_FAIL : Nat := 0x0114
/-- Table 4.11. -/
abbrev FRAME_REPEAT : Nat := 0x0115
/-- Table 4.11. -/
abbrev POINTS_INVALID : Nat := 0x0116
/-- Table 4.11. -/
abbrev TIME_IMPLAUSIBLE : Nat := 0x0117
/-- Table 4.11. -/
abbrev SETTINGS_LATE : Nat := 0x0120
/-- Table 4.11. -/
abbrev SETTINGS_ID_INVALID : Nat := 0x0121
/-- Table 4.11. -/
abbrev SETTINGS_TARGET_FAR : Nat := 0x0122
/-- Table 4.11. -/
abbrev SETTINGS_DUPLICATE_TARGET : Nat := 0x0123
/-- Table 4.11. -/
abbrev SETTINGS_QUEUE_FULL : Nat := 0x0124
/-- Table 4.11. -/
abbrev SETTINGS_FROZEN : Nat := 0x0125
/-- Table 4.11. -/
abbrev CAM_NO_ACK : Nat := 0x0126
/-- Table 4.11. -/
abbrev CAM_NACK : Nat := 0x0127
/-- Table 4.11. -/
abbrev CAM_PORT_DOWN : Nat := 0x0128
/-- Table 4.11. -/
abbrev SETTINGS_NO_CYCLE : Nat := 0x0129
/-- Table 5.5. -/
abbrev PIPE_OVERRUN : Nat := 0x0200
/-- Table 5.5. -/
abbrev NO_SLOT : Nat := 0x0201
/-- Table 5.5. -/
abbrev TL_FAIL_MAIN : Nat := 0x0202
/-- Table 5.5. -/
abbrev TL_FAIL_TAP : Nat := 0x0203
/-- Table 5.5. -/
abbrev TAP_OVERRUN : Nat := 0x0204
/-- Table 5.5. -/
abbrev CONFIG_REJECTED : Nat := 0x0205
/-- Table 5.5. -/
abbrev POINTS_OVERFLOW : Nat := 0x0206
/-- Table 5.5. -/
abbrev PILLARS_OVERFLOW : Nat := 0x0207
/-- Table 5.5. -/
abbrev POINTS_OUT_OF_GRID : Nat := 0x0208
/-- Table 5.5. -/
abbrev SOURCE_SILENT : Nat := 0x0209
/-- Table 5.5. -/
abbrev POINTS_LATE : Nat := 0x020A
/-- Table 6.8. -/
abbrev QUEUE_INVALID : Nat := 0x0300
/-- Table 6.8. -/
abbrev BATCH_OP_INVALID : Nat := 0x0301
/-- Table 6.8. -/
abbrev BATCH_LENGTH_INVALID : Nat := 0x0302
/-- Table 6.8. -/
abbrev BATCH_ADDR_INVALID : Nat := 0x0303
/-- Table 6.8. -/
abbrev PEA_INVALID : Nat := 0x0304
/-- Table 6.8. -/
abbrev SPLIT_FIXED : Nat := 0x0305
/-- Table 6.8. -/
abbrev QUEUE_FULL : Nat := 0x0306
/-- Table 6.8. -/
abbrev BATCH_PARTIAL : Nat := 0x0310
/-- Table 6.8. -/
abbrev DECODE_STREAM_ERROR : Nat := 0x0320
/-- Table 6.8. -/
abbrev DECODE_CODEC_MISMATCH : Nat := 0x0321
/-- Table 6.8. -/
abbrev DECODE_PROFILE_UNSUPPORTED : Nat := 0x0322
/-- Table 6.8. -/
abbrev DECODE_LEVEL_UNSUPPORTED : Nat := 0x0323
/-- Table 6.8. -/
abbrev DECODE_FORMAT_MISMATCH : Nat := 0x0324
/-- Table 6.8. -/
abbrev DECODE_DIM_EXCEEDED : Nat := 0x0325
/-- Table 6.8. -/
abbrev DECODE_DIM_MISMATCH : Nat := 0x0326
/-- Table 6.8. -/
abbrev DECODE_DPB_EXCEEDED : Nat := 0x0327
/-- Table 6.8. -/
abbrev DECODE_REF_LOST : Nat := 0x0328
/-- Table 6.8. -/
abbrev DECODE_DEADLINE : Nat := 0x0329
/-- Table 6.8. -/
abbrev DECODE_INPUT_LOST : Nat := 0x032A
/-- Table 6.8. -/
abbrev PEA_SKIPPED : Nat := 0x032B
/-- Table 6.8. -/
abbrev DECODE_CONFIG_REJECTED : Nat := 0x032C
/-- Table 7.6. -/
abbrev WEIGHT_NONFINITE : Nat := 0x0400
/-- Table 7.6. -/
abbrev WEIGHT_SPAN_EXCEEDED : Nat := 0x0401
/-- Table 7.6. -/
abbrev ARITH_NONFINITE : Nat := 0x0402
/-- Table 7.6. -/
abbrev FORMAT_COMBINATION_INVALID : Nat := 0x0403
/-- Table 7.6. -/
abbrev CHUNK_INVALID : Nat := 0x0404
/-- Table 7.6. -/
abbrev RENARROW_CLAMPED : Nat := 0x0405
/-- Table 8.8. -/
abbrev DESC_VERSION_INVALID : Nat := 0x0500
/-- Table 8.8. -/
abbrev DESC_RESERVED_NONZERO : Nat := 0x0501
/-- Table 8.8. -/
abbrev SHAPE_INVALID : Nat := 0x0502
/-- Table 8.8. -/
abbrev MODE_COMBINATION_INVALID : Nat := 0x0503
/-- Table 8.8. -/
abbrev CLASS_MODE_INVALID : Nat := 0x0504
/-- Table 8.8. -/
abbrev CHECK_INSUFFICIENT : Nat := 0x0505
/-- Table 8.8. -/
abbrev PACKING_INVALID : Nat := 0x0506
/-- Table 8.8. -/
abbrev BROADCAST_MISMATCH : Nat := 0x0507
/-- Table 8.8. -/
abbrev OPERAND_ADDR_INVALID : Nat := 0x0508
/-- Table 8.8. -/
abbrev ARRAY_FENCED : Nat := 0x0509
/-- Table 8.8. -/
abbrev ABFT_FAIL : Nat := 0x0510
/-- Table 8.8. -/
abbrev PAIR_MISMATCH : Nat := 0x0511
/-- Table 8.8. -/
abbrev ABFT_LATE : Nat := 0x0512
/-- Table 8.8. -/
abbrev GROUP_FORM_MISMATCH : Nat := 0x0513
/-- Table 8.8. -/
abbrev EDGE_MISMATCH : Nat := 0x0514
/-- Table 8.8. -/
abbrev LOADER_MISMATCH : Nat := 0x0515
/-- Table 8.8. -/
abbrev WEIGHT_ECC_UNCORRECTABLE : Nat := 0x0516
/-- Table 9.13. -/
abbrev ENGINE_OP_INVALID : Nat := 0x0600
/-- Table 9.13. -/
abbrev FFT_SIZE_INVALID : Nat := 0x0601
/-- Table 9.13. -/
abbrev KERNEL_SIZE_INVALID : Nat := 0x0602
/-- Table 9.13. -/
abbrev CONV_PARAM_INVALID : Nat := 0x0603
/-- Table 9.13. -/
abbrev CMP_SHAPE_INVALID : Nat := 0x0604
/-- Table 9.13. -/
abbrev SORT_SIZE_INVALID : Nat := 0x0605
/-- Table 9.13. -/
abbrev VEC_SHAPE_INVALID : Nat := 0x0606
/-- Table 9.13. -/
abbrev ENGINE_FENCED : Nat := 0x0607
/-- Table 9.13. -/
abbrev ENGINE_MISMATCH : Nat := 0x0610
/-- Table 9.13. -/
abbrev ENGINE_ECC_UNCORRECTABLE : Nat := 0x0611
/-- Table 9.13. -/
abbrev SORT_SEGMENT_INVALID : Nat := 0x0612
/-- Table 9.13. -/
abbrev CMP_SATURATED : Nat := 0x0620
/-- Table 9.13. -/
abbrev VEC_DOMAIN : Nat := 0x0621
/-- Table 10.8. -/
abbrev BANK_CONFLICT : Nat := 0x0700
/-- Table 10.8. -/
abbrev SCR_ECC_UNCORRECTABLE : Nat := 0x0701
/-- Table 10.8. -/
abbrev ROLL_SPAN_ERROR : Nat := 0x0702
/-- Table 10.8. -/
abbrev ROLL_OVERFLOW : Nat := 0x0703
/-- Table 10.8. -/
abbrev ROLL_DISABLED : Nat := 0x0704
/-- Table 10.8. -/
abbrev ROLL_TOO_LARGE : Nat := 0x0705
/-- Table 10.8. -/
abbrev ROLL_BUSY : Nat := 0x0706
/-- Table 10.8. -/
abbrev PEG_UNCONFIGURED : Nat := 0x0707
/-- Table 10.8. -/
abbrev PEG_SATURATED : Nat := 0x0708
/-- Table 10.8. -/
abbrev PEG_INCREMENT_DISCARDED : Nat := 0x0709
/-- Table 10.8. -/
abbrev ROLL_SPAN_VOIDED : Nat := 0x070A
/-- Table 11.13. -/
abbrev SEQ_OP_INVALID : Nat := 0x0800
/-- Table 11.13. -/
abbrev CONTEXT_INVALID : Nat := 0x0801
/-- Table 11.13. -/
abbrev CONTEXT_BUSY : Nat := 0x0802
/-- Table 11.13. -/
abbrev CONTEXT_CLASS_MISMATCH : Nat := 0x0803
/-- Table 11.13. -/
abbrev GEOMETRY_INVALID : Nat := 0x0804
/-- Table 11.13. -/
abbrev MAP_TOO_LARGE : Nat := 0x0805
/-- Table 11.13. -/
abbrev RESERVE_EXHAUSTED : Nat := 0x0806
/-- Table 11.13. -/
abbrev APPEND_ORDER : Nat := 0x0807
/-- Table 11.13. -/
abbrev VIEW_TOO_LARGE : Nat := 0x0808
/-- Table 11.13. -/
abbrev VIEW_CLASS_INVALID : Nat := 0x0809
/-- Table 11.13. -/
abbrev VIEW_NOT_FOUND : Nat := 0x080A
/-- Table 11.13. -/
abbrev POOL_EXHAUSTED : Nat := 0x0810
/-- Table 11.13. -/
abbrev CONTEXT_FULL : Nat := 0x0811
/-- Table 11.13. -/
abbrev PAGE_DROP_FORBIDDEN : Nat := 0x0812
/-- Table 11.13. -/
abbrev RECOMPUTE_TIMEOUT : Nat := 0x0813
/-- Table 11.13. -/
abbrev RECOMPUTE_FAILED : Nat := 0x0814
/-- Table 11.13. -/
abbrev STATS_STALE : Nat := 0x0815
/-- Table 11.13. -/
abbrev MAP_CORRUPT : Nat := 0x0816
/-- Table 11.13. -/
abbrev SEQ_MISMATCH : Nat := 0x0817
/-- Table 11.13. -/
abbrev CACHE_ECC_UNCORRECTABLE : Nat := 0x0818
/-- Table 11.13. -/
abbrev VIEW_TRUNCATED : Nat := 0x0820
/-- Table 11.13. -/
abbrev RESTORE_DISCARDED : Nat := 0x0821
/-- Table 11.13. -/
abbrev KV_SATURATED : Nat := 0x0822
/-- Table 12.7. -/
abbrev GRAPH_INVALID : Nat := 0x0900
/-- Table 12.7. -/
abbrev GRAPH_SLOT_BUSY : Nat := 0x0901
/-- Table 12.7. -/
abbrev GRAPH_TOO_LARGE : Nat := 0x0902
/-- Table 12.7. -/
abbrev GRAPH_BOUND : Nat := 0x0903
/-- Table 12.7. -/
abbrev SLOT_QUEUE_FULL : Nat := 0x0904
/-- Table 12.7. -/
abbrev GRAPH_UNLOADED : Nat := 0x0906
/-- Table 12.7. -/
abbrev JOB_TIMEOUT : Nat := 0x0910
/-- Table 12.7. -/
abbrev CYCLE_DEADLINE : Nat := 0x0911
/-- Table 12.7. -/
abbrev REPLAY_ACTIVE : Nat := 0x0912
/-- Table 12.7. -/
abbrev RESULT_DROPPED : Nat := 0x0913
/-- Table 13.3. -/
abbrev DRAM_ECC_UNCORRECTABLE : Nat := 0x0A00
/-- Table 13.3. -/
abbrev DRAM_CE_RATE : Nat := 0x0A01
/-- Table 13.3. -/
abbrev MEM_ACCESS_DENIED : Nat := 0x0A02
/-- Table 13.3. -/
abbrev ENC_AUTH_FAIL : Nat := 0x0A03
/-- Table 13.3. -/
abbrev ENC_HOST_DENIED : Nat := 0x0A04
/-- Table 13.3. -/
abbrev ENC_COUNTER_EXHAUSTED : Nat := 0x0A05
/-- Table 13.3. -/
abbrev DRAM_OVERTEMP : Nat := 0x0A06
/-- Table 13.3. -/
abbrev DRAM_CRITICAL : Nat := 0x0A07
/-- Table 13.3. -/
abbrev MEM_TRAIN_FAIL : Nat := 0x0A08
/-- Table 14.8. -/
abbrev HOST_LINK_DOWN : Nat := 0x0B00
/-- Table 14.8. -/
abbrev GUYLINE_DOWN : Nat := 0x0B01
/-- Table 14.8. -/
abbrev LINK_RETRY_FAIL : Nat := 0x0B02
/-- Table 14.8. -/
abbrev GUYLINE_AUTH_FAIL : Nat := 0x0B03
/-- Table 14.8. -/
abbrev GUYLINE_E2E_CRC : Nat := 0x0B04
/-- Table 14.8. -/
abbrev GUYLINE_HOP_LIMIT : Nat := 0x0B05
/-- Table 14.8. -/
abbrev GUYLINE_RING_ID_CONFLICT : Nat := 0x0B06
/-- Table 14.8. -/
abbrev GUYLINE_PEER_UNEXPECTED : Nat := 0x0B07
/-- Table 14.8. -/
abbrev RIDGE_UNLOCKED : Nat := 0x0B08
/-- Table 14.8. -/
abbrev OPEN_FIBRE : Nat := 0x0B09
/-- Table 14.8. -/
abbrev LASER_FAULT : Nat := 0x0B0A
/-- Table 14.8. -/
abbrev MGT_AUTH_REQUIRED : Nat := 0x0B0B
/-- Table 14.8. -/
abbrev MGT_SEQUENCE_STALE : Nat := 0x0B0C
/-- Table 14.8. -/
abbrev REMOTE_TIMEOUT : Nat := 0x0B0D
/-- Table 14.8. -/
abbrev GUYLINE_EXPIRED : Nat := 0x0B0E
/-- Table 15.8. -/
abbrev SENTRY_LATE : Nat := 0x0C00
/-- Table 15.8. -/
abbrev SENTRY_VOID : Nat := 0x0C01
/-- Table 15.8. -/
abbrev COMP_INCOMPLETE : Nat := 0x0C02
/-- Table 15.8. -/
abbrev COMP_MALFORMED : Nat := 0x0C03
/-- Table 15.8. -/
abbrev COMP_DISAGREE : Nat := 0x0C04
/-- Table 15.8. -/
abbrev COMP_RAIL_FAULT : Nat := 0x0C05
/-- Table 15.8. -/
abbrev COMP_SAFE : Nat := 0x0C06
/-- Table 15.8. -/
abbrev LOCKSTEP_MISMATCH : Nat := 0x0C07
/-- Table 15.8. -/
abbrev DEBUG_SAFE : Nat := 0x0C08
/-- Table 15.8. -/
abbrev SNT_ECC_UNCORRECTABLE : Nat := 0x0C09
/-- Table 15.8. -/
abbrev COMP_NOT_JUDGED : Nat := 0x0C0A
/-- Table 16.9. -/
abbrev COVERAGE_LAPSE : Nat := 0x0D00
/-- Table 16.9. -/
abbrev COVERAGE_LAPSE_DOUBLE : Nat := 0x0D01
/-- Table 16.9. -/
abbrev BIST_FAIL : Nat := 0x0D02
/-- Table 16.9. -/
abbrev FC_SELF_FAULT : Nat := 0x0D03
/-- Table 16.9. -/
abbrev FC_FORCED : Nat := 0x0D04
/-- Table 16.9. -/
abbrev FC_KILLED : Nat := 0x0D05
/-- Table 16.9. -/
abbrev RECOVERY_LIMIT : Nat := 0x0D06
/-- Table 16.9. -/
abbrev BIST_REFUSED : Nat := 0x0D07
/-- Table 17.10. -/
abbrev IMAGE_MALFORMED : Nat := 0x0E00
/-- Table 17.10. -/
abbrev IMAGE_TOO_LARGE : Nat := 0x0E01
/-- Table 17.10. -/
abbrev IMAGE_INCOMPATIBLE : Nat := 0x0E02
/-- Table 17.10. -/
abbrev IMAGE_SIGNER_UNKNOWN : Nat := 0x0E03
/-- Table 17.10. -/
abbrev IMAGE_SIGNATURE_INVALID : Nat := 0x0E04
/-- Table 17.10. -/
abbrev IMAGE_ROLLBACK : Nat := 0x0E05
/-- Table 17.10. -/
abbrev IMAGE_INCOMPLETE : Nat := 0x0E06
/-- Table 17.10. -/
abbrev IMAGE_BUSY : Nat := 0x0E07
/-- Table 17.10. -/
abbrev IMAGE_TIMEOUT : Nat := 0x0E08
/-- Table 17.10. -/
abbrev CONFIG_INVALID : Nat := 0x0E09
/-- Table 17.10. -/
abbrev SESSION_BUSY : Nat := 0x0E10
/-- Table 17.10. -/
abbrev SESSION_AUTH_FAIL : Nat := 0x0E11
/-- Table 17.10. -/
abbrev CREDENTIAL_REVOKED : Nat := 0x0E12
/-- Table 17.10. -/
abbrev PRIVILEGE_DENIED : Nat := 0x0E13
/-- Table 17.10. -/
abbrev HOST_UNAUTHENTICATED : Nat := 0x0E14
/-- Table 17.10. -/
abbrev HOST_AUTH_FAIL : Nat := 0x0E15
/-- Table 17.10. -/
abbrev KEY_BLOB_INVALID : Nat := 0x0E20
/-- Table 17.10. -/
abbrev KEY_SLOT_BUSY : Nat := 0x0E21
/-- Table 17.10. -/
abbrev MODEL_IMPORT_FAIL : Nat := 0x0E22
/-- Table 17.10. -/
abbrev SVN_COMMIT_REFUSED : Nat := 0x0E23
/-- Table 17.10. -/
abbrev TRNG_FAILED : Nat := 0x0E24
/-- Table 17.10. -/
abbrev WATCHDOG_EXPIRED : Nat := 0x0E30
/-- Table 17.10. -/
abbrev FUSE_WRITE_FAIL : Nat := 0x0E31
/-- Table 18.9. -/
abbrev SUPPLY_UNDERVOLTAGE : Nat := 0x0F00
/-- Table 18.9. -/
abbrev SUPPLY_OVERVOLTAGE : Nat := 0x0F01
/-- Table 18.9. -/
abbrev CLOCK_LOST : Nat := 0x0F02
/-- Table 18.9. -/
abbrev PLL_UNLOCKED : Nat := 0x0F03
/-- Table 18.9. -/
abbrev DIE_CRITICAL : Nat := 0x0F04
/-- Table 18.9. -/
abbrev POWER_LIMIT_UNHELD : Nat := 0x0F05
/-- Table 18.9. -/
abbrev SLEEP_REFUSED : Nat := 0x0F06

end St

namespace Ev

/-- Table 2.17. -/
abbrev POD_REJECTED : Nat := 0x0080
/-- Table 2.17. -/
abbrev STREAM_LOST : Nat := 0x0081
/-- Table 2.17. -/
abbrev DUPLICATE : Nat := 0x0082
/-- Table 12.6. -/
abbrev JOB_DONE : Nat := 0x0980
/-- Table 12.6. -/
abbrev CYCLE_INCOMPLETE : Nat := 0x0981
/-- Table 12.6. -/
abbrev RR_FROZEN : Nat := 0x0982
/-- Table 12.6. -/
abbrev RR_DONE : Nat := 0x0983
/-- Table 12.6. -/
abbrev EVENT_LOST : Nat := 0x0984
/-- Table 12.6. -/
abbrev PAGE_EVENT : Nat := 0x0985
/-- Table 12.6. -/
abbrev RESULT_DROPPED : Nat := 0x0986
/-- Table 12.6. -/
abbrev ADDR_UNMAPPED : Nat := 0x0987
/-- Table 16.10. -/
abbrev FAULT_RECORD : Nat := 0x0D80
/-- Table 16.10. -/
abbrev SAFE_ENTERED : Nat := 0x0D81
/-- Table 16.10. -/
abbrev SAFE_LEFT : Nat := 0x0D82
/-- Table 16.10. -/
abbrev BIST_RESULT : Nat := 0x0D83

end Ev

end Sys2Proof.Machine
end

