-- ==== Sys2Proof/Config.lean ====
section
/-!
DEFINITION. What an implementation fixes and the spec leaves open: opaque constants without a body, so that
nothing can be proved of their values (free values).
-/

namespace Sys2Proof.Config

/-- A value the spec leaves open, drawn fresh: the counter of the state says which draw it is (log entry 4). -/
opaque freeValue : Nat → Nat

/-- The 16-bit placement code of a failing unit (R19: opaque to software; log entry 5). -/
opaque placementCode : Nat → Nat

/-- The 16-bit placement code of a failing array or engine, from where on it the operation lay (R19, R239, R252: opaque to
software; log entry 5). -/
opaque unitPlacement : Nat → List Nat → Nat

/-- The AES-256-GCM tag of a plaintext under a key, a 96-bit IV and additional data (R381): by external standard, its
value is not in the spec (log entry 6). -/
opaque gcmTag (key : List Byte) (iv : Nat) (aad plain : List Byte) : List Byte

/-- The AES-256-GCM ciphertext of a plaintext (R381; log entry 6). -/
opaque gcmCipher (key : List Byte) (iv : Nat) (plain : List Byte) : List Byte

/-- The plaintext of an AES-256-GCM ciphertext (R502; log entry 6). -/
opaque gcmPlain (key : List Byte) (iv : Nat) (cipher : List Byte) : List Byte

/-- SHAKE256 with an output of `n` bytes (R488; log entry 6). -/
opaque shake256 (n : Nat) (data : List Byte) : List Byte

/-- KDF(K, X, S): KMAC256 with key, input and customisation string, 256 bits out (R486; log entry 6). -/
opaque kdf (key input custom : List Byte) : List Byte

/-- The Falcon-1024 public key of a seed (R486; log entry 6). -/
opaque falconPublic (seed : List Byte) : List Byte

/-- The padded Falcon-1024 signature of a message under a seed's key (R488; log entry 6). -/
opaque falconSign (seed msg : List Byte) : List Byte

/-- A Falcon-1024 signature verifies over a message with a public key (R489; log entry 6). -/
opaque falconVerify (key msg sig : List Byte) : Bool

/-- The ML-KEM-1024 encapsulation key of a seed (R486; log entry 6). -/
opaque kemPublic (seed : List Byte) : List Byte

/-- The shared secret that a seed's key takes from an ML-KEM-1024 ciphertext (R486; log entry 6). -/
opaque kemDecaps (seed cipher : List Byte) : List Byte

/-- The ciphertext and the shared secret of an encapsulation to a key with random bytes (R504; log entry 6). -/
opaque kemEncaps (key random : List Byte) : List Byte × List Byte

/-- The entries of a wrapped-secrets section under its key, as port, CKN and CAK: the spec gives no layout for them (R503;
log entry 8). -/
opaque wrappedSecrets (key section_ : List Byte) : List (Nat × List Byte × List Byte)

/-- The device unique secret (R485): nothing but the ROM's key unit reads it (log entry 9). -/
opaque dus : List Byte

/-- The ROM anchor: the hash of the Zhevmas root signing key (R489; log entry 9). -/
opaque romAnchor : List Byte

/-- The PCI vendor ID assigned to Zhevmas Photonic Systems (R77; log entry 9). -/
opaque vendorId : Nat

/-- ID_STEP: silicon stepping and ROM version (R77; log entry 9). -/
opaque stepping : Nat

/-- The class of the packets that carry host accesses through BAR2 to a remote device: the spec names none, and one class
keeps them in order (R56, R60; log entry 151). -/
opaque bar2Class : Nat

/-- A result the spec does not state for these operands (an operation outside the numbers its format can express):
`op` names the operation, `args` its operands (log entry 7). -/
opaque openResult (op : Nat) (args : List Nat) : Nat

end Sys2Proof.Config
end

