-- ==== Sys2Proof/Machine/RegTable.lean ====
section
/-!
DEFINITION. The block registers of every page (R63, and the register tables of chapters 2 to 18), each with
its local address, the dimensions of its array, its access code (Table 0.3), its reset value, its writable bits
(a reserved bit ignores what is written, R10) and the field ranges that the third bullet of R10 checks.
The named addresses of namespace `A` are the register names of the spec; an argument is an index of the array.
-/

namespace Sys2Proof.Machine

namespace A

/-- CLS_CTL (R44). -/
abbrev CLS_CTL : Nat := 0x4100
/-- CLS_SLOTS_S (R44). -/
abbrev CLS_SLOTS_S : Nat := 0x4104
/-- CLS_SLOTS_A (R44). -/
abbrev CLS_SLOTS_A : Nat := 0x4108
/-- CLS_SLOTS_Q (R44). -/
abbrev CLS_SLOTS_Q : Nat := 0x410C
/-- CLS_CLUSTERS (R44). -/
abbrev CLS_CLUSTERS : Nat := 0x4110
/-- CLS_DECODE (R44). -/
abbrev CLS_DECODE : Nat := 0x4114
/-- CLS_STATUS (R44). -/
abbrev CLS_STATUS : Nat := 0x4118
/-- POD_STREAM_POS (R52). -/
abbrev POD_STREAM_POS : Nat := 0xE1100
/-- POD_CREDIT (R52). -/
abbrev POD_CREDIT : Nat := 0xE1104
/-- POD_RING_CFG (R52). -/
abbrev POD_RING_CFG : Nat := 0xE1108
/-- POD_STATE (R52). -/
abbrev POD_STATE : Nat := 0xE110C
/-- POD_RESYNC (R52). -/
abbrev POD_RESYNC : Nat := 0xE1110
/-- POD_REJECT_COUNT (R52). -/
abbrev POD_REJECT_COUNT : Nat := 0xE1114
/-- POD_ACCEPT_COUNT (R52). -/
abbrev POD_ACCEPT_COUNT : Nat := 0xE1118
/-- ORIGIN_OPEN (R52). -/
abbrev ORIGIN_OPEN : Nat := 0xE2100
/-- DUP_COUNT (R52). -/
abbrev DUP_COUNT : Nat := 0xE2104
/-- RETAIN_CFG (R52). -/
abbrev RETAIN_CFG : Nat := 0xE2108
/-- RETAIN_FREED (R52). -/
abbrev RETAIN_FREED : Nat := 0xE210C
/-- ORIGIN_QUERY (R52). -/
abbrev ORIGIN_QUERY : Nat := 0xE2110
/-- ID_VENDOR (R77). -/
abbrev ID_VENDOR : Nat := 0x100
/-- ID_DEVICE (R77). -/
abbrev ID_DEVICE : Nat := 0x104
/-- ID_GRADE (R77). -/
abbrev ID_GRADE : Nat := 0x108
/-- ID_CODE0 (R77). -/
abbrev ID_CODE0 : Nat := 0x10C
/-- ID_CODE1 (R77). -/
abbrev ID_CODE1 : Nat := 0x110
/-- ID_CODE2 (R77). -/
abbrev ID_CODE2 : Nat := 0x114
/-- ID_STEP (R77). -/
abbrev ID_STEP : Nat := 0x118
/-- ID_RING (R77). -/
abbrev ID_RING : Nat := 0x11C
/-- UPDATE_STROBE (R85). -/
abbrev UPDATE_STROBE : Nat := 0x1100
/-- UPDATE_MODE (R85). -/
abbrev UPDATE_MODE : Nat := 0x1104
/-- UPDATE_FG_LO (R85). -/
abbrev UPDATE_FG_LO : Nat := 0x1108
/-- UPDATE_FG_HI (R85). -/
abbrev UPDATE_FG_HI : Nat := 0x110C
/-- UPDATE_PENDING (R85). -/
abbrev UPDATE_PENDING : Nat := 0x1110
/-- PORT_CFG (R125). -/
abbrev PORT_CFG (i : Nat) : Nat := 0x40100 + 0x1000 * i
/-- PORT_STATUS (R125). -/
abbrev PORT_STATUS (i : Nat) : Nat := 0x40104 + 0x1000 * i
/-- PORT_GPTP (R125). -/
abbrev PORT_GPTP (i : Nat) : Nat := 0x40108 + 0x1000 * i
/-- PORT_PDELAY (R125). -/
abbrev PORT_PDELAY (i : Nat) : Nat := 0x4010C + 0x1000 * i
/-- PORT_SEQ_GAP (R125). -/
abbrev PORT_SEQ_GAP (i : Nat) : Nat := 0x40110 + 0x1000 * i
/-- PORT_COUNT (R125). -/
abbrev PORT_COUNT (i j : Nat) : Nat := 0x40114 + 0x1000 * i + 0x4 * j
/-- PORT_COUNT_HI (R125). -/
abbrev PORT_COUNT_HI (i j : Nat) : Nat := 0x40140 + 0x1000 * i + 0x4 * j
/-- ST_CTL (R126). -/
abbrev ST_CTL (i j : Nat) : Nat := 0x60100 + 0x1000 * i + 0x40 * j
/-- ST_FORMAT (R126). -/
abbrev ST_FORMAT (i j : Nat) : Nat := 0x60104 + 0x1000 * i + 0x40 * j
/-- ST_GEOM (R126). -/
abbrev ST_GEOM (i j : Nat) : Nat := 0x60108 + 0x1000 * i + 0x40 * j
/-- ST_PAD (R126). -/
abbrev ST_PAD (i j : Nat) : Nat := 0x6010C + 0x1000 * i + 0x40 * j
/-- ST_FS_OFFSET (R126). -/
abbrev ST_FS_OFFSET (i j : Nat) : Nat := 0x60110 + 0x1000 * i + 0x40 * j
/-- ST_DEADLINES (R126). -/
abbrev ST_DEADLINES (i j : Nat) : Nat := 0x60114 + 0x1000 * i + 0x40 * j
/-- ST_TP_DEADLINE (R126). -/
abbrev ST_TP_DEADLINE (i j : Nat) : Nat := 0x60118 + 0x1000 * i + 0x40 * j
/-- ST_TP (R126). -/
abbrev ST_TP (i j : Nat) : Nat := 0x6011C + 0x1000 * i + 0x40 * j
/-- ST_TP_SEED (R126). -/
abbrev ST_TP_SEED (i j : Nat) : Nat := 0x60120 + 0x1000 * i + 0x40 * j
/-- ST_EMB (R126). -/
abbrev ST_EMB (i j : Nat) : Nat := 0x60124 + 0x1000 * i + 0x40 * j
/-- ST_STATUS (R126). -/
abbrev ST_STATUS (i j : Nat) : Nat := 0x60128 + 0x1000 * i + 0x40 * j
/-- ST_FRAMES (R126). -/
abbrev ST_FRAMES (i j : Nat) : Nat := 0x6012C + 0x1000 * i + 0x40 * j
/-- ST_FLAGGED (R126). -/
abbrev ST_FLAGGED (i j : Nat) : Nat := 0x60130 + 0x1000 * i + 0x40 * j
/-- ST_MISSING (R126). -/
abbrev ST_MISSING (i j : Nat) : Nat := 0x60134 + 0x1000 * i + 0x40 * j
/-- ST_TP_FAIL (R126). -/
abbrev ST_TP_FAIL (i j : Nat) : Nat := 0x60138 + 0x1000 * i + 0x40 * j
/-- ST_UNFRAMED (R126). -/
abbrev ST_UNFRAMED (i j : Nat) : Nat := 0x6013C + 0x1000 * i + 0x40 * j
/-- CAM_ACK_TIMEOUT (R127). -/
abbrev CAM_ACK_TIMEOUT : Nat := 0x70100
/-- CAM_FREEZE (R127). -/
abbrev CAM_FREEZE : Nat := 0x70104
/-- CAM_LEAD (R127). -/
abbrev CAM_LEAD (i : Nat) : Nat := 0x70200 + 0x20 * i
/-- CAM_APPLY_OFFSET (R127). -/
abbrev CAM_APPLY_OFFSET (i : Nat) : Nat := 0x70204 + 0x20 * i
/-- CAM_FG (R127). -/
abbrev CAM_FG (i : Nat) : Nat := 0x70208 + 0x20 * i
/-- CAM_STATUS (R127). -/
abbrev CAM_STATUS (i : Nat) : Nat := 0x7020C + 0x20 * i
/-- CAM_MSG_COUNT (R127). -/
abbrev CAM_MSG_COUNT (i : Nat) : Nat := 0x70210 + 0x20 * i
/-- CAM_FAIL_COUNT (R127). -/
abbrev CAM_FAIL_COUNT (i : Nat) : Nat := 0x70214 + 0x20 * i
/-- PIPE_STATUS (R158). -/
abbrev PIPE_STATUS (i : Nat) : Nat := 0x80100 + 0x2000 * i
/-- PIPE_LOAD (R158). -/
abbrev PIPE_LOAD (i : Nat) : Nat := 0x80104 + 0x2000 * i
/-- PIPE_OVERRUN_COUNT (R158). -/
abbrev PIPE_OVERRUN_COUNT (i : Nat) : Nat := 0x80108 + 0x2000 * i
/-- PIPE_NOSLOT_COUNT (R158). -/
abbrev PIPE_NOSLOT_COUNT (i : Nat) : Nat := 0x8010C + 0x2000 * i
/-- PIPE_TL_FAIL_COUNT (R158). -/
abbrev PIPE_TL_FAIL_COUNT (i : Nat) : Nat := 0x80110 + 0x2000 * i
/-- TAP_CFG (R158). -/
abbrev TAP_CFG (i j : Nat) : Nat := 0x80140 + 0x2000 * i + 0x10 * j
/-- TAP_SCALE (R158). -/
abbrev TAP_SCALE (i j : Nat) : Nat := 0x80144 + 0x2000 * i + 0x10 * j
/-- TAP_BASE (R158). -/
abbrev TAP_BASE (i j : Nat) : Nat := 0x80148 + 0x2000 * i + 0x10 * j
/-- TAP_OVERRUN_COUNT (R158). -/
abbrev TAP_OVERRUN_COUNT (i j : Nat) : Nat := 0x8014C + 0x2000 * i + 0x10 * j
/-- SL_CTL (R159). -/
abbrev SL_CTL (i j : Nat) : Nat := 0x81100 + 0x2000 * i + 0x200 * j
/-- SL_BLACK (R159). -/
abbrev SL_BLACK (i j k : Nat) : Nat := 0x81104 + 0x2000 * i + 0x200 * j + 0x4 * k
/-- SL_DC_CTL (R159). -/
abbrev SL_DC_CTL (i j : Nat) : Nat := 0x81114 + 0x2000 * i + 0x200 * j
/-- SL_DC_KNEE (R159). -/
abbrev SL_DC_KNEE (i j k : Nat) : Nat := 0x81118 + 0x2000 * i + 0x200 * j + 0x4 * k
/-- SL_CROP_XY (R159). -/
abbrev SL_CROP_XY (i j : Nat) : Nat := 0x81158 + 0x2000 * i + 0x200 * j
/-- SL_CROP_WH (R159). -/
abbrev SL_CROP_WH (i j : Nat) : Nat := 0x8115C + 0x2000 * i + 0x200 * j
/-- SL_DECIM (R159). -/
abbrev SL_DECIM (i j : Nat) : Nat := 0x81160 + 0x2000 * i + 0x200 * j
/-- SL_CSC (R159). -/
abbrev SL_CSC (i j k : Nat) : Nat := 0x81164 + 0x2000 * i + 0x200 * j + 0x4 * k
/-- SL_NORM (R159). -/
abbrev SL_NORM (i j k : Nat) : Nat := 0x81194 + 0x2000 * i + 0x200 * j + 0x4 * k
/-- SL_OUT_BASE_LO (R159). -/
abbrev SL_OUT_BASE_LO (i j : Nat) : Nat := 0x811B0 + 0x2000 * i + 0x200 * j
/-- SL_OUT_BASE_HI (R159). -/
abbrev SL_OUT_BASE_HI (i j : Nat) : Nat := 0x811B4 + 0x2000 * i + 0x200 * j
/-- SL_OUT_STRIDE (R159). -/
abbrev SL_OUT_STRIDE (i j : Nat) : Nat := 0x811B8 + 0x2000 * i + 0x200 * j
/-- SL_OUT_PITCH (R159). -/
abbrev SL_OUT_PITCH (i j : Nat) : Nat := 0x811BC + 0x2000 * i + 0x200 * j
/-- SL_OUT_PLANE (R159). -/
abbrev SL_OUT_PLANE (i j : Nat) : Nat := 0x811C0 + 0x2000 * i + 0x200 * j
/-- SL_TAG_BASE_LO (R159). -/
abbrev SL_TAG_BASE_LO (i j : Nat) : Nat := 0x811C4 + 0x2000 * i + 0x200 * j
/-- SL_TAG_BASE_HI (R159). -/
abbrev SL_TAG_BASE_HI (i j : Nat) : Nat := 0x811C8 + 0x2000 * i + 0x200 * j
/-- SL_TAG_STRIDE (R159). -/
abbrev SL_TAG_STRIDE (i j : Nat) : Nat := 0x811CC + 0x2000 * i + 0x200 * j
/-- SL_OUT_PEG (R159). -/
abbrev SL_OUT_PEG (i j : Nat) : Nat := 0x811D0 + 0x2000 * i + 0x200 * j
/-- SL_STATUS (R159). -/
abbrev SL_STATUS (i j : Nat) : Nat := 0x811D4 + 0x2000 * i + 0x200 * j
/-- SL_FRAMES (R159). -/
abbrev SL_FRAMES (i j : Nat) : Nat := 0x811D8 + 0x2000 * i + 0x200 * j
/-- STAT_LUMA (R160). -/
abbrev STAT_LUMA : Nat := 0xA8100
/-- STAT_CLASS (R160). -/
abbrev STAT_CLASS : Nat := 0xA8104
/-- STE_CTL (R160). -/
abbrev STE_CTL (i : Nat) : Nat := 0xA8200 + 0x20 * i
/-- STE_WIN_XY (R160). -/
abbrev STE_WIN_XY (i : Nat) : Nat := 0xA8204 + 0x20 * i
/-- STE_WIN_WH (R160). -/
abbrev STE_WIN_WH (i : Nat) : Nat := 0xA8208 + 0x20 * i
/-- STE_SAT (R160). -/
abbrev STE_SAT (i : Nat) : Nat := 0xA820C + 0x20 * i
/-- STE_COUNT (R160). -/
abbrev STE_COUNT (i : Nat) : Nat := 0xA8210 + 0x20 * i
/-- PP_CTL (R161). -/
abbrev PP_CTL : Nat := 0xA0100
/-- PP_SOURCES (R161). -/
abbrev PP_SOURCES : Nat := 0xA0104
/-- PP_WIN_START (R161). -/
abbrev PP_WIN_START : Nat := 0xA0108
/-- PP_WIN_LEN (R161). -/
abbrev PP_WIN_LEN : Nat := 0xA010C
/-- PP_GUARD (R161). -/
abbrev PP_GUARD : Nat := 0xA0110
/-- PP_GRID_N (R161). -/
abbrev PP_GRID_N : Nat := 0xA0114
/-- PP_GRID_ORG (R161). -/
abbrev PP_GRID_ORG (i : Nat) : Nat := 0xA0118 + 0x4 * i
/-- PP_GRID_CELL (R161). -/
abbrev PP_GRID_CELL (i : Nat) : Nat := 0xA0124 + 0x4 * i
/-- PP_CAP (R161). -/
abbrev PP_CAP : Nat := 0xA0130
/-- PP_BUF_BASE_LO (R161). -/
abbrev PP_BUF_BASE_LO : Nat := 0xA0134
/-- PP_BUF_BASE_HI (R161). -/
abbrev PP_BUF_BASE_HI : Nat := 0xA0138
/-- PP_BUF_SIZE (R161). -/
abbrev PP_BUF_SIZE : Nat := 0xA013C
/-- PP_OUT_BASE_LO (R161). -/
abbrev PP_OUT_BASE_LO : Nat := 0xA0140
/-- PP_OUT_BASE_HI (R161). -/
abbrev PP_OUT_BASE_HI : Nat := 0xA0144
/-- PP_OUT_PEG (R161). -/
abbrev PP_OUT_PEG : Nat := 0xA0148
/-- PP_STATUS (R161). -/
abbrev PP_STATUS : Nat := 0xA014C
/-- PP_LAST_POINTS (R161). -/
abbrev PP_LAST_POINTS : Nat := 0xA0150
/-- PP_LAST_TIME (R161). -/
abbrev PP_LAST_TIME : Nat := 0xA0154
/-- PP_DROPPED (R161). -/
abbrev PP_DROPPED : Nat := 0xA0158
/-- PP_LATE (R161). -/
abbrev PP_LATE : Nat := 0xA015C
/-- PP_UNFRAMED (R161). -/
abbrev PP_UNFRAMED : Nat := 0xA0160
/-- DEC_STATUS (R184). -/
abbrev DEC_STATUS : Nat := 0xC0100
/-- DEC_LOAD (R184). -/
abbrev DEC_LOAD : Nat := 0xC0104
/-- DEC_BACKLOG (R184). -/
abbrev DEC_BACKLOG : Nat := 0xC0108
/-- DEC_LOAD_HYST (R184). -/
abbrev DEC_LOAD_HYST : Nat := 0xC010C
/-- DEC_VOID_COUNT (R184). -/
abbrev DEC_VOID_COUNT : Nat := 0xC0110
/-- DEC_DEADLINE_COUNT (R184). -/
abbrev DEC_DEADLINE_COUNT : Nat := 0xC0114
/-- DQ_CTL (R184). -/
abbrev DQ_CTL (i j : Nat) : Nat := 0xC4100 + 0x1000 * i + 0x40 * j
/-- DQ_MAXDIM (R184). -/
abbrev DQ_MAXDIM (i j : Nat) : Nat := 0xC4104 + 0x1000 * i + 0x40 * j
/-- DQ_OUTDIM (R184). -/
abbrev DQ_OUTDIM (i j : Nat) : Nat := 0xC4108 + 0x1000 * i + 0x40 * j
/-- DQ_SLOT (R184). -/
abbrev DQ_SLOT (i j : Nat) : Nat := 0xC410C + 0x1000 * i + 0x40 * j
/-- DQ_SLOT_DATA (R184). -/
abbrev DQ_SLOT_DATA (i j : Nat) : Nat := 0xC4110 + 0x1000 * i + 0x40 * j
/-- DQ_MAXBYTES (R184). -/
abbrev DQ_MAXBYTES (i j : Nat) : Nat := 0xC4114 + 0x1000 * i + 0x40 * j
/-- DQ_BUDGET (R184). -/
abbrev DQ_BUDGET (i j : Nat) : Nat := 0xC4118 + 0x1000 * i + 0x40 * j
/-- DQ_LOAD_THRESH (R184). -/
abbrev DQ_LOAD_THRESH (i j : Nat) : Nat := 0xC411C + 0x1000 * i + 0x40 * j
/-- DQ_PEG (R184). -/
abbrev DQ_PEG (i j : Nat) : Nat := 0xC4120 + 0x1000 * i + 0x40 * j
/-- DQ_OUT_BASE_LO (R184). -/
abbrev DQ_OUT_BASE_LO (i j : Nat) : Nat := 0xC4124 + 0x1000 * i + 0x40 * j
/-- DQ_OUT_BASE_HI (R184). -/
abbrev DQ_OUT_BASE_HI (i j : Nat) : Nat := 0xC4128 + 0x1000 * i + 0x40 * j
/-- DQ_TAG_BASE_LO (R184). -/
abbrev DQ_TAG_BASE_LO (i j : Nat) : Nat := 0xC412C + 0x1000 * i + 0x40 * j
/-- DQ_TAG_BASE_HI (R184). -/
abbrev DQ_TAG_BASE_HI (i j : Nat) : Nat := 0xC4130 + 0x1000 * i + 0x40 * j
/-- DQ_DEPTH (R184). -/
abbrev DQ_DEPTH (i j : Nat) : Nat := 0xC4134 + 0x1000 * i + 0x40 * j
/-- DQ_BACKLOG (R184). -/
abbrev DQ_BACKLOG (i j : Nat) : Nat := 0xC4138 + 0x1000 * i + 0x40 * j
/-- DQ_STATUS (R184). -/
abbrev DQ_STATUS (i j : Nat) : Nat := 0xC413C + 0x1000 * i + 0x40 * j
/-- ROT_STATUS (R209). -/
abbrev ROT_STATUS (i : Nat) : Nat := 0x108100 + 0x40000 * i
/-- ROT_OPS (R209). -/
abbrev ROT_OPS (i : Nat) : Nat := 0x108104 + 0x40000 * i
/-- BF12_GROUPS (R209). -/
abbrev BF12_GROUPS (i : Nat) : Nat := 0x108108 + 0x40000 * i
/-- BF12_SAT_COUNT (R209). -/
abbrev BF12_SAT_COUNT (i : Nat) : Nat := 0x10810C + 0x40000 * i
/-- BF12_FLUSH_COUNT (R209). -/
abbrev BF12_FLUSH_COUNT (i : Nat) : Nat := 0x108110 + 0x40000 * i
/-- BF12_CLAMP_COUNT (R209). -/
abbrev BF12_CLAMP_COUNT (i : Nat) : Nat := 0x108114 + 0x40000 * i
/-- NONFINITE_COUNT (R209). -/
abbrev NONFINITE_COUNT (i : Nat) : Nat := 0x108118 + 0x40000 * i
/-- ROT_SIGN (R209). -/
abbrev ROT_SIGN (i j k : Nat) : Nat := 0x108200 + 0x40000 * i + 0x40 * j + 0x4 * k
/-- ARR_STATUS (R245). -/
abbrev ARR_STATUS (i j : Nat) : Nat := 0x104100 + 0x40000 * i + 0x1000 * j
/-- ARR_LEVEL_CAP (R245). -/
abbrev ARR_LEVEL_CAP (i j : Nat) : Nat := 0x104104 + 0x40000 * i + 0x1000 * j
/-- ARR_FENCE (R245). -/
abbrev ARR_FENCE (i j : Nat) : Nat := 0x104108 + 0x40000 * i + 0x1000 * j
/-- ARR_OPS (R245). -/
abbrev ARR_OPS (i j : Nat) : Nat := 0x10410C + 0x40000 * i + 0x1000 * j
/-- ARR_TOKENS (R245). -/
abbrev ARR_TOKENS (i j : Nat) : Nat := 0x104110 + 0x40000 * i + 0x1000 * j
/-- ARR_STALL (R245). -/
abbrev ARR_STALL (i j : Nat) : Nat := 0x104114 + 0x40000 * i + 0x1000 * j
/-- ARR_RAMPS (R245). -/
abbrev ARR_RAMPS (i j : Nat) : Nat := 0x104118 + 0x40000 * i + 0x1000 * j
/-- ARR_WECC_CORR (R245). -/
abbrev ARR_WECC_CORR (i j : Nat) : Nat := 0x10411C + 0x40000 * i + 0x1000 * j
/-- ARR_WECC_UNCORR (R245). -/
abbrev ARR_WECC_UNCORR (i j : Nat) : Nat := 0x104120 + 0x40000 * i + 0x1000 * j
/-- ARR_BUF_STATUS (R245). -/
abbrev ARR_BUF_STATUS (i j : Nat) : Nat := 0x104124 + 0x40000 * i + 0x1000 * j
/-- ABFT_CTL (R246). -/
abbrev ABFT_CTL (i : Nat) : Nat := 0x10D100 + 0x40000 * i
/-- ABFT_INJECT (R246). -/
abbrev ABFT_INJECT (i : Nat) : Nat := 0x10D104 + 0x40000 * i
/-- ABFT_TILES (R246). -/
abbrev ABFT_TILES (i : Nat) : Nat := 0x10D108 + 0x40000 * i
/-- ABFT_FAIL_COUNT (R246). -/
abbrev ABFT_FAIL_COUNT (i : Nat) : Nat := 0x10D10C + 0x40000 * i
/-- PAIR_TILES (R246). -/
abbrev PAIR_TILES (i : Nat) : Nat := 0x10D110 + 0x40000 * i
/-- PAIR_FAIL_COUNT (R246). -/
abbrev PAIR_FAIL_COUNT (i : Nat) : Nat := 0x10D114 + 0x40000 * i
/-- ABFT_LAT_MAX (R246). -/
abbrev ABFT_LAT_MAX (i : Nat) : Nat := 0x10D118 + 0x40000 * i
/-- GROUP_FAIL_COUNT (R246). -/
abbrev GROUP_FAIL_COUNT (i : Nat) : Nat := 0x10D11C + 0x40000 * i
/-- ENG_STATUS (R278). -/
abbrev ENG_STATUS (i j : Nat) : Nat := 0x109100 + 0x40000 * i + 0x1000 * j
/-- ENG_FENCE (R278). -/
abbrev ENG_FENCE (i j : Nat) : Nat := 0x109104 + 0x40000 * i + 0x1000 * j
/-- ENG_OPS (R278). -/
abbrev ENG_OPS (i j : Nat) : Nat := 0x109108 + 0x40000 * i + 0x1000 * j
/-- ENG_MISMATCH_COUNT (R278). -/
abbrev ENG_MISMATCH_COUNT (i j : Nat) : Nat := 0x10910C + 0x40000 * i + 0x1000 * j
/-- ENG_ECC_CORR (R278). -/
abbrev ENG_ECC_CORR (i j : Nat) : Nat := 0x109110 + 0x40000 * i + 0x1000 * j
/-- ENG_ECC_UNCORR (R278). -/
abbrev ENG_ECC_UNCORR (i j : Nat) : Nat := 0x109114 + 0x40000 * i + 0x1000 * j
/-- ENG_NONFINITE_COUNT (R278). -/
abbrev ENG_NONFINITE_COUNT (i j : Nat) : Nat := 0x109118 + 0x40000 * i + 0x1000 * j
/-- ENG_INJECT (R278). -/
abbrev ENG_INJECT (i j : Nat) : Nat := 0x10911C + 0x40000 * i + 0x1000 * j
/-- TX_TRANSFORMS (R278). -/
abbrev TX_TRANSFORMS (i : Nat) : Nat := 0x109120 + 0x40000 * i
/-- CMP_BLOCKS (R278). -/
abbrev CMP_BLOCKS (i : Nat) : Nat := 0x10A120 + 0x40000 * i
/-- CMP_SAT_COUNT (R278). -/
abbrev CMP_SAT_COUNT (i : Nat) : Nat := 0x10A124 + 0x40000 * i
/-- CMP_FLUSH_COUNT (R278). -/
abbrev CMP_FLUSH_COUNT (i : Nat) : Nat := 0x10A128 + 0x40000 * i
/-- WIN_OUTPUTS (R278). -/
abbrev WIN_OUTPUTS (i : Nat) : Nat := 0x10A12C + 0x40000 * i
/-- SR_KEYS (R278). -/
abbrev SR_KEYS (i : Nat) : Nat := 0x10B120 + 0x40000 * i
/-- SR_THRESH_DROPPED (R278). -/
abbrev SR_THRESH_DROPPED (i : Nat) : Nat := 0x10B124 + 0x40000 * i
/-- SR_SEG_FAIL (R278). -/
abbrev SR_SEG_FAIL (i : Nat) : Nat := 0x10B128 + 0x40000 * i
/-- VX_ELEMENTS (R278). -/
abbrev VX_ELEMENTS (i : Nat) : Nat := 0x10C120 + 0x40000 * i
/-- VX_DOMAIN_COUNT (R278). -/
abbrev VX_DOMAIN_COUNT (i : Nat) : Nat := 0x10C124 + 0x40000 * i
/-- SCR_STATUS (R305). -/
abbrev SCR_STATUS (i : Nat) : Nat := 0x110100 + 0x40000 * i
/-- SCR_CONFLICTS (R305). -/
abbrev SCR_CONFLICTS (i : Nat) : Nat := 0x110104 + 0x40000 * i
/-- SCR_CONFLICT_FAILS (R305). -/
abbrev SCR_CONFLICT_FAILS (i : Nat) : Nat := 0x110108 + 0x40000 * i
/-- SCR_EXT_WAIT (R305). -/
abbrev SCR_EXT_WAIT (i : Nat) : Nat := 0x11010C + 0x40000 * i
/-- SCR_ECC_CORR (R305). -/
abbrev SCR_ECC_CORR (i : Nat) : Nat := 0x110110 + 0x40000 * i
/-- SCR_ECC_UNCORR (R305). -/
abbrev SCR_ECC_UNCORR (i : Nat) : Nat := 0x110114 + 0x40000 * i
/-- SCR_SCRUB_CFG (R305). -/
abbrev SCR_SCRUB_CFG (i : Nat) : Nat := 0x110118 + 0x40000 * i
/-- SCR_SCRUB_PASSES (R305). -/
abbrev SCR_SCRUB_PASSES (i : Nat) : Nat := 0x11011C + 0x40000 * i
/-- SCR_SCRUB_LAG (R305). -/
abbrev SCR_SCRUB_LAG (i : Nat) : Nat := 0x110120 + 0x40000 * i
/-- SCR_INJECT (R305). -/
abbrev SCR_INJECT (i : Nat) : Nat := 0x110124 + 0x40000 * i
/-- ROLL_CTL (R306). -/
abbrev ROLL_CTL (i j k : Nat) : Nat := 0x111100 + 0x40000 * i + 0x1000 * j + 0x40 * k
/-- ROLL_BASE (R306). -/
abbrev ROLL_BASE (i j k : Nat) : Nat := 0x111104 + 0x40000 * i + 0x1000 * j + 0x40 * k
/-- ROLL_PEG (R306). -/
abbrev ROLL_PEG (i j k : Nat) : Nat := 0x111108 + 0x40000 * i + 0x1000 * j + 0x40 * k
/-- ROLL_HEAD (R306). -/
abbrev ROLL_HEAD (i j k : Nat) : Nat := 0x111110 + 0x40000 * i + 0x1000 * j + 0x40 * k
/-- ROLL_TAIL (R306). -/
abbrev ROLL_TAIL (i j k : Nat) : Nat := 0x111114 + 0x40000 * i + 0x1000 * j + 0x40 * k
/-- ROLL_RESERVE (R306). -/
abbrev ROLL_RESERVE (i j k : Nat) : Nat := 0x111118 + 0x40000 * i + 0x1000 * j + 0x40 * k
/-- ROLL_COMMIT (R306). -/
abbrev ROLL_COMMIT (i j k : Nat) : Nat := 0x11111C + 0x40000 * i + 0x1000 * j + 0x40 * k
/-- ROLL_RELEASE (R306). -/
abbrev ROLL_RELEASE (i j k : Nat) : Nat := 0x111120 + 0x40000 * i + 0x1000 * j + 0x40 * k
/-- ROLL_RESET (R306). -/
abbrev ROLL_RESET (i j k : Nat) : Nat := 0x111124 + 0x40000 * i + 0x1000 * j + 0x40 * k
/-- ROLL_STATUS (R306). -/
abbrev ROLL_STATUS (i j k : Nat) : Nat := 0x111128 + 0x40000 * i + 0x1000 * j + 0x40 * k
/-- ROLL_FULL_WAITS (R306). -/
abbrev ROLL_FULL_WAITS (i j k : Nat) : Nat := 0x11112C + 0x40000 * i + 0x1000 * j + 0x40 * k
/-- ROLL_SPAN_ERRORS (R306). -/
abbrev ROLL_SPAN_ERRORS (i j k : Nat) : Nat := 0x111130 + 0x40000 * i + 0x1000 * j + 0x40 * k
/-- ROLL_VOIDED (R306). -/
abbrev ROLL_VOIDED (i j k : Nat) : Nat := 0x111134 + 0x40000 * i + 0x1000 * j + 0x40 * k
/-- SEQ_CTL (R338). -/
abbrev SEQ_CTL : Nat := 0x200100
/-- SEQ_DIR_BASE_LO (R338). -/
abbrev SEQ_DIR_BASE_LO : Nat := 0x200104
/-- SEQ_DIR_BASE_HI (R338). -/
abbrev SEQ_DIR_BASE_HI : Nat := 0x200108
/-- SEQ_WORK_BASE_LO (R338). -/
abbrev SEQ_WORK_BASE_LO : Nat := 0x20010C
/-- SEQ_WORK_BASE_HI (R338). -/
abbrev SEQ_WORK_BASE_HI : Nat := 0x200110
/-- SEQ_STATUS (R338). -/
abbrev SEQ_STATUS : Nat := 0x200114
/-- SEQ_CONTEXTS (R338). -/
abbrev SEQ_CONTEXTS : Nat := 0x200118
/-- SEQ_COMMANDS (R338). -/
abbrev SEQ_COMMANDS : Nat := 0x20011C
/-- SEQ_FAIL_COUNT (R338). -/
abbrev SEQ_FAIL_COUNT : Nat := 0x200120
/-- SEQ_MISMATCH_COUNT (R338). -/
abbrev SEQ_MISMATCH_COUNT : Nat := 0x200124
/-- SEQ_MAP_CORRUPT_COUNT (R338). -/
abbrev SEQ_MAP_CORRUPT_COUNT : Nat := 0x200128
/-- SEQ_IMP_CFG (R338). -/
abbrev SEQ_IMP_CFG : Nat := 0x20012C
/-- SEQ_INJECT (R338). -/
abbrev SEQ_INJECT : Nat := 0x200130
/-- SEQ_POOL_BASE_LO (R338). -/
abbrev SEQ_POOL_BASE_LO : Nat := 0x201100
/-- SEQ_POOL_BASE_HI (R338). -/
abbrev SEQ_POOL_BASE_HI : Nat := 0x201104
/-- SEQ_POOL_SIZE (R338). -/
abbrev SEQ_POOL_SIZE : Nat := 0x201108
/-- SEQ_POOL_S (R338). -/
abbrev SEQ_POOL_S : Nat := 0x20110C
/-- SEQ_POOL_LOW (R338). -/
abbrev SEQ_POOL_LOW : Nat := 0x201110
/-- SEQ_POOL_FREE (R338). -/
abbrev SEQ_POOL_FREE : Nat := 0x201114
/-- SEQ_POOL_S_COMMIT (R338). -/
abbrev SEQ_POOL_S_COMMIT : Nat := 0x201118
/-- SEQ_CACHE_S (R338). -/
abbrev SEQ_CACHE_S : Nat := 0x20111C
/-- SEQ_CACHE_USED (R338). -/
abbrev SEQ_CACHE_USED : Nat := 0x201120
/-- SEQ_RECOMP_TIMEOUT (R338). -/
abbrev SEQ_RECOMP_TIMEOUT : Nat := 0x201124
/-- SEQ_RECOMP_PENDING (R338). -/
abbrev SEQ_RECOMP_PENDING : Nat := 0x201128
/-- SEQ_DROPS (R338). -/
abbrev SEQ_DROPS : Nat := 0x20112C
/-- SEQ_EVICTS (R338). -/
abbrev SEQ_EVICTS : Nat := 0x201130
/-- SEQ_RECOMPUTES (R338). -/
abbrev SEQ_RECOMPUTES : Nat := 0x201134
/-- SEQ_STAGE_BYTES (R338). -/
abbrev SEQ_STAGE_BYTES : Nat := 0x201138
/-- SEQ_CACHE_ECC_CORR (R338). -/
abbrev SEQ_CACHE_ECC_CORR : Nat := 0x20113C
/-- SEQ_CACHE_ECC_UNCORR (R338). -/
abbrev SEQ_CACHE_ECC_UNCORR : Nat := 0x201140
/-- SEQ_V_FLUSH (R338). -/
abbrev SEQ_V_FLUSH : Nat := 0x201144
/-- SEQ_KV_SAT (R338). -/
abbrev SEQ_KV_SAT : Nat := 0x201148
/-- RIDGE_STATUS (R367). -/
abbrev RIDGE_STATUS : Nat := 0x3100
/-- RIDGE_SKEW (R367). -/
abbrev RIDGE_SKEW : Nat := 0x3104
/-- RIDGE_EPOCH_LO (R367). -/
abbrev RIDGE_EPOCH_LO : Nat := 0x3108
/-- RIDGE_EPOCH_HI (R367). -/
abbrev RIDGE_EPOCH_HI : Nat := 0x310C
/-- FG_CTL (R367). -/
abbrev FG_CTL (i : Nat) : Nat := 0x3200 + 0x20 * i
/-- FG_PERIOD (R367). -/
abbrev FG_PERIOD (i : Nat) : Nat := 0x3204 + 0x20 * i
/-- FG_DEADLINE (R367). -/
abbrev FG_DEADLINE (i : Nat) : Nat := 0x3208 + 0x20 * i
/-- FG_LAUNCH0_LO (R367). -/
abbrev FG_LAUNCH0_LO (i : Nat) : Nat := 0x320C + 0x20 * i
/-- FG_LAUNCH0_HI (R367). -/
abbrev FG_LAUNCH0_HI (i : Nat) : Nat := 0x3210 + 0x20 * i
/-- FG_FRAME0 (R367). -/
abbrev FG_FRAME0 (i : Nat) : Nat := 0x3214 + 0x20 * i
/-- FG_FRAME (R367). -/
abbrev FG_FRAME (i : Nat) : Nat := 0x3218 + 0x20 * i
/-- FG_MISSED (R367). -/
abbrev FG_MISSED (i : Nat) : Nat := 0x321C + 0x20 * i
/-- DET_CTL (R368). -/
abbrev DET_CTL : Nat := 0x2100
/-- DET_STATUS (R368). -/
abbrev DET_STATUS : Nat := 0x2104
/-- RR_CTL (R368). -/
abbrev RR_CTL : Nat := 0x2108
/-- RR_BASE_LO (R368). -/
abbrev RR_BASE_LO : Nat := 0x210C
/-- RR_BASE_HI (R368). -/
abbrev RR_BASE_HI : Nat := 0x2110
/-- RR_SIZE (R368). -/
abbrev RR_SIZE : Nat := 0x2114
/-- RR_HEAD (R368). -/
abbrev RR_HEAD : Nat := 0x2118
/-- RR_OLDEST (R368). -/
abbrev RR_OLDEST : Nat := 0x211C
/-- RR_START (R368). -/
abbrev RR_START : Nat := 0x2120
/-- RR_GAPS (R368). -/
abbrev RR_GAPS : Nat := 0x2124
/-- RR_LIVE_DISCARDED (R368). -/
abbrev RR_LIVE_DISCARDED : Nat := 0x2128
/-- RR_WIN_BASE_LO (R368). -/
abbrev RR_WIN_BASE_LO (i : Nat) : Nat := 0x2140 + 0x10 * i
/-- RR_WIN_BASE_HI (R368). -/
abbrev RR_WIN_BASE_HI (i : Nat) : Nat := 0x2144 + 0x10 * i
/-- RR_WIN_SIZE (R368). -/
abbrev RR_WIN_SIZE (i : Nat) : Nat := 0x2148 + 0x10 * i
/-- DSP_STATUS (R369). -/
abbrev DSP_STATUS : Nat := 0xE0100
/-- DSP_JOBS_FREE (R369). -/
abbrev DSP_JOBS_FREE : Nat := 0xE0104
/-- DSP_FIRED (R369). -/
abbrev DSP_FIRED : Nat := 0xE0108
/-- DSP_TIMEOUTS (R369). -/
abbrev DSP_TIMEOUTS : Nat := 0xE010C
/-- DSP_LATE_DISCARD (R369). -/
abbrev DSP_LATE_DISCARD : Nat := 0xE0110
/-- DSP_RING_SEL (R369). -/
abbrev DSP_RING_SEL : Nat := 0xE0114
/-- DSP_ADDR_FAULTS (R369). -/
abbrev DSP_ADDR_FAULTS : Nat := 0xE0118
/-- EVENTS_LOST (R369). -/
abbrev EVENTS_LOST : Nat := 0xE011C
/-- DSP_SLOT_QUERY (R369). -/
abbrev DSP_SLOT_QUERY : Nat := 0xE0120
/-- RING_BASE_LO (R370). -/
abbrev RING_BASE_LO (i : Nat) : Nat := 0xE3100 + 0x20 * i
/-- RING_BASE_HI (R370). -/
abbrev RING_BASE_HI (i : Nat) : Nat := 0xE3104 + 0x20 * i
/-- RING_CFG (R370). -/
abbrev RING_CFG (i : Nat) : Nat := 0xE3108 + 0x20 * i
/-- RING_HEADPTR_LO (R370). -/
abbrev RING_HEADPTR_LO (i : Nat) : Nat := 0xE310C + 0x20 * i
/-- RING_HEADPTR_HI (R370). -/
abbrev RING_HEADPTR_HI (i : Nat) : Nat := 0xE3110 + 0x20 * i
/-- RING_HEAD (R370). -/
abbrev RING_HEAD (i : Nat) : Nat := 0xE3114 + 0x20 * i
/-- RING_TAIL (R370). -/
abbrev RING_TAIL (i : Nat) : Nat := 0xE3118 + 0x20 * i
/-- RING_DROPS (R370). -/
abbrev RING_DROPS (i : Nat) : Nat := 0xE311C + 0x20 * i
/-- CH_STATUS (R389). -/
abbrev CH_STATUS (i : Nat) : Nat := 0x240100 + 0x1000 * i
/-- CH_TEMP (R389). -/
abbrev CH_TEMP (i : Nat) : Nat := 0x240104 + 0x1000 * i
/-- CH_READS (R389). -/
abbrev CH_READS (i : Nat) : Nat := 0x240108 + 0x1000 * i
/-- CH_WRITES (R389). -/
abbrev CH_WRITES (i : Nat) : Nat := 0x24010C + 0x1000 * i
/-- CH_ECC_CORR (R389). -/
abbrev CH_ECC_CORR (i : Nat) : Nat := 0x240110 + 0x1000 * i
/-- CH_ECC_UNCORR (R389). -/
abbrev CH_ECC_UNCORR (i : Nat) : Nat := 0x240114 + 0x1000 * i
/-- CH_CE_LIMIT (R389). -/
abbrev CH_CE_LIMIT (i : Nat) : Nat := 0x240118 + 0x1000 * i
/-- CH_INJECT (R389). -/
abbrev CH_INJECT (i : Nat) : Nat := 0x24011C + 0x1000 * i
/-- MEM_STATUS (R390). -/
abbrev MEM_STATUS : Nat := 0x260100
/-- MEM_SCRUB_CFG (R390). -/
abbrev MEM_SCRUB_CFG : Nat := 0x260104
/-- MEM_SCRUB_PASSES (R390). -/
abbrev MEM_SCRUB_PASSES : Nat := 0x260108
/-- MEM_SCRUB_LAG (R390). -/
abbrev MEM_SCRUB_LAG : Nat := 0x26010C
/-- MEM_TEMP_MAX (R390). -/
abbrev MEM_TEMP_MAX : Nat := 0x260110
/-- MEM_TEMP_HOT (R390). -/
abbrev MEM_TEMP_HOT : Nat := 0x260114
/-- MEM_DENIED_COUNT (R390). -/
abbrev MEM_DENIED_COUNT : Nat := 0x260118
/-- ENC_BASE_LO (R391). -/
abbrev ENC_BASE_LO (i : Nat) : Nat := 0x261200 + 0x20 * i
/-- ENC_BASE_HI (R391). -/
abbrev ENC_BASE_HI (i : Nat) : Nat := 0x261204 + 0x20 * i
/-- ENC_SIZE (R391). -/
abbrev ENC_SIZE (i : Nat) : Nat := 0x261208 + 0x20 * i
/-- ENC_META_LO (R391). -/
abbrev ENC_META_LO (i : Nat) : Nat := 0x26120C + 0x20 * i
/-- ENC_META_HI (R391). -/
abbrev ENC_META_HI (i : Nat) : Nat := 0x261210 + 0x20 * i
/-- ENC_CTL (R391). -/
abbrev ENC_CTL (i : Nat) : Nat := 0x261214 + 0x20 * i
/-- ENC_STATUS (R391). -/
abbrev ENC_STATUS (i : Nat) : Nat := 0x261218 + 0x20 * i
/-- ENC_AUTH_FAILS (R391). -/
abbrev ENC_AUTH_FAILS (i : Nat) : Nat := 0x26121C + 0x20 * i
/-- U4_STATUS (R424). -/
abbrev U4_STATUS : Nat := 0x280100
/-- U4_CFG (R424). -/
abbrev U4_CFG : Nat := 0x280104
/-- U4_APERTURE_LO (R424). -/
abbrev U4_APERTURE_LO : Nat := 0x280108
/-- U4_APERTURE_HI (R424). -/
abbrev U4_APERTURE_HI : Nat := 0x28010C
/-- U4_RETRIES (R424). -/
abbrev U4_RETRIES : Nat := 0x280110
/-- U4_LINK_DOWNS (R424). -/
abbrev U4_LINK_DOWNS : Nat := 0x280114
/-- U4_ROOT_TAG (R424). -/
abbrev U4_ROOT_TAG : Nat := 0x280118
/-- GL_CFG (R425). -/
abbrev GL_CFG (i : Nat) : Nat := 0x288100 + 0x8000 * i
/-- GL_STATUS (R425). -/
abbrev GL_STATUS (i : Nat) : Nat := 0x288104 + 0x8000 * i
/-- GL_RETRIES (R425). -/
abbrev GL_RETRIES (i : Nat) : Nat := 0x288108 + 0x8000 * i
/-- GL_RETRY_FAILS (R425). -/
abbrev GL_RETRY_FAILS (i : Nat) : Nat := 0x28810C + 0x8000 * i
/-- GL_E2E_CRC (R425). -/
abbrev GL_E2E_CRC (i : Nat) : Nat := 0x288110 + 0x8000 * i
/-- GL_UTIL (R425). -/
abbrev GL_UTIL (i : Nat) : Nat := 0x288114 + 0x8000 * i
/-- GL_ROOT_TAG (R425). -/
abbrev GL_ROOT_TAG (i : Nat) : Nat := 0x288118 + 0x8000 * i
/-- GL_EXPIRED (R425). -/
abbrev GL_EXPIRED (i : Nat) : Nat := 0x28811C + 0x8000 * i
/-- MGT_CFG (R427). -/
abbrev MGT_CFG : Nat := 0x2A0100
/-- MGT_STATUS (R427). -/
abbrev MGT_STATUS : Nat := 0x2A0104
/-- MGT_REQUESTS (R427). -/
abbrev MGT_REQUESTS : Nat := 0x2A0108
/-- MGT_REFUSED (R427). -/
abbrev MGT_REFUSED : Nat := 0x2A010C
/-- PH_STATUS (R428). -/
abbrev PH_STATUS : Nat := 0x2A8100
/-- PH_PROBE_CFG (R428). -/
abbrev PH_PROBE_CFG : Nat := 0x2A8104
/-- PH_LANE_STATUS (R428). -/
abbrev PH_LANE_STATUS (i : Nat) : Nat := 0x2A8200 + 0x8 * i
/-- PH_LANE_POWER (R428). -/
abbrev PH_LANE_POWER (i : Nat) : Nat := 0x2A8204 + 0x8 * i
/-- LANTERN_CFG (R429). -/
abbrev LANTERN_CFG : Nat := 0x2E0100
/-- LANTERN_TEST (R429). -/
abbrev LANTERN_TEST : Nat := 0x2E0104
/-- LANTERN_TEST_LEN (R429). -/
abbrev LANTERN_TEST_LEN : Nat := 0x2E0108
/-- LANTERN_STATUS (R429). -/
abbrev LANTERN_STATUS : Nat := 0x2E010C
/-- LANTERN_TESTS (R429). -/
abbrev LANTERN_TESTS : Nat := 0x2E0110
/-- SNT_CTL (R453). -/
abbrev SNT_CTL : Nat := 0x2D0100
/-- SNT_TAP_MASK_LO (R453). -/
abbrev SNT_TAP_MASK_LO : Nat := 0x2D0104
/-- SNT_TAP_MASK_HI (R453). -/
abbrev SNT_TAP_MASK_HI : Nat := 0x2D0108
/-- SNT_PROG_SIZE (R453). -/
abbrev SNT_PROG_SIZE : Nat := 0x2D010C
/-- SNT_TAP_BASE (R453). -/
abbrev SNT_TAP_BASE : Nat := 0x2D0110
/-- SNT_TAP_SIZE (R453). -/
abbrev SNT_TAP_SIZE : Nat := 0x2D0114
/-- SNT_START_LIMIT (R453). -/
abbrev SNT_START_LIMIT : Nat := 0x2D0118
/-- SNT_STATUS (R453). -/
abbrev SNT_STATUS : Nat := 0x2D011C
/-- SNT_LAST_TIME (R453). -/
abbrev SNT_LAST_TIME : Nat := 0x2D0120
/-- SNT_LATE_COUNT (R453). -/
abbrev SNT_LATE_COUNT : Nat := 0x2D0124
/-- SNT_VOID_COUNT (R453). -/
abbrev SNT_VOID_COUNT : Nat := 0x2D0128
/-- SNT_ECC_CORR (R453). -/
abbrev SNT_ECC_CORR : Nat := 0x2D012C
/-- SNT_ECC_UNCORR (R453). -/
abbrev SNT_ECC_UNCORR : Nat := 0x2D0130
/-- SNT_INJECT (R453). -/
abbrev SNT_INJECT : Nat := 0x2D0134
/-- COMP_CTL (R454). -/
abbrev COMP_CTL : Nat := 0x2D8100
/-- COMP_GRID_DIM (R454). -/
abbrev COMP_GRID_DIM : Nat := 0x2D8104
/-- COMP_GRID_ORG_X (R454). -/
abbrev COMP_GRID_ORG_X : Nat := 0x2D8108
/-- COMP_GRID_ORG_Y (R454). -/
abbrev COMP_GRID_ORG_Y : Nat := 0x2D810C
/-- COMP_GRID_CELL (R454). -/
abbrev COMP_GRID_CELL : Nat := 0x2D8110
/-- COMP_CONF_MIN (R454). -/
abbrev COMP_CONF_MIN : Nat := 0x2D8114
/-- COMP_SET (R454). -/
abbrev COMP_SET : Nat := 0x2D8118
/-- COMP_STATUS (R454). -/
abbrev COMP_STATUS : Nat := 0x2D811C
/-- COMP_CYCLES (R454). -/
abbrev COMP_CYCLES : Nat := 0x2D8120
/-- COMP_DISAGREE (R454). -/
abbrev COMP_DISAGREE : Nat := 0x2D8124
/-- COMP_SAFE_COUNT (R454). -/
abbrev COMP_SAFE_COUNT : Nat := 0x2D8128
/-- COMP_RAIL_FAULTS (R454). -/
abbrev COMP_RAIL_FAULTS : Nat := 0x2D812C
/-- ZONE_RECT (R455). -/
abbrev ZONE_RECT (i : Nat) : Nat := 0x2D9100 + 0x10 * i
/-- ZONE_TOL (R455). -/
abbrev ZONE_TOL (i : Nat) : Nat := 0x2D9104 + 0x10 * i
/-- ZONE_CFG (R455). -/
abbrev ZONE_CFG (i : Nat) : Nat := 0x2D9108 + 0x10 * i
/-- ZONE_MARGIN (R455). -/
abbrev ZONE_MARGIN (i : Nat) : Nat := 0x2D910C + 0x10 * i
/-- COV_CTL (R456). -/
abbrev COV_CTL (i : Nat) : Nat := 0x2DA100 + 0x8 * i
/-- COV_LAST (R456). -/
abbrev COV_LAST (i : Nat) : Nat := 0x2DA104 + 0x8 * i
/-- LS_STATUS (R457). -/
abbrev LS_STATUS : Nat := 0x2DB100
/-- LS_MISMATCH_COUNT (R457). -/
abbrev LS_MISMATCH_COUNT : Nat := 0x2DB104
/-- LS_DEBUG (R457). -/
abbrev LS_DEBUG : Nat := 0x2DB108
/-- LS_INJECT (R457). -/
abbrev LS_INJECT : Nat := 0x2DB10C
/-- FC_STATUS (R482). -/
abbrev FC_STATUS : Nat := 0x2C0100
/-- FC_FORCE_SAFE (R482). -/
abbrev FC_FORCE_SAFE : Nat := 0x2C0104
/-- FC_KILL (R482). -/
abbrev FC_KILL : Nat := 0x2C0108
/-- FC_QUIET (R482). -/
abbrev FC_QUIET : Nat := 0x2C010C
/-- FC_RECOVERY_CFG (R482). -/
abbrev FC_RECOVERY_CFG : Nat := 0x2C0110
/-- FC_REEXEC_CFG (R482). -/
abbrev FC_REEXEC_CFG : Nat := 0x2C0114
/-- FC_ENTRIES (R482). -/
abbrev FC_ENTRIES : Nat := 0x2C0118
/-- FC_RECOVERIES (R482). -/
abbrev FC_RECOVERIES : Nat := 0x2C011C
/-- FC_LOG_HEAD (R482). -/
abbrev FC_LOG_HEAD : Nat := 0x2C0120
/-- FC_LOG_INDEX (R482). -/
abbrev FC_LOG_INDEX : Nat := 0x2C0124
/-- FC_SELF_STATUS (R482). -/
abbrev FC_SELF_STATUS : Nat := 0x2C0128
/-- FC_INJECT (R482). -/
abbrev FC_INJECT : Nat := 0x2C012C
/-- BIST_CTL (R484). -/
abbrev BIST_CTL : Nat := 0x2E8100
/-- BIST_INTERVAL (R484). -/
abbrev BIST_INTERVAL : Nat := 0x2E8104
/-- BIST_CMD (R484). -/
abbrev BIST_CMD : Nat := 0x2E8108
/-- BIST_STATUS (R484). -/
abbrev BIST_STATUS : Nat := 0x2E810C
/-- BIST_DEFERRALS (R484). -/
abbrev BIST_DEFERRALS : Nat := 0x2E8110
/-- BIST_S_WAITS (R484). -/
abbrev BIST_S_WAITS : Nat := 0x2E8114
/-- BIST_FAILS (R484). -/
abbrev BIST_FAILS : Nat := 0x2E8118
/-- BIST_LAPSES (R484). -/
abbrev BIST_LAPSES : Nat := 0x2E811C
/-- SEC_STATUS (R508). -/
abbrev SEC_STATUS : Nat := 0x30100
/-- SEC_OWNER (R508). -/
abbrev SEC_OWNER : Nat := 0x30104
/-- SEC_KEY_SLOTS (R508). -/
abbrev SEC_KEY_SLOTS : Nat := 0x30108
/-- SEC_AUTH_FAILS (R508). -/
abbrev SEC_AUTH_FAILS : Nat := 0x3010C
/-- SEC_SVN_COMMIT (R508). -/
abbrev SEC_SVN_COMMIT : Nat := 0x30110
/-- SEC_TRNG_STATUS (R508). -/
abbrev SEC_TRNG_STATUS : Nat := 0x30114
/-- FW_STATUS (R509). -/
abbrev FW_STATUS : Nat := 0x38100
/-- FW_VERSION (R509). -/
abbrev FW_VERSION : Nat := 0x38104
/-- FW_SVN (R509). -/
abbrev FW_SVN : Nat := 0x38108
/-- CFG_VERSION (R509). -/
abbrev CFG_VERSION : Nat := 0x3810C
/-- FW_PREVIEWS (R509). -/
abbrev FW_PREVIEWS : Nat := 0x38110
/-- WD_CFG (R510). -/
abbrev WD_CFG (i : Nat) : Nat := 0x39100 + 0x10 * i
/-- WD_KICK (R510). -/
abbrev WD_KICK (i : Nat) : Nat := 0x39104 + 0x10 * i
/-- WD_STATUS (R510). -/
abbrev WD_STATUS (i : Nat) : Nat := 0x39108 + 0x10 * i
/-- WD_EXPIRIES (R510). -/
abbrev WD_EXPIRIES (i : Nat) : Nat := 0x3910C + 0x10 * i
/-- PM_STATUS (R537). -/
abbrev PM_STATUS : Nat := 0x10100
/-- PM_PKG_LIMIT (R537). -/
abbrev PM_PKG_LIMIT : Nat := 0x10104
/-- PM_VCORE_LIMIT (R537). -/
abbrev PM_VCORE_LIMIT : Nat := 0x10108
/-- PM_EMERGENCY_CAP (R537). -/
abbrev PM_EMERGENCY_CAP : Nat := 0x1010C
/-- PM_HOT_STEP (R537). -/
abbrev PM_HOT_STEP : Nat := 0x10110
/-- PM_WAKE_S (R537). -/
abbrev PM_WAKE_S : Nat := 0x10114
/-- PM_WAKE_A (R537). -/
abbrev PM_WAKE_A : Nat := 0x10118
/-- PM_WAKE_Q (R537). -/
abbrev PM_WAKE_Q : Nat := 0x1011C
/-- PM_POWER (R537). -/
abbrev PM_POWER : Nat := 0x10120
/-- PM_CAP_INTERVALS (R537). -/
abbrev PM_CAP_INTERVALS : Nat := 0x10124
/-- PM_GOV_TRIPS (R537). -/
abbrev PM_GOV_TRIPS : Nat := 0x10128
/-- PM_SLEEPS (R537). -/
abbrev PM_SLEEPS : Nat := 0x1012C
/-- RAIL_V (R538). -/
abbrev RAIL_V (i : Nat) : Nat := 0x11100 + 0x10 * i
/-- RAIL_I (R538). -/
abbrev RAIL_I (i : Nat) : Nat := 0x11104 + 0x10 * i
/-- RAIL_I_MAX (R538). -/
abbrev RAIL_I_MAX (i : Nat) : Nat := 0x11108 + 0x10 * i
/-- RAIL_FAULTS (R538). -/
abbrev RAIL_FAULTS (i : Nat) : Nat := 0x1110C + 0x10 * i
/-- DIE_TEMP (R538). -/
abbrev DIE_TEMP : Nat := 0x11200
/-- DIE_TEMP_HOT (R538). -/
abbrev DIE_TEMP_HOT : Nat := 0x11204
/-- CLK_STATUS (R539). -/
abbrev CLK_STATUS (i : Nat) : Nat := 0x20100 + 0x10 * i
/-- CLK_FREQ (R539). -/
abbrev CLK_FREQ (i : Nat) : Nat := 0x20104 + 0x10 * i
/-- CLK_HOLD_MAX (R539). -/
abbrev CLK_HOLD_MAX (i : Nat) : Nat := 0x20108 + 0x10 * i
/-- CLK_WAKES (R539). -/
abbrev CLK_WAKES (i : Nat) : Nat := 0x2010C + 0x10 * i
/-- CLK_MON (R539). -/
abbrev CLK_MON : Nat := 0x20300
/-- PP_EXT_A (R161). -/
abbrev PP_EXT_A (i j : Nat) : Nat := 0xA1100 + 0x40 * i + 0x4 * j
/-- PP_EXT_T (R161). -/
abbrev PP_EXT_T (i j : Nat) : Nat := 0xA1124 + 0x40 * i + 0x4 * j
/-- EVT_ROUTE (R370). -/
abbrev EVT_ROUTE (i : Nat) : Nat := 0xE4100 + 0x4 * i
/-- MSIX_ENTRY (R398). -/
abbrev MSIX_ENTRY (i j : Nat) : Nat := 0x282400 + 0x10 * i + 0x4 * j
/-- MSIX_CTRL (R398). -/
abbrev MSIX_CTRL (i : Nat) : Nat := 0x28240C + 0x10 * i
/-- MSIX_PBA (R398). -/
abbrev MSIX_PBA (i : Nat) : Nat := 0x282800 + 0x4 * i
/-- GL_ROUTE (R426). -/
abbrev GL_ROUTE (i : Nat) : Nat := 0x289100 + 0x4 * i
/-- GL_SYNC_CFG (R426). -/
abbrev GL_SYNC_CFG : Nat := 0x289500
/-- GL_FAILOVERS (R426). -/
abbrev GL_FAILOVERS : Nat := 0x289504
/-- FC_SRC_CFG (R483). -/
abbrev FC_SRC_CFG (i : Nat) : Nat := 0x2C1100 + 0x4 * i
/-- FC_SRC_COUNT (R483). -/
abbrev FC_SRC_COUNT (i : Nat) : Nat := 0x2C2100 + 0x4 * i
/-- BIST_SWIN_START (R484). -/
abbrev BIST_SWIN_START (i : Nat) : Nat := 0x2E9100 + 0x8 * i
/-- BIST_SWIN_END (R484). -/
abbrev BIST_SWIN_END (i : Nat) : Nat := 0x2E9104 + 0x8 * i
/-- BIST_UNIT_CFG (R484). -/
abbrev BIST_UNIT_CFG (i : Nat) : Nat := 0x2EA100 + 0x8 * i
/-- BIST_UNIT_STATUS (R484). -/
abbrev BIST_UNIT_STATUS (i : Nat) : Nat := 0x2EA104 + 0x8 * i

end A

/-- The registers of page 0x004 and the pages that repeat it. -/
def regs004 : RegGroup :=
  { page := 0x004, dims := [], rows := [
    ⟨0x100, [], .rwl, .const 0x7, 0x7, [], .no⟩,
    ⟨0x104, [], .rwl, .const 0xFF00, 0xFFFF, [], .no⟩,
    ⟨0x108, [], .rwl, .const 0xFF00, 0xFFFF, [], .no⟩,
    ⟨0x10C, [], .rwl, .const 0xFF00, 0xFFFF, [], .no⟩,
    ⟨0x110, [], .rwl, .const 0xFFF, 0xFFF, [], .no⟩,
    ⟨0x114, [], .rwl, .const 0x7, 0x7, [], .no⟩,
    ⟨0x118, [], .ro, .const 0, 0x0, [], .no⟩] }

/-- The registers of page 0x0E1 and the pages that repeat it. -/
def regs0E1 : RegGroup :=
  { page := 0x0E1, dims := [], rows := [
    ⟨0x100, [], .ro, .const 0, 0x0, [], .no⟩,
    ⟨0x104, [], .ro, .derived, 0x0, [], .no⟩,
    ⟨0x108, [], .rwl, .const 0x2, 0x7, [(0, 3, 0, 4)], .no⟩,
    ⟨0x10C, [], .ro, .const 0, 0x0, [], .no⟩,
    ⟨0x110, [], .wo, .const 0, 0xFFFFFFFF, [], .no⟩,
    ⟨0x114, [], .ro, .const 0, 0x0, [], .no⟩,
    ⟨0x118, [], .ro, .const 0, 0x0, [], .no⟩] }

/-- The registers of page 0x0E2 and the pages that repeat it. -/
def regs0E2 : RegGroup :=
  { page := 0x0E2, dims := [], rows := [
    ⟨0x100, [], .ro, .const 0, 0x0, [], .no⟩,
    ⟨0x104, [], .ro, .const 0, 0x0, [], .no⟩,
    ⟨0x108, [], .rwl, .const 0, 0x3, [(0, 2, 0, 2)], .no⟩,
    ⟨0x10C, [], .ro, .const 0, 0x0, [], .no⟩,
    ⟨0x110, [], .rw, .const 0, 0xFFFF, [], .no⟩] }

/-- The registers of page 0x000 and the pages that repeat it. -/
def regs000 : RegGroup :=
  { page := 0x000, dims := [], rows := [
    ⟨0x100, [], .ro, .fuse, 0x0, [], .no⟩,
    ⟨0x104, [], .ro, .const 0x4160, 0x0, [], .no⟩,
    ⟨0x108, [], .ro, .fuse, 0x0, [], .no⟩,
    ⟨0x10C, [], .ro, .fuse, 0x0, [], .no⟩,
    ⟨0x110, [], .ro, .fuse, 0x0, [], .no⟩,
    ⟨0x114, [], .ro, .fuse, 0x0, [], .no⟩,
    ⟨0x118, [], .ro, .fuse, 0x0, [], .no⟩,
    ⟨0x11C, [], .ro, .const 0, 0x0, [], .no⟩] }

/-- The registers of page 0x001 and the pages that repeat it. -/
def regs001 : RegGroup :=
  { page := 0x001, dims := [], rows := [
    ⟨0x100, [], .wo, .const 0, 0xFFFF, [], .no⟩,
    ⟨0x104, [], .rwl, .const 0, 0xFFFF, [], .no⟩,
    ⟨0x108, [], .rwl, .const 0, 0xFFFFFF, [], .no⟩,
    ⟨0x10C, [], .rwl, .const 0, 0xFFFFFF, [], .no⟩,
    ⟨0x110, [], .ro, .const 0, 0x0, [], .no⟩] }

/-- The registers of page 0x040 and the pages that repeat it. -/
def regs040 : RegGroup :=
  { page := 0x040, dims := [(32, 0x1)], rows := [
    ⟨0x100, [], .rwl, .const 0x40, 0x173, [], .no⟩,
    ⟨0x104, [], .ro, .const 0, 0x0, [], .no⟩,
    ⟨0x108, [], .rwl, .const 0x1FD, 0x1FF, [(0, 8, 249, 0)], .no⟩,
    ⟨0x10C, [], .ro, .const 0, 0x0, [], .no⟩,
    ⟨0x110, [], .ro, .const 0, 0x0, [], .no⟩,
    ⟨0x114, [(11, 0x4)], .ro, .const 0, 0x0, [], .no⟩,
    ⟨0x140, [(5, 0x4)], .ro, .const 0, 0x0, [], .no⟩] }

/-- The registers of page 0x060 and the pages that repeat it. -/
def regs060 : RegGroup :=
  { page := 0x060, dims := [(16, 0x1)], rows := [
    ⟨0x100, [(32, 0x40)], .rws, .const 0, 0x3FF7, [], .no⟩,
    ⟨0x104, [(32, 0x40)], .rws, .const 0x2C, 0x3F, [], .no⟩,
    ⟨0x108, [(32, 0x40)], .rws, .const 0, 0x3FFF7FFF, [], .no⟩,
    ⟨0x10C, [(32, 0x40)], .rws, .const 0, 0xFFFFFF, [], .no⟩,
    ⟨0x110, [(32, 0x40)], .rws, .const 0, 0xFFFFFFFF, [], .no⟩,
    ⟨0x114, [(32, 0x40)], .rws, .const 0, 0xFFFFFFFF, [], .no⟩,
    ⟨0x118, [(32, 0x40)], .rws, .const 0, 0xFFFF, [], .no⟩,
    ⟨0x11C, [(32, 0x40)], .rws, .const 0x30, 0x7FF003F, [], .no⟩,
    ⟨0x120, [(32, 0x40)], .rws, .const 0x1, 0x7FFF, [], .no⟩,
    ⟨0x124, [(32, 0x40)], .rws, .const 0, 0x1FFFF, [], .no⟩,
    ⟨0x128, [(32, 0x40)], .ro, .const 0, 0x0, [], .no⟩,
    ⟨0x12C, [(32, 0x40)], .ro, .const 0, 0x0, [], .no⟩,
    ⟨0x130, [(32, 0x40)], .ro, .const 0, 0x0, [], .no⟩,
    ⟨0x134, [(32, 0x40)], .ro, .const 0, 0x0, [], .no⟩,
    ⟨0x138, [(32, 0x40)], .ro, .const 0, 0x0, [], .no⟩,
    ⟨0x13C, [(32, 0x40)], .ro, .const 0, 0x0, [], .no⟩] }

/-- The registers of page 0x070 and the pages that repeat it. -/
def regs070 : RegGroup :=
  { page := 0x070, dims := [], rows := [
    ⟨0x100, [], .rwl, .const 0x303E8, 0xFFFFF, [(0, 16, 100, 10000), (16, 4, 0, 7)], .no⟩,
    ⟨0x104, [], .ro, .const 0, 0x0, [], .no⟩,
    ⟨0x200, [(32, 0x20)], .rws, .const 0x1388, 0xFFFFF, [], .no⟩,
    ⟨0x204, [(32, 0x20)], .rws, .const 0, 0xFFFFFFFF, [], .no⟩,
    ⟨0x208, [(32, 0x20)], .rws, .const 0, 0x7, [], .no⟩,
    ⟨0x20C, [(32, 0x20)], .ro, .const 0, 0x0, [], .no⟩,
    ⟨0x210, [(32, 0x20)], .ro, .const 0, 0x0, [], .no⟩,
    ⟨0x214, [(32, 0x20)], .ro, .const 0, 0x0, [], .no⟩] }

/-- The registers of page 0x080 and the pages that repeat it. -/
def regs080 : RegGroup :=
  { page := 0x080, dims := [(16, 0x2)], rows := [
    ⟨0x100, [], .ro, .const 0, 0x0, [], .no⟩,
    ⟨0x104, [], .ro, .const 0, 0x0, [], .no⟩,
    ⟨0x108, [], .ro, .const 0, 0x0, [], .no⟩,
    ⟨0x10C, [], .ro, .const 0, 0x0, [], .no⟩,
    ⟨0x110, [], .ro, .const 0, 0x0, [], .no⟩,
    ⟨0x140, [(4, 0x10)], .rws, .const 0, 0xF, [], .no⟩,
    ⟨0x144, [(4, 0x10)], .rws, .const 0x3F800000, 0xFFFFFFFF, [], .no⟩,
    ⟨0x148, [(4, 0x10)], .rwl, .const 0, 0x7FFFFF, [], .no⟩,
    ⟨0x14C, [(4, 0x10)], .ro, .const 0, 0x0, [], .no⟩] }

/-- The registers of page 0x081 and the pages that repeat it. -/
def regs081 : RegGroup :=
  { page := 0x081, dims := [(16, 0x2)], rows := [
    ⟨0x100, [(4, 0x200)], .rws, .const 0, 0xFFF19FF, [], .no⟩,
    ⟨0x104, [(4, 0x200), (4, 0x4)], .rws, .const 0, 0xFFFFFF, [], .no⟩,
    ⟨0x114, [(4, 0x200)], .rws, .const 0, 0x1F, [], .no⟩,
    ⟨0x118, [(4, 0x200), (16, 0x4)], .rws, .const 0, 0x1FFFFFFF, [], .no⟩,
    ⟨0x158, [(4, 0x200)], .rws, .const 0, 0x1FFF3FFF, [], .no⟩,
    ⟨0x15C, [(4, 0x200)], .rws, .const 0, 0x3FFF7FFF, [], .no⟩,
    ⟨0x160, [(4, 0x200)], .rws, .const 0x11, 0xFF, [], .no⟩,
    ⟨0x164, [(4, 0x200), (12, 0x4)], .rws, .identity, 0xFFFFFFFF, [], .no⟩,
    ⟨0x194, [(4, 0x200), (6, 0x4)], .rws, .norm, 0xFFFFFFFF, [], .no⟩,
    ⟨0x1B0, [(4, 0x200)], .rws, .const 0, 0xFFFFFFFF, [], .no⟩,
    ⟨0x1B4, [(4, 0x200)], .rws, .const 0, 0xFFFFFF, [], .no⟩,
    ⟨0x1B8, [(4, 0x200)], .rws, .const 0, 0xFFFFFFFF, [], .no⟩,
    ⟨0x1BC, [(4, 0x200)], .rws, .const 0, 0xFFFFFFFF, [], .no⟩,
    ⟨0x1C0, [(4, 0x200)], .rws, .const 0, 0xFFFFFFFF, [], .no⟩,
    ⟨0x1C4, [(4, 0x200)], .rws, .const 0, 0xFFFFFFFF, [], .no⟩,
    ⟨0x1C8, [(4, 0x200)], .rws, .const 0, 0xFFFFFF, [], .no⟩,
    ⟨0x1CC, [(4, 0x200)], .rws, .const 0, 0xFFFFFFFF, [], .no⟩,
    ⟨0x1D0, [(4, 0x200)], .rws, .const 0, 0xFFFF, [], .no⟩,
    ⟨0x1D4, [(4, 0x200)], .ro, .const 0, 0x0, [], .no⟩,
    ⟨0x1D8, [(4, 0x200)], .ro, .const 0, 0x0, [], .no⟩] }

/-- The registers of page 0x0A8 and the pages that repeat it. -/
def regs0A8 : RegGroup :=
  { page := 0x0A8, dims := [], rows := [
    ⟨0x100, [], .rws, .const 0x7596532, 0x3FFFFFFF, [], .no⟩,
    ⟨0x104, [], .rws, .const 0x3, 0x3, [], .no⟩,
    ⟨0x200, [(64, 0x20)], .rws, .const 0, 0x3F3F7F, [], .no⟩,
    ⟨0x204, [(64, 0x20)], .rws, .const 0, 0x1FFF3FFF, [], .no⟩,
    ⟨0x208, [(64, 0x20)], .rws, .const 0, 0x3FFF7FFF, [], .no⟩,
    ⟨0x20C, [(64, 0x20)], .rws, .const 0xFFFFFF, 0xFFFFFF, [], .no⟩,
    ⟨0x210, [(64, 0x20)], .ro, .const 0, 0x0, [], .no⟩] }

/-- The registers of page 0x0A0 and the pages that repeat it. -/
def regs0A0 : RegGroup :=
  { page := 0x0A0, dims := [], rows := [
    ⟨0x100, [], .rws, .const 0xC0, 0xFFF00FF, [], .no⟩,
    ⟨0x104, [], .rws, .const 0, 0xFFFFFFFF, [], .no⟩,
    ⟨0x108, [], .rws, .const 0, 0xFFFFFFFF, [], .no⟩,
    ⟨0x10C, [], .rws, .const 0xC350, 0x3FFFF, [], .no⟩,
    ⟨0x110, [], .rws, .const 0x32, 0xFFFF, [], .no⟩,
    ⟨0x114, [], .rws, .const 0, 0xFFFFFFF, [], .no⟩,
    ⟨0x118, [(3, 0x4)], .rws, .const 0, 0xFFFFFFFF, [], .no⟩,
    ⟨0x124, [(3, 0x4)], .rws, .const 0x3F800000, 0xFFFFFFFF, [], .no⟩,
    ⟨0x130, [], .rws, .const 0, 0x3FFFFF, [], .no⟩,
    ⟨0x134, [], .rws, .const 0, 0xFFFFFFFF, [], .no⟩,
    ⟨0x138, [], .rws, .const 0, 0xFFFFFF, [], .no⟩,
    ⟨0x13C, [], .rws, .const 0x4, 0x7F, [], .no⟩,
    ⟨0x140, [], .rws, .const 0, 0xFFFFFFFF, [], .no⟩,
    ⟨0x144, [], .rws, .const 0, 0xFFFFFF, [], .no⟩,
    ⟨0x148, [], .rws, .const 0, 0xFFFF, [], .no⟩,
    ⟨0x14C, [], .ro, .const 0, 0x0, [], .no⟩,
    ⟨0x150, [], .ro, .const 0, 0x0, [], .no⟩,
    ⟨0x154, [], .ro, .const 0, 0x0, [], .no⟩,
    ⟨0x158, [], .ro, .const 0, 0x0, [], .no⟩,
    ⟨0x15C, [], .ro, .const 0, 0x0, [], .no⟩,
    ⟨0x160, [], .ro, .const 0, 0x0, [], .no⟩] }

/-- The registers of page 0x0C0 and the pages that repeat it. -/
def regs0C0 : RegGroup :=
  { page := 0x0C0, dims := [], rows := [
    ⟨0x100, [], .ro, .const 0, 0x0, [], .no⟩,
    ⟨0x104, [], .ro, .const 0, 0x0, [], .no⟩,
    ⟨0x108, [], .ro, .const 0, 0x0, [], .no⟩,
    ⟨0x10C, [], .rwl, .const 0x1F4, 0xFFFFF, [], .no⟩,
    ⟨0x110, [], .ro, .const 0, 0x0, [], .no⟩,
    ⟨0x114, [], .ro, .const 0, 0x0, [], .no⟩] }

/-- The registers of page 0x0C4 and the pages that repeat it. -/
def regs0C4 : RegGroup :=
  { page := 0x0C4, dims := [(4, 0x1)], rows := [
    ⟨0x100, [(16, 0x40)], .rws, .const 0xF000, 0xFFFF, [], .no⟩,
    ⟨0x104, [(16, 0x40)], .rws, .const 0x11002000, 0x1FFF3FFF, [], .no⟩,
    ⟨0x108, [(16, 0x40)], .rws, .const 0, 0x1FFF3FFF, [], .no⟩,
    ⟨0x10C, [(16, 0x40)], .rws, .const 0, 0xFFFFFFFF, [], .no⟩,
    ⟨0x110, [(16, 0x40)], .ro, .const 0, 0x0, [], .no⟩,
    ⟨0x114, [(16, 0x40)], .rws, .const 0x1000000, 0x7FFFFFF, [], .no⟩,
    ⟨0x118, [(16, 0x40)], .rws, .const 0x1388, 0xFFFFF, [], .no⟩,
    ⟨0x11C, [(16, 0x40)], .rws, .const 0x2710, 0xFFFFF, [], .no⟩,
    ⟨0x120, [(16, 0x40)], .rws, .const 0, 0xFFFF, [], .no⟩,
    ⟨0x124, [(16, 0x40)], .rws, .const 0, 0xFFFFFFFF, [], .no⟩,
    ⟨0x128, [(16, 0x40)], .rws, .const 0, 0xFFFFFF, [], .no⟩,
    ⟨0x12C, [(16, 0x40)], .rws, .const 0, 0xFFFFFFFF, [], .no⟩,
    ⟨0x130, [(16, 0x40)], .rws, .const 0, 0xFFFFFF, [], .no⟩,
    ⟨0x134, [(16, 0x40)], .ro, .const 0, 0x0, [], .no⟩,
    ⟨0x138, [(16, 0x40)], .ro, .const 0, 0x0, [], .no⟩,
    ⟨0x13C, [(16, 0x40)], .ro, .const 0, 0x0, [], .no⟩] }

/-- The registers of page 0x108 and the pages that repeat it. -/
def regs108 : RegGroup :=
  { page := 0x108, dims := [(4, 0x40)], rows := [
    ⟨0x100, [], .ro, .const 0, 0x0, [], .no⟩,
    ⟨0x104, [], .ro, .const 0, 0x0, [], .no⟩,
    ⟨0x108, [], .ro, .const 0, 0x0, [], .no⟩,
    ⟨0x10C, [], .ro, .const 0, 0x0, [], .no⟩,
    ⟨0x110, [], .ro, .const 0, 0x0, [], .no⟩,
    ⟨0x114, [], .ro, .const 0, 0x0, [], .no⟩,
    ⟨0x118, [], .ro, .const 0, 0x0, [], .no⟩,
    ⟨0x200, [(4, 0x40), (16, 0x4)], .rws, .const 0, 0xFFFFFFFF, [], .no⟩] }

/-- The registers of page 0x104 and the pages that repeat it. -/
def regs104 : RegGroup :=
  { page := 0x104, dims := [(4, 0x40), (4, 0x1)], rows := [
    ⟨0x100, [], .ro, .const 0, 0x0, [], .no⟩,
    ⟨0x104, [], .rws, .const 0x10, 0x1F, [(0, 5, 1, 16)], .no⟩,
    ⟨0x108, [], .rwk, .const 0, 0x1, [], .no⟩,
    ⟨0x10C, [], .ro, .const 0, 0x0, [], .no⟩,
    ⟨0x110, [], .ro, .const 0, 0x0, [], .no⟩,
    ⟨0x114, [], .ro, .const 0, 0x0, [], .no⟩,
    ⟨0x118, [], .ro, .const 0, 0x0, [], .no⟩,
    ⟨0x11C, [], .ro, .const 0, 0x0, [], .no⟩,
    ⟨0x120, [], .ro, .const 0, 0x0, [], .no⟩,
    ⟨0x124, [], .ro, .const 0, 0x0, [], .no⟩] }

/-- The registers of page 0x10D and the pages that repeat it. -/
def regs10D : RegGroup :=
  { page := 0x10D, dims := [(4, 0x40)], rows := [
    ⟨0x100, [], .rwl, .const 0, 0x3, [], .no⟩,
    ⟨0x104, [], .rwk, .const 0, 0x1F, [(2, 2, 0, 2)], .no⟩,
    ⟨0x108, [], .ro, .const 0, 0x0, [], .no⟩,
    ⟨0x10C, [], .ro, .const 0, 0x0, [], .no⟩,
    ⟨0x110, [], .ro, .const 0, 0x0, [], .no⟩,
    ⟨0x114, [], .ro, .const 0, 0x0, [], .no⟩,
    ⟨0x118, [], .ro, .const 0, 0x0, [], .no⟩,
    ⟨0x11C, [], .ro, .const 0, 0x0, [], .no⟩] }

/-- The registers of page 0x109 and the pages that repeat it. -/
def regs109 : RegGroup :=
  { page := 0x109, dims := [(4, 0x40), (4, 0x1)], rows := [
    ⟨0x100, [], .ro, .const 0, 0x0, [], .no⟩,
    ⟨0x104, [], .rwk, .const 0, 0x1, [], .no⟩,
    ⟨0x108, [], .ro, .const 0, 0x0, [], .no⟩,
    ⟨0x10C, [], .ro, .const 0, 0x0, [], .no⟩,
    ⟨0x110, [], .ro, .const 0, 0x0, [], .no⟩,
    ⟨0x114, [], .ro, .const 0, 0x0, [], .no⟩,
    ⟨0x118, [], .ro, .const 0, 0x0, [], .no⟩,
    ⟨0x11C, [], .rwk, .const 0, 0x1, [], .no⟩] }

/-- The registers of page 0x109 and the pages that repeat it. -/
def regs109b : RegGroup :=
  { page := 0x109, dims := [(4, 0x40)], rows := [
    ⟨0x120, [], .ro, .const 0, 0x0, [], .no⟩] }

/-- The registers of page 0x10A and the pages that repeat it. -/
def regs10A : RegGroup :=
  { page := 0x10A, dims := [(4, 0x40)], rows := [
    ⟨0x120, [], .ro, .const 0, 0x0, [], .no⟩,
    ⟨0x124, [], .ro, .const 0, 0x0, [], .no⟩,
    ⟨0x128, [], .ro, .const 0, 0x0, [], .no⟩,
    ⟨0x12C, [], .ro, .const 0, 0x0, [], .no⟩] }

/-- The registers of page 0x10B and the pages that repeat it. -/
def regs10B : RegGroup :=
  { page := 0x10B, dims := [(4, 0x40)], rows := [
    ⟨0x120, [], .ro, .const 0, 0x0, [], .no⟩,
    ⟨0x124, [], .ro, .const 0, 0x0, [], .no⟩,
    ⟨0x128, [], .ro, .const 0, 0x0, [], .no⟩] }

/-- The registers of page 0x10C and the pages that repeat it. -/
def regs10C : RegGroup :=
  { page := 0x10C, dims := [(4, 0x40)], rows := [
    ⟨0x120, [], .ro, .const 0, 0x0, [], .no⟩,
    ⟨0x124, [], .ro, .const 0, 0x0, [], .no⟩] }

/-- The registers of page 0x110 and the pages that repeat it. -/
def regs110 : RegGroup :=
  { page := 0x110, dims := [(4, 0x40)], rows := [
    ⟨0x100, [], .ro, .const 0, 0x0, [], .no⟩,
    ⟨0x104, [], .ro, .const 0, 0x0, [], .no⟩,
    ⟨0x108, [], .ro, .const 0, 0x0, [], .no⟩,
    ⟨0x10C, [], .ro, .const 0, 0x0, [], .no⟩,
    ⟨0x110, [], .ro, .const 0, 0x0, [], .no⟩,
    ⟨0x114, [], .ro, .const 0, 0x0, [], .no⟩,
    ⟨0x118, [], .rwl, .const 0x10064, 0x1FFFF, [(0, 16, 10, 10000)], .no⟩,
    ⟨0x11C, [], .ro, .const 0, 0x0, [], .no⟩,
    ⟨0x120, [], .ro, .const 0, 0x0, [], .no⟩,
    ⟨0x124, [], .rwk, .const 0, 0xFF, [], .no⟩] }

/-- The registers of page 0x111 and the pages that repeat it. -/
def regs111 : RegGroup :=
  { page := 0x111, dims := [(4, 0x40), (2, 0x1)], rows := [
    ⟨0x100, [(32, 0x40)], .rwl, .const 0, 0x7F, [], .no⟩,
    ⟨0x104, [(32, 0x40)], .rwl, .const 0, 0x3FFF000, [], .no⟩,
    ⟨0x108, [(32, 0x40)], .rwl, .const 0, 0xFFFF, [], .no⟩,
    ⟨0x110, [(32, 0x40)], .ro, .const 0, 0x0, [], .no⟩,
    ⟨0x114, [(32, 0x40)], .ro, .const 0, 0x0, [], .no⟩,
    ⟨0x118, [(32, 0x40)], .ro, .const 0, 0x0, [], .no⟩,
    ⟨0x11C, [(32, 0x40)], .wo, .const 0, 0xFFFFFFFF, [], .no⟩,
    ⟨0x120, [(32, 0x40)], .wo, .const 0, 0xFFFFFFFF, [], .no⟩,
    ⟨0x124, [(32, 0x40)], .wo, .const 0, 0x1, [], .no⟩,
    ⟨0x128, [(32, 0x40)], .ro, .const 0, 0x0, [], .no⟩,
    ⟨0x12C, [(32, 0x40)], .ro, .const 0, 0x0, [], .no⟩,
    ⟨0x130, [(32, 0x40)], .ro, .const 0, 0x0, [], .no⟩,
    ⟨0x134, [(32, 0x40)], .ro, .const 0, 0x0, [], .no⟩] }

/-- The registers of page 0x200 and the pages that repeat it. -/
def regs200 : RegGroup :=
  { page := 0x200, dims := [], rows := [
    ⟨0x100, [], .rwl, .const 0x2, 0x3, [], .no⟩,
    ⟨0x104, [], .rwl, .const 0, 0xFFFFFFFF, [], .low⟩,
    ⟨0x108, [], .rwl, .const 0, 0xFFFFFF, [], .high⟩,
    ⟨0x10C, [], .rwl, .const 0, 0xFFFFFFFF, [], .low⟩,
    ⟨0x110, [], .rwl, .const 0, 0xFFFFFF, [], .high⟩,
    ⟨0x114, [], .ro, .const 0, 0x0, [], .no⟩,
    ⟨0x118, [], .ro, .const 0, 0x0, [], .no⟩,
    ⟨0x11C, [], .ro, .const 0, 0x0, [], .no⟩,
    ⟨0x120, [], .ro, .const 0, 0x0, [], .no⟩,
    ⟨0x124, [], .ro, .const 0, 0x0, [], .no⟩,
    ⟨0x128, [], .ro, .const 0, 0x0, [], .no⟩,
    ⟨0x12C, [], .rws, .const 0x1000003, 0xFFFF000F, [(0, 4, 1, 15)], .no⟩,
    ⟨0x130, [], .rwk, .const 0, 0x1, [], .no⟩] }

/-- The registers of page 0x201 and the pages that repeat it. -/
def regs201 : RegGroup :=
  { page := 0x201, dims := [], rows := [
    ⟨0x100, [], .rwl, .const 0, 0xFFFFFFFF, [], .low⟩,
    ⟨0x104, [], .rwl, .const 0, 0xFFFFFF, [], .high⟩,
    ⟨0x108, [], .rwl, .const 0, 0x3F, [], .no⟩,
    ⟨0x10C, [], .rwl, .const 0, 0x3FFFFF, [], .no⟩,
    ⟨0x110, [], .rws, .const 0, 0x3FFFFF, [], .no⟩,
    ⟨0x114, [], .ro, .const 0, 0x0, [], .no⟩,
    ⟨0x118, [], .ro, .const 0, 0x0, [], .no⟩,
    ⟨0x11C, [], .rwl, .const 0, 0xFFF, [(0, 12, 0, 2048)], .no⟩,
    ⟨0x120, [], .ro, .const 0, 0x0, [], .no⟩,
    ⟨0x124, [], .rws, .const 0x7D0, 0xFFFFF, [(0, 20, 100, 1000000)], .no⟩,
    ⟨0x128, [], .ro, .const 0, 0x0, [], .no⟩,
    ⟨0x12C, [], .ro, .const 0, 0x0, [], .no⟩,
    ⟨0x130, [], .ro, .const 0, 0x0, [], .no⟩,
    ⟨0x134, [], .ro, .const 0, 0x0, [], .no⟩,
    ⟨0x138, [], .ro, .const 0, 0x0, [], .no⟩,
    ⟨0x13C, [], .ro, .const 0, 0x0, [], .no⟩,
    ⟨0x140, [], .ro, .const 0, 0x0, [], .no⟩,
    ⟨0x144, [], .ro, .const 0, 0x0, [], .no⟩,
    ⟨0x148, [], .ro, .const 0, 0x0, [], .no⟩] }

/-- The registers of page 0x003 and the pages that repeat it. -/
def regs003 : RegGroup :=
  { page := 0x003, dims := [], rows := [
    ⟨0x100, [], .ro, .const 0, 0x0, [], .no⟩,
    ⟨0x104, [], .ro, .const 0, 0x0, [], .no⟩,
    ⟨0x108, [], .rwl, .const 0, 0xFFFFFFFF, [], .low⟩,
    ⟨0x10C, [], .rwl, .const 0, 0xFFFFFFFF, [], .high⟩,
    ⟨0x200, [(8, 0x20)], .rw, .const 0, 0x1, [], .no⟩,
    ⟨0x204, [(8, 0x20)], .rwl, .const 0x2FAF080, 0xFFFFFFFF, [], .no⟩,
    ⟨0x208, [(8, 0x20)], .rwl, .const 0x2FAF080, 0xFFFFFFFF, [], .no⟩,
    ⟨0x20C, [(8, 0x20)], .rwl, .const 0, 0xFFFFFFFF, [], .low⟩,
    ⟨0x210, [(8, 0x20)], .rwl, .const 0, 0xFFFFFFFF, [], .high⟩,
    ⟨0x214, [(8, 0x20)], .rwl, .const 0, 0xFFFFFFFF, [], .no⟩,
    ⟨0x218, [(8, 0x20)], .ro, .const 0, 0x0, [], .no⟩,
    ⟨0x21C, [(8, 0x20)], .ro, .const 0, 0x0, [], .no⟩] }

/-- The registers of page 0x002 and the pages that repeat it. -/
def regs002 : RegGroup :=
  { page := 0x002, dims := [], rows := [
    ⟨0x100, [], .rwl, .const 0, 0x1, [], .no⟩,
    ⟨0x104, [], .ro, .const 0, 0x0, [], .no⟩,
    ⟨0x108, [], .rwk, .const 0, 0xFF7F, [(0, 2, 0, 2)], .no⟩,
    ⟨0x10C, [], .rwl, .const 0, 0xFFFFFFFF, [], .low⟩,
    ⟨0x110, [], .rwl, .const 0, 0xFFFFFF, [], .high⟩,
    ⟨0x114, [], .rwl, .const 0x4, 0x7F, [(0, 7, 1, 64)], .no⟩,
    ⟨0x118, [], .ro, .const 0, 0x0, [], .no⟩,
    ⟨0x11C, [], .ro, .const 0, 0x0, [], .no⟩,
    ⟨0x120, [], .rw, .const 0, 0x1FFFFFFF, [], .no⟩,
    ⟨0x124, [], .ro, .const 0, 0x0, [], .no⟩,
    ⟨0x128, [], .ro, .const 0, 0x0, [], .no⟩,
    ⟨0x140, [(4, 0x10)], .rwl, .const 0, 0xFFFFFFFF, [], .low⟩,
    ⟨0x144, [(4, 0x10)], .rwl, .const 0, 0xFFFFFF, [], .high⟩,
    ⟨0x148, [(4, 0x10)], .rwl, .const 0, 0x3FFFF, [], .no⟩] }

/-- The registers of page 0x0E0 and the pages that repeat it. -/
def regs0E0 : RegGroup :=
  { page := 0x0E0, dims := [], rows := [
    ⟨0x100, [], .ro, .const 0, 0x0, [], .no⟩,
    ⟨0x104, [], .ro, .const 0x4000, 0x0, [], .no⟩,
    ⟨0x108, [], .ro, .const 0, 0x0, [], .no⟩,
    ⟨0x10C, [], .ro, .const 0, 0x0, [], .no⟩,
    ⟨0x110, [], .ro, .const 0, 0x0, [], .no⟩,
    ⟨0x114, [], .rwl, .const 0, 0xFF, [], .no⟩,
    ⟨0x118, [], .ro, .const 0, 0x0, [], .no⟩,
    ⟨0x11C, [], .ro, .const 0, 0x0, [], .no⟩,
    ⟨0x120, [], .rw, .const 0, 0xFF, [], .no⟩] }

/-- The registers of page 0x0E3 and the pages that repeat it. -/
def regs0E3 : RegGroup :=
  { page := 0x0E3, dims := [], rows := [
    ⟨0x100, [(16, 0x20)], .rwl, .const 0, 0xFFFFFFFF, [], .low⟩,
    ⟨0x104, [(16, 0x20)], .rwl, .const 0, 0xFFFFFFFF, [], .high⟩,
    ⟨0x108, [(16, 0x20)], .rwl, .const 0, 0xFFFF0FFF, [(0, 4, 0, 10)], .no⟩,
    ⟨0x10C, [(16, 0x20)], .rwl, .const 0, 0xFFFFFFFF, [], .low⟩,
    ⟨0x110, [(16, 0x20)], .rwl, .const 0, 0xFFFFFFFF, [], .high⟩,
    ⟨0x114, [(16, 0x20)], .ro, .const 0, 0x0, [], .no⟩,
    ⟨0x118, [(16, 0x20)], .rw, .const 0, 0xFFFFFFFF, [], .no⟩,
    ⟨0x11C, [(16, 0x20)], .ro, .const 0, 0x0, [], .no⟩] }

/-- The registers of page 0x240 and the pages that repeat it. -/
def regs240 : RegGroup :=
  { page := 0x240, dims := [(16, 0x1)], rows := [
    ⟨0x100, [], .ro, .const 0, 0x0, [], .no⟩,
    ⟨0x104, [], .ro, .const 0, 0x0, [], .no⟩,
    ⟨0x108, [], .ro, .const 0, 0x0, [], .no⟩,
    ⟨0x10C, [], .ro, .const 0, 0x0, [], .no⟩,
    ⟨0x110, [], .ro, .const 0, 0x0, [], .no⟩,
    ⟨0x114, [], .ro, .const 0, 0x0, [], .no⟩,
    ⟨0x118, [], .rwl, .const 0x64, 0xFFFF, [(0, 16, 1, 65535)], .no⟩,
    ⟨0x11C, [], .rwk, .const 0, 0x3, [], .no⟩] }

/-- The registers of page 0x260 and the pages that repeat it. -/
def regs260 : RegGroup :=
  { page := 0x260, dims := [], rows := [
    ⟨0x100, [], .ro, .const 0, 0x0, [], .no⟩,
    ⟨0x104, [], .rwl, .const 0x10018, 0x100FF, [(0, 8, 1, 168)], .no⟩,
    ⟨0x108, [], .ro, .const 0, 0x0, [], .no⟩,
    ⟨0x10C, [], .ro, .const 0, 0x0, [], .no⟩,
    ⟨0x110, [], .ro, .const 0, 0x0, [], .no⟩,
    ⟨0x114, [], .rwl, .const 0xBA, 0xFFFF, [(0, 16, 160, 190)], .no⟩,
    ⟨0x118, [], .ro, .const 0, 0x0, [], .no⟩] }

/-- The registers of page 0x261 and the pages that repeat it. -/
def regs261 : RegGroup :=
  { page := 0x261, dims := [], rows := [
    ⟨0x200, [(16, 0x20)], .rwl, .const 0, 0xFFFFFFFF, [], .low⟩,
    ⟨0x204, [(16, 0x20)], .rwl, .const 0, 0xFFFFFF, [], .high⟩,
    ⟨0x208, [(16, 0x20)], .rwl, .const 0, 0x1FFFF, [(0, 17, 1, 65536)], .no⟩,
    ⟨0x20C, [(16, 0x20)], .rwl, .const 0, 0xFFFFFFFF, [], .low⟩,
    ⟨0x210, [(16, 0x20)], .rwl, .const 0, 0xFFFFFF, [], .high⟩,
    ⟨0x214, [(16, 0x20)], .rwl, .const 0, 0x7F, [(5, 2, 0, 2)], .no⟩,
    ⟨0x218, [(16, 0x20)], .ro, .const 0, 0x0, [], .no⟩,
    ⟨0x21C, [(16, 0x20)], .ro, .const 0, 0x0, [], .no⟩] }

/-- The registers of page 0x280 and the pages that repeat it. -/
def regs280 : RegGroup :=
  { page := 0x280, dims := [], rows := [
    ⟨0x100, [], .ro, .const 0, 0x0, [], .no⟩,
    ⟨0x104, [], .rwl, .const 0x3, 0x3, [], .no⟩,
    ⟨0x108, [], .rw, .const 0, 0xF0000000, [], .low⟩,
    ⟨0x10C, [], .rw, .const 0, 0xFFFFFF, [], .high⟩,
    ⟨0x110, [], .ro, .const 0, 0x0, [], .no⟩,
    ⟨0x114, [], .ro, .const 0, 0x0, [], .no⟩,
    ⟨0x118, [], .ro, .const 0, 0x0, [], .no⟩] }

/-- The registers of page 0x288 and the pages that repeat it. -/
def regs288 : RegGroup :=
  { page := 0x288, dims := [(3, 0x8)], rows := [
    ⟨0x100, [], .rwl, .const 0x2, 0xFF07, [], .no⟩,
    ⟨0x104, [], .ro, .const 0, 0x0, [], .no⟩,
    ⟨0x108, [], .ro, .const 0, 0x0, [], .no⟩,
    ⟨0x10C, [], .ro, .const 0, 0x0, [], .no⟩,
    ⟨0x110, [], .ro, .const 0, 0x0, [], .no⟩,
    ⟨0x114, [], .ro, .const 0, 0x0, [], .no⟩,
    ⟨0x118, [], .ro, .const 0, 0x0, [], .no⟩,
    ⟨0x11C, [], .ro, .const 0, 0x0, [], .no⟩] }

/-- The registers of page 0x2A0 and the pages that repeat it. -/
def regs2A0 : RegGroup :=
  { page := 0x2A0, dims := [], rows := [
    ⟨0x100, [], .rwl, .const 0, 0x3, [], .no⟩,
    ⟨0x104, [], .ro, .const 0, 0x0, [], .no⟩,
    ⟨0x108, [], .ro, .const 0, 0x0, [], .no⟩,
    ⟨0x10C, [], .ro, .const 0, 0x0, [], .no⟩] }

/-- The registers of page 0x2A8 and the pages that repeat it. -/
def regs2A8 : RegGroup :=
  { page := 0x2A8, dims := [], rows := [
    ⟨0x100, [], .ro, .const 0, 0x0, [], .no⟩,
    ⟨0x104, [], .rwl, .const 0x1F4, 0xFFFF, [(0, 16, 100, 5000)], .no⟩,
    ⟨0x200, [(49, 0x8)], .ro, .const 0, 0x0, [], .no⟩,
    ⟨0x204, [(49, 0x8)], .ro, .const 0, 0x0, [], .no⟩] }

/-- The registers of page 0x2E0 and the pages that repeat it. -/
def regs2E0 : RegGroup :=
  { page := 0x2E0, dims := [], rows := [
    ⟨0x100, [], .rwl, .const 0, 0x7, [], .no⟩,
    ⟨0x104, [], .rwi, .const 0, 0x1, [], .no⟩,
    ⟨0x108, [], .rwl, .const 0x3E8, 0x1FFFF, [(0, 17, 100, 100000)], .no⟩,
    ⟨0x10C, [], .ro, .const 0, 0x0, [], .no⟩,
    ⟨0x110, [], .ro, .const 0, 0x0, [], .no⟩] }

/-- The registers of page 0x2D0 and the pages that repeat it. -/
def regs2D0 : RegGroup :=
  { page := 0x2D0, dims := [], rows := [
    ⟨0x100, [], .rwl, .const 0, 0xFFF0001, [(16, 12, 1024, 4095)], .no⟩,
    ⟨0x104, [], .rwl, .const 0, 0xFFFFFFFF, [], .no⟩,
    ⟨0x108, [], .rwl, .const 0, 0xFFFFFFFF, [], .no⟩,
    ⟨0x10C, [], .ro, .const 0, 0x0, [], .no⟩,
    ⟨0x110, [], .rwl, .const 0, 0x7FFFFF, [], .no⟩,
    ⟨0x114, [], .rwl, .const 0, 0x7FFFFF, [], .no⟩,
    ⟨0x118, [], .rwl, .const 0x4E20, 0xFFFFF, [], .no⟩,
    ⟨0x11C, [], .ro, .const 0, 0x0, [], .no⟩,
    ⟨0x120, [], .ro, .const 0, 0x0, [], .no⟩,
    ⟨0x124, [], .ro, .const 0, 0x0, [], .no⟩,
    ⟨0x128, [], .ro, .const 0, 0x0, [], .no⟩,
    ⟨0x12C, [], .ro, .const 0, 0x0, [], .no⟩,
    ⟨0x130, [], .ro, .const 0, 0x0, [], .no⟩,
    ⟨0x134, [], .rwk, .const 0, 0x1, [], .no⟩] }

/-- The registers of page 0x2D8 and the pages that repeat it. -/
def regs2D8 : RegGroup :=
  { page := 0x2D8, dims := [], rows := [
    ⟨0x100, [], .rwl, .const 0x470, 0xFFFFF, [], .no⟩,
    ⟨0x104, [], .rwl, .const 0xFFFF, 0xFFFF, [], .no⟩,
    ⟨0x108, [], .rwl, .const 0, 0xFFFFFFFF, [], .no⟩,
    ⟨0x10C, [], .rwl, .const 0, 0xFFFFFFFF, [], .no⟩,
    ⟨0x110, [], .rwl, .const 0x1F4, 0xFFFF, [], .no⟩,
    ⟨0x114, [], .rwl, .const 0x8000, 0xFFFF, [], .no⟩,
    ⟨0x118, [], .rws, .const 0, 0x3, [], .no⟩,
    ⟨0x11C, [], .ro, .const 0, 0x0, [], .no⟩,
    ⟨0x120, [], .ro, .const 0, 0x0, [], .no⟩,
    ⟨0x124, [], .ro, .const 0, 0x0, [], .no⟩,
    ⟨0x128, [], .ro, .const 0, 0x0, [], .no⟩,
    ⟨0x12C, [], .ro, .const 0, 0x0, [], .no⟩] }

/-- The registers of page 0x2D9 and the pages that repeat it. -/
def regs2D9 : RegGroup :=
  { page := 0x2D9, dims := [], rows := [
    ⟨0x100, [(32, 0x10)], .rwl, .const 0, 0xFFFFFFFF, [], .no⟩,
    ⟨0x104, [(32, 0x10)], .rwl, .const 0, 0xFFFFFFFF, [], .no⟩,
    ⟨0x108, [(32, 0x10)], .rwl, .const 0, 0xFFFF000F, [], .no⟩,
    ⟨0x10C, [(32, 0x10)], .rwl, .const 0, 0xFFFF, [], .no⟩] }

/-- The registers of page 0x2DA and the pages that repeat it. -/
def regs2DA : RegGroup :=
  { page := 0x2DA, dims := [], rows := [
    ⟨0x100, [(16, 0x8)], .rwl, .const 0, 0xFFF001F, [], .no⟩,
    ⟨0x104, [(16, 0x8)], .ro, .const 0, 0x0, [], .no⟩] }

/-- The registers of page 0x2DB and the pages that repeat it. -/
def regs2DB : RegGroup :=
  { page := 0x2DB, dims := [], rows := [
    ⟨0x100, [], .ro, .const 0, 0x0, [], .no⟩,
    ⟨0x104, [], .ro, .const 0, 0x0, [], .no⟩,
    ⟨0x108, [], .rwk, .const 0, 0x11F, [], .no⟩,
    ⟨0x10C, [], .rwk, .const 0, 0xF, [(0, 3, 0, 4)], .no⟩] }

/-- The registers of page 0x2C0 and the pages that repeat it. -/
def regs2C0 : RegGroup :=
  { page := 0x2C0, dims := [], rows := [
    ⟨0x100, [], .ro, .const 0, 0x0, [], .no⟩,
    ⟨0x104, [], .rwi, .const 0, 0x1, [], .no⟩,
    ⟨0x108, [], .rwi, .const 0, 0x1, [], .no⟩,
    ⟨0x10C, [], .rwl, .const 0x1F4, 0x3FFF, [(0, 14, 10, 10000)], .no⟩,
    ⟨0x110, [], .rwl, .const 0x3C0004, 0x7FF000F, [(0, 4, 1, 15), (16, 11, 1, 1440)], .no⟩,
    ⟨0x114, [], .rwl, .const 0x3E80002, 0x3FFF0003, [(0, 2, 1, 3), (16, 14, 10, 10000)], .no⟩,
    ⟨0x118, [], .ro, .const 0, 0x0, [], .no⟩,
    ⟨0x11C, [], .ro, .const 0, 0x0, [], .no⟩,
    ⟨0x120, [], .ro, .const 0, 0x0, [], .no⟩,
    ⟨0x124, [], .rw, .const 0, 0xFF, [], .no⟩,
    ⟨0x128, [], .ro, .const 0x3, 0x0, [], .no⟩,
    ⟨0x12C, [], .rwk, .const 0, 0x11FF, [], .no⟩] }

/-- The registers of page 0x2E8 and the pages that repeat it. -/
def regs2E8 : RegGroup :=
  { page := 0x2E8, dims := [], rows := [
    ⟨0x100, [], .rwl, .const 0x1, 0x1, [], .no⟩,
    ⟨0x104, [], .rwl, .const 0x3E8, 0x3FFF, [(0, 14, 100, 10000)], .no⟩,
    ⟨0x108, [], .rwk, .const 0, 0x813F, [(0, 6, 0, 47)], .no⟩,
    ⟨0x10C, [], .ro, .const 0, 0x0, [], .no⟩,
    ⟨0x110, [], .ro, .const 0, 0x0, [], .no⟩,
    ⟨0x114, [], .ro, .const 0, 0x0, [], .no⟩,
    ⟨0x118, [], .ro, .const 0, 0x0, [], .no⟩,
    ⟨0x11C, [], .ro, .const 0, 0x0, [], .no⟩] }

/-- The registers of page 0x030 and the pages that repeat it. -/
def regs030 : RegGroup :=
  { page := 0x030, dims := [], rows := [
    ⟨0x100, [], .ro, .const 0, 0x0, [], .no⟩,
    ⟨0x104, [], .ro, .fuse, 0x0, [], .no⟩,
    ⟨0x108, [], .ro, .const 0, 0x0, [], .no⟩,
    ⟨0x10C, [], .ro, .const 0, 0x0, [], .no⟩,
    ⟨0x110, [], .wo, .const 0, 0x1, [], .no⟩,
    ⟨0x114, [], .ro, .const 0x1, 0x0, [], .no⟩] }

/-- The registers of page 0x038 and the pages that repeat it. -/
def regs038 : RegGroup :=
  { page := 0x038, dims := [], rows := [
    ⟨0x100, [], .ro, .const 0, 0x0, [], .no⟩,
    ⟨0x104, [], .ro, .const 0, 0x0, [], .no⟩,
    ⟨0x108, [], .ro, .const 0, 0x0, [], .no⟩,
    ⟨0x10C, [], .ro, .const 0, 0x0, [], .no⟩,
    ⟨0x110, [], .ro, .const 0, 0x0, [], .no⟩] }

/-- The registers of page 0x039 and the pages that repeat it. -/
def regs039 : RegGroup :=
  { page := 0x039, dims := [], rows := [
    ⟨0x100, [(7, 0x10)], .ro, .const 0, 0x0, [], .no⟩,
    ⟨0x104, [(7, 0x10)], .wo, .const 0, 0xFF, [], .no⟩,
    ⟨0x108, [(7, 0x10)], .ro, .const 0, 0x0, [], .no⟩,
    ⟨0x10C, [(7, 0x10)], .ro, .const 0, 0x0, [], .no⟩] }

/-- The registers of page 0x010 and the pages that repeat it. -/
def regs010 : RegGroup :=
  { page := 0x010, dims := [], rows := [
    ⟨0x100, [], .ro, .const 0, 0x0, [], .no⟩,
    ⟨0x104, [], .rwl, .const 0xF0, 0xFF, [(0, 8, 120, 240)], .no⟩,
    ⟨0x108, [], .rwl, .const 0x118, 0x1FF, [(0, 9, 100, 280)], .no⟩,
    ⟨0x10C, [], .rwi, .const 0, 0x1FF, [], .no⟩,
    ⟨0x110, [], .rwl, .const 0xA, 0x3F, [(0, 6, 1, 40)], .no⟩,
    ⟨0x114, [], .rw, .const 0x2, 0x3FFFF, [(0, 18, 0, 250000)], .no⟩,
    ⟨0x118, [], .rw, .const 0x2, 0x3FFFF, [(0, 18, 0, 250000)], .no⟩,
    ⟨0x11C, [], .rw, .const 0x2, 0x3FFFF, [(0, 18, 0, 250000)], .no⟩,
    ⟨0x120, [], .ro, .const 0, 0x0, [], .no⟩,
    ⟨0x124, [], .ro, .const 0, 0x0, [], .no⟩,
    ⟨0x128, [], .ro, .const 0, 0x0, [], .no⟩,
    ⟨0x12C, [], .ro, .const 0, 0x0, [], .no⟩] }

/-- The registers of page 0x011 and the pages that repeat it. -/
def regs011 : RegGroup :=
  { page := 0x011, dims := [], rows := [
    ⟨0x100, [(6, 0x10)], .ro, .const 0, 0x0, [], .no⟩,
    ⟨0x104, [(6, 0x10)], .ro, .const 0, 0x0, [], .no⟩,
    ⟨0x108, [(6, 0x10)], .ro, .const 0, 0x0, [], .no⟩,
    ⟨0x10C, [(6, 0x10)], .ro, .const 0, 0x0, [], .no⟩,
    ⟨0x200, [], .ro, .const 0, 0x0, [], .no⟩,
    ⟨0x204, [], .rwl, .const 0xD2, 0xFFFF, [(0, 16, 170, 220)], .no⟩] }

/-- The registers of page 0x020 and the pages that repeat it. -/
def regs020 : RegGroup :=
  { page := 0x020, dims := [], rows := [
    ⟨0x100, [(25, 0x10)], .ro, .const 0, 0x0, [], .no⟩,
    ⟨0x104, [(25, 0x10)], .ro, .clkFreq, 0x0, [], .no⟩,
    ⟨0x108, [(25, 0x10)], .rwl, .clkHold, 0x7, [(0, 3, 0, 3)], .no⟩,
    ⟨0x10C, [(25, 0x10)], .ro, .const 0, 0x0, [], .no⟩,
    ⟨0x300, [], .ro, .const 0, 0x0, [], .no⟩] }

/-- The registers of page 0x0A1 and the pages that repeat it. -/
def regs0A1 : RegGroup :=
  { page := 0x0A1, dims := [], rows := [
    ⟨0x100, [(32, 0x40), (9, 0x4)], .rws, .extr, 0xFFFFFFFF, [], .no⟩,
    ⟨0x124, [(32, 0x40), (3, 0x4)], .rws, .const 0, 0xFFFFFFFF, [], .no⟩] }

/-- The registers of page 0x0E4 and the pages that repeat it. -/
def regs0E4 : RegGroup :=
  { page := 0x0E4, dims := [], rows := [
    ⟨0x100, [(177, 0x4)], .rw, .const 0, 0xFF, [], .no⟩] }

/-- The registers of page 0x282 and the pages that repeat it. -/
def regs282 : RegGroup :=
  { page := 0x282, dims := [], rows := [
    ⟨0x400, [(64, 0x10), (3, 0x4)], .rw, .const 0, 0xFFFFFFFF, [], .no⟩,
    ⟨0x40C, [(64, 0x10)], .rw, .const 1, 0x1, [], .no⟩,
    ⟨0x800, [(2, 0x4)], .ro, .const 0, 0x0, [], .no⟩] }

/-- The registers of page 0x289 and the pages that repeat it. -/
def regs289 : RegGroup :=
  { page := 0x289, dims := [], rows := [
    ⟨0x100, [(256, 0x4)], .rwl, .const 0, 0x77, [(0, 3, 0, 4), (4, 3, 0, 4)], .no⟩,
    ⟨0x500, [], .rwl, .const 0, 0x3FF, [(8, 2, 0, 3)], .no⟩,
    ⟨0x504, [], .ro, .const 0, 0x0, [], .no⟩] }

/-- The registers of page 0x2C1 and the pages that repeat it. -/
def regs2C1 : RegGroup :=
  { page := 0x2C1, dims := [], rows := [
    ⟨0x100, [(512, 0x4)], .rwl, .source, 0xF, [], .no⟩] }

/-- The registers of page 0x2C2 and the pages that repeat it. -/
def regs2C2 : RegGroup :=
  { page := 0x2C2, dims := [], rows := [
    ⟨0x100, [(512, 0x4)], .ro, .const 0, 0x0, [], .no⟩] }

/-- The registers of page 0x2E9 and the pages that repeat it. -/
def regs2E9 : RegGroup :=
  { page := 0x2E9, dims := [], rows := [
    ⟨0x100, [(8, 0x8)], .rwl, .const 0, 0x8001FFFF, [], .no⟩,
    ⟨0x104, [(8, 0x8)], .rwl, .const 0, 0x1FFFF, [], .no⟩] }

/-- The registers of page 0x2EA and the pages that repeat it. -/
def regs2EA : RegGroup :=
  { page := 0x2EA, dims := [], rows := [
    ⟨0x100, [(48, 0x8)], .rwl, .const 0, 0x1, [], .no⟩,
    ⟨0x104, [(48, 0x8)], .ro, .const 0, 0x0, [], .no⟩] }

/-- Every register group. -/
def regGroups : List RegGroup :=
  [regs004, regs0E1, regs0E2, regs000, regs001, regs040, regs060, regs070,
   regs080, regs081, regs0A8, regs0A0, regs0C0, regs0C4, regs108, regs104,
   regs10D, regs109, regs109b, regs10A, regs10B, regs10C, regs110, regs111,
   regs200, regs201, regs003, regs002, regs0E0, regs0E3, regs240, regs260,
   regs261, regs280, regs288, regs2A0, regs2A8, regs2E0, regs2D0, regs2D8,
   regs2D9, regs2DA, regs2DB, regs2C0, regs2E8, regs030, regs038, regs039,
   regs010, regs011, regs020, regs0A1, regs0E4, regs282, regs289, regs2C1,
   regs2C2, regs2E9, regs2EA]

end Sys2Proof.Machine
end

