-- ==== Sys2Proof/Machine/State.lean ====
section
/-!
DEFINITION. The state of the block: everything the spec gives it, as plain data, and the state after reset.
Registers live in one map from local address to word; the parts below hold what is not a register.
A field of type `List (Nat × α)` is a sparse map: keys rise strictly and no entry equals its default.
-/

namespace Sys2Proof.Machine

/-- Where the supplies and the whole-device hold level stand (R532, R531). -/
inductive Power where
  /-- Reset is asserted. -/
  | held
  /-- Reset is released. -/
  | on
  /-- Hold level H4. -/
  | asleep
  deriving DecidableEq, Repr

/-! ### Registers (chapter 3) -/

/-- A queued posted write (R78). -/
structure PostedWrite where
  agent : Agent
  addr : Nat
  value : Word
  deriving DecidableEq, Repr

/-- An armed unlock (R87): page, agent, and the ridge count at which it lapses. -/
structure Unlock where
  page : Nat
  agent : Agent
  lapse : Nat
  deriving DecidableEq, Repr

/-- An update group (R81 to R85): armed with its time, and what its mailbox captures. -/
structure Group where
  armed : Bool := false
  /-- The frame group whose launch applies it (R83, "at boundary"); none for "at once". -/
  boundary : Option Nat := none
  /-- The time it applies, or the earliest launch count that applies it. -/
  due : Nat := 0
  lastT : Nat := 0
  applied : Nat := 0
  deriving DecidableEq, Repr

/-- The registers and their mechanisms. -/
structure RegFile where
  /-- Live copies, by local address. -/
  live : List (Nat × Word) := []
  /-- Shadow copies of RWS registers (R81). -/
  shadow : List (Nat × Word) := []
  /-- Pending copies of RWS registers (R81). -/
  pend : List (Nat × Word) := []
  /-- Staged low words of wide fields (R66), by the low word's address. -/
  staged : List (Nat × Word) := []
  /-- Posted-write queues by page, oldest first (R78). -/
  posted : List (Nat × List PostedWrite) := []
  /-- Armed unlocks (R87). -/
  unlocks : List Unlock := []
  /-- Pending mailbox captures: page and selector (R74). -/
  captures : List (Nat × Nat) := []
  /-- Update groups 0 to 15. -/
  groups : List (Nat × Group) := []
  /-- Pages of held domains whose pending copies apply on wake (R83). -/
  deferred : List Nat := []
  /-- Clock domains for which a wake is requested (R78). -/
  wakes : List Nat := []
  deriving DecidableEq, Repr

/-! ### Pegs (chapter 10) -/

/-- A peg (Tables 10.2 and 10.3). -/
structure Peg where
  count : Word := 0
  target : Word := 0
  cfg : Word := 0
  epoch : BitVec 8 := 0
  saturated : Bool := false
  cfgRefused : Bool := false
  discarded : BitVec 16 := 0
  deriving DecidableEq, Repr

/-! ### Pods (chapters 2 and 12) -/

/-- A pod header (Table 2.1). -/
structure PodHeader where
  version : Nat
  kind : Nat
  cls : Nat
  flags : Nat
  length : Nat
  origin : Nat
  target : Nat
  sequence : Nat
  frame : Nat
  operation : Nat
  completionPeg : Nat
  waitPeg : Nat
  waitTarget : Nat
  launch : Nat
  deriving DecidableEq, Repr

/-- A pod the device sends (R542), before its ring gives it a sequence. -/
structure OutPod where
  kind : Nat
  cls : Nat
  /-- Header byte 1 flags above the class: RESENT (Table 2.3). -/
  resent : Bool := false
  /-- origin[7:0]: the slot of a result or tarp. -/
  slot : Nat := 0
  frame : Nat := 0
  operation : Nat
  body : List Byte
  echo : Nat := 0
  status : Nat := 0
  /-- The sequence it keeps when it is sent again (R50). -/
  seq : Option Nat := none
  /-- The model's name of a retained result pod: its first copy, the kept one and every resent one bear it (R49, R50). -/
  uid : Nat := 0
  deriving DecidableEq, Repr

/-- Where a received pod stands (R35, R41). -/
inductive PodStage where
  /-- Waiting for its fences, peg or launch count. -/
  | waiting
  /-- Started. -/
  | running
  /-- Completed with a status; its release waits for earlier ORDERED pods (Table 2.3). -/
  | done (status : Nat)
  deriving DecidableEq, Repr

/-- A pod in the receive ring. -/
structure RxPod where
  /-- Arrival number: the order in which pods were accepted. -/
  no : Nat
  hdr : PodHeader
  body : List Byte
  /-- 0 USB4; 1 to 3 guyline A to C. -/
  via : Nat
  /-- The ridge count of arrival. -/
  arrived : Nat
  /-- The wait peg has reached its target (a satisfied wait stays satisfied, R293). -/
  waitMet : Bool := false
  stage : PodStage := .waiting
  /-- The addressed section has taken it. -/
  taken : Bool := false
  /-- Result pods held back by ORDERED, with their rings. -/
  held : List (Nat × OutPod) := []
  deriving DecidableEq, Repr

/-- What the duplicate window knows of a sequence (Table 2.9). -/
inductive SeqState where
  | queued | running | completed (status : Nat) | rejected (status : Nat)
  deriving DecidableEq, Repr

/-- A marked sequence of an origin window. -/
structure SeqRec where
  seq : Nat
  state : SeqState
  /-- A result of it was ever retained. -/
  everRetained : Bool := false
  deriving DecidableEq, Repr

/-- An open origin window (R46, R47). -/
structure Window where
  origin : Nat
  head : Nat
  marks : List SeqRec
  completed : Nat := 0
  deriving DecidableEq, Repr

/-- The retained result pods of one original, with their rings (R49). -/
structure Retained where
  origin : Nat
  seq : Nat
  pods : List (Nat × OutPod)
  deriving DecidableEq, Repr

/-- The pod port and the duplicate window. -/
structure PodState where
  /-- Bytes of the stream received and not yet framed. -/
  stream : List Byte := []
  /-- Bytes of a rejected pod still to be skipped (R43). -/
  skip : Nat := 0
  /-- Origin and sequence of the last framed pod (R42). -/
  lastFramed : Option (Nat × Nat) := none
  rx : List RxPod := []
  nextNo : Nat := 0
  windows : List Window := []
  retained : List Retained := []
  deriving DecidableEq, Repr

/-- A pod waiting for its host ring (R360, R361). -/
structure RingEntry where
  pod : OutPod
  /-- The ridge count from which it has waited for space, once it is next. -/
  since : Option Nat := none
  deriving DecidableEq, Repr

/-- A host ring beside its registers. -/
structure Ring where
  queue : List RingEntry := []
  nextSeq : Nat := 0
  /-- Ridge count of the last MSI-X message. -/
  lastMsg : Option Nat := none
  /-- A message is due at the end of the coalescing interval (R364). -/
  msgDue : Option Nat := none
  deriving DecidableEq, Repr

/-- One MSI-X message: address and data. -/
structure MsixMsg where
  addr : Nat
  data : Nat
  deriving DecidableEq, Repr

/-! ### Memory (chapters 10, 13) -/

/-- An error a stored word holds (R285, R377). -/
structure EccErr where
  /-- The symbols (DRAM, R375) or bits (scratch and page cache, R285) of the stored word that are in error, check
  symbols and bits included. -/
  syms : List Nat
  /-- Put there by an injection register. -/
  injected : Bool
  deriving DecidableEq, Repr

/-! ### Fault reports (chapter 16) -/

/-- A report on its way to the collector (R462). -/
structure Report where
  source : Nat
  status : Nat
  detail : Nat := 0
  placement : Nat := 0
  tag : Nat := 0
  injected : Bool := false
  /-- The last report of a re-execution that is exhausted (R467). -/
  exhausted : Bool := false
  /-- The class (1 S, 2 A, 3 Q) of the job, stream or context concerned; 0 for none. -/
  cls : Nat := 0
  /-- The sequence of the pod that caused the work concerned; 0 for none. -/
  echo : Nat := 0
  /-- The ridge count of detection. -/
  detected : Nat := 0
  deriving DecidableEq, Repr

/-- A record of the collector's log (Table 16.3). -/
structure FaultRecord where
  detected : Nat
  source : Nat
  cls : Nat
  merged : Bool
  injected : Bool
  exhausted : Bool
  status : Nat
  tag : Nat
  placement : Nat
  detail : Nat
  mergedCount : Nat
  seq : Nat
  deriving DecidableEq, Repr

/-- The fault collector beside its registers. -/
structure Collector where
  /-- Reports detected and not yet arrived, oldest first. -/
  inbox : List Report := []
  /-- The log, by entry 0 to 255. -/
  log : List (Nat × Option FaultRecord) := []
  /-- Open merge records: root-cause tag and log entry (R464). -/
  openMerge : List (Nat × Nat) := []
  /-- Ridge count of the previous report of a source, for the repeat rule (R467). -/
  lastReport : List (Nat × Option Nat) := []
  /-- Ridge counts of exits from safe state (R472). -/
  exits : List Nat := []
  /-- Ridge count from which the quiet period runs (R471). -/
  quietFrom : Option Nat := none
  /-- The quiet period has expired and the exit waits for a launch (R471). -/
  exitDue : Bool := false
  /-- Reports of classes C1 to C5 since reset. -/
  counts : List (Nat × Nat) := []
  deriving DecidableEq, Repr


/-! ### Frame groups (chapter 12) and the recorder -/

/-- A frame group's cycles, while it is enabled: counts of periods from its first launch count (R344, R367). -/
structure FgCycle where
  /-- The first cycle that the enable fixed. -/
  first : Nat := 0
  /-- The current cycle. -/
  cur : Nat := 0
  /-- Some cycle has launched since the enable. -/
  launched : Bool := false
  /-- Launched cycles that have not reached their deadlines, oldest first: launch count, frame and deadline. -/
  running : List (Nat × Nat × Nat) := []
  /-- In a replay, the recorded launches still to come: count with Δ added, and frame (R358). -/
  replay : List (Nat × Nat) := []
  /-- In a replay, the launch that the current cycle is. -/
  cycle : Option (Nat × Nat) := none
  deriving DecidableEq, Repr

/-- The recorder beside its registers (R355 to R358). -/
structure Recorder where
  /-- Units of 32 bytes of each kept entry, oldest first. -/
  kept : List Nat := []
  nextSeq : Nat := 0
  /-- The recorder has stopped (R357). -/
  frozen : Bool := false
  /-- A gap in progress: stamp of the first loss and bytes lost (R356). -/
  gap : Option (Nat × Nat) := none
  /-- Launches left until a contested cycle freezes the ring, and that cycle's frame (R357). -/
  post : Option (Nat × Nat) := none
  /-- Replay: Δ once fixed (R358). -/
  delta : Option Int := none
  /-- Replay: the next entry, in units. -/
  pos : Nat := 0
  /-- Replay: the last entry has taken effect. -/
  ended : Bool := false
  /-- Replay: decode voids that are due, as queue, pea and frame (R182). -/
  voids : List (Nat × Nat × Nat) := []
  deriving DecidableEq, Repr

/-! ### Ingress (chapter 4) -/

/-- A line on its way to an image pipe (R105, R108). -/
structure Line where
  stream : Nat
  frame : Nat
  index : Nat
  /-- Flags in the order of a flag byte (R138). -/
  flags : Nat
  settings : Nat
  /-- CSI-2 data type, width, and lines of the frame. -/
  fmt : Nat
  width : Nat
  lines : Nat
  pad : Nat
  /-- Raw codes; none for a line that is wholly pad value. -/
  px : Option (List Nat)
  /-- Pixels received; the rest are padded (R102). -/
  valid : Nat
  /-- The test marker (R113). -/
  test : Bool := false
  start : Nat
  stop : Nat := 0
  /-- Inserted by ingress, which paces what it inserts. -/
  paced : Bool := false
  /-- An embedded-data line, passed on with its payload (Table 4.3). -/
  emb : Option (List Byte) := none
  deriving DecidableEq, Repr

/-- The configuration of a stream entry, taken at the start of a frame window (R106). -/
structure StreamCfg where
  ctl : Nat := 0
  format : Nat := 0
  geom : Nat := 0
  pad : Nat := 0
  fsOff : Nat := 0
  deadlines : Nat := 0
  tpDl : Nat := 0
  tp : Nat := 0
  seed : Nat := 0
  emb : Nat := 0
  deriving DecidableEq, Repr

/-- Where the frame of the current window stands. -/
inductive FramePhase where
  /-- No frame start yet. -/
  | awaited
  | opened
  /-- Closed, or its void frame emitted. -/
  | closed
  deriving DecidableEq, Repr

/-- A stream beside its registers. -/
structure IngressStream where
  /-- The window whose configuration was taken: its start and frame. -/
  win : Option (Nat × Nat) := none
  cfg : StreamCfg := {}
  phase : FramePhase := .awaited
  startAt : Nat := 0
  /-- The last CSI-2 frame number (R112). -/
  csi : Option Nat := none
  next : Nat := 0
  /-- The line at index lines - 1, held until the frame closes. -/
  held : Option Line := none
  settings : Option Nat := none
  sawImage : Bool := false
  flagged : Bool := false
  /-- The first status that lost a line of the frame; 0 for none. -/
  cause : Nat := 0
  /-- Lines beyond the configured count were discarded. -/
  cut : Bool := false
  /-- A second frame of the window is being discarded. -/
  extra : Bool := false
  /-- The window's void frame was emitted. -/
  voided : Bool := false
  /-- The camera pattern of the frame was judged. -/
  tpDone : Bool := false
  /-- Payload of a compressed frame (R110). -/
  payload : List Byte := []
  deriving DecidableEq, Repr

/-- A CSI-2 packet being assembled on a port (R99). -/
structure PacketAsm where
  len : Nat
  /-- The packet passed the checks of its first segment. -/
  keep : Bool
  data : List Byte
  lineIndex : Nat
  /-- The stream of its header. -/
  stream : Nat
  deriving DecidableEq, Repr

/-- A control message in flight (R116, R117). -/
structure CamMsg where
  id : Nat
  /-- Arrival number of its pod. -/
  pod : Nat
  settings : Nat
  applyAt : Nat
  payload : List Byte
  sentAt : Nat
  resends : Nat := 0
  deriving DecidableEq, Repr

/-- A camera-control pod that waits for its ports: each with its outcome (0 OK, 1 CAM_NACK, 2 CAM_NO_ACK). -/
structure CamPod where
  no : Nat
  ports : List (Nat × Option Nat)
  deriving DecidableEq, Repr

/-- A MACsec secure association: number and lowest packet number accepted. -/
structure MacSa where
  an : Nat
  nextPn : Nat := 1
  deriving DecidableEq, Repr

/-- MACsec key agreement of a port (R503): sensor ports 0 to 31, management 32. -/
structure PortSec where
  /-- A wrapped-secrets entry names the port: CKN and CAK. -/
  key : Option (List Byte × List Byte) := none
  /-- The current association. -/
  sa : Option MacSa := none
  /-- The old association and the ridge count at which it lapses. -/
  old : Option (MacSa × Nat) := none
  /-- Next packet number the device sends. -/
  txPn : Nat := 1
  /-- SAKs drawn so far. -/
  saks : Nat := 0
  deriving DecidableEq, Repr

/-- A sensor port beside its registers. -/
structure SensorPort where
  /-- PORT_CFG in effect since the last link-up (R125). -/
  cfg : Nat := 0x40
  lastSeq : Option Nat := none
  asm : Option PacketAsm := none
  txSeq : Nat := 0
  nextMsg : Nat := 0
  msgs : List CamMsg := []
  /-- Outstanding settings: target frame and apply_ridge (R115). -/
  outstanding : List (Nat × Nat) := []
  /-- Control responses received and not yet matched: message id and result. -/
  responses : List (Nat × Nat) := []
  /-- Ridge count at which the next 802.1AS Sync is due. -/
  syncDue : Nat := 0
  deriving DecidableEq, Repr

/-- What a sensor port or the management port sends. -/
inductive PortOut where
  /-- A TSF frame: port, source address (R93), association and packet number under which it is protected (R95), header and
  payload. -/
  | tsf (port src : Nat) (sec : Option (Nat × Nat)) (bytes : List Byte)
  /-- An 802.1AS Sync: port, protection, and the 802.1AS time it carries. -/
  | sync (port : Nat) (sec : Option (Nat × Nat)) (time : Nat)
  /-- An 802.1AS peer-delay response: port, protection, receive time and send time. -/
  | pdelay (port : Nat) (sec : Option (Nat × Nat)) (t2 t3 : Nat)
  /-- A MACsec SAK distributed: port and association number. -/
  | sak (port : Nat) (an : Nat)
  deriving DecidableEq, Repr

/-- A received range-sensor point (R121, R123). -/
structure Point where
  port : Nat
  x : Int
  y : Int
  z : Int
  intensity : Nat
  ret : Nat
  stamp : Nat
  /-- The cycle in which its packet arrived (R123). -/
  frame : Nat
  /-- Index within its packet, and arrival order. -/
  idx : Nat
  deriving DecidableEq, Repr

/-! ### Conditioning (chapter 5) -/

/-- A slot of an image pipe while a frame passes: the configuration it took and the lines it holds (R129). -/
structure PipeSlot where
  busy : Bool := false
  /-- Words of the slot context by word offset, then tap words, statistics words, STAT_LUMA and STAT_CLASS. -/
  cfg : List Nat := []
  frame : Nat := 0
  rows : List Line := []
  /-- The tap writes this frame. -/
  tap : Bool := false
  /-- The statistics unit samples this frame: it ran when the frame started (R68). -/
  stats : Bool := false
  deriving DecidableEq, Repr

/-- Point preparation beside its registers. -/
structure PointPrep where
  /-- Points in the buffer, in arrival order. -/
  points : List Point := []
  /-- Points lost to a full buffer since the last formation. -/
  overflow : Bool := false
  /-- Port and stamp of points that a full buffer lost: their sources delivered them (R156). -/
  lost : List (Nat × Nat) := []
  /-- Late points since the last formation. -/
  late : Nat := 0
  /-- The formation in progress: L(k), frame, and whether it is the sorted path. -/
  forming : Option (Nat × Nat × Bool) := none
  /-- When it started. -/
  startedAt : Nat := 0
  /-- The launch count of the last window formed. -/
  last : Option Nat := none
  deriving DecidableEq, Repr

/-! ### Decode (chapter 6) -/

/-- A sample of a decode queue (R163, R166). -/
structure Sample where
  camera : Bool
  /-- Arrival number of the batch pod, and pea index. -/
  pod : Nat
  pea : Nat
  form : Nat
  addr : Nat
  len : Nat
  frame : Nat
  /-- Absolute deadline, 0 for the queue's default. -/
  deadline : Nat
  /-- Output slot and tag entry of a host pea. -/
  out : Nat
  tag : Nat
  cls : Nat
  /-- Sequence of the batch pod. -/
  seq : Nat
  /-- The last pea of its batch. -/
  last : Bool
  /-- A camera frame's payload, and whether its input was lost (R165). -/
  payload : List Byte := []
  lost : Bool := false
  /-- The settings id and SETTINGS_UNKNOWN of a camera frame. -/
  settings : Nat := 0
  unknown : Bool := false
  endAt : Nat := 0
  deriving DecidableEq, Repr

/-- A decode queue beside its registers. -/
structure DecQueue where
  items : List Sample := []
  /-- The sample being decoded or copied: when it began. -/
  began : Option Nat := none
  /-- The running sample is a random access point, its picture size in luma samples, and the pictures held after it. -/
  rap : Bool := false
  luma : Nat := 0
  after : List Nat := []
  /-- Parameter sets or sequence headers, by codec (AV1: true), that persist until they are replaced (R163). -/
  sets : List (Bool × StreamSet) := []
  /-- The reference pictures that the decoding context holds, by the names that the codec gives them (R168, R173). -/
  refs : List Nat := []
  /-- The decoding context is valid (R173). -/
  valid : Bool := false
  /-- Luma samples of the last decoded picture. -/
  lastLuma : Option Nat := none
  loadHigh : Bool := false
  /-- A pea of the running batch was void. -/
  partly : Bool := false
  /-- The RWS words in effect, in the order of Table 6.10; none before the first application. -/
  cfg : Option (List Nat) := none
  deriving DecidableEq, Repr


/-! ### Rolls (chapter 10) -/

/-- A reserved span of a roll (R300). -/
structure Reservation where
  /-- The operation that holds it, and the descriptor field of the append. -/
  op : Nat
  field : Nat
  /-- The execution sequence of its job. -/
  exec : Nat
  start : Nat
  len : Nat
  frame : Nat
  cls : Nat
  /-- Every write of it has been performed. -/
  performed : Bool := false
  /-- Voided: zeros were written in place of the data. -/
  voided : Bool := false
  deriving DecidableEq, Repr

/-- An append that waits for space (R300). -/
structure RollWait where
  op : Nat
  field : Nat
  exec : Nat
  len : Nat
  frame : Nat
  cls : Nat
  deriving DecidableEq, Repr

/-- A consume that has started (R301): the tail moves to `upTo` when it and every earlier one is done. -/
structure RollConsume where
  op : Nat
  exec : Nat
  upTo : Nat
  done : Bool := false
  deriving DecidableEq, Repr

/-- A roll beside its registers. -/
structure Roll where
  resv : List Reservation := []
  waiting : List RollWait := []
  consumes : List RollConsume := []
  /-- Operations that reference the roll. -/
  refs : List Nat := []
  deriving DecidableEq, Repr


/-- A patrol scrubber's pass (R286, R378): whether one has begun, when, and the granules or codewords of it read so far, in
rising order of address. -/
structure Scrub where
  started : Bool := false
  startAt : Nat := 0
  done : Nat := 0
  deriving DecidableEq, Repr

/-! ### The sequence engine (chapter 11) -/

/-- Who issued a sequence command. -/
inductive SeqIssuer where
  /-- A job: execution sequence, descriptor index, instance and job. -/
  | job (exec index inst job : Nat)
  /-- A control pod, by arrival number. -/
  | pod (no : Nat)
  deriving DecidableEq, Repr

/-- A view in the page cache (R323 to R325). -/
structure SeqView where
  ctx : Nat
  layer : Nat
  frame0 : Nat
  frames : Nat
  cls : Nat
  /-- The instance, job and execution sequence that staged it. -/
  inst : Nat
  job : Nat
  exec : Nat
  /-- The block position of each slot; none for an empty slot. -/
  slots : List (Option Nat)
  deriving DecidableEq, Repr

/-- A block being written by a group (R320): position, map slot words of its pages by layer, fill, flags. -/
structure SeqBlock where
  pos : Nat
  fill : Nat
  flags : Nat
  /-- Pages by layer, K then V. -/
  pages : List Nat
  /-- Scales by layer and token-row page. -/
  scales : List Nat
  deriving DecidableEq, Repr

/-- An open group of a context (R320, R322). -/
structure SeqGroup where
  ctx : Nat
  pos : Nat
  n : Nat
  frame : Nat
  /-- The next layer. -/
  layer : Nat
  /-- Instance, job and execution sequence of its first APPEND. -/
  inst : Nat
  job : Nat
  exec : Nat
  blocks : List SeqBlock
  /-- An APPEND of the group is running. -/
  busy : Bool := false
  deriving DecidableEq, Repr

/-- Where a command stands. -/
inductive SeqStage where
  /-- Accepted; its work goes on until SEQ_COMMAND_COMPLETE. -/
  | running
  /-- A STAGE whose frames overlap a live view (R324). -/
  | blocked
  /-- A STAGE that waits for dropped blocks (R331), or copies. -/
  | copying
  deriving DecidableEq, Repr

/-- A block slot (Table 11.3). `state` 0 empty, 1 live, 2 dropped, 3 writing. -/
structure SeqSlot where
  pos : Nat := 0
  frame : Nat := 0
  state : Nat := 0
  fill : Nat := 1
  flags : Nat := 0
  imp : Nat := 0
  pages : List Nat := []
  scales : List Nat := []
  deriving DecidableEq, Repr

/-- A command that has been accepted and not completed. -/
structure SeqCmd where
  id : Nat
  bytes : List Byte
  issuer : SeqIssuer
  cls : Nat
  frame : Nat
  stage : SeqStage
  acceptedAt : Nat
  /-- The blocks a STAGE selected and pins, ascending, as they stood at its acceptance (R320, R326); a dropped one as it
  stands once it is restored. -/
  picks : List SeqSlot := []
  /-- VOID blocks were left out. -/
  hadVoid : Bool := false
  flags : Nat := 0
  retries : Nat := 0
  deriving DecidableEq, Repr

/-- What starts an instance. -/
inductive StartCause where
  /-- A launch of a frame group. -/
  | cycle
  /-- A job pod, by arrival number. -/
  | pod (no : Nat)
  /-- A recompute request for a block (R331). -/
  | recompute (ctx pos : Nat)
  deriving DecidableEq, Repr

/-- A job pod or recompute request that waits for its slot (R343). -/
structure StartReq where
  cause : StartCause
  entry : Nat
  frame : Nat
  /-- Class of the pod or of the context. -/
  cls : Nat
  seq : Nat
  body : List Byte
  deriving DecidableEq, Repr

/-- A recompute request (R331). -/
structure SeqRequest where
  ctx : Nat
  pos : Nat
  /-- The ridge count at which it was sent. -/
  at_ : Nat
  /-- The slot and the start that it asks of dispatch. -/
  slot : Nat
  start : StartReq
  /-- It is outstanding; one beyond the 4,096 of R335 waits. -/
  sent : Bool := true
  deriving DecidableEq, Repr

/-- A dropped block that RESTOREs are writing (R331): the next layer, what they have written, and the instance. -/
structure SeqRestore where
  ctx : Nat
  layer : Nat
  block : SeqBlock
  inst : Nat
  deriving DecidableEq, Repr

/-- A write that waits for the zero-fill of an encryption region (R380). -/
structure WaitWrite where
  agent : Agent
  addr : Nat
  bytes : List Byte
  cls : Nat
  echo : Nat
  deriving DecidableEq, Repr

/-- The sequence engine beside its registers and its regions of DRAM. -/
structure SeqEngine where
  cmds : List SeqCmd := []
  groups : List SeqGroup := []
  views : List SeqView := []
  /-- Pool pages in use (the free list of the work region is every other page), each with its share: class S or not. -/
  used : List (Nat × Bool) := []
  /-- Class S pages committed, by context (R319). -/
  commits : List (Nat × Nat) := []
  /-- Open contexts with recompute set: the drop index of the work region (R307). -/
  index : List Nat := []
  /-- Pages that a commit replaced under a STAGE that still copies them (R320, R326). -/
  held : List Nat := []
  requests : List SeqRequest := []
  restoring : List SeqRestore := []
  /-- The positions of the last marked STAGE: context × 64 + layer (R333). -/
  marks : List (Nat × List Nat) := []
  /-- Failed commands to be issued again (R334, R467), with their status. -/
  failed : List (SeqCmd × Nat) := []
  deriving DecidableEq, Repr


/-! ### Job graphs and instances (chapter 12) -/

/-- A wait of a job entry (Table 12.2). -/
structure JobWait where
  peg : Nat
  lag : Nat
  epoch : Bool
  target : Nat
  deriving DecidableEq, Repr

/-- A job entry (Table 12.2). -/
structure JobEntry where
  index : Nat
  unit : Nat
  exit : Bool
  orderFree : Bool
  covered : Bool
  peg : Nat
  waits : List JobWait
  hops : Nat
  descOffset : Nat
  descCount : Nat
  timeout : Nat
  ring : Nat
  stream : Nat
  result : Nat
  deriving DecidableEq, Repr

/-- A loaded job graph (R339, R340). -/
structure Graph where
  addr : Nat
  len : Nat
  cls : Nat
  bound : Bool
  fg : Nat
  notify : Bool
  jobs : List JobEntry
  paramAddr : Nat
  paramSize : Nat
  queue : List StartReq := []
  /-- Instances completed. -/
  done : Nat := 0
  /-- A GRAPH_UNLOAD pod that waits for the running instance (R342). -/
  unload : Option Nat := none
  deriving DecidableEq, Repr

/-- Where a job of an instance stands (R345, R346). -/
inductive JobStage where
  | waiting
  | running
  /-- Timed out, and to be fired again (R467). -/
  | retrying
  | done
  | cancelled
  deriving DecidableEq, Repr

/-- A job of an instance. -/
structure JobRun where
  entry : JobEntry
  stage : JobStage := .waiting
  /-- Waits that have been satisfied, by index (R293). -/
  met : List Nat := []
  /-- The execution sequence of its firing (R350), and the cluster it runs on. -/
  exec : Nat := 0
  cluster : Nat := 0
  firedAt : Nat := 0
  /-- Descriptors issued, by index, and how many have completed. -/
  issued : List Nat := []
  finished : Nat := 0
  /-- Firings after the first. -/
  retries : Nat := 0
  /-- The root-cause tag of a link that failed under it (R351); 0 for none. -/
  linkTag : Nat := 0
  deriving DecidableEq, Repr

/-- Where a graph instance stands (R346, R347). -/
inductive InstLife where
  | active
  /-- Its exit jobs have completed; jobs that have not go on. -/
  | completed
  /-- A job of it failed; jobs that were running go on, the others are cancelled. -/
  | failed
  /-- Its deadline has passed; jobs that were running go on, and their completions are discarded. -/
  | cut
  deriving DecidableEq, Repr

/-- A graph instance: one that has ended stays while jobs of it go on. -/
structure Instance where
  id : Nat
  slot : Nat
  /-- The address of its image. -/
  addr : Nat
  life : InstLife := .active
  frame : Nat
  /-- The image's class, and the class that tags carry (R27). -/
  cls : Nat
  tagCls : Nat
  cause : StartCause
  seq : Nat
  entry : Nat
  /-- Frame group, L(k) and deadline of a cycle instance. -/
  cycle : Option (Nat × Nat × Nat)
  jobs : List JobRun
  status : Nat := 0
  /-- Job-status flags [31:16] of the status word (R346). -/
  flags : Nat := 0
  conflicts : Nat := 0
  /-- Ridge count of its first firing. -/
  fired : Option Nat := none
  deriving DecidableEq, Repr

/-! ### Operations of arrays and engines (chapters 8 and 9) -/

/-- A weight tile in an array's buffer, decoded (R193): for each weight row its chunks as integers with their shift,
and the row scales of the axis that carries them. -/
structure WTile where
  kt : Nat
  nt : Nat
  rows : List (List (List Int × Int))
  scales : List Nat
  deriving DecidableEq, Repr

/-- The checks of one chunk of an output tile that wait for their verdict (R235, R236). -/
structure TileCheck where
  tile : Nat
  chunk : Nat
  at_ : Nat
  /-- The first token whose row check fails. -/
  row : Option Nat := none
  /-- The first column whose column check fails. -/
  col : Option Nat := none
  /-- An injection flipped a bit of the tile. -/
  injected : Bool := false
  deriving DecidableEq, Repr

/-- Where an operation stands. -/
inductive OpStage where
  /-- In its engine's queue, or issued to arrays that another issue still uses while its panel loads (R215). -/
  | queued
  /-- Waiting for space in a roll (R300). -/
  | waiting
  | running
  /-- Failed with a status; re-execution may follow (R467). -/
  | failed (status : Nat)
  deriving DecidableEq, Repr

/-- An operation of an array or an engine. -/
structure Op where
  id : Nat
  /-- The issue it belongs to. -/
  issue : Nat
  /-- Execution sequence and descriptor index of its job. -/
  exec : Nat
  index : Nat
  cluster : Nat
  /-- 0 to 3 an array; 4 to 7 an engine. -/
  unit : Nat
  /-- The partner array of a paired operation. -/
  partner : Option Nat := none
  /-- Every array of its issue. -/
  issueUnits : List Nat := []
  desc : List Byte
  addr : Nat
  frame : Nat
  cls : Nat
  tagCls : Nat
  slot : Nat
  job : Nat
  stage : OpStage
  retries : Nat := 0
  /-- The starts of roll operands, by descriptor field offset (R298). -/
  starts : List (Nat × Nat) := []
  tiles : List WTile := []
  /-- The row scale that re-narrowing has formed for a stored weight row, by row (R206, R207). -/
  scales : List (Nat × Nat) := []
  /-- The parameter block read for it (R259). -/
  block : List Byte := []
  /-- The slabs of its array that it occupies: first row and column, rows and columns (R223). -/
  slabs : Nat × Nat × Nat × Nat := (0, 0, 8, 8)
  /-- Output tiles written. -/
  written : Nat := 0
  checks : List TileCheck := []
  /-- The sign set taken at its start (R205). -/
  sign : List Nat := []
  /-- The bits of the output tag (R27). -/
  outTag : Nat := 0
  /-- An access of it lost a bank cycle where R284 fails the job. -/
  lostBank : Bool := false
  /-- Job-status flags it has set. -/
  flags : Nat := 0
  startedAt : Nat := 0
  deriving DecidableEq, Repr

/-- What a finished operation leaves in the weight buffer of its array (R225). -/
structure Resident where
  /-- The issue it belonged to. -/
  issue : Nat
  desc : List Byte
  tiles : List WTile
  deriving DecidableEq, Repr

/-- An array beside its registers (R231, R232). -/
structure ArrayUnit where
  /-- The activity level moves towards this. -/
  target : Nat := 0
  /-- Cell mode, stationarity and weight format of the last operation, which ballast reproduces. -/
  mode : Nat := 0
  stat : Nat := 0
  wfmt : Nat := 0
  /-- A cap holds the level below its target (LEVEL_CAPPED). -/
  capped : Bool := false
  /-- The weight tiles that the operations before the present ones left. -/
  resident : List Resident := []
  /-- Busy, ballast and stalled cycles (R245). -/
  busy : Nat := 0
  ballast : Nat := 0
  stalled : Nat := 0
  /-- Ballast runs from this ridge count. -/
  ballastAt : Option Nat := none
  /-- Ridge count of the last step, or of the moment from which steps count. -/
  stepAt : Nat := 0
  /-- The level the governor has lowered the array to; the power-management core alone raises it (R521). -/
  gov : Nat := 16
  deriving DecidableEq, Repr


/-! ### Encryption keys and records of the last failures -/

/-- A key slot of the encryption engine (R379, R501). -/
structure KeySlot where
  valid : Bool := false
  /-- An imported model key, rather than a region key. -/
  imported : Bool := false
  model : Nat := 0
  key : List Byte := []
  deriving DecidableEq, Repr


/-! ### Links (chapter 14) -/

/-- A guyline packet (Table 14.5). -/
structure Packet where
  kind : Nat
  dateline : Bool := false
  dst : Nat
  src : Nat
  cls : Nat
  vc : Nat
  timed : Bool
  hops : Nat := 0
  first : Bool := true
  last : Bool := true
  addr : Nat := 0
  peg : Nat := 0
  frame : Nat := 0
  execSeq : Nat := 0
  readTag : Nat := 0
  status : Nat := 0
  sent : Nat := 0
  /-- Payload bytes. A READ_REQ has none: `len` is what it reads. -/
  len : Nat := 0
  payload : List Byte := []
  /-- The CRC that a packet on its way through carries. -/
  crc : Option Nat := none
  /-- The outstanding remote write that ends with it (the model's own; no part of the packet); 0 for none. -/
  wid : Nat := 0
  deriving DecidableEq, Repr

/-- A guyline port beside its registers (R402 to R412). -/
structure GlPort where
  /-- Credit held at the peer, in slots, by buffer class (R406). -/
  credit : List (Nat × Nat) := []
  /-- Slots freed here and not yet returned to the peer. -/
  owed : List (Nat × Nat) := []
  /-- Packets that wait for credit, oldest first. -/
  txq : List Packet := []
  /-- Sequence of the next flit sent, and the flits sent and not acknowledged. -/
  txSeq : Nat := 0
  retry : List (Nat × List Byte) := []
  /-- Outstanding remote writes whose last flit has been sent: its sequence, and the write. -/
  ending : List (Nat × Nat) := []
  /-- Ridge count from which ack has made no progress. -/
  ackAt : Nat := 0
  /-- Replays without progress, and the ridge count of the first failure. -/
  retries : Nat := 0
  failAt : Option Nat := none
  /-- Sequence of the last flit received in order; a nak is outstanding. -/
  rxSeq : Nat := 0xFFF
  nak : Bool := false
  /-- Packet bytes received and not yet taken apart, and the packets for this device, oldest first. -/
  rxBytes : List Byte := []
  rxq : List Packet := []
  /-- Pods being assembled: source × 4 + vc, and the bytes so far (R408). -/
  asm : List (Nat × List Byte) := []
  /-- Key of the link, flits sent and received under it, and the sending port of the peer (R504). -/
  key : List Byte := []
  txFlits : Nat := 0
  rxFlits : Nat := 0
  peerPort : Nat := 0
  /-- Ridge counts at which routes leave this port, or return to it (R412). -/
  failoverAt : Option Nat := none
  restoreAt : Option Nat := none
  /-- Times of R414: the last SYNC sent or received (t1), its arrival (t2), and the DELAY_REQ sent (t3). -/
  t1 : Option Nat := none
  t2 : Option Nat := none
  t3 : Option Nat := none
  deriving DecidableEq, Repr

/-- Ridge time beside its registers (R414, R416). -/
structure RidgeTime where
  /-- Consecutive exchanges within ±2 ns, and beyond the bound of R30. -/
  good : Nat := 0
  bad : Nat := 0
  /-- The device has been locked since reset. -/
  everLocked : Bool := false
  /-- Ridge count of the last SYNC. -/
  lastSync : Nat := 0
  /-- Ticks still to be gained or lost by slewing, and ticks counted since the last correction. -/
  slew : Int := 0
  phase : Nat := 0
  /-- The signal RIDGE_UNLOCKED has been given. -/
  unlocked : Bool := false
  deriving DecidableEq, Repr

/-- A group of lanes that shuts down as one: sensor ports 0 to 31, guylines 32 to 34, host 35, management 36. -/
structure LaneGroup where
  /-- In open-fibre shutdown since this ridge count. -/
  shut : Option Nat := none
  /-- A probe runs from this ridge count. -/
  probe : Option Nat := none
  /-- Ridge count of the start of the last probe. -/
  probed : Option Nat := none
  deriving DecidableEq, Repr

/-- The media layer of the host port (R396). -/
structure HostMedia where
  rxSeq : Nat := 0xFFF
  retries : Nat := 0
  failAt : Option Nat := none
  deriving DecidableEq, Repr

/-- What the host gets for a read or write of BAR2. -/
inductive HostCpl where
  | data (bytes : List Byte)
  | unsupportedRequest
  | completerAbort
  /-- A posted write that was performed or discarded. -/
  | posted
  deriving DecidableEq, Repr

/-- A read that waits for a completion from a remote device (R400): tag, and the ridge count of the request. -/
structure RemoteRead where
  tag : Nat
  at_ : Nat
  len : Nat
  deriving DecidableEq, Repr

/-- A write to a remote device that has not been performed as far as this device can tell (R57, R61; log entry 151): its
agent, the received pod that makes it, if one does, and the arrival number of the next pod when it was issued. -/
structure RemoteWrite where
  id : Nat
  agent : Agent
  pod : Option Nat
  before : Nat
  deriving DecidableEq, Repr

/-- What an incrementer requires of the peg's mode (Table 10.4). -/
inductive PegNeed where
  | count | byte | either
  deriving DecidableEq, Repr

/-- A peg increment held until remote writes that its agent issued earlier have been performed (R57). -/
structure HeldInc where
  ref : Nat
  need : PegNeed
  amount : Nat
  frame : Option Nat
  cls : Nat
  echo : Nat
  waits : List Nat
  deriving DecidableEq, Repr

/-- A response of the management port (R418). -/
structure MgtResp where
  dest : Nat
  op : Nat
  session : Nat
  seq : Nat
  status : Nat
  body : List Byte
  deriving DecidableEq, Repr

/-- An open management session (R500). -/
structure Session where
  id : Nat
  src : Nat
  slot : Nat
  /-- Privileges granted: bits 0 update, 1 management, 2 debug, 3 reset. -/
  privs : Nat
  lastAt : Nat
  /-- Consecutive frames that failed their tag. -/
  fails : Nat := 0
  deriving DecidableEq, Repr

/-- A session set-up in progress (Table 17.8). -/
structure Handshake where
  src : Nat
  id : Nat
  slot : Nat
  privs : Nat
  clientNonce : List Byte
  deviceNonce : List Byte
  /-- The seed of the fresh ML-KEM key pair. -/
  seed : List Byte
  startedAt : Nat
  ct : List Byte := []
  pk : List Byte := []
  deriving DecidableEq, Repr

/-- The management port beside its registers. -/
structure MgtPort where
  session : Option Session := none
  shake : Option Handshake := none
  /-- The last 64 responses, oldest first. -/
  kept : List MgtResp := []
  /-- A verified RESET executes at this ridge count. -/
  resetAt : Option Nat := none
  deriving DecidableEq, Repr


/-! ### The safety channels (chapter 15) -/

/-- A covered result held for the verdict (R25, R439). -/
structure Covered where
  ring : Nat
  pod : OutPod
  stream : Nat
  content : List Byte
  inst : Nat
  at_ : Nat
  deriving DecidableEq, Repr

/-- The configuration the comparator judges a cycle under (R442). -/
structure CompSnap where
  gx : Nat
  gy : Nat
  orgX : Int
  orgY : Int
  cell : Nat
  confMin : Nat
  set : Nat
  /-- The four words of each zone. -/
  zones : List (List Nat)
  /-- COV_CTL of each entry. -/
  entries : List Nat
  deriving DecidableEq, Repr

/-- A covered result emitter armed for a cycle: instance, slot, job index, stream and ring. -/
structure ArmedEmitter where
  inst : Nat
  slot : Nat
  job : Nat
  stream : Nat
  ring : Nat
  cls : Nat
  deriving DecidableEq, Repr

/-- A cycle of the covered frame group that awaits its verdict. -/
structure CompCycle where
  frame : Nat
  launch : Nat
  deadline : Nat
  snap : CompSnap
  /-- Covered emitters armed for the cycle. -/
  armed : List ArmedEmitter := []
  results : List Covered := []
  /-- Streams whose covered content has completed, released or not (COV_LAST, R456). -/
  seen : List Nat := []
  /-- Safe state has held at some moment of the cycle (R447). -/
  safe : Bool := false
  /-- The verdict has been given. -/
  judged : Bool := false
  /-- J(k) has passed. -/
  cut : Bool := false
  deriving DecidableEq, Repr

/-- The comparator beside its registers. -/
structure Comparator where
  cycle : Option CompCycle := none
  /-- Whether each of the last W verdicts was a disagreement, newest first (R446). -/
  window : List Bool := []
  deriving DecidableEq, Repr

/-- A slot's tap buffer (R146, R147). -/
structure TapState where
  /-- Written, and not yet released by the sentry. -/
  held : Bool := false
  /-- The frame last written. -/
  frame : Option Nat := none
  /-- The OR of its row flags, and whether every row is VOID. -/
  flags : Nat := 0
  void : Bool := false
  deriving DecidableEq, Repr

/-- A grid of the sentry (R436, R437). -/
structure SentryGrid where
  frame : Nat
  flags : Nat
  void : Bool
  at_ : Nat
  deriving DecidableEq, Repr

/-- The sentry beside its registers and its SRAM. -/
structure Sentry where
  /-- The cycle it has been asked to run for: frame and L(k). -/
  due : Option (Nat × Nat) := none
  /-- A run: frame, ridge count of its start, and the slots that were missing. -/
  run : Option (Nat × Nat × List Nat) := none
  /-- The cycle whose judgement cut-off is still to come: frame and J(k). -/
  cutAt : Option (Nat × Nat) := none
  last : Option SentryGrid := none
  /-- The frame of the last run that ended or was stopped. -/
  ended : Option Nat := none
  /-- SHAKE256 digest of the program (R433). -/
  digest : List Byte := []
  deriving DecidableEq, Repr

/-- The lanterns beside their registers (R420 to R422). -/
structure Lantern where
  /-- Boot has completed: the lanterns may light. -/
  booted : Bool := false
  /-- They are to light at the next word boundary. -/
  due : Bool := false
  /-- The word that lantern A sends, while lit. -/
  word : Word := 0
  /-- A test runs from this ridge count. -/
  test : Option Nat := none
  /-- The next relight ends a test. -/
  tested : Bool := false
  /-- The ridge count of the last relight after a test. -/
  relit : Nat := 0
  /-- Launches of the lantern's frame group until after_test clears. -/
  afterLaunches : Nat := 0
  /-- The ridge count at which after_test clears, where no launches are counted. -/
  afterUntil : Option Nat := none
  /-- The clock of the lanterns has stopped (R421). -/
  clockLost : Bool := false
  deriving DecidableEq, Repr

/-- A firmware processor, in the core order of R488, beside its registers: the lock-step state (R448 to R450) and
the watchdog (R505). -/
structure FwCore where
  /-- It has started and is not reset. -/
  running : Bool := false
  /-- The lock-step checker has stopped it (R448). -/
  stopped : Bool := false
  /-- Copies 0 and 1 are halted under debug (R450). -/
  halted0 : Bool := false
  halted1 : Bool := false
  /-- Ridge count of the last kick, or of the start; the time halted is taken out. -/
  kickAt : Nat := 0
  /-- Ridge count at which the halt began. -/
  haltAt : Nat := 0
  deriving DecidableEq, Repr


/-! ### Built-in self-test and power management (chapters 16 and 18) -/

/-- The BIST controller beside its registers. -/
structure Bist where
  /-- A commanded test: unit, and memory rather than logic. -/
  cmd : Option (Nat × Bool) := none
  /-- Slices running: unit and ridge count of the start. -/
  slices : List (Nat × Nat) := []
  /-- Ridge count from which the time since the last full pass runs, by unit. -/
  passAt : List (Nat × Nat) := []
  /-- Expected signatures, 16 bytes per unit and kind, that the firmware image supplies (Table 17.4). -/
  expected : List Byte := []
  /-- Class S commands of the sequence engine that wait for its slice, each counted once (R478). -/
  waited : List SeqIssuer := []
  deriving DecidableEq, Repr

/-- Power management beside its registers. -/
structure PowerMgmt where
  /-- The activity-level caps of R519. -/
  capS : Nat := 16
  capAQ : Nat := 16
  /-- Ridge count of the last step of a rate-limited action: the working limit (R524), the clocks (R525). -/
  limitAt : Option Nat := none
  clockAt : Option Nat := none
  /-- A clock step that waits for a launch under STRICT (R525): the new step, in eighths. -/
  clockDue : Option Nat := none
  /-- Ridge count from which VCORE has stayed above its limit with every array at level 0 (R521). -/
  overAt : Option Nat := none
  /-- Ridge count from which every stack has stayed below MEM_TEMP_HOT - 3 °C (R524). -/
  coolAt : Option Nat := none
  /-- The working package limit in watts while DRAM heat holds it below PM_PKG_LIMIT (R524). -/
  work : Option Nat := none
  deriving DecidableEq, Repr


/-! ### Trust, firmware and boot (chapter 17) -/

/-- The fuse key store (Table 17.1), apart from the device unique secret, which nothing reads. -/
structure Fuses where
  serial : Nat := 0
  /-- 0 ZVT4160-AQ, 1 ZVT4160-IN. -/
  grade : Nat := 0
  /-- Hashes of owner slots 0 to 3; none for a slot that is not provisioned. -/
  owners : List (Nat × Option (List Byte)) := []
  /-- Four privilege bits for each slot. -/
  privs : Nat := 0
  revoked : Nat := 0
  /-- The security version counter, 0 to 64. -/
  counter : Nat := 0
  split : Bool := false
  debugOff : Bool := false
  deriving DecidableEq, Repr

/-- An image transfer in progress (R490, R491). -/
structure Transfer where
  src : Nat
  kind : Nat
  len : Nat
  /-- Spans received: offset and length. -/
  got : List (Nat × Nat) := []
  lastAt : Nat
  deriving DecidableEq, Repr

/-- An accepted image: its measurement, version and security version. -/
structure ImageInfo where
  m : List Byte
  version : Nat
  svn : Nat
  len : Nat
  deriving DecidableEq, Repr

/-- An attestation in progress (R497). -/
structure Attest where
  no : Nat
  what : Nat
  addr : Nat
  nonce : List Byte
  deriving DecidableEq, Repr

/-- A model import in progress (R502). -/
structure ModelImport where
  no : Nat
  slot : Nat
  region : Nat
  src : Nat
  dst : Nat
  len : Nat
  deriving DecidableEq, Repr

/-- Boot and the security core beside their registers. -/
structure Security where
  xfer : Option Transfer := none
  fw : Option ImageInfo := none
  cfg : Option ImageInfo := none
  /-- M of the last previewed image (R495). -/
  preview : List Byte := []
  /-- Ridge count from which the ROM waits for a configuration image (R492). -/
  cfgWait : Option Nat := none
  /-- The identity of DK is of this security version. -/
  hostKey : Option (List Byte) := none
  /-- Expected IK hashes of the peers of guyline A, B and C (R493). -/
  peers : List (Nat × List Byte) := []
  debugOk : Bool := true
  /-- A debug session has been opened since reset (R500). -/
  debugOpened : Bool := false
  /-- The host challenge, 192 bits (R498). -/
  challenge : Nat := 0
  /-- Register-list entries are written, and power-on BIST is over (R494). -/
  configured : Bool := false
  /-- Boot has stopped (R494, R495, R535). -/
  stopped : Bool := false
  /-- Units fenced by power-on BIST. -/
  fenced : Nat := 0
  attest : Option Attest := none
  import_ : Option ModelImport := none
  /-- READY, until the event ring is enabled (R534). -/
  ready : Option OutPod := none
  /-- Key operations have stopped (Table 17.9). -/
  keysStopped : Bool := false
  /-- The wake count of H4 (R531). -/
  wakeAt : Option Nat := none
  deriving DecidableEq, Repr


/-- A machine stop. No command of this block stops the machine: whatever the spec describes is a next state, so
no meaning raises this (safe: a step that never stops hides nothing behind a stop). -/
inductive Fault where
  /-- Raised by no one: the constructor keeps the type inhabited (safe). -/
  | none
  deriving DecidableEq, Repr

/-- A command without a meaning. -/
inductive Refusal where
  /-- Raised by the dispatch of a command whose meaning is not written yet (safe: nothing is claimed of it). -/
  | notModelled (mnemonic : String)
  deriving DecidableEq, Repr

/-- The state of the block. -/
structure State where
  /-- Commands waiting, first in first out. -/
  pending : List Instr := []
  /-- Reset and hold level H4 (R531, R532). -/
  power : Power := .on
  /-- The ridge counter (Table 0.4). -/
  ridge : Nat := 0
  /-- The model's own counter of free values drawn (not the spec's). -/
  freeCount : Nat := 0
  /-- The model's own record of the pages whose flags the present command has set (R70); empty between commands. -/
  flagged : List Nat := []
  /-- Registers (chapter 3). -/
  rf : RegFile := {}
  /-- Pegs by reference (Table 2.5). -/
  pegs : List (Nat × Peg) := []
  /-- The pod port and the duplicate window (chapter 2). -/
  pods : PodState := {}
  /-- Host rings 0 to 15 (chapter 12). -/
  rings : List (Nat × Ring) := []
  /-- Event pods dropped since the last EVENT_LOST (R361). -/
  lostEvents : Nat := 0
  /-- MSI-X messages sent, oldest first (R398). -/
  msixOut : List MsixMsg := []
  /-- Host memory the device wrote: ring contents and head copies (R360, R399). -/
  hostMem : List Host.Cell := []
  /-- Scratch, page cache and DRAM by local address (Table 1.4). -/
  mem : List Host.Cell := []
  /-- Stored words with an error, by the word's address (R285, R377). -/
  ecc : List (Nat × Option EccErr) := []
  /-- The patrol scrubbers' passes: clusters 0 to 3, and DRAM as 4 (R286, R378). -/
  scrubs : List (Nat × Scrub) := []
  /-- The fault collector (chapter 16). -/
  fc : Collector := {}
  /-- Frame groups 0 to 7. -/
  fgs : List (Nat × FgCycle) := []
  /-- The recorder. -/
  rr : Recorder := {}
  /-- CSI-2 streams by stream id. -/
  streams : List (Nat × IngressStream) := []
  /-- Sensor ports 0 to 31. -/
  sensors : List (Nat × SensorPort) := []
  /-- MACsec by port. -/
  portSec : List (Nat × PortSec) := []
  /-- What the sensor ports have sent, oldest first. -/
  portOut : List PortOut := []
  /-- Camera-control pods that wait for their ports. -/
  camPods : List CamPod := []
  /-- Luma samples of the pictures decoded within the last 10 ms, with their ridge counts (DEC_LOAD). -/
  decIn : List (Nat × Nat) := []
  /-- Pixels that reached each pipe within the last 1 ms, with their ridge counts (PIPE_LOAD). -/
  pipeIn : List (Nat × List (Nat × Nat)) := []
  /-- Lines that wait at image pipes 0 to 15, oldest first. -/
  pipeQ : List (Nat × List Line) := []
  /-- Slots by 4 × pipe + slot. -/
  slots : List (Nat × PipeSlot) := []
  /-- Statistics pods that wait to be sent, by 4 × pipe + slot (R145). -/
  statQ : List (Nat × OutPod) := []
  /-- Point preparation. -/
  pp : PointPrep := {}
  /-- Decode queues 0 to 63. -/
  decq : List (Nat × DecQueue) := []
  /-- The sentry SRAM, 8 MiB (R433). -/
  sntMem : List Host.Cell := []
  /-- Rolls by cluster × 64 + index (R297). -/
  rolls : List (Nat × Roll) := []
  /-- The sequence engine. -/
  seq : SeqEngine := {}
  /-- Job graphs by slot (R339). -/
  graphs : List (Nat × Option Graph) := []
  /-- Running instances, oldest first. -/
  insts : List Instance := []
  /-- Recompute requests that wait in dispatch for room in their slot's queue (R343), by slot. -/
  starts : List (Nat × StartReq) := []
  /-- The next identity of an instance, operation, issue, command or packet (bookkeeping of the model). -/
  nextId : Nat := 1
  /-- The next execution sequence (R350). -/
  nextExec : Nat := 1
  /-- Operations of arrays and engines that have not ended, in order of issue. -/
  ops : List Op := []
  /-- Arrays by 4 × cluster + array. -/
  arrays : List (Nat × ArrayUnit) := []
  /-- Busy cycles and cycles stalled on memory of engine `e` of cluster `c`, under 4 c + e (R278). -/
  engCycles : List (Nat × (Nat × Nat)) := []
  /-- Words a mailbox selector captures, where a block records an event: page × 256 + selector. -/
  records : List (Nat × List Nat) := []
  /-- Key slots 0 to 15 (R379). -/
  keySlots : List (Nat × KeySlot) := []
  /-- Corrections of a DRAM channel in the running second (R376). -/
  corrections : List (Nat × Nat) := []
  /-- Guyline ports 0 to 2. -/
  gl : List (Nat × GlPort) := []
  /-- Flits that the guyline ports have sent: port and 256 bytes, oldest first. -/
  glOut : List (Nat × List Byte) := []
  /-- Link-downs of each link (0 host, 1 to 3 guyline A to C), modulo 4,096 (R404). -/
  linkDowns : List (Nat × Nat) := []
  /-- Ridge time. -/
  time : RidgeTime := {}
  /-- Lane groups of the photonic engine. -/
  lanes : List (Nat × LaneGroup) := []
  /-- The media layer of the host port. -/
  media : HostMedia := {}
  /-- Completions of BAR2 accesses, oldest first. -/
  hostOut : List HostCpl := []
  /-- Aperture reads that wait for a remote device. -/
  remote : List RemoteRead := []
  /-- Writes to remote devices that have not been performed, oldest first. -/
  outWrites : List RemoteWrite := []
  /-- Writes that wait for the zero-fill of an encryption region, oldest first (R380). -/
  encQ : List WaitWrite := []
  /-- Peg increments that wait for some of them, oldest first. -/
  heldIncs : List HeldInc := []
  /-- Pods reassembled from the guyline (1 to 3: port A to C), not yet checked (R408). -/
  podsIn : List (Nat × List Byte) := []
  /-- The management port. -/
  mgt : MgtPort := {}
  /-- Responses that the management port has sent, oldest first. -/
  mgtOut : List MgtResp := []
  /-- The comparator. -/
  comp : Comparator := {}
  /-- The sentry. -/
  sentry : Sentry := {}
  /-- Tap buffers by 4 × pipe + slot (R146, R147). -/
  taps : List (Nat × TapState) := []
  /-- The lanterns. -/
  lantern : Lantern := {}
  /-- Firmware processors 0 to 6, in the core order of R488. -/
  cores : List (Nat × FwCore) := []
  /-- The BIST controller. -/
  bist : Bist := {}
  /-- Power management. -/
  pm : PowerMgmt := {}
  /-- The fuses. -/
  fuses : Fuses := {}
  /-- Boot and the security core. -/
  sec : Security := {}
  deriving DecidableEq, Repr

/-- The machine right after reset, when reset is released and the ROM starts (R85, R532): nothing listed, every
register at its reset value, ridge count zero. -/
def State.reset : State := {}

end Sys2Proof.Machine
end

