-- ==== Sys2Proof/Machine/Ops.lean ====
section
/-!
DEFINITION. The named operations over registers, pages, events and pods to the host that every meaning shares.
-/

namespace Sys2Proof.Machine

/-! ### Agents (Table 2.18) -/

/-- The 16-bit code of an agent (R543). -/
def agentCode : Agent → Nat
  | .host => 0x0000
  | .remote r => 0x0100 + r.toNat
  | .management => 0x0200
  | .firmware k => 0x0300 + k.val
  | .cluster c u => 0x1000 + 0x100 * c.val + u.toNat
  | .dispatch => 0x2000
  | .recorder => 0x2001
  | .pipe q => 0x2100 + q.val
  | .pointPrep => 0x2110
  | .statistics => 0x2111
  | .decode => 0x2200
  | .ingress => 0x2300
  | .sequence => 0x2400
  | .scrubber => 0x2500

/-! ### Pages (Table 3.1) -/

/-- What a page that carries the common header reports of itself, and whether it holds a unit that
PAGE_CTL.enable can take out of service (R68). -/
structure PageInfo where
  cls : Nat
  inst : Nat
  page : Nat
  domain : Nat
  unit : Bool := false
  mailbox : Bool := false
  immediate : Bool := false
  deriving DecidableEq, Repr

/-- A page of cluster `c` at offset `o` from the cluster's base (Table 3.1). -/
def clusterPage (c o : Nat) : Option PageInfo :=
  if o = 0 then some { cls := 0x060, inst := c, page := 0, domain := 10 + c, unit := true }
  else if 4 ≤ o ∧ o ≤ 7 then
    some { cls := 0x061, inst := 4 * c + (o - 4), page := 0, domain := 6 + c, unit := true, mailbox := true }
  else if o = 8 then some { cls := 0x062, inst := c, page := 0, domain := 6 + c, unit := true, mailbox := true }
  else if 9 ≤ o ∧ o ≤ 0xC then
    some { cls := 0x063 + (o - 9), inst := c, page := 0, domain := 10 + c, unit := true, mailbox := true }
  else if o = 0xD then some { cls := 0x067, inst := c, page := 0, domain := 10 + c, unit := true, mailbox := true }
  else if o = 0x10 then some { cls := 0x068, inst := c, page := 0, domain := 6 + c, unit := true, mailbox := true }
  else if o = 0x11 ∨ o = 0x12 then
    some { cls := 0x068, inst := c, page := o - 0x10, domain := 6 + c, mailbox := true }
  else none

/-- The identity of a page that carries the common header; nothing for a reserved page or a peg page (R63, R64).
The pages a block implements are those its chapter gives registers. -/
def pageInfo (p : Nat) : Option PageInfo :=
  if p = 0x000 then some { cls := 0x001, inst := 0, page := 0, domain := 15, mailbox := true }
  else if p = 0x001 then some { cls := 0x002, inst := 0, page := 0, domain := 15, mailbox := true }
  else if p = 0x002 then some { cls := 0x003, inst := 0, page := 0, domain := 5 }
  else if p = 0x003 then some { cls := 0x004, inst := 0, page := 0, domain := 2, mailbox := true }
  else if p = 0x004 then some { cls := 0x005, inst := 0, page := 0, domain := 15 }
  else if p = 0x010 then some { cls := 0x010, inst := 0, page := 0, domain := 4, mailbox := true, immediate := true }
  else if p = 0x011 then some { cls := 0x010, inst := 0, page := 1, domain := 4 }
  else if p = 0x020 then some { cls := 0x011, inst := 0, page := 0, domain := 4 }
  else if p = 0x030 then some { cls := 0x012, inst := 0, page := 0, domain := 3, mailbox := true }
  else if p = 0x038 then some { cls := 0x013, inst := 0, page := 0, domain := 3, mailbox := true }
  else if p = 0x039 then some { cls := 0x013, inst := 0, page := 1, domain := 3 }
  else if 0x040 ≤ p ∧ p < 0x060 then some { cls := 0x020, inst := p - 0x040, page := 0, domain := 17, unit := true }
  else if 0x060 ≤ p ∧ p < 0x070 then
    some { cls := 0x021, inst := 0, page := p - 0x060, domain := 17, unit := true, mailbox := true }
  else if p = 0x070 then some { cls := 0x022, inst := 0, page := 0, domain := 17, unit := true }
  else if 0x080 ≤ p ∧ p < 0x0A0 then
    some { cls := 0x030, inst := (p - 0x080) / 2, page := (p - 0x080) % 2, domain := 18,
           unit := (p - 0x080) % 2 == 0, mailbox := (p - 0x080) % 2 == 0 }
  else if p = 0x0A0 then some { cls := 0x031, inst := 0, page := 0, domain := 18, unit := true }
  else if p = 0x0A1 then some { cls := 0x031, inst := 0, page := 1, domain := 18 }
  else if p = 0x0A8 then some { cls := 0x032, inst := 0, page := 0, domain := 18, unit := true }
  else if p = 0x0C0 then some { cls := 0x040, inst := 0, page := 0, domain := 19, unit := true, mailbox := true }
  else if 0x0C4 ≤ p ∧ p ≤ 0x0C7 then some { cls := 0x040, inst := 0, page := p - 0x0C0, domain := 19 }
  else if 0x0E0 ≤ p ∧ p ≤ 0x0E4 then
    some { cls := 0x050, inst := 0, page := p - 0x0E0, domain := 5, mailbox := p == 0x0E0 || p == 0x0E2 }
  else if 0x100 ≤ p ∧ p < 0x200 then clusterPage ((p - 0x100) / 0x40) ((p - 0x100) % 0x40)
  else if p = 0x200 then some { cls := 0x070, inst := 0, page := 0, domain := 14, unit := true, mailbox := true }
  else if p = 0x201 then some { cls := 0x070, inst := 0, page := 1, domain := 14 }
  else if 0x240 ≤ p ∧ p < 0x250 then some { cls := 0x080, inst := p - 0x240, page := 0, domain := 16, mailbox := true }
  else if p = 0x260 then some { cls := 0x081, inst := 0, page := 0, domain := 16, mailbox := true }
  else if p = 0x261 then some { cls := 0x082, inst := 0, page := 0, domain := 16, mailbox := true }
  else if p = 0x280 then some { cls := 0x090, inst := 0, page := 0, domain := 20 }
  else if p = 0x282 then some { cls := 0x090, inst := 0, page := 2, domain := 20 }
  else if p = 0x288 ∨ p = 0x290 ∨ p = 0x298 then
    some { cls := 0x091, inst := (p - 0x288) / 8, page := 0, domain := 21 + (p - 0x288) / 8 }
  else if p = 0x289 then some { cls := 0x091, inst := 0, page := 1, domain := 21 }
  else if p = 0x2A0 then some { cls := 0x092, inst := 0, page := 0, domain := 24 }
  else if p = 0x2A8 then some { cls := 0x093, inst := 0, page := 0, domain := 24 }
  else if 0x2C0 ≤ p ∧ p ≤ 0x2C2 then
    some { cls := 0x0A0, inst := 0, page := p - 0x2C0, domain := 25, mailbox := p == 0x2C0, immediate := p == 0x2C0 }
  else if p = 0x2D0 then some { cls := 0x0A1, inst := 0, page := 0, domain := 25, mailbox := true }
  else if 0x2D8 ≤ p ∧ p ≤ 0x2DB then
    some { cls := 0x0A2, inst := 0, page := p - 0x2D8, domain := 25, mailbox := p == 0x2D8 || p == 0x2DB }
  else if p = 0x2E0 then some { cls := 0x0A3, inst := 0, page := 0, domain := 24, immediate := true }
  else if 0x2E8 ≤ p ∧ p ≤ 0x2EA then
    some { cls := 0x0A4, inst := 0, page := p - 0x2E8, domain := 25, mailbox := p == 0x2E8 }
  else none

/-- A headerless peg page (R67). -/
def isPegPage (p : Nat) : Bool :=
  (decide (0x100 ≤ p ∧ p < 0x200) && decide (0x20 ≤ (p - 0x100) % 0x40 ∧ (p - 0x100) % 0x40 < 0x24))
    || decide (0x300 ≤ p ∧ p < 0x310)

/-- The register row at a local address, with the indices of its page and of its place in the page. -/
def findIn (a : Nat) : List RegGroup → Option (RegRow × List Nat)
  | [] => none
  | g :: t =>
    if g.page ≤ a / 0x1000 then
      match splitDims g.dims (a / 0x1000 - g.page) with
      | some ps =>
        match g.rows.findSome? (fun r =>
            if r.off ≤ a % 0x1000 then (splitDims r.dims (a % 0x1000 - r.off)).map (fun is => (r, ps ++ is)) else none) with
        | some x => some x
        | none => findIn a t
      | none => findIn a t
    else findIn a t

/-- The block register at a local address (R65: other offsets hold none). -/
def findReg (a : Nat) : Option (RegRow × List Nat) := findIn a regGroups

/-! ### Reset values -/

/-- What Table 16.2 gives a fault source. -/
structure SourceInfo where
  dflt : Nat
  floor : Nat
  ceiling : Nat
  level : Bool := false
  fixed : Bool := false
  deriving DecidableEq, Repr

/-- Table 16.2; nothing for an index it does not list (R460). -/
def sourceInfo (i : Nat) : Option SourceInfo :=
  if i < 0x020 then some { dflt := 3, floor := 1, ceiling := 5 }
  else if i < 0x040 then some { dflt := 4, floor := 3, ceiling := 5 }
  else if i < 0x060 then some { dflt := 3, floor := 1, ceiling := 5, level := true }
  else if i < 0x070 then some { dflt := 3, floor := 1, ceiling := 5 }
  else if i < 0x080 then some { dflt := 4, floor := 4, ceiling := 5 }
  else if i ≤ 0x0C0 then some { dflt := 3, floor := 1, ceiling := 5 }
  else if 0x0C8 ≤ i ∧ i ≤ 0x0EB then some { dflt := 2, floor := 2, ceiling := 5 }
  else if 0x0EC ≤ i ∧ i ≤ 0x0EF then some { dflt := 1, floor := 1, ceiling := 5 }
  else if 0x0F0 ≤ i ∧ i ≤ 0x0F4 then some { dflt := 4, floor := 3, ceiling := 4, fixed := true }
  else if i = 0x0F5 then some { dflt := 5, floor := 5, ceiling := 5, fixed := true }
  else if i = 0x0F6 then some { dflt := 4, floor := 4, ceiling := 4, fixed := true }
  else if 0x0F7 ≤ i ∧ i ≤ 0x0FB then some { dflt := 4, floor := 3, ceiling := 4, fixed := true }
  else if i = 0x100 ∨ i = 0x101 then some { dflt := 2, floor := 2, ceiling := 5 }
  else if i = 0x102 ∨ i = 0x104 ∨ i = 0x105 then some { dflt := 3, floor := 1, ceiling := 5 }
  else if i = 0x103 then some { dflt := 3, floor := 3, ceiling := 5 }
  else if i = 0x106 then some { dflt := 1, floor := 1, ceiling := 5 }
  else if 0x110 ≤ i ∧ i ≤ 0x11F then some { dflt := 2, floor := 2, ceiling := 5 }
  else if 0x120 ≤ i ∧ i ≤ 0x12F then some { dflt := 3, floor := 1, ceiling := 5, level := true }
  else if i = 0x130 then some { dflt := 3, floor := 2, ceiling := 5 }
  else if i = 0x131 then some { dflt := 4, floor := 4, ceiling := 5, level := true }
  else if i = 0x132 then some { dflt := 5, floor := 5, ceiling := 5, level := true, fixed := true }
  else if 0x138 ≤ i ∧ i ≤ 0x13C then some { dflt := 3, floor := 1, ceiling := 5, level := true }
  else if i = 0x140 ∨ i = 0x141 ∨ i = 0x143 then some { dflt := 4, floor := 4, ceiling := 4, fixed := true }
  else if i = 0x142 ∨ i = 0x14A then some { dflt := 3, floor := 3, ceiling := 5 }
  else if i = 0x148 then some { dflt := 3, floor := 3, ceiling := 5, level := true }
  else if i = 0x149 then some { dflt := 4, floor := 4, ceiling := 4, level := true, fixed := true }
  else if 0x150 ≤ i ∧ i ≤ 0x15F then some { dflt := 4, floor := 4, ceiling := 5, level := true }
  else if i = 0x1F0 then some { dflt := 4, floor := 4, ceiling := 4, level := true, fixed := true }
  else if i = 0x1F1 ∨ i = 0x1FE then some { dflt := 5, floor := 5, ceiling := 5, fixed := true }
  else if i = 0x1FF then some { dflt := 4, floor := 4, ceiling := 4, fixed := true }
  else none

/-- The reset value of FC_SRC_CFG of source `i` (Table 16.12). -/
def sourceReset (i : Nat) : Nat :=
  match sourceInfo i with
  | some x => x.dflt + 8 + 0x10 * x.floor + 0x100 * x.ceiling + 0x800 * b2n x.level + 0x2000 * b2n x.fixed
  | none => 0

/-- Nominal frequency of clock domain `d` in kHz (Table 18.5); AON is 32.768 kHz, of which the register holds the
whole part. -/
def clockNominal (d : Nat) : Nat :=
  if d = 1 then 32 else if d = 2 then 100000 else if d = 3 then 400000 else if d = 4 then 200000
  else if d = 5 then 1000000 else if d ≤ 9 then 700000 else if d ≤ 14 then 1050000 else if d = 15 then 1400000
  else if d = 16 then 1600000 else if d = 17 then 625000 else if d = 18 then 800000 else if d = 19 then 600000
  else if d = 20 then 625000 else if d ≤ 23 then 781250 else if d = 24 then 125000 else 250000

/-- Deepest hold level of clock domain `d` (Table 18.5); for a domain whose limit depends on use, the deeper one. -/
def clockDeepest (d : Nat) : Nat :=
  if d ≤ 2 then 0 else if d ≤ 5 then 1 else if d ≤ 14 then 3 else if d ≤ 16 then 1
  else if d ≤ 23 then 3 else if d = 24 then 0 else 1

/-- The reset value a register row gives at indices `is`. -/
def resetOf (r : ResetVal) (is : List Nat) : Nat :=
  match r with
  | .const n => n
  | .identity => let j := is.getLastD 0
    if j = 0 ∨ j = 4 ∨ j = 8 then 0x3F800000 else 0
  | .norm => if is.getLastD 0 < 3 then 0 else 0x3F800000
  | .extr => let j := is.getLastD 0
    if j = 0 ∨ j = 4 ∨ j = 8 then 0x3A83126F else 0
  | .clkFreq => clockNominal (is.getLastD 0 + 1)
  | .clkHold => clockDeepest (is.getLastD 0 + 1)
  | .source => sourceReset (is.getLastD 0)
  | .fuse => 0
  | .derived => 0

/-- The reset value of the word at a local address (Tables 3.2 and 3.3, and the register tables). -/
def regReset (a : Nat) : Nat :=
  if a % 0x1000 = 0x008 ∧ (pageInfo (a / 0x1000)).isSome then 0x100
  else match findReg a with
    | some (r, is) => resetOf r.reset is
    | none => 0

/-- What an unlisted address of a register map reads as. -/
def regDefault (a : Nat) : Word := BitVec.ofNat 32 (regReset a)

/-! ### Live registers -/

/-- The live value of the register at an address. -/
def rd (s : State) (a : Nat) : Nat := (smGet regDefault s.rf.live a).toNat

/-- Field [hi:lo] of the live value of a register. -/
def rdF (s : State) (a hi lo : Nat) : Nat := fldN (rd s a) hi lo

/-- Bit `i` of the live value of a register. -/
def rdB (s : State) (a i : Nat) : Bool := bitN (rd s a) i

/-- Set the live value of a register (its low 32 bits). -/
def wr (s : State) (a v : Nat) : State :=
  { s with rf := { s.rf with live := smSet regDefault s.rf.live a (BitVec.ofNat 32 v) } }

/-- Set field [hi:lo] of the live value of a register. -/
def wrF (s : State) (a hi lo v : Nat) : State := wr s a (setFldN (rd s a) hi lo v)

/-- Count `n` in a register that saturates at 0xFFFF_FFFF. -/
def bumpSat (s : State) (a n : Nat) : State := wr s a (min (rd s a + n) 0xFFFFFFFF)

/-- Count `n` in a register that wraps modulo 2^32. -/
def bump (s : State) (a n : Nat) : State := wr s a ((rd s a + n) % 2 ^ 32)

/-- The shadow copy of an RWS register. -/
def rdShadow (s : State) (a : Nat) : Nat := (smGet regDefault s.rf.shadow a).toNat

/-- Set the shadow copy of an RWS register. -/
def wrShadow (s : State) (a v : Nat) : State :=
  { s with rf := { s.rf with shadow := smSet regDefault s.rf.shadow a (BitVec.ofNat 32 v) } }

/-- The 56-bit or 64-bit field whose low word is at `a` and high word at `a + 4`. -/
def rdWide (s : State) (a : Nat) : Nat := rd s a + 2 ^ 32 * rd s (a + 4)

/-- The device is in a multi-device configuration (R91). -/
def multiDevice (s : State) : Bool := rdB s A.ID_RING 8

/-- The ring id in effect (R20). -/
def ringId (s : State) : Nat := rdF s A.ID_RING 7 0

/-- The origin's source byte of a pod the device sends (R542). -/
def originByte (s : State) : Nat := if multiDevice s then ringId s else 0

/-! ### The common header -/

/-- The address of header register `off` of page `p`. -/
abbrev hdrAddr (p off : Nat) : Nat := 0x1000 * p + off

/-- The unit of a page runs (R68). -/
def unitOn (s : State) (p : Nat) : Bool :=
  match pageInfo p with
  | some i => if i.unit then rdB s (hdrAddr p 0x008) 8 else true
  | none => true

/-- The update group of a page (Table 3.3). -/
def pageGroup (s : State) (p : Nat) : Nat := rdF s (hdrAddr p 0x008) 3 0

/-- The event flags of a page, [15:0]. -/
def evtFlags (s : State) (p : Nat) : Nat := rdF s (hdrAddr p 0x010) 15 0

/-- The page's event request (R72). -/
def evtRequest (s : State) (p : Nat) : Bool := evtFlags s p &&& rdF s (hdrAddr p 0x018) 15 0 != 0

/-- Hardware sets flags of a page. The sequence increments by one, modulo 256, the first time a command sets any of the
page: what one command sets, it sets in one cycle (R70; log entry 136). The notification of R72 follows at the end of the
command, which is that cycle's end (`endCommand`). -/
def raise (s : State) (p mask : Nat) : State :=
  let w := rd s (hdrAddr p 0x010)
  let n := if s.flagged.contains p then 0 else 1
  let s := { s with flagged := if s.flagged.contains p then s.flagged else p :: s.flagged }
  wr s (hdrAddr p 0x010) (2 ^ 16 * ((fldN w 23 16 + n) % 256) + (fldN w 15 0 ||| mask))

/-! ### Host rings and MSI-X (R360 to R365, R398) -/

/-- Ring `r` beside its registers. -/
def ringOf (s : State) (r : Nat) : Ring := smGet (fun _ => {}) s.rings r

/-- Replace ring `r`. -/
def setRing (s : State) (r : Nat) (x : Ring) : State := { s with rings := smSet (fun _ => {}) s.rings r x }

/-- The size of ring `r` in bytes (R360). -/
def ringSize (s : State) (r : Nat) : Nat := 65536 * 2 ^ rdF s (A.RING_CFG r) 3 0

/-- The ring is enabled. -/
def ringOn (s : State) (r : Nat) : Bool := rdB s (A.RING_CFG r) 4

/-- The length of a pod in 32-byte units: header, body, trailer (R33, R39). -/
def outUnits (p : OutPod) : Nat := ceilDiv (48 + p.body.length) 32

/-- A message of vector `v`: sent, or pending while the vector is masked (R398). -/
def msixSignal (s : State) (v : Nat) : State :=
  if rdB s (A.MSIX_CTRL v) 0 then
    let a := A.MSIX_PBA (v / 32)
    wr s a (rd s a ||| 2 ^ (v % 32))
  else
    { s with msixOut := s.msixOut ++
        [{ addr := rd s (A.MSIX_ENTRY v 0) + 2 ^ 32 * rd s (A.MSIX_ENTRY v 1), data := rd s (A.MSIX_ENTRY v 2) }] }

/-- The EVT_ROUTE entry of a page's block class (R365). -/
def routeOf (s : State) (p : Nat) : Nat :=
  match pageInfo p with
  | some i => if i.cls ≤ 0xB0 then rd s (A.EVT_ROUTE i.cls) else 0
  | none => 0

/-- Append a pod to the queue of a ring; it waits for space once every earlier pod of the ring has gone (R361). -/
def enqueue (s : State) (r : Nat) (p : OutPod) : State :=
  let x := ringOf s r
  let e : RingEntry := { pod := p, since := if x.queue.isEmpty then some s.ridge else none }
  setRing s r { x with queue := x.queue ++ [e] }

/-- The ring of event pods (R363). -/
def eventRing (s : State) : Nat := rdF s A.DSP_RING_SEL 3 0

/-- The ring of statistics pods (R363). -/
def statRing (s : State) : Nat := rdF s A.DSP_RING_SEL 7 4

/-- A pod can never be written to a ring that is disabled or shorter than it (R360). -/
def unwritable (s : State) (r : Nat) (p : OutPod) : Bool :=
  !ringOn s r || decide (ringSize s r < 32 * outUnits p)

/-- An event or statistics pod is dropped: counted in EVENTS_LOST, and EVENT_LOST set (R360, R361, R369). -/
def loseEvent (s : State) : State :=
  raise (bumpSat { s with lostEvents := s.lostEvents + 1 } A.EVENTS_LOST 1) 0x0E0 0x10

/-- A PAGE_EVENT pod of page `p` (R365). -/
def pageEventPod (s : State) (p : Nat) : OutPod :=
  { kind := 9, cls := 3, operation := 0x0985,
    body := leBytes 2 p ++ leBytes 2 0 ++ leBytes 4 (rd s (hdrAddr p 0x010)) ++ leBytes 8 s.ridge }

/-- Send an event or statistics pod to ring `r` (R360, R363). -/
def sendTo (s : State) (r : Nat) (p : OutPod) : State := if unwritable s r p then loseEvent s else enqueue s r p

/-- A new notification of page `p`: by MSI-X, by a PAGE_EVENT pod, or both, as EVT_ROUTE says (R72, R365). -/
def notify (s : State) (p : Nat) : State :=
  if evtRequest s p then
    let s := if bitN (routeOf s p) 6 then msixSignal s (fldN (routeOf s p) 5 0) else s
    if bitN (routeOf s p) 7 then sendTo s (eventRing s) (pageEventPod s p) else s
  else s

/-- Send an event pod (kind 0x9) (R363, R542). Without a class, or with the class field 0b00 of a rejected pod, it goes as class Q
(log entry 142). -/
def sendEvent (s : State) (op cls frame echo status : Nat) (body : List Byte) : State :=
  sendTo s (eventRing s) { kind := 9, cls := if cls = 0 then 3 else cls, frame := frame, operation := op,
                           body := body, echo := echo, status := status }

/-! ### Fault reports (R462) -/

/-- An event status of a guyline source, which is a level source otherwise (R483). -/
def guylineEvent (st : Nat) : Bool := st == 0x0B04 || st == 0x0B05 || st == 0x0B0E

/-- A report is of a level condition that begins (R460, R483). -/
def isLevel (i st : Nat) : Bool :=
  match sourceInfo i with
  | some x => x.level && !guylineEvent st
  | none => false

/-- The level sources of Table 16.2. -/
def levelSources : List Nat :=
  (List.range 32).map (0x040 + ·) ++ (List.range 16).map (0x120 + ·) ++ [0x131, 0x132, 0x138, 0x139, 0x13A, 0x13B, 0x13C,
    0x148, 0x149] ++ (List.range 16).map (0x150 + ·) ++ [0x1F0]

/-- A level source of class C4 or higher is active (Table 16.11, FC_STATUS[3]). -/
def highLevel (s : State) : Bool :=
  levelSources.any (fun i => rdB s (A.FC_SRC_CFG i) 12 && decide (4 ≤ rdF s (A.FC_SRC_CFG i) 2 0))

/-- The quiet period starts again from zero, or stops while one of its conditions fails (R471). -/
def quietRestart (s : State) : State :=
  let run := decide (rdF s A.FC_STATUS 1 0 = 1) && !highLevel s
  { s with fc := { s.fc with quietFrom := if run then some s.ridge else none, exitDue := false } }

/-- The quiet period follows a change of the level sources: it starts when its conditions begin to hold, and stops
when one ceases to (R471). -/
def quietFollow (s : State) : State :=
  let run := decide (rdF s A.FC_STATUS 1 0 = 1) && !highLevel s
  if run = (s.fc.quietFrom.isSome || s.fc.exitDue) then s else quietRestart s

/-- A detecting mechanism reports: the report is on its way to the collector, and a level source is active. -/
def report (s : State) (r : Report) : State :=
  let s := if isLevel r.source r.status then wrF s (A.FC_SRC_CFG r.source) 12 12 1 else s
  let s := quietFollow s
  { s with fc := { s.fc with inbox := s.fc.inbox ++ [{ r with detected := s.ridge }] } }

/-- The condition of a level source clears (R460). -/
def levelClear (s : State) (i : Nat) : State :=
  if rdB s (A.FC_SRC_CFG i) 12 then quietFollow (wrF s (A.FC_SRC_CFG i) 12 12 0) else s

/-- A level source's condition holds (Table 16.12, active). -/
def levelActive (s : State) (i : Nat) : Bool := rdB s (A.FC_SRC_CFG i) 12

/-- A free value (nothing is known of it), and the state that has drawn it. -/
def drawFree (s : State) : Nat × State := (Config.freeValue s.freeCount, { s with freeCount := s.freeCount + 1 })

/-- The placement code of a record whose unit has one (R19, R462): opaque. Which units have one is the model's choice
(log entry 5). -/
def placement (s : State) : Nat := Config.placementCode s.freeCount % 65536

/-! ### Whether the block runs -/

/-- The pages whose sequence has incremented between two states of one command, in the order of their first flags. -/
def incremented (s0 s : State) : List Nat := (s.flagged.filter (fun p => !s0.flagged.contains p)).reverse

/-- The end of a command that began in state `s0`: each page whose sequence it incremented notifies once (R72), page 0x0E0
last, since the loss of an event pod sets a flag there; what the next command sets, it sets in another cycle (R70; log
entry 136). -/
def endCommand (s0 s : State) : State :=
  let s := (incremented s0 s).foldl (fun s p => if p = 0x0E0 then s else notify s p) s
  let s := if (incremented s0 s).contains 0x0E0 then notify s 0x0E0 else s
  { s with flagged := [] }

/-- The effect of a command on a block that runs; while reset is asserted or the device is in H4, nothing
happens (R531, R532). -/
def whenOn (f : State → State) (s : State) : Host.Outcome State Fault Refusal :=
  .next (if s.power = .on then endCommand s (f s) else s)

/-- The host is unauthenticated (R498). -/
def hostUnauth (s : State) : Bool := s.sec.hostKey.isSome && !rdB s A.SEC_STATUS 1

/-- A register write of an agent: while the host is unauthenticated, its writes through BAR0 are discarded (R498). -/
def asAgent (s : State) (ag : Agent) (f : State → State) : State := if ag == .host && hostUnauth s then s else f s

/-! ### Hold levels (R528 to R530) -/

/-- The hold level of a clock domain (Table 18.12). -/
def holdLevel (s : State) (d : Nat) : Nat := rdF s (A.CLK_STATUS (d - 1)) 2 0

/-- Work that reaches a held domain requests its wake (R530). -/
def wakeRequest (s : State) (d : Nat) : State :=
  if holdLevel s d = 0 then s else { s with rf := { s.rf with wakes := (s.rf.wakes ++ [d]).dedup } }

/-! ### Local state shorthands -/

/-- Class S is 1, A 2, Q 3 (Table 2.1). -/
abbrev clsS : Nat := 1
/-- Class A. -/
abbrev clsA : Nat := 2
/-- Class Q. -/
abbrev clsQ : Nat := 3

/-- STRICT is in effect (R352). -/
def strict (s : State) : Bool := rdB s A.DET_CTL 0

/-- A frame group is enabled. -/
def fgOn (s : State) (g : Nat) : Bool := rdB s (A.FG_CTL g) 0

/-- The device is in safe state or latched fatal (Table 16.11). -/
def safeState (s : State) : Bool := rdF s A.FC_STATUS 1 0 != 0

/-- The split of the lock-step cores (R449; CLS_STATUS). -/
def split (s : State) : Bool := rdB s A.CLS_STATUS 0

/-! ### Photonic lanes (R393, R394) -/

/-- A lane carries a latched laser fault (R393). -/
def laserCut (s : State) (lane : Nat) : Bool := rdB s (A.PH_LANE_STATUS lane) 2

/-- A lane is in open-fibre shutdown (R394). -/
def laneShut (s : State) (lane : Nat) : Bool := rdB s (A.PH_LANE_STATUS lane) 1

/-- A lane can carry a link: it is neither shut nor cut (R393, R394). -/
def laneFit (s : State) (lane : Nat) : Bool := !laserCut s lane && !laneShut s lane

end Sys2Proof.Machine
end

