-- ==== Sys2Proof/Machine/Memory.lean ====
section
/-!
DEFINITION. The local address map, ECC, inline encryption, and the access operations every agent uses
(R20 to R23, R285, R374 to R383, R540, R541).
-/

namespace Sys2Proof.Machine

/-! ### Memory contents -/

/-- What a byte of memory that nothing has written reads as. -/
def memDefault (_ : Nat) : Byte := 0

/-- One byte of scratch, page cache or DRAM. -/
def memByte (s : State) (a : Nat) : Byte := smGet memDefault s.mem a

/-- `n` bytes from an address. -/
def memBytes (s : State) (a n : Nat) : List Byte := (List.range n).map (fun i => memByte s (a + i))

/-- `n` bytes from an address as a little-endian number. -/
def memNat (s : State) (a n : Nat) : Nat := leNat (memBytes s a n)

/-- Put bytes at rising addresses of a memory. -/
def putBytes (m : List Host.Cell) : Nat → List Byte → List Host.Cell
  | _, [] => m
  | a, b :: t => putBytes (smSet memDefault m a b) (a + 1) t

/-- The state with bytes stored at an address. -/
def memPut (s : State) (a : Nat) (bs : List Byte) : State := { s with mem := putBytes s.mem a bs }

/-- The state with `n` zero bytes stored at an address. -/
def memZero (s : State) (a n : Nat) : State := { s with mem := smDelRange s.mem a n }

/-- The canonical form of a memory. -/
abbrev Memory.wf (m : List Host.Cell) : Prop := smWf memDefault m = true

/-- The state with bytes stored in host memory (R399). -/
def hostPut (s : State) (a : Nat) (bs : List Byte) : State := { s with hostMem := putBytes s.hostMem a bs }

/-! ### The address map (Table 1.4) -/

/-- What lies at a local address. -/
inductive Place where
  | regs | podPort | scratch (c : Nat) | cache | dram | firmware | unmapped
  deriving DecidableEq, Repr

/-- The local base of cluster `c`'s scratch. -/
def scratchBase (c : Nat) : Nat := 0x10000000 + 0x04000000 * c

/-- Table 1.4, with the firmware region of R374. -/
def place (a : Nat) : Place :=
  if a < 0xF00000 then .regs
  else if a < 0x1000000 then .podPort
  else if a < 0x10000000 then .unmapped
  else if a < 0x20000000 then
    if (a - 0x10000000) % 0x04000000 < 0x03000000 then .scratch ((a - 0x10000000) / 0x04000000) else .unmapped
  else if a < 0x22000000 then .cache
  else if a < 0x1000000000 then .unmapped
  else if a < 0x2FC0000000 then .dram
  else if a < 0x3000000000 then .firmware
  else .unmapped

/-- The ring id of a 56-bit device address. -/
def addrRing (a : Nat) : Nat := fldN a 55 48

/-- The local part of a 56-bit device address. -/
def addrLocal (a : Nat) : Nat := a % 2 ^ 48

/-- The address is of the local device (R20). -/
def isLocal (s : State) (a : Nat) : Bool := addrRing a == 0 || addrRing a == ringId s

/-- A range lies wholly in populated local DRAM outside the firmware region (R374). -/
def inDram (a n : Nat) : Bool := decide (0x1000000000 ≤ a ∧ a + n ≤ 0x2FC0000000)

/-- A range lies wholly in one cluster's populated scratch. -/
def inScratch (a n : Nat) : Bool :=
  (List.range 4).any (fun c => decide (scratchBase c ≤ a ∧ a + n ≤ scratchBase c + 0x03000000))

/-- A range lies in populated local scratch or DRAM. -/
def inMemory (a n : Nat) : Bool := inDram a n || inScratch a n

/-- A word of a configuration. -/
def cw (c : List Nat) (k : Nat) : Nat := c.getD k 0

/-- A range lies wholly in the page cache. -/
def inCache (a n : Nat) : Bool := decide (0x20000000 ≤ a ∧ a + n ≤ 0x22000000)

/-- The channel of a DRAM address (R373). -/
def dramChannel (a : Nat) : Nat :=
  let o := a - 0x1000000000
  fldN o 11 8 ^^^ fldN o 19 16 ^^^ fldN o 27 24

/-- The bank of a scratch offset (R279). -/
def scratchBank (a : Nat) : Nat := fldN a 12 7 ^^^ fldN a 18 13

/-- The granule of a scratch offset in its bank (R279). -/
def scratchGranule (a : Nat) : Nat := fldN a 25 13

/-! ### Records that mailboxes capture -/

/-- The recorded words of a page's selector. -/
def recOf (s : State) (p sel : Nat) : List Nat := smGet (fun _ => []) s.records (p * 256 + sel)

/-- Record the words of a page's selector. -/
def setRec (s : State) (p sel : Nat) (ws : List Nat) : State :=
  { s with records := smSet (fun _ => []) s.records (p * 256 + sel) ws }

/-- Low word of a number. -/
def lo32 (v : Nat) : Nat := v % 2 ^ 32

/-- High word of a 64-bit number. -/
def hi32 (v : Nat) : Nat := v / 2 ^ 32 % 2 ^ 32

/-! ### Stored errors (R285, R334, R377) -/

/-- The bytes one check word covers at an address: 64 in DRAM (R375), 8 in scratch and the page cache (R285). -/
def eccUnit (a : Nat) : Nat := if 0x1000000000 ≤ a then 64 else 8

/-- The check words that a range of bytes touches, by address. -/
def eccWords (a n : Nat) : List Nat :=
  let u := eccUnit a
  if n = 0 then [] else (List.range ((a + n - 1) / u - a / u + 1)).map (fun i => (a / u + i) * u)

/-- An error is uncorrectable: it lies in more than one symbol or bit. -/
def EccErr.double (e : EccErr) : Bool := decide (2 ≤ e.syms.length)

/-- The error a stored word holds. -/
def eccOf (s : State) (w : Nat) : Option EccErr := smGet (fun _ => none) s.ecc w

/-- Set or clear the error of a stored word. -/
def setEcc (s : State) (w : Nat) (e : Option EccErr) : State :=
  { s with ecc := smSet (fun _ => none) s.ecc w e }

/-- Errors of up to this many symbols or bits are detected without fail (R285, R375). -/
def eccSure (w : Nat) : Nat := if eccUnit w = 64 then 7 else 2

/-- The symbols in error once some more are hit: in DRAM a symbol in error stays in error; a bit hit twice is right
again. -/
def mergeSyms (w : Nat) (old hit : List Nat) : List Nat :=
  if eccUnit w = 64 then (old ++ hit).eraseDups else hit.foldl (fun a b => if a.contains b then a.erase b else a ++ [b]) old

/-- Symbols or bits of a stored word are upset. An error beyond what the code detects without fail may escape: whether it
does, and what the word then reads as, is free (R375). -/
def upsetWord (s : State) (w : Nat) (hit : List Nat) : State :=
  let e := (eccOf s w).getD { syms := [], injected := false }
  let l := mergeSyms w e.syms hit
  let d := drawFree s
  if l = [] then setEcc s w none
  else if l.length ≤ eccSure w then setEcc s w (some { e with syms := l })
  else if d.1 % 2 = 0 then setEcc d.2 w (some { e with syms := l })
  else setEcc (memPut d.2 w (leBytes (eccUnit w) (d.1 / 2))) w none

/-- A corrected error is counted, flagged, and the word written back corrected (R285, R376). -/
def eccCorrected (s : State) (w : Nat) : State :=
  let s := setEcc s w none
  match place w with
  | .scratch c => raise (bumpSat s (A.SCR_ECC_CORR c) 1) (0x110 + 0x40 * c) 1
  | .cache => bumpSat s A.SEQ_CACHE_ECC_CORR 1
  | .dram | .firmware =>
    let ch := dramChannel w
    let s := { s with corrections := smSet (fun _ => 0) s.corrections ch (smGet (fun _ => 0) s.corrections ch + 1) }
    raise (bumpSat s (A.CH_ECC_CORR ch) 1) (0x240 + ch) 1
  | _ => s

/-- The context and the command, a STAGE, of the view that a word of the page cache belongs to (R334). -/
def viewDetail (s : State) (w ctx : Nat) : Nat :=
  match s.seq.views.find? (fun v => decide (0x20000000 + 16384 * v.frame0 ≤ w ∧ w < 0x20000000 + 16384 * (v.frame0 + v.frames))) with
  | some v => v.ctx + 2 ^ 28 * 4
  | none => ctx

/-- An uncorrectable error is counted, flagged, recorded and reported; the word stays bad (R285, R334, R377). -/
def eccUncorrectable (s : State) (w : Nat) (e : EccErr) (scrub : Bool) (cls ctx echo : Nat) : State :=
  match place w with
  | .scratch c =>
    let o := w - scratchBase c
    let p := 0x110 + 0x40 * c
    let s := setRec (bumpSat s (A.SCR_ECC_UNCORR c) 1) p 2
      [o, scratchBank o + 64 * b2n scrub, lo32 s.ridge, hi32 s.ridge]
    report (raise s p 2) { source := 0x0E8 + c, status := St.SCR_ECC_UNCORRECTABLE, detail := lo32 w,
                           injected := e.injected, cls := cls, echo := echo }
  | .cache =>
    report (raise (bumpSat s A.SEQ_CACHE_ECC_UNCORR 1) 0x200 0x20)
      { source := 0x100, status := St.CACHE_ECC_UNCORRECTABLE, detail := viewDetail s w ctx, injected := e.injected, cls := cls, echo := echo }
  | .dram | .firmware =>
    let ch := dramChannel w
    let p := 0x240 + ch
    let s := setRec (bumpSat s (A.CH_ECC_UNCORR ch) 1) p 1
      [lo32 w, hi32 w, b2n scrub + 2 * b2n e.injected, lo32 s.ridge, hi32 s.ridge]
    report (raise s p 2) { source := 0x110 + ch, status := St.DRAM_ECC_UNCORRECTABLE, detail := lo32 w,
                           injected := e.injected, cls := cls, echo := echo }
  | _ => s

/-- The status an uncorrectable word at an address gives its reader. -/
def eccStatus (w : Nat) : Nat :=
  match place w with
  | .scratch _ => St.SCR_ECC_UNCORRECTABLE
  | .cache => St.CACHE_ECC_UNCORRECTABLE
  | _ => St.DRAM_ECC_UNCORRECTABLE

/-- Read one check word: a single error is corrected, an uncorrectable one gives a status other than OK. -/
def eccReadWord (scrub : Bool) (cls ctx echo : Nat) (st : Nat × State) (w : Nat) : Nat × State :=
  match eccOf st.2 w with
  | none => st
  | some e =>
    if e.double then (if st.1 = 0 then eccStatus w else st.1, eccUncorrectable st.2 w e scrub cls ctx echo)
    else (st.1, eccCorrected st.2 w)

/-- Read check words: the status of the first bad one, or OK. -/
def eccRead (s : State) (ws : List Nat) (cls ctx echo : Nat := 0) : Nat × State :=
  ws.foldl (eccReadWord false cls ctx echo) (0, s)

/-- The check words that a write covers only in part, and must read first (R285, R377). -/
def eccPartial (a n : Nat) : List Nat :=
  (eccWords a n).filter (fun w => decide (w < a) || decide (a + n < w + eccUnit a))

/-- One symbol or bit of a word, or two; which, the spec leaves open. -/
def injectSyms (v : Nat) (double : Bool) : List Nat :=
  if double then [v % 72, (v % 72 + 1 + v / 72 % 71) % 72] else [v % 72]

/-- An armed injection flips bits of the word being written (R305, R389). -/
def eccInject (s : State) (w : Nat) : State :=
  match place w with
  | .scratch c =>
    let r := A.SCR_INJECT c
    if rdB s r 7 && rdF s r 5 0 == scratchBank (w - scratchBase c) then
      let d := drawFree (wrF s r 7 7 0)
      raise (setEcc d.2 w (some { syms := injectSyms d.1 (rdB s r 6), injected := true })) (0x110 + 0x40 * c) 0x10
    else s
  | .dram | .firmware =>
    let ch := dramChannel w
    let r := A.CH_INJECT ch
    if rdB s r 0 then
      let d := drawFree (wrF s r 0 0 0)
      raise (setEcc d.2 w (some { syms := injectSyms d.1 (rdB s r 1), injected := true })) (0x240 + ch) 0x10
    else s
  | _ => s

/-- Check words that are written whole: they are good again, and an armed injection corrupts one. -/
def eccWrite (s : State) (ws : List Nat) : State := ws.foldl (fun s w => eccInject (setEcc s w none) w) s

/-! ### Inline encryption (R379 to R383) -/

/-- Base address of encryption region `r`. -/
def encBase (s : State) (r : Nat) : Nat := rdWide s (A.ENC_BASE_LO r)
/-- Size of encryption region `r` in bytes. -/
def encSize (s : State) (r : Nat) : Nat := 0x200000 * rdF s (A.ENC_SIZE r) 16 0
/-- Metadata base of encryption region `r`. -/
def encMeta (s : State) (r : Nat) : Nat := rdWide s (A.ENC_META_LO r)
/-- Region `r` is enabled. -/
def encOn (s : State) (r : Nat) : Bool := rdB s (A.ENC_CTL r) 0

/-- The enabled region that holds an address. -/
def encRegion (s : State) (a : Nat) : Option Nat :=
  (List.range 16).find? (fun r => encOn s r && decide (encBase s r ≤ a ∧ a < encBase s r + encSize s r))

/-- A range touches a region that is still being zero-filled: the access waits (R380). -/
def encWaits (s : State) (a n : Nat) : Bool :=
  (List.range 16).any (fun r => encOn s r && !rdB s (A.ENC_STATUS r) 0 &&
    decide (encBase s r < a + n ∧ a < encBase s r + encSize s r))

/-- The key under which region `r` is encrypted. -/
def encKey (s : State) (r : Nat) : List Byte :=
  (smGet (fun _ => ({} : KeySlot)) s.keySlots (rdF s (A.ENC_CTL r) 4 1)).key

/-- The IV of granule `i` of region `r` at write counter `c` (R381). -/
def encIv (r i c : Nat) : Nat := 2 ^ 88 * r + 2 ^ 56 * (i % 2 ^ 32) + c % 2 ^ 56

/-- The address of granule `i` of region `r`. -/
def granuleAddr (s : State) (r i : Nat) : Nat := encBase s r + 1024 * i

/-- The metadata entry of granule `i` (R381). -/
def metaEntry (s : State) (r i c : Nat) (plain : List Byte) : List Byte :=
  padTo 16 (Config.gcmTag (encKey s r) (encIv r i c) (leBytes 8 (granuleAddr s r i)) plain) ++ leBytes 7 c ++ zeros 9

/-- The write counter that the stored metadata of granule `i` holds. -/
def granuleCounter (s : State) (r i : Nat) : Nat := memNat s (encMeta s r + 32 * i + 16) 7

/-- The stored tag of granule `i` matches its content (R382). -/
def granuleOk (s : State) (r i : Nat) : Bool :=
  memBytes s (encMeta s r + 32 * i) 32 ==
    metaEntry s r i (granuleCounter s r i) (memBytes s (granuleAddr s r i) 1024)

/-- The granules (region, index) that a range touches. -/
def granules (s : State) (a n : Nat) : List (Nat × Nat) :=
  if n = 0 then [] else
  (List.range ((a + n - 1) / 1024 - a / 1024 + 1)).filterMap (fun j =>
    (encRegion s ((a / 1024 + j) * 1024)).map (fun r => (r, ((a / 1024 + j) * 1024 - encBase s r) / 1024)))

/-- A tag mismatch is counted, recorded, flagged and reported (R382). -/
def encAuthFail (s : State) (r i cls echo : Nat) : State :=
  let g := granuleAddr s r i
  let s := setRec (bumpSat s (A.ENC_AUTH_FAILS r) 1) 0x261 1 [lo32 g, hi32 g, r, lo32 s.ridge, hi32 s.ridge]
  report (raise s 0x261 1) { source := 0x130, status := St.ENC_AUTH_FAIL, detail := lo32 g, cls := cls, echo := echo }

/-- Check the tags of granules that are read: the first that fails ends the read. -/
def encCheck (s : State) (gs : List (Nat × Nat)) (cls echo : Nat) : Nat × State :=
  match gs.find? (fun g => !granuleOk s g.1 g.2) with
  | some g => (St.ENC_AUTH_FAIL, encAuthFail s g.1 g.2 cls echo)
  | none => (0, s)

/-- Rewrite the metadata of a granule after its content changed: the counter rises by one (R381). -/
def encRewrite (c : Nat) (s : State) (g : Nat × Nat) : State :=
  memPut s (encMeta s g.1 + 32 * g.2) (metaEntry s g.1 g.2 c (memBytes s (granuleAddr s g.1 g.2) 1024))

/-- The codeword that holds the metadata entry of a granule. -/
def metaWords (s : State) (g : Nat × Nat) : List Nat := eccWords (encMeta s g.1 + 32 * g.2) 32

/-- The codewords of a granule. -/
def granuleWords (s : State) (g : Nat × Nat) : List Nat := eccWords (granuleAddr s g.1 g.2) 1024

/-- The check words of a range that lie in no encryption region. -/
def plainWords (s : State) (a n : Nat) : List Nat := (eccWords a n).filter (fun w => (encRegion s w).isNone)

/-- The check words that a read of a range reads: those of the range itself, and in an encryption region its whole
granules with their metadata (R381). -/
def readWords (s : State) (a n : Nat) : List Nat :=
  plainWords s a n ++ (granules s a n).flatMap (fun g => granuleWords s g ++ metaWords s g)

/-! ### Accesses (R540) -/

/-- The status with which a byte of an access is refused; 0 where it is permitted (R21, R23, R374, R383, R541). -/
def byteRefusal (s : State) (ag : Agent) (write : Bool) (a : Nat) : Nat :=
  match place a with
  | .unmapped => St.ADDR_UNMAPPED
  | .podPort => if write then St.ADDR_UNMAPPED else 0
  | .cache => if write && !(ag == .sequence) then St.MEM_ACCESS_DENIED else 0
  | .firmware =>
    match ag with
    | .firmware _ => 0
    | _ => St.MEM_ACCESS_DENIED
  | .dram =>
    match ag with
    | .host | .remote _ =>
      match encRegion s a with
      | some r =>
        let h := rdF s (A.ENC_CTL r) 6 5
        if h = 1 ∨ (h = 2 ∧ write = false) then 0 else St.ENC_HOST_DENIED
      | none => 0
    | _ => 0
  | _ => 0

/-- The lowest refused byte of an access and its status (R540). -/
def accessRefusal (s : State) (ag : Agent) (write : Bool) (a n : Nat) : Option (Nat × Nat) :=
  (List.range n).findSome? (fun i =>
    if byteRefusal s ag write (a + i) = 0 then none else some (a + i, byteRefusal s ag write (a + i)))

/-- Record and report a refused access (R21, R374, R383, R541). The address recorded is the 48-bit local part, whichever ring id
named this device (log entry 160). -/
def noteRefusal (s : State) (ag : Agent) (a st cls echo : Nat) : State :=
  if st = St.ADDR_UNMAPPED then
    let s := setRec (bumpSat s A.DSP_ADDR_FAULTS 1) 0x0E0 1 [lo32 a, hi32 a, agentCode ag]
    sendEvent (raise s 0x0E0 1) Ev.ADDR_UNMAPPED cls 0 echo St.ADDR_UNMAPPED
      (leBytes 8 a ++ leBytes 2 (agentCode ag) ++ zeros 6)
  else
    let s := setRec (bumpSat s A.MEM_DENIED_COUNT 1) 0x260 1 [lo32 a, hi32 a, agentCode ag, st]
    let s := raise s 0x260 0x10
    if st = St.ENC_HOST_DENIED then raise s 0x261 4 else s

/-- Count 64-byte reads or writes by channel (Table 13.4). -/
def countWords (s : State) (write : Bool) (ws : List Nat) : State :=
  ws.foldl (fun s w =>
    if eccUnit w = 64 then bump s (if write then A.CH_WRITES (dramChannel w) else A.CH_READS (dramChannel w)) 1 else s) s

/-- An access to scratch that belongs to no job of its cluster waits while job accesses seek its banks: the cycles it
waits are free (R282, R283). -/
def extWait (s : State) (ag : Agent) (a : Nat) : State :=
  match place a with
  | .scratch c =>
    let job : Bool := match ag with
      | .cluster d _ => d.val == c
      | .firmware k => k.val == 3 + c
      | _ => false
    if job then s else bump (drawFree s).2 (A.SCR_EXT_WAIT c) (drawFree s).1
  | _ => s

/-- Read `n` bytes at a local address outside the register pages: a status (0 OK), the bytes (zero unless OK), and
the state with what the read recorded (R377, R381, R382, R540). -/
def memRead (s : State) (ag : Agent) (a n : Nat) (cls : Nat := 0) (ctx : Nat := 0)
    (echo : Nat := 0) : Nat × List Byte × State :=
  match accessRefusal s ag false a n with
  | some (b, st) => (st, zeros n, noteRefusal s ag b st cls echo)
  | none =>
    let ws := readWords s a n
    match eccRead (countWords (extWait s ag a) false ws) ws cls ctx echo with
    | (0, s1) =>
      match encCheck s1 (granules s1 a n) cls echo with
      | (0, s2) => (0, memBytes s2 a n, s2)
      | (st, s2) => (st, zeros n, s2)
    | (st, s1) => (st, zeros n, s1)

/-- The granules that a write covers only in part. -/
def partGranules (s : State) (a n : Nat) : List (Nat × Nat) :=
  (granules s a n).filter (fun g =>
    decide (granuleAddr s g.1 g.2 < a) || decide (a + n < granuleAddr s g.1 g.2 + 1024))

/-- The check words that a write must read first: those it covers in part, the granules it covers in part, and the
metadata of every granule it touches (R285, R377, R381). -/
def mergeWords (s : State) (a n : Nat) : List Nat :=
  (eccPartial a n).filter (fun w => (encRegion s w).isNone) ++ (partGranules s a n).flatMap (granuleWords s)
    ++ (granules s a n).flatMap (metaWords s)

/-- Store bytes whose access is permitted: merge checks of partial words and granules, then the store, its check
words, counters and metadata (R377, R381, R382). -/
def memStore (s : State) (ag : Agent) (a : Nat) (bs : List Byte) (cls : Nat := 0) (echo : Nat := 0) : Nat × State :=
  let n := bs.length
  let ws := mergeWords s a n
  match eccRead (countWords (extWait s ag a) false ws) ws cls 0 echo with
  | (0, s1) =>
    let gs := granules s1 a n
    if gs.any (fun g => granuleCounter s1 g.1 g.2 == 2 ^ 56 - 1) then (St.ENC_COUNTER_EXHAUSTED, s1)
    else
      match encCheck s1 (partGranules s1 a n) cls echo with
      | (0, s2) =>
        let out := readWords s2 a n
        let s3 := memPut (countWords s2 true out) a bs
        (0, eccWrite (gs.foldl (fun s g => encRewrite (granuleCounter s2 g.1 g.2 + 1) s g) s3) out)
      | (st, s2) => (st, s2)
  | (st, s1) => (st, s1)

/-- Write bytes at a local address outside the register pages: a status (0 OK) and the state (R540). A write to a region that
is still being zero-filled waits (R380). -/
def memWrite (s : State) (ag : Agent) (a : Nat) (bs : List Byte) (cls : Nat := 0)
    (echo : Nat := 0) : Nat × State :=
  match accessRefusal s ag true a bs.length with
  | some (b, st) => (st, noteRefusal s ag b st cls echo)
  | none =>
    if encWaits s a bs.length then
      (0, { s with encQ := s.encQ ++ [{ agent := ag, addr := a, bytes := bs, cls := cls, echo := echo }] })
    else memStore s ag a bs cls echo

/-- The writes that waited for the zero-fill of a region are performed, in their order (R380). -/
def encDrain (s : State) : State :=
  s.encQ.foldl (fun s w =>
    if encWaits s w.addr w.bytes.length then { s with encQ := s.encQ ++ [w] }
    else (memStore s w.agent w.addr w.bytes w.cls w.echo).2) { s with encQ := [] }

end Sys2Proof.Machine
end

