-- ==== Sys2Proof/Machine/Recorder.lean ====
section
/-!
DEFINITION. Frame-group time (R24, R105, R344, R367) and the record ring (R355 to R357).
-/

namespace Sys2Proof.Machine

/-! ### Frame groups -/

/-- A frame group's cycles. -/
def fgOf (s : State) (g : Nat) : FgCycle := smGet (fun _ => {}) s.fgs g

/-- Replace a frame group's cycles. -/
def setFg (s : State) (g : Nat) (x : FgCycle) : State := { s with fgs := smSet (fun _ => {}) s.fgs g x }

/-- P_g. -/
def fgPeriod (s : State) (g : Nat) : Nat := rd s (A.FG_PERIOD g)
/-- D_g. -/
def fgDeadline (s : State) (g : Nat) : Nat := rd s (A.FG_DEADLINE g)
/-- A_g. -/
def fgStart (s : State) (g : Nat) : Nat := rdWide s (A.FG_LAUNCH0_LO g)

/-- The launch count and frame of the cycle `n` periods after the first (R344). -/
def gridCycle (s : State) (g n : Nat) : Nat × Nat :=
  (fgStart s g + n * fgPeriod s g, (rd s (A.FG_FRAME0 g) + n) % 2 ^ 32)

/-- The current cycle of an enabled frame group: L(k) and k (R367). -/
def curCycle (s : State) (g : Nat) : Option (Nat × Nat) :=
  if fgOn s g then
    match (fgOf s g).cycle with
    | some c => some c
    | none => if s.rr.delta.isSome then none else some (gridCycle s g (fgOf s g).cur)
  else none

/-- The cycle whose [L(k) + off, L(k+1) + off) holds count `t` (R105), no earlier than the first launched. -/
def cycleAt (s : State) (g : Nat) (off : Int) (t : Nat) : Option (Nat × Nat) :=
  if fgOn s g = false then none
  else
    let x := fgOf s g
    match x.cycle with
    | some c => ((c :: x.replay).filter (fun l => decide ((l.1 : Int) + off ≤ t))).getLast?
    | none =>
      let d : Int := (t : Int) - off - (fgStart s g : Int)
      if d < 0 ∨ fgPeriod s g = 0 ∨ s.rr.delta.isSome = true then none
      else
        let n := d.toNat / fgPeriod s g
        if n < x.first then none else some (gridCycle s g n)

/-- L(t) of frame `t`, counted from the current cycle (R115). -/
def launchOf (s : State) (g t : Nat) : Option Int :=
  (curCycle s g).map (fun c => (c.1 : Int) + sgn 32 (t + 2 ^ 32 - c.2) * (fgPeriod s g : Int))

/-! ### The record ring -/

/-- The ring's base, size in 32-byte units, and mode. -/
def rrBase (s : State) : Nat := rdWide s A.RR_BASE_LO
/-- Size in units of 32 bytes. -/
def rrUnits (s : State) : Nat := 0x10000000 * rdF s A.RR_SIZE 6 0 / 32
/-- RR_CTL.mode: 0 off, 1 record, 2 replay. -/
def rrMode (s : State) : Nat := rdF s A.RR_CTL 1 0

/-- A replay is in progress or accepted: live inputs are turned away (R358). -/
def replaying (s : State) : Bool := rrMode s == 2

/-- Write bytes at a unit offset of the ring, wrapping at its end. -/
def rrPut (s : State) (off : Nat) (bs : List Byte) : State :=
  let room := 32 * (rrUnits s - off)
  let s := (memWrite s .recorder (rrBase s + 32 * off) (bs.take room)).2
  if room < bs.length then (memWrite s .recorder (rrBase s) (bs.drop room)).2 else s

/-- Drop the oldest entries until `n` units are free: what is kept, and the units dropped. -/
def rrFit (cap n : Nat) : List Nat → List Nat × Nat
  | [] => ([], 0)
  | u :: t => if (u :: t).sum + n ≤ cap then (u :: t, 0) else ((rrFit cap n t).1, u + (rrFit cap n t).2)

/-- Recording stops (R357). -/
def rrFreeze (s : State) : State := raise { s with rr := { s.rr with frozen := true } } 0x002 4

/-- The bytes of an entry (R355). -/
def rrBytes (stamp kind src aux seq : Nat) (payload : List Byte) : List Byte :=
  let h := leBytes 8 stamp ++ leBytes 1 kind ++ leBytes 1 src ++ zeros 2 ++ leBytes 4 payload.length
    ++ leBytes 8 aux ++ leBytes 4 seq
  padTo (roundUp (32 + payload.length) 32) (h ++ leBytes 4 (crc32c (h ++ payload)) ++ payload)

/-- Write one entry at the head of the ring (R355, R357). -/
def rrWrite (s : State) (stamp kind src aux : Nat) (payload : List Byte) : State :=
  if s.rr.frozen then s
  else
    let b := rrBytes stamp kind src aux s.rr.nextSeq payload
    let n := b.length / 32
    let cap := rrUnits s
    let fits := decide (s.rr.kept.sum + n ≤ cap)
    if cap < n then rrFreeze s
    else if fits = false ∧ rdB s A.RR_CTL 2 = false then rrFreeze s
    else
      let fit := rrFit cap n s.rr.kept
      let head := rd s A.RR_HEAD
      let s := rrPut s head b
      let s := wr (wr s A.RR_HEAD ((head + n) % cap)) A.RR_OLDEST ((rd s A.RR_OLDEST + fit.2) % cap)
      let s := { s with rr := { s.rr with kept := fit.1 ++ [n], nextSeq := (s.rr.nextSeq + 1) % 2 ^ 32 } }
      if fits then s else raise s 0x002 0x10

/-- Record an external input; `lost` tells an entry the recorder is too slow for (R356). -/
def record (s : State) (lost : Bool) (kind src aux : Nat) (payload : List Byte) (stamp : Nat := s.ridge) : State :=
  if rrMode s ≠ 1 ∨ s.rr.frozen = true then s
  else if lost then
    let g := s.rr.gap.getD (stamp, 0)
    { s with rr := { s.rr with gap := some (g.1, g.2 + payload.length) } }
  else
    let s := match s.rr.gap with
      | some g =>
        let s := rrWrite { s with rr := { s.rr with gap := none } } g.1 6 0 g.2 []
        raise (bumpSat s A.RR_GAPS 1) 0x002 2
      | none => s
    rrWrite s stamp kind src aux payload

/-- A host or remote write is recorded where it falls into a capture window (R356). -/
def recordWrite (s : State) (lost : Bool) (src a : Nat) (bs : List Byte) : State :=
  let inWin (w : Nat) : Bool :=
    let b := rdWide s (A.RR_WIN_BASE_LO w)
    decide (b < a + bs.length ∧ a < b + 65536 * rd s (A.RR_WIN_SIZE w))
  if (List.range 4).any inWin then record s lost 3 src a bs else s

/-- The ring freezes for a contested cycle (R357). -/
def rrContestFreeze (s : State) (frame : Nat) : State :=
  sendEvent (rrFreeze { s with rr := { s.rr with post := none } }) Ev.RR_FROZEN 0 0 0 0 (leBytes 4 frame ++ zeros 12)

/-- A result pod that carries CONTESTED starts the countdown to a freeze (R357). -/
def rrContested (s : State) (frame : Nat) : State :=
  if rrMode s = 1 ∧ rdB s A.RR_CTL 3 = true ∧ s.rr.post = none ∧ s.rr.frozen = false then
    if rdF s A.RR_CTL 15 8 = 0 then rrContestFreeze s frame
    else { s with rr := { s.rr with post := some (rdF s A.RR_CTL 15 8, frame) } }
  else s

/-- A launch of the trigger frame group counts towards the freeze (R357). -/
def rrLaunched (s : State) (g : Nat) : State :=
  match s.rr.post with
  | some (n, frame) =>
    if rdF s A.RR_CTL 6 4 ≠ g ∨ s.rr.frozen = true then s
    else if n ≤ 1 then rrContestFreeze s frame
    else { s with rr := { s.rr with post := some (n - 1, frame) } }
  | none => s

end Sys2Proof.Machine
end

