-- ==== Sys2Proof/Machine/Clocks.lean ====
section
/-!
DEFINITION. What passes while no command waits, and the clock steps of the compute die (R416, R525).
-/

namespace Sys2Proof.Machine

/-- One tick of the ridge counter (Table 0.4; DESIGN CHOICE, log entry 1): it runs whenever reset is not asserted, in H4 too
(R531). While it slews, every 5,000th tick is doubled or left out, which is 200 ppm (R416). -/
def tick (s : State) : State :=
  if s.power = .held then s
  else if s.time.slew = 0 then { s with ridge := s.ridge + 1 }
  else if s.time.phase < 4999 then { s with ridge := s.ridge + 1, time := { s.time with phase := s.time.phase + 1 } }
  else if 0 < s.time.slew then { s with ridge := s.ridge + 2, time := { s.time with phase := 0, slew := s.time.slew - 1 } }
  else { s with time := { s.time with phase := 0, slew := s.time.slew + 1 } }

/-- Domains whose clocks step together: CcARR, CcCTL and SEQ. -/
def steppedDomains : List Nat := (List.range 9).map (6 + ·)

/-- Run the stepped domains `n` eighths below nominal; PM_STATUS shows the step (R525). -/
def setClockStep (s : State) (n : Nat) : State :=
  steppedDomains.foldl (fun s d => wr s (A.CLK_FREQ (d - 1)) (clockNominal d * (8 - n) / 8)) (wrF s A.PM_STATUS 7 5 n)

/-- The lowest-numbered enabled frame group. -/
def lowestFg (s : State) : Option Nat := (List.range 8).find? (fgOn s)

/-- A clock step that waited for a launch takes effect at one of the lowest-numbered enabled frame group (R525). -/
def clockAtLaunch (s : State) (g : Nat) : State :=
  match s.pm.clockDue with
  | some n => if lowestFg s = some g then setClockStep { s with pm := { s.pm with clockDue := none } } n else s
  | none => s

end Sys2Proof.Machine
end

