-- ==== Sys2Proof/Machine/Pegs.lean ====
section
/-!
DEFINITION. Pegs: references, waits, increments, re-arming and the writes of their records (R37, R288 to R295).
-/

namespace Sys2Proof.Machine

/-- The scope of a peg reference (Table 2.5). -/
def refScope (r : Nat) : Nat := fldN r 15 14

/-- The index of a peg reference. -/
def refIndex (r : Nat) : Nat := fldN r 11 0

/-- A well-formed peg reference (R37). -/
def refWellFormed (r : Nat) : Bool :=
  match refScope r with
  | 0 => r % 65536 == 0
  | 1 => fldN r 13 12 == 0
  | 2 => fldN r 11 10 == 0
  | _ => false

/-- The reference names a peg. -/
def refNames (r : Nat) : Bool := refScope r == 1 || refScope r == 2

/-- A global peg reserved for firmware (R294). -/
def refReserved (r : Nat) : Bool := refScope r == 1 && decide (4032 ≤ refIndex r)

/-- The reference of a peg (Table 2.5). -/
def pegRef : PegId → Nat
  | .cluster c i => 0x8000 + 0x1000 * c.val + i.val
  | .glob i => 0x4000 + i.val

/-- The peg at a reference. -/
def pegAt (s : State) (r : Nat) : Peg := smGet (fun _ => {}) s.pegs r

/-- Replace the peg at a reference. -/
def setPeg (s : State) (r : Nat) (p : Peg) : State := { s with pegs := smSet (fun _ => {}) s.pegs r p }

/-- PEG_CFG.mode (Table 10.3): 0 unconfigured, 1 count, 2 byte. -/
def pegMode (p : Peg) : Nat := fld p.cfg 10 9

/-- The fault source of a peg (Table 16.2). -/
def pegSource (r : Nat) : Nat := if refScope r = 1 then 0x106 else 0x0EC + fldN r 13 12

/-- The peg's mode meets an incrementer's requirement; an unconfigured peg meets none (R292). -/
def needMet (n : PegNeed) (mode : Nat) : Bool :=
  match n with
  | .count => mode == 1
  | .byte => mode == 2
  | .either => mode == 1 || mode == 2

/-- The increment's frame passes the peg's epoch check (R292). -/
def epochMet (p : Peg) (frame : Option Nat) : Bool :=
  match frame with
  | none => true
  | some f => !p.cfg.getLsbD 15 || f % 256 == p.epoch.toNat

/-- PEG_REACHED (R295). -/
def pegReached (s : State) (r cls echo : Nat) (p : Peg) : State :=
  sendEvent s 0x0710 cls 0 echo 0
    (leBytes 2 r ++ zeros 2 ++ leBytes 4 p.count.toNat ++ leBytes 1 p.epoch.toNat ++ zeros 7 ++ leBytes 8 s.ridge)

/-- The peg after an increment that is applied: saturating addition (R290). -/
def pegAdd (p : Peg) (amount : Nat) : Peg :=
  if p.count.toNat + amount < 2 ^ 32 then { p with count := BitVec.ofNat 32 (p.count.toNat + amount) }
  else { p with count := 0xFFFFFFFF, saturated := true }

/-- The clock domain of a peg (Table 3.1). -/
def pegDomain (r : Nat) : Nat := if refScope r = 1 then 5 else 10 + fldN r 13 12

/-- Increment a peg (R290, R292, R295), waking its domain (R530); a reference with scope 0b00 names none. -/
def pegInc (s : State) (r : Nat) (need : PegNeed) (amount : Nat) (frame : Option Nat) (cls : Nat := 0)
    (echo : Nat := 0) : State :=
  if refNames r = false then s
  else
    let s := wakeRequest s (pegDomain r)
    let p := pegAt s r
    if needMet need (pegMode p) && epochMet p frame then
      let q := pegAdd p amount
      let s := setPeg s r q
      let s := if p.count.toNat + amount < 2 ^ 32 then s
        else report s { source := pegSource r, status := St.PEG_SATURATED, detail := r, cls := cls, echo := echo }
      if p.cfg.getLsbD 23 && decide (p.count.toNat < p.target.toNat ∧ p.target.toNat ≤ q.count.toNat) then
        pegReached s r cls echo q else s
    else
      report (setPeg s r { p with discarded := if p.discarded = 0xFFFF then p.discarded else p.discarded + 1 })
        { source := pegSource r, status := St.PEG_INCREMENT_DISCARDED, detail := r, cls := cls, echo := echo }

/-- A peg increment with release meaning: it becomes visible once every remote write that its agent issued before has been
performed (R57); local writes are performed as they are made. -/
def releaseInc (s : State) (ag : Agent) (ref : Nat) (need : PegNeed) (amount : Nat) (frame : Option Nat) (cls : Nat := 0)
    (echo : Nat := 0) : State :=
  let waits := (s.outWrites.filter (fun w => w.agent == ag)).map (·.id)
  if waits.isEmpty then pegInc s ref need amount frame cls echo
  else { s with heldIncs := s.heldIncs ++
    [{ ref := ref, need := need, amount := amount, frame := frame, cls := cls, echo := echo, waits := waits }] }

/-- A reference names a peg that is not configured (R294). -/
def pegUnconfigured (s : State) (r : Nat) : Bool := refNames r && pegMode (pegAt s r) == 0

/-- A wait on a peg is satisfied (R293): target 0 uses the peg's own, and an epoch may be named. A wait on an unconfigured peg
is not satisfied: who waits so ends with PEG_UNCONFIGURED (R294). -/
def pegMet (s : State) (r target : Nat) (epoch : Option Nat) : Bool :=
  if refNames r = false then true
  else
    let p := pegAt s r
    pegMode p != 0 && decide ((if target = 0 then p.target.toNat else target) ≤ p.count.toNat) &&
      (match epoch with | none => true | some e => e % 256 == p.epoch.toNat)

/-- A peg that a launch of frame group `g`, frame `k`, re-arms (R291). -/
def rearms (g k : Nat) (p : Peg) : Bool :=
  p.cfg.getLsbD 11 && fld p.cfg 14 12 == g && k % (fld p.cfg 18 16 + 1) == fld p.cfg 22 20

/-- A re-armed peg (R291): count zero, the launch's epoch. -/
def rearmed (k : Nat) (p : Peg) : Peg := { p with count := 0, epoch := BitVec.ofNat 8 k, saturated := false }

/-- Re-arm the pegs of a launch (R291). -/
def rearmPegs (s : State) (g k : Nat) : State :=
  let changed := (s.pegs.filter (fun e => rearms g k e.2)).map (fun e => (e.1, rearmed k e.2))
  { s with pegs := smSetAll (fun _ => {}) s.pegs changed }

/-- PEG_STATE.reached: the count has reached the target (Table 10.3). A record that stands in every part at its reset values
reads the reset value 0 that Tables 10.2 and 10.3 give (log entry 152). -/
def pegReads (p : Peg) : Bool := p != {} && decide (p.target.toNat ≤ p.count.toNat)

/-- PEG_STATE (Table 10.3). -/
def pegState (p : Peg) : Nat :=
  p.epoch.toNat + 0x100 * b2n (pegReads p) + 0x200 * b2n p.saturated
    + 0x400 * b2n p.cfgRefused + 0x10000 * p.discarded.toNat

/-- A PEG_CFG value that is refused (R289): mode 0b11, a reserved bit, or a phase not below the modulus. -/
def pegCfgBad (v : Word) : Bool :=
  fld v 10 9 == 3 || v.getLsbD 19 || fld v 31 24 != 0 || decide (fld v 18 16 < fld v 22 20)

/-- A wait of a job of an instance with frame `k` is satisfied (R293): it names the expected epoch where its entry asks for it
and the peg has epoch_check set. -/
def waitMetNow (s : State) (k : Nat) (w : JobWait) : Bool :=
  pegMet s w.peg w.target (if w.epoch && (pegAt s w.peg).cfg.getLsbD 15 then some (k + 2 ^ 32 - w.lag) else none)

/-- The waits of a job that are satisfied, now or before, by index. -/
def metWaits (s : State) (k : Nat) (j : JobRun) : List Nat :=
  (List.range j.entry.waits.length).filter (fun i => j.met.contains i ||
    (match j.entry.waits[i]? with
     | some w => waitMetNow s k w
     | none => false))

/-- Waits that are satisfied now stay satisfied, whatever lowers a count afterwards (R293). -/
def latchWaits (s : State) : State :=
  { s with
    pods := { s.pods with rx := s.pods.rx.map (fun p =>
      { p with waitMet := p.waitMet || pegMet s p.hdr.waitPeg p.hdr.waitTarget none }) }
    insts := s.insts.map (fun x =>
      { x with jobs := x.jobs.map (fun j => { j with met := metWaits s x.frame j }) }) }

/-- A write of PEG_COUNT: no release meaning, and saturated clears (R288, R290). -/
def writePegCount (s : State) (r : Nat) (v : Word) : State :=
  let s := latchWaits s
  setPeg s r { pegAt s r with count := v, saturated := false }

/-- A write of PEG_TARGET (R288). -/
def writePegTarget (s : State) (r : Nat) (v : Word) : State :=
  let s := latchWaits s
  setPeg s r { pegAt s r with target := v }

/-- A write of PEG_CFG: at once, or refused (R289). -/
def writePegCfg (s : State) (r : Nat) (v : Word) : State :=
  if pegCfgBad v then setPeg s r { pegAt s r with cfgRefused := true }
  else
    let s := latchWaits s
    setPeg s r { pegAt s r with cfg := v, cfgRefused := false }

/-- A write of PEG_INC by an agent: zero has no effect (Table 10.2, R57). -/
def writePegInc (s : State) (ag : Agent) (r : Nat) (v : Word) : State :=
  if v = 0 then s else releaseInc s ag r .either v.toNat none

/-- The peg reference and the word (0 to 3) of an address in a peg page (R288). -/
def pegOfAddr (a : Nat) : Nat × Nat :=
  let p := a / 0x1000
  let i := (a % 0x1000) / 16
  let w := (a % 16) / 4
  if 0x300 ≤ p then (0x4000 + (p - 0x300) * 256 + i, w)
  else (0x8000 + 0x1000 * ((p - 0x100) / 0x40) + ((p - 0x100) % 0x40 - 0x20) * 256 + i, w)

/-- A write of a word of a peg page. -/
def writePegWord (s : State) (ag : Agent) (a : Nat) (v : Word) : State :=
  match pegOfAddr a with
  | (r, 0) => writePegCount s r v
  | (r, 1) => writePegTarget s r v
  | (r, 2) => writePegCfg s r v
  | (r, _) => writePegInc s ag r v

/-- A read of a word of a peg page. -/
def readPegWord (s : State) (a : Nat) : Nat :=
  match pegOfAddr a with
  | (r, 0) => (pegAt s r).count.toNat
  | (r, 1) => (pegAt s r).target.toNat
  | (r, 2) => (pegAt s r).cfg.toNat
  | (r, _) => pegState (pegAt s r)

/-- PEG_COUNT: a write of a peg's count. -/
def execPegCount (agent : Agent) (peg : PegId) (v : Word) (s : State) : Host.Outcome State Fault Refusal :=
  whenOn (fun s => asAgent s agent (fun s => writePegCount s (pegRef peg) v)) s

/-- PEG_CFG: a write of a peg's configuration. -/
def execPegCfg (agent : Agent) (peg : PegId) (v : Word) (s : State) : Host.Outcome State Fault Refusal :=
  whenOn (fun s => asAgent s agent (fun s => writePegCfg s (pegRef peg) v)) s

/-- PEG_INC_WRITE: a write of a peg's PEG_INC. -/
def execPegIncWrite (agent : Agent) (peg : PegId) (v : Word) (s : State) : Host.Outcome State Fault Refusal :=
  whenOn (fun s => asAgent s agent (fun s => writePegInc s agent (pegRef peg) v)) s

end Sys2Proof.Machine
end

