-- ==== Sys2Proof/Machine/Registers.lean ====
section
/-!
DEFINITION. How a register write is admitted and takes effect: guards, ranges, wide fields, shadow copies, posted
queues, update groups, keys, locks and the sequence-matched clear (chapter 3, R10, R11).
-/

namespace Sys2Proof.Machine

/-! ### The page header -/

/-- The page carries the common header. -/
def hasHeader (p : Nat) : Bool := (pageInfo p).isSome

/-- LOCK.lock of a page. -/
def locked (s : State) (p : Nat) : Bool := rdB s (hdrAddr p 0x044) 0

/-- Writes to the page are posted: its domain is not FAB (Table 3.3). -/
def isPosted (p : Nat) : Bool :=
  match pageInfo p with
  | some i => i.domain != 15
  | none => false

/-- The clock domain of a page. -/
def pageDomain (p : Nat) : Nat :=
  match pageInfo p with
  | some i => i.domain
  | none => 15

/-- The posted-write queue of a page. -/
def postedOf (s : State) (p : Nat) : List PostedWrite := smGet (fun _ => []) s.rf.posted p

/-- Replace the posted-write queue of a page. -/
def setPosted (s : State) (p : Nat) (q : List PostedWrite) : State :=
  { s with rf := { s.rf with posted := smSet (fun _ => []) s.rf.posted p q } }

/-- GUARD_REFUSED (Table 3.3). -/
def guardRefused (s : State) (p : Nat) : State := if hasHeader p then raise s p 0x4000 else s

/-- ACCESS_ERROR (R65). -/
def accessError (s : State) (p : Nat) : State := if hasHeader p then raise s p 0x8000 else s

/-! ### Values a field takes (R10) -/

/-- Merge a written value into a register: reserved bits keep, a field outside its range keeps its value; also
whether some field was refused. A range of a signed field that takes in zero is written with its least value above its
greatest, as the bit patterns are. -/
def mergeFields (row : RegRow) (cur v : Nat) : Nat × Bool :=
  row.ranges.foldl (fun (acc : Nat × Bool) f =>
    let x := fldN v (f.1 + f.2.1 - 1) f.1
    if (f.2.2.1 ≤ x ∧ x ≤ f.2.2.2) ∨ (f.2.2.2 < f.2.2.1 ∧ (f.2.2.1 ≤ x ∨ x ≤ f.2.2.2)) then acc
    else (setFldN acc.1 (f.1 + f.2.1 - 1) f.1 (fldN cur (f.1 + f.2.1 - 1) f.1), true))
    ((v &&& row.mask) ||| (cur - (cur &&& row.mask)), false)

/-- The event flag CONFIG_REJECTED of a page, where it defines one. -/
def configRejectedBit (p : Nat) : Option Nat :=
  if 0x060 ≤ p ∧ p < 0x070 then some 5
  else if 0x080 ≤ p ∧ p < 0x0A0 ∧ p % 2 = 0 then some 4
  else if p = 0x0A0 then some 5
  else if 0x100 ≤ p ∧ p < 0x200 ∧ ((p - 0x100) % 0x40 = 0x11 ∨ (p - 0x100) % 0x40 = 0x12) then some 2
  else if p = 0x200 then some 6
  else if p = 0x261 then some 1
  else if p = 0x2C0 then some 6
  else if p = 0x2D0 then some 4
  else if p = 0x2D8 then some 3
  else none

/-- Set CONFIG_REJECTED of a page, where it defines one (R10). -/
def configRejected (s : State) (p : Nat) : State :=
  match configRejectedBit p with
  | some b => raise s p (2 ^ b)
  | none => s

/-- A value whose table gives a range that depends on other fields or on alignment, and that R10 ignores. -/
def rangeBad (s : State) (a v : Nat) : Bool :=
  if a / 0x1000 = 0x003 ∧ 0x200 ≤ a % 0x1000 then
    let g := (a % 0x1000 - 0x200) / 0x20
    if a = A.FG_PERIOD g then !decide (10000000 ≤ v ∧ v ≤ 100000000 ∧ rd s (A.FG_DEADLINE g) ≤ v)
    else if a = A.FG_DEADLINE g then !decide (1 ≤ v ∧ v ≤ rd s (A.FG_PERIOD g))
    else false
  else if a / 0x1000 = 0x0E3 ∧ (a % 0x20 = 0) then v % 4096 != 0
  else if a / 0x1000 = 0x0E3 ∧ (a % 0x20 = 0x0C) then v % 4 != 0
  else if a = A.RR_BASE_LO then v % 0x10000000 != 0
  else if a = A.RR_BASE_HI then fldN v 23 16 != 0
  else if a / 0x1000 = 0x002 ∧ 0x140 ≤ a % 0x1000 ∧ a % 0x10 = 0 then v % 0x10000 != 0
  else if a / 0x1000 = 0x2E9 ∧ a % 8 = 4 then !decide (rdF s (a - 4) 16 0 < fldN v 16 0)
  else false

/-- An RWL register that accepts writes only while its object is disabled (R367, R370, R391). -/
def frozenByUse (s : State) (a : Nat) : Bool :=
  if a / 0x1000 = 0x003 ∧ 0x200 ≤ a % 0x1000 ∧ a % 0x20 ≠ 0 then
    fgOn s ((a % 0x1000 - 0x200) / 0x20)
  else if a / 0x1000 = 0x0E3 ∧ 0x100 ≤ a % 0x1000 ∧ a % 0x20 < 0x14 ∧ a % 0x20 ≠ 8 then
    ringOn s ((a % 0x1000 - 0x100) / 0x20)
  else if a / 0x1000 = 0x261 ∧ 0x200 ≤ a % 0x1000 ∧ a % 0x20 ≠ 0x14 then encOn s ((a % 0x1000 - 0x200) / 0x20)
  else false

/-! ### Guards (R87 to R91, R354, R391) -/

/-- The guarded RWI registers (Table 3.6). -/
def guardedRwi (a : Nat) : Bool := a == A.LANTERN_TEST || a == A.FC_KILL

/-- In a multi-device configuration a management session with the debug privilege writes page 0x002 as if it were
unlocked (R354). -/
def debugWrite (s : State) (ag : Agent) (p : Nat) : Bool :=
  multiDevice s && ag == .management && p == 0x002 && rdB s A.MGT_STATUS 2

/-- The guarded fields of a page are read only: its LOCK is set, or the lock policy governs (R89, R91, Table 3.7). -/
def guardShut (s : State) (p : Nat) : Bool := locked s p || multiDevice s

/-- The unlock an agent has armed on a page and that has not lapsed. -/
def unlockArmed (s : State) (p : Nat) (ag : Agent) : Bool :=
  s.rf.unlocks.any (fun u => u.page == p && u.agent == ag && decide (s.ridge < u.lapse))

/-- Remove the unlock of an agent on a page. -/
def dropUnlock (s : State) (p : Nat) (ag : Agent) : State :=
  { s with rf := { s.rf with unlocks := s.rf.unlocks.filter (fun u => !(u.page == p && u.agent == ag)) } }

/-- Only the security core writes page 0x261 (R379). -/
def pageBarred (ag : Agent) (p : Nat) : Bool := p == 0x261 && ag != .firmware 0

/-- A write to a page: one of an agent that may not write the page is discarded (R379). -/
def pageWrite (s : State) (ag : Agent) (p : Nat) (eff : State → State) : State :=
  asAgent s ag (fun s => if pageBarred ag p then guardRefused s p else eff s)

/-- The page's fabric interface admits a write to a block register, or refuses it: key, lock and the agent's right
(R78, R87, R88, R89, R391). An unlock is consumed by the write it admits. -/
def admitWrite (s : State) (ag : Agent) (a v : Nat) : Bool × State :=
  let p := a / 0x1000
  if pageBarred ag p then (false, guardRefused s p) else
  match findReg a with
  | none => (true, s)
  | some (row, _) =>
    let changes := (mergeFields row (rd s a) v).1 != rd s a
    let refuse := (false, if changes then guardRefused s p else s)
    if row.acc = .rwl then
      if guardShut s p && !debugWrite s ag p then refuse
      else (true, s)
    else if row.acc = .rwk ∨ guardedRwi a = true then
      if debugWrite s ag p then (true, s)
      else if guardShut s p then refuse
      else if unlockArmed s p ag then (true, dropUnlock s p ag)
      else (false, guardRefused s p)
    else (true, s)

/-! ### Taking effect -/

/-- A write to a block register without behaviour of its own takes effect by its access code (R10, R11, R66). -/
def applyPlain (s : State) (a v : Nat) : State :=
  match findReg a with
  | none => s
  | some (row, _) =>
    if row.acc = .ro ∨ row.acc = .wo then s
    else if rangeBad s a v then configRejected s (a / 0x1000)
    else if row.acc = .rws then
      let m := mergeFields row (rdShadow s a) v
      let s := wrShadow s a m.1
      if m.2 then configRejected s (a / 0x1000) else s
    else if row.wide = .low then
      { s with rf := { s.rf with staged := smPut s.rf.staged a (BitVec.ofNat 32 (v &&& row.mask)) } }
    else
      let m := mergeFields row (rd s a) v
      let s := wr s a m.1
      let s := if row.wide = .high then
          match s.rf.staged.find? (fun e => e.1 == a - 4) with
          | some e => wr { s with rf := { s.rf with staged := smDel s.rf.staged (a - 4) } } (a - 4) e.2.toNat
          | none => s
        else s
      if m.2 then configRejected s (a / 0x1000) else s

/-- An admitted write enters its page's queue and requests a wake of a held domain; a full queue discards it (R78, R79). -/
def postWrite (s : State) (ag : Agent) (a v : Nat) : State :=
  let p := a / 0x1000
  if (postedOf s p).length < 16 then
    wakeRequest (setPosted s p (postedOf s p ++ [{ agent := ag, addr := a, value := BitVec.ofNat 32 v }])) (pageDomain p)
  else raise (wrF s (hdrAddr p 0x00C) 1 1 1) p 0x2000

/-- The address holds an RWS register, or PAGE_CTL whose enable is RWS. -/
def isRws (a : Nat) : Bool :=
  (a % 0x1000 == 0x008 && hasHeader (a / 0x1000)) ||
  (match findReg a with
   | some (row, _) => row.acc == .rws
   | none => false)

/-- A write that has reached a page and whose effect is at hand: it waits behind earlier posted writes of the page, and
for a held domain; RWS writes go to the shadow on arrival (R78, R80). -/
def orderedWrite (s : State) (ag : Agent) (a v : Nat) (eff : State → State) : State :=
  let p := a / 0x1000
  if isRws a || !isPosted p || ((postedOf s p).isEmpty && holdLevel s (pageDomain p) == 0) then eff s else postWrite s ag a v

/-- A named write at a block register: admitted or refused at the fabric interface; then its effect takes place in its
turn. -/
def namedWrite (s : State) (ag : Agent) (a v : Nat) (eff : State → State) : State :=
  asAgent s ag (fun s =>
    match admitWrite s ag a v with
    | (false, s) => s
    | (true, s) => orderedWrite s ag a v eff)

/-- A named write of an RWI field: admitted or refused at the fabric interface; it bypasses the queue (R86). -/
def immediateWrite (s : State) (ag : Agent) (a v : Nat) (eff : State → State) : State :=
  asAgent s ag (fun s =>
    match admitWrite s ag a v with
    | (false, s) => s
    | (true, s) => eff s)

/-! ### KEY, LOCK and the events of a page -/

/-- A write to KEY of page `p` (R87 to R89). -/
def writeKey (s : State) (ag : Agent) (p v : Nat) : State :=
  if hasHeader p = false then s
  else if guardShut s p then guardRefused s p
  else
    let s := dropUnlock s p ag
    if fldN v 15 0 = 0x7E57 ∧ fldN v 27 16 = p then
      { s with rf := { s.rf with unlocks := s.rf.unlocks ++ [{ page := p, agent := ag, lapse := s.ridge + 10000 }] } }
    else guardRefused s p

/-- A write to LOCK of page `p`: 1 sets, 0 has no effect (Table 3.3). -/
def writeLock (s : State) (p v : Nat) : State :=
  if hasHeader p && bitN v 0 then wr s (hdrAddr p 0x044) 1 else s

/-- A write to EVT_ACK of page `p`, evaluated (R71); acknowledging WRITE_REFUSED clears PAGE_BUSY.refused. -/
def writeEvtAck (s : State) (p mask seq : Nat) : State :=
  if hasHeader p = false then s
  else
    let e := rd s (hdrAddr p 0x010)
    if fldN e 23 16 = seq % 256 then
      let kept := fldN e 15 0 - (fldN e 15 0 &&& mask)
      let s := wr (wr s (hdrAddr p 0x010) (2 ^ 16 * fldN e 23 16 + kept)) (hdrAddr p 0x014) (2 ^ 16 * (seq % 256))
      if bitN mask 13 then wrF s (hdrAddr p 0x00C) 1 1 0 else s
    else wr s (hdrAddr p 0x014) (2 ^ 16 * (seq % 256) + 2 ^ 31)

/-- A write to MBX_SEL of page `p`: 0 cancels a pending capture, another selector requests one (R74, R75). -/
def writeMbxSel (s : State) (p sel : Nat) : State :=
  if hasHeader p = false then s
  else
    let s := wr s (hdrAddr p 0x020) (sel % 256)
    let s := wrF s (hdrAddr p 0x024) 1 0 0
    let rest := s.rf.captures.filter (fun c => c.1 != p)
    { s with rf := { s.rf with captures := if sel % 256 = 0 then rest else rest ++ [(p, sel % 256)] } }

/-- A write to PAGE_CTL of page `p`: the enable is RWS, the update group RWL (R68, R89); a `signed` value of the
configuration is written whatever the guard (R91). -/
def writePageCtl (s : State) (p v : Nat) (signed : Bool := false) : State :=
  let s := match pageInfo p with
    | some i => if i.unit then wrShadow s (hdrAddr p 0x008) (0x100 * b2n (bitN v 8)) else s
    | none => s
  if fldN v 3 0 = pageGroup s p then s
  else if guardShut s p && !signed then guardRefused s p
  else wrF s (hdrAddr p 0x008) 3 0 (fldN v 3 0)

/-- A write to a header register takes effect (Table 3.2). -/
def applyHeader (s : State) (ag : Agent) (a v : Nat) : State :=
  let p := a / 0x1000
  let o := a % 0x1000
  if o = 0x008 then writePageCtl s p v
  else if o = 0x014 then writeEvtAck s p (fldN v 15 0) (fldN v 23 16)
  else if o = 0x018 then wr s a (fldN v 15 0)
  else if o = 0x020 then writeMbxSel s p (fldN v 7 0)
  else if o = 0x040 then writeKey s ag p v
  else if o = 0x044 then writeLock s p v
  else s

/-! ### Update groups (R81 to R85) -/

/-- An update group. -/
def groupOf (s : State) (g : Nat) : Group := smGet (fun _ => {}) s.rf.groups g

/-- Replace an update group; UPDATE_PENDING follows. -/
def setGroup (s : State) (g : Nat) (x : Group) : State :=
  wrF { s with rf := { s.rf with groups := smSet (fun _ => {}) s.rf.groups g x } } A.UPDATE_PENDING g g (b2n x.armed)

/-- The frame group an update group is bound to (Table 3.5). -/
def groupFg (s : State) (g : Nat) : Nat :=
  if g < 8 then rdF s A.UPDATE_FG_LO (3 * g + 2) (3 * g) else rdF s A.UPDATE_FG_HI (3 * (g - 8) + 2) (3 * (g - 8))

/-- The RWS addresses of two maps on pages that satisfy a condition. -/
def rwsKeys (m n : List (Nat × Word)) (q : Nat → Bool) : List Nat :=
  ((m.map (·.1)) ++ (n.map (·.1))).filter (fun a => isRws a && q (a / 0x1000))

/-- Copy the shadow of the group's pages into the pending copy (R81). -/
def copyShadow (s : State) (g : Nat) : State :=
  let ks := rwsKeys s.rf.shadow s.rf.pend (fun p => pageGroup s p == g)
  let new := ks.map (fun a => (a, smGet regDefault s.rf.shadow a))
  { s with rf := { s.rf with pend := smSetAll regDefault s.rf.pend new } }

/-- Copy the pending copies of some pages into the live copies. -/
def copyPending (s : State) (q : Nat → Bool) : State :=
  let ks := rwsKeys s.rf.pend s.rf.live q
  let new := ks.map (fun a =>
    let w := smGet regDefault s.rf.pend a
    (a, if a % 0x1000 = 0x008 then BitVec.ofNat 32 (setFldN (rd s a) 8 8 (fld w 8 8)) else w))
  { s with rf := { s.rf with live := smSetAll regDefault s.rf.live new } }

/-- A strobe of group `g` that arrives now (R81, R83, R84). -/
def strobeGroup (s : State) (g : Nat) : State :=
  let was := (groupOf s g).armed
  let s := copyShadow s g
  let b := if rdB s A.UPDATE_MODE g && fgOn s (groupFg s g) then some (groupFg s g) else none
  let s := setGroup s g { groupOf s g with armed := true, boundary := b, due := s.ridge + 1000 }
  if was then raise s 0x001 2 else s

/-- A write to UPDATE_STROBE (R81). -/
def writeStrobe (s : State) (mask : Nat) : State :=
  (List.range 16).foldl (fun s g => if bitN mask g then strobeGroup s g else s) s

/-- An armed group applies at ridge count `t`: pages of running domains at once, pages of held domains on their
wake (R83). -/
def applyGroup (s : State) (g t : Nat) : State :=
  let s := copyPending s (fun p => pageGroup s p == g && holdLevel s (pageDomain p) == 0)
  let late := (rwsKeys s.rf.pend s.rf.live (fun p => pageGroup s p == g && holdLevel s (pageDomain p) != 0)).map
    (fun a => a / 0x1000)
  let s := { s with rf := { s.rf with deferred := (s.rf.deferred ++ late).dedup } }
  let x := groupOf s g
  let s := setGroup s g { x with armed := false, boundary := none, lastT := t, applied := (x.applied + 1) % 2 ^ 32 }
  raise s 0x001 1

/-- Pages whose domain has woken apply their pending copies before the domain resumes work (R83). -/
def applyDeferred (s : State) (d : Nat) : State :=
  let s := copyPending s (fun p => s.rf.deferred.contains p && pageDomain p == d)
  { s with rf := { s.rf with deferred := s.rf.deferred.filter (fun p => pageDomain p != d) } }

/-- Groups armed at the boundary of a frame group that is disabled at ridge count `d` apply at d + 1000 (R83). -/
def releaseBoundary (s : State) (fg d : Nat) : State :=
  (List.range 16).foldl (fun s g =>
    let x := groupOf s g
    if x.armed && x.boundary == some fg then setGroup s g { x with boundary := none, due := d + 1000 } else s) s

/-! ### Commands -/

/-- EVT_ACK: an acknowledgement of page `page` is evaluated. -/
def execEvtAck (agent : Agent) (page : BitVec 12) (mask : BitVec 16) (seq : BitVec 8) (s : State) :
    Host.Outcome State Fault Refusal :=
  whenOn (fun s => pageWrite s agent page.toNat (fun s =>
    orderedWrite s agent (hdrAddr page.toNat 0x014) (mask.toNat + 65536 * seq.toNat)
      (fun s => writeEvtAck s page.toNat mask.toNat seq.toNat))) s

/-- MBX_SEL_CAPTURE: a selector is written to MBX_SEL. -/
def execMbxSelCapture (agent : Agent) (page : BitVec 12) (sel : BitVec 8) (s : State) : Host.Outcome State Fault Refusal :=
  whenOn (fun s => pageWrite s agent page.toNat (fun s =>
    orderedWrite s agent (hdrAddr page.toNat 0x020) sel.toNat (fun s => writeMbxSel s page.toNat sel.toNat))) s

/-- MBX_SEL_CANCEL: selector 0x00 is written to MBX_SEL. -/
def execMbxSelCancel (agent : Agent) (page : BitVec 12) (s : State) : Host.Outcome State Fault Refusal :=
  whenOn (fun s => pageWrite s agent page.toNat (fun s =>
    orderedWrite s agent (hdrAddr page.toNat 0x020) 0 (fun s => writeMbxSel s page.toNat 0))) s

/-- KEY: a write to KEY, which is judged at the page's fabric interface. -/
def execKey (agent : Agent) (page : BitVec 12) (v : Word) (s : State) : Host.Outcome State Fault Refusal :=
  whenOn (fun s => pageWrite s agent page.toNat (fun s => writeKey s agent page.toNat v.toNat)) s

/-- UNLOCK_LAPSE: an armed unlock whose 10,000 ticks have passed lapses (R87). -/
def execUnlockLapse (agent : Agent) (page : BitVec 12) (s : State) : Host.Outcome State Fault Refusal :=
  whenOn (fun s =>
    let gone (u : Unlock) : Bool := u.page == page.toNat && u.agent == agent && decide (u.lapse ≤ s.ridge)
    { s with rf := { s.rf with unlocks := s.rf.unlocks.filter (fun u => !gone u) } }) s

/-- LOCK: a write to LOCK. -/
def execLock (agent : Agent) (page : BitVec 12) (bit : Bool) (s : State) : Host.Outcome State Fault Refusal :=
  whenOn (fun s => pageWrite s agent page.toNat (fun s => writeLock s page.toNat (b2n bit))) s

/-- UPDATE_STROBE: a write to UPDATE_STROBE. -/
def execUpdateStrobe (agent : Agent) (mask : BitVec 16) (s : State) : Host.Outcome State Fault Refusal :=
  whenOn (fun s => asAgent s agent (fun s => writeStrobe s mask.toNat)) s

end Sys2Proof.Machine
end

