-- ==== Sys2Proof/Machine/Scratch.lean ====
section
/-!
DEFINITION. Rolls (R297 to R303), the patrol scrubbers (R286, R378) and the injection of scratch errors (R305).
-/

namespace Sys2Proof.Machine

/-! ### Rolls -/

/-- Roll `r` of cluster `c` beside its registers. -/
def rollOf (s : State) (c r : Nat) : Roll := smGet (fun _ => {}) s.rolls (64 * c + r)

/-- Replace roll `r` of cluster `c`. -/
def setRoll (s : State) (c r : Nat) (x : Roll) : State :=
  { s with rolls := smSet (fun _ => {}) s.rolls (64 * c + r) x }

/-- The page of roll `r` of cluster `c` (R306). -/
def rollPage (c r : Nat) : Nat := 0x111 + 0x40 * c + r / 32

/-- The size of a roll in bytes (R297). -/
def rollSize (s : State) (c r : Nat) : Nat := 2 ^ (12 + rdF s (A.ROLL_CTL c (r / 32) (r % 32)) 4 1)

/-- The base of a roll as an offset in scratch. -/
def rollBase (s : State) (c r : Nat) : Nat := 4096 * rdF s (A.ROLL_BASE c (r / 32) (r % 32)) 25 12

/-- The roll is enabled. -/
def rollOn (s : State) (c r : Nat) : Bool := rdB s (A.ROLL_CTL c (r / 32) (r % 32)) 0

/-- ROLL_HEAD. -/
def rollHead (s : State) (c r : Nat) : Nat := rd s (A.ROLL_HEAD c (r / 32) (r % 32))
/-- ROLL_TAIL. -/
def rollTail (s : State) (c r : Nat) : Nat := rd s (A.ROLL_TAIL c (r / 32) (r % 32))
/-- ROLL_RESERVE. -/
def rollReserved (s : State) (c r : Nat) : Nat := rd s (A.ROLL_RESERVE c (r / 32) (r % 32))
/-- ROLL_PEG. -/
def rollPeg (s : State) (c r : Nat) : Nat := rdF s (A.ROLL_PEG c (r / 32) (r % 32)) 15 0

/-- The difference of two positions modulo 2^32. -/
def posDiff (a b : Nat) : Nat := (a + 2 ^ 32 - b % 2 ^ 32) % 2 ^ 32

/-- No operation references the roll. -/
def rollIdle (s : State) (c r : Nat) : Bool :=
  (rollOf s c r).refs.isEmpty && (rollOf s c r).resv.isEmpty && (rollOf s c r).waiting.isEmpty

/-- A configuration with control word `ctl` is valid (R297). -/
def rollConfigOk (s : State) (c r ctl : Nat) : Bool :=
  let code := fldN ctl 4 1
  let size := 2 ^ (12 + code)
  let base := rollBase s c r
  let peg := rollPeg s c r
  decide (code ≤ 12) && base % size == 0 && decide (base + size ≤ 0x03000000) &&
    (List.range 64).all (fun q => q == r || !rollOn s c q ||
      decide (base + size ≤ rollBase s c q) || decide (rollBase s c q + rollSize s c q ≤ base)) &&
    refWellFormed peg && (!refNames peg || pegMode (pegAt s peg) == 2)

/-- Head, tail and the reservation pointer become zero. -/
def rollZero (s : State) (c r : Nat) : State :=
  wr (wr (wr s (A.ROLL_HEAD c (r / 32) (r % 32)) 0) (A.ROLL_TAIL c (r / 32) (r % 32)) 0)
    (A.ROLL_RESERVE c (r / 32) (r % 32)) 0

/-- A write of ROLL_CTL takes effect: only while the roll is idle; an enable is checked and zeroes the positions
(R297, Table 10.10). An enable that is ignored leaves a disabled roll's other fields to take their values (R10). -/
def applyRollCtl (s : State) (c r v : Nat) : State :=
  if rollIdle s c r = false then s
  else if bitN v 0 then
    if rollConfigOk s c r v then rollZero (wr s (A.ROLL_CTL c (r / 32) (r % 32)) (v % 128)) c r
    else if rollOn s c r then configRejected s (rollPage c r)
    else configRejected (wr s (A.ROLL_CTL c (r / 32) (r % 32)) (setFldN (v % 128) 0 0 0)) (rollPage c r)
  else wr s (A.ROLL_CTL c (r / 32) (r % 32)) (v % 128)

/-- A roll reference (Table 10.6): kind 1 peek, 2 consume, 3 append. -/
structure RollRef where
  kind : Nat
  roll : Nat
  offset : Nat
  deriving DecidableEq, Repr

/-- Bit 63 tells a roll reference from an address. -/
def isRollRef (v : Nat) : Bool := bitN v 63

/-- Read a roll reference. -/
def rollRef (v : Nat) : RollRef := { kind := fldN v 62 61, roll := fldN v 57 52, offset := v % 2 ^ 32 }

/-- The status with which validation rejects a roll reference of extent `b`; 0 when it passes (R299). -/
def rollRefStatus (s : State) (c v b : Nat) : Nat :=
  let f := rollRef v
  let ctl := A.ROLL_CTL c (f.roll / 32) (f.roll % 32)
  if fldN v 60 58 ≠ 0 ∨ fldN v 51 32 ≠ 0 ∨ (f.kind = 3 ∧ f.offset ≠ 0) ∨ f.kind = 0 then St.ROLL_DISABLED
  else if rollOn s c f.roll = false then St.ROLL_DISABLED
  else if (f.kind = 3 ∧ rdB s ctl 5 = true) ∨ (f.kind ≠ 3 ∧ rdB s ctl 6 = true) then St.ROLL_DISABLED
  else if f.kind = 3 ∧ rollSize s c f.roll < b then St.ROLL_TOO_LARGE
  else 0

/-- The local address of position `p` of a roll (R298). -/
def rollByte (s : State) (c r p : Nat) : Nat := scratchBase c + rollBase s c r + p % rollSize s c r

/-- An append reserves its span, or waits for the tail (R300). -/
def rollReserve (s : State) (c r op field exec len frame cls : Nat) : State :=
  let x := rollOf s c r
  let p := rollReserved s c r
  if x.waiting.isEmpty && decide (posDiff p (rollTail s c r) + len ≤ rollSize s c r) then
    let s := setRoll s c r { x with resv := x.resv ++
      [{ op := op, field := field, exec := exec, start := p, len := len, frame := frame, cls := cls }] }
    wr s (A.ROLL_RESERVE c (r / 32) (r % 32)) ((p + len) % 2 ^ 32)
  else
    bumpSat (setRoll s c r { x with waiting := x.waiting ++
      [{ op := op, field := field, exec := exec, len := len, frame := frame, cls := cls }] })
      (A.ROLL_FULL_WAITS c (r / 32) (r % 32)) 1

/-- The instance and the job that a live execution sequence belongs to; none for a retired one (R350). -/
def findExec (s : State) (exec : Nat) : Option (Instance × JobRun) :=
  s.insts.findSome? (fun x =>
    (x.jobs.find? (fun j => j.stage == .running && j.exec == exec)).map (fun j => (x, j)))

/-- The sequence of the pod that started the instance of a firing (R542). -/
def execEcho (s : State) (exec : Nat) : Nat :=
  match findExec s exec with
  | some (x, _) => x.seq
  | none => 0

/-- The oldest waiting append of a roll reserves its span when space allows (R300). -/
def rollGrant (s : State) (c r : Nat) : State :=
  let x := rollOf s c r
  match x.waiting with
  | [] => s
  | w :: t =>
    let p := rollReserved s c r
    if posDiff p (rollTail s c r) + w.len ≤ rollSize s c r then
      let s := setRoll s c r { x with waiting := t, resv := x.resv ++
        [{ op := w.op, field := w.field, exec := w.exec, start := p, len := w.len, frame := w.frame, cls := w.cls }] }
      wr s (A.ROLL_RESERVE c (r / 32) (r % 32)) ((p + w.len) % 2 ^ 32)
    else s

/-- The writes of an operation's append have been performed. -/
def rollPerformed (s : State) (c r op : Nat) : State :=
  let x := rollOf s c r
  setRoll s c r { x with resv := x.resv.map (fun v => if v.op = op then { v with performed := true } else v) }

/-- Commit one reservation: the head advances and ROLL_PEG counts its bytes (R300). -/
def rollCommitOne (s : State) (c r : Nat) (v : Reservation) : State :=
  let s := wr s (A.ROLL_HEAD c (r / 32) (r % 32)) ((rollHead s c r + v.len) % 2 ^ 32)
  let s := pegInc s (rollPeg s c r) .byte v.len (some v.frame) v.cls (execEcho s v.exec)
  if v.voided then
    let s := raise (bumpSat s (A.ROLL_VOIDED c (r / 32) (r % 32)) 1) (rollPage c r) 0x10
    report s { source := 0x0EC + c, status := St.ROLL_SPAN_VOIDED, detail := r, cls := v.cls, echo := execEcho s v.exec }
  else s

/-- Commit, in reservation order, every performed reservation ahead of the first that is not (R300). -/
def rollCommit (s : State) (c r : Nat) : State :=
  let x := rollOf s c r
  let ready := x.resv.takeWhile (·.performed)
  ready.foldl (fun s v => rollCommitOne s c r v)
    (setRoll s c r { x with resv := x.resv.dropWhile (·.performed) })

/-- Zero bytes are written at positions of a roll, whole words at a time, wrapping at the end of its region. -/
def rollZeroSpan (s : State) (c r start len : Nat) : State :=
  let k := min len (rollSize s c r - start % rollSize s c r)
  let put (s : State) (p n : Nat) : State :=
    eccWrite (memZero s (rollByte s c r p) n) (eccWords (rollByte s c r p) n)
  let s := put s start k
  if k < len then put s ((start + k) % 2 ^ 32) (len - k) else s

/-- The reservations of a job that ends without having committed them are voided, those whose writes are performed but
that an earlier reservation still holds included, and its waiting appends are withdrawn (R300). -/
def rollVoid (s : State) (c r exec : Nat) : State :=
  let x := rollOf s c r
  let mine (v : Reservation) : Bool := v.exec == exec && !v.voided
  let s := (x.resv.filter mine).foldl (fun s v => rollZeroSpan s c r v.start v.len) s
  let s := setRoll s c r { x with
    resv := x.resv.map (fun v => if mine v then { v with performed := true, voided := true } else v),
    waiting := x.waiting.filter (fun w => w.exec != exec) }
  if x.resv.any mine then rollCommit s c r else s

/-- Void the reservations of a job in every roll (R300). -/
def rollVoidAll (s : State) (exec : Nat) : State :=
  (List.range 256).foldl (fun s k => rollVoid s (k / 64) (k % 64) exec) s

/-- ROLL_SPAN_ERROR of a roll (R301). -/
def rollSpanError (s : State) (c r cls echo : Nat) : State :=
  let s := raise (bumpSat s (A.ROLL_SPAN_ERRORS c (r / 32) (r % 32)) 1) (rollPage c r) 1
  report s { source := 0x0EC + c, status := St.ROLL_SPAN_ERROR, detail := r, cls := cls, echo := echo }

/-- The span of a peek or consume lies in the live span (R301). -/
def rollInSpan (s : State) (c r offset b : Nat) : Bool :=
  decide (offset + b ≤ posDiff (rollHead s c r) (rollTail s c r))

/-- A consume starts: it will advance the tail to `upTo` (R301). -/
def rollConsumeStart (s : State) (c r op exec upTo : Nat) : State :=
  let x := rollOf s c r
  setRoll s c r { x with consumes := x.consumes ++ [{ op := op, exec := exec, upTo := upTo }] }

/-- The tail advances past the consumes that are done, in the order in which they started (R301). -/
def rollAdvance (s : State) (c r : Nat) : State :=
  let x := rollOf s c r
  let s := setRoll s c r { x with consumes := x.consumes.dropWhile (·.done) }
  match (x.consumes.takeWhile (·.done)).getLast? with
  | some v => wr s (A.ROLL_TAIL c (r / 32) (r % 32)) v.upTo
  | none => s

/-- A consume completes (R301). -/
def rollConsumed (s : State) (c r op : Nat) : State :=
  let x := rollOf s c r
  rollAdvance (setRoll s c r { x with
    consumes := x.consumes.map (fun v => if v.op = op then { v with done := true } else v) }) c r

/-- An operation references a roll, however many of its operands name it. -/
def rollRefer (s : State) (c r op : Nat) : State :=
  let x := rollOf s c r
  if x.refs.contains op then s else setRoll s c r { x with refs := x.refs ++ [op] }

/-- An operation no longer references any roll of its cluster; a consume of it that did not complete is
withdrawn, and later ones that are done advance the tail. -/
def rollRelease (s : State) (c op : Nat) : State :=
  (List.range 64).foldl (fun s r =>
    let x := rollOf s c r
    rollAdvance (setRoll s c r { x with
      refs := x.refs.filter (· != op), consumes := x.consumes.filter (fun v => v.op != op || v.done) }) c r) s

/-- An external producer's commit of `v` bytes (R302). -/
def applyRollCommit (s : State) (c r v : Nat) : State :=
  let ctl := A.ROLL_CTL c (r / 32) (r % 32)
  if rollOn s c r && rdB s ctl 5 then
    if posDiff (rollHead s c r) (rollTail s c r) + v ≤ rollSize s c r then
      let s := wr s (A.ROLL_HEAD c (r / 32) (r % 32)) ((rollHead s c r + v) % 2 ^ 32)
      pegInc s (rollPeg s c r) .byte v none
    else raise s (rollPage c r) 2
  else s

/-- An external consumer's release of `v` bytes (R302). -/
def applyRollRelease (s : State) (c r v : Nat) : State :=
  let ctl := A.ROLL_CTL c (r / 32) (r % 32)
  if rollOn s c r && rdB s ctl 6 then
    if v ≤ posDiff (rollHead s c r) (rollTail s c r) then
      wr s (A.ROLL_TAIL c (r / 32) (r % 32)) ((rollTail s c r + v) % 2 ^ 32)
    else raise (bumpSat s (A.ROLL_SPAN_ERRORS c (r / 32) (r % 32)) 1) (rollPage c r) 1
  else s

/-- A write of 1 to ROLL_RESET (R303). -/
def applyRollReset (s : State) (c r v : Nat) : State :=
  if bitN v 0 = false then s
  else if (rollOf s c r).refs.isEmpty then
    rollZero (setRoll s c r {}) c r
  else raise s (rollPage c r) 8

/-- ROLL_STATUS (Table 10.10): only an enabled roll is empty or full, since the word reads 0 after reset. -/
def rollStatus (s : State) (c r : Nat) : Nat :=
  let x := rollOf s c r
  let used := posDiff (rollHead s c r) (rollTail s c r)
  b2n (rollOn s c r) + 2 * b2n (rollOn s c r && used == 0) + 4 * b2n (rollOn s c r && used == rollSize s c r) + 8 * b2n (!x.waiting.isEmpty)
    + 16 * (x.refs.length % 256)

/-- The rolls enabled in a cluster (SCR_STATUS). -/
def rollsEnabled (s : State) (c : Nat) : Nat := (List.range 64).countP (fun r => rollOn s c r)

/-! ### Commands -/

/-- ROLL_ENABLE: a write of ROLL_CTL with enable = 1. -/
def execRollEnable (agent : Agent) (c : Fin 4) (r : Fin 64) (ctl : Word) (s : State) :
    Host.Outcome State Fault Refusal :=
  whenOn (fun s =>
    let v := ctl.toNat ||| 1
    namedWrite s agent (A.ROLL_CTL c.val (r.val / 32) (r.val % 32)) v (fun s => applyRollCtl s c.val r.val v)) s

/-- ROLL_APPEND_RESERVE: the oldest waiting append of a roll takes its span. -/
def execRollAppendReserve (c : Fin 4) (r : Fin 64) (s : State) : Host.Outcome State Fault Refusal :=
  whenOn (fun s => rollGrant s c.val r.val) s

/-- ROLL_APPEND_COMMIT: performed appends of a roll commit in reservation order. -/
def execRollAppendCommit (c : Fin 4) (r : Fin 64) (s : State) : Host.Outcome State Fault Refusal :=
  whenOn (fun s => rollCommit s c.val r.val) s

/-- ROLL_COMMIT: an external producer commits. -/
def execRollCommit (agent : Agent) (c : Fin 4) (r : Fin 64) (v : Word) (s : State) :
    Host.Outcome State Fault Refusal :=
  whenOn (fun s => namedWrite s agent (A.ROLL_COMMIT c.val (r.val / 32) (r.val % 32)) v.toNat
    (fun s => applyRollCommit s c.val r.val v.toNat)) s

/-- ROLL_RELEASE: an external consumer releases. -/
def execRollRelease (agent : Agent) (c : Fin 4) (r : Fin 64) (v : Word) (s : State) :
    Host.Outcome State Fault Refusal :=
  whenOn (fun s => namedWrite s agent (A.ROLL_RELEASE c.val (r.val / 32) (r.val % 32)) v.toNat
    (fun s => applyRollRelease s c.val r.val v.toNat)) s

/-- ROLL_RESET: a write of 1 to ROLL_RESET. -/
def execRollReset (agent : Agent) (c : Fin 4) (r : Fin 64) (s : State) : Host.Outcome State Fault Refusal :=
  whenOn (fun s => namedWrite s agent (A.ROLL_RESET c.val (r.val / 32) (r.val % 32)) 1
    (fun s => applyRollReset s c.val r.val 1)) s

/-- SCR_INJECT: a guarded write arms bit flips in the next word a bank writes (R305). -/
def execScrInject (agent : Agent) (c : Fin 4) (v : Word) (s : State) : Host.Outcome State Fault Refusal :=
  whenOn (fun s => namedWrite s agent (A.SCR_INJECT c.val) v.toNat
    (fun s => applyPlain s (A.SCR_INJECT c.val) v.toNat)) s

/-- The pass of scrubber `u`: 0 to 3 a cluster's, 4 the one of DRAM. -/
def scrubOf (s : State) (u : Nat) : Scrub := smGet (fun _ => {}) s.scrubs u

/-- Replace it. -/
def setScrub (s : State) (u : Nat) (x : Scrub) : State := { s with scrubs := smSet (fun _ => {}) s.scrubs u x }

/-- The first address and the unit of what scrubber `u` reads, and how many units a pass has (R286, R378). -/
def scrubSpan (u : Nat) : Nat × Nat × Nat :=
  if u < 4 then (scratchBase u, 128, 0x03000000 / 128) else (0x1000000000, 64, 0x2000000000 / 64)

/-- The configuration register of scrubber `u`. -/
def scrubCfg (u : Nat) : Nat := if u < 4 then A.SCR_SCRUB_CFG u else A.MEM_SCRUB_CFG

/-- Scrubber `u` is enabled. -/
def scrubOn (s : State) (u : Nat) : Bool := rdB s (scrubCfg u) 16

/-- A pass of scrubber `u` is under way. -/
def scrubRuns (s : State) (u : Nat) : Bool :=
  scrubOn s u && (scrubOf s u).started && decide ((scrubOf s u).done < (scrubSpan u).2.2)

/-- A patrol scrubber reads a range: single errors are corrected, uncorrectable ones reported (R286, R378). -/
def scrubRead (s : State) (a n : Nat) : State :=
  ((eccWords a n).foldl (eccReadWord true 0 0 0) (0, s)).2

/-- A scrubber's next unit is read: the pass begins with its first and counts as completed with its last. A pass that is
complete waits for its period to end. -/
def scrubStep (s : State) (u : Nat) : State :=
  let x := scrubOf s u
  let sp := scrubSpan u
  let a := sp.1 + sp.2.1 * x.done
  if sp.2.2 ≤ x.done then s
  else
    let y : Scrub := { x with started := true, startAt := if x.started then x.startAt else s.ridge, done := x.done + 1 }
    let s := scrubRead (countWords (setScrub (extWait s .scrubber a) u y) false [a]) a sp.2.1
    if y.done = sp.2.2 then bump s (if u < 4 then A.SCR_SCRUB_PASSES u else A.MEM_SCRUB_PASSES) 1 else s

/-- The next word that a scrubber reads is upset, or comes back from a wrong address of its channel (R375). -/
def scrubUpset (s : State) (u : Nat) (upset : Option Upset) : State :=
  let sp := scrubSpan u
  let w := sp.1 + sp.2.1 * (scrubOf s u).done
  match upset with
  | none => s
  | some (.syms l) => upsetWord s w (l.map (·.val))
  | some .address => if u < 4 then s else eccUncorrectable s w { syms := [], injected := false } true 0 0 0

/-- A scrubber reads its next `n` units. -/
def scrubReads : Nat → State → Nat → State
  | 0, s, _ => s
  | n + 1, s, u => scrubReads n (scrubStep s u) u

/-- A scrubber's period ends `unit` nanoseconds times its period after its pass began: an overrun is counted and flagged,
and the next pass starts at once (R286, R378). With `complete` the units that were left of the pass have been read by then. -/
def scrubPeriod (s : State) (u period unit : Nat) (complete : Bool) (lag : State → State) : State :=
  let x := scrubOf s u
  if !scrubOn s u || !x.started || decide (s.ridge < x.startAt + unit * period) then s
  else
    let left := (scrubSpan u).2.2 - x.done
    let s := setScrub (if complete then scrubReads left s u else s) u { started := true, startAt := s.ridge, done := 0 }
    if !complete && decide (0 < left) then lag s else s

/-- SCRATCH_SCRUB_PASS: a scratch scrub period ends (R286); `complete` tells whether the pass was read to its end. -/
def execScratchScrubPass (c : Fin 4) (complete : Bool) (s : State) : Host.Outcome State Fault Refusal :=
  whenOn (fun s => scrubPeriod s c.val (rdF s (A.SCR_SCRUB_CFG c.val) 15 0) 1000000 complete
    (fun s => raise (bumpSat s (A.SCR_SCRUB_LAG c.val) 1) (0x110 + 0x40 * c.val) 8)) s

/-- PATROL_SCRUB_READ: scrubber `u` reads its next granule or codeword; `upset` is what has befallen the next word of it. -/
def execPatrolScrubRead (u : Fin 5) (upset : Option Upset) (s : State) : Host.Outcome State Fault Refusal :=
  whenOn (fun s => if scrubOn s u.val then scrubStep (scrubUpset s u.val upset) u.val else s) s

end Sys2Proof.Machine
end

