-- ==== Sys2Proof/Machine/PodCore.lean ====
section
/-!
DEFINITION. Pods from their bytes to their completion: layout, stream loss, origin windows, retention, fences and
the ordered release of completions (R33 to R50).
-/

namespace Sys2Proof.Machine

/-! ### Layout (Tables 2.1 and 2.2) -/

/-- Read a pod header. -/
def parseHeader (b : List Byte) : PodHeader :=
  { version := fldN (leAt b 0 1) 3 0, kind := fldN (leAt b 0 1) 7 4, cls := fldN (leAt b 1 1) 1 0,
    flags := fldN (leAt b 1 1) 7 2, length := leAt b 2 2, origin := leAt b 4 2, target := leAt b 6 2,
    sequence := leAt b 8 4, frame := leAt b 12 4, operation := leAt b 16 2, completionPeg := leAt b 18 2,
    waitPeg := leAt b 20 2, waitTarget := leAt b 22 2, launch := leAt b 24 8 }

/-- Flag FENCE_W (Table 2.3; the header keeps byte 1 bits [7:2]). -/
def fenceW (h : PodHeader) : Bool := bitN h.flags 0
/-- Flag FENCE_ALL. -/
def fenceAll (h : PodHeader) : Bool := bitN h.flags 1
/-- Flag ORDERED. -/
def ordered (h : PodHeader) : Bool := bitN h.flags 2
/-- Flag TIMED. -/
def timed (h : PodHeader) : Bool := bitN h.flags 3
/-- Flag RETAIN. -/
def retain (h : PodHeader) : Bool := bitN h.flags 4

/-- A length that is invalid for every kind (R39). -/
def lengthInvalid (n : Nat) : Bool := n == 0 || n == 1 || n == 0xFFFF

/-- The greatest length of a kind sent to the device (Table 2.4); nothing for other kinds. -/
def kindMax (k : Nat) : Option Nat :=
  if k = 1 then some 0x0800 else if k = 2 then some 0xFFFE else if k = 3 then some 0xFFFE
  else if k = 4 then some 0x0080 else none

/-- Steps 1 to 6 of Table 2.8 in order: the first failing status, or 0. -/
def headerStatus (h : PodHeader) : Nat :=
  if h.version ≠ 1 then St.VERSION_UNSUPPORTED
  else match kindMax h.kind with
  | none => St.KIND_INVALID
  | some m =>
    if h.cls = 0 then St.CLASS_INVALID
    else if lengthInvalid h.length then St.LENGTH_INVALID
    else if m < h.length then St.LENGTH_EXCEEDED
    else if bitN h.flags 5 ∨ (h.kind = 2 ∧ (h.target % 256 ≠ 0 ∨ h.operation ≠ 0))
        ∨ refWellFormed h.completionPeg = false ∨ refWellFormed h.waitPeg = false
        ∨ (refNames h.waitPeg = false ∧ h.waitTarget ≠ 0) ∨ (timed h = false ∧ h.launch ≠ 0) then
      St.RESERVED_NONZERO
    else 0

/-- The bytes of a pod the device sends (R542), from ring sequence `seq`. -/
def outBytes (s : State) (p : OutPod) (seq : Nat) : List Byte :=
  let n := 32 * outUnits p
  let head := leBytes 1 (1 + 16 * p.kind) ++ leBytes 1 (p.cls + 4 * b2n p.resent) ++ leBytes 2 (outUnits p)
    ++ leBytes 2 (256 * originByte s + p.slot) ++ zeros 2 ++ leBytes 4 seq ++ leBytes 4 p.frame
    ++ leBytes 2 p.operation ++ zeros 14
  let pre := head ++ padTo (n - 48) p.body ++ leBytes 4 p.echo ++ leBytes 2 p.status ++ zeros 6
  pre ++ leBytes 4 (crc32c pre)

/-! ### Stream loss (R40 to R42) -/

/-- The pod stream is lost. -/
def streamIsLost (s : State) : Bool := rdF s A.POD_STATE 1 0 == 1

/-- The stream position of the first byte that has not been framed. -/
def framePos (s : State) : Nat := (rd s A.POD_STREAM_POS + 2 ^ 32 - s.pods.stream.length) % 2 ^ 32

/-- Stream loss starts with a status, detected at a stream position (R42): what is buffered is discarded and STREAM_LOST is
sent. `flags` are the flags of page 0x0E1 that its detection sets together; `cls` and `echo` are those of the pod whose failure
caused it, if one did (R542). -/
def streamLoss (s : State) (st pos flags : Nat) (cls : Nat := 0) (echo : Nat := 0) : State :=
  let s := wr { s with pods := { s.pods with stream := [], skip := 0 } } A.POD_STATE (1 + 2 ^ 16 * st)
  let s := if flags = 0 then s else raise s 0x0E1 flags
  let f := s.pods.lastFramed.getD (0, 0)
  sendEvent s Ev.STREAM_LOST cls 0 echo st
    (leBytes 2 st ++ zeros 2 ++ leBytes 4 pos ++ leBytes 2 f.1 ++ zeros 2 ++ leBytes 4 f.2)

/-- A pod is rejected: POD_REJECTED with its header as received (R43, Table 2.17). Where the same failure starts stream
loss, `flags` holds the flag of both (R70: one cycle). -/
def podReject (s : State) (hdr : List Byte) (st : Nat) (flags : Nat := 1) : State :=
  let h := parseHeader hdr
  let s := raise (bumpSat s A.POD_REJECT_COUNT 1) 0x0E1 flags
  let s := if st = St.CLASS_UNAVAILABLE then raise s 0x004 1 else s
  sendEvent s Ev.POD_REJECTED h.cls h.frame h.sequence st (padTo 32 hdr ++ leBytes 2 st ++ zeros 14)

/-! ### The receive ring (R41) -/

/-- Bytes of the receive ring. -/
def rxRingSize (s : State) : Nat := 0x400000 * 2 ^ rdF s A.POD_RING_CFG 2 0

/-- POD_CREDIT: free bytes of the receive ring. -/
def podCredit (s : State) : Nat := rxRingSize s - (s.pods.rx.map (fun p => 32 * p.hdr.length)).sum

/-- A received pod by its arrival number. -/
def podAt (s : State) (no : Nat) : Option RxPod := s.pods.rx.find? (fun p => p.no == no)

/-- The class of a received pod. -/
def podCls (s : State) (no : Nat) : Nat := (podAt s no).elim 0 (·.hdr.cls)

/-- The sequence of a received pod. -/
def podEcho (s : State) (no : Nat) : Nat := (podAt s no).elim 0 (·.hdr.sequence)

/-- Change a received pod. -/
def updatePod (s : State) (no : Nat) (f : RxPod → RxPod) : State :=
  { s with pods := { s.pods with rx := s.pods.rx.map (fun p => if p.no = no then f p else p) } }

/-! ### Origin windows (R46 to R50) -/

/-- The open window of an origin. -/
def windowOf (s : State) (o : Nat) : Option Window := s.pods.windows.find? (fun w => w.origin == o)

/-- Replace the windows; ORIGIN_OPEN counts them. -/
def setWindows (s : State) (ws : List Window) : State :=
  wr { s with pods := { s.pods with windows := ws } } A.ORIGIN_OPEN ws.length

/-- Change the window of an origin. -/
def updateWindow (s : State) (o : Nat) (f : Window → Window) : State :=
  setWindows s (s.pods.windows.map (fun w => if w.origin = o then f w else w))

/-- The record of a sequence in a window. -/
def seqRec (w : Window) (q : Nat) : Option SeqRec := w.marks.find? (fun r => r.seq == q)

/-- Set what the window of an origin knows of a sequence. -/
def markState (s : State) (o q : Nat) (st : SeqState) : State :=
  updateWindow s o (fun w => { w with marks := w.marks.map (fun r => if r.seq = q then { r with state := st } else r) })

/-- The signed distance of a sequence from the head (R47). -/
def seqDist (q head : Nat) : Int := sgn 32 (q + 2 ^ 32 - head % 2 ^ 32)

/-- A sequence lies in the window of head `h` (R47). -/
def inWindow (h q : Nat) : Bool := decide (-4096 < seqDist q h ∧ seqDist q h ≤ 0)

/-- Mark a sequence; marks and retained results behind the window leave it (R47, R49). -/
def markSeq (s : State) (o q : Nat) (st : SeqState) : State :=
  match windowOf s o with
  | none => setWindows s (s.pods.windows ++ [{ origin := o, head := q, marks := [{ seq := q, state := st }] }])
  | some w =>
    let head := if 0 < seqDist q w.head then q else w.head
    let s := updateWindow s o (fun w => { w with
      head := head, marks := w.marks.filter (fun r => inWindow head r.seq) ++ [{ seq := q, state := st }] })
    { s with pods := { s.pods with retained := s.pods.retained.filter (fun x => x.origin != o || inWindow head x.seq) } }

/-! ### The retention store (R49) -/

/-- Bytes of the retention store. -/
def retainSize (s : State) : Nat := 0x1000000 * 2 ^ rdF s A.RETAIN_CFG 1 0

/-- Bytes of a retained result. -/
def retainedBytes (x : Retained) : Nat := (x.pods.map (fun p => 32 * outUnits p.2)).sum

/-- Free the oldest retained results until the rest fit `cap`: what is left, and how many were freed. -/
def retainFit (cap : Nat) : List Retained → List Retained × Nat
  | [] => ([], 0)
  | x :: t =>
    if ((x :: t).map retainedBytes).sum ≤ cap then (x :: t, 0)
    else ((retainFit cap t).1, (retainFit cap t).2 + 1)

/-- Free retained results until they fit; each counts in RETAIN_FREED. -/
def retainTrim (s : State) : State :=
  let r := retainFit (retainSize s) s.pods.retained
  bumpSat { s with pods := { s.pods with retained := r.1 } } A.RETAIN_FREED r.2

/-- A result of an original was retained before. -/
def everRetained (s : State) (o q : Nat) : Bool :=
  match windowOf s o with
  | some w => (seqRec w q).any (·.everRetained)
  | none => true

/-- Keep a result pod of an original with the others of it; where those have been freed, it is not kept either, so that no
original is left with a part of its results (R49). -/
def retainPod (s : State) (o q ring : Nat) (p : OutPod) : State :=
  let rs := s.pods.retained
  if rs.any (fun x => x.origin == o && x.seq == q) then
    let rs := rs.map (fun x => if x.origin = o ∧ x.seq = q then { x with pods := x.pods ++ [(ring, p)] } else x)
    retainTrim { s with pods := { s.pods with retained := rs } }
  else if everRetained s o q then s
  else
    let s := updateWindow s o (fun w => { w with
      marks := w.marks.map (fun r => if r.seq = q then { r with everRetained := true } else r) })
    retainTrim { s with pods := { s.pods with retained := rs ++ [{ origin := o, seq := q, pods := [(ring, p)] }] } }

/-! ### Result pods on their way out (R361, R362, R469) -/

/-- A result or tarp pod is dropped: counted, reported to the host, and in class S to the collector
(R360, R361). `never` tells a pod its ring could never take. Only the 16 rings of the block have a counter. -/
def dropResult (s : State) (r : Nat) (p : OutPod) (never : Bool) : State :=
  let s := raise (if r < 16 then bumpSat s (A.RING_DROPS r) 1 else s) 0x0E0 8
  let s := sendEvent s Ev.RESULT_DROPPED p.cls p.frame p.echo St.RESULT_DROPPED
    (padTo 8 p.body ++ leBytes 2 p.operation ++ leBytes 1 r ++ leBytes 1 (b2n (p.kind == 0xB) + 2 * b2n never)
      ++ leBytes 4 p.echo ++ leBytes 8 s.ridge ++ zeros 8)
  if p.cls = clsS then
    report s { source := 0x103, status := St.RESULT_DROPPED, cls := clsS, echo := p.echo, detail := leAt p.body 4 2 % 4096 }
  else s

/-- A result or tarp pod goes to its ring, and is retained where its cause asks for it (R49, R360). -/
def sendResult (s : State) (r : Nat) (p : OutPod) : State :=
  if unwritable s r p then dropResult s r p true else enqueue s r p

/-- A tarp with the tag of a result pod (R469). -/
def tarpOf (p : OutPod) : OutPod :=
  let t := parseTag (leAt p.body 0 8)
  { p with kind := 0xB, status := St.INVALID, body := tagBytes { t with flags := t.flags ||| flVoid } ++ zeros 8 }

/-- Release a result pod, or in safe state the tarp in its place (R362, R469). -/
def sendRelease (s : State) (r : Nat) (p : OutPod) : State :=
  sendResult s r (if safeState s && p.kind == 8 then tarpOf p else p)

/-! ### Answers to duplicates (R50) -/

/-- Answer a duplicate of a sequence (R50, Table 2.9). -/
def answerDuplicate (s : State) (o q cls : Nat) (r : SeqRec) : State :=
  let s := raise (bumpSat s A.DUP_COUNT 1) 0x0E2 1
  let kept := s.pods.retained.find? (fun x => x.origin == o && x.seq == q)
  let event (st code : Nat) : State :=
    sendEvent s Ev.DUPLICATE cls 0 q St.DUPLICATE
      (leBytes 4 q ++ leBytes 2 st ++ leBytes 1 code ++ leBytes 1 (b2n r.everRetained) ++ leBytes 2 o ++ zeros 6)
  match r.state, kept with
  | .completed _, some k => k.pods.foldl (fun s p => sendResult s p.1 { p.2 with resent := true }) s
  | .completed st, none => event st 2
  | .queued, _ => event 0 0
  | .running, _ => event 0 1
  | .rejected st, _ => event st 3

/-! ### Completion (R35, R41, Table 2.3) -/

/-- The agent of a pod: the host, or the device that its origin names (Table 2.1). -/
def podAgent (h : PodHeader) : Agent := if h.origin / 256 = 0 then .host else .remote (BitVec.ofNat 8 (h.origin / 256))

/-- The status with which a pod ends: one that names an unconfigured peg ends PEG_UNCONFIGURED (R294). -/
def endStatus (s : State) (p : RxPod) (st : Nat) : Nat :=
  if st = 0 ∧ pegUnconfigured s p.hdr.completionPeg = true then St.PEG_UNCONFIGURED else st

/-- A pod's completion is released: its peg counts, its held results go out, its ring space returns. An unconfigured peg takes no
increment (R292, R294). -/
def releasePod (s : State) (p : RxPod) (st : Nat) : State :=
  let s := p.held.foldl (fun s x => sendRelease s x.1 x.2) s
  let e := endStatus s p st
  let s := if pegUnconfigured s p.hdr.completionPeg then s
    else releaseInc s (podAgent p.hdr) p.hdr.completionPeg .count 1 (some p.hdr.frame) p.hdr.cls p.hdr.sequence
  let s := markState s p.hdr.origin p.hdr.sequence (.completed e)
  updateWindow s p.hdr.origin (fun w => { w with completed := w.completed + 1 })

/-- Release, in arrival order, every done pod that no earlier ORDERED pod of its origin holds back. -/
def releasePods (s : State) : State :=
  let go (acc : State × List RxPod × List Nat) (p : RxPod) : State × List RxPod × List Nat :=
    match p.stage with
    | .done st =>
      if ordered p.hdr && acc.2.2.contains p.hdr.origin then (acc.1, acc.2.1 ++ [p], acc.2.2)
      else (releasePod acc.1 p st, acc.2.1, acc.2.2)
    | _ => (acc.1, acc.2.1 ++ [p], if ordered p.hdr then p.hdr.origin :: acc.2.2 else acc.2.2)
  let r := s.pods.rx.foldl go (s, [], [])
  { r.1 with pods := { r.1.pods with rx := r.2.1 } }

/-- A pod completes with a status. -/
def podComplete (s : State) (no st : Nat) : State :=
  releasePods (updatePod s no (fun p => { p with stage := .done st }))

/-- A pod is rejected by a check that follows Table 2.8's window steps: recorded, and its ring space returned. -/
def podRejectLate (s : State) (p : RxPod) (hdr : List Byte) (st : Nat) : State :=
  let s := { s with pods := { s.pods with rx := s.pods.rx.filter (fun x => x.no != p.no) } }
  podReject (markState s p.hdr.origin p.hdr.sequence (.rejected st)) hdr st

/-- A result pod of a received pod: held while an earlier ORDERED pod of its origin is not done (Table 2.3). -/
def emitFor (s : State) (no : Option Nat) (r : Nat) (p : OutPod) : State :=
  match no.bind (podAt s) with
  | none => sendResult s r p
  | some x =>
    let p : OutPod := if retain x.hdr then { p with uid := s.nextId } else p
    let s := if retain x.hdr then retainPod { s with nextId := s.nextId + 1 } x.hdr.origin x.hdr.sequence r p else s
    if ordered x.hdr && s.pods.rx.any (fun y => y.hdr.origin == x.hdr.origin && decide (y.no < x.no) && ordered y.hdr) then
      updatePod s x.no (fun y => { y with held := y.held ++ [(r, p)] })
    else sendResult s r p

/-- A running pod of a kind, selected by `q`, that its section has not yet taken: the pod, and the state in which it
is taken. -/
def takePod (s : State) (no kind : Nat) (q : PodHeader → Bool) : Option (RxPod × State) :=
  match podAt s no with
  | some p =>
    if p.stage = .running ∧ p.taken = false ∧ p.hdr.kind = kind ∧ q p.hdr = true then
      some (p, updatePod s no (fun p => { p with taken := true }))
    else none
  | none => none

/-- A control pod addresses an operation of a section (R36). -/
def isControl (sect op : Nat) (h : PodHeader) : Bool := h.target % 256 == sect && h.operation == op

/-! ### Start conditions (R35, R61) -/

/-- A write of the host through BAR2 that arrived before a host pod and has not been performed (R61). -/
def hostWriteBefore (s : State) (p : RxPod) : Bool :=
  podAgent p.hdr == .host && s.outWrites.any (fun w => w.agent == .host && w.pod.isNone && decide (w.before ≤ p.no))

/-- The fences of a pod are met: every earlier pod of its origin has completed, and so has every earlier host write through
BAR2 (R61). -/
def fencesMet (s : State) (p : RxPod) : Bool :=
  (!fenceW p.hdr && !fenceAll p.hdr) ||
    !hostWriteBefore s p && s.pods.rx.all (fun q => q.hdr.origin != p.hdr.origin || decide (p.no ≤ q.no) ||
      (match q.stage with | .done _ => true | _ => false))

/-- The wait peg has reached its target, now or before (R293). -/
def waitIsMet (s : State) (p : RxPod) : Bool := p.waitMet || pegMet s p.hdr.waitPeg p.hdr.waitTarget none

/-- The three start conditions hold together (R35). -/
def startable (s : State) (p : RxPod) : Bool :=
  fencesMet s p && waitIsMet s p && (!timed p.hdr || decide (p.hdr.launch ≤ s.ridge))

end Sys2Proof.Machine
end

