-- ==== Sys2Proof/Machine/SeqCore.lean ====
section
/-!
DEFINITION. The sequence engine's memory: the directory, map slots and pages, views, and what the end of a job or of an
instance does to them (R307 to R311, R322 to R325).
-/

namespace Sys2Proof.Machine

/-! ### Regions -/

/-- Base of the directory. -/
def seqDir (s : State) : Nat := rdWide s A.SEQ_DIR_BASE_LO
/-- Base of the work region. -/
def seqWork (s : State) : Nat := rdWide s A.SEQ_WORK_BASE_LO
/-- Base of the pool. -/
def seqPool (s : State) : Nat := rdWide s A.SEQ_POOL_BASE_LO
/-- Pages of the pool (Table 11.1). -/
def poolPages (s : State) : Nat := 65536 * rdF s A.SEQ_POOL_SIZE 5 0
/-- Pages set aside for class S. -/
def poolShareS (s : State) : Nat := rdF s A.SEQ_POOL_S 21 0
/-- The engine is enabled. -/
def seqOn (s : State) : Bool := rdB s A.SEQ_CTL 0

/-! ### Directory entries (R310) -/

/-- A directory entry (Table 11.2). -/
structure SeqEntry where
  state : Nat
  cls : Nat
  stats : Bool
  recompute : Bool
  vTok : Bool
  recompSlot : Nat
  layers : Nat
  kp : Nat
  vp : Nat
  maxBlocks : Nat
  window : Nat
  sink : Nat
  recent : Nat
  stream : Nat
  tokens : Nat
  live : Nat
  dropped : Nat
  mapPages : Nat
  recompEntry : Nat
  aux : Nat
  /-- The map page words. -/
  map : List Nat
  version : Nat
  deriving DecidableEq, Repr

/-- Read bytes 0 to 59 of an entry. -/
def parseEntry (b : List Byte) : SeqEntry :=
  let w := leAt b 0 2
  { state := fldN w 1 0, cls := fldN w 3 2, stats := bitN w 4, recompute := bitN w 5, vTok := bitN w 6,
    recompSlot := fldN w 15 8, layers := fldN (leAt b 2 1) 5 0 + 1, kp := fldN (leAt b 3 1) 2 0,
    vp := fldN (leAt b 3 1) 5 3, maxBlocks := fldN (leAt b 4 2) 11 0 + 1, window := leAt b 6 1,
    sink := leAt b 8 1, recent := leAt b 9 1, stream := fldN (leAt b 10 2) 11 0, tokens := leAt b 12 4,
    live := leAt b 16 2, dropped := leAt b 18 2, mapPages := leAt b 20 1, recompEntry := leAt b 22 2,
    aux := leAt b 24 8, map := (List.range 6).map (fun i => leAt b (32 + 4 * i) 4), version := leAt b 56 4 }

/-- The 64 bytes of an entry, with its CRC-32C. -/
def entryBytes (e : SeqEntry) : List Byte :=
  let b := leBytes 2 (e.state + 4 * e.cls + 16 * b2n e.stats + 32 * b2n e.recompute + 64 * b2n e.vTok
      + 256 * e.recompSlot)
    ++ leBytes 1 (e.layers - 1) ++ leBytes 1 (e.kp + 8 * e.vp) ++ leBytes 2 (e.maxBlocks - 1) ++ leBytes 1 e.window
    ++ leBytes 1 0 ++ leBytes 1 e.sink ++ leBytes 1 e.recent ++ leBytes 2 e.stream ++ leBytes 4 e.tokens
    ++ leBytes 2 e.live ++ leBytes 2 e.dropped ++ leBytes 1 e.mapPages ++ leBytes 1 0 ++ leBytes 2 e.recompEntry
    ++ leBytes 8 e.aux ++ (e.map.flatMap (leBytes 4)) ++ leBytes 4 e.version
  b ++ leBytes 4 (crc32c b)

/-- Pages per block and layer. -/
def SeqEntry.ppb (e : SeqEntry) : Nat := e.kp + e.vp
/-- Token-row pages per block and layer. -/
def SeqEntry.tokPages (e : SeqEntry) : Nat := e.kp + (if e.vTok then e.vp else 0)
/-- S, the bytes of a block slot (R311). -/
def SeqEntry.slotSize (e : SeqEntry) : Nat :=
  roundUp (16 + 4 * e.layers * e.ppb + 128 * e.layers * e.tokPages) 64
/-- The bytes of the map (R311). -/
def SeqEntry.mapSize (e : SeqEntry) : Nat := 256 + e.maxBlocks * e.slotSize
/-- The pages of the map. -/
def SeqEntry.mapCount (e : SeqEntry) : Nat := ceilDiv e.mapSize 16384
/-- Pages a class S context commits (R319). -/
def SeqEntry.commitment (e : SeqEntry) : Nat := e.ppb * e.layers * e.maxBlocks + e.mapCount

/-- What a checked read gives: a value, or the status that ends the reader. -/
inductive SeqRead (α : Type) where
  | ok (v : α)
  | bad (status : Nat)
  deriving DecidableEq, Repr

/-- Every byte of a list is zero: nothing was ever written there, and no CRC is looked for (log entry 41). -/
def allZero (b : List Byte) : Bool := b.all (· == 0)

/-- Read the entry of a context, by its CRC (R308). -/
def readEntry (s : State) (i : Nat) : SeqRead SeqEntry × State :=
  match memRead s .sequence (seqDir s + 64 * i) 64 with
  | (0, b, s) =>
    if allZero b || crc32c (b.take 60) == leAt b 60 4 then (.ok (parseEntry b), s) else (.bad St.MAP_CORRUPT, s)
  | (st, _, s) => (.bad st, s)

/-- The entry of a context as it stands in memory. -/
def entryOf (s : State) (i : Nat) : SeqEntry := parseEntry (memBytes s (seqDir s + 64 * i) 64)

/-- Write the entry of a context. -/
def writeEntry (s : State) (i : Nat) (e : SeqEntry) : State :=
  (memWrite s .sequence (seqDir s + 64 * i) (entryBytes e)).2

/-! ### Map slots (R311) -/

/-- The address of byte `o` of the concatenated map pages. -/
def mapAddr (s : State) (e : SeqEntry) (o : Nat) : Nat :=
  seqPool s + 16384 * ((e.map.getD (o / 16384) 0) % 2 ^ 21) + o % 16384

/-- Read `n` bytes of the map, page by page. -/
def mapRead (e : SeqEntry) : Nat → State → Nat → Nat → Nat × List Byte × State
  | 0, s, _, n => (0, zeros n, s)
  | fuel + 1, s, o, n =>
    if n = 0 then (0, [], s)
    else
      let k := min n (16384 - o % 16384)
      match memRead s .sequence (mapAddr s e o) k with
      | (0, b, s) =>
        match mapRead e fuel s (o + k) (n - k) with
        | (st, b', s) => (st, b ++ b', s)
      | (st, b, s) => (st, b ++ zeros (n - k), s)

/-- Write bytes of the map, page by page. -/
def mapWrite (e : SeqEntry) : Nat → State → Nat → List Byte → State
  | 0, s, _, _ => s
  | fuel + 1, s, o, b =>
    if b.isEmpty then s
    else
      let k := min b.length (16384 - o % 16384)
      mapWrite e fuel (memWrite s .sequence (mapAddr s e o) (b.take k)).2 (o + k) (b.drop k)

/-- The bytes of a slot, with its CRC-32C. -/
def slotBytes (e : SeqEntry) (x : SeqSlot) : List Byte :=
  let h := leBytes 4 x.pos ++ leBytes 4 x.frame ++ leBytes 1 (x.state + 4 * (x.fill - 1)) ++ leBytes 1 x.flags
    ++ leBytes 2 x.imp
  let t := padTo (e.slotSize - 16) (x.pages.flatMap (leBytes 4) ++ x.scales.flatMap (leBytes 2))
  h ++ leBytes 4 (crc32c (h ++ t)) ++ t

/-- Read a slot's bytes. -/
def parseSlot (e : SeqEntry) (b : List Byte) : SeqSlot :=
  let n := e.layers * e.ppb
  { pos := leAt b 0 4, frame := leAt b 4 4, state := leAt b 8 1 % 4, fill := fldN (leAt b 8 1) 7 2 + 1,
    flags := leAt b 9 1, imp := leAt b 10 2,
    pages := (List.range n).map (fun i => leAt b (16 + 4 * i) 4),
    scales := (List.range (64 * e.layers * e.tokPages)).map (fun i => leAt b (16 + 4 * n + 2 * i) 2) }

/-- Read slot `i` of a context, by its CRC (R308). -/
def readSlot (s : State) (e : SeqEntry) (i : Nat) : SeqRead SeqSlot × State :=
  match mapRead e 8 s (256 + i * e.slotSize) e.slotSize with
  | (0, b, s) =>
    if allZero b || crc32c (b.take 12 ++ b.drop 16) == leAt b 12 4 then (.ok (parseSlot e b), s)
    else (.bad St.MAP_CORRUPT, s)
  | (st, _, s) => (.bad st, s)

/-- The block of a position, where its slot still holds it, by the slot's CRC (R308). -/
def slotOfPos (s : State) (e : SeqEntry) (pos : Nat) : SeqRead (Option SeqSlot) × State :=
  match readSlot s e (pos % e.maxBlocks) with
  | (.ok x, s) => (.ok (if x.pos = pos ∧ (x.state = 1 ∨ x.state = 2) then some x else none), s)
  | (.bad st, s) => (.bad st, s)

/-- The blocks of positions that are still in the map, or the first status that stops the read. -/
def slotsOf (s : State) (e : SeqEntry) (ps : List Nat) : SeqRead (List SeqSlot) × State :=
  ps.foldl (fun acc p =>
    match acc with
    | (.ok l, s) =>
      match slotOfPos s e p with
      | (.ok x, s) => (.ok (l ++ x.toList), s)
      | (.bad st, s) => (.bad st, s)
    | (.bad st, s) => (.bad st, s)) (.ok [], s)

/-- Write slot `i` of a context. -/
def writeSlot (s : State) (e : SeqEntry) (i : Nat) (x : SeqSlot) : State :=
  mapWrite e 8 s (256 + i * e.slotSize) (slotBytes e x)

/-- Every slot of a context in slot order, or the first status that stops the read. -/
def readSlots (s : State) (e : SeqEntry) : SeqRead (List (Nat × SeqSlot)) × State :=
  (List.range e.maxBlocks).foldl (fun acc i =>
    match acc with
    | (.ok l, s) =>
      match readSlot s e i with
      | (.ok x, s) => (.ok (l ++ [(i, x)]), s)
      | (.bad st, s) => (.bad st, s)
    | (.bad st, s) => (.bad st, s)) (.ok [], s)

/-! ### Pages of the pool (R309, R319) -/

/-- Change the engine's own state. -/
def setSeq (s : State) (f : SeqEngine → SeqEngine) : State := { s with seq := f s.seq }

/-- Pages of a share in use. -/
def pagesUsed (s : State) (shareS : Bool) : Nat := s.seq.used.countP (fun p => p.2 == shareS)

/-- SEQ_POOL_FREE: free pages outside the class S share. -/
def poolFree (s : State) : Nat := poolPages s - poolShareS s - pagesUsed s false

/-- The registers that follow the pool; POOL_LOW is set when the free pages fall below the watermark (R337). -/
def poolRegs (s : State) : State :=
  let was := rd s A.SEQ_POOL_FREE
  let now := if seqOn s then poolFree s else 0
  let low := rdF s A.SEQ_POOL_LOW 21 0
  let s := wr (wr s A.SEQ_POOL_FREE now) A.SEQ_POOL_S_COMMIT ((s.seq.commits.map (·.2)).sum)
  if low ≤ was ∧ now < low then raise s 0x200 1 else s

/-- Free pages, by number; each may be any page of the pool that is not in use, and which one is taken is left open
(log entry 4). -/
def pickPages : Nat → State → Bool → List Nat × State
  | 0, s, _ => ([], s)
  | n + 1, s, shareS =>
    match drawFree s with
    | (v, s) =>
      let inUse := s.seq.used.map (·.1)
      let free := (List.range (poolPages s)).filter (fun p => !inUse.contains p)
      match free[v % free.length]? with
      | none => ([], s)
      | some p =>
        match pickPages n (setSeq s (fun q => { q with used := (p, shareS) :: q.used })) shareS with
        | (ps, s) => (p :: ps, s)

/-- Take pages of a share. -/
def allocPages (s : State) (n : Nat) (shareS : Bool) : List Nat × State :=
  match pickPages n s shareS with
  | (ps, s) => (ps, poolRegs s)

/-- Free pages. -/
def freePages (s : State) (ps : List Nat) : State :=
  poolRegs (setSeq s (fun q => { q with used := q.used.filter (fun p => !ps.contains p.1) }))

/-- Class S pages are taken only from the class S share: `n` more, once `freed` of its pages are free again, must wait
while it lacks them (R319, log entry 156). -/
def shareShort (s : State) (cls n freed : Nat) : Bool :=
  cls == clsS && decide (poolShareS s + freed < pagesUsed s true + n)

/-- The page numbers of valid page entries. -/
def validPages (ws : List Nat) : List Nat := (ws.filter (fun w => bitN w 31)).map (· % 2 ^ 21)

/-! ### Views (R323 to R325) -/

/-- The address of a cache frame. -/
def cacheFrame (i : Nat) : Nat := 0x20000000 + 16384 * i

/-- SEQ_CACHE_USED follows the live views. -/
def viewRegs (s : State) : State := wr s A.SEQ_CACHE_USED ((s.seq.views.map (·.frames)).sum)

/-- Release the views that satisfy a condition. -/
def dropViews (s : State) (q : SeqView → Bool) : State :=
  viewRegs (setSeq s (fun e => { e with views := e.views.filter (fun v => !q v) }))

/-- Two spans of frames overlap. -/
def framesOverlap (a n b m : Nat) : Bool := decide (a < b + m ∧ b < a + n)

/-! ### Commands and requests in the engine (R320, R331, R335) -/

/-- Recompute requests that dispatch has. -/
def requestsOut (s : State) : Nat := s.seq.requests.countP (·.sent)

/-- A request that waits is sent once fewer than 4,096 are outstanding, the oldest first (R335). -/
def sendRequests : Nat → State → State
  | 0, s => s
  | fuel + 1, s =>
    match s.seq.requests.find? (fun r => !r.sent) with
    | none => s
    | some r =>
      if 4096 ≤ requestsOut s then s
      else
        let s := setSeq s (fun q => { q with requests := q.requests.map (fun y =>
          if y.ctx = r.ctx ∧ y.pos = r.pos then { y with sent := true, at_ := s.ridge } else y) })
        sendRequests fuel { s with starts := s.starts ++ [(r.slot, r.start)] }

/-- Pages that a commit replaced are free once no STAGE copies them (R320, R326). -/
def releaseHeld (s : State) : State :=
  let copied := s.seq.cmds.flatMap (fun c => c.picks.flatMap (fun x => validPages x.pages))
  let free := s.seq.held.filter (fun p => !copied.contains p)
  if free.isEmpty then s
  else freePages (setSeq s (fun q => { q with held := q.held.filter copied.contains })) free

/-- What follows a change of the commands or of the requests that the engine holds. -/
def seqRegs (s : State) : State :=
  let s := sendRequests s.seq.requests.length (releaseHeld s)
  wrF (wr s A.SEQ_RECOMP_PENDING (requestsOut s)) A.SEQ_STATUS 8 4 s.seq.cmds.length

/-! ### The end of a job or of an instance (R322, R325) -/

/-- Discard an open group: its pages are freed and its blocks stay uncommitted; a slot being written is empty
again, and a block that it was extending stays as it was (R322). -/
def discardGroup (s : State) (g : SeqGroup) : State :=
  let e := entryOf s g.ctx
  let s := g.blocks.foldl (fun s b =>
    let i := b.pos % e.maxBlocks
    if g.pos ≤ 64 * b.pos then writeSlot s e i {}
    else
      match readSlot s e i with
      | (.ok x, s) => if x.state = 3 then writeSlot s e i {} else s
      | (.bad _, s) => s) s
  let s := freePages s (g.blocks.flatMap (fun b => validPages b.pages))
  setSeq s (fun q => { q with groups := q.groups.filter (fun h => h.ctx != g.ctx) })

/-- Whether a command was issued by a firing of a job. -/
def issuedBy (exec : Nat) (c : SeqCmd) : Bool :=
  match c.issuer with
  | .job x _ _ _ => x == exec
  | .pod _ => false

/-- Whether a command was issued by a job of an instance. -/
def issuedByInst (inst : Nat) (c : SeqCmd) : Bool :=
  match c.issuer with
  | .job _ _ i _ => i == inst
  | .pod _ => false

/-- The firing `exec` of a job has ended: its open group is discarded and its commands stop (R322). -/
def seqJobEnded (s : State) (exec : Nat) : State :=
  let s := (s.seq.groups.filter (fun g => g.exec == exec)).foldl discardGroup s
  seqRegs (setSeq s (fun q => { q with
    cmds := q.cmds.filter (fun c => !issuedBy exec c)
    failed := q.failed.filter (fun c => !issuedBy exec c.1) }))

/-- An instance has ended: its views are released, and no STAGE of it goes on (R325). -/
def seqInstEnded (s : State) (inst : Nat) : State :=
  let s := dropViews s (fun v => v.inst == inst)
  seqRegs (setSeq s (fun q => { q with
    cmds := q.cmds.filter (fun c => !(issuedByInst inst c && leAt c.bytes 0 1 / 16 == 4)) }))

/-- No job of an instance goes on: its commands stop, and a block that it was restoring stays dropped. -/
def seqInstGone (s : State) (inst : Nat) : State :=
  let gone := s.seq.restoring.filter (fun r => r.inst == inst)
  let s := freePages s (gone.flatMap (fun r => validPages r.block.pages))
  let s := setSeq s (fun q => { q with restoring := q.restoring.filter (fun r => r.inst != inst) })
  seqRegs (setSeq s (fun q => { q with
    cmds := q.cmds.filter (fun c => !issuedByInst inst c)
    failed := q.failed.filter (fun c => !issuedByInst inst c.1) }))

end Sys2Proof.Machine
end

