-- ==== Sys2Proof/Machine/Jobs.lean ====
section
/-!
DEFINITION. Graph instances: their jobs' waits, execution sequences, status words, result pods, and what the end of a
job and of an instance does (R25, R27, R322, R325, R345 to R350, R362, R363, R439, R469).
-/

namespace Sys2Proof.Machine

/-! ### Graphs, instances and firings -/

/-- The graph of a slot. -/
def graphOf (s : State) (slot : Nat) : Option Graph := smGet (fun _ => none) s.graphs slot

/-- Replace the graph of a slot. -/
def setGraph (s : State) (slot : Nat) (g : Option Graph) : State :=
  { s with graphs := smSet (fun _ => none) s.graphs slot g }

/-- The instances that have not ended. -/
def activeInsts (s : State) : List Instance := s.insts.filter (fun x => x.life == .active)

/-- An instance or a job of one is at work. -/
def anyRuns (s : State) : Bool :=
  s.insts.any (fun x => x.life == .active || x.jobs.any (fun j => j.stage == .running))

/-- DSP_STATUS and DSP_JOBS_FREE follow the graphs and instances (Table 12.10). -/
def dspRegs (s : State) : State :=
  let gs := s.graphs.filterMap (·.2)
  wr (wr s A.DSP_STATUS (gs.length + 65536 * (activeInsts s).length)) A.DSP_JOBS_FREE
    (16384 - (gs.map (fun g => g.jobs.length)).sum)

/-- Change an instance. -/
def updInst (s : State) (id : Nat) (f : Instance → Instance) : State :=
  { s with insts := s.insts.map (fun x => if x.id = id then f x else x) }

/-- Change a job of an instance. -/
def updJob (s : State) (id j : Nat) (f : JobRun → JobRun) : State :=
  updInst s id (fun x => { x with jobs := x.jobs.map (fun r => if r.entry.index = j then f r else r) })

/-- A firmware processor. -/
def coreAt (s : State) (k : Nat) : FwCore := smGet (fun _ => {}) s.cores k

/-- A scheduler or control core does not run, is stopped by its checker, or is halted under debug (R448, R450, R505): it
issues nothing. -/
def coreStalled (s : State) (k : Nat) : Bool :=
  let c := coreAt s k
  !c.running || c.stopped || (c.halted0 && c.halted1)

/-- The clock domains a job uses (Table 3.1, R530). -/
def jobDomains (j : JobRun) : List Nat :=
  if j.entry.unit ≤ 4 then [6 + j.cluster, 10 + j.cluster] else if j.entry.unit = 5 then [14] else [5]

/-- Every domain a job uses is at H0 (R530). -/
def jobAwake (s : State) (j : JobRun) : Bool := (jobDomains j).all (fun d => holdLevel s d == 0)

/-- A completion that carries a retired execution sequence is discarded and counted (R350). -/
def lateDiscard (s : State) : State := bumpSat s A.DSP_LATE_DISCARD 1

/-- The completions of a firing count: its sequence is not retired, and no deadline has passed (R347, R350). -/
def execCounts (s : State) (exec : Nat) : Bool :=
  match findExec s exec with
  | some (x, _) => x.life != .cut
  | none => false

/-- A descriptor or command of a firing has completed; where its completions no longer count, that is discarded. -/
def descDone (s : State) (exec : Nat) : State :=
  let s := if execCounts s exec then s else lateDiscard s
  match findExec s exec with
  | some (x, j) => updJob s x.id j.entry.index (fun r => { r with finished := r.finished + 1 })
  | none => s

/-- Set job-status flags [22:16] of the instance of a firing (R346); `f` counts from bit 16. -/
def jobFlags (s : State) (exec f : Nat) : State :=
  match findExec s exec with
  | some (x, _) => updInst s x.id (fun y => { y with flags := y.flags ||| f })
  | none => s

/-- RENARROW_CLAMPED. -/
abbrev jfClamped : Nat := 1
/-- KV_SATURATED. -/
abbrev jfKvSat : Nat := 2
/-- CMP_SATURATED. -/
abbrev jfCmpSat : Nat := 4
/-- VEC_DOMAIN. -/
abbrev jfDomain : Nat := 8
/-- VIEW_TRUNCATED. -/
abbrev jfTruncated : Nat := 16
/-- RESTORE_DISCARDED. -/
abbrev jfRestore : Nat := 32
/-- Re-executed. -/
abbrev jfReexec : Nat := 64

/-- The status word of an instance (R346). -/
def statusWord (x : Instance) : Nat := x.status + 65536 * x.flags

/-- The effective timeout of a job in ticks (R348). -/
def effTimeout (e : JobEntry) : Nat := max (1000 * e.timeout) (2000 * max 1 e.hops + 50000)

/-- Jobs of a cluster that are queued or running. -/
def clusterLoad (s : State) (c : Nat) : Nat :=
  (s.insts.map (fun x => x.jobs.countP (fun j => j.stage == .running && decide (j.entry.unit ≤ 4) && j.cluster == c))).sum

/-- The clusters that may run a class (Table 2.16). -/
def classClusters (s : State) (cls : Nat) : List Nat :=
  (List.range 4).filter (fun c => bitN (rdF s A.CLS_CLUSTERS 11 0) (4 * (cls - 1) + c))

/-- The cluster of a job (R345): the one it names; for unit 4 the least loaded permitted one, or with STRICT the one
that its index names, or the next permitted one upward. -/
def placeJob (s : State) (cls : Nat) (e : JobEntry) : Nat :=
  if e.unit < 4 then e.unit
  else
    let ok := classClusters s cls
    if strict s then
      (((List.range 4).map (fun i => (e.index + i) % 4)).find? (fun c => ok.contains c)).getD (e.index % 4)
    else ok.foldl (fun b c => if clusterLoad s c < clusterLoad s b then c else b) (ok.getD 0 0)

/-! ### Result pods (R362, R439, R469) -/

/-- The tag of a result pod (R27): formed from the tag at result_addr. -/
def resultTag (x : Instance) (e : JobEntry) (t : Tag) : Tag := outputTag x.frame x.tagCls e.stream [t]

/-- The body of a result pod (R362); its status word and its trailer agree (R542). -/
def resultBody (x : Instance) (t : Tag) (content : List Byte) (status : Nat) : List Byte :=
  tagBytes t ++ leBytes 4 (status + 65536 * x.flags) ++ leBytes 4 content.length
    ++ leBytes 8 (match x.cycle with | some c => c.2.1 | none => 0) ++ content

/-- A result pod of an emitter. -/
def resultPod (x : Instance) (e : JobEntry) (t : Tag) (content : List Byte) (status : Nat) : OutPod :=
  { kind := 8, cls := x.tagCls, slot := x.slot, frame := x.frame, operation := e.index,
    body := resultBody x t content status, echo := x.seq, status := status }

/-- The arrival number of the pod that started an instance. -/
def startPod (x : Instance) : Option Nat :=
  match x.cause with
  | .pod no => some no
  | _ => none

/-- Send a result pod, or in safe state the tarp in its place. -/
def releaseResult (s : State) (x : Instance) (ring : Nat) (p : OutPod) : State :=
  emitFor s (startPod x) ring (if safeState s then tarpOf p else p)

/-- The covered frame group. -/
def coveredFg (s : State) : Nat := rdF s A.COMP_CTL 3 1

/-- The comparator's cycle of an instance, if it judges the instance (R439). -/
def judgedBy (s : State) (x : Instance) : Option CompCycle :=
  match s.comp.cycle, x.cycle with
  | some c, some (g, l, _) => if c.launch = l ∧ c.frame = x.frame ∧ g = coveredFg s then some c else none
  | _, _ => none

/-- A result emitter sends the result it has read (R362, R439). -/
def emitResult (s : State) (x : Instance) (e : JobEntry) (t : Tag) (content : List Byte) : State :=
  let p := resultPod x e (resultTag x e t) content x.status
  if e.covered = false then releaseResult s x e.ring p
  else
    match judgedBy s x with
    | some c =>
      if c.cut || c.judged then s
      else
        let c := if s.ridge ≤ c.deadline - 150000 then { c with seen := c.seen ++ [(resultTag x e t).stream] } else c
        let s := { s with comp := { s.comp with cycle := some c } }
        if safeState s then releaseResult s x e.ring p
        else
          let r : Covered := { ring := e.ring, pod := p, stream := (resultTag x e t).stream, content := content,
                               inst := x.id, at_ := s.ridge }
          { s with comp := { s.comp with cycle := some { c with results := c.results ++ [r] } } }
    | none =>
      let v := resultTag x e t
      releaseResult s x e.ring (resultPod x e { v with flags := v.flags ||| flVoid } [] St.COMP_NOT_JUDGED)

/-! ### Ends -/

/-- JOB_DONE (R363). -/
def sendJobDone (s : State) (x : Instance) : State :=
  sendEvent s Ev.JOB_DONE x.tagCls x.frame x.seq x.status
    (leBytes 2 x.slot ++ leBytes 2 x.entry ++ leBytes 4 x.frame ++ leBytes 4 x.seq ++ leBytes 4 (statusWord x)
      ++ leBytes 4 x.conflicts ++ zeros 4 ++ leBytes 8 (x.fired.getD s.ridge) ++ leBytes 8 s.ridge)

/-- Remove a graph: its queued job pods complete with GRAPH_UNLOADED, the pod that asked with OK (R342). -/
def unloadGraph (s : State) (slot no : Nat) : State :=
  match graphOf s slot with
  | none => podComplete s no 0
  | some g =>
    let s := dspRegs (setGraph s slot none)
    let s := g.queue.foldl (fun s q =>
      match q.cause with
      | .pod n => podComplete s n St.GRAPH_UNLOADED
      | _ => s) s
    podComplete s no 0

/-- The failed command of the engine is counted and recorded (R337). -/
def seqNoteFail (s : State) (c : SeqCmd) (status : Nat) (injected : Bool) : State :=
  setRec (bumpSat s A.SEQ_FAIL_COUNT 1) 0x200 1
    [fldN (leAt c.bytes 4 4) 19 0 + 2 ^ 28 * fldN (leAt c.bytes 0 1) 7 4, status, lo32 s.ridge, hi32 s.ridge,
     256 * b2n injected]

/-- A command leaves the engine; the view a STAGE was building is released. -/
def seqDrop (s : State) (c : SeqCmd) : State :=
  let s := setSeq s (fun q => { q with cmds := q.cmds.filter (fun d => d.id != c.id) })
  let s := if fldN (leAt c.bytes 0 1) 7 4 = 4 then
      match c.issuer with
      | .job _ _ i _ => dropViews s (fun v => v.inst == i && v.frame0 == fldN (leAt c.bytes 28 2) 11 0)
      | .pod _ => s
    else s
  seqRegs s

/-- STAGEs that wait for a block of a context. -/
def stagesFor (s : State) (ctx pos : Nat) : List SeqCmd :=
  s.seq.cmds.filter (fun c => fldN (leAt c.bytes 0 1) 7 4 == 4 && fldN (leAt c.bytes 4 4) 19 0 == ctx
    && c.stage == .copying && c.picks.any (fun x => x.pos == pos && x.state == 2))

/-- Pending GRAPH_UNLOAD of a slot whose running instance has ended (R342). A cycle graph whose frame group has been
enabled since is not unloaded. -/
def unloadPending (s : State) (slot : Nat) : State :=
  match graphOf s slot with
  | none => s
  | some g =>
    match g.unload with
    | none => s
    | some no =>
      if (activeInsts s).any (fun x => x.slot == slot) then s
      else if g.bound && fgOn s g.fg then podComplete (setGraph s slot (some { g with unload := none })) no St.GRAPH_SLOT_BUSY
      else unloadGraph s slot no

/-- An instance that has ended is gone once none of its jobs goes on. -/
def sweepInst (s : State) (id : Nat) : State :=
  match s.insts.find? (fun x => x.id == id && x.life != .active) with
  | none => s
  | some x =>
    if x.jobs.any (fun j => j.stage == .running || (x.life == .completed && (j.stage == .waiting || j.stage == .retrying)))
    then s
    else seqInstGone { s with insts := s.insts.filter (fun y => y.id != id) } id

/-- A firing ends without completing: what it left open is discarded (R300, R322). -/
def execLost (s : State) (exec : Nat) : State := seqJobEnded (rollVoidAll s exec) exec

/-- An instance leaves the active ones: jobs that have not fired are cancelled unless it has completed, and at a deadline
the spans and groups of its running jobs are voided (R300, R322, R346, R347). -/
def instLeave (s : State) (x : Instance) (life : InstLife) : State :=
  let jobs := if life = .completed then x.jobs
    else x.jobs.map (fun j => if j.stage = .running ∨ j.stage = .done then j else { j with stage := .cancelled })
  let s := updInst s x.id (fun _ => { x with life := life, jobs := jobs })
  if life = .cut then (x.jobs.filter (fun j => j.stage == .running)).foldl (fun s j => execLost s j.exec) s else s

/-- What the end of an instance does, apart from the STAGEs of a failed recompute: its views go, its pod completes, its
graph counts it and unloads if that was asked for (R325, R342, R346). -/
def instGone (s : State) (x : Instance) (life : InstLife) : State :=
  let s := dspRegs (sweepInst (seqInstEnded (instLeave s x life) x.id) x.id)
  match graphOf s x.slot with
  | none => s
  | some g =>
    let s := if g.notify then sendJobDone s x else s
    let s := setGraph s x.slot (some { g with done := g.done + b2n (life == .completed) })
    let s := match x.cause with
      | .pod no => podComplete s no x.status
      | _ => s
    dspRegs (unloadPending s x.slot)

/-- An instance ends with a status (R346). A failed recompute instance fails the STAGEs that wait for its block (R332),
and with them the instances of their jobs; one that completes without restoring it leaves them to their timeout. -/
def instEnd : Nat → State → Instance → Nat → InstLife → State
  | 0, s, _, _, _ => s
  | fuel + 1, s, x, st, life =>
    if s.insts.any (fun y => y.id == x.id && y.life == .active) = false then s
    else
      let x := { x with status := st }
      let s := instGone s x life
      match x.cause with
      | .recompute ctx pos =>
        if life ≠ .completed ∧ s.seq.requests.any (fun r => r.ctx == ctx && r.pos == pos) = true then
          let cs := stagesFor s ctx pos
          let s := setSeq s (fun q => { q with requests := q.requests.filter (fun r => !(r.ctx == ctx && r.pos == pos)) })
          cs.foldl (fun s c =>
            let s := seqDrop (seqNoteFail s c St.RECOMPUTE_FAILED false) c
            match c.issuer with
            | .job _ _ i _ =>
              match s.insts.find? (fun y => y.id == i) with
              | some y => instEnd fuel s y St.RECOMPUTE_FAILED .failed
              | none => s
            | .pod no => podComplete s no St.RECOMPUTE_FAILED) (seqRegs s)
        else s
      | _ => s

/-- End an instance with a status. -/
def endInst (s : State) (x : Instance) (st : Nat) (life : InstLife) : State :=
  instEnd (s.insts.length + 1) s x st life

/-- A job of an instance that has ended, ends too. -/
def cancelJob (s : State) (x : Instance) (j : JobRun) : State :=
  sweepInst (updJob (if j.stage = .running then execLost s j.exec else s) x.id j.entry.index
    (fun r => { r with stage := .cancelled })) x.id

/-- A job fails with a status, and its instance, if it has not ended before, ends with it (R346). -/
def failJob (s : State) (x : Instance) (j : JobRun) (st : Nat) : State :=
  if x.life = .active then
    let s := updJob s x.id j.entry.index (fun r => { r with stage := .cancelled })
    let s := if j.stage = .running then execLost s j.exec else s
    match s.insts.find? (fun y => y.id == x.id) with
    | some y => endInst s y st .failed
    | none => s
  else cancelJob s x j

/-- The job of a firing fails with a status. -/
def failExec (s : State) (exec st : Nat) : State :=
  match findExec s exec with
  | some (x, j) => failJob s x j st
  | none => s

/-- Operations and commands may be executed again this many times (R467). -/
def retryLimit (s : State) : Nat := rdF s A.FC_REEXEC_CFG 1 0

/-- Every exit job of an instance has completed; where it has none, every job has. -/
def exitsDone (x : Instance) : Bool :=
  let es := x.jobs.filter (fun j => j.entry.exit)
  (if es.isEmpty then x.jobs else es).all (fun j => j.stage == .done)

/-- A job has ended: its instance completes with its last exit job (R346), and one that has ended may be gone. -/
def settleInst (s : State) (id : Nat) : State :=
  match s.insts.find? (fun y => y.id == id) with
  | some x =>
    if x.life ≠ .active then sweepInst s id
    else if exitsDone x then endInst s x x.status .completed else s
  | none => s

/-- The waits of a waiting job that are satisfied. -/
def jobMet (s : State) (x : Instance) (j : JobRun) : List Nat := metWaits s x.frame j

/-- All waits of a job are satisfied. -/
def allMet (s : State) (x : Instance) (j : JobRun) : Bool := (jobMet s x j).length == j.entry.waits.length

/-- A wait that is not satisfied names a peg that is not configured (R294). -/
def badWait (s : State) (x : Instance) (j : JobRun) : Bool :=
  (List.range j.entry.waits.length).any (fun i => !(jobMet s x j).contains i &&
    (match j.entry.waits[i]? with
     | some w => refNames w.peg && pegMode (pegAt s w.peg) == 0
     | none => false))

/-- A waiting job may fire (R345): all its waits are satisfied, or, where it is order_free and STRICT is clear, one
of them is; or it is to end at once for an unconfigured peg. -/
def jobReady (s : State) (x : Instance) (j : JobRun) : Bool :=
  j.stage == .waiting && (allMet s x j || badWait s x j ||
    (j.entry.orderFree && !strict s && !(jobMet s x j).isEmpty))

/-- Descriptor `i` of a running job may be issued: in list order, or by its own wait (R345). -/
def mayIssue (s : State) (x : Instance) (j : JobRun) (i : Nat) : Bool :=
  decide (i < j.entry.descCount) && !j.issued.contains i &&
    (if j.entry.orderFree && !strict s then
      (if i < j.entry.waits.length then (jobMet s x j).contains i else allMet s x j)
     else i == j.issued.length)

/-- The byte address of descriptor `i`, of `n` bytes each. -/
def descAddr (x : Instance) (e : JobEntry) (n i : Nat) : Nat := x.addr + e.descOffset + n * i

end Sys2Proof.Machine
end

