-- ==== Sys2Proof/Machine/OpMem.lean ====
section
/-!
DEFINITION. What operations of arrays and engines share: operands and roll references, tag blocks and frame checks,
failure and re-execution, and the end of an operation (R28, R239, R242, R249, R252, R284, R298 to R301, R467).
-/

namespace Sys2Proof.Machine

/-! ### Operations -/

/-- An operation. -/
def opOf (s : State) (id : Nat) : Option Op := s.ops.find? (fun o => o.id == id)

/-- Change an operation. -/
def updOp (s : State) (id : Nat) (f : Op → Op) : State :=
  { s with ops := s.ops.map (fun o => if o.id = id then f o else o) }

/-- Remove an operation. -/
def dropOp (s : State) (id : Nat) : State := { s with ops := s.ops.filter (fun o => o.id != id) }

/-- Field of `n` bytes at `off` of the descriptor. -/
def dN (op : Op) (off n : Nat) : Nat := leAt op.desc off n

/-- The agent of an operation's accesses (Table 2.18). -/
def opAgent (op : Op) : Agent :=
  .cluster (Fin.ofNat 4 op.cluster) (BitVec.ofNat 8 (if op.unit < 4 then op.unit else 0x10 + (op.unit - 4)))

/-- The fault source of the unit of an operation (Table 16.2). -/
def opSource (op : Op) : Nat :=
  if op.unit < 4 then 0x0C8 + 4 * op.cluster + op.unit else 0x0D8 + 4 * op.cluster + (op.unit - 4)

/-- The page of the unit of an operation. -/
def opPage (op : Op) : Nat := if op.unit < 4 then 0x104 + 0x40 * op.cluster + op.unit else 0x109 + 0x40 * op.cluster + (op.unit - 4)

/-- The completion of an operation counts: its job's sequence has not been retired, and no deadline has passed. -/
def opLive (s : State) (op : Op) : Bool := execCounts s op.exec

/-! ### Operands (R247, R298) -/

/-- The address of byte `x` of the operand whose address field lies at `off` of the descriptor. -/
def operandByte (s : State) (op : Op) (off x : Nat) : Nat :=
  let v := dN op off 8
  if isRollRef v then rollByte s op.cluster (rollRef v).roll ((smGet (fun _ => 0) op.starts off + x) % 2 ^ 32) else v + x

/-- The bytes of an operand before a roll's region wraps. -/
def operandRun (s : State) (op : Op) (off x n : Nat) : Nat :=
  let v := dN op off 8
  if isRollRef v then
    let r := (rollRef v).roll
    let size := rollSize s op.cluster r
    min n (size - (smGet (fun _ => 0) op.starts off + x) % size)
  else n

/-- Read `n` bytes of an operand from offset `x`. -/
def opRead (s : State) (op : Op) (off x n : Nat) : Nat × List Byte × State :=
  let k := operandRun s op off x n
  match memRead s (opAgent op) (operandByte s op off x) k op.cls (echo := execEcho s op.exec) with
  | (0, b, s) =>
    if k < n then
      match memRead s (opAgent op) (operandByte s op off (x + k)) (n - k) op.cls (echo := execEcho s op.exec) with
      | (st, b', s) => (st, b ++ b', s)
    else (0, b, s)
  | (st, b, s) => (st, b ++ zeros (n - k), s)

/-- Write bytes of an operand from offset `x`. -/
def opWrite (s : State) (op : Op) (off x : Nat) (bs : List Byte) : Nat × State :=
  let k := operandRun s op off x bs.length
  match memWrite s (opAgent op) (operandByte s op off x) (bs.take k) op.cls (execEcho s op.exec) with
  | (0, s) => if k < bs.length then memWrite s (opAgent op) (operandByte s op off (x + k)) (bs.drop k) op.cls (execEcho s op.exec) else (0, s)
  | (st, s) => (st, s)

/-- Writes of an operand, in order, as offset and bytes; the first failure stops them. -/
def opWrites (s : State) (op : Op) (off : Nat) (l : List (Nat × List Byte)) : Nat × State :=
  l.foldl (fun acc w => if acc.1 = 0 then opWrite acc.2 op off w.1 w.2 else acc) (0, s)

/-- Reads of an operand, in order, as offset and length; the first failure stops them. -/
def opReads (s : State) (op : Op) (off : Nat) (l : List (Nat × Nat)) : Nat × List (List Byte) × State :=
  l.foldl (fun acc w =>
    if acc.1 = 0 then
      match opRead acc.2.2 op off w.1 w.2 with
      | (st, b, s) => (st, acc.2.1 ++ [b], s)
    else acc) (0, [], s)

/-- An operand is aligned and lies in populated memory that an operand may lie in (V11 of Table 8.7, E7 of
Table 9.2), or its roll reference passes R299: the status of the failure, or 0. `cache` permits the page cache. -/
def operandStatus (s : State) (c v ext al : Nat) (cache : Bool) : Nat :=
  if isRollRef v then rollRefStatus s c v (roundUp ext 64)
  else if v % al = 0 ∧ (inDram v ext || inScratch v ext || (cache && inCache v ext)) = true then 0
  else St.OPERAND_ADDR_INVALID

/-- An address operand of a descriptor: the offset of its field, its extent, its alignment, and whether it may lie in
the page cache. -/
structure Operand where
  off : Nat
  ext : Nat
  al : Nat := 64
  cache : Bool := false
  /-- The operand is written. -/
  out : Bool := false
  deriving DecidableEq, Repr

/-- The first failure among the operands of a descriptor. An output may not be a roll reference that reads, nor an
input an append. -/
def operandsStatus (s : State) (c : Nat) (desc : List Byte) (l : List Operand) : Nat :=
  l.foldl (fun st o =>
    if st ≠ 0 then st
    else
      let v := leAt desc o.off 8
      let st := operandStatus s c v o.ext o.al o.cache
      if st = 0 ∧ isRollRef v = true ∧ ((rollRef v).kind == 3) ≠ o.out then St.ROLL_DISABLED else st) 0

/-! ### Rolls of an operation (R298 to R301) -/

/-- The roll operands of an operation. -/
def rollOperands (desc : List Byte) (l : List Operand) : List (Operand × RollRef) :=
  (l.filter (fun o => isRollRef (leAt desc o.off 8))).map (fun o => (o, rollRef (leAt desc o.off 8)))

/-- An operation waits for space in some roll (R300). -/
def opBlocked (s : State) (op : Op) : Bool :=
  (List.range 64).any (fun r => (rollOf s op.cluster r).waiting.any (fun w => w.op == op.id))

/-- An operation starts to use its rolls: it references them, and its appends take their spans or wait. -/
def opReserve (s : State) (op : Op) (l : List Operand) : State :=
  (rollOperands op.desc l).foldl (fun s x =>
    let s := rollRefer s op.cluster x.2.roll op.id
    if x.2.kind = 3 ∧ (rollOf s op.cluster x.2.roll).resv.any (fun v => v.op == op.id && v.field == x.1.off) = false then
      rollReserve s op.cluster x.2.roll op.id x.1.off op.exec (roundUp x.1.ext 64) op.frame op.cls
    else s) s

/-- The starts of an operation's roll operands, resolved as the operation first starts; a reading operand outside the
live span is a failure (R301). -/
def opResolve (s : State) (op : Op) (l : List Operand) : Nat × State :=
  (rollOperands op.desc l).foldl (fun acc x =>
    if acc.1 ≠ 0 ∨ (op.starts.any (fun e => e.1 == x.1.off)) = true then acc
    else
      let s := acc.2
      let r := x.2.roll
      let b := roundUp x.1.ext 64
      if x.2.kind = 3 then
        let p := match (rollOf s op.cluster r).resv.find? (fun v => v.op == op.id && v.field == x.1.off) with
          | some v => v.start
          | none => 0
        (0, updOp s op.id (fun o => { o with starts := smPut o.starts x.1.off p }))
      else if rollInSpan s op.cluster r x.2.offset b then
        let st := (rollTail s op.cluster r + x.2.offset) % 2 ^ 32
        let s := updOp s op.id (fun o => { o with starts := smPut o.starts x.1.off st })
        (0, if x.2.kind = 2 then rollConsumeStart s op.cluster r op.id op.exec ((st + b) % 2 ^ 32) else s)
      else (St.ROLL_SPAN_ERROR, rollSpanError s op.cluster r op.cls (execEcho s op.exec))) (0, s)

/-- The rolls of an operation that has ended well: its appends commit and its consumes advance the tail. -/
def opRollsDone (s : State) (op : Op) : State :=
  let s := (List.range 64).foldl (fun s r =>
    let x := rollOf s op.cluster r
    let s := if x.resv.any (fun v => v.op == op.id) then rollCommit (rollPerformed s op.cluster r op.id) op.cluster r else s
    if (rollOf s op.cluster r).consumes.any (fun v => v.op == op.id) then rollConsumed s op.cluster r op.id else s) s
  rollRelease s op.cluster op.id

/-! ### Tag blocks (R242, R249) -/

/-- Read runs of bytes, as address and length, in order; the first failure stops them. -/
def readRuns (s : State) (ag : Agent) (cls echo : Nat) (l : List (Nat × Nat)) : Nat × List Byte × State :=
  l.foldl (fun acc x =>
    if acc.1 ≠ 0 then acc
    else
      match memRead acc.2.2 ag x.1 x.2 cls (echo := echo) with
      | (st, b, s) => (st, acc.2.1 ++ b, s)) (0, [], s)

/-- The flag bytes of a tag block that cover rows `lo` to `hi - 1`, one byte for `div` rows, as a run. -/
def flagRun (addr div lo hi : Nat) : List (Nat × Nat) :=
  if hi ≤ lo then [] else [(addr + 8 + lo / div, (hi - 1) / div - lo / div + 1)]

/-- The flag bytes of output groups, each inherited from the input flag bytes that the runs of its group hold and from
`extra`; the first failed read stops them (R285). -/
def inheritRuns (s : State) (ag : Agent) (cls echo extra : Nat) (l : List (List (Nat × Nat))) : Nat × List Nat × State :=
  l.foldl (fun acc runs =>
    if acc.1 ≠ 0 then acc
    else
      match readRuns acc.2.2 ag cls echo runs with
      | (st, b, s) => (st, acc.2.1 ++ [inheritFlags (extra :: b.map (·.toNat))], s)) (0, [], s)

/-- Read the tag at an address. -/
def readTag (s : State) (ag : Agent) (addr : Nat) (cls echo : Nat) : Nat × Tag × State :=
  match memRead s ag addr 8 cls (echo := echo) with
  | (st, b, s) => (st, parseTag (leNat b), s)

/-- The frame check of data inputs, as tag address and lag (R28): the status, the tags, and the state. -/
def checkInputs (s : State) (ag : Agent) (frame cls echo desc : Nat) (l : List (Nat × Nat)) : Nat × List Tag × State :=
  l.foldl (fun acc x =>
    if acc.1 ≠ 0 then acc
    else
      match readTag acc.2.2 ag x.1 cls echo with
      | (0, t, s) =>
        if lagMet frame t.frame x.2 then (0, acc.2.1 ++ [t], s)
        else (St.FRAME_MISMATCH, acc.2.1,
          report s { source := 0x104, status := St.FRAME_MISMATCH, detail := lo32 desc, cls := cls, echo := echo })
      | (st, _, s) => (st, acc.2.1, s)) (0, [], s)

/-- Write a tag block: the flag bytes, then the tag (R242). -/
def writeTagBlock (s : State) (ag : Agent) (addr : Nat) (t : Tag) (flags : List Nat) (cls echo : Nat) :
    Nat × State :=
  match memWrite s ag (addr + 8) (flags.map (BitVec.ofNat 8)) cls echo with
  | (0, s) => memWrite s ag addr (tagBytes t) cls echo
  | (st, s) => (st, s)

/-! ### Failure (R239, R252, R467) -/

/-- A failing status that re-execution follows: a mechanism of Table 8.5, of R252, or an uncorrectable word read. -/
def reexecutable (st : Nat) : Bool :=
  decide (St.ABFT_FAIL ≤ st ∧ st ≤ St.WEIGHT_ECC_UNCORRECTABLE) || st == St.ENGINE_MISMATCH
    || st == St.ENGINE_ECC_UNCORRECTABLE || st == St.SCR_ECC_UNCORRECTABLE || st == St.DRAM_ECC_UNCORRECTABLE
    || st == St.CACHE_ECC_UNCORRECTABLE

/-- An operation is reported by its own unit: the statuses of Table 8.5 and R252. -/
def unitReported (st : Nat) : Bool :=
  decide (St.ABFT_FAIL ≤ st ∧ st ≤ St.WEIGHT_ECC_UNCORRECTABLE) || st == St.ENGINE_MISMATCH
    || st == St.ENGINE_ECC_UNCORRECTABLE

/-- The slabs of a partner array that a problem takes: the 180° image of its place in the primary (R237). -/
def slabImage (p : Nat × Nat × Nat × Nat) : Nat × Nat × Nat × Nat :=
  (8 - p.1 - p.2.2.1, 8 - p.2.1 - p.2.2.2, p.2.2.1, p.2.2.2)

/-- The placement code of a failing operation's unit (R19): it depends on where the operation lay, on its array and on its
partner. -/
def opPlacement (s : State) (op : Op) : Nat :=
  let at_ (p : Nat × Nat × Nat × Nat) : List Nat := [p.1, p.2.1, p.2.2.1, p.2.2.2]
  Config.unitPlacement s.freeCount ([op.cluster, op.unit] ++ at_ op.slabs ++
    (match op.partner with
     | some p => p :: at_ (slabImage op.slabs)
     | none => [])) % 65536

/-- An operation ends for good: its rolls let it go. -/
def opGone (s : State) (op : Op) : State := rollRelease (dropOp s op.id) op.cluster op.id

/-- An operation fails with a status. A re-executable one waits to be executed again while retries are left; the job
of any other ends (R192, R239, R252, R467). Its report carries the placement code of the array or engine (log entry 5). -/
def opFail (s : State) (op : Op) (st : Nat) (injected : Bool) : State :=
  let again := reexecutable st && decide (op.retries < retryLimit s)
  let s := if unitReported st then
      report s { source := opSource op, status := st, placement := opPlacement s op, detail := lo32 op.addr, cls := op.cls,
                 injected := injected, exhausted := !again, echo := execEcho s op.exec }
    else if st = St.ARITH_NONFINITE ∧ op.cls = clsS then
      report s { source := 0x105, status := st, detail := lo32 op.addr, cls := clsS, echo := execEcho s op.exec }
    else s
  if again && opLive s op then
    updOp s op.id (fun o => { o with stage := .failed st, tiles := [], scales := [], written := 0, checks := [] })
  else failExec (opGone s op) op.exec st

/-- Bank cycles lost by an operation (R284): counted for the cluster and the job; in class S, and under STRICT, the first
that a live job loses is to fail it. -/
def loseBank (s : State) (op : Op) (l : Option BankLoss) : State :=
  match l with
  | none => s
  | some b =>
    if b.count = 0 then s
    else
      let s := bump s (A.SCR_CONFLICTS op.cluster) b.count
      match findExec s op.exec with
      | none => s
      | some (x, _) =>
        let s := updInst s x.id (fun y => { y with conflicts := y.conflicts + b.count })
        if (op.cls = clsS ∨ strict s = true) ∧ s.ops.any (fun o => o.exec == op.exec && o.lostBank) = false then
          let p := 0x110 + 0x40 * op.cluster
          let s := setRec (bumpSat s (A.SCR_CONFLICT_FAILS op.cluster) 1) p 1
            [b.bank.toNat + 256 * b.requester.toNat + 4096 * b2n b.write, b.granule.toNat, lo32 s.ridge, hi32 s.ridge, lo32 op.addr]
          let s := updOp (raise s p 4) op.id (fun o => { o with lostBank := true })
          if op.cls = clsS then
            report s { source := 0x0E8 + op.cluster, status := St.BANK_CONFLICT, detail := lo32 op.addr, cls := clsS, echo := execEcho s op.exec }
          else s
        else s

/-- The end of an operation whose outputs are written and checks passed: its rolls commit, out_peg counts, and its
descriptor completes (R242). A retired sequence is discarded (R350); an operation that lost a bank cycle ends with correct
data, but its out_peg does not count and its job ends (R284). -/
def opDone (s : State) (op : Op) (peg : Nat) : State :=
  if opLive s op = false then descDone (opGone s op) op.exec
  else
    match opOf s op.id with
    | some o =>
      let s := opRollsDone (jobFlags s op.exec o.flags) op
      if o.lostBank then failExec (dropOp s op.id) op.exec St.BANK_CONFLICT
      else
        let s := pegInc s peg .count 1 (some op.frame) op.cls (execEcho s op.exec)
        descDone (dropOp s op.id) op.exec
    | none => s

/-- An operand of an operation lies in a region that is still being zero-filled: the operation waits (R380). -/
def opWaits (s : State) (op : Op) (l : List Operand) : Bool :=
  l.any (fun o => let v := dN op o.off 8; !isRollRef v && encWaits s v o.ext)

/-- A descriptor's peg that is not configured ends its job (R294), as does one reserved for firmware. -/
def pegStatus (s : State) (peg : Nat) : Nat :=
  if refWellFormed peg = false ∨ refReserved peg = true then St.PEG_INVALID
  else if refNames peg && pegMode (pegAt s peg) == 0 then St.PEG_UNCONFIGURED
  else 0

/-- A unit is fenced. -/
def unitFenced (s : State) (c u : Nat) : Bool :=
  if u < 4 then rdB s (A.ARR_FENCE c u) 0 else rdB s (A.ENG_FENCE c (u - 4)) 0

/-- A BIST slice or a commanded test runs on unit `b` of Table 16.7. -/
def bistBusy (s : State) (b : Nat) : Bool :=
  s.bist.slices.any (fun x => x.1 == b) || (match s.bist.cmd with | some (u, _) => u == b | none => false)

/-- Clear the lapses of BIST unit `u`; a level source that no unit's lapse keeps active clears (R480). -/
def lapseClear (s : State) (u : Nat) : State :=
  let s := wrF s (A.BIST_UNIT_STATUS u) 9 8 0
  let keeps (b : Nat) : Bool := (List.range 0x30).any (fun i => rdB s (A.BIST_UNIT_STATUS i) b)
  let s := if keeps 8 then s else levelClear s 0x148
  if keeps 9 then s else levelClear s 0x149

/-- The time of BIST unit `u` since its last full pass starts again from zero (R480). -/
def lapseRestart (s : State) (u : Nat) : State :=
  lapseClear { s with bist := { s.bist with passAt := smSet (fun _ => 0) s.bist.passAt u s.ridge } } u

end Sys2Proof.Machine
end

