-- ==== Sys2Proof/Machine/Conv.lean ====
section
/-!
DEFINITION. The implicit-convolution parameter block (R259 to R262).
-/

namespace Sys2Proof.Machine

/-- A parameter block (Table 9.6). -/
structure ConvBlock where
  addr : Nat
  pitch : Nat
  hIn : Nat
  wIn : Nat
  cIn : Nat
  hOut : Nat
  wOut : Nat
  kh : Nat
  kw : Nat
  sy : Nat
  sx : Nat
  dy : Nat
  dx : Nat
  pt : Nat
  pl : Nat
  u : Nat
  py : Nat
  px : Nat
  /-- Reserved bits are zero. -/
  clean : Bool
  deriving DecidableEq, Repr

/-- Read the 32 bytes of a parameter block. -/
def parseConv (b : List Byte) : ConvBlock :=
  let n (o : Nat) := leAt b o 1
  { addr := leAt b 0 8, pitch := leAt b 8 4, hIn := fldN (leAt b 12 2) 13 0 + 1, wIn := fldN (leAt b 14 2) 13 0 + 1,
    cIn := leAt b 16 2 + 1, hOut := fldN (leAt b 18 2) 13 0 + 1, wOut := fldN (leAt b 20 2) 13 0 + 1,
    kh := n 22 % 16 + 1, kw := n 22 / 16 + 1, sy := n 23 % 16 + 1, sx := n 23 / 16 + 1,
    dy := n 24 % 16 + 1, dx := n 24 / 16 + 1, pt := fldN (n 25) 5 0, pl := fldN (n 26) 5 0, u := fldN (n 27) 2 0 + 1,
    py := fldN (n 28) 2 0, px := fldN (n 29) 2 0,
    clean := fldN (leAt b 12 2) 15 14 == 0 && fldN (leAt b 14 2) 15 14 == 0 && fldN (leAt b 18 2) 15 14 == 0
      && fldN (leAt b 20 2) 15 14 == 0 && decide (n 25 < 64) && decide (n 26 < 64) && decide (n 27 < 8)
      && decide (n 28 < 8) && decide (n 29 < 8) && leAt b 30 2 == 0 }

/-- Kernel rows or columns that take part in phase `p` of a transposed convolution (R261); all of them for u = 1. -/
def liveTaps (k u pad p : Nat) : List Nat :=
  if u = 1 then List.range k else (List.range k).filter (fun y => (y + u - pad % u + p) % u == 0)

/-- The reduction length of a block (R260, R261). -/
def ConvBlock.kLen (b : ConvBlock) : Nat :=
  (liveTaps b.kh b.u b.pt b.py).length * (liveTaps b.kw b.u b.pl b.px).length * b.cIn

/-- The status of a block's own checks (Table 9.3, R259, R261), or 0. -/
def ConvBlock.status (b : ConvBlock) : Nat :=
  if 11 < b.kh ∨ 11 < b.kw then St.KERNEL_SIZE_INVALID
  else if b.clean = false ∨ b.pitch % 64 ≠ 0 ∨ 8 < b.sy ∨ 8 < b.sx ∨ 8 < b.dy ∨ 8 < b.dx ∨ b.u ≤ b.py ∨ b.u ≤ b.px
      ∨ (1 < b.u ∧ (b.sy ≠ 1 ∨ b.sx ≠ 1 ∨ b.dy ≠ 1 ∨ b.dx ≠ 1)) then St.CONV_PARAM_INVALID
  else 0

/-- The input row that kernel row `ky` reads for output row `oy`, where it lies within the input. -/
def ConvBlock.inRow (b : ConvBlock) (oy ky : Nat) : Option Nat :=
  let y : Int := if b.u = 1 then (oy * b.sy : Int) - b.pt + ky * b.dy
    else ((b.py + b.u * oy : Nat) : Int) - b.pt + ky
  let y := if b.u = 1 then y else y / (b.u : Int)
  if 0 ≤ y ∧ y < b.hIn then some y.toNat else none

/-- The input column that kernel column `kx` reads for output column `ox`, where it lies within the input. -/
def ConvBlock.inCol (b : ConvBlock) (ox kx : Nat) : Option Nat :=
  let x : Int := if b.u = 1 then (ox * b.sx : Int) - b.pl + kx * b.dx
    else ((b.px + b.u * ox : Nat) : Int) - b.pl + kx
  let x := if b.u = 1 then x else x / (b.u : Int)
  if 0 ≤ x ∧ x < b.wIn then some x.toNat else none

/-- The taps of output pixel (oy, ox) in reduction order: kernel position, and the byte offset from in_addr of the
pixel it reads, for elements of `e` bytes. -/
def ConvBlock.taps (b : ConvBlock) (e oy ox : Nat) : List (Nat × Nat × Option Nat) :=
  (liveTaps b.kh b.u b.pt b.py).flatMap (fun ky => (liveTaps b.kw b.u b.pl b.px).map (fun kx =>
    (ky, kx, match b.inRow oy ky, b.inCol ox kx with
      | some y, some x => some (y * b.pitch + x * b.cIn * e)
      | _, _ => none)))

/-- Some tap of an output row reads a column within the input. -/
def ConvBlock.anyCol (b : ConvBlock) : Bool :=
  (List.range b.wOut).any (fun ox => (liveTaps b.kw b.u b.pl b.px).any (fun kx => (b.inCol ox kx).isSome))

/-- The input rows that the live taps of an output row read within the input (R262). -/
def ConvBlock.rowsOf (b : ConvBlock) (oy : Nat) : List Nat :=
  if b.anyCol then (liveTaps b.kh b.u b.pt b.py).filterMap (b.inRow oy) else []

/-- The flag bytes of the input rows that an output row depends on (R262): the input tag block holds one byte per input
row. -/
def ConvBlock.flagRuns (b : ConvBlock) (tagAddr oy : Nat) : List (Nat × Nat) := (b.rowsOf oy).map (fun y => (tagAddr + 8 + y, 1))

/-- The parameter block that an operand field names, as it is read for validation: through a roll at the position that the
reference names now (R298). None where the field itself fails validation; the status of a read that fails. -/
def peekBlock (s : State) (c cls echo v : Nat) : Nat × List Byte × State :=
  if operandStatus s c v 32 64 true ≠ 0 then (0, [], s)
  else
    let f := rollRef v
    let p := (rollTail s c f.roll + f.offset) % 2 ^ 32
    let k := if isRollRef v then min 32 (rollSize s c f.roll - p % rollSize s c f.roll) else 32
    let at_ (x : Nat) : Nat := if isRollRef v then rollByte s c f.roll ((p + x) % 2 ^ 32) else v + x
    readRuns s (.cluster (Fin.ofNat 4 c) 0) cls echo ((at_ 0, k) :: (if k < 32 then [(at_ k, 32 - k)] else []))

/-- Extent of the input in bytes. -/
def ConvBlock.extent (b : ConvBlock) (e : Nat) : Nat := (b.hIn - 1) * b.pitch + b.wIn * b.cIn * e

end Sys2Proof.Machine
end

