-- ==== Sys2Proof/Machine/Operands.lean ====
section
/-!
DEFINITION. Number formats: exact values, rounding to nearest even, FP32, BF16, FP16 and FP8, the BF12 group with and
without rotation, weights as integers, and the combination at the array edge (chapter 7).
-/

namespace Sys2Proof.Machine

/-! ### Exact values -/

/-- An exact rational `n / d`, `d` positive. -/
structure Fr where
  n : Int
  d : Nat
  deriving DecidableEq, Repr

/-- An integer. -/
def frInt (n : Int) : Fr := { n := n, d := 1 }

/-- Multiply by a power of two. -/
def frShift (x : Fr) (e : Int) : Fr :=
  if 0 ≤ e then { n := x.n * 2 ^ e.toNat, d := x.d } else { n := x.n, d := x.d * 2 ^ (-e).toNat }

/-- Sum. -/
def frAdd (x y : Fr) : Fr := { n := x.n * y.d + y.n * x.d, d := x.d * y.d }

/-- Negation. -/
def frNeg (x : Fr) : Fr := { n := -x.n, d := x.d }

/-- Product. -/
def frMul (x y : Fr) : Fr := { n := x.n * y.n, d := x.d * y.d }

/-- Quotient; by zero it is zero. -/
def frDiv (x y : Fr) : Fr :=
  if y.n = 0 then frInt 0
  else if 0 < y.n then { n := x.n * y.d, d := x.d * y.n.toNat } else { n := -(x.n * y.d), d := x.d * (-y.n).toNat }

/-- Comparison. -/
def frLt (x y : Fr) : Bool := decide (x.n * y.d < y.n * x.d)

/-- Comparison. -/
def frLe (x y : Fr) : Bool := decide (x.n * y.d ≤ y.n * x.d)

/-- Magnitude. -/
def frAbs (x : Fr) : Fr := { n := x.n.natAbs, d := x.d }

/-- A quotient of naturals rounded to nearest, ties to even. -/
def rneNat (n d : Nat) : Nat :=
  let q := n / d
  let r := n % d
  if 2 * r < d then q else if d < 2 * r then q + 1 else if q % 2 = 0 then q else q + 1

/-- An exact value rounded to the nearest integer, ties to even. -/
def rne (x : Fr) : Int :=
  if 0 ≤ x.n then (rneNat x.n.natAbs x.d : Int) else -(rneNat x.n.natAbs x.d : Int)

/-- The floor of an exact value. -/
def frFloor (x : Fr) : Int := x.n / (x.d : Int)

/-- The floor of the binary logarithm of a non-zero magnitude. -/
def frLog2 (x : Fr) : Int :=
  let a := x.n.natAbs
  let e : Int := (a.log2 : Int) - (x.d.log2 : Int)
  if frLt { n := a, d := x.d } (frShift (frInt 1) e) then e - 1 else e

/-! ### Floating point (R189) -/

/-- A floating-point format: fraction bits, exponent bits, and the exponent of its smallest step. -/
structure Fmt where
  fb : Nat
  eb : Nat
  emin : Int
  deriving DecidableEq, Repr

/-- FP32. -/
def f32 : Fmt := { fb := 23, eb := 8, emin := -149 }
/-- BF16. -/
def bf16 : Fmt := { fb := 7, eb := 8, emin := -133 }
/-- FP16. -/
def f16 : Fmt := { fb := 10, eb := 5, emin := -24 }

/-- A floating-point value: a signed `m × 2^q`, an infinity, or not a number. -/
inductive Fp where
  | fin (neg : Bool) (m : Nat) (q : Int)
  | inf (neg : Bool)
  | nan
  deriving DecidableEq, Repr

/-- Positive zero. -/
def fpZero : Fp := .fin false 0 0

/-- The value that bits spell in a format. -/
def fpDecode (f : Fmt) (b : Nat) : Fp :=
  let neg := bitN b (f.fb + f.eb)
  let e := fldN b (f.fb + f.eb - 1) f.fb
  let m := fldN b (f.fb - 1) 0
  if e = 2 ^ f.eb - 1 then (if m = 0 then .inf neg else .nan)
  else if e = 0 then .fin neg m f.emin
  else .fin neg (m + 2 ^ f.fb) (f.emin + (e : Int) - 1)

/-- The exact value of a finite number; zero for the others. -/
def fpVal : Fp → Fr
  | .fin neg m q => frShift (frInt (if neg then -(m : Int) else m)) q
  | _ => frInt 0

/-- A finite number. -/
def fpFinite : Fp → Bool
  | .fin _ _ _ => true
  | _ => false

/-- The magnitude of the largest finite number: significand and step exponent. -/
def fpMax (f : Fmt) : Nat × Int := (2 ^ (f.fb + 1) - 1, f.emin + 2 ^ f.eb - 3)

/-- Round an exact value to nearest even; past the largest finite number it becomes that number (`sat`) or an
infinity. A zero result is positive. -/
def fpRound (f : Fmt) (sat : Bool) (x : Fr) : Fp :=
  if x.n = 0 then fpZero
  else
    let neg := decide (x.n < 0)
    let a := frAbs x
    let q := max (frLog2 a - f.fb) f.emin
    let m := (rne (frShift a (-q))).toNat
    let mx := fpMax f
    if frLt (frShift (frInt mx.1) mx.2) (frShift (frInt m) q) then
      if sat then .fin neg mx.1 mx.2 else .inf neg
    else if m = 0 then .fin neg 0 f.emin
    else .fin neg m q

/-- The bits of a number that its format can hold. -/
def fpEncode (f : Fmt) (x : Fp) : Nat :=
  let sg (neg : Bool) : Nat := b2n neg * 2 ^ (f.fb + f.eb)
  match x with
  | .nan => (2 ^ f.eb - 1) * 2 ^ f.fb + 2 ^ (f.fb - 1)
  | .inf neg => sg neg + (2 ^ f.eb - 1) * 2 ^ f.fb
  | .fin neg m q =>
    if m = 0 then sg neg
    else
      -- bring the significand to fb + 1 bits, or the step to its least
      let e := max ((m.log2 : Int) - f.fb + q) f.emin
      let k := (rne (frShift (frInt m) (q - e))).toNat
      if k < 2 ^ f.fb then sg neg + k
      else sg neg + (e - f.emin + 1).toNat * 2 ^ f.fb + (k - 2 ^ f.fb)

/-- Negation. -/
def fpNeg : Fp → Fp
  | .fin s m q => .fin (!s) m q
  | .inf s => .inf (!s)
  | .nan => .nan

/-- Sign. -/
def fpSign : Fp → Bool
  | .fin s _ _ => s
  | .inf s => s
  | .nan => false

/-- A number is zero. -/
def fpIsZero : Fp → Bool
  | .fin _ m _ => m == 0
  | _ => false

/-- Addition rounded to nearest even. -/
def fpAdd (f : Fmt) (sat : Bool) (a b : Fp) : Fp :=
  match a, b with
  | .nan, _ => .nan
  | _, .nan => .nan
  | .inf s, .inf t => if s = t then .inf s else .nan
  | .inf s, _ => .inf s
  | _, .inf t => .inf t
  | .fin s m _, .fin t k _ =>
    if m = 0 ∧ k = 0 then .fin (s && t) 0 0 else fpRound f sat (frAdd (fpVal a) (fpVal b))

/-- Subtraction rounded to nearest even. -/
def fpSub (f : Fmt) (sat : Bool) (a b : Fp) : Fp := fpAdd f sat a (fpNeg b)

/-- Multiplication rounded to nearest even. -/
def fpMul (f : Fmt) (sat : Bool) (a b : Fp) : Fp :=
  match a, b with
  | .nan, _ => .nan
  | _, .nan => .nan
  | .inf s, .fin t m _ => if m = 0 then .nan else .inf (s != t)
  | .fin s m _, .inf t => if m = 0 then .nan else .inf (s != t)
  | .inf s, .inf t => .inf (s != t)
  | .fin s m _, .fin t k _ =>
    if m = 0 ∨ k = 0 then .fin (s != t) 0 0
    else
      match fpRound f sat (frMul (fpVal a) (fpVal b)) with
      | .fin _ m q => .fin (s != t) m q
      | x => x

/-- Division rounded to nearest even. -/
def fpDiv (f : Fmt) (sat : Bool) (a b : Fp) : Fp :=
  match a, b with
  | .nan, _ => .nan
  | _, .nan => .nan
  | .inf _, .inf _ => .nan
  | .inf s, .fin t _ _ => .inf (s != t)
  | .fin s _ _, .inf t => .fin (s != t) 0 0
  | .fin s m _, .fin t k _ =>
    if k = 0 then (if m = 0 then .nan else .inf (s != t))
    else if m = 0 then .fin (s != t) 0 0
    else
      match fpRound f sat (frDiv (fpVal a) (fpVal b)) with
      | .fin _ m q => .fin (s != t) m q
      | x => x

/-- An integer as a number of a format. -/
def fpInt (f : Fmt) (n : Int) : Fp := fpRound f true (frInt n)

/-- Convert to another format, rounding to nearest even. -/
def fpConv (f : Fmt) (sat : Bool) (a : Fp) : Fp :=
  match a with
  | .fin s m q =>
    if m = 0 then .fin s 0 0
    else match fpRound f sat (fpVal (.fin s m q)) with
      | .fin _ k r => .fin s k r
      | x => x
  | .inf s => if sat then (let mx := fpMax f; .fin s mx.1 mx.2) else .inf s
  | .nan => .nan

/-- Less-than of two numbers; not a number compares false. -/
def fpLt (a b : Fp) : Bool :=
  match a, b with
  | .nan, _ => false
  | _, .nan => false
  | .inf s, .inf t => s && !t
  | .inf s, _ => s
  | _, .inf t => !t
  | x, y => frLt (fpVal x) (fpVal y)

/-- FP32 bits as a value. -/
def f32v (b : Nat) : Fp := fpDecode f32 b

/-- A value as FP32 bits, saturating, every zero positive (R189, R197). -/
def f32out (x : Fp) : Nat := if fpIsZero x then 0 else fpEncode f32 (fpConv f32 true x)

/-- A value as BF16 bits, saturating, every zero positive (R134, R198). -/
def bf16out (x : Fp) : Nat :=
  let y := fpConv bf16 true x
  if fpIsZero y then 0 else fpEncode bf16 y

/-- A value as FP16 bits, saturating, every zero positive (R198). -/
def f16out (x : Fp) : Nat :=
  let y := fpConv f16 true x
  if fpIsZero y then 0 else fpEncode f16 y

/-- An exact value as BF16 bits (R134). -/
def bf16of (x : Fr) : Nat := bf16out (fpRound bf16 true x)

/-! ### BF12 (R190 to R192, R202, R203) -/

/-- A BF12 group: exponent, mantissas, the right shift r, and what was counted. -/
structure Bf12 where
  e : Nat
  m : List Int
  r : Nat := 0
  sat : Nat := 0
  flushed : Bool := false
  clamped : Bool := false
  deriving DecidableEq, Repr

/-- A mantissa saturates at ±2,047. -/
def bf12Sat (v : Int) : Int := if 2047 < v then 2047 else if v < -2047 then -2047 else v

/-- How many of some mantissas saturate. -/
def bf12SatCount (l : List Int) : Nat := l.countP (fun v => decide (2047 < v ∨ v < -2047))

/-- The largest magnitude of a list of exact values. -/
def frMaxAbs (l : List Fr) : Fr := l.foldl (fun m x => if frLt m (frAbs x) then frAbs x else m) (frInt 0)

/-- Form a group without rotation (R191). -/
def bf12Form (xs : List Fr) : Bf12 :=
  let mx := frMaxAbs xs
  if mx.n = 0 then { e := 0, m := xs.map (fun _ => 0) }
  else
    let e := min 255 (max 1 (frLog2 mx + 128))
    let raw := xs.map (fun x => rne (frShift x (138 - e)))
    { e := e.toNat, m := raw.map bf12Sat, sat := bf12SatCount raw }

/-- Whether the number of ones of a number is odd. -/
def parity : Nat → Nat → Bool
  | 0, _ => false
  | n + 1, v => (v % 2 == 1) != parity n (v / 2)

/-- The Walsh–Hadamard entry at row r, column k, of nine index bits (R202). -/
def hadSign (r k : Nat) : Int := if parity 9 (r &&& k) then -1 else 1

/-- One block of the rotation: H · D · w, exactly (R202). `sign k` is bit k of the sign set. -/
def rotBlock (sign : Nat → Bool) (w : List Int) : List Int :=
  let d := w.zipIdx.map (fun x => if sign x.2 then -x.1 else x.1)
  (List.range w.length).map (fun r => (d.zipIdx.map (fun x => hadSign r x.2 * x.1)).sum)

/-- The blocks of `b` elements of a list. -/
def blocksOf {α : Type} (b : Nat) (l : List α) : List (List α) :=
  (List.range (l.length / b)).map (fun i => (l.drop (i * b)).take b)

/-- Bits in the binary form of a magnitude. -/
def bitLength (n : Nat) : Nat := if n = 0 then 0 else n.log2 + 1

/-- Form a group with rotation by blocks of `b` (R203). -/
def bf12Rotate (b : Nat) (sign : Nat → Bool) (xs : List Fr) : Bf12 :=
  let mx := frMaxAbs xs
  if mx.n = 0 then { e := 0, m := xs.map (fun _ => 0) }
  else
    let e0 := frLog2 mx + 128
    let w := xs.map (fun x => rne (frShift x (150 - e0)))
    let y := (blocksOf b w).flatMap (rotBlock sign)
    let r := bitLength (y.foldl (fun a v => max a v.natAbs) 0) - 11
    let e := e0 + (r : Int) - 12
    if e < 0 then { e := 0, m := xs.map (fun _ => 0), r := r, flushed := true }
    else if 255 < e then
      let raw := y.map (fun v => rne (frShift (frInt v) (e0 - 12 - 255)))
      { e := 255, m := raw.map bf12Sat, r := r, sat := bf12SatCount raw, clamped := true }
    else
      let raw := y.map (fun v => rne (frShift (frInt v) (-(r : Int))))
      { e := e.toNat, m := raw.map bf12Sat, r := r, sat := bf12SatCount raw }

/-! ### Weights as integers (R186, R187, R193 to R195) -/

/-- The weights of one row and chunk as integers with their shift, or the status that stops the operation. -/
inductive Weights where
  | ok (q : List Int) (shift : Int)
  | bad (status : Nat)
  deriving DecidableEq, Repr

/-- An FP8 weight: sign, E_eff and significand n; nothing for a non-finite byte (R187). -/
def fp8 (e5 : Bool) (b : Nat) : Option (Bool × Nat × Nat) :=
  let neg := bitN b 7
  if e5 then
    let e := fldN b 6 2
    if e = 31 then none else some (neg, max e 1, fldN b 1 0 + (if e = 0 then 0 else 4))
  else
    let e := fldN b 6 3
    if b % 128 = 0x7F then none else some (neg, max e 1, fldN b 2 0 + (if e = 0 then 0 else 8))

/-- The integer form of a row's codes in a chunk (R193 to R195), from format wfmt. -/
def weightsOf (wfmt : Nat) (codes : List Nat) : Weights :=
  if wfmt = 0 then .ok (codes.map (sgn 8)) 0
  else if wfmt = 1 then .ok (codes.map (sgn 4)) 0
  else
    let e5 := wfmt == 3
    match codes.mapM (fp8 e5) with
    | none => .bad 0x0400
    | some ws =>
      let sg (w : Bool × Nat × Nat) (v : Nat) : Int := if w.1 then -(v : Int) else v
      if e5 then
        let nz := ws.filter (fun w => w.2.2 != 0)
        let emax := nz.foldl (fun a w => max a w.2.1) (if nz.isEmpty then 1 else 0)
        if nz.any (fun w => decide (w.2.1 + 15 < emax)) then .bad 0x0401
        else .ok (ws.map (fun w => if w.2.2 = 0 then 0 else sg w (w.2.2 * 2 ^ (w.2.1 + 15 - emax)))) ((emax : Int) - 32)
      else .ok (ws.map (fun w => sg w (w.2.2 * 2 ^ (w.2.1 - 1)))) (-9)

/-- The largest magnitude of a narrow weight. -/
def narrowLim (w4 : Bool) : Nat := if w4 then 7 else 127

/-- The FP16 row scale of a BF16 master row of largest magnitude `a` (R206): a scale that rounds to zero becomes the least. -/
def renarrowScale (w4 : Bool) (a : Fr) : Nat :=
  if a.n = 0 then 0
  else
    let s := f16out (fpRound f16 true (frDiv a (frInt (narrowLim w4))))
    if s = 0 then 1 else s

/-- The narrow weights of a master row under its scale, and how many clamp (R206, R207). -/
def renarrow (w4 : Bool) (scale : Nat) (ws : List Fr) : List Int × Nat :=
  let lim : Int := narrowLim w4
  if scale = 0 then (ws.map (fun _ => 0), 0)
  else
    let raw := ws.map (fun w => rne (frDiv w (fpVal (fpDecode f16 scale))))
    (raw.map (fun v => max (-lim) (min lim v)), raw.countP (fun v => decide (lim < v ∨ v < -lim)))

/-! ### Combination at the edge (R197, R198) -/

/-- `v × 2^k` rounded to FP32 (R197, scale2). -/
def scale2 (v : Fp) (k : Int) : Fp :=
  match v with
  | .fin s m q => if m = 0 then .fin s 0 0 else fpConv f32 true (.fin s m (q + k))
  | x => x

/-- Add the chunk sums of a token and column to an FP32 value, in ascending chunk order. -/
def edgeSum (f : Fp) : List (Int × Int) → Fp
  | [] => f
  | (acc, sh) :: t => edgeSum (fpAdd f32 true f (scale2 (fpRound f32 true (frInt acc)) sh)) t

/-- Narrow a result to ofmt (R198). -/
def narrow (ofmt : Nat) (x : Fp) : Nat :=
  if ofmt = 0 then bf16out x else if ofmt = 1 then f16out x else f32out x

/-- Bytes of a result element. -/
def ofmtBytes (ofmt : Nat) : Nat := if ofmt = 2 then 4 else 2

end Sys2Proof.Machine
end

