-- ==== Sys2Proof/Machine/ArrayDesc.lean ====
section
/-!
DEFINITION. The array operation descriptor, its validation, and the packing of small problems
(R185, R201, R204, R206, R219 to R229, R240 to R243).
-/

namespace Sys2Proof.Machine

/-- An array operation descriptor (Table 8.6). -/
structure ArrDesc where
  version : Nat
  mode : Nat
  stat : Nat
  transposed : Bool
  accIn : Bool
  bias : Bool
  rotate : Bool
  rotBlock : Nat
  wfmt : Nat
  afmt : Nat
  ofmt : Nat
  signSet : Nat
  renarrow : Bool
  chunk : Nat
  wgrid : Nat
  check : Nat
  array : Nat
  partner : Nat
  slot : Nat
  packed : Bool
  lane : Nat
  multicast : Bool
  maxabs : Bool
  bData : Bool
  aGen : Bool
  eFix : Nat
  tokens : Nat
  k : Nat
  n : Nat
  aAddr : Nat
  aStride : Nat
  aLag : Nat
  pLag : Nat
  bLag : Nat
  wAddr : Nat
  wStride : Nat
  scaleAddr : Nat
  biasAddr : Nat
  outStride : Nat
  outStream : Nat
  outPeg : Nat
  pAddr : Nat
  pStride : Nat
  flagDiv : Nat
  aTag : Nat
  outTag : Nat
  pTag : Nat
  bTag : Nat
  /-- Reserved bits are zero. -/
  clean : Bool
  deriving DecidableEq, Repr

/-- Read the 128 bytes of a descriptor. -/
def parseArr (b : List Byte) : ArrDesc :=
  let n (o k : Nat) := leAt b o k
  { version := fldN (n 0 1) 3 0, mode := fldN (n 0 1) 7 4, stat := fldN (n 1 1) 1 0, transposed := bitN (n 1 1) 2,
    accIn := bitN (n 1 1) 3, bias := bitN (n 1 1) 4, rotate := bitN (n 1 1) 5, rotBlock := 64 * 2 ^ fldN (n 1 1) 7 6,
    wfmt := fldN (n 2 1) 1 0, afmt := fldN (n 2 1) 2 2, ofmt := fldN (n 2 1) 4 3, signSet := fldN (n 2 1) 6 5,
    renarrow := bitN (n 2 1) 7, chunk := 64 * (fldN (n 3 1) 2 0 + 1), wgrid := fldN (n 3 1) 5 3,
    check := fldN (n 3 1) 7 6, array := fldN (n 4 1) 1 0, partner := fldN (n 4 1) 3 2, slot := fldN (n 4 1) 6 4,
    packed := bitN (n 4 1) 7, lane := fldN (n 5 1) 1 0, multicast := bitN (n 5 1) 2, maxabs := bitN (n 5 1) 3,
    bData := bitN (n 5 1) 4, aGen := bitN (n 5 1) 5, eFix := n 6 1, tokens := fldN (n 8 4) 23 0 + 1,
    k := n 12 2 + 1, n := n 14 2 + 1, aAddr := n 16 8, aStride := n 24 4, aLag := n 28 1, pLag := n 29 1,
    bLag := n 30 1, wAddr := n 32 8, wStride := n 40 4, scaleAddr := n 48 8, biasAddr := n 56 8, outStride := n 72 4,
    outStream := fldN (n 76 2) 11 0, outPeg := n 78 2, pAddr := n 80 8, pStride := n 88 4, flagDiv := n 92 4, aTag := n 96 8,
    outTag := n 104 8, pTag := n 112 8, bTag := n 120 8,
    clean := fldN (n 5 1) 7 6 == 0 && n 7 1 == 0 && n 11 1 == 0 && n 31 1 == 0 && n 44 4 == 0 &&
      fldN (n 76 2) 15 12 == 0 }

/-- MULADD. -/
def ArrDesc.linear (d : ArrDesc) : Bool := d.mode == 0
/-- W4 double rate (R219, R220). -/
def ArrDesc.double (d : ArrDesc) : Bool := d.linear && d.wfmt == 1 && !d.transposed
/-- N_w (Table 8.2). -/
def ArrDesc.nw (d : ArrDesc) : Nat := if d.double then 1024 else 512
/-- ABFT is selected. -/
def ArrDesc.abft (d : ArrDesc) : Bool := bitN d.check 0
/-- Paired execution is selected. -/
def ArrDesc.paired (d : ArrDesc) : Bool := bitN d.check 1
/-- Stored weight rows, and elements of each. -/
def ArrDesc.wRows (d : ArrDesc) : Nat := if d.transposed then d.k else d.n
/-- Elements of a stored weight row. -/
def ArrDesc.wCols (d : ArrDesc) : Nat := if d.transposed then d.n else d.k
/-- Bytes of a stored weight row (R186, R206). -/
def ArrDesc.wRowBytes (d : ArrDesc) : Nat :=
  if d.renarrow then 2 * d.wCols else if d.wfmt = 1 then ceilDiv d.wCols 2 else d.wCols
/-- Bytes of a stored weight row at the operation's format: of a re-narrowed row, those of its target format (R215). -/
def ArrDesc.heldRowBytes (d : ArrDesc) : Nat := if d.wfmt = 1 then ceilDiv d.wCols 2 else d.wCols
/-- Reduction positions of a weight tile: whole chunks, at most 512 rows of cells (R210). -/
def ArrDesc.kTile (d : ArrDesc) : Nat := d.chunk * (512 / d.chunk)
/-- Tokens of a token block (R213). -/
def ArrDesc.block (d : ArrDesc) : Nat := if d.double then 256 else 512
/-- Column blocks. -/
def ArrDesc.nTiles (d : ArrDesc) : Nat := ceilDiv d.n d.nw
/-- K-tiles. -/
def ArrDesc.kTiles (d : ArrDesc) : Nat := ceilDiv d.k d.kTile
/-- Output tiles. -/
def ArrDesc.outTiles (d : ArrDesc) : Nat := ceilDiv d.tokens d.block * d.nTiles

/-- The operands of a descriptor (V11), with their extents. -/
def arrOperands (d : ArrDesc) : List Operand :=
  (if d.aGen then [{ off := 16, ext := 32 }] else [{ off := 16, ext := (d.tokens - 1) * d.aStride + 2 * d.k }])
  ++ [{ off := 32, ext := (d.wRows - 1) * d.wStride + d.wRowBytes, cache := true }]
  ++ (if d.linear && (!d.renarrow || d.maxabs) then
        [{ off := 48, ext := if d.renarrow then 4 * d.wRows else 2 * d.wRows, al := 2, cache := true }] else [])
  ++ (if d.bias then [{ off := 56, ext := 4 * d.n, cache := true }] else [])
  ++ [{ off := 64, ext := (d.tokens - 1) * d.outStride + d.n * ofmtBytes d.ofmt, out := true }]
  ++ (if d.accIn then [{ off := 80, ext := (d.tokens - 1) * d.pStride + 4 * d.n }] else [])

/-- Steps V1 to V4 and V5 of Table 8.7 for one descriptor; `blk` is its parameter block. -/
def arrShape (cls : Nat) (d : ArrDesc) (blk : Option ConvBlock) : List Nat :=
  [ if d.version ≠ 1 then St.DESC_VERSION_INVALID else 0,
    if d.clean = false ∨ 5 < d.mode ∨ d.stat = 3 then St.DESC_RESERVED_NONZERO else 0,
    if d.ofmt = 3 ∨ (d.transposed ∧ (d.wfmt = 3 ∨ d.rotate)) ∨ (d.renarrow ∧ (cls ≠ clsA ∨ 1 < d.wfmt)) then
      St.FORMAT_COMBINATION_INVALID else 0,
    if d.rotate ∧ d.chunk % d.rotBlock ≠ 0 then St.CHUNK_INVALID else 0,
    if d.outStream < 0x400 ∨ d.flagDiv = 0 then St.SHAPE_INVALID
    else match blk with
      | some b =>
        if b.status ≠ 0 then b.status
        else if d.aStride ≠ 0 ∨ d.tokens ≠ b.hOut * b.wOut ∨ d.k ≠ b.kLen ∨ d.flagDiv ≠ b.wOut then
          St.CONV_PARAM_INVALID else 0
      | none => 0,
    if (if d.linear then d.wgrid ≠ 0 ∨ d.eFix ≠ 0 ∨ (d.transposed ∧ d.stat ≠ 0)
        else 4 < d.wgrid ∨ d.eFix = 0 ∨ d.scaleAddr ≠ 0 ∨ 1 < d.wfmt ∨ d.rotate ∨ d.transposed ∨ d.abft) then
      St.MODE_COMBINATION_INVALID else 0,
    if d.transposed ∧ cls = clsS then St.CLASS_MODE_INVALID else 0 ]

/-- Step V8: the checks a class must select (R240), and a partner other than the array. -/
def arrChecks (s : State) (c cls : Nat) (d : ArrDesc) : Nat :=
  let needA := cls == clsS || rdB s (A.ABFT_CTL c) 0
  let needP := cls == clsS || rdB s (A.ABFT_CTL c) 1
  if (d.linear && needA && !d.abft) || (!d.linear && needP && !d.paired) || (d.paired && d.partner == d.array) then
    St.CHECK_INSUFFICIENT
  else 0

/-! ### Packing (R221 to R224) -/

/-- The slab rows and columns of a problem's rectangle. -/
def slabRect (d : ArrDesc) : Nat × Nat := (ceilDiv d.k 64, ceilDiv d.n (if d.double then 128 else 64))

/-- The first free position of a rectangle in row-major slab order (R223). -/
def placeRect (occ : List (Nat × Nat)) (h w : Nat) : Option (Nat × Nat) :=
  ((List.range 64).map (fun i => (i / 8, i % 8))).find? (fun p =>
    decide (p.1 + h ≤ 8) && decide (p.2 + w ≤ 8) &&
      !(occ.any (fun q => decide (p.1 ≤ q.1 ∧ q.1 < p.1 + h ∧ p.2 ≤ q.2 ∧ q.2 < p.2 + w))))

/-- Place problems in order: first slab row and column, height and width of each; none when one does not fit. -/
def placeAll : List (Nat × Nat) → List (Nat × Nat) → Option (List (Nat × Nat × Nat × Nat))
  | _, [] => some []
  | occ, (h, w) :: t =>
    match placeRect occ h w with
    | some p =>
      let cells := (List.range (h * w)).map (fun i => (p.1 + i / w, p.2 + i % w))
      (placeAll (occ ++ cells) t).map (fun l => (p.1, p.2, h, w) :: l)
    | none => none

/-- The slabs of each problem of one array, by slot (R223); a problem that is not packed has the whole array. -/
def slabsOf (ds : List ArrDesc) (slot : Nat) : Nat × Nat × Nat × Nat :=
  let ord := sortBy (fun (a b : ArrDesc) => decide (a.slot < b.slot)) ds
  match placeAll [] (ord.map slabRect) with
  | some ps => (((ord.zip ps).find? (fun x => x.1.slot == slot)).map (·.2)).getD (0, 0, 8, 8)
  | none => (0, 0, 8, 8)

/-- What a problem may have of its own beside others on the same slab rows is left out: its weights, its outputs, its peg
and its slot (R222). -/
def ArrDesc.shared (d : ArrDesc) : ArrDesc :=
  { d with
    n := 0, slot := 0, multicast := false, maxabs := false, renarrow := false, bData := false, bLag := 0, bTag := 0, wAddr := 0,
    wStride := 0, scaleAddr := 0, ofmt := 0, outStride := 0, outStream := 0, outPeg := 0, outTag := 0 }

/-- Two problems on overlapping slab rows differ only in weights, outputs and pegs (R222). -/
def shareRows (d e : ArrDesc) : Bool := d.shared == e.shared

/-- The problems of one array obey R221 and R222. -/
def packingOk (ds : List ArrDesc) : Bool :=
  match ds with
  | [d] => !d.packed || (decide (d.k ≤ 512) && decide (d.n ≤ d.nw))
  | [] => true
  | d0 :: _ =>
    let ord := sortBy (fun (a b : ArrDesc) => decide (a.slot < b.slot)) ds
    ds.all (fun d => d.packed && decide (d.k ≤ 512) && decide (d.n ≤ d.nw) && d.mode == d0.mode && d.stat == d0.stat
      && d.wfmt == d0.wfmt && d.afmt == d0.afmt && d.chunk == d0.chunk && d.rotate == d0.rotate
      && d.rotBlock == d0.rotBlock && d.signSet == d0.signSet && d.paired == d0.paired && d.partner == d0.partner
      && d.lane == d0.lane)
    && decide (ds.length ≤ 8) && (ds.map (·.slot)).Nodup &&
    (match placeAll [] (ord.map slabRect) with
     | none => false
     | some ps =>
       let xs := ord.zip ps
       xs.all (fun x => xs.all (fun y =>
         !(decide (x.2.1 < y.2.1 + y.2.2.2.1 ∧ y.2.1 < x.2.1 + x.2.2.2.1)) || shareRows x.1 y.1)))

/-- The arrays that an issue names, in order of first mention. -/
def namedArrays (ds : List ArrDesc) : List Nat := (ds.map (·.array)).eraseDups

/-- Steps V9 and V10 for the issue. -/
def issueStatus (ds : List ArrDesc) : List Nat :=
  let as := namedArrays ds
  let partners := ((ds.filter (·.paired)).map (·.partner)).eraseDups
  [ if as.all (fun a => packingOk (ds.filter (·.array == a))) && partners.all (fun p => !as.contains p) then 0
    else St.PACKING_INVALID,
    match ds with
    | d0 :: _ =>
      if ds.all (fun d => d.afmt == d0.afmt && d.chunk == d0.chunk && d.rotate == d0.rotate
          && d.rotBlock == d0.rotBlock && d.signSet == d0.signSet && d.stat == d0.stat) then 0
      else St.BROADCAST_MISMATCH
    | [] => 0 ]

/-- The first non-zero status of a list. -/
def firstStatus (l : List Nat) : Nat := (l.find? (· != 0)).getD 0

/-- Alignment of strides, and the tag blocks (V11). -/
def arrAddresses (s : State) (c : Nat) (desc : List Byte) (d : ArrDesc) (blk : Option ConvBlock) : Nat :=
  let groups := ceilDiv d.tokens d.flagDiv
  let inMem (a n : Nat) : Bool := a % 64 == 0 && (inDram a n || inScratch a n)
  let st := operandsStatus s c desc (arrOperands d)
  if st ≠ 0 then st
  else if d.aStride % 2 ≠ 0 ∨ d.wStride % 64 ≠ 0 ∨ d.outStride % 64 ≠ 0 ∨ (d.accIn ∧ d.pStride % 64 ≠ 0) then
    St.OPERAND_ADDR_INVALID
  else if inMem d.aTag (8 + (match blk with | some b => b.hIn | none => groups)) = false
      ∨ inMem d.outTag (8 + groups) = false ∨ (d.accIn ∧ inMem d.pTag (8 + groups) = false)
      ∨ (d.bData ∧ (inMem d.bTag 8 || (d.bTag % 64 == 0 && inCache d.bTag 8)) = false)
      ∨ (d.bData = false ∧ d.bTag ≠ 0)
      ∨ (match blk with | some b => inMem b.addr (b.extent 2) | none => true) = false then
    St.OPERAND_ADDR_INVALID
  else 0

/-- Replace fenced arrays (R243): each by the lowest-numbered unfenced array the issue does not use; none when no
array is left. -/
def substitute (s : State) (c : Nat) (used : List Nat) : Option (List (Nat × Nat)) :=
  let free := (List.range 4).filter (fun a => !used.contains a && !unitFenced s c a)
  let bad := used.filter (fun a => unitFenced s c a)
  if free.length < bad.length then none
  else some (used.map (fun a => if unitFenced s c a then (a, free.getD (bad.idxOf a) a) else (a, a)))

end Sys2Proof.Machine
end

