-- ==== Sys2Proof/Machine/ArrayMath.lean ====
section
/-!
DEFINITION. What an array computes: weight tiles as integers, activation rows, groups, chunk sums and the edge
(R186 to R207, R225, R227, R228, R260, R261).
-/

namespace Sys2Proof.Machine

/-! ### Elements -/

/-- The exact value of a 16-bit element, none when it is not finite: BF16, or FP16 where `half` is set. -/
def elem16 (half : Bool) (v : Nat) : Option Fr :=
  let x := fpDecode (if half then f16 else bf16) v
  if fpFinite x then some (fpVal x) else none

/-- Little-endian elements of `n` bytes each. -/
def elems (n : Nat) (b : List Byte) : List Nat := (List.range (b.length / n)).map (fun i => leAt b (n * i) n)

/-- Cut a list into pieces of `k`; the last may be shorter. -/
def pieces {α : Type} (k : Nat) (l : List α) : List (List α) :=
  (List.range (ceilDiv l.length k)).map (fun i => (l.drop (k * i)).take k)

/-! ### Weight tiles (R186, R193 to R195, R206, R207, R225) -/

/-- The codes of elements `e0` to `e0 + n - 1` of stored weight row `r`, read through the loader. -/
def rowCodes (s : State) (op : Op) (d : ArrDesc) (r e0 n : Nat) : Nat × List Nat × State :=
  if d.renarrow then
    match opRead s op 32 (r * d.wStride + 2 * e0) (2 * n) with
    | (st, b, s) => (st, elems 2 b, s)
  else if d.wfmt = 1 then
    match opRead s op 32 (r * d.wStride + e0 / 2) (ceilDiv (n + e0 % 2) 2) with
    | (st, b, s) => (st, ((b.flatMap (fun x => [x.toNat % 16, x.toNat / 16])).drop (e0 % 2)).take n, s)
  else
    match opRead s op 32 (r * d.wStride + e0) n with
    | (st, b, s) => (st, b.map (·.toNat), s)

/-- A stored row ready for the cells: its codes or integers, its scale, and how many weights clamped. -/
structure LoadedRow where
  codes : List Nat := []
  ints : List Int := []
  scale : Nat := 0
  clamped : Nat := 0
  deriving DecidableEq, Repr

/-- The largest magnitude of a master row (R206): from the max-abs vector, or from the row itself (R207). -/
def rowMax (s : State) (op : Op) (d : ArrDesc) (r : Nat) : Nat × Option Fr × State :=
  if d.maxabs then
    match opRead s op 48 (4 * r) 4 with
    | (st, b, s) =>
      let x := fpDecode f32 (leNat b)
      (st, if fpFinite x then some (frAbs (fpVal x)) else none, s)
  else
    match rowCodes s op d r 0 d.wCols with
    | (st, l, s) => (st, (l.mapM (elem16 false)).map frMaxAbs, s)

/-- The scale of a row to be re-narrowed: the one formed in the operation's first pass over it (R207), or one formed now. -/
def rowScale (s : State) (op : Op) (d : ArrDesc) (r : Nat) : Nat × Option Nat × State :=
  match op.scales.find? (fun e => e.1 == r) with
  | some e => (0, some e.2, s)
  | none =>
    match rowMax s op d r with
    | (st, a, s) => (st, a.map (renarrowScale (d.wfmt == 1)), s)

/-- Load elements `e0` to `e0 + n - 1` of stored row `r` (R195, R206). -/
def loadRow (s : State) (op : Op) (d : ArrDesc) (r e0 n : Nat) : Nat × LoadedRow × State :=
  match rowCodes s op d r e0 n with
  | (0, l, s) =>
    if d.renarrow then
      match rowScale s op d r with
      | (0, some a, s) =>
        match l.mapM (elem16 false) with
        | some ws =>
          let x := renarrow (d.wfmt == 1) a ws
          (0, { ints := x.1, scale := a, clamped := x.2 }, s)
        | none => (St.WEIGHT_NONFINITE, {}, s)
      | (0, none, s) => (St.WEIGHT_NONFINITE, {}, s)
      | (st, _, s) => (st, {}, s)
    else if d.linear then
      match opRead s op 48 (2 * r) 2 with
      | (0, b, s) =>
        if (elem16 true (leNat b)).isSome then (0, { codes := l, scale := leNat b }, s)
        else (St.WEIGHT_NONFINITE, {}, s)
      | (st, _, s) => (st, {}, s)
    else (0, { codes := l }, s)
  | (st, _, s) => (st, {}, s)

/-- Load rows in order; the first failure stops. -/
def loadRows (s : State) (op : Op) (d : ArrDesc) (rs : List Nat) (e0 n : Nat) : Nat × List LoadedRow × State :=
  rs.foldl (fun acc r =>
    if acc.1 ≠ 0 then acc
    else
      match loadRow acc.2.2 op d r e0 n with
      | (st, x, s) => (st, acc.2.1 ++ [x], s)) (0, [], s)

/-- One array column's weights in one chunk as integers with their shift (R193, R194). -/
def chunkInts (d : ArrDesc) (codes : List Nat) (ints : List Int) : Weights :=
  if d.renarrow then .ok ints 0 else weightsOf d.wfmt codes

/-- Several chunks, or the status that stops the operation. -/
def chunksInts (d : ArrDesc) : List (List Nat × List Int) → Nat × List (List Int × Int)
  | [] => (0, [])
  | (c, i) :: t =>
    match chunkInts d c i, chunksInts d t with
    | .ok q sh, (0, r) => (0, (q, sh) :: r)
    | .ok _ _, (st, _) => (st, [])
    | .bad st, _ => (st, [])

/-- Weight tile (kt, nt): array columns nt × N_w onwards, reduction positions kt × kTile onwards. -/
def loadTile (s : State) (op : Op) (d : ArrDesc) (kt nt : Nat) : Nat × WTile × Nat × State :=
  let j0 := nt * d.nw
  let nj := min d.nw (d.n - j0)
  let k0 := kt * d.kTile
  let nk := min d.kTile (d.k - k0)
  let empty : WTile := { kt := kt, nt := nt, rows := [], scales := [] }
  let finish (rows : List LoadedRow) (cols : List (List Nat × List Int)) (s : State) : Nat × WTile × Nat × State :=
    let cs := cols.map (fun c =>
      let n := if d.renarrow then c.2.length else c.1.length
      chunksInts d ((List.range (ceilDiv n d.chunk)).map (fun i =>
        ((c.1.drop (i * d.chunk)).take d.chunk, (c.2.drop (i * d.chunk)).take d.chunk))))
    (firstStatus (cs.map (·.1)), { kt := kt, nt := nt, rows := cs.map (·.2), scales := rows.map (·.scale) },
      (rows.map (·.clamped)).sum, s)
  if d.transposed then
    match loadRows s op d ((List.range nk).map (k0 + ·)) j0 nj with
    | (0, rows, s) =>
      finish rows ((List.range nj).map (fun j => (rows.map (fun r => r.codes.getD j 0), rows.map (fun r => r.ints.getD j 0)))) s
    | (st, _, s) => (st, empty, 0, s)
  else
    match loadRows s op d ((List.range nj).map (j0 + ·)) k0 nk with
    | (0, rows, s) => finish rows (rows.map (fun r => (r.codes, r.ints))) s
    | (st, _, s) => (st, empty, 0, s)

/-! ### Activations (R191, R192, R200, R203, R227, R260) -/

/-- The K element codes of token `t`. -/
def actCodes (s : State) (op : Op) (d : ArrDesc) (blk : Option ConvBlock) (t : Nat) : Nat × List Nat × State :=
  match blk with
  | none =>
    match opRead s op 16 (t * d.aStride) (2 * d.k) with
    | (st, b, s) => (st, elems 2 b, s)
  | some b =>
    (b.taps 2 (t / b.wOut) (t % b.wOut)).foldl (fun acc x =>
      if acc.1 ≠ 0 then acc
      else
        match x.2.2 with
        | none => (0, acc.2.1 ++ List.replicate b.cIn 0, acc.2.2)
        | some o =>
          match memRead acc.2.2 (opAgent op) (b.addr + o) (2 * b.cIn) op.cls (echo := execEcho s op.exec) with
          | (st, y, s) => (st, acc.2.1 ++ elems 2 y, s)) (0, [], s)

/-- A formed group: mantissas and exponent, and what was counted. -/
abbrev Group12 := Bf12

/-- The group of one chunk of a token (R191, R203, R227). -/
def formGroup (d : ArrDesc) (sign : Nat → Bool) (xs : List Fr) : Group12 :=
  if d.linear then
    if d.rotate then bf12Rotate d.rotBlock sign (xs ++ List.replicate (d.chunk - xs.length) (frInt 0))
    else bf12Form xs
  else
    let raw := xs.map (fun x => rne (frShift x (138 - (d.eFix : Int))))
    { e := d.eFix, m := raw.map bf12Sat, sat := bf12SatCount raw }

/-- The exact value of element `k` of a token; in transposed reading it is multiplied by its row scale, in FP32 (R200).
None when it is not finite. -/
def actValue (d : ArrDesc) (scales : List Nat) (k code : Nat) : Option Fr :=
  (elem16 (d.afmt == 1) code).map (fun x =>
    if d.transposed then fpVal (fpMul f32 true (fpRound f32 true x) (fpDecode f16 (scales.getD k 0))) else x)

/-- The groups of a token's chunks; none for a chunk with an element that is not finite (R190 to R192). -/
def tokenGroups (d : ArrDesc) (sign : Nat → Bool) (scales codes : List Nat) : List (Option Group12) :=
  (pieces d.chunk codes.zipIdx).map (fun l => (l.mapM (fun x => actValue d scales x.2 x.1)).map (formGroup d sign))

/-- The order in which the groups of `n` tokens are formed, as token and chunk: every token passes one K-tile before any
passes the next (R213). -/
def groupOrder (d : ArrDesc) (n : Nat) : List (Nat × Nat) :=
  let per := d.kTile / d.chunk
  (List.range d.kTiles).flatMap (fun kt => (List.range n).flatMap (fun t =>
    ((List.range per).map (fun i => (t, kt * per + i))).filter (fun x => decide (x.2 < ceilDiv d.k d.chunk))))

/-! ### Chunk results and the edge (R196, R197, R228) -/

/-- The sum of products of two lists. -/
def dot (m q : List Int) : Int := ((m.zip q).map (fun x => x.1 * x.2)).sum

/-- One chunk result of a non-linear mode (Table 8.3): padding positions are excluded. -/
def chunkResult (mode wgrid : Nat) (m q : List Int) : Int :=
  let ps := m.zip (q.map (· * 2 ^ wgrid))
  if mode = 1 then (ps.map (fun x => ((x.1 - x.2).natAbs : Int))).sum
  else if mode = 2 then (ps.map (fun x => (x.1 - x.2) * (x.1 - x.2))).sum
  else if mode = 5 then ((ps.countP (fun x => decide (x.2 < x.1)) : Nat) : Int)
  else
    match ps.map (fun x => x.1 + x.2) with
    | [] => 0
    | y :: t => t.foldl (fun a b => if mode = 3 then min a b else max a b) y

/-- Combine chunk results of a non-linear mode. -/
def combine (mode : Nat) : List Int → Int
  | [] => 0
  | y :: t => if mode = 3 then t.foldl min y else if mode = 4 then t.foldl max y else t.foldl (· + ·) y

/-- The power of two of a non-linear edge value. -/
def edgeShift (mode eFix : Nat) : Int :=
  if mode = 2 then 2 * ((eFix : Int) - 138) else if mode = 5 then 0 else (eFix : Int) - 138

/-- A result that is not a number has no stated value: it is some finite code of the format, since the edge writes no
infinity, no NaN and no negative zero (R189, log entry 7). -/
def settle (ofmt : Nat) (x : Fp) (args : List Nat) : Nat :=
  match x with
  | .nan =>
    let v := Config.openResult 0x0800 args
    if ofmt = 0 then finiteCode 0x7F80 0x8000 v
    else if ofmt = 1 then finiteCode 0x7C00 0x8000 v else finiteCode 0x7F800000 0x80000000 v
  | y => narrow ofmt y

/-- The result bits of a token and column from its chunk sums with their shifts (R197), or from its combined chunk
result (R228). -/
def edgeValue (d : ArrDesc) (part : Nat) (sums : List (Int × Int)) (scale bias : Nat) : Nat :=
  let p := fpDecode f32 part
  let f :=
    if d.linear then
      let f := edgeSum (if d.accIn then p else fpZero) sums
      if d.transposed then f else fpMul f32 true f (fpDecode f16 scale)
    else
      let v := fpRound f32 true (frShift (frInt (combine d.mode (sums.map (·.1)))) (edgeShift d.mode d.eFix))
      if d.accIn = false then v
      else if d.mode = 3 then (if fpLt p v then p else v)
      else if d.mode = 4 then (if fpLt v p then p else v)
      else fpAdd f32 true v p
  let f := if d.bias then fpAdd f32 true f (fpDecode f32 bias) else f
  settle d.ofmt f [part, scale, bias]

/-- A bit of a 48-bit sum flips. -/
def flipBit (v : Int) (bit : Nat) : Int := sgn 48 (unsgn 48 v ^^^ 2 ^ bit)

/-- The chunk sum or result of a group and a column's integers. -/
def chunkSum (d : ArrDesc) (m q : List Int) : Int := if d.linear then dot m q else chunkResult d.mode d.wgrid m q

/-- The chunk sums of a token with its groups, for one array column; `flips` are the chunks and bits that flip. -/
def chunkSums (d : ArrDesc) (gs : List Group12) (w : List (List Int × Int)) (flips : List (Nat × Nat)) :
    List (Int × Int) :=
  (gs.zip w).zipIdx.map (fun x =>
    let a := (flips.filter (fun f => f.1 == x.2)).foldl (fun a f => flipBit a f.2) (chunkSum d x.1.1.m x.1.2.1)
    (a, (x.1.1.e : Int) - 138 + x.1.2.2))

/-- The integers of the columns of an output tile, each as its chunks with their shifts. -/
def tileColumns (tiles : List WTile) (n : Nat) : List (List (List Int × Int)) :=
  (List.range n).map (fun j => tiles.flatMap (fun u => u.rows.getD j []))

/-- The same with the integer of one weight replaced: column, reduction position, integer. -/
def spoilColumns (d : ArrDesc) (cols : List (List (List Int × Int))) (w : Option (Nat × Nat × Int)) :
    List (List (List Int × Int)) :=
  match w with
  | none => cols
  | some (j, k, q) =>
    cols.zipIdx.map (fun c => if c.2 = j then
      c.1.zipIdx.map (fun x => if x.2 = k / d.chunk then (x.1.1.set (k % d.chunk) q, x.1.2) else x.1) else c.1)

/-! ### ABFT (R235) -/

/-- The residue modulo 2^31 - 1. -/
def residue (v : Int) : Int := v % 2147483647

/-- The checks of chunk `c` of an output tile: the first token whose row check fails, and the first column whose column check
fails. `gs` are the tokens' groups, `acc` their observed chunk sums by column; the row check's v comes from `held`, what the
weight buffer gives, the column check's q from `cols`, what was loaded. -/
def abftCheck (c : Nat) (gs : List (List Group12)) (acc : List (List Int)) (held cols : List (List (List Int × Int))) :
    Option Nat × Option Nat :=
  let ms := gs.map (fun g => ((g[c]?).map (·.m)).getD [])
  let q (w : List (List (List Int × Int))) : List (List Int) := w.map (fun x => ((x[c]?).map (·.1)).getD [])
  let add (a b : List Int) : List Int := (List.range (max a.length b.length)).map (fun i => a.getD i 0 + b.getD i 0)
  let v := (q held).foldl add []
  let u := ms.foldl add []
  ((List.range gs.length).find? (fun t => residue (acc.getD t []).sum != residue (dot (ms.getD t []) v)),
   (List.range cols.length).find? (fun j =>
     residue ((acc.map (fun a => a.getD j 0)).sum) != residue (dot u ((q cols).getD j []))))

end Sys2Proof.Machine
end

