-- ==== Sys2Proof/Machine/Arrays.lean ====
section
/-!
DEFINITION. The matrix arrays: issue, weight tiles, output tiles, checks, the end of an operation, and activity levels
(chapter 8, with R192, R195, R205, R209).
-/

namespace Sys2Proof.Machine

/-! ### Arrays and their operations -/

/-- Array `a` of cluster `c` beside its registers. -/
def arrUnit (s : State) (c a : Nat) : ArrayUnit := smGet (fun _ => {}) s.arrays (4 * c + a)

/-- Replace it. -/
def setArr (s : State) (c a : Nat) (x : ArrayUnit) : State :=
  { s with arrays := smSet (fun _ => {}) s.arrays (4 * c + a) x }

/-- An operation is placed on an array, as primary or as partner. -/
def onArray (c a : Nat) (o : Op) : Bool := o.cluster == c && decide (o.unit < 4) && (o.unit == a || o.partner == some a)

/-- The operations that an array has started. -/
def arrOps (s : State) (c a : Nat) : List Op :=
  s.ops.filter (fun o => onArray c a o && (match o.stage with | .failed _ | .queued => false | _ => true))

/-- The operations that are issued to an array and wait for it (R215). -/
def arrNext (s : State) (c a : Nat) : List Op := s.ops.filter (fun o => onArray c a o && o.stage == .queued)

/-- The arrays of an operation. -/
def opArrays (op : Op) : List Nat := op.unit :: op.partner.toList

/-- KiB of a weight panel (R215). -/
def panelKib (d : ArrDesc) : Nat := ceilDiv (d.wRows * d.heldRowBytes) 1024

/-- The weights that tile (kt, nt) holds: first stored row and how many, first element and how many. -/
def tileBox (d : ArrDesc) (kt nt : Nat) : Nat × Nat × Nat × Nat :=
  let k0 := kt * d.kTile
  let j0 := nt * d.nw
  let nk := min d.kTile (d.k - k0)
  let nj := min d.nw (d.n - j0)
  if d.transposed then (k0, nk, j0, nj) else (j0, nj, k0, nk)

/-- Stored bytes of a tile. -/
def tileBytes (d : ArrDesc) (kt nt : Nat) : Nat :=
  let b := tileBox d kt nt
  if d.wfmt = 1 then ceilDiv (b.2.1 * b.2.2.2) 2 else b.2.1 * b.2.2.2

/-- KiB of the panels of operations, each within the buffer. -/
def panelSum (l : List Op) : Nat := (l.map (fun o => min 1024 (panelKib (parseArr o.desc)))).sum

/-- ARR_BUF_STATUS (Table 8.9): the panel in use, and what is loaded for the next. -/
def bufStatus (s : State) (c a : Nat) : Nat :=
  let next := ((arrNext s c a).map (fun o => ((o.tiles.map (fun u => tileBytes (parseArr o.desc) u.kt u.nt)).sum))).sum
  min 1024 (panelSum ((arrOps s c a).filter (fun o => !o.tiles.isEmpty))) + 2048 * min 1024 (ceilDiv next 1024)

/-! ### Activity levels (R231 to R233, R519, R521) -/

/-- The activity level (Table 8.9). -/
def arrLevel (s : State) (c a : Nat) : Nat := rdF s (A.ARR_STATUS c a) 7 3

/-- The highest level an array may take: its own cap, the cap of its class of work, and the governor's. -/
def levelCap (s : State) (c a : Nat) : Nat :=
  let runsS := (arrOps s c a).any (fun o => o.cls == clsS)
  min (min (rdF s (A.ARR_LEVEL_CAP c a) 4 0) (if runsS then s.pm.capS else s.pm.capAQ)) (arrUnit s c a).gov

/-- ARR_STATUS and ARR_BUF_STATUS follow the array (Table 8.9); ballast shows the mode that it reproduces (R232). -/
def arrRegs (s : State) (c a : Nat) : State :=
  let os := arrOps s c a
  let x := arrUnit s c a
  let lv := arrLevel s c a
  let shown : Nat × Nat := match os with
    | o :: _ => ((parseArr o.desc).stat, (parseArr o.desc).mode)
    | [] => if x.ballastAt.isSome then (x.stat, x.mode) else (0, 0)
  let s := wr s (A.ARR_BUF_STATUS c a) (bufStatus s c a)
  wr s (A.ARR_STATUS c a)
    (b2n (!os.isEmpty) + 2 * b2n x.ballastAt.isSome + 4 * b2n (lv != min x.target (levelCap s c a)) + 8 * lv + 256 * min os.length 8
      + 4096 * shown.1 + 16384 * shown.2 + 262144 * b2n (rdB s (A.ARR_FENCE c a) 0))

/-- LEVEL_CAPPED: a cap begins to hold an array's level below its target (R245). -/
def capNote (s : State) (c a : Nat) : State :=
  let x := arrUnit s c a
  let held := decide (levelCap s c a < x.target) && decide (levelCap s c a ≤ arrLevel s c a)
  let s := if held && !x.capped then raise s (0x104 + 0x40 * c + a) 8 else s
  setArr s c a { x with capped := held }

/-- Ballast ends: its cycles are counted; how many there were is free (R245). -/
def ballastEnds (s : State) (c a : Nat) : State :=
  let x := arrUnit s c a
  if x.ballastAt.isSome then
    setArr (drawFree s).2 c a { x with ballastAt := none, ballast := x.ballast + (drawFree s).1 }
  else s

/-- An array starts to work: ballast ends, and the level climbs from where it is, or from 1 (R232). -/
def arrStart (s : State) (c a : Nat) (d : ArrDesc) : State :=
  let s := ballastEnds s c a
  let lv := arrLevel s c a
  let cap := levelCap s c a
  let s := if lv = 0 ∧ 0 < cap then wrF s (A.ARR_STATUS c a) 7 3 1 else s
  let x := { arrUnit s c a with target := 16, stepAt := s.ridge, mode := d.mode, stat := d.stat, wfmt := d.wfmt }
  arrRegs (capNote (setArr s c a x) c a) c a

/-- An array has nothing left to run: ballast runs at the level it is at (R232). -/
def arrRest (s : State) (c a : Nat) : State :=
  if (arrOps s c a).isEmpty then
    arrRegs (setArr s c a { arrUnit s c a with ballastAt := some s.ridge, target := arrLevel s c a }) c a
  else arrRegs s c a

/-- The arrays of an operation rest. -/
def opRest (s : State) (op : Op) : State := (opArrays op).foldl (fun s a => arrRest s op.cluster a) s

/-- The cycles that an array has worked, and waited for operands, since its last output tile: both are free (R218, R245). -/
def tileCycles (s : State) (c a : Nat) : State :=
  let b := drawFree s
  let w := drawFree b.2
  let x := arrUnit s c a
  setArr (bumpSat w.2 (A.ARR_STALL c a) w.1) c a { x with busy := x.busy + b.1, stalled := x.stalled + w.1 }

/-- ROT_STATUS follows the operations of a cluster (Table 7.7). -/
def rotRegs (s : State) (c : Nat) : State :=
  match s.ops.find? (fun o => o.cluster == c && decide (o.unit < 4) && o.stage == .running) with
  | some o =>
    let d := parseArr o.desc
    wr s (A.ROT_STATUS c) (1 + 2 * b2n d.rotate + 4 * (d.rotBlock.log2 - 6) + 16 * d.signSet)
  | none => wr s (A.ROT_STATUS c) 0

/-! ### Validation of an issue (R243) -/

/-- The status with which an issue is rejected (Table 8.7), up to V11; the steps come in order, each for every
descriptor (log entry 30). `ds` are the descriptors with the parameter blocks that they name. -/
def validateIssue (s : State) (c cls : Nat) (ds : List (List Byte × List Byte)) : Nat :=
  let xs := ds.map (fun b => (b.1, parseArr b.1, if b.2.isEmpty then none else some (parseConv b.2)))
  let shapes := xs.map (fun x => arrShape cls x.2.1 x.2.2)
  firstStatus ((List.range 7).flatMap (fun i => shapes.map (fun l => l.getD i 0))
    ++ xs.map (fun x => arrChecks s c cls x.2.1) ++ issueStatus (xs.map (·.2.1))
    ++ xs.map (fun x => arrAddresses s c x.1 x.2.1 x.2.2))

/-- The tags an operation's output is formed from: activation, partial, weight operand (R28, R242). -/
def arrInputs (d : ArrDesc) : List (Nat × Nat) :=
  [(d.aTag, d.aLag)] ++ (if d.accIn then [(d.pTag, d.pLag)] else []) ++ (if d.bData then [(d.bTag, d.bLag)] else [])

/-- Read descriptors from a job's list, as the control core of the cluster. -/
def readDescs (s : State) (c : Nat) (as : List Nat) (n cls echo : Nat) : Nat × List (List Byte) × State :=
  as.foldl (fun acc a =>
    if acc.1 ≠ 0 then acc
    else
      match memRead acc.2.2 (.firmware (Fin.ofNat 7 (3 + c))) a n cls (echo := echo) with
      | (st, b, s) => (st, acc.2.1 ++ [b], s)) (0, [], s)

/-- Read the parameter blocks that descriptors with a_gen name; nothing for the others (R259). -/
def readBlocks (s : State) (c : Nat) (descs : List (List Byte)) (cls echo : Nat) : Nat × List (List Byte) × State :=
  descs.foldl (fun acc b =>
    if acc.1 ≠ 0 then acc
    else if (parseArr b).aGen then
      match peekBlock acc.2.2 c cls echo (parseArr b).aAddr with
      | (st, x, s) => (st, acc.2.1 ++ [x], s)
    else (0, acc.2.1 ++ [[]], acc.2.2)) (0, [], s)

/-! ### The start of an operation (R205, R225, R301) -/

/-- The sign set words that the rotation page holds (R205). -/
def signWords (s : State) (c σ : Nat) : List Nat := (List.range 16).map (fun i => rd s (A.ROT_SIGN c σ i))

/-- The sign set that an operation names. -/
def signSetOf (op : Op) : Nat := if op.unit < 4 then (parseArr op.desc).signSet else fldN (leAt op.desc 65 1) 1 0

/-- The field that names the parameter block of an operation: an array's with a_gen, a window operation's. -/
def blockField (op : Op) : Option Nat :=
  if op.unit < 4 then (if (parseArr op.desc).aGen then some 16 else none)
  else if op.unit = 5 ∧ 2 ≤ leAt op.desc 1 1 ∧ leAt op.desc 1 1 ≤ 4 then some 48 else none

/-- The parameter block is read at the position resolved for the operation (R259, R298). -/
def startBlock (s : State) (id : Nat) : Nat × State :=
  match opOf s id with
  | none => (0, s)
  | some op =>
    match blockField op with
    | none => (0, s)
    | some off =>
      match opRead s op off 0 32 with
      | (0, b, s) => (0, updOp s id (fun o => { o with block := b }))
      | (st, _, s) => (st, s)

/-- An operation that is not blocked starts: its roll operands resolve (R301), and it takes its sign set from the live copy
(R205). -/
def opBegin (s : State) (op : Op) (l : List Operand) : State :=
  if opBlocked s op || opWaits s op l then updOp s op.id (fun o => { o with stage := .waiting })
  else
    match opResolve s op l with
    | (0, s) =>
      match startBlock s op.id with
      | (0, s) => updOp s op.id (fun o =>
          { o with stage := .running, startedAt := s.ridge, sign := signWords s op.cluster (signSetOf op) })
      | (st, s) => opFail s op st false
    | (st, s) => opFail s op st false

/-- The broadcast stream of a cluster can carry an operation beside those that run on it: one chunk length, one activation
format and one rotation with one sign set (R205, R211). -/
def streamFits (s : State) (op : Op) : Bool :=
  let d := parseArr op.desc
  (s.ops.filter (fun o => o.cluster == op.cluster && decide (o.unit < 4) && o.id != op.id && o.stage == .running)).all (fun o =>
    let e := parseArr o.desc
    e.chunk == d.chunk && e.afmt == d.afmt && e.rotate == d.rotate &&
      (!d.rotate || (e.rotBlock == d.rotBlock && e.signSet == d.signSet && o.sign == signWords s op.cluster d.signSet)))

/-- The tile (kt, nt) of an operation from a tile that a forward operation left resident: the same weights, read along the
same axis in the same chunks, or along the other axis (R225). -/
def reuseTile (d0 d : ArrDesc) (u : WTile) (kt nt : Nat) : Option WTile :=
  let a := tileBox d0 u.kt u.nt
  let b := tileBox d kt nt
  if d.transposed = false then
    if a = b ∧ d0.chunk = d.chunk then some { u with kt := kt, nt := nt } else none
  else if a.1 ≤ b.1 ∧ b.1 + b.2.1 ≤ a.1 + a.2.1 ∧ a.2.2.1 ≤ b.2.2.1 ∧ b.2.2.1 + b.2.2.2 ≤ a.2.2.1 + a.2.2.2 then
    let rows := ((u.rows.drop (b.1 - a.1)).take b.2.1).map (fun r => r.flatMap (·.1))
    let shift := (((u.rows.headD []).head?).map (·.2)).getD 0
    some { kt := kt, nt := nt, scales := (u.scales.drop (b.1 - a.1)).take b.2.1,
           rows := (List.range b.2.2.2).map (fun j =>
             (pieces d.chunk (rows.map (fun r => r.getD (b.2.2.1 - a.2.2.1 + j) 0))).map (fun x => (x, shift))) }
  else none

/-- The tiles of an operation that stay resident from the operations before it on its array (R225): the same w_addr and
wrow_stride, in the same form and with the same row scales. -/
def residentTiles (s : State) (op : Op) : List WTile :=
  let d := parseArr op.desc
  let from_ (x : Resident) : Bool :=
    let e := parseArr x.desc
    x.issue != op.issue && !e.transposed && e.stat == 0 && d.stat == 0 && e.wAddr == d.wAddr && e.wStride == d.wStride
      && e.wfmt == d.wfmt && e.linear == d.linear && e.renarrow == d.renarrow && e.maxabs == d.maxabs && e.scaleAddr == d.scaleAddr
  let prev := ((arrUnit s op.cluster op.unit).resident.filter from_).flatMap (fun x => x.tiles.map (fun u => (parseArr x.desc, u)))
  (List.range (d.kTiles * d.nTiles)).filterMap (fun i =>
    prev.findSome? (fun p => reuseTile p.1 d p.2 (i / d.nTiles) (i % d.nTiles)))

/-- Put a loaded tile into the buffer of an operation, with the row scales that re-narrowing formed for it. -/
def putTile (s : State) (id : Nat) (t : WTile) : State :=
  updOp s id (fun o =>
    let d := parseArr o.desc
    let rows := (List.range t.scales.length).map ((tileBox d t.kt t.nt).1 + ·)
    let new := (rows.zip t.scales).filter (fun e => d.renarrow && !o.scales.any (fun f => f.1 == e.1))
    { o with
      tiles := o.tiles.filter (fun u => !(u.kt == t.kt && u.nt == t.nt)) ++ [t]
      scales := o.scales ++ new })

/-- An operation that its array is free for starts: it keeps the tiles that are resident for it, reserves its appends and
begins, and its arrays start to work. -/
def startOp (s : State) (op : Op) (tags : List Tag) : State :=
  let d := parseArr op.desc
  let tag := tagBits (outputTag op.frame op.tagCls d.outStream tags)
  let s := updOp s op.id (fun o => { o with stage := .waiting, outTag := tag })
  let s := ((residentTiles s op).filter (fun t => !op.tiles.any (fun u => u.kt == t.kt && u.nt == t.nt))).foldl
    (fun s t => putTile s op.id t) s
  let s := opBegin (opReserve s op (arrOperands d)) op (arrOperands d)
  if (opOf s op.id).isSome then (opArrays op).foldl (fun s a => arrStart s op.cluster a d) s else s

/-- The frame checks of every input of an issue come before any operation of it starts (R28): the tags of each. -/
def issueInputs (s : State) (ops : List Op) : Nat × List (List Tag) × State :=
  ops.foldl (fun acc op =>
    if acc.1 ≠ 0 then acc
    else
      match checkInputs acc.2.2 (opAgent op) op.frame op.cls (execEcho acc.2.2 op.exec) op.addr (arrInputs (parseArr op.desc)) with
      | (st, t, s) => (st, acc.2.1 ++ [t], s)) (0, [], s)

/-- The operations of an issue may start: their arrays have ended what they ran, are in service and not under test, and the
broadcast stream can carry them. -/
def issueFree (s : State) (ops : List Op) : Bool :=
  ops.all (fun op =>
    let d := parseArr op.desc
    let pg (o : Nat) : Nat := 0x100 + 0x40 * op.cluster + o
    (opArrays op).all (fun a => (arrOps s op.cluster a).isEmpty && !bistBusy s (4 * op.cluster + a) && unitOn s (pg (4 + a)))
      && (!d.rotate || unitOn s (pg 8)) && streamFits s op
      && (d.check == 0 || (unitOn s (pg 0xD) && !bistBusy s (0x20 + op.cluster)))
      && !(opWaits s op (arrOperands d)))

/-- Start the operations of an issue that waits, once they may start. A firing that has ended lets them go. -/
def startIssue (s : State) (issue : Nat) : State :=
  let ops := s.ops.filter (fun o => o.issue == issue && decide (o.unit < 4) && o.stage == .queued)
  if ops.all (opLive s) = false then ops.foldl opGone s
  else if issueFree s ops = false then s
  else
    match issueInputs s ops with
    | (0, tags, s) => (ops.zip tags).foldl (fun s e => if opLive s e.1 then startOp s e.1 e.2 else opGone s e.1) s
    | (st, _, s) =>
      match ops with
      | op :: _ => failExec (ops.foldl opGone s) op.exec st
      | [] => s

/-- Start the issues of a cluster that wait for arrays. -/
def promote (s : State) (c : Nat) : State :=
  let is := ((s.ops.filter (fun o => o.cluster == c && decide (o.unit < 4) && o.stage == .queued)).map (·.issue)).eraseDups
  rotRegs (is.foldl startIssue s) c

/-! ### Issue (R243) -/

/-- Take the checked descriptors of an issue: index, address, bytes and parameter block of each, and the arrays in use. -/
def enterIssue (s : State) (x : Instance) (j : JobRun) (ds : List (Nat × Nat × List Byte × List Byte))
    (map : List (Nat × Nat)) : State :=
  let place (a : Nat) : Nat := smGet id map a
  let issue := s.nextId
  let all := ds.map (fun e => parseArr e.2.2.1)
  ds.foldl (fun s e =>
    let d := parseArr e.2.2.1
    let op : Op := {
      id := s.nextId, issue := issue, exec := j.exec, index := e.1, cluster := j.cluster, unit := place d.array,
      partner := if d.paired then some (place d.partner) else none, desc := e.2.2.1, addr := e.2.1, frame := x.frame,
      cls := x.cls, tagCls := x.tagCls, slot := x.slot, job := j.entry.index, stage := .queued,
      issueUnits := map.map (·.2), block := e.2.2.2, slabs := slabsOf (all.filter (·.array == d.array)) d.slot }
    let s := { s with nextId := s.nextId + 1, ops := s.ops ++ [op] }
    updJob s x.id j.entry.index (fun r => { r with issued := r.issued ++ [e.1] })) { s with nextId := s.nextId + 1 }

/-- Whether an issue must wait before it is taken: another already waits for an array it uses, or a unit it needs is out of
service. -/
def issueWaits (s : State) (c : Nat) (arrs : List Nat) (ds : List ArrDesc) : Bool :=
  let pg (o : Nat) : Nat := 0x100 + 0x40 * c + o
  arrs.any (fun a => !(arrNext s c a).isEmpty || !unitOn s (pg (4 + a)))
    || (ds.any (·.rotate) && !unitOn s (pg 8)) || (ds.any (fun d => d.check != 0) && !unitOn s (pg 0xD))

/-- Operations of an issue whose arrays, or whose ABFT and pairing unit, are in a BIST slice: those of class S are counted
(R478). -/
def countSliceWaits (s : State) (c cls : Nat) (map : List (Nat × Nat)) (ds : List ArrDesc) : State :=
  let busy (d : ArrDesc) : Bool :=
    (d.array :: (if d.paired then [d.partner] else [])).any (fun a => bistBusy s (4 * c + smGet id map a))
      || (d.check != 0 && bistBusy s (0x20 + c))
  if cls = clsS then bumpSat s A.BIST_S_WAITS (ds.countP busy) else s

/-- ARRAY_ISSUE: the control core issues the next `n` descriptors of the firing `exec` to the arrays. -/
def arrayIssue (s : State) (exec n : Nat) : State :=
  match findExec s exec with
  | none => s
  | some (x, j) =>
    if coreStalled s (3 + j.cluster) || !jobAwake s j then s else
      let idx := ((List.range j.entry.descCount).filter (fun i =>
        !j.issued.contains i && (if j.entry.orderFree && !strict s then mayIssue s x j i else true))).take n
      if n = 0 ∨ 4 < j.entry.unit ∨ idx.length ≠ n then s
      else
        let as := idx.map (descAddr x j.entry 128)
        let wait := s
        if as.any (fun a => encWaits s a 128) then s else
        match readDescs s j.cluster as 128 x.cls x.seq with
        | (0, descs, s) =>
          match readBlocks s j.cluster descs x.cls x.seq with
          | (0, blks, s) =>
            let st := firstStatus ([validateIssue s j.cluster x.cls (descs.zip blks)]
              ++ descs.map (fun b => pegStatus s (parseArr b).outPeg))
            if st ≠ 0 then failExec s exec st
            else
              let ds := descs.map parseArr
              let used := (ds.flatMap (fun d => d.array :: (if d.paired then [d.partner] else []))).eraseDups
              match substitute s j.cluster used with
              | none => failExec s exec St.ARRAY_FENCED
              | some map =>
                if issueWaits s j.cluster (map.map (·.2)) ds then wait
                else
                  promote (enterIssue (countSliceWaits s j.cluster x.cls map ds) x j (idx.zip (as.zip (descs.zip blks)))
                    (sortBy (fun a b => decide (a.1 < b.1)) map)) j.cluster
          | (st, _, s) => failExec s exec st
        | (st, _, s) => failExec s exec st

/-- An operation that waited for its array, or for space in a roll, starts once it may: the operation if it runs, and the
state. -/
def opReady (s : State) (id : Nat) : Option Op × State :=
  let runs (s : State) : Option Op := (opOf s id).filter (fun o => o.stage == .running)
  match opOf s id with
  | none => (none, s)
  | some op =>
    match op.stage with
    | .running => (some op, s)
    | .waiting =>
      if streamFits s op then
        let s := rotRegs (opBegin s op (arrOperands (parseArr op.desc))) op.cluster
        (runs s, s)
      else (none, s)
    | .queued => if op.unit < 4 then let s := promote s op.cluster; (runs s, s) else (none, s)
    | .failed _ => (none, s)

/-! ### Weight tiles (R195, R212, R215) -/

/-- Record a failure of the array path (Table 8.10, selector 0x01); a token or column that a mechanism does not name is
free. -/
def abftRecord (s : State) (op : Op) (kind : Nat) (tok col : Option Nat) (injected : Bool) : State :=
  let t := drawFree s
  let k := drawFree t.2
  setRec k.2 (0x10D + 0x40 * op.cluster) 1
    [op.unit + 4 * op.partner.getD 0 + 16 * kind + 256 * b2n injected + 65536 * opPlacement s op, tok.getD (lo32 t.1),
     col.getD (lo32 k.1), lo32 s.ridge, hi32 s.ridge, lo32 op.addr]

/-- An operation of an array fails; its arrays rest, and what waits for them may start. -/
def arrFail (s : State) (op : Op) (st : Nat) (injected : Bool) : State :=
  let s := if st = St.ARITH_NONFINITE then
      raise (bumpSat s (A.NONFINITE_COUNT op.cluster) 1) (0x108 + 0x40 * op.cluster) 1
    else s
  promote (opRest (opFail s op st injected) op) op.cluster

/-- Two operations read the same weights in the same form. -/
def sameWeights (d e : ArrDesc) : Bool :=
  e.multicast && e.wAddr == d.wAddr && e.wStride == d.wStride && e.wfmt == d.wfmt && e.scaleAddr == d.scaleAddr && e.n == d.n
    && e.k == d.k && e.transposed == d.transposed && e.renarrow == d.renarrow && e.maxabs == d.maxabs && e.linear == d.linear

/-- Operations whose buffers one multicast read fills (R212). -/
def multicastPeers (s : State) (op : Op) : List Op :=
  let d := parseArr op.desc
  if d.multicast then
    s.ops.filter (fun o => o.issue == op.issue && o.id != op.id && sameWeights d (parseArr o.desc)
      && (match o.stage with | .failed _ => false | _ => true))
  else []

/-- A weight operand names a roll, whose position resolves only when the operation starts. -/
def rollWeights (op : Op) : Bool := isRollRef (dN op 32 8) || isRollRef (dN op 48 8)

/-- The panel of an operation that has not started may load (R215): beside panels that leave half the buffer free, or once
the last tiles of the operations before it have left the cells. -/
def loadOpen (s : State) (op : Op) : Bool :=
  !rollWeights op &&
  (match op.stage with
   | .waiting => true
   | .queued => (opArrays op).all (fun a =>
       let old := arrOps s op.cluster a
       let next := arrNext s op.cluster a
       old.all (fun o => o.written == (parseArr o.desc).outTiles) ||
         ((old ++ next).all (fun o => (parseArr o.desc).stat == 0) && decide (panelSum old ≤ 512) && decide (panelSum next ≤ 512)))
   | _ => false)

/-- WEIGHT_TILE_LOAD for one operation; a tile that its buffer already holds is not loaded again. -/
def weightTileLoad (s : State) (op : Op) (kt nt : Nat) (fault : Option LoadFault) (loss : Option BankLoss) : State :=
  let d := parseArr op.desc
  let p := 0x104 + 0x40 * op.cluster + op.unit
  if d.kTiles ≤ kt ∨ d.nTiles ≤ nt ∨ op.tiles.any (fun u => u.kt == kt && u.nt == nt) = true then s
  else
    let s := loseBank s op loss
    if fault = some .decodeMismatch then
      arrFail (abftRecord (raise s p 2) op 6 none none false) op St.LOADER_MISMATCH false
    else if fault = some .eccUncorrectable then
      arrFail (raise (bumpSat s (A.ARR_WECC_UNCORR op.cluster op.unit) 1) p 1) op St.WEIGHT_ECC_UNCORRECTABLE false
    else
    let s := if fault = some .eccCorrected then bumpSat s (A.ARR_WECC_CORR op.cluster op.unit) 1 else s
    match loadTile s op d kt nt with
    | (0, t, clamps, s) =>
      let s := if clamps = 0 then s else updOp s op.id (fun o => { o with flags := o.flags ||| jfClamped })
      let all := op :: multicastPeers s op
      let s := all.foldl (fun s o => putTile s o.id t) s
      (all.flatMap opArrays).eraseDups.foldl (fun s a => arrRegs s op.cluster a) s
    | (st, _, _, s) => arrFail s op st false

/-! ### Output tiles (R192, R196, R197, R213, R228, R236, R237) -/

/-- Count the groups formed (Table 7.7), each with its token, and record the head of the last (Table 7.8). -/
def countGroups (s : State) (op : Op) (l : List (Nat × Group12)) : State :=
  let c := op.cluster
  let gs := l.map (·.2)
  let s := bump s (A.BF12_GROUPS c) gs.length
  let s := bumpSat s (A.BF12_SAT_COUNT c) ((gs.map (·.sat)).sum)
  let s := bumpSat s (A.BF12_FLUSH_COUNT c) (gs.countP (·.flushed))
  let cl := gs.countP (·.clamped)
  let s := bumpSat s (A.BF12_CLAMP_COUNT c) cl
  let s := if 0 < cl then raise s (0x108 + 0x40 * c) 2 else s
  match l.getLast? with
  | none => s
  | some (tok, g) =>
    let r := if (parseArr op.desc).rotate then g.r else 0
    let packed := (List.range 13).foldl (fun a i => a + unsgn 12 (g.m.getD i 0) * 2 ^ (12 * i)) 0
    setRec s (0x108 + 0x40 * c) 1
      ((g.e + 256 * (r % 32) + 65536 * (tok % 16384) + 1073741824 * op.unit) ::
        (List.range 5).map (fun i => packed / 2 ^ (32 * i) % 2 ^ 32))

/-- An armed flip of ABFT_INJECT that meets the next tile of an operation: its target (0 chunk sum, 1 pair result,
2 group formation); a pair flip waits for a paired operation. -/
def injectFor (s : State) (op : Op) : Option Nat :=
  let r := A.ABFT_INJECT op.cluster
  let t := rdF s r 3 2
  if rdB s r 4 && (rdF s r 1 0 == op.unit || op.partner == some (rdF s r 1 0)) && t != 3
      && (t != 1 || op.partner.isSome) then some t else none

/-- The injection has been used (R246). -/
def injectUsed (s : State) (c : Nat) : State :=
  raise (wrF s (A.ABFT_INJECT c) 4 4 0) (0x10D + 0x40 * c) 0x10

/-- Output tile `i` of an operation: its tokens and columns. -/
def tileSpan (d : ArrDesc) (i : Nat) : Nat × Nat × Nat × Nat :=
  let t0 := i / d.nTiles * d.block
  let j0 := i % d.nTiles * d.nw
  (t0, min d.block (d.tokens - t0), j0, min d.nw (d.n - j0))

/-- The weight tiles of column block `nt`, in K order; none while one is not loaded. -/
def tilesFor (op : Op) (d : ArrDesc) (nt : Nat) : Option (List WTile) :=
  (List.range d.kTiles).mapM (fun kt => op.tiles.find? (fun u => u.kt == kt && u.nt == nt))

/-- The element codes of the tokens of a tile. -/
def tileCodes (s : State) (op : Op) (d : ArrDesc) (sp : Nat × Nat × Nat × Nat) : Nat × List (List Nat) × State :=
  let blk := if d.aGen then some (parseConv op.block) else none
  (List.range sp.2.1).foldl (fun acc i =>
    if acc.1 ≠ 0 then acc
    else
      match actCodes acc.2.2 op d blk (sp.1 + i) with
      | (st, x, s) => (st, acc.2.1 ++ [x], s)) (0, [], s)

/-- What the forming of an output tile gives: the result bytes of each token as the cells' sums give them, those of sums
without an error, and the checks of each chunk. -/
structure Formed where
  out : List (List Byte) := []
  clean : List (List Byte) := []
  checks : List (Option Nat × Option Nat) := []
  deriving DecidableEq, Repr

/-- Form an output tile (R192, R197, R213, R228, R235): its groups are formed and counted up to the first chunk with an
element that is not finite, which stops the operation; then its chunk sums are combined at the edge. `flips` and `weight` are
what the cells and the buffer suffer. -/
def formTile (s : State) (op : Op) (d : ArrDesc) (tiles : List WTile) (bias : List Nat) (sp : Nat × Nat × Nat × Nat)
    (flips : List SumFlip) (weight : Option (Nat × Nat × Int)) : Nat × Formed × State :=
  match tileCodes s op d sp with
  | (0, codes, s) =>
    let sign (k : Nat) : Bool := bitN (op.sign.getD (k / 32) 0) (k % 32)
    let grid := codes.map (tokenGroups d sign (tiles.flatMap (·.scales)))
    let seq := (groupOrder d sp.2.1).map (fun x => (sp.1 + x.1, (grid.getD x.1 []).getD x.2 none))
    let formed := (seq.takeWhile (·.2.isSome)).filterMap (fun x => x.2.map (fun g => (x.1, g)))
    let s := countGroups s op formed
    if formed.length < seq.length then (St.ARITH_NONFINITE, {}, s)
    else
      match (if d.accIn then opReads s op 80 ((List.range sp.2.1).map (fun i =>
          ((sp.1 + i) * d.pStride + 4 * sp.2.2.1, 4 * sp.2.2.2))) else (0, [], s)) with
      | (0, parts, s) =>
        let gs := grid.map (·.filterMap id)
        let cols := tileColumns tiles sp.2.2.2
        let held := spoilColumns d cols weight
        let scales := if d.transposed then [] else (tiles.head?.map (·.scales)).getD []
        let hit (t j : Nat) : List (Nat × Nat) := (flips.filter (fun f => f.tok == t && f.col == j)).map (fun f => (f.chunk, f.bit))
        let sums (w : List (List (List Int × Int))) (fl : Nat → Nat → List (Nat × Nat)) : List (List (List (Int × Int))) :=
          gs.zipIdx.map (fun g => w.zipIdx.map (fun c => chunkSums d g.1 c.1 (fl g.2 c.2)))
        let edge (l : List (List (List (Int × Int)))) : List (List Byte) :=
          l.zipIdx.map (fun t => t.1.zipIdx.flatMap (fun c => leBytes (ofmtBytes d.ofmt)
            (edgeValue d (leAt (parts.getD t.2 []) (4 * c.2) 4) c.1 (scales.getD c.2 0) (bias.getD c.2 0))))
        let seen := sums held hit
        let chk := if d.abft then (List.range (ceilDiv d.k d.chunk)).map (fun c =>
            abftCheck c gs (seen.map (fun t => t.map (fun x => ((x[c]?).map (·.1)).getD 0))) held cols) else []
        (0, { out := edge seen, clean := edge (sums cols (fun _ _ => [])), checks := chk }, s)
      | (st, _, s) => (st, {}, s)
  | (st, _, s) => (st, {}, s)

/-- The first element in which two tiles of results differ, as token and column of the tile. -/
def firstDiff (d : ArrDesc) (a b : List (List Byte)) : Option (Nat × Nat) :=
  (List.range a.length).findSome? (fun t =>
    ((List.range (a.getD t []).length).find? (fun i => (a.getD t []).getD i 0 != (b.getD t []).getD i 0)).map
      (fun i => (t, i / ofmtBytes d.ofmt)))

/-- The flips of chunk sums that a tile meets: those of a physical fault, or the one of an injection; which bit an injection
flips is free. -/
def tileFlips (s : State) (d : ArrDesc) (sp : Nat × Nat × Nat × Nat) (inj : Option Nat) (fault : Option TileFault) :
    List SumFlip × State :=
  if inj = some 0 then
    let v := (drawFree s).1
    ([{ tok := v % sp.2.1, col := v / 512 % sp.2.2.2, chunk := v / 1048576 % ceilDiv d.k d.chunk, bit := v / 4294967296 % 48 }],
      (drawFree s).2)
  else
    match fault with
    | some (.sums l) => (l.filter (fun f => decide (f.bit < 48)), s)
    | _ => ([], s)

/-- The failure of an output tile before it is written (Table 8.5): status, kind of the record, token and column of the
tile, and whether it was injected. The edge outputs of a pair are compared bit by bit (R237); a flip that is injected where
neither ABFT nor pairing covers the operation is a failure of its chunk sum (R246). -/
def tileFailure (op : Op) (d : ArrDesc) (f : Formed) (inj : Option Nat) (fault : Option TileFault) (flips : List SumFlip) :
    Option (Nat × Nat × Option Nat × Option Nat × Bool) :=
  let at_ : Option (Nat × Nat) := flips.head?.map (fun x => (x.tok, x.col))
  match inj, fault with
  | some 2, _ => some (St.GROUP_FORM_MISMATCH, 4, none, none, true)
  | some 1, _ => some (St.PAIR_MISMATCH, 3, none, none, true)
  | _, some (.group t) => some (St.GROUP_FORM_MISMATCH, 4, some t, none, false)
  | _, some (.edge t k) => some (St.EDGE_MISMATCH, 5, some t, some k, false)
  | _, some .eccUncorrectable => some (St.WEIGHT_ECC_UNCORRECTABLE, 6, none, none, false)
  | some _, _ =>
    if op.partner.isSome then some (St.PAIR_MISMATCH, 3, at_.map (·.1), at_.map (·.2), true)
    else if d.abft then none else some (St.ABFT_FAIL, 2, at_.map (·.1), at_.map (·.2), true)
  | none, fl =>
    if op.partner.isSome then
      match fl, firstDiff d f.clean f.out with
      | some (.pair t k), _ => some (St.PAIR_MISMATCH, 3, some t, some k, false)
      | _, some (t, k) => some (St.PAIR_MISMATCH, 3, some t, some k, false)
      | _, none => none
    else none

/-- Count, flag and record the failure of a tile, and fail the operation. -/
def tileFails (s : State) (op : Op) (sp : Nat × Nat × Nat × Nat) (x : Nat × Nat × Option Nat × Option Nat × Bool) : State :=
  let c := op.cluster
  let pg := 0x10D + 0x40 * c
  let s :=
    if x.1 = St.GROUP_FORM_MISMATCH then raise (bumpSat s (A.GROUP_FAIL_COUNT c) 1) pg 8
    else if x.1 = St.PAIR_MISMATCH then raise (bumpSat s (A.PAIR_FAIL_COUNT c) 1) pg 2
    else if x.1 = St.EDGE_MISMATCH then raise s (opPage op) 4
    else if x.1 = St.ABFT_FAIL then raise (bumpSat s (A.ABFT_FAIL_COUNT c) 1) pg 1
    else raise (bumpSat s (A.ARR_WECC_UNCORR c op.unit) 1) (opPage op) 1
  let s := if x.1 = St.WEIGHT_ECC_UNCORRECTABLE then s
    else abftRecord s op x.2.1 (x.2.2.1.map (sp.1 + ·)) (x.2.2.2.1.map (sp.2.2.1 + ·)) x.2.2.2.2
  arrFail s op x.1 x.2.2.2.2

/-- The next output tile of an operation, whose weight tiles are `tiles`, is formed, compared and written. -/
def tileWork (s : State) (op : Op) (tiles : List WTile) (fault : Option TileFault) (loss : Option BankLoss) : State :=
  let d := parseArr op.desc
  let i := op.written
  let c := op.cluster
  let sp := tileSpan d i
  let inj := injectFor s op
  let s := loseBank (if inj.isSome then injectUsed s c else s) op loss
  let fl := tileFlips s d sp inj fault
  let s := fl.2
  let weight : Option (Nat × Nat × Int) := match fault with
    | some (.weight j k q) => some (j, k, q)
    | _ => none
  match (if d.bias then opRead s op 56 (4 * sp.2.2.1) (4 * sp.2.2.2) else (0, [], s)) with
  | (0, bb, s) =>
    match formTile s op d tiles (elems 4 bb) sp fl.1 weight with
    | (0, f, s) =>
      let s := if op.partner.isSome then bump s (A.PAIR_TILES c) 1 else s
      match tileFailure op d f inj fault fl.1 with
      | some x => tileFails s op sp x
      | none =>
        let ws := f.out.zipIdx.map (fun w => ((sp.1 + w.2) * d.outStride + sp.2.2.1 * ofmtBytes d.ofmt, w.1))
        match opWrites s op 64 ws with
        | (0, s) =>
          let chk := f.checks.zipIdx.map (fun k =>
            ({ tile := i, chunk := k.2, at_ := s.ridge, row := k.1.1, col := k.1.2, injected := inj == some 0 } : TileCheck))
          let keep (u : WTile) : Bool := decide (panelKib d ≤ 1024) || u.nt != i % d.nTiles
          updOp s op.id (fun o => { o with written := i + 1, checks := o.checks ++ chk, tiles := o.tiles.filter keep })
        | (st, s) => arrFail s op st false
    | (st, _, s) => arrFail s op st false
  | (st, _, s) => arrFail s op st false

/-- ARRAY_TILE_DONE for one running operation: once the weight tiles of the next output tile are loaded, its arrays work on
it. -/
def arrayTile (s : State) (op : Op) (fault : Option TileFault) (loss : Option BankLoss) : State :=
  let d := parseArr op.desc
  match if op.written < d.outTiles then tilesFor op d (op.written % d.nTiles) else none with
  | none => s
  | some tiles => (opArrays op).foldl (fun s a => tileCycles s op.cluster a) (tileWork s op tiles fault loss)

/-! ### Checks (R235, R236) -/

/-- ABFT_VERDICT for the oldest chunk of a tile that waits: its checks pass, or one or both of them fail. -/
def abftVerdict (s : State) (op : Op) : State :=
  match op.checks with
  | [] => s
  | k :: t =>
    let c := op.cluster
    let lat := s.ridge - k.at_
    if 5000 < lat then s
    else
      let s := bump s (A.ABFT_TILES c) 1
      let s := wr s (A.ABFT_LAT_MAX c) (max (rd s (A.ABFT_LAT_MAX c)) (min lat 65535))
      if k.row.isNone && k.col.isNone then updOp s op.id (fun o => { o with checks := t })
      else
        let sp := tileSpan (parseArr op.desc) k.tile
        let kind := if k.col.isNone then 0 else if k.row.isNone then 1 else 2
        let s := raise (bumpSat s (A.ABFT_FAIL_COUNT c) 1) (0x10D + 0x40 * c) 1
        arrFail (abftRecord s op kind (k.row.map (sp.1 + ·)) (k.col.map (sp.2.2.1 + ·)) k.injected) op St.ABFT_FAIL k.injected

/-- ABFT_LATE: 5 µs after its tile a verdict is still missing. -/
def abftLate (s : State) (op : Op) : State :=
  match op.checks with
  | [] => s
  | k :: _ =>
    if s.ridge ≤ k.at_ + 5000 then s
    else
      let s := raise (bumpSat s (A.ABFT_FAIL_COUNT op.cluster) 1) (0x10D + 0x40 * op.cluster) 4
      arrFail (abftRecord s op 2 none none false) op St.ABFT_LATE false

/-! ### The end of an operation (R225, R242) -/

/-- The runs of input flag bytes that each flag byte of an array operation's output inherits (R242, R262). -/
def arrFlagRuns (d : ArrDesc) (blk : Option ConvBlock) : List (List (Nat × Nat)) :=
  (List.range (ceilDiv d.tokens d.flagDiv)).map (fun g =>
    let lo := g * d.flagDiv
    let hi := min d.tokens (lo + d.flagDiv)
    (match blk with
     | some b => b.flagRuns d.aTag g
     | none => flagRun d.aTag d.flagDiv lo hi) ++ (if d.accIn then flagRun d.pTag d.flagDiv lo hi else []))

/-- The flag bytes of the output of an array operation, as the memory gives them (R242, R285). -/
def arrFlags (s : State) (op : Op) (d : ArrDesc) : Nat × List Nat × State :=
  let echo := execEcho s op.exec
  let runs := arrFlagRuns d (if d.aGen then some (parseConv op.block) else none)
  if d.bData then
    match readTag s (opAgent op) d.bTag op.cls echo with
    | (0, t, s) => inheritRuns s (opAgent op) op.cls echo t.flags runs
    | (st, _, s) => (st, [], s)
  else inheritRuns s (opAgent op) op.cls echo 0 runs

/-- The weight tiles of an operation that ends stay in the buffers of its arrays (R225). -/
def leaveTiles (s : State) (op : Op) : State :=
  (opArrays op).foldl (fun s a =>
    let x := arrUnit s op.cluster a
    setArr s op.cluster a { x with
      resident := x.resident.filter (fun r => r.issue == op.issue) ++ [{ issue := op.issue, desc := op.desc, tiles := op.tiles }] }) s

/-- ARRAY_OPERATION_DONE for one operation: every tile is written and has passed, so the tag block is written and
out_peg counts. -/
def arrayDone (s : State) (op : Op) (loss : Option BankLoss) : State :=
  let d := parseArr op.desc
  if op.written ≠ d.outTiles ∨ op.checks ≠ [] then s
  else
    match arrFlags (loseBank s op loss) op d with
    | (0, fl, s) =>
      match writeTagBlock s (opAgent op) d.outTag (parseTag op.outTag) fl op.cls (execEcho s op.exec) with
      | (0, s) =>
        let s := bump (bump s (A.ARR_OPS op.cluster op.unit) 1) (A.ARR_TOKENS op.cluster op.unit) d.tokens
        let s := if d.rotate then bump s (A.ROT_OPS op.cluster) 1 else s
        promote (opRest (leaveTiles (opDone s op d.outPeg) op) op) op.cluster
      | (st, s) => arrFail s op st false
    | (st, _, s) => arrFail s op st false

/-! ### Commands -/

/-- Act on an operation of an array that runs, or that may now start, unless it waits for a region being zero-filled. -/
def onArrayOp (s : State) (id : Nat) (f : State → Op → State) : State :=
  match opReady s id with
  | (some op, s) => if op.unit < 4 ∧ opWaits s op (arrOperands (parseArr op.desc)) = false then f s op else s
  | (none, s) => s

/-- Act on an operation of an array whose panel may load. -/
def onLoadingOp (s : State) (id : Nat) (f : State → Op → State) : State :=
  match opReady s id with
  | (some op, s) => if op.unit < 4 ∧ opWaits s op (arrOperands (parseArr op.desc)) = false then f s op else s
  | (none, s) =>
    match opOf s id with
    | some op =>
      if op.unit < 4 ∧ loadOpen s op = true ∧ opWaits s op (arrOperands (parseArr op.desc)) = false then f s op else s
    | none => s

/-- ARRAY_ISSUE: the next `n` descriptors of a firing go to the arrays of its cluster. -/
def execArrayIssue (exec : BitVec 32) (n : Fin 33) (s : State) : Host.Outcome State Fault Refusal :=
  whenOn (fun s => arrayIssue s exec.toNat n.val) s

/-- WEIGHT_TILE_LOAD: a weight tile of operation `op` enters the buffer; `fault` is what befalls it. -/
def execWeightTileLoad (op : Nat) (kt nt : Nat) (fault : LoadEvents) (s : State) : Host.Outcome State Fault Refusal :=
  whenOn (fun s => onLoadingOp s op (fun s o => weightTileLoad s o kt nt fault.fault fault.loss)) s

/-- ARRAY_TILE_DONE: the next output tile of operation `op` leaves the cells; `fault` is what befalls it. -/
def execArrayTileDone (op : Nat) (fault : TileEvents) (s : State) : Host.Outcome State Fault Refusal :=
  whenOn (fun s => onArrayOp s op (fun s o => arrayTile s o fault.fault fault.loss)) s

/-- ABFT_VERDICT: the checks of the oldest waiting tile of operation `op` complete. -/
def execAbftVerdict (op : Nat) (s : State) : Host.Outcome State Fault Refusal :=
  whenOn (fun s => onArrayOp s op abftVerdict) s

/-- ABFT_LATE: 5 µs pass without a verdict on the oldest waiting tile of operation `op`. -/
def execAbftLate (op : Nat) (s : State) : Host.Outcome State Fault Refusal :=
  whenOn (fun s => onArrayOp s op abftLate) s

/-- ARRAY_OPERATION_DONE: the last tile of operation `op` is written; `loss` tells the bank cycles it lost. -/
def execArrayOperationDone (op : Nat) (loss : Option BankLoss) (s : State) : Host.Outcome State Fault Refusal :=
  whenOn (fun s => onArrayOp s op (fun s o => arrayDone s o loss)) s

/-- BALLAST_END: 5 µs of ballast without an operation end, and the level is to fall to 0. -/
def execBallastEnd (c : Fin 4) (a : Fin 4) (s : State) : Host.Outcome State Fault Refusal :=
  whenOn (fun s =>
    match (arrUnit s c.val a.val).ballastAt with
    | some t =>
      if t + 5000 ≤ s.ridge then
        let s := ballastEnds s c.val a.val
        arrRegs (setArr s c.val a.val { arrUnit s c.val a.val with target := 0, stepAt := s.ridge }) c.val a.val
      else s
    | none => s) s

/-- ACTIVITY_LEVEL_STEP: 0.5 µs after the last step an array's level moves one step towards its target. -/
def execActivityLevelStep (c : Fin 4) (a : Fin 4) (s : State) : Host.Outcome State Fault Refusal :=
  whenOn (fun s =>
    let x := arrUnit s c.val a.val
    let lv := arrLevel s c.val a.val
    let goal := min x.target (levelCap s c.val a.val)
    if s.ridge < x.stepAt + 500 then s
    else if lv = goal then arrRegs (capNote s c.val a.val) c.val a.val
    else
      let lv' := if lv < goal then lv + 1 else lv - 1
      let s := wrF s (A.ARR_STATUS c.val a.val) 7 3 lv'
      let s := if lv' = 0 then bumpSat s (A.ARR_RAMPS c.val a.val) 1 else s
      arrRegs (capNote (setArr s c.val a.val { x with stepAt := s.ridge }) c.val a.val) c.val a.val) s

/-- ARR_FENCE: a guarded write fences or unfences an array. -/
def execArrFence (agent : Agent) (c : Fin 4) (a : Fin 4) (v : Word) (s : State) : Host.Outcome State Fault Refusal :=
  whenOn (fun s => namedWrite s agent (A.ARR_FENCE c.val a.val) v.toNat (fun s => applyArrFence s c.val a.val v.toNat)) s
where
  applyArrFence (s : State) (c a v : Nat) : State :=
    let s := lapseRestart (applyPlain s (A.ARR_FENCE c a) v) (4 * c + a)
    arrRegs (if bitN v 0 then raise s (0x104 + 0x40 * c + a) 0x10 else s) c a

/-- ABFT_INJECT: a guarded write arms a flip in the next tile of an array. -/
def execAbftInject (agent : Agent) (c : Fin 4) (v : Word) (s : State) : Host.Outcome State Fault Refusal :=
  whenOn (fun s => namedWrite s agent (A.ABFT_INJECT c.val) v.toNat (fun s => applyPlain s (A.ABFT_INJECT c.val) v.toNat)) s

end Sys2Proof.Machine
end

