-- ==== Sys2Proof/Machine/EngineDesc.lean ====
section
/-!
DEFINITION. Engine descriptors: the common head, the operands of each body, and validation (R247, R253 to R255, R257,
R258, R264, R265, R269 to R272, R276).
-/

namespace Sys2Proof.Machine

/-- The common head (Table 9.1). -/
structure EngHead where
  version : Nat
  engine : Nat
  op : Nat
  inF : Nat
  outF : Nat
  lag0 : Nat
  lag1 : Nat
  peg : Nat
  stream : Nat
  div : Nat
  tag0 : Nat
  tag1 : Nat
  outTag : Nat
  /-- Reserved bits of the head are zero. -/
  clean : Bool
  deriving DecidableEq, Repr

/-- Read the head of a descriptor. -/
def parseEng (b : List Byte) : EngHead :=
  let n (o k : Nat) := leAt b o k
  { version := fldN (n 0 1) 3 0, engine := fldN (n 0 1) 7 4, op := n 1 1, inF := fldN (n 2 1) 1 0, outF := fldN (n 2 1) 3 2,
    lag0 := n 3 1, lag1 := n 4 1, peg := n 6 2, stream := fldN (n 8 2) 11 0, div := n 12 4, tag0 := n 16 8, tag1 := n 24 8,
    outTag := n 32 8,
    clean := fldN (n 2 1) 7 4 == 0 && n 5 1 == 0 && fldN (n 8 2) 15 12 == 0 && n 10 2 == 0 && n 40 8 == 0 }

/-- The format a code names: BF16, FP16 or FP32. -/
def fmtOf (f : Nat) : Fmt := if f = 0 then bf16 else if f = 1 then f16 else f32

/-- The data inputs of a descriptor: tag block and lag (R249). -/
def engInputs (h : EngHead) : List (Nat × Nat) :=
  [(h.tag0, h.lag0)] ++ (if h.tag1 = 0 then [] else [(h.tag1, h.lag1)])

/-! ### Bodies -/

/-- Transform body (Table 9.5). -/
structure TxBody where
  p : Nat
  real : Bool
  block : Bool
  b : Nat
  signSet : Nat
  scaleB : Bool
  inSkip : Nat
  inLen : Nat
  outFirst : Nat
  outLen : Nat
  batch : Nat
  batch2 : Nat
  /-- Strides in and out: stride, stride2, estride. -/
  ins : Nat × Nat × Nat
  outs : Nat × Nat × Nat
  deriving DecidableEq, Repr

/-- Read a transform body. -/
def parseTx (b : List Byte) : TxBody :=
  let n (o k : Nat) := leAt b o k
  { p := fldN (n 64 1) 3 0, real := bitN (n 64 1) 4, block := bitN (n 64 1) 5, b := 64 * 2 ^ fldN (n 64 1) 7 6,
    signSet := fldN (n 65 1) 1 0, scaleB := bitN (n 65 1) 2, inSkip := n 68 2, inLen := n 70 2, outFirst := n 72 2,
    outLen := n 74 2, batch := n 76 2 + 1, batch2 := fldN (n 78 2) 11 0 + 1, ins := (n 80 4, n 84 4, n 88 4),
    outs := (n 92 4, n 96 4, n 100 4) }

/-- Bytes of an input, and of an output, element of a transform. -/
def txElem (h : EngHead) (t : TxBody) : Nat × Nat :=
  let e (f : Nat) (cx : Bool) : Nat := ofmtBytes f * (if cx then 2 else 1)
  if h.op = 1 then (e h.inF (!t.real), e h.outF true)
  else if h.op = 2 then (e h.inF true, e h.outF (!t.real))
  else (e h.inF false, e h.outF false)

/-- Elements of a transform's output (R257). -/
def txOuts (h : EngHead) (t : TxBody) : Nat := if h.op = 1 ∧ t.real = true then 2 ^ t.p / 2 + 1 else 2 ^ t.p

/-- The byte one past the last that strides reach. -/
def txExtent (t : TxBody) (st : Nat × Nat × Nat) (last elem : Nat) : Nat :=
  (t.batch - 1) * st.1 + (t.batch2 - 1) * st.2.1 + last * st.2.2 + elem

/-- Sort body (Table 9.10). -/
structure SortBody where
  keyAddr : Nat
  payAddr : Nat
  segAddr : Nat
  n : Nat
  k : Nat
  nseg : Nat
  fmt : Nat
  desc : Bool
  gen : Bool
  thr : Bool
  thrKey : Nat
  deriving DecidableEq, Repr

/-- Read a sort body. -/
def parseSort (b : List Byte) : SortBody :=
  let n (o k : Nat) := leAt b o k
  { keyAddr := n 48 8, payAddr := n 56 8, segAddr := n 64 8, n := fldN (n 96 4) 16 0, k := fldN (n 100 2) 11 0 + 1,
    nseg := fldN (n 102 2) 9 0 + 1, fmt := fldN (n 104 1) 2 0, desc := bitN (n 104 1) 3, gen := bitN (n 104 1) 4,
    thr := bitN (n 104 1) 5, thrKey := n 108 4 }

/-- Bytes of a key. -/
def keyBytes (fmt : Nat) : Nat := if fmt < 2 then 2 else 4

/-- The most elements a sort writes. -/
def sortMost (h : EngHead) (t : SortBody) : Nat :=
  if h.op = 1 then t.n else min t.n (t.k * (if t.segAddr = 0 then 1 else t.nseg))

/-- Vector body (Table 9.12). -/
structure VecBody where
  bAddr : Nat
  auxAddr : Nat
  statAddr : Nat
  rows : Nat
  cols : Nat
  bMode : Nat
  stats : Bool
  u : Nat
  aStride : Nat
  bStride : Nat
  yStride : Nat
  p0 : Nat
  chunk : Nat
  deriving DecidableEq, Repr

/-- Read a vector body. -/
def parseVec (b : List Byte) : VecBody :=
  let n (o k : Nat) := leAt b o k
  { bAddr := n 56 8, auxAddr := n 72 8, statAddr := n 80 8, rows := fldN (n 88 4) 23 0 + 1, cols := n 92 2 + 1,
    bMode := fldN (n 94 1) 1 0, stats := bitN (n 94 1) 2, u := fldN (n 95 1) 2 0 + 1, aStride := n 96 4,
    bStride := n 100 4, yStride := n 104 4, p0 := n 108 4, chunk := n 112 2 }

/-- The function uses operand b. -/
def vecUsesB (op : Nat) : Bool := decide (1 ≤ op ∧ op ≤ 7) || op == 0x21 || op == 0x22
/-- The function uses the vector at aux_addr. -/
def vecUsesAux (op : Nat) : Bool := op == 6 || op == 0x21
/-- The function writes row results. -/
def vecUsesStat (op : Nat) (stats : Bool) : Bool := decide (0x23 ≤ op ∧ op ≤ 0x26) || (op == 0x20 && stats)
/-- The function writes y. -/
def vecUsesY (op : Nat) : Bool := !decide (0x23 ≤ op ∧ op ≤ 0x26)

/-- Chunks of a row for MAXABS; a chunk of 0 is the whole row. -/
def vecChunk (v : VecBody) : Nat := if v.chunk = 0 then v.cols else v.chunk

/-! ### Operands with their extents (E7) -/

/-- Blocks of a compressed tensor in rows, columns, channels (R269). -/
def cmpBlocks (desc : List Byte) : Nat × Nat × Nat :=
  (ceilDiv (leAt desc 60 2 + 1) 8, ceilDiv (leAt desc 62 2 + 1) 8, ceilDiv (leAt desc 64 2 + 1) 16)

/-- Bytes of a compressed block: 2:1, or 4:3 (R266). -/
def cmpBytes (desc : List Byte) : Nat := if bitN (leAt desc 66 1) 0 then 1536 else 1024

/-- The operands of an engine descriptor; `blk` is the parameter block of a window operation. -/
def engOperands (blk : List Byte) (e : Nat) (desc : List Byte) : List Operand :=
  let h := parseEng desc
  let n (o k : Nat) := leAt desc o k
  let ie := ofmtBytes h.inF
  let oe := ofmtBytes h.outF
  if e = 0 then
    let t := parseTx desc
    let el := txElem h t
    [{ off := 48, ext := txExtent t t.ins (t.inSkip + t.inLen - 1) el.1, cache := true },
     { off := 56, ext := txExtent t t.outs (t.outFirst + t.outLen - 1) el.2, out := true }]
  else if e = 1 then
    if h.op = 1 then
      let ci := n 72 2
      let co := n 74 2
      let b := n 76 2 + 1
      let t := n 78 2
      [{ off := 48, ext := t * n 80 4 + ci * n 84 4 + 8 * b, cache := true },
       { off := 56, ext := ((co + 1) * (ci + 1) - 1) * n 88 4 + 4 * b, cache := true },
       { off := 64, ext := t * n 92 4 + co * n 96 4 + 8 * b, out := true }]
    else if h.op < 5 then
      let b := parseConv blk
      [{ off := 48, ext := 32, cache := true },
       { off := 56, ext := (b.hOut - 1) * n 64 4 + b.wOut * b.cIn * oe, out := true }]
      ++ (if h.op = 4 then [{ off := 68, ext := 2 * b.cIn * b.kh * b.kw, cache := true }] else [])
      ++ (if h.op = 4 ∧ n 76 8 ≠ 0 then [{ off := 76, ext := 4 * b.cIn, cache := true }] else [])
    else
      let bl := cmpBlocks desc
      let z := bl.1 * bl.2.1 * bl.2.2 * cmpBytes desc
      let t := n 60 2 * n 56 4 + (n 62 2 + 1) * (n 64 2 + 1) * 2
      [{ off := 48, ext := t, cache := h.op == 0x10, out := h.op == 0x11 },
       { off := 68, ext := z, cache := h.op == 0x11, out := h.op == 0x10 }]
  else if e = 2 then
    let t := parseSort desc
    let kb := keyBytes t.fmt
    let m := sortMost h t
    [{ off := 48, ext := t.n * kb, al := if kb = 2 then 2 else 64, cache := true }]
    ++ (if t.gen then [] else [{ off := 56, ext := 4 * t.n, cache := true }])
    ++ (if t.segAddr = 0 then [] else [{ off := 64, ext := 2 * t.n, cache := true }])
    ++ [{ off := 72, ext := m * kb, out := true }, { off := 80, ext := 4 * m, out := true },
        { off := 88, ext := if t.segAddr = 0 then 4 else 8 * t.nseg + 8, out := true }]
  else
    let v := parseVec desc
    let phases := if h.op = 0x32 then v.u * v.u - 1 else 0
    [{ off := 48, ext := phases * v.bStride + (v.rows - 1) * v.aStride + v.cols * ie, al := 2, cache := true }]
    ++ (if vecUsesB h.op then
          [{ off := 56, cache := true,
             ext := if v.bMode = 1 ∨ 0x20 < h.op then v.cols * ie else if v.bMode = 2 then v.rows * ie
                    else if v.bMode = 3 then ie else (v.rows - 1) * v.bStride + v.cols * ie }] else [])
    ++ (if vecUsesY h.op then
          [{ off := 64, out := true,
             ext := if h.op = 0x31 then (v.cols - 1) * v.yStride + v.rows * oe
                    else if h.op = 0x32 then (v.rows * v.u - 1) * v.yStride + v.cols * v.u * oe
                    else (v.rows - 1) * v.yStride + v.cols * oe }] else [])
    ++ (if vecUsesAux h.op then [{ off := 72, ext := 4 * v.cols, cache := true }] else [])
    ++ (if vecUsesStat h.op v.stats then
          [{ off := 80, out := true,
             ext := if h.op = 0x20 then 8 * v.rows else if h.op = 0x26 then 4 * v.rows * ceilDiv v.cols (vecChunk v)
                    else 4 * v.rows }] else [])

/-! ### Rows and flag bytes -/

/-- Rows of the data input, and of the output, of an operation (R255, R262, R264, R269, R271, R272). -/
def engRows (blk : List Byte) (e : Nat) (desc : List Byte) : Nat × Nat :=
  let h := parseEng desc
  if e = 0 then
    let t := parseTx desc
    (t.batch * t.batch2, t.batch * t.batch2)
  else if e = 1 then
    if h.op = 1 then (leAt desc 78 2 + 1, leAt desc 78 2 + 1)
    else if h.op < 5 then ((parseConv blk).hIn, (parseConv blk).hOut)
    else
      let bl := (cmpBlocks desc).1
      if h.op = 0x10 then (leAt desc 60 2 + 1, bl) else (bl, leAt desc 60 2 + 1)
  else if e = 2 then ((parseSort desc).n, (parseSort desc).n)
  else
    let v := parseVec desc
    (v.rows, if h.op = 0x31 then v.cols else if h.op = 0x32 then v.rows * v.u else v.rows)

/-- Rows per flag byte of an operation's tag blocks; a window operation's hold one byte per row (R262, R265). -/
def engDiv (e : Nat) (h : EngHead) : Nat := if e = 1 ∧ 2 ≤ h.op ∧ h.op ≤ 4 then 1 else h.div

/-! ### Validation (Table 9.2) -/

/-- The operation codes of an engine (E3). -/
def engOpOk (e op : Nat) : Bool :=
  if e = 0 then decide (1 ≤ op ∧ op ≤ 3)
  else if e = 1 then decide (1 ≤ op ∧ op ≤ 4) || op == 0x10 || op == 0x11
  else if e = 2 then op == 1 || op == 2
  else decide (1 ≤ op ∧ op ≤ 7) || decide (0x10 ≤ op ∧ op ≤ 0x1A) || decide (0x20 ≤ op ∧ op ≤ 0x26)
    || decide (0x30 ≤ op ∧ op ≤ 0x32)

/-- The reserved bits of a body are zero, and the fields that an operation leaves unused (E2); of an
undefined operation only the head is known. -/
def engClean (e : Nat) (desc : List Byte) : Bool :=
  let h := parseEng desc
  let n (o k : Nat) := leAt desc o k
  let z (o k : Nat) : Bool := n o k == 0
  let body : Bool :=
    if e = 0 then fldN (n 65 1) 7 3 == 0 && z 66 2 && fldN (n 78 2) 15 12 == 0 && z 104 24
    else if e = 1 then
      if h.op = 1 then z 100 28
      else if h.op < 5 then
        decide (n 84 1 < 2) && z 85 43 && (h.op == 4 || (z 68 8 && z 76 8))
      else decide (n 66 1 < 2) && z 67 1 && z 76 52
    else if e = 2 then
      fldN (n 96 4) 31 17 == 0 && fldN (n 100 2) 15 12 == 0 && fldN (n 102 2) 15 10 == 0 && fldN (n 104 1) 7 6 == 0
        && z 105 3 && z 112 16 && decide ((parseSort desc).fmt ≤ 4) && (h.op != 1 || z 100 2)
        && (!(parseSort desc).gen || z 56 8)
    else
      let v := parseVec desc
      fldN (n 88 4) 31 24 == 0 && fldN (n 94 1) 7 3 == 0 && fldN (n 95 1) 7 3 == 0 && z 114 14
        && (vecUsesB h.op || z 56 8) && (vecUsesAux h.op || z 72 8) && (vecUsesStat h.op v.stats || z 80 8)
  h.clean && (!engOpOk e h.op || body) && (!engOpOk e h.op || h.tag1 == 0 || e == 2 || (e == 3 && decide (1 ≤ h.op ∧ h.op ≤ 7)))

/-- The formats are defined and permitted (E4). -/
def engFormatsOk (e : Nat) (desc : List Byte) : Bool :=
  let h := parseEng desc
  h.inF != 3 && h.outF != 3 &&
  (if e = 0 then h.outF == 2 || h.op == 3 || (h.op == 2 && (parseTx desc).real)
   else if e = 1 then
     (if h.op = 1 then h.inF == 2 && h.outF == 2 else if h.op < 5 then true else h.inF == 0 && h.outF == 0)
   else if e = 2 then h.inF == 0 && h.outF == 0
   else true)

/-- Sizes (E5). -/
def engSizes (blk : List Byte) (e : Nat) (desc : List Byte) : Nat :=
  let h := parseEng desc
  if e = 0 then
    let t := parseTx desc
    let n := 2 ^ t.p
    let inv := h.op == 2 && t.real
    if (if h.op = 3 then 6 else 4) ≤ t.p ∧ t.p ≤ 12 ∧ t.inSkip < n ∧ 1 ≤ t.inLen ∧ t.inSkip + t.inLen ≤ n
        ∧ t.outFirst + t.outLen ≤ txOuts h t ∧ (inv = true → t.inSkip = 0 ∧ t.inLen = n / 2 + 1)
        ∧ (h.op = 3 ∧ t.block = true → n % t.b = 0) then 0
    else St.FFT_SIZE_INVALID
  else if e = 1 then
    if h.op = 1 then
      if leAt desc 72 2 < 1024 ∧ leAt desc 74 2 < 1024 then 0 else St.CONV_PARAM_INVALID
    else if h.op < 5 then
      let b := parseConv blk
      if blk.isEmpty then 0 else if b.status ≠ 0 then b.status else if b.u ≠ 1 ∨ h.div ≠ b.wOut then St.CONV_PARAM_INVALID else 0
    else if leAt desc 60 2 < 16384 ∧ leAt desc 62 2 < 16384 then 0 else St.CMP_SHAPE_INVALID
  else if e = 2 then
    let t := parseSort desc
    if 1 ≤ t.n ∧ t.n ≤ 65536 ∧ t.n ≤ h.div then 0 else St.SORT_SIZE_INVALID
  else
    let v := parseVec desc
    if fpFinite (f32v v.p0) = true ∧ (h.op = 0x32 → v.chunk ≠ 0 ∧ v.cols % v.chunk = 0) then 0 else St.VEC_SHAPE_INVALID

/-- The strides of a body are multiples of what its table asks for (E7). -/
def engStridesOk (e : Nat) (desc : List Byte) : Bool :=
  let h := parseEng desc
  let m (o d : Nat) : Bool := leAt desc o 4 % d == 0
  if e = 0 then
    let el := txElem h (parseTx desc)
    m 80 el.1 && m 84 el.1 && m 88 el.1 && m 92 el.2 && m 96 el.2 && m 100 el.2
  else if e = 1 then
    if h.op = 1 then m 80 8 && m 84 8 && m 88 4 && m 92 8 && m 96 8
    else if h.op < 5 then m 64 64 else m 56 64
  else if e = 2 then true
  else m 96 64 && m 100 64 && m 104 64

/-- Operands and tag blocks are aligned and in memory (E7). -/
def engAddresses (s : State) (c e : Nat) (blk desc : List Byte) : Nat :=
  let h := parseEng desc
  let st := operandsStatus s c desc (engOperands blk e desc)
  let tagOk (a rows : Nat) (cache : Bool) : Bool :=
    let n := 8 + ceilDiv rows (max 1 (engDiv e h))
    a % 64 == 0 && (inDram a n || inScratch a n || (cache && inCache a n))
  let rows := engRows blk e desc
  let win : Bool := if e = 1 ∧ 2 ≤ h.op ∧ h.op ≤ 4 then
      let b := parseConv blk
      let x := b.extent (ofmtBytes h.inF)
      b.addr % 64 == 0 && (inDram b.addr x || inScratch b.addr x || inCache b.addr x)
    else true
  if st ≠ 0 then st
  else if engStridesOk e desc && tagOk h.tag0 rows.1 true && (h.tag1 == 0 || tagOk h.tag1 rows.1 true)
      && tagOk h.outTag rows.2 false && win then 0
  else St.OPERAND_ADDR_INVALID

/-- The status with which engine `e` of cluster `c` rejects a descriptor (Table 9.2), or 0. -/
def validateEng (s : State) (c e : Nat) (blk desc : List Byte) : Nat :=
  let h := parseEng desc
  if h.version ≠ 1 then St.DESC_VERSION_INVALID
  else if h.engine ≠ e + 1 ∨ engClean e desc = false then St.DESC_RESERVED_NONZERO
  else if engOpOk e h.op = false then St.ENGINE_OP_INVALID
  else if engFormatsOk e desc = false then St.FORMAT_COMBINATION_INVALID
  else if engSizes blk e desc ≠ 0 then engSizes blk e desc
  else if h.stream < 0x400 ∨ h.div = 0 then St.SHAPE_INVALID
  else if engAddresses s c e blk desc ≠ 0 then engAddresses s c e blk desc
  else if rdB s (A.ENG_FENCE c e) 0 then St.ENGINE_FENCED
  else 0

end Sys2Proof.Machine
end

