-- ==== Sys2Proof/Machine/EngineMath.lean ====
section
/-!
DEFINITION. Engine arithmetic: FP32 steps, complex products, transforms, the ordered sum of a row, and the functions
that R250 writes cr(f(a)).

cr(f(a)) is the exact value rounded once. The functions below are summed as power series in fixed point, to more than
250 bits beyond the value's last place, and then rounded: DEDUCED, log entry 31.
-/

namespace Sys2Proof.Machine

/-! ### FP32 steps (R250) -/

/-- Sum. -/
abbrev fAdd (a b : Fp) : Fp := fpAdd f32 true a b
/-- Difference. -/
abbrev fSub (a b : Fp) : Fp := fpSub f32 true a b
/-- Product. -/
abbrev fMul (a b : Fp) : Fp := fpMul f32 true a b

/-- An exact value rounded once to FP32; beyond the finite range it saturates. -/
def cr (x : Fr) : Fp := fpRound f32 true x

/-- The quotient of finite numbers rounded once; by zero it saturates with the sign of the quotient. -/
def crDiv (a b : Fp) : Fp :=
  if fpIsZero b then fpConv f32 true (.inf (fpSign a != fpSign b)) else fpDiv f32 true a b

/-! ### Fixed point -/

/-- Fraction bits of the fixed-point series. -/
abbrev fxBits : Nat := 768

/-- One. -/
abbrev fxOne : Int := 2 ^ 768

/-- A fixed-point product. -/
def fxMul (a b : Int) : Int := a * b / fxOne

/-- A fixed-point value as an exact value. -/
def fxVal (a : Int) : Fr := { n := a, d := 2 ^ fxBits }

/-- An exact value in fixed point, rounded down. -/
def fxOf (x : Fr) : Int := frFloor (frShift x fxBits)

/-- Σ xⁿ / n! from term `t` = xⁿ / n! on. -/
def expSeries : Nat → Int → Int → Int → Int
  | 0, _, _, _ => 0
  | k + 1, x, n, t => t + expSeries k x (n + 1) (fxMul t x / (n + 1))

/-- Σ z^(2n+1) / (2n+1) from the power `z^(2n+1)` on: the inverse hyperbolic tangent. -/
def atanhSeries : Nat → Int → Int → Int → Int
  | 0, _, _, _ => 0
  | k + 1, z2, n, p => p / (2 * n + 1) + atanhSeries k z2 (n + 1) (fxMul p z2)

/-- ln 2 = 2 atanh(1/3). -/
def fxLn2 : Int := 2 * atanhSeries 260 (fxOne / 9) 0 (fxOne / 3)

/-- Σ (-1)ⁿ z^(2n+1) / (2n+1): the inverse tangent. -/
def atanSeries : Nat → Int → Int → Int → Int
  | 0, _, _, _ => 0
  | k + 1, z2, n, p => p / (2 * n + 1) - atanSeries k z2 (n + 1) (fxMul p z2)

/-- π by Machin's formula. -/
def fxPi : Int :=
  4 * (4 * atanSeries 180 (fxOne / 25) 0 (fxOne / 5) - atanSeries 60 (fxOne / 57121) 0 (fxOne / 239))

/-- Σ (-1)ⁿ x^(2n+k) / (2n+k)! from term `t` on, where `m` is 2n + k: the cosine (k = 0) and the sine (k = 1). -/
def trigSeries : Nat → Int → Int → Int → Int
  | 0, _, _, _ => 0
  | k + 1, x2, m, t => t - trigSeries k x2 (m + 2) (fxMul t x2 / ((m + 1) * (m + 2)))

/-- Σ a^(2n+1) / (1 · 3 · … · (2n+1)) from term `t` on, of the normal distribution function. -/
def normSeries : Nat → Int → Int → Int → Int
  | 0, _, _, _ => 0
  | k + 1, x2, n, t => t + normSeries k x2 (n + 1) (fxMul t x2 / (2 * n + 3))

/-! ### The functions -/

/-- e^x for |x| at most 200. -/
def expVal (x : Fr) : Fr :=
  let fx := fxOf x
  let k := fx / fxLn2
  frShift (fxVal (expSeries 200 (fx - k * fxLn2) 0 fxOne)) k

/-- cr(e^x). -/
def crExp (x : Fr) : Fp :=
  if frLt (frInt 150) x then fpConv f32 true (.inf false)
  else if frLt x (frInt (-150)) then fpZero
  else cr (expVal x)

/-- ln x for positive x. -/
def lnVal (x : Fr) : Fr :=
  let e := frLog2 x
  let m := fxOf (frShift x (-e))
  let z := (m - fxOne) * fxOne / (m + fxOne)
  fxVal (e * fxLn2 + 2 * atanhSeries 260 (fxMul z z) 0 z)

/-- The square root of a positive exact value, to 320 bits. -/
def sqrtVal (x : Fr) : Fr :=
  let e := frLog2 x / 2
  let y := frShift x (640 - 2 * e)
  frShift (frInt (Nat.sqrt (frFloor y).toNat)) (e - 320)

/-- The square root is exact where it can be told so: a perfect square of the significand. -/
def crSqrt (x : Fr) : Fp := cr (sqrtVal x)

/-- cr(1 / (1 + e^-x)). -/
def crSigmoid (x : Fr) : Fp :=
  if frLt (frInt 150) x then cr (frInt 1)
  else if frLt x (frInt (-150)) then fpZero
  else cr (frDiv (frInt 1) (frAdd (frInt 1) (expVal (frNeg x))))

/-- cr(tanh x). -/
def crTanh (x : Fr) : Fp :=
  if x.n = 0 then fpZero
  else if frLt (frInt 60) x then cr (frInt 1)
  else if frLt x (frInt (-60)) then cr (frInt (-1))
  else
    let e := expVal (frMul (frInt 2) x)
    cr (frDiv (frAdd e (frInt (-1))) (frAdd e (frInt 1)))

/-- cr(Φ(a)), Φ the standard normal distribution function: 1/2 + φ(a) (a + a³/3 + a⁵/15 + …). -/
def crPhi (a : Fr) : Fp :=
  if frLt (frInt 15) a then cr (frInt 1)
  else if frLt a (frInt (-15)) then fpZero
  else
    let x := fxOf a
    let x2 := fxMul x x
    let dens := expVal (frMul { n := -1, d := 2 } (frMul a a))
    let root : Int := (Nat.sqrt (2 * fxPi.toNat * 2 ^ fxBits) : Nat)
    let phi := fxOf dens * fxOne / root
    cr (fxVal (fxOne / 2 + fxMul phi (normSeries 1000 x2 0 x)))

/-- The cosine and the sine of 2π m / n, each rounded to FP32; multiples of a quarter turn are exact. -/
def crTurn (m n : Nat) : Fp × Fp :=
  let m := m % n
  if 4 * m % n = 0 then
    match 4 * m / n with
    | 0 => (cr (frInt 1), fpZero)
    | 1 => (fpZero, cr (frInt 1))
    | 2 => (cr (frInt (-1)), fpZero)
    | _ => (fpZero, cr (frInt (-1)))
  else
    let x := 2 * fxPi * m / n
    let x2 := fxMul x x
    (cr (fxVal (trigSeries 120 x2 0 fxOne)), cr (fxVal (trigSeries 120 x2 1 x)))

/-! ### Complex numbers (R250) -/

/-- A complex FP32 number. -/
abbrev Cx := Fp × Fp

/-- Complex product: four rounded products, then one rounded difference and one rounded sum. -/
def cMul (x y : Cx) : Cx :=
  (fSub (fMul x.1 y.1) (fMul x.2 y.2), fAdd (fMul x.1 y.2) (fMul x.2 y.1))

/-- Complex sum. -/
def cAdd (x y : Cx) : Cx := (fAdd x.1 y.1, fAdd x.2 y.2)

/-- Complex difference. -/
def cSub (x y : Cx) : Cx := (fSub x.1 y.1, fSub x.2 y.2)

/-- W(m) of length n: exp(-2πi m / n), conjugated for the inverse (R256). -/
def twiddle (inv : Bool) (m n : Nat) : Cx :=
  let c := crTurn m n
  if inv then c else (c.1, fpNeg c.2)

/-- The elements of a list at even, and at odd, positions. -/
def evens {α : Type} : List α → List α
  | [] => []
  | [a] => [a]
  | a :: _ :: t => a :: evens t

/-- Radix-2 decimation in time (R256): the last stage of the transform joins the transforms of the even and of the odd
elements, and so on down, which is the pseudocode's order of operations. -/
def fft (inv : Bool) : Nat → List Cx → List Cx
  | 0, l => l
  | p + 1, l =>
    let a := fft inv p (evens l)
    let b := fft inv p (evens l.tail)
    let n := 2 ^ (p + 1)
    let t := b.zipIdx.map (fun x => cMul (twiddle inv x.2 n) x.1)
    (a.zip t).map (fun x => cAdd x.1 x.2) ++ (a.zip t).map (fun x => cSub x.1 x.2)

/-- The inverse multiplies by 2^-p, rounding only when the result is subnormal (R256). -/
def fftScale (p : Nat) (x : Cx) : Cx := (scale2 x.1 (-(p : Int)), scale2 x.2 (-(p : Int)))

/-- The unnormalised Walsh–Hadamard transform (R258): the last stage joins the halves. -/
def hadamard : Nat → List Fp → List Fp
  | 0, l => l
  | p + 1, l =>
    let a := hadamard p (l.take (2 ^ p))
    let b := hadamard p (l.drop (2 ^ p))
    (a.zip b).map (fun x => fAdd x.1 x.2) ++ (a.zip b).map (fun x => fSub x.1 x.2)

/-! ### Rows (R273) -/

/-- One lane of the sum: every sixteenth element from `l`, from +0. -/
def laneSum (l : Nat) (v : List Fp) : Fp :=
  ((v.zipIdx.filter (fun x => x.2 % 16 == l)).map (·.1)).foldl fAdd fpZero

/-- Fold sixteen lanes in halves. -/
def foldLanes : Nat → List Fp → List Fp
  | 0, p => p
  | k + 1, p =>
    let w := 2 ^ k
    foldLanes k (((p.take w).zip (p.drop w)).map (fun x => fAdd x.1 x.2))

/-- The sum of a row in the fixed order. -/
def rowSum (v : List Fp) : Fp := (foldLanes 4 ((List.range 16).map (fun l => laneSum l v))).headD fpZero

/-- The maximum of a row. -/
def rowMaxOf (v : List Fp) : Fp :=
  match v with
  | [] => fpZero
  | x :: t => t.foldl (fun a b => if fpLt a b then b else a) x

/-- The first index that attains the maximum. -/
def argMax (v : List Fp) : Nat :=
  let m := rowMaxOf v
  v.findIdx (fun x => !fpLt x m)

/-- Magnitude. -/
def fAbs : Fp → Fp
  | .fin _ m q => .fin false m q
  | .inf _ => .inf false
  | .nan => .nan

/-- The maximum of two; of +0 and -0 it is +0. -/
def fMax (a b : Fp) : Fp := if fpIsZero a && fpIsZero b then fpZero else if fpLt a b then b else a
/-- The minimum of two; of +0 and -0 it is +0. -/
def fMin (a b : Fp) : Fp := if fpIsZero a && fpIsZero b then fpZero else if fpLt b a then b else a

end Sys2Proof.Machine
end

