-- ==== Sys2Proof/Machine/EngineOps.lean ====
section
/-!
DEFINITION. What each engine operation computes (R250, R255 to R258, R264 to R276).
-/

namespace Sys2Proof.Machine

/-- What an operation gives: a status that stops it (0 for none), the writes (operand field, offset, bytes) in order,
the runs of input flag bytes that each flag byte of its output inherits, job-status flags, event flags of its page, and counters (register, amount, wrapping). -/
structure EngOut where
  status : Nat := 0
  writes : List (Nat × Nat × List Byte) := []
  flags : List (List (Nat × Nat)) := []
  job : Nat := 0
  evt : Nat := 0
  counts : List (Nat × Nat × Bool) := []
  deriving DecidableEq, Repr

/-- An operation that is stopped. -/
def engStop (st : Nat) : EngOut := { status := st }

/-- The numbers that bytes hold in a format, exactly. -/
def fpElems (f : Nat) (bs : List Byte) : List Fp := (elems (ofmtBytes f) bs).map (fpDecode (fmtOf f))
where
  elems (k : Nat) (bs : List Byte) : List Nat := (List.range (bs.length / k)).map (fun i => leAt bs (k * i) k)

/-- Every element is finite. -/
def allFinite (l : List Fp) : Bool := l.all fpFinite

/-- The bytes of results narrowed to a format. -/
def narrowBytes (f : Nat) (l : List Fp) : List Byte := l.flatMap (fun x => leBytes (ofmtBytes f) (narrow f x))

/-- Read runs of elements of an operand; a non-finite one stops the operation (R250). -/
def fpReads (s : State) (op : Op) (off f : Nat) (l : List (Nat × Nat)) : Nat × List (List Fp) × State :=
  match opReads s op off (l.map (fun x => (x.1, x.2 * ofmtBytes f))) with
  | (0, bs, s) =>
    let v := bs.map (fpElems f)
    if v.all allFinite then (0, v, s) else (St.ARITH_NONFINITE, [], s)
  | (st, _, s) => (st, [], s)

/-- Output flag bytes that follow the rows of both inputs: one for every `div` output rows, from input rows
`lo g` to `hi g - 1`. -/
def engRowFlags (h : EngHead) (div rows : Nat) (lo hi : Nat → Nat) : List (List (Nat × Nat)) :=
  (List.range (ceilDiv rows div)).map (fun g =>
    let a := lo (g * div)
    let b := hi (min rows (g * div + div))
    flagRun h.tag0 h.div a b ++ (if h.tag1 = 0 then [] else flagRun h.tag1 h.div a b))

/-- Flag bytes of an output that depends on the whole operand of `rows` rows. -/
def wholeFlags (h : EngHead) (rows outRows : Nat) : List (List (Nat × Nat)) :=
  engRowFlags h h.div outRows (fun _ => 0) (fun _ => rows)

/-! ### Transforms (R255 to R258) -/

/-- The complex numbers in bytes of components, or real numbers with zero imaginary parts. -/
def toComplex (cx : Bool) (l : List Fp) : List Cx :=
  if cx then (List.range (l.length / 2)).map (fun i => (l.getD (2 * i) fpZero, l.getD (2 * i + 1) fpZero))
  else l.map (fun x => (x, fpZero))

/-- The zero-padded input of a transform. -/
def txPad (n skip : Nat) (l : List Cx) : List Cx :=
  let z := (fpZero, fpZero)
  (List.replicate skip z ++ l ++ List.replicate (n - skip - l.length) z).take n

/-- The spectrum that a real inverse reads: bins 0 to n / 2, and the conjugates (R257). -/
def txMirror (n : Nat) (l : List Cx) : List Cx :=
  (List.range n).map (fun k =>
    if k = 0 ∨ k = n / 2 then ((l.getD k (fpZero, fpZero)).1, fpZero)
    else if k < n / 2 then l.getD k (fpZero, fpZero)
    else
      let x := l.getD (n - k) (fpZero, fpZero)
      (x.1, fpNeg x.2))

/-- One transform of its input elements: the components of its output elements. -/
def txOne (h : EngHead) (t : TxBody) (sign : Nat → Bool) (l : List Cx) : List (List Fp) :=
  let n := 2 ^ t.p
  if h.op = 1 then
    ((fft false t.p (txPad n t.inSkip l)).take (txOuts h t)).map (fun x => [x.1, x.2])
  else if h.op = 2 then
    let y := (fft true t.p (if t.real then txMirror n l else txPad n t.inSkip l)).map (fftScale t.p)
    y.map (fun x => if t.real then [x.1] else [x.1, x.2])
  else
    let v := (txPad n t.inSkip l).map (·.1)
    let y := if t.block then
        (blocksOf t.b v).flatMap (fun w =>
          let g := hadamard t.b.log2 (w.zipIdx.map (fun x => if sign x.2 then fpNeg x.1 else x.1))
          if t.scaleB then g.map (fun x => scale2 x (-(t.b.log2 : Int))) else g)
      else hadamard t.p v
    y.map (fun x => [x])

/-- A transform operation. -/
def runTransform (s : State) (op : Op) (h : EngHead) : EngOut × State :=
  let t := parseTx op.desc
  let el := txElem h t
  let cxIn := h.op == 1 && !t.real || h.op == 2
  let sign (k : Nat) : Bool := bitN (op.sign.getD (k / 32) 0) (k % 32)
  let rows := (List.range t.batch2).flatMap (fun j => (List.range t.batch).map (fun i => (i, j)))
  let base (st : Nat × Nat × Nat) (r : Nat × Nat) (e : Nat) : Nat := r.1 * st.1 + r.2 * st.2.1 + e * st.2.2
  let per := if cxIn then 2 else 1
  match fpReads s op 48 h.inF (rows.flatMap (fun r =>
      (List.range t.inLen).map (fun i => (base t.ins r (t.inSkip + i), per)))) with
  | (0, v, s) =>
    let ins := (List.range rows.length).map (fun r => toComplex cxIn ((v.drop (r * t.inLen)).take t.inLen).flatten)
    let outs := (rows.zip ins).flatMap (fun x =>
      let y := txOne h t sign x.2
      (List.range t.outLen).map (fun i =>
        (56, base t.outs x.1 (t.outFirst + i), narrowBytes h.outF (y.getD (t.outFirst + i) []))))
    ({ writes := outs.filter (fun w => w.2.2.length == el.2),
       flags := engRowFlags h h.div rows.length id id,
       counts := [(A.TX_TRANSFORMS op.cluster, rows.length, true)] }, s)
  | (st, _, s) => (engStop st, s)

/-! ### Convolution and compression (R264 to R269) -/

/-- SPECTRAL_MAC (R264). -/
def runSpectral (s : State) (op : Op) (h : EngHead) : EngOut × State :=
  let n (o k : Nat) := leAt op.desc o k
  let ci := n 72 2 + 1
  let co := n 74 2 + 1
  let b := n 76 2 + 1
  let t := n 78 2 + 1
  match fpReads s op 48 2 ((List.range (t * ci)).map (fun i => (i / ci * n 80 4 + i % ci * n 84 4, 2 * b))) with
  | (0, x, s) =>
    match fpReads s op 56 1 ((List.range (co * ci)).map (fun i => (i * n 88 4, 2 * b))) with
    | (0, k, s) =>
      let xs := x.map (toComplex true)
      let ks := k.map (toComplex true)
      let z : Cx := (fpZero, fpZero)
      let y (q o f : Nat) : Cx := (List.range ci).foldl (fun a i =>
        cAdd a (cMul ((xs.getD (q * ci + i) []).getD f z) ((ks.getD (o * ci + i) []).getD f z))) z
      ({ writes := (List.range (t * co)).map (fun i =>
           (64, i / co * n 92 4 + i % co * n 96 4,
            (List.range b).flatMap (fun f => let v := y (i / co) (i % co) f; narrowBytes 2 [v.1, v.2]))),
         flags := engRowFlags h h.div t id id }, s)
    | (st, _, s) => (engStop st, s)
  | (st, _, s) => (engStop st, s)

/-- The in-range taps of an output pixel: tap index and byte offset of the pixel read. -/
def winTaps (b : ConvBlock) (e oy ox : Nat) : List (Nat × Nat) :=
  (b.taps e oy ox).zipIdx.filterMap (fun x => x.1.2.2.map (fun o => (x.2, o)))

/-- The result of a window operation from its taps in order: index and value (R265). -/
def winValue (op : Nat) (countPad : Bool) (k : Nat) (taps : List (Nat × Fp)) (w : Nat → Fp) (bias : Option Fp) : Fp :=
  match taps with
  | [] => fpZero
  | t :: r =>
    if op = 2 then r.foldl (fun a x => if fpLt a x.2 then x.2 else a) t.2
    else if op = 3 then
      crDiv (r.foldl (fun a x => fAdd a x.2) t.2) (fpInt f32 (if countPad then k else taps.length))
    else
      let v := r.foldl (fun a x => fAdd a (fMul x.2 (w x.1))) (fMul t.2 (w t.1))
      match bias with
      | some b => fAdd v b
      | none => v

/-- A window operation (R265). -/
def runWindow (s : State) (op : Op) (h : EngHead) : EngOut × State :=
  let n (o k : Nat) := leAt op.desc o k
  let b := parseConv op.block
  let ie := ofmtBytes h.inF
  let oe := ofmtBytes h.outF
  let k := b.kh * b.kw
  match (if h.op = 4 then fpReads s op 68 1 [(0, b.cIn * k)] else (0, [], s)) with
  | (0, ws, s) =>
    match (if h.op = 4 ∧ n 76 8 ≠ 0 then fpReads s op 76 2 [(0, b.cIn)] else (0, [], s)) with
    | (0, bs, s) =>
      let pix := (List.range (b.hOut * b.wOut)).map (fun i => (i / b.wOut, i % b.wOut))
      -- every pixel that a tap reads, as the memory holds it; a bad word or element stops the operation
      let used := ((pix.flatMap (fun p => (winTaps b ie p.1 p.2).map (·.2))).eraseDups)
      match used.foldl (fun (acc : Nat × State) o =>
          if acc.1 ≠ 0 then acc
          else match memRead acc.2 (opAgent op) (b.addr + o) (b.cIn * ie) op.cls (echo := execEcho s op.exec) with
            | (0, v, s) => (if allFinite (fpElems h.inF v) then 0 else St.ARITH_NONFINITE, s)
            | (st, _, s) => (st, s)) (0, s) with
      | (0, s) =>
        let at_ (o c : Nat) : Fp := fpDecode (fmtOf h.inF) (memNat s (b.addr + o + c * ie) ie)
        let wt (c i : Nat) : Fp := (ws.headD []).getD (c * k + i) fpZero
        let out := pix.map (fun p =>
          let ts := winTaps b ie p.1 p.2
          (56, p.1 * n 64 4 + p.2 * b.cIn * oe, narrowBytes h.outF ((List.range b.cIn).map (fun c =>
            winValue h.op (bitN (n 84 1) 0) k (ts.map (fun t => (t.1, at_ t.2 c))) (wt c)
              ((bs.head?).map (fun l => l.getD c fpZero))))))
        ({ writes := out, flags := (List.range b.hOut).map (fun oy => b.flagRuns h.tag0 oy),
           counts := [(A.WIN_OUTPUTS op.cluster, b.hOut * b.wOut * b.cIn, true)] }, s)
      | (st, s) => (engStop st, s)
    | (st, _, s) => (engStop st, s)
  | (st, _, s) => (engStop st, s)

/-- Encode a group of 8 values with mantissas of `b` bits (R267): its bytes, whether it was flushed, and how many
mantissas saturate. -/
def cmpEncode (b : Nat) (xs : List Fp) : List Byte × Bool × Nat :=
  -- a BF16 subnormal counts as zero
  let vs := xs.map (fun x => let v := fpVal x; if frLt (frAbs v) (frShift (frInt 1) (-126)) then frInt 0 else v)
  let m := frMaxAbs vs
  if frLt m (frShift (frInt 1) (-100)) then (zeros (1 + b), true, 0)
  else
    let e := frLog2 m + 128
    let q := vs.map (fun v => rne (frShift v (126 + (b : Int) - e)))
    let lim : Int := 2 ^ (b - 1)
    -- a magnitude of 2^(b-1) saturates to 2^(b-1) - 1
    let c := q.map (fun v => if lim ≤ v then lim - 1 else if v ≤ -lim then -(lim - 1) else v)
    let bits := c.zipIdx.foldl (fun a x => a + unsgn b x.1 * 2 ^ (b * x.2)) 0
    (leBytes 1 e.toNat ++ leBytes b bits, false, q.countP (fun v => decide (lim ≤ v ∨ v ≤ -lim)))

/-- Decode a group (R267): its 8 values. -/
def cmpDecode (b : Nat) (g : List Byte) : List Fr :=
  let e := leAt g 0 1
  let bits := leAt g 1 b
  (List.range 8).map (fun i =>
    if e = 0 then frInt 0 else frShift (frInt (sgn b (bits / 2 ^ (b * i)))) ((e : Int) - 126 - b))

/-- A compression or decompression (R269). -/
def runCompress (s : State) (op : Op) (h : EngHead) : EngOut × State :=
  let n (o k : Nat) := leAt op.desc o k
  let th := n 60 2 + 1
  let tw := n 62 2 + 1
  let tc := n 64 2 + 1
  let bl := cmpBlocks op.desc
  let b := if bitN (n 66 1) 0 then 11 else 7
  let bytes := cmpBytes op.desc
  let blocks := (List.range (bl.1 * bl.2.1 * bl.2.2)).map (fun i =>
    (i, i / (bl.2.1 * bl.2.2), i / bl.2.2 % bl.2.1, i % bl.2.2))
  if h.op = 0x10 then
    match fpReads s op 48 0 ((List.range th).map (fun y => (y * n 56 4, tw * tc))) with
    | (0, t, s) =>
      let tb := t.toArray.map (·.toArray)
      let at_ (y x c : Nat) : Fp := if y < th ∧ x < tw ∧ c < tc then (tb.getD y #[]).getD (x * tc + c) fpZero else fpZero
      let enc := blocks.map (fun k =>
        (k.1, (List.range 128).map (fun g => cmpEncode b ((List.range 8).map (fun i =>
          at_ (8 * k.2.1 + g / 16) (8 * k.2.2.1 + i) (16 * k.2.2.2 + g % 16))))))
      let sat := (enc.map (fun e => (e.2.map (·.2.2)).sum)).sum
      ({ writes := enc.map (fun e => (68, e.1 * bytes, e.2.flatMap (·.1))),
         flags := engRowFlags h h.div bl.1 (fun r => 8 * r) (fun r => min th (8 * r)),
         job := if 0 < sat then jfCmpSat else 0, evt := if 0 < sat then 0x20 else 0,
         counts := [(A.CMP_BLOCKS op.cluster, blocks.length, true), (A.CMP_SAT_COUNT op.cluster, sat, false),
           (A.CMP_FLUSH_COUNT op.cluster, (enc.map (fun e => e.2.countP (·.2.1))).sum, false)] }, s)
    | (st, _, s) => (engStop st, s)
  else
    match opReads s op 68 (blocks.map (fun k => (k.1 * bytes, bytes))) with
    | (0, z, s) =>
      let dec := (blocks.zip z).flatMap (fun x =>
        (List.range 128).flatMap (fun g =>
          let y := 8 * x.1.2.1 + g / 16
          let c := 16 * x.1.2.2.2 + g % 16
          (cmpDecode b (x.2.drop (g * (b + 1)))).zipIdx.filterMap (fun v =>
            let px := 8 * x.1.2.2.1 + v.2
            if y < th ∧ px < tw ∧ c < tc then some (48, y * n 56 4 + (px * tc + c) * 2, leBytes 2 (bf16of v.1)) else none)))
      ({ writes := dec, flags := engRowFlags h h.div th (fun r => r / 8) (fun r => ceilDiv r 8),
         counts := [(A.CMP_BLOCKS op.cluster, blocks.length, true)] }, s)
    | (st, _, s) => (engStop st, s)

/-! ### Sort (R270, R271) -/

/-- A key as an exact value, for comparison; none for a number that is not finite. -/
def keyValue (fmt v : Nat) : Option Fr :=
  if fmt < 3 then
    let x := fpDecode (fmtOf fmt) v
    if fpFinite x then some (fpVal x) else none
  else if fmt = 3 then some (frInt v)
  else some (frInt (sgn 32 v))

/-- A key lies below the threshold, or above it when descending is set. -/
def keyDropped (t : SortBody) (key : Nat) : Bool :=
  let th := if keyBytes t.fmt = 2 then t.thrKey % 65536 else t.thrKey
  let lt (a b : Nat) : Bool :=
    if t.fmt < 3 then fpLt (fpDecode (fmtOf t.fmt) a) (fpDecode (fmtOf t.fmt) b)
    else if t.fmt = 3 then decide (a < b) else decide (sgn 32 a < sgn 32 b)
  if t.desc then lt th key else lt key th

/-- An element of a sort: its value, key bits, payload and segment. -/
structure SortElem where
  v : Fr
  key : Nat
  pay : Nat
  seg : Nat
  deriving DecidableEq, Repr

/-- Merge two sorted lists, the left first among equals. -/
def mergeBy (lt : SortElem → SortElem → Bool) : Nat → List SortElem → List SortElem → List SortElem
  | 0, a, b => a ++ b
  | _, [], b => b
  | _, a, [] => a
  | k + 1, x :: a, y :: b => if lt y x then y :: mergeBy lt k (x :: a) b else x :: mergeBy lt k a (y :: b)

/-- A stable merge sort. -/
def stableSort (lt : SortElem → SortElem → Bool) : Nat → List SortElem → List SortElem
  | 0, l => l
  | k + 1, l =>
    if l.length < 2 then l
    else
      let m := l.length / 2
      mergeBy lt l.length (stableSort lt k (l.take m)) (stableSort lt k (l.drop m))

/-- SORT and TOPK. -/
def runSort (s : State) (op : Op) (h : EngHead) : EngOut × State :=
  let t := parseSort op.desc
  let kb := keyBytes t.fmt
  match opRead s op 48 0 (t.n * kb) with
  | (0, kbs, s) =>
    match (if t.gen then (0, [], s) else opRead s op 56 0 (4 * t.n)) with
    | (0, pbs, s) =>
      match (if t.segAddr = 0 then (0, [], s) else opRead s op 64 0 (2 * t.n)) with
      | (0, sbs, s) =>
        let keys := fpElems.elems kb kbs
        let pays := if t.gen then List.range t.n else fpElems.elems 4 pbs
        let segs := if t.segAddr = 0 then List.replicate t.n 0 else fpElems.elems 2 sbs
        match keys.mapM (keyValue t.fmt) with
        | none => (engStop St.ARITH_NONFINITE, s)
        | some vs =>
          if segs.any (fun g => decide ((if t.segAddr = 0 then 1 else t.nseg) ≤ g)) then (engStop St.SORT_SEGMENT_INVALID, s)
          else
            let el := (vs.zip (keys.zip (pays.zip segs))).map (fun x =>
              ({ v := x.1, key := x.2.1, pay := x.2.2.1, seg := x.2.2.2 } : SortElem))
            let keep := el.filter (fun e => !t.thr || !keyDropped t e.key)
            let before (a b : SortElem) : Bool := if t.desc then frLt b.v a.v else frLt a.v b.v
            let groups := (List.range (if t.segAddr = 0 then 1 else t.nseg)).map (fun g =>
              let l := stableSort before 17 (keep.filter (fun e => e.seg == g))
              if h.op = 2 then l.take t.k else l)
            let out := groups.flatten
            let firsts := groups.zipIdx.map (fun x => ((((groups.take x.2).map List.length).sum, x.1.length) : Nat × Nat))
            let table := if t.segAddr = 0 then leBytes 4 out.length
              else (firsts ++ [(Config.openResult 0x0901 [t.n, out.length] % 2 ^ 32, out.length)]).flatMap (fun (x : Nat × Nat) => leBytes 4 x.1 ++ leBytes 4 x.2)
            ({ writes := [(72, 0, out.flatMap (fun e => leBytes kb e.key)), (80, 0, out.flatMap (fun e => leBytes 4 e.pay)),
                 (88, 0, table)],
               flags := wholeFlags h t.n t.n,
               counts := [(A.SR_KEYS op.cluster, t.n, true), (A.SR_THRESH_DROPPED op.cluster, t.n - keep.length, true)] }, s)
      | (st, _, s) => (engStop st, s)
    | (st, _, s) => (engStop st, s)
  | (st, _, s) => (engStop st, s)

/-! ### Vector (R272 to R276) -/

/-- A result, and whether it is undefined (R274). -/
abbrev VRes := Fp × Bool

/-- A defined result. -/
def vOk (x : Fp) : VRes := (x, false)
/-- An undefined result is written as +0. -/
def vDom : VRes := (fpZero, true)

/-- cr(1 / √x) of an exact value; at zero it saturates. -/
def crRsqrt (x : Fr) : VRes :=
  if x.n < 0 then vDom
  else if x.n = 0 then vOk (fpConv f32 true (.inf false))
  else vOk (cr (frDiv (frInt 1) (sqrtVal x)))

/-- The element functions of two operands (0x01 to 0x07). -/
def vecBinary (op : Nat) (a b hh : Fp) : VRes :=
  if op = 1 then vOk (fAdd a b)
  else if op = 2 then vOk (fSub a b)
  else if op = 3 then vOk (fMul a b)
  else if op = 4 then vOk (fMax a b)
  else if op = 5 then vOk (fMin a b)
  else if op = 6 then vOk (fAdd (fMul a b) hh)
  else if fpIsZero a && fpIsZero b then vDom
  else vOk (crDiv a b)

/-- The element functions of one operand (0x10 to 0x1A, 0x30). -/
def vecUnary (op : Nat) (p0 a : Fp) : VRes :=
  let x := fpVal a
  if op = 0x10 then vOk (fMax a fpZero)
  else if op = 0x11 then vOk (if x.n < 0 then fMul a p0 else a)
  else if op = 0x12 then vOk (crSigmoid x)
  else if op = 0x13 then vOk (crTanh x)
  else if op = 0x14 then vOk (fMul a (crSigmoid x))
  else if op = 0x15 then vOk (fMul a (crPhi x))
  else if op = 0x16 then vOk (crExp x)
  else if op = 0x17 then
    if x.n < 0 then vDom else if x.n = 0 then vOk (fpConv f32 true (.inf true)) else vOk (cr (lnVal x))
  else if op = 0x18 then vOk (crDiv (fpInt f32 1) a)
  else if op = 0x19 then crRsqrt x
  else if op = 0x1A then (if x.n < 0 then vDom else if x.n = 0 then vOk fpZero else vOk (crSqrt x))
  else vOk (fMul a p0)

/-- SOFTMAX of a row: its results, the maximum and the log-sum-exp. -/
def softmax (v : List Fp) : List Fp × Fp × Fp :=
  let mx := rowMaxOf v
  let d := v.map (fun x => fpVal (fSub x mx))
  let sum := rowSum (d.map crExp)
  let y := d.map (fun x => if frLt x (frInt (-150)) then fpZero else cr (frDiv (expVal x) (fpVal sum)))
  (y, mx, fAdd mx (cr (lnVal (fpVal sum))))

/-- cr(sum / cols). -/
def rowMean (v : List Fp) : Fp := crDiv (rowSum v) (fpInt f32 v.length)

/-- LAYERNORM and RMSNORM of a row. -/
def normRow (layer : Bool) (p0 : Fp) (v g b : List Fp) : List VRes :=
  let mu := if layer then rowMean v else fpZero
  let d := if layer then v.map (fun x => fSub x mu) else v
  let var := rowMean (d.map (fun x => fMul x x))
  let q := crRsqrt (frAdd (fpVal var) (fpVal p0))
  (d.zip (g.zip b)).map (fun x =>
    let y := fMul (fMul x.1 q.1) x.2.1
    if q.2 then vDom else vOk (if layer then fAdd y x.2.2 else y))

/-- The results of row `r` of a function: y elements, and row results as 32-bit words. -/
def vecRow (v : VecBody) (op : Nat) (a b hh : List Fp) : List VRes × List Nat :=
  let p0 := f32v v.p0
  if op < 0x10 then ((a.zip (b.zip hh)).map (fun x => vecBinary op x.1 x.2.1 x.2.2), [])
  else if op = 0x20 then
    let r := softmax a
    (r.1.map vOk, if v.stats then [f32out r.2.1, f32out r.2.2] else [])
  else if op = 0x21 then (normRow true p0 a b hh, [])
  else if op = 0x22 then (normRow false p0 a b hh, [])
  else if op = 0x23 then ([], [f32out (rowSum a)])
  else if op = 0x24 then ([], [f32out (rowMaxOf a)])
  else if op = 0x25 then ([], [argMax a])
  else if op = 0x26 then
    let k := vecChunk v
    ([], (List.range (ceilDiv v.cols k)).map (fun i => f32out (rowMaxOf (((a.drop (i * k)).take k).map fAbs))))
  else if op = 0x31 ∨ op = 0x32 then (a.map vOk, [])
  else (a.map (vecUnary op p0), [])

/-- Read operand b: the values that row `r` takes. -/
def vecB (s : State) (op : Op) (h : EngHead) (v : VecBody) : Nat × (Nat → List Fp) × State :=
  let none_ := List.replicate v.cols fpZero
  if vecUsesB h.op = false then (0, fun _ => none_, s)
  else if v.bMode = 1 ∨ 0x20 < h.op then
    match fpReads s op 56 h.inF [(0, v.cols)] with
    | (st, l, s) => (st, fun _ => l.headD none_, s)
  else if v.bMode = 2 then
    match fpReads s op 56 h.inF [(0, v.rows)] with
    | (st, l, s) => (st, fun r => List.replicate v.cols ((l.headD []).getD r fpZero), s)
  else if v.bMode = 3 then
    match fpReads s op 56 h.inF [(0, 1)] with
    | (st, l, s) => (st, fun _ => List.replicate v.cols ((l.headD []).headD fpZero), s)
  else
    match fpReads s op 56 h.inF ((List.range v.rows).map (fun r => (r * v.bStride, v.cols))) with
    | (st, l, s) => (st, fun r => l.getD r none_, s)

/-- Flag bytes of a vector operation. -/
def vecFlags (h : EngHead) (v : VecBody) : List (List (Nat × Nat)) :=
  if h.op = 0x31 then wholeFlags h v.rows v.cols
  else if h.op = 0x32 then wholeFlags h v.rows (v.rows * v.u)
  else
    (List.range (ceilDiv v.rows h.div)).map (fun g =>
      let lo := g * h.div
      let hi := min v.rows (lo + h.div)
      let one := v.bMode == 1 || v.bMode == 3
      flagRun h.tag0 h.div lo hi ++
        (if h.tag1 = 0 then [] else if one then flagRun h.tag1 h.div 0 1 else flagRun h.tag1 h.div lo hi))

/-- A vector operation. -/
def runVector (s : State) (op : Op) (h : EngHead) : EngOut × State :=
  let v := parseVec op.desc
  let phases := if h.op = 0x32 then v.u * v.u else 1
  let oe := ofmtBytes h.outF
  match fpReads s op 48 h.inF ((List.range (phases * v.rows)).map (fun i =>
      (i / v.rows * v.bStride + i % v.rows * v.aStride, v.cols))) with
  | (0, a, s) =>
    match vecB s op h v with
    | (0, b, s) =>
      match (if vecUsesAux h.op then fpReads s op 72 2 [(0, v.cols)] else (0, [], s)) with
      | (0, hs, s) =>
        let hh := hs.headD (List.replicate v.cols fpZero)
        let rows := a.zipIdx.map (fun x => vecRow v h.op x.1 (b x.2) hh)
        let ys : List (Nat × Nat × List Byte) :=
          if vecUsesY h.op = false then []
          else if h.op = 0x31 then
            (List.range v.cols).map (fun i =>
              (64, i * v.yStride, narrowBytes h.outF (a.map (fun r => r.getD i fpZero))))
          else if h.op = 0x32 then
            rows.zipIdx.flatMap (fun x =>
              let ph := x.2 / v.rows
              (List.range (v.cols / v.chunk)).map (fun px =>
                (64, (x.2 % v.rows * v.u + ph / v.u) * v.yStride + (px * v.u + ph % v.u) * v.chunk * oe,
                 narrowBytes h.outF (((x.1.1.drop (px * v.chunk)).take v.chunk).map (·.1)))))
          else rows.zipIdx.map (fun x => (64, x.2 * v.yStride, narrowBytes h.outF (x.1.1.map (·.1))))
        let st := rows.flatMap (·.2)
        let dom := (rows.map (fun r => r.1.countP (·.2))).sum
        ({ writes := ys ++ (if vecUsesStat h.op v.stats then [(80, 0, st.flatMap (leBytes 4))] else []),
           flags := vecFlags h v,
           job := if 0 < dom then jfDomain else 0, evt := if 0 < dom then 0x20 else 0,
           counts := [(A.VX_ELEMENTS op.cluster, phases * v.rows * v.cols, true), (A.VX_DOMAIN_COUNT op.cluster, dom, false)] }, s)
      | (st, _, s) => (engStop st, s)
    | (st, _, s) => (engStop st, s)
  | (st, _, s) => (engStop st, s)

/-- What an engine operation gives. -/
def runEngine (s : State) (op : Op) : EngOut × State :=
  let h := parseEng op.desc
  if op.unit = 4 then runTransform s op h
  else if op.unit = 5 then
    (if h.op = 1 then runSpectral s op h else if h.op < 5 then runWindow s op h else runCompress s op h)
  else if op.unit = 6 then runSort s op h
  else runVector s op h

end Sys2Proof.Machine
end

