-- ==== Sys2Proof/Machine/Engines.lean ====
section
/-!
DEFINITION. The cluster engines: their queues, issue, the start and the end of an operation, the fence and the
injection (R248, R249, R252, R253, R278).
-/

namespace Sys2Proof.Machine

/-! ### The queue (R248) -/

/-- The operations of engine `e` of cluster `c`, oldest first, apart from those that failed and wait. -/
def engOps (s : State) (c e : Nat) : List Op :=
  s.ops.filter (fun o => o.cluster == c && o.unit == 4 + e
    && (match o.stage with | .failed _ => false | _ => true))

/-- The operation that an engine executes. -/
def engRunning (s : State) (c e : Nat) : Option Op := (engOps s c e).find? (fun o => o.stage != .queued)

/-- The page of an engine. -/
def engPage (c e : Nat) : Nat := 0x109 + 0x40 * c + e

/-- ENG_STATUS follows the queue (Table 9.14). -/
def engRegs (s : State) (c e : Nat) : State :=
  let q := (engOps s c e).filter (fun o => o.stage == .queued)
  let r := engRunning s c e
  wr s (A.ENG_STATUS c e)
    (b2n r.isSome + 2 * min q.length 8 + 256 * (match r with | some o => leAt o.desc 1 1 | none => 0)
      + 65536 * b2n (rdB s (A.ENG_FENCE c e) 0))

/-- Record the failure of an engine operation (R278, selector 0x03). -/
def engRecord (s : State) (op : Op) (injected : Bool) : State :=
  setRec s (opPage op) 3
    [leAt op.desc 1 1 + 256 * b2n injected + 65536 * opPlacement s op, lo32 s.ridge, hi32 s.ridge, lo32 op.addr]

/-- An engine operation fails: counted, flagged, recorded, and executed again or its job ended (R252, R270, R250). -/
def engFail (s : State) (op : Op) (st : Nat) (injected : Bool) : State :=
  let c := op.cluster
  let e := op.unit - 4
  let p := opPage op
  let s := if st = St.ENGINE_MISMATCH then raise (bumpSat s (A.ENG_MISMATCH_COUNT c e) 1) p 1
    else if st = St.ENGINE_ECC_UNCORRECTABLE then raise (bumpSat s (A.ENG_ECC_UNCORR c e) 1) p 2
    else if st = St.ARITH_NONFINITE then raise (bumpSat s (A.ENG_NONFINITE_COUNT c e) 1) p 4
    else if st = St.SORT_SEGMENT_INVALID then raise (bumpSat s (A.SR_SEG_FAIL c) 1) p 0x20
    else s
  let s := if injected then raise s p 0x10 else s
  engRegs (opFail (engRecord s op injected) op st injected) c e

/-- The operation at the head of a queue starts: its data inputs' frames are checked before its first read (R249), its
appends take their spans and its rolls resolve. -/
def engStart (s : State) (op : Op) : State :=
  let h := parseEng op.desc
  match checkInputs s (opAgent op) op.frame op.cls (execEcho s op.exec) op.addr (engInputs h) with
  | (0, tags, s) =>
    let f (o : Op) : Op := { o with stage := .waiting, outTag := tagBits (outputTag o.frame o.tagCls h.stream tags) }
    let l := engOperands op.block (op.unit - 4) op.desc
    opBegin (opReserve (updOp s op.id f) (f op) l) (f op) l
  | (st, _, s) => failExec (opGone s op) op.exec st

/-- An idle engine starts the next operation of its queue, unless it is fenced, switched off or under test. -/
def engKick : Nat → State → Nat → Nat → State
  | 0, s, c, e => engRegs s c e
  | fuel + 1, s, c, e =>
    match engRunning s c e, engOps s c e with
    | none, op :: _ =>
      if unitFenced s c (4 + e) || bistBusy s (16 + 4 * c + e) || !unitOn s (engPage c e) then engRegs s c e
      else engKick fuel (engStart s op) c e
    | _, _ => engRegs s c e

/-- Start what an engine can start. -/
def engNext (s : State) (c e : Nat) : State := engKick 10 s c e

/-! ### Issue (R248, R253) -/

/-- ENGINE_ISSUE: the control core issues the next descriptor of the firing `exec` to engine `e` of its cluster. -/
def engineIssue (s : State) (exec e : Nat) : State :=
  match findExec s exec with
  | none => s
  | some (x, j) =>
    if coreStalled s (3 + j.cluster) || !jobAwake s j then s else
      let c := j.cluster
      let idx := (List.range j.entry.descCount).filter (fun i =>
        !j.issued.contains i && (if j.entry.orderFree && !strict s then mayIssue s x j i else true))
      let queued := (engOps s c e).countP (fun o => o.stage == .queued)
      match idx with
      | [] => s
      | i :: _ =>
        if 4 < j.entry.unit ∨ 8 ≤ queued ∨ encWaits s (descAddr x j.entry 128 i) 128 = true then s
        else
          match readDescs s c [descAddr x j.entry 128 i] 128 x.cls x.seq with
          | (0, desc :: _, s) =>
            let win := e == 1 && decide (2 ≤ leAt desc 1 1 ∧ leAt desc 1 1 ≤ 4)
            match (if win then peekBlock s c x.cls x.seq (leAt desc 48 8) else (0, [], s)) with
            | (bst, blk, s) =>
            let st := firstStatus [bst, validateEng s c e blk desc, pegStatus s (parseEng desc).peg]
            if st ≠ 0 then failExec s exec st
            else
              let s := if x.cls = clsS ∧ bistBusy s (16 + 4 * c + e) = true then bumpSat s A.BIST_S_WAITS 1 else s
              let op : Op := {
                id := s.nextId, issue := s.nextId, exec := j.exec, index := i, cluster := c, unit := 4 + e, desc := desc,
                addr := descAddr x j.entry 128 i, frame := x.frame, cls := x.cls, tagCls := x.tagCls, slot := x.slot,
                job := j.entry.index, stage := .queued, block := blk }
              let s := { s with nextId := s.nextId + 1, ops := s.ops ++ [op] }
              let s := updJob s x.id j.entry.index (fun r => { r with issued := r.issued ++ [i] })
              engNext s c e
          | (st, _, s) => failExec s exec st

/-! ### The end of an operation (R249, R252) -/

/-- The running operation of an engine, once it has the space in rolls that it waits for. -/
def engReady (s : State) (c e : Nat) : Option Op × State :=
  match engRunning s c e with
  | none => (none, s)
  | some op =>
    if op.stage = .running then (some op, s)
    else
      let s := opBegin s op (engOperands op.block e op.desc)
      ((opOf s op.id).filter (fun o => o.stage == .running), s)

/-- Add the counts of an operation. -/
def engCounts (s : State) (l : List (Nat × Nat × Bool)) : State :=
  l.foldl (fun s x => if x.2.2 then bump s x.1 x.2.1 else bumpSat s x.1 x.2.1) s

/-- Write the outputs of an operation and its tag block, and end it; a read or write that fails stops it. -/
def engFinish (s : State) (op : Op) (o : EngOut) : State :=
  let h := parseEng op.desc
  let echo := execEcho s op.exec
  let writes := o.writes.foldl (fun (acc : Nat × State) w =>
    if acc.1 = 0 then opWrite acc.2 op w.1 w.2.1 w.2.2 else acc) (0, s)
  match writes with
  | (0, s) =>
    match inheritRuns s (opAgent op) op.cls echo 0 o.flags with
    | (0, fl, s) =>
      match writeTagBlock s (opAgent op) h.outTag (parseTag op.outTag) fl op.cls echo with
      | (0, s) =>
        let s := engCounts (bump s (A.ENG_OPS op.cluster (op.unit - 4)) 1) o.counts
        let s := if o.evt = 0 then s else raise s (opPage op) o.evt
        let s := updOp s op.id (fun q => { q with flags := q.flags ||| o.job })
        opDone s op h.peg
      | (st, s) => engFail s op st false
    | (st, _, s) => engFail s op st false
  | (st, s) => engFail s op st false

/-- The cycles that an engine has worked, and waited for memory, on an operation: both are free (R278). -/
def engCycles (s : State) (c e : Nat) : State :=
  let b := drawFree s
  let w := drawFree b.2
  let x := smGet (fun _ => (0, 0)) s.engCycles (4 * c + e)
  { w.2 with engCycles := smSet (fun _ => (0, 0)) w.2.engCycles (4 * c + e) (x.1 + b.1, x.2 + w.1) }

/-- ENGINE_OPERATION_DONE for the operation that runs. -/
def engineDone (s : State) (op : Op) (loss : Option BankLoss) (fault : Option EngineFault) : State :=
  let c := op.cluster
  let e := op.unit - 4
  let s := loseBank s op loss
  if fault = some .eccUncorrectable then engFail s op St.ENGINE_ECC_UNCORRECTABLE false
  else
    let s := if fault = some .eccCorrected then bumpSat s (A.ENG_ECC_CORR c e) 1 else s
    match runEngine s op with
    | (o, s) =>
      if o.status ≠ 0 then engFail s op o.status false
      else if rdB s (A.ENG_INJECT c e) 0 && !o.writes.isEmpty then
        engFail (wrF s (A.ENG_INJECT c e) 0 0 0) op St.ENGINE_MISMATCH true
      else if fault = some .mismatch then engFail s op St.ENGINE_MISMATCH false
      else engFinish s op o

/-! ### Commands -/

/-- ENGINE_ISSUE. -/
def execEngineIssue (exec : BitVec 32) (e : Fin 4) (s : State) : Host.Outcome State Fault Refusal :=
  whenOn (fun s => engineIssue s exec.toNat e.val) s

/-- ENGINE_OPERATION_DONE: the operation that engine `e` of cluster `c` runs ends; `loss` tells the bank cycles it
lost, `fault` what the engine suffered. -/
def execEngineOperationDone (c e : Fin 4) (loss : Option BankLoss) (fault : Option EngineFault) (s : State) :
    Host.Outcome State Fault Refusal :=
  whenOn (fun s =>
    match engReady s c.val e.val with
    | (some op, s) =>
      if opWaits s op (engOperands op.block e.val op.desc) then s
      else engNext (engCycles (engineDone s op loss fault) c.val e.val) c.val e.val
    | (none, s) => engNext s c.val e.val) s

/-- A write of ENG_FENCE takes effect. -/
def applyEngFence (s : State) (c e v : Nat) : State :=
  let s := lapseRestart (applyPlain s (A.ENG_FENCE c e) v) (0x10 + 4 * c + e)
  engNext (if bitN v 0 then raise s (engPage c e) 8 else s) c e

/-- ENG_FENCE: a guarded write fences or unfences an engine. -/
def execEngFence (agent : Agent) (c e : Fin 4) (v : Word) (s : State) : Host.Outcome State Fault Refusal :=
  whenOn (fun s => namedWrite s agent (A.ENG_FENCE c.val e.val) v.toNat (fun s => applyEngFence s c.val e.val v.toNat)) s

/-- ENG_INJECT: a guarded write arms a bit flip on the second datapath. -/
def execEngInject (agent : Agent) (c e : Fin 4) (v : Word) (s : State) : Host.Outcome State Fault Refusal :=
  whenOn (fun s => namedWrite s agent (A.ENG_INJECT c.val e.val) v.toNat (fun s =>
    applyPlain s (A.ENG_INJECT c.val e.val) v.toNat)) s

end Sys2Proof.Machine
end

