-- ==== Sys2Proof/Machine/DecodeQueue.lean ====
section
/-!
DEFINITION. Decode queues: their configuration, and the work that waits in them (R165, R174, R180).
-/

namespace Sys2Proof.Machine

/-! ### Queue configuration (Table 6.10) -/

/-- The RWS words of a queue entry. -/
def dqAddrs (q : Nat) : List Nat :=
  let j := q / 16
  let e := q % 16
  [A.DQ_CTL j e, A.DQ_MAXDIM j e, A.DQ_OUTDIM j e, A.DQ_SLOT j e, A.DQ_MAXBYTES j e, A.DQ_BUDGET j e,
   A.DQ_LOAD_THRESH j e, A.DQ_PEG j e, A.DQ_OUT_BASE_LO j e, A.DQ_OUT_BASE_HI j e, A.DQ_TAG_BASE_LO j e, A.DQ_TAG_BASE_HI j e]

/-- A decode queue beside its registers. -/
def dqOf (s : State) (q : Nat) : DecQueue := smGet (fun _ => {}) s.decq q

/-- Replace a decode queue. -/
def setDq (s : State) (q : Nat) (x : DecQueue) : State := { s with decq := smSet (fun _ => {}) s.decq q x }

/-- The configuration in effect. -/
def dqCfg (s : State) (q : Nat) : List Nat := (dqOf s q).cfg.getD ((dqAddrs q).map regReset)

/-- Enabled. -/
def dqOn (c : List Nat) : Bool := bitN (cw c 0) 0
/-- A camera queue. -/
def dqCamera (c : List Nat) : Bool := bitN (cw c 0) 1
/-- AV1. -/
def dqAv1 (c : List Nat) : Bool := bitN (cw c 0) 2
/-- Bit depth. -/
def dqDepthBits (c : List Nat) : Nat := if bitN (cw c 0) 3 then 10 else 8
/-- DQ_CTL.form: 0 mixed. -/
def dqForm (c : List Nat) : Nat := fldN (cw c 0) 5 4
/-- DQ_CTL.out_format. -/
def dqFormat (c : List Nat) : Nat := fldN (cw c 0) 7 6
/-- Class of a camera queue. -/
def dqClass (c : List Nat) : Nat := fldN (cw c 0) 9 8
/-- Buffers of a camera queue. -/
def dqBuffers (c : List Nat) : Nat := fldN (cw c 0) 11 10 + 1
/-- Picture buffers. -/
def dqDpb (c : List Nat) : Nat := fldN (cw c 0) 15 12 + 1
/-- Output width. -/
def dqW (c : List Nat) : Nat := fldN (cw c 2) 13 0
/-- Output height. -/
def dqH (c : List Nat) : Nat := fldN (cw c 2) 28 16
/-- Slot stride. -/
def dqSlot (c : List Nat) : Nat := cw c 3
/-- DQ_PEG. -/
def dqPeg (c : List Nat) : Nat := fldN (cw c 7) 15 0
/-- DQ_BUDGET in ticks. -/
def dqBudget (c : List Nat) : Nat := 1000 * fldN (cw c 5) 19 0
/-- DQ_OUT_BASE. -/
def dqOut (c : List Nat) : Nat := cw c 8 + 2 ^ 32 * cw c 9
/-- DQ_TAG_BASE. -/
def dqTag (c : List Nat) : Nat := cw c 10 + 2 ^ 32 * cw c 11

/-- DQ_SLOT_DATA (R178). -/
def dqSlotData (c : List Nat) : Nat :=
  let w := dqW c
  let h := dqH c
  let e := if dqDepthBits c = 8 then 1 else 2
  if dqFormat c = 0 then roundUp (w * e) 64 * h + roundUp (w / 2 * e) 64 * h
  else if dqFormat c = 1 then 3 * roundUp (2 * w) 64 * h
  else roundUp (2 * w) 64 * h

/-- A configuration meets the constraints of Table 6.10 (R174). -/
def dqConfigOk (s : State) (c : List Nat) : Bool :=
  let mw := fldN (cw c 1) 13 0
  let mh := fldN (cw c 1) 28 16
  let n := if dqCamera c then dqBuffers c else 1
  decide (dqForm c ≠ 3 ∧ dqFormat c ≠ 3) && decide (16 ≤ mw ∧ mw ≤ 8192 ∧ 16 ≤ mh ∧ mh ≤ 4352) &&
    decide (dqW c % 2 = 0 ∧ dqH c % 2 = 0 ∧ dqW c ≤ mw ∧ dqH c ≤ mh) &&
    decide (dqSlot c % 64 = 0 ∧ dqSlotData c ≤ dqSlot c) &&
    decide (1 ≤ fldN (cw c 4) 26 0 ∧ fldN (cw c 4) 26 0 ≤ 67108864) &&
    decide (100 ≤ fldN (cw c 5) 19 0 ∧ fldN (cw c 5) 19 0 ≤ 1000000) &&
    (List.range n).all (fun i => refWellFormed (dqPeg c + (if refNames (dqPeg c) then i else 0)) &&
      (!refNames (dqPeg c) || pegMode (pegAt s (dqPeg c + i)) == 1)) &&
    decide (fldN (cw c 9) 23 16 = 0 ∧ fldN (cw c 11) 23 16 = 0) && (!dqCamera c || (decide (dqClass c ≠ 0 ∧ dqOut c % 64 = 0 ∧ dqTag c % 64 = 0) && inMemory (dqOut c) (n * dqSlot c) &&
      inMemory (dqTag c) (16 * n)))

/-- What makes the decoding context invalid when it changes (R173). -/
def dqContextKey (c : List Nat) : List Nat :=
  [fldN (cw c 0) 3 2, dqFormat c, dqDpb c, cw c 1, cw c 2]

/-- At a sample boundary the queue takes its live configuration, or keeps the old one whole (R174). -/
def dqApply (s : State) (q : Nat) : State :=
  let old := dqCfg s q
  let new := (dqAddrs q).map (rd s)
  let st := A.DQ_STATUS (q / 16) (q % 16)
  if (dqOf s q).began.isSome || new == old then s
  else if dqConfigOk s new then
    let x := dqOf s q
    let keep := dqContextKey old == dqContextKey new && (dqOn old || !dqOn new)
    let s := setDq s q { x with cfg := some new, valid := x.valid && keep, refs := if keep then x.refs else [] }
    wrF (wrF (wr s (A.DQ_SLOT_DATA (q / 16) (q % 16)) (dqSlotData new)) st 2 2 0) st 0 0 (b2n (x.valid && keep))
  else
    let s := ((dqAddrs q).zip old).foldl (fun s e => wr s e.1 e.2) s
    raise (wrF s st 2 2 1) 0x0C0 4

/-! ### Queued work (R180) -/

/-- Batch pods of a queue that are accepted and not yet taken by decode. -/
def dqPods (s : State) (q : Nat) : List RxPod :=
  s.pods.rx.filter (fun p => p.hdr.kind == 3 && p.hdr.target % 256 == q && !p.taken)

/-- Peas of a batch pod. -/
def podPeas (p : RxPod) : Nat := if p.hdr.operation = 1 then leAt p.body 0 1 else 0

/-- Peas queued (DQ_DEPTH). -/
def dqQueued (s : State) (q : Nat) : Nat := (dqOf s q).items.length + ((dqPods s q).map podPeas).sum

/-- Compressed peas queued. -/
def dqCompressed (s : State) (q : Nat) : Nat :=
  (dqOf s q).items.countP (fun x => x.form == 1) +
    ((dqPods s q).map (fun p => (List.range (podPeas p)).countP (fun i => leAt p.body (44 + 32 * i) 1 == 1))).sum

/-- DQ_BACKLOG in µs (R180). -/
def dqBacklog (s : State) (q : Nat) : Nat :=
  let c := dqCfg s q
  let size := (dqOf s q).lastLuma.getD (fldN (cw c 1) 13 0 * fldN (cw c 1) 28 16)
  dqCompressed s q * (30000 + size) / 1000

/-- Depth, backlog and the load events follow the queue (R180). -/
def dqUpdate (s : State) (q : Nat) : State :=
  let j := q / 16
  let e := q % 16
  let x := dqOf s q
  let b := dqBacklog s q
  let batches := (((x.items.filter (fun y => !y.camera)).map (·.pod)).dedup).length + ((dqPods s q).filter (fun p => p.hdr.operation == 1)).length
  let depth := dqQueued s q % 512 + 65536 * (batches % 256)
  let old := rd s (A.DQ_BACKLOG j e)
  let s := wr (wr (wr s (A.DQ_DEPTH j e) depth) (A.DQ_BACKLOG j e) b) A.DEC_BACKLOG ((rd s A.DEC_BACKLOG + b - old) % 2 ^ 32)
  let thr := fldN (cw (dqCfg s q) 6) 19 0
  let tell (s : State) (up : Bool) : State :=
    let s := setDq (wrF s (A.DQ_STATUS j e) 1 1 (b2n up)) q { dqOf s q with loadHigh := up }
    sendEvent s 0x0302 0 0 0 0 (leBytes 2 q ++ leBytes 1 (b2n up) ++ zeros 1 ++ leBytes 4 b ++ leBytes 4 depth ++ zeros 4)
  if x.loadHigh = false ∧ thr < b then tell (raise s 0x0C0 2) true
  else if x.loadHigh = true ∧ b + rdF s A.DEC_LOAD_HYST 19 0 < thr then tell s false
  else s

/-- Cores busy (DEC_STATUS). -/
def coresBusy (s : State) : Nat := (List.range 64).countP (fun q => (dqOf s q).began.isSome)

/-- A camera frame's payload becomes a sample of a queue that is bound to a camera; a queue bound to the host takes none, and a
decode section that is off takes none (R68, R165). -/
def dqCameraSample (s : State) (q : Nat) (x : Sample) : State :=
  if dqOn (dqCfg s q) && dqCamera (dqCfg s q) && unitOn s 0x0C0 then
    dqUpdate (setDq s q { dqOf s q with items := (dqOf s q).items ++ [x] }) q
  else s

end Sys2Proof.Machine
end

