-- ==== Sys2Proof/Machine/Ingress.lean ====
section
/-!
DEFINITION. Sensor ingress: from a received frame to lines, points and compressed payloads (chapter 4, R92 to R113,
R120 to R123).
-/

namespace Sys2Proof.Machine

/-! ### Streams and ports -/

/-- A stream beside its registers. -/
def streamOf (s : State) (st : Nat) : IngressStream := smGet (fun _ => {}) s.streams st

/-- Replace a stream. -/
def setStream (s : State) (st : Nat) (x : IngressStream) : State :=
  { s with streams := smSet (fun _ => {}) s.streams st x }

/-- A sensor port beside its registers. -/
def sensorOf (s : State) (n : Nat) : SensorPort := smGet (fun _ => {}) s.sensors n

/-- Replace a sensor port. -/
def setSensor (s : State) (n : Nat) (x : SensorPort) : State :=
  { s with sensors := smSet (fun _ => {}) s.sensors n x }

/-- The ports of a mask. -/
def portsOf (mask : Nat) : List Nat := (List.range 32).filter (fun n => bitN mask n)

/-- Page and entry of a stream (R126). -/
def stPage (st : Nat) : Nat := st / 32
/-- Entry of a stream in its page. -/
def stEntry (st : Nat) : Nat := st % 32

/-- The live or shadow configuration of a stream entry. -/
def streamCfg (rdr : Nat → Nat) (st : Nat) : StreamCfg :=
  let j := stPage st
  let e := stEntry st
  { ctl := rdr (A.ST_CTL j e), format := rdr (A.ST_FORMAT j e), geom := rdr (A.ST_GEOM j e), pad := rdr (A.ST_PAD j e),
    fsOff := rdr (A.ST_FS_OFFSET j e), deadlines := rdr (A.ST_DEADLINES j e), tpDl := rdr (A.ST_TP_DEADLINE j e),
    tp := rdr (A.ST_TP j e), seed := rdr (A.ST_TP_SEED j e), emb := rdr (A.ST_EMB j e) }

/-- ST_CTL.enable. -/
def StreamCfg.on (c : StreamCfg) : Bool := bitN c.ctl 0
/-- ST_CTL.route: 1 image pipe, 2 decode. -/
def StreamCfg.route (c : StreamCfg) : Nat := fldN c.ctl 2 1
/-- ST_CTL.target. -/
def StreamCfg.target (c : StreamCfg) : Nat := fldN c.ctl 9 4
/-- ST_CTL.frame_group. -/
def StreamCfg.fg (c : StreamCfg) : Nat := fldN c.ctl 12 10
/-- ST_CTL.tp_camera. -/
def StreamCfg.tpCamera (c : StreamCfg) : Bool := bitN c.ctl 13
/-- Image data type. -/
def StreamCfg.dt (c : StreamCfg) : Nat := fldN c.format 5 0
/-- Width in pixels. -/
def StreamCfg.width (c : StreamCfg) : Nat := fldN c.geom 14 0
/-- Lines per frame. -/
def StreamCfg.lines (c : StreamCfg) : Nat := fldN c.geom 29 16
/-- fs_offset, signed ticks. -/
def StreamCfg.off (c : StreamCfg) : Int := sgn 32 c.fsOff
/-- fs_deadline in ticks from the window's start. -/
def StreamCfg.fsDl (c : StreamCfg) : Nat := 10000 * fldN c.deadlines 15 0
/-- fe_deadline in ticks. -/
def StreamCfg.feDl (c : StreamCfg) : Nat := 10000 * fldN c.deadlines 31 16
/-- tp_deadline in ticks. -/
def StreamCfg.tpDeadline (c : StreamCfg) : Nat := 10000 * fldN c.tpDl 15 0

/-- A raw or YUV image data type (Table 4.3). -/
def isImageDt (dt : Nat) : Bool := dt == 0x1E || decide (0x2A ≤ dt ∧ dt ≤ 0x2F) || dt == 0x27

/-- A user-defined data type. -/
def isUserDt (dt : Nat) : Bool := decide (0x30 ≤ dt ∧ dt ≤ 0x37)

/-- A configuration may be enabled (R104, R107, Table 4.5, Table 4.13). -/
def streamCfgOk (s : State) (c : StreamCfg) : Bool :=
  let fs := fldN c.deadlines 15 0
  let fe := fldN c.deadlines 31 16
  let tp := fldN c.tpDl 15 0
  let period : Int := fgPeriod s c.fg
  decide (c.route = 1 ∨ c.route = 2) &&
    (if c.route = 1 then decide (c.target < 16) && isImageDt c.dt && decide (1 ≤ c.width ∧ c.width ≤ 16384)
      else isUserDt c.dt) && decide (1 ≤ c.lines ∧ c.lines ≤ 8192) &&
    decide (0 < fs ∧ fs < fe ∧ fe < tp) &&
    decide (-period < c.off ∧ c.off < period ∧ c.off + 10000 * (tp : Int) ≤ period) &&
    (!c.tpCamera || (isUserDt (fldN c.tp 5 0) && decide (64 ≤ fldN c.tp 26 16 ∧ fldN c.tp 26 16 ≤ 1024) &&
      fldN c.tp 26 16 % 16 == 0))

/-! ### Raw formats -/

/-- Bytes and pixels of one packed group of a data type. -/
def packGroup (dt : Nat) : Nat × Nat :=
  if dt = 0x1E then (4, 2) else if dt = 0x2A then (1, 1) else if dt = 0x2B then (5, 4) else if dt = 0x2C then (3, 2)
  else if dt = 0x2D then (7, 4) else if dt = 0x2E then (2, 1) else if dt = 0x2F then (5, 2) else (3, 1)

/-- Bits of a pixel (Table 4.3). -/
def dtBits (dt : Nat) : Nat :=
  if dt = 0x1E then 16 else if dt = 0x2A then 8 else if dt = 0x2B then 10 else if dt = 0x2C then 12
  else if dt = 0x2D then 14 else if dt = 0x2E then 16 else if dt = 0x2F then 20 else 24

/-- wc_max: the bytes of the configured width (R102). -/
def wcMax (c : StreamCfg) : Nat :=
  let g := packGroup c.dt
  ceilDiv c.width g.2 * g.1

/-- The codes of one packed group. -/
def unpackGroup (dt : Nat) (b : List Nat) : List Nat :=
  let g (i : Nat) : Nat := b.getD i 0
  if dt = 0x1E then [g 0 * 256 + g 1, g 2 * 256 + g 3]
  else if dt = 0x2A then [g 0]
  else if dt = 0x2B then (List.range 4).map (fun i => g i * 4 + fldN (g 4) (2 * i + 1) (2 * i))
  else if dt = 0x2C then [g 0 * 16 + g 2 % 16, g 1 * 16 + g 2 / 16]
  else if dt = 0x2D then
    let low := g 4 + 256 * g 5 + 65536 * g 6
    (List.range 4).map (fun i => g i * 64 + fldN low (6 * i + 5) (6 * i))
  else if dt = 0x2E then [g 0 * 256 + g 1]
  else if dt = 0x2F then
    let h (i : Nat) : Nat := g i * 4 + fldN (g 4) (2 * i + 1) (2 * i)
    [h 0 * 1024 + h 1, h 2 * 1024 + h 3]
  else [(g 0 * 16 + g 2 % 16) * 4096 + g 1 * 16 + g 2 / 16]

/-- The codes of the whole groups of a payload. -/
def unpack (dt : Nat) (p : List Byte) : List Nat :=
  let k := (packGroup dt).1
  (List.range (p.length / k)).flatMap (fun i => unpackGroup dt (((p.drop (i * k)).take k).map (·.toNat)))

/-! ### PRBS-31 and checks of CSI-2 -/

/-- `n` bits of the generator x^31 + x^28 + 1, the state's most significant bit first: the number they spell and
the state after. -/
def prbs : Nat → Nat → Nat → Nat × Nat
  | 0, st, acc => (acc, st)
  | n + 1, st, acc =>
    let o := fldN st 30 30
    prbs n ((st * 2) % 2 ^ 31 + (o + fldN st 27 27) % 2) (acc * 2 + o)

/-- `n` words of `w` bits from a state; a state of zero is replaced by 1. -/
def prbsWords (w : Nat) : Nat → Nat → List Nat
  | 0, _ => []
  | n + 1, st => (prbs w st 0).1 :: prbsWords w n (prbs w st 0).2

/-- The generator's start. -/
def prbsSeed (v : Nat) : Nat := if v % 2 ^ 31 = 0 then 1 else v % 2 ^ 31

/-- The camera's test pattern (R111). -/
def cameraPattern (c : StreamCfg) (n : Nat) : List Byte :=
  (prbsWords 8 (fldN c.tp 26 16) (prbsSeed (2 ^ 16 * fldN c.seed 14 0 ||| n))).map (BitVec.ofNat 8)

/-- One bit of the CSI-2 payload CRC. -/
def crc16Bit (c : Nat) : Nat := if c % 2 = 1 then (c / 2) ^^^ 0x8408 else c / 2

/-- The CSI-2 payload CRC (R101). -/
def crc16 (l : List Byte) : Nat :=
  l.foldl (fun c b => crc16Bit (crc16Bit (crc16Bit (crc16Bit (crc16Bit (crc16Bit (crc16Bit (crc16Bit (c ^^^ b.toNat))))))))) 0xFFFF

/-- The six parity sets of the CSI-2 header code (log entry 20). -/
def eccSets : List (List Nat) :=
  [[0, 1, 2, 4, 5, 7, 10, 11, 13, 16, 20, 21, 22, 23, 24], [0, 1, 3, 4, 6, 8, 10, 12, 14, 17, 20, 21, 22, 23, 25],
   [0, 2, 3, 5, 6, 9, 11, 12, 15, 18, 20, 21, 22, 24, 25], [1, 2, 3, 7, 8, 9, 13, 14, 15, 19, 20, 21, 23, 24, 25],
   [4, 5, 6, 7, 8, 9, 16, 17, 18, 19, 20, 22, 23, 24, 25],
   [10, 11, 12, 13, 14, 15, 16, 17, 18, 19, 21, 22, 23, 24, 25]]

/-- The check bits of 26 header bits. -/
def headerEcc (v : Nat) : Nat :=
  (eccSets.zipIdx.map (fun e => (e.1.countP (fun i => bitN v i)) % 2 * 2 ^ e.2)).sum

/-- A checked CSI-2 header: data type, virtual channel, word count; whether a bit was corrected. -/
structure CsiHeader where
  dt : Nat
  vc : Nat
  wc : Nat
  deriving DecidableEq, Repr

/-- Read a header word (R100): identifier [7:0], count [23:8], check bits [29:24], VCX [31:30]. -/
def csiHeader (v : Nat) : CsiHeader :=
  { dt := fldN v 5 0, vc := fldN v 7 6 + 4 * fldN v 25 24, wc := fldN v 23 8 }

/-- Check a packet header (R101): the header and whether a bit was corrected, or nothing. -/
def checkHeader (b : List Byte) : Option (CsiHeader × Bool) :=
  let w := leAt b 0 4
  let d := w % 2 ^ 24 + 2 ^ 24 * fldN w 31 30
  let syn := headerEcc d ^^^ fldN w 29 24
  if syn = 0 then some (csiHeader d, false)
  else
    match (List.range 26).find? (fun i => headerEcc (2 ^ i) == syn) with
    | some i => some (csiHeader (d ^^^ 2 ^ i), true)
    | none => if (List.range 6).any (fun i => syn == 2 ^ i) then some (csiHeader d, true) else none

/-! ### Port counters and events -/

/-- The counters of a port page by number (Table 4.12). -/
def portCounter (n k : Nat) : Nat := if k < 11 then A.PORT_COUNT n k else A.PORT_COUNT_HI n (k - 11)

/-- Count a failure of a port and set its page's flag. -/
def portFail (s : State) (n k flag : Nat) : State :=
  let s := bumpSat s (portCounter n k) 1
  if flag = 0 then s else raise s (0x040 + n) flag

/-- Report a condition of a stream: source base + port, the stream in the detail (R109, R463). -/
def streamReport (s : State) (st base status : Nat) : State :=
  report s { source := base + st / 16, status := status, detail := st }

/-! ### Lines out -/

/-- The enabled slot of a pipe that takes a stream (R128). -/
def slotFor (s : State) (q st : Nat) : Option Nat :=
  (List.range 4).find? (fun i => rdB s (A.SL_CTL q i) 0 && rdF s (A.SL_CTL q i) 27 16 == st)

/-- Lines that wait at a pipe. -/
def pipeQueue (s : State) (q : Nat) : List Line := smGet (fun _ => []) s.pipeQ q

/-- Replace the lines that wait at a pipe. -/
def setPipeQueue (s : State) (q : Nat) (l : List Line) : State :=
  { s with pipeQ := smSet (fun _ => []) s.pipeQ q l }

/-- A slot of a pipe takes the lines of a stream: one that is enabled for it, or one whose open frame is of it (R128, R129). -/
def streamTaken (s : State) (q st : Nat) : Bool :=
  (slotFor s q st).isSome || (List.range 4).any (fun i =>
    let x := smGet (fun _ => ({} : PipeSlot)) s.slots (4 * q + i)
    x.busy && fldN (x.cfg.getD 0 0) 27 16 == st)

/-- Pixels that reach a pipe, kept for the input rate of the last 1 ms (PIPE_LOAD, Table 5.6). -/
def pipeArrives (s : State) (q n : Nat) : State :=
  let l := (smGet (fun _ => []) s.pipeIn q).filter (fun e => decide (s.ridge < e.1 + 1000000))
  { s with pipeIn := smSet (fun _ => []) s.pipeIn q (l ++ [(s.ridge, n)]) }

/-- A line reaches its pipe: a slot's queue holds two lines, and a line past them is replaced by a pad line (R131). -/
def pipeAccept (s : State) (q : Nat) (l : Line) : State :=
  let s := pipeArrives s q l.width
  let w := pipeQueue s q
  if !l.paced && streamTaken s q l.stream &&
      decide (2 ≤ w.countP (fun x => x.stream == l.stream && !x.paced)) then
    let s := raise (bumpSat s (A.PIPE_OVERRUN_COUNT q) 1) (0x080 + 2 * q) 1
    let s := report s { source := 0x060 + q, status := St.PIPE_OVERRUN, detail := l.stream }
    setPipeQueue s q (pipeQueue s q ++ [{ l with px := none, valid := 0, flags := l.flags ||| flPad, paced := true }])
  else setPipeQueue s q (w ++ [l])

/-- Emit a line of a stream routed to an image pipe. -/
def emitLine (s : State) (c : StreamCfg) (l : Line) : State :=
  if c.route = 1 then pipeAccept s (c.target % 16) l else s

/-- A line of the stream's frame. -/
def mkLine (st : Nat) (x : IngressStream) (idx flags : Nat) (px : Option (List Nat)) (valid : Nat) (paced : Bool) : Line :=
  { stream := st, frame := (x.win.getD (0, 0)).2, index := idx,
    flags := flags ||| (if x.settings.isNone then flUnknown else 0), settings := x.settings.getD 0, fmt := x.cfg.dt,
    width := x.cfg.width, lines := x.cfg.lines, pad := fldN x.cfg.pad 23 0, px := px, valid := valid,
    start := x.startAt, paced := paced }

/-- Emit a line, or hold it where it is the last of the frame (R108). -/
def emitOrHold (s : State) (st : Nat) (l : Line) : State :=
  let x := streamOf s st
  let s := setStream s st { x with
    flagged := x.flagged || decide (l.flags &&& 0x0F ≠ 0), next := l.index + 1 }
  if l.index + 1 = x.cfg.lines then setStream s st { streamOf s st with held := some l } else emitLine s x.cfg l

/-- Pad lines for the indices from the next expected one up to `upTo` (R108). -/
def emitPads (s : State) (st upTo extra : Nat) : State :=
  let n := (streamOf s st).next
  (List.range (upTo - n)).foldl
    (fun s i => emitOrHold s st (mkLine st (streamOf s st) (n + i) (flPad ||| extra) none 0 true)) s

/-- The device test line of a frame (R113). -/
def emitTestLine (s : State) (st : Nat) (flags stop : Nat) : State :=
  let x := streamOf s st
  if x.cfg.route = 1 then
    let frame := (x.win.getD (0, 0)).2
    let px := prbsWords (dtBits x.cfg.dt) x.cfg.width (prbsSeed (2 ^ 22 * st ||| frame % 2 ^ 22))
    let l := mkLine st x x.cfg.lines flags (some px) x.cfg.width true
    emitLine s x.cfg { l with test := true, stop := stop }
  else s

/-! ### Closing a frame -/

/-- ST_STATUS of a stream (Table 4.13). -/
def putStatus (s : State) (st : Nat) : State :=
  let x := streamOf s st
  let a := A.ST_STATUS (stPage st) (stEntry st)
  wr s a (b2n (x.phase == .opened) + 0x100 * (x.settings.getD (rdF s a 15 8))
    + 0x10000 * (x.csi.getD 0))

/-- The compressed payload of a frame becomes one sample of its decode queue (R110, R165). -/
def decodeSample (s : State) (st flags stop : Nat) : State :=
  let x := streamOf s st
  let q := x.cfg.target % 64
  let smp : Sample := { camera := true, pod := 0, pea := 0, form := 1, addr := 0, len := x.payload.length, frame := (x.win.getD (0, 0)).2,
                        deadline := 0, out := 0, tag := 0, cls := 0, seq := 0, last := true, payload := x.payload,
                        lost := decide (flags &&& (flPad ||| flVoid) ≠ 0), settings := x.settings.getD 0,
                        unknown := x.settings.isNone, endAt := stop }
  if x.cfg.route = 2 then dqCameraSample s q smp else s

/-- Close the open frame of a stream (R108): the remaining lines are padded, the held line released, the frame
counted and, where a line was lost, reported (R109). -/
def closeFrame (s : State) (st : Nat) (timeout : Bool) : State :=
  let x := streamOf s st
  if x.phase ≠ .opened then s
  else
    let short := if x.cfg.route = 1 then decide (x.next < x.cfg.lines) else timeout
    let cause := if x.cause ≠ 0 ∨ short = false then x.cause else if timeout then St.FE_TIMEOUT else St.LINE_MISSING
    let s := setStream s st { x with cause := cause }
    let s := if x.cfg.route = 1 then emitPads s st x.cfg.lines 0 else s
    let x := streamOf s st
    let stop := s.ridge
    let s := match x.held with
      | some l => emitLine s x.cfg { l with flags := l.flags ||| (if x.cut then flCut else 0), stop := stop }
      | none => s
    let lost := x.cfg.route == 2 && decide (cause ≠ 0)
    let flagged := x.flagged || x.cut || lost
    let s := setStream s st { x with phase := .closed, held := none }
    let s := decodeSample s st (if lost then flPad else 0) stop
    let j := stPage st
    let e := stEntry st
    let s := bump s (A.ST_FRAMES j e) 1
    let s := if flagged then raise (bumpSat s (A.ST_FLAGGED j e) 1) (0x060 + j) 1 else s
    let s := setRec s (0x060 + j) (1 + e) [lo32 x.startAt, hi32 x.startAt, lo32 stop, hi32 stop, (x.win.getD (0, 0)).2]
    let s := if cause ≠ 0 then streamReport s st 0x000 cause else s
    emitTestLine (putStatus s st) st 0 stop

/-- The void frame of a window without a frame (R108). -/
def voidFrame (s : State) (st : Nat) : State :=
  let x := streamOf s st
  let s := setStream s st { x with settings := none, startAt := s.ridge, next := 0, payload := [] }
  let s := if x.cfg.route = 1 then emitPads s st x.cfg.lines flVoid else s
  let x := streamOf s st
  let s := match x.held with
    | some l => emitLine s x.cfg { l with stop := s.ridge }
    | none => s
  let s := setStream s st { streamOf s st with phase := .closed, held := none, voided := true }
  let s := decodeSample s st flVoid s.ridge
  let j := stPage st
  let e := stEntry st
  let s := raise (bumpSat s (A.ST_MISSING j e) 1) (0x060 + j) 3
  let s := bumpSat s (A.ST_FLAGGED j e) 1
  let s := streamReport s st 0x000 St.FRAME_MISSING
  emitTestLine s st flVoid s.ridge

/-- TP_CAMERA_FAIL or FRAME_REPEAT of a stream (R111, R112). -/
def patternFail (s : State) (st status flag : Nat) : State :=
  let s := raise (bumpSat s (A.ST_TP_FAIL (stPage st) (stEntry st)) 1) (0x060 + stPage st) flag
  streamReport s st 0x020 status

/-! ### Windows and deadlines -/

/-- The window of a configuration at the present count: its start and frame. -/
def windowNow (s : State) (c : StreamCfg) : Option (Nat × Nat) :=
  (cycleAt s c.fg c.off s.ridge).map (fun w => (((w.1 : Int) + c.off).toNat, w.2))

/-- The stream's page lets it start frames (R68). -/
def streamRuns (s : State) (st : Nat) : Bool := unitOn s (0x060 + stPage st)

/-- No frame start or line by fs_deadline (R108). -/
def fsDeadline (s : State) (st : Nat) : State :=
  let x := streamOf s st
  match x.win with
  | some w =>
    if x.cfg.on && streamRuns s st && x.phase == .awaited && decide (w.1 + x.cfg.fsDl ≤ s.ridge) then voidFrame s st else s
  | none => s

/-- No frame end by fe_deadline (R108). -/
def feDeadline (s : State) (st : Nat) : State :=
  let x := streamOf s st
  match x.win with
  | some w => if x.cfg.on && x.phase == .opened && decide (w.1 + x.cfg.feDl ≤ s.ridge) then closeFrame s st true else s
  | none => s

/-- No camera pattern by tp_deadline (R111). -/
def tpDeadline (s : State) (st : Nat) : State :=
  let x := streamOf s st
  match x.win with
  | some w =>
    if x.cfg.on && x.cfg.tpCamera && !x.tpDone && decide (w.1 + x.cfg.tpDeadline ≤ s.ridge) then
      patternFail (setStream s st { x with tpDone := true }) st St.TP_CAMERA_FAIL 8
    else s
  | none => s

/-- The deadlines of a stream that have passed, in order. -/
def deadlines (s : State) (st : Nat) : State := tpDeadline (feDeadline (fsDeadline s st) st) st

/-- The configuration that a window takes: the live one; an entry whose values were changed beyond the limits after its enable
counts as not enabled (R104; log entry 153). -/
def windowCfg (s : State) (st : Nat) : StreamCfg :=
  let c := streamCfg (rd s) st
  if c.on && !streamCfgOk s c then { c with ctl := c.ctl - 1 } else c

/-- The window of frame `w` begins: the stream takes its live configuration (R106). -/
def takeWindow (s : State) (st : Nat) (w : Nat × Nat) : State :=
  let c := windowCfg s st
  let s := if c.on == (streamCfg (rd s) st).on then s else configRejected s (0x060 + stPage st)
  let x := streamOf s st
  setStream s st { x with win := some w, cfg := c, phase := .awaited, next := 0, held := none, settings := none,
                          sawImage := false, flagged := false, cause := 0, cut := false, extra := false,
                          tpDone := false, voided := false, payload := [] }

/-- At the start of a frame window the stream takes its live configuration. Inside W(k) the configuration of frame k stays in
force, and an application takes effect from W(k + 1) (R106). -/
def windowStart (s : State) (st : Nat) : State :=
  let c := streamCfg (rd s) st
  let x := streamOf s st
  if x.win.isSome ∧ windowNow s x.cfg = x.win then s
  else
    let s := deadlines s st
    match windowNow s c with
    | none =>
      if fgOn s c.fg || (streamOf s st).phase == .opened then s
      else setStream s st { streamOf s st with win := none, phase := .awaited }
    | some w =>
      if x.win = some w ∨ (c.fg = x.cfg.fg ∧ x.win.any (fun v => v.2 == w.2) = true) then s else takeWindow s st w

/-- Bring a stream up to the present count before what arrives is judged. -/
def catchUp (s : State) (st : Nat) : State := deadlines (windowStart s st) st

/-- An applied ST_CTL.enable = 0 closes an open frame at once (R106). -/
def streamDisable (s : State) (st : Nat) : State :=
  let x := streamOf s st
  if x.cfg.on && !(streamCfg (rd s) st).on then
    let s := closeFrame s st true
    setStream s st { streamOf s st with cfg := { x.cfg with ctl := x.cfg.ctl - 1 } }
  else s

/-! ### What a packet does to a frame (R105, R108, R110 to R112, R120) -/

/-- The frame number that follows a CSI-2 frame number (R112). -/
def nextCsi (n : Nat) : Nat := if n = 0xFFFF then 1 else n + 1

/-- Open the frame of the window with a CSI-2 frame number. -/
def openFrame (s : State) (st : Nat) : State :=
  putStatus (setStream s st { streamOf s st with phase := .opened, startAt := s.ridge, next := 0 }) st

/-- A frame-start packet (R105, R108, R112). One that comes after an image line has opened the frame is extra (log entry 76). -/
def frameStart (s : State) (st n : Nat) : State :=
  let x := streamOf s st
  let prev := x.csi
  let s := putStatus (setStream s st { x with csi := some n }) st
  match x.win with
  | none => s
  | some _ =>
    let bad := n == 0 || (match prev with | some p => n != nextCsi p | none => false)
    let s := if x.cfg.tpCamera && bad then patternFail s st St.FRAME_REPEAT 0x10 else s
    match x.phase with
    | .awaited => openFrame s st
    | .opened | .closed =>
      let s := setStream s st { streamOf s st with extra := true }
      if x.voided then s
      else streamReport (raise s (0x060 + stPage st) 4) st 0x000 St.FRAME_EXTRA

/-- A frame-end packet (R108). -/
def frameEnd (s : State) (st : Nat) : State :=
  let x := streamOf s st
  if x.extra then setStream s st { x with extra := false }
  else closeFrame s st false

/-- The configuration that judges a stream's packets: that of its window, or the live one without a window. While the stream's
page is off, or its entry is no longer enabled, it takes nothing but what belongs to an open frame (R68, R106). -/
def judging (s : State) (st : Nat) : StreamCfg :=
  let x := streamOf s st
  let live := streamCfg (rd s) st
  let c := if x.win.isSome then (if live.on then x.cfg else { x.cfg with ctl := x.cfg.ctl - x.cfg.ctl % 2 }) else live
  if streamRuns s st || x.phase == .opened then c else { c with ctl := c.ctl - c.ctl % 2 }

/-- A data type is supported and carried by the stream (R100). A stream with ST_EMB.present 0 is not configured to carry embedded
data (log entry 154). -/
def dtPermitted (c : StreamCfg) (dt : Nat) : Bool :=
  decide (dt ≤ 3) || (dt == 0x12 && bitN c.emb 16) || (dt == c.dt && (isImageDt dt || isUserDt dt)) ||
    (c.tpCamera && dt == fldN c.tp 5 0 && isUserDt dt)

/-- An embedded-data packet: the first line carries the applied settings id (R120); each is passed on to conditioning with its
frame (Tables 4.3 and 4.5). -/
def embeddedLine (s : State) (st idx : Nat) (p : List Byte) : State :=
  let x := streamOf s st
  let c := judging s st
  let off := fldN c.emb 15 0
  let id := leAt p off 1
  let s := if bitN c.emb 16 && idx == 0 && decide (off < p.length) then
      wrF (wrF s (A.ST_STATUS (stPage st) (stEntry st)) 15 8 id) (A.CAM_STATUS (st / 16)) 23 16 id else s
  let s := if x.phase = .opened ∧ x.extra = false ∧ bitN c.emb 16 = true ∧ idx = 0 ∧ x.sawImage = false
      ∧ off < p.length ∧ id ≠ 0 then
    setStream s st { x with settings := some id }
  else s
  if x.phase = .opened ∧ x.extra = false then
    emitLine s x.cfg { mkLine st (streamOf s st) idx 0 none 0 true with emb := some p }
  else s

/-- An image line of an open frame, in index order (R102, R108). -/
def takeLine (s : State) (st idx : Nat) (p : List Byte) : State :=
  let x := streamOf s st
  if x.cfg.lines ≤ idx then setStream s st { x with cut := true }
  else if idx < x.next then s
  else
    let cause := if x.cause = 0 ∧ x.next < idx then St.LINE_MISSING else x.cause
    let s := emitPads (setStream s st { x with cause := cause }) st idx 0
    let mx := wcMax x.cfg
    let codes := (unpack x.cfg.dt (p.take mx)).take x.cfg.width
    let fl := (if mx < p.length then flLong else 0) ||| (if p.length < mx then flShort else 0)
    let px := codes ++ List.replicate (x.cfg.width - codes.length) (fldN x.cfg.pad 23 0)
    emitOrHold s st (mkLine st (streamOf s st) idx fl (some px) codes.length false)

/-- An image or compressed packet with its whole payload (R108, R110). -/
def imagePacket (s : State) (st idx : Nat) (p : List Byte) : State :=
  let x := streamOf s st
  match x.win with
  | none => bumpSat s (A.ST_UNFRAMED (stPage st) (stEntry st)) 1
  | some _ =>
    if x.extra then s
    else
      let s := if x.phase = .awaited then
          openFrame (setStream s st { x with csi := some (nextCsi (x.csi.getD 0)) }) st else s
      let x := streamOf s st
      if x.phase ≠ .opened then s
      else
        let s := setStream s st { x with sawImage := true }
        if x.cfg.route = 2 then setStream s st { streamOf s st with payload := x.payload ++ p } else takeLine s st idx p

/-- A line of a stream was lost (R102, R109). -/
def lineLost (s : State) (st status : Nat) : State :=
  let x := streamOf s st
  if x.phase = .opened ∧ x.extra = false ∧ x.cause = 0 then setStream s st { x with cause := status } else s

/-- The camera's test pattern (R111). -/
def patternPacket (s : State) (st : Nat) (p : List Byte) : State :=
  let x := streamOf s st
  if x.win.isSome && x.phase == .closed && !x.tpDone then
    let s := setStream s st { x with tpDone := true }
    if p = cameraPattern x.cfg (x.csi.getD 0) then s else patternFail s st St.TP_CAMERA_FAIL 8
  else s

/-! ### Packets (R99, R101, R102) -/

/-- The assembled packet's last segment has arrived: word count and checksum, then the frame rules. -/
def packetEnd (s : State) (port : Nat) (asm : PacketAsm) : State :=
  if asm.keep = false then s
  else
    match checkHeader asm.data with
    | none => s
    | some (h, _) =>
      let st := asm.stream
      if h.dt ≤ 3 then
        if h.dt = 0 then frameStart s st h.wc else if h.dt = 1 then frameEnd s st else s
      else
        let body := asm.data.drop 4
        if body.length < 2 then lineLost (portFail s port 13 0x10) st St.CSI2_WC_TRUNCATED
        else
          let p := body.length - 2
          let s := if p < h.wc then portFail s port 13 0x10 else if h.wc < p then portFail s port 14 0x10 else s
          let n := min h.wc p
          let payload := body.take n
          if crc16 payload ≠ leAt body n 2 then lineLost (portFail s port 15 0x10) st St.CSI2_CRC_ERROR
          else
            let c := judging s st
            if c.tpCamera && h.dt == fldN c.tp 5 0 then patternPacket s st payload
            else if h.dt = 0x12 then embeddedLine s st asm.lineIndex payload
            else imagePacket s st asm.lineIndex payload

/-- The first segment of a packet: header code, stream, data type (steps 10 to 12 of Table 4.4). The line that an uncorrectable
header loses is charged by the raw VC bits (log entry 166); a segment shorter than the header is judged with zeros for what it
lacks, and bytes beyond a short packet are not looked at (log entry 167). -/
def packetStart (s : State) (port : Nat) (data : List Byte) (line : Nat) : PacketAsm × State :=
  let drop (st : Nat) : PacketAsm := { len := data.length, keep := false, data := [], lineIndex := line, stream := st }
  match checkHeader data with
  | none =>
    let st := 16 * port + (csiHeader (leAt data 0 3 + 2 ^ 24 * fldN (leAt data 3 1) 7 6)).vc
    (drop st, lineLost (portFail s port 9 0x10) st St.CSI2_ECC_UNCORRECTABLE)
  | some (h, fixed) =>
    let st := 16 * port + h.vc
    let s := catchUp (if fixed then bumpSat s (portCounter port 10) 1 else s) st
    let c := judging s st
    if c.on = false then (drop st, portFail s port 11 0x10)
    else if dtPermitted c h.dt = false then (drop st, portFail s port 12 0x10)
    else ({ len := data.length, keep := true, data := data, lineIndex := line, stream := st }, s)

/-- Lose the packet being assembled on a port (R99). -/
def loseSegment (s : State) (port : Nat) : State :=
  let x := sensorOf s port
  let s := portFail s port 8 0x10
  let s := match x.asm with
    | some a => lineLost s a.stream St.CSI2_SEGMENT_LOST
    | none => s
  setSensor s port { sensorOf s port with asm := none }

/-- A CSI-2 segment after step 8 (R99). -/
def csiSegment (s : State) (port : Nat) (first last : Bool) (off line : Nat) (data : List Byte) : State :=
  let x := sensorOf s port
  let finish (s : State) (a : PacketAsm) : State :=
    if last then packetEnd (setSensor s port { sensorOf s port with asm := none }) port a
    else setSensor s port { sensorOf s port with asm := some a }
  if first then
    let s := if x.asm.isSome then loseSegment s port else if off ≠ 0 then portFail s port 8 0x10 else s
    if off ≠ 0 then s
    else
      let r := packetStart s port data line
      finish r.2 r.1
  else
    match x.asm with
    | some a =>
      if off ≠ a.len then loseSegment s port
      else finish s { a with len := a.len + data.length, data := if a.keep then a.data ++ data else [] }
    | none => portFail s port 8 0x10

/-! ### Points (R121 to R123) -/

/-- A point packet's fields are in range (R122). -/
def pointsValid (b : List Byte) : Bool :=
  let n := leNat (((b.drop 8).take 2).reverse)
  decide (16 ≤ b.length ∧ 1 ≤ n ∧ n ≤ 91 ∧ 16 + 16 * n ≤ b.length) && leAt b 10 1 == 1 && leAt b 11 1 == 0 &&
    (List.range n).all (fun i => decide (leAt b (29 + 16 * i) 1 ≤ 2))

/-- A big-endian number of a payload (R96). -/
def beAt (b : List Byte) (off n : Nat) : Nat := leNat (((b.drop off).take n).reverse)

/-- Put a point into the buffer of point preparation, or lose it to a full one (R151, R156). -/
def bufferPoint (s : State) (p : Point) : State :=
  let cap := 65536 * rdF s A.PP_BUF_SIZE 6 0
  if cap ≤ s.pp.points.length then
    let s := if s.pp.overflow then s else raise s 0x0A0 2
    { s with pp := { s.pp with overflow := true, lost := s.pp.lost ++ [(p.port, p.stamp)] } }
  else
    let d := drawFree s
    let s := (memWrite d.2 .pointPrep (rdWide s A.PP_BUF_BASE_LO + 16 * s.pp.points.length) (leBytes 16 d.1)).2
    { s with pp := { s.pp with points := s.pp.points ++ [p] } }

/-- The window of point preparation for cycle count `l`: start and end (R151). -/
def ppWindow (s : State) (l : Nat) : Int × Int :=
  let a := (l : Int) + sgn 32 (rd s A.PP_WIN_START)
  (a, a + 1000 * (rdF s A.PP_WIN_LEN 17 0 : Int))

/-- A point's stamp lies before the end of the last window whose formation has started. -/
def pointPast (s : State) (p : Point) : Bool :=
  match s.pp.last with
  | some l => decide ((p.stamp : Int) < (ppWindow s l).2)
  | none => false

/-- A point belongs to a window whose formation has started, so it is too late (R151). -/
def pointLate (s : State) (p : Point) : Bool :=
  match s.pp.last with
  | some l =>
    let w := ppWindow s l
    pointPast s p && decide (((p.stamp : Int) - w.1) % (fgPeriod s (rdF s A.PP_CTL 5 3) : Int) < w.2 - w.1)
  | none => false

/-- A point packet after step 8. -/
def pointPacket (s : State) (port : Nat) (b : List Byte) : State :=
  if pointsValid b = false then s
  else
    let epoch := rdWide s A.RIDGE_EPOCH_LO
    let base : Int := sgn 64 (beAt b 0 8 + 2 ^ 64 - epoch % 2 ^ 64)
    let a : Int := s.ridge
    if base < a - 200000000 ∨ a + 1000000 < base then s
    else
      let g := rdF s A.PP_CTL 5 3
      match if rdB s A.PP_SOURCES port then cycleAt s g 0 s.ridge else none with
      | some (_, k) =>
        if (rdB s A.PP_CTL 0 && unitOn s 0x0A0) = false then s
        else (List.range (beAt b 8 2)).foldl (fun s i =>
          let o := 16 + 16 * i
          let stamp := base + 1000 * (beAt b (o + 14) 2 : Int)
          let p : Point := { port := port, x := sgn 32 (beAt b o 4), y := sgn 32 (beAt b (o + 4) 4), z := sgn 32 (beAt b (o + 8) 4),
                             intensity := leAt b (o + 12) 1, ret := leAt b (o + 13) 1, stamp := stamp.toNat, frame := k,
                             idx := i }
          if pointLate s p then
            raise { bumpSat s A.PP_LATE 1 with pp := { s.pp with late := s.pp.late + 1 } } 0x0A0 0x10
          else if pointPast s p then s
          else bufferPoint s p) s
      | none => bumpSat s A.PP_UNFRAMED 1

/-! ### Received frames -/

/-- The port's address (R93). -/
def portAddr (s : State) (n : Nat) : Nat := 0x025A560000 * 2 ^ 8 + 2 ^ 8 * ringId s + n

/-- A port's key agreement. -/
def secOf (s : State) (n : Nat) : PortSec := smGet (fun _ => ({} : PortSec)) s.portSec n

/-- Replace a port's key agreement. -/
def setSec (s : State) (n : Nat) (x : PortSec) : State :=
  { s with portSec := smSet (fun _ => ({} : PortSec)) s.portSec n x }

/-- Check a protected frame against the associations of a port, replay window zero (R95, R503): the state with the
packet number taken, or nothing. -/
def macsecTake (s : State) (n : Nat) (t : SecTag) : Option State :=
  let x := secOf s n
  if t.icvOk = false then none
  else
    match x.sa with
    | some a =>
      if t.an.toNat = a.an ∧ a.nextPn ≤ t.pn.toNat then
        some (setSec s n { x with sa := some { a with nextPn := t.pn.toNat + 1 }, old := none })
      else
        match x.old with
        | some (o, till) =>
          if t.an.toNat = o.an ∧ o.nextPn ≤ t.pn.toNat ∧ s.ridge < till then
            some (setSec s n { x with old := some ({ o with nextPn := t.pn.toNat + 1 }, till) })
          else none
        | none => none
    | none => none

/-- Step 3 of Table 4.4. -/
def macsecCheck (s : State) (n cfg : Nat) (f : EthFrame) : Option State :=
  match f.sec with
  | some t => if bitN cfg 4 then macsecTake s n t else none
  | none => if bitN cfg 4 && bitN cfg 5 && f.etherType.toNat != 0x888E then none else some s

/-- Step 5 of Table 4.4. Of the fields that a subtype does not use, the flags are checked to be zero and the numbers are not
(R96; log entry 168). -/
def tsfHeaderOk (b : List Byte) : Bool :=
  let sub := leAt b 0 1 % 16
  decide (16 ≤ b.length) && leAt b 0 1 / 16 == 1 && (sub == 1 || sub == 2 || sub == 4) && fldN (leAt b 1 1) 7 2 == 0 &&
    (sub == 1 || leAt b 1 1 == 0) && leAt b 14 2 == 0

/-- A TSF frame from step 9 of Table 4.4 on (R358 enters here too). -/
def tsfDeliver (s : State) (n : Nat) (b : List Byte) : State :=
  let sub := leAt b 0 1 % 16
  let payload := (b.drop 16).take (beAt b 2 2)
  if sub = 1 then
    csiSegment s n (bitN (leAt b 1 1) 0) (bitN (leAt b 1 1) 1) (beAt b 8 4) (beAt b 12 2) payload
  else if sub = 2 then pointPacket s n payload
  else
    let x := sensorOf s n
    setSensor s n { x with responses := x.responses ++ [(beAt payload 0 4, leAt payload 4 1)] }

/-- A TSF frame at step 5 of Table 4.4. -/
def tsfReceive (s : State) (n : Nat) (b : List Byte) (rrLost : Bool) : State :=
  let len := beAt b 2 2
  let x := sensorOf s n
  let seq := beAt b 4 4
  let d : Int := match x.lastSeq with | some p => sgn 32 (seq + 2 ^ 32 - p) | none => 1
  if tsfHeaderOk b = false then portFail s n 4 8
  else if len = 0 ∨ len = 0xFFFF then portFail s n 5 8
  else if 1484 < len ∨ b.length < 16 + len then portFail s n 6 8
  else if d ≤ 0 then portFail s n 7 8
  else
    let s := if 1 < d then bumpSat s (A.PORT_SEQ_GAP n) (d - 1).toNat else s
    let s := setSensor s n { x with lastSeq := some seq }
    if replaying s then bumpSat s A.RR_LIVE_DISCARDED 1
    else tsfDeliver (record s rrLost 1 n 0 (b.take (16 + len))) n b

/-- A frame arrives at a sensor port (Table 4.4). A port that does not run MACsec handles no SecTAG: the EtherType that carries it
is none of Table 4.1. -/
def frameReceive (s : State) (n : Nat) (f : EthFrame) (rrLost : Bool) : State :=
  if rdB s (A.PORT_STATUS n) 0 = false ∨ unitOn s (0x040 + n) = false then s
  else if f.fcsOk = false ∨ f.data.length < 46 ∨ 1500 < f.data.length then portFail s n 0 2
  else if f.dest.toNat ≠ portAddr s n ∧ f.dest.toNat ≠ 0x0180C200000E then portFail s n 1 0
  else if f.sec.isSome = true ∧ bitN (sensorOf s n).cfg 4 = false then portFail s n 3 0
  else
    match macsecCheck s n (sensorOf s n).cfg f with
    | none => portFail s n 2 4
    | some s =>
      if f.etherType.toNat = 0x88B5 then tsfReceive s n f.data rrLost
      else if f.etherType.toNat = 0x88F7 ∨ f.etherType.toNat = 0x888E then s
      else portFail s n 3 0

/-! ### Commands -/

/-- TSF_FRAME_RECEIVE: a frame arrives; `rrLost` tells that the recorder is too slow for it (R356). -/
def execTsfFrameReceive (port : Fin 32) (frame : EthFrame) (rrLost : Bool) (s : State) :
    Host.Outcome State Fault Refusal :=
  whenOn (fun s => frameReceive s port.val frame rrLost) s

/-- STREAM_WINDOW_START: a frame window of the stream begins (R106). -/
def execStreamWindowStart (port : Fin 32) (vc : Fin 16) (s : State) : Host.Outcome State Fault Refusal :=
  whenOn (fun s => windowStart s (16 * port.val + vc.val)) s

/-- FS_DEADLINE: fs_deadline of the stream's window is reached (R108). -/
def execFsDeadline (port : Fin 32) (vc : Fin 16) (s : State) : Host.Outcome State Fault Refusal :=
  whenOn (fun s => fsDeadline s (16 * port.val + vc.val)) s

/-- FE_DEADLINE: fe_deadline of the stream's window is reached (R108). -/
def execFeDeadline (port : Fin 32) (vc : Fin 16) (s : State) : Host.Outcome State Fault Refusal :=
  whenOn (fun s => feDeadline s (16 * port.val + vc.val)) s

/-- TP_DEADLINE: tp_deadline of the stream's window is reached (R111). -/
def execTpDeadline (port : Fin 32) (vc : Fin 16) (s : State) : Host.Outcome State Fault Refusal :=
  whenOn (fun s => tpDeadline s (16 * port.val + vc.val)) s

/-- A write of ST_CTL takes effect on the shadow copy, and where the entry cannot be enabled its enable is
ignored (R10, R104). -/
def applyStCtl (s : State) (st v : Nat) : State :=
  let a := A.ST_CTL (stPage st) (stEntry st)
  if bitN v 0 && !streamCfgOk s { streamCfg (rdShadow s) st with ctl := v } then
    applyPlain (configRejected s (0x060 + stPage st)) a (setFldN v 0 0 (fldN (rdShadow s a) 0 0))
  else applyPlain s a v

/-- STREAM_ENABLE: a write of ST_CTL with enable = 1 (R104, R107). -/
def execStreamEnable (agent : Agent) (port : Fin 32) (vc : Fin 16) (v : Word) (s : State) :
    Host.Outcome State Fault Refusal :=
  whenOn (fun s =>
    let st := 16 * port.val + vc.val
    namedWrite s agent (A.ST_CTL (stPage st) (stEntry st)) (v.toNat ||| 1) (fun s => applyStCtl s st (v.toNat ||| 1))) s

end Sys2Proof.Machine
end

