-- ==== Sys2Proof/Machine/Camera.lean ====
section
/-!
DEFINITION. Camera control and settings, 802.1AS and the state of the sensor links (R94, R114 to R118, R125).
-/

namespace Sys2Proof.Machine

/-- CAM_FREEZE: camera control is frozen (R118). -/
def camFrozen (s : State) : Bool := rdB s A.CAM_FREEZE 0

/-- Settings outstanding on a port at the present count (R115). -/
def camOutstanding (s : State) (n : Nat) : List (Nat × Nat) :=
  (sensorOf s n).outstanding.filter (fun o => decide (s.ridge < o.2))

/-- Drop settings whose apply_ridge has passed, and show how many are left (R115). -/
def camExpire (s : State) (n : Nat) : State :=
  let l := camOutstanding s n
  wrF (setSensor s n { sensorOf s n with outstanding := l }) (A.CAM_STATUS n) 26 24 l.length

/-- Big-endian bytes. -/
def beBytes (n v : Nat) : List Byte := (leBytes n v).reverse

/-- A frame leaves a sensor port, protected under its association where the port runs MACsec; without an association, a port that
requires protection sends nothing (R95; log entry 155). -/
def portSend (s : State) (n : Nat) (f : Option (Nat × Nat) → PortOut) : State :=
  let cfg := (sensorOf s n).cfg
  let x := secOf s n
  if bitN cfg 4 = false then { s with portOut := s.portOut ++ [f none] }
  else
    match x.sa with
    | some a => { setSec s n { x with txPn := x.txPn + 1 } with portOut := s.portOut ++ [f (some (a.an, x.txPn))] }
    | none => if bitN cfg 5 then s else { s with portOut := s.portOut ++ [f none] }

/-- Send a control message on a port (Tables 4.2 and 4.8). -/
def camSend (s : State) (n id op sid applyAt : Nat) (payload : List Byte) : State :=
  let x := sensorOf s n
  let time := if op = 1 then (applyAt + rdWide s A.RIDGE_EPOCH_LO) % 2 ^ 64 else 0
  let body := beBytes 4 id ++ leBytes 1 op ++ leBytes 1 sid ++ beBytes 2 payload.length ++ beBytes 8 time ++ payload
  let hdr := leBytes 1 0x13 ++ zeros 1 ++ beBytes 2 body.length ++ beBytes 4 x.txSeq ++ zeros 8
  let s := setSensor s n { x with txSeq := (x.txSeq + 1) % 2 ^ 32 }
  bump (portSend s n (fun sec => .tsf n (portAddr s n) sec (hdr ++ body))) (A.CAM_MSG_COUNT n) 1

/-- A port's outcome for a pod; the pod completes when every port has one (R117). -/
def camOutcome (s : State) (n no outcome : Nat) : State :=
  let s := wrF s (A.CAM_STATUS n) 31 28 outcome
  let s := if outcome = 1 ∨ outcome = 2 then
      raise (bumpSat s (A.CAM_FAIL_COUNT n) 1) 0x070 (if outcome = 1 then 2 else 4) else s
  let mark (p : CamPod) : CamPod :=
    if p.no = no then { p with ports := p.ports.map (fun e => if e.1 = n then (n, some outcome) else e) } else p
  let pods := s.camPods.map mark
  match pods.find? (fun p => p.no == no) with
  | some p =>
    if p.ports.all (fun e => e.2.isSome) then
      let st := if p.ports.all (fun e => e.2 == some 0) then 0
        else if p.ports.any (fun e => e.2 == some 1) then St.CAM_NACK else St.CAM_NO_ACK
      podComplete { s with camPods := pods.filter (fun p => p.no != no) } no st
    else { s with camPods := pods }
  | none => { s with camPods := pods }

/-- apply_ridge of a port for target frame `t` (R115); nothing without a cycle. -/
def applyRidge (s : State) (n t : Nat) : Option Int :=
  (launchOf s (rdF s (A.CAM_FG n) 2 0) t).map (fun l => l + sgn 32 (rd s (A.CAM_APPLY_OFFSET n)))

/-- How far frame `t` lies ahead of a port's current frame. -/
def frameAhead (s : State) (n t : Nat) : Int :=
  match curCycle s (rdF s (A.CAM_FG n) 2 0) with
  | some c => sgn 32 (t + 2 ^ 32 - c.2)
  | none => 0

/-- The status with which CAM_SETTINGS is refused; 0 where it is accepted (R114, R115, R118). -/
def camStatus (s : State) (p : RxPod) : Nat :=
  let b := p.body
  let mask := leAt b 0 4
  let len := leAt b 6 2
  let t := p.hdr.frame
  let ports := portsOf mask
  if camFrozen s then St.SETTINGS_FROZEN
  else if mask = 0 ∨ leAt b 4 1 = 0 ∨ leAt b 5 1 ≠ 0 ∨ len = 0 ∨ 1468 < len ∨ leAt b 8 8 ≠ 0 ∨ b.length < 16 + len then
    St.SETTINGS_ID_INVALID
  else if ports.any (fun n => !(rdB s (A.PORT_STATUS n) 0 && bitN (sensorOf s n).cfg 8 && unitOn s (0x040 + n))) then St.CAM_PORT_DOWN
  else if ports.any (fun n => (applyRidge s n t).isNone) then St.SETTINGS_NO_CYCLE
  else if ports.any (fun n => decide ((applyRidge s n t).getD 0 < s.ridge + 1000 * (rdF s (A.CAM_LEAD n) 19 0 : Int))) then
    St.SETTINGS_LATE
  else if ports.any (fun n => decide (255 < frameAhead s n t)) then St.SETTINGS_TARGET_FAR
  else if ports.any (fun n => (camOutstanding s n).any (fun o => o.1 == t)) then St.SETTINGS_DUPLICATE_TARGET
  else if ports.any (fun n => decide (4 ≤ (camOutstanding s n).length)) then St.SETTINGS_QUEUE_FULL
  else 0

/-- Send accepted settings to one port (R116). -/
def camAccept (p : RxPod) (s : State) (n : Nat) : State :=
  let sid := leAt p.body 4 1
  let payload := (p.body.drop 16).take (leAt p.body 6 2)
  let at_ := ((applyRidge s n p.hdr.frame).getD 0).toNat
  let s := camExpire s n
  let x := sensorOf s n
  let s := setSensor s n { x with
    nextMsg := (x.nextMsg + 1) % 2 ^ 32, outstanding := x.outstanding ++ [(p.hdr.frame, at_)],
    msgs := x.msgs ++ [{ id := x.nextMsg, pod := p.no, settings := sid, applyAt := at_, payload := payload, sentAt := s.ridge }] }
  let s := wrF (wrF s (A.CAM_STATUS n) 7 0 sid) (A.CAM_STATUS n) 26 24 (sensorOf s n).outstanding.length
  camSend s n x.nextMsg 1 sid at_ payload

/-- CAM_SETTINGS runs (R114 to R116). -/
def camSettings (s : State) (p : RxPod) : State :=
  let st := camStatus s p
  if st ≠ 0 then podComplete (raise s 0x070 1) p.no st
  else
    let ports := portsOf (leAt p.body 0 4)
    let s := { s with camPods := s.camPods ++ [{ no := p.no, ports := ports.map (fun n => (n, none)) }] }
    ports.foldl (camAccept p) s

/-- Camera control freezes as safe state is entered (R118): every port with outstanding settings takes the outcome 3, those that
have answered included (log entry 170). -/
def camFreeze (s : State) : State :=
  let s := raise (wr s A.CAM_FREEZE 1) 0x070 8
  let s := (List.range 32).foldl (fun s n =>
    if (camOutstanding s n).isEmpty then s
    else
      let x := sensorOf s n
      let s := setSensor s n { x with msgs := [], nextMsg := (x.nextMsg + 1) % 2 ^ 32 }
      camSend (wrF s (A.CAM_STATUS n) 31 28 3) n x.nextMsg 2 0 0 []) s
  let pods := s.camPods
  pods.foldl (fun s p => podComplete s p.no St.SETTINGS_FROZEN) { s with camPods := [] }

/-- Camera control resumes (R471). -/
def camResume (s : State) : State := wr s A.CAM_FREEZE 0

/-- The oldest control response of a port is matched to its message (R117); one with a result above 0x02 is ignored
(log entry 169). -/
def controlResponse (s : State) (n : Nat) : State :=
  let x := sensorOf s n
  match x.responses with
  | [] => s
  | (id, res) :: t =>
    let s := setSensor s n { x with responses := t }
    match x.msgs.find? (fun m => m.id == id) with
    | none => s
    | some m =>
      if 2 < res then s
      else
        let s := setSensor s n { sensorOf s n with msgs := x.msgs.filter (fun k => k.id != id) }
        let s := if res = 0 then wrF s (A.CAM_STATUS n) 15 8 m.settings else s
        camOutcome s n m.pod (if res = 0 then 0 else 1)

/-- A message of a port has had no response within the timeout (R117). -/
def ackTimeout (s : State) (n : Nat) : State :=
  let x := sensorOf s n
  let limit := 1000 * rdF s A.CAM_ACK_TIMEOUT 15 0
  match x.msgs.find? (fun m => decide (m.sentAt + limit ≤ s.ridge)) with
  | none => s
  | some m =>
    if m.resends < rdF s A.CAM_ACK_TIMEOUT 19 16 ∧ s.ridge ≤ m.applyAt then
      let s := setSensor s n { x with msgs := x.msgs.map (fun k =>
        if k.id = m.id then { k with sentAt := s.ridge, resends := k.resends + 1 } else k) }
      camSend s n m.id 1 m.settings m.applyAt m.payload
    else camOutcome (setSensor s n { x with msgs := x.msgs.filter (fun k => k.id != m.id) }) n m.pod 2

/-! ### The link (R125, R393, R394) -/

/-- A sensor port's link goes down; the spec gives the plain LINK_DOWN no code, so that report's status is a free value. -/
def sensorDown (s : State) (n : Nat) (cause : LinkCause) : State :=
  if rdB s (A.PORT_STATUS n) 0 = false then s
  else
    let s := setSensor s n { sensorOf s n with asm := none }
    let s := setSec s n { secOf s n with sa := none, old := none }
    let s := raise (wr s (A.PORT_STATUS n) (4 * b2n (cause == .openFibre))) (0x040 + n) 1
    match cause with
    | .openFibre => report s { source := 0x040 + n, status := St.OPEN_FIBRE, detail := n }
    | .laserFault => report s { source := 0x040 + n, status := St.LASER_FAULT, detail := n }
    | .other => report (drawFree s).2 { source := 0x040 + n, status := (drawFree s).1 % 65536, detail := n }

/-! ### Commands -/

/-- CAM_SETTINGS: the ingress section takes the started control pod `no`, while camera control runs (R68). -/
def execCamSettings (no : Nat) (s : State) : Host.Outcome State Fault Refusal :=
  whenOn (fun s =>
    match if unitOn s 0x070 then takePod s no 4 (isControl 0x02 0x0001) else none with
    | some (p, s) => camSettings s p
    | none => s) s

/-- CONTROL_RESPONSE: the oldest response of the port is matched. -/
def execControlResponse (port : Fin 32) (s : State) : Host.Outcome State Fault Refusal :=
  whenOn (fun s => controlResponse s port.val) s

/-- CAM_ACK_TIMEOUT: a message of the port has waited for the timeout. -/
def execCamAckTimeout (port : Fin 32) (s : State) : Host.Outcome State Fault Refusal :=
  whenOn (fun s => ackTimeout s port.val) s

/-- SETTINGS_APPLY_RIDGE: apply_ridge of settings of the port has passed. -/
def execSettingsApplyRidge (port : Fin 32) (s : State) : Host.Outcome State Fault Refusal :=
  whenOn (fun s => camExpire s port.val) s

/-- GPTP_SYNC_SEND: a Sync of the port is due (R94). -/
def execGptpSyncSend (port : Fin 32) (s : State) : Host.Outcome State Fault Refusal :=
  whenOn (fun s =>
    let n := port.val
    let x := sensorOf s n
    let log := sgn 8 (rdF s (A.PORT_GPTP n) 7 0)
    if rdB s (A.PORT_STATUS n) 0 && unitOn s (0x040 + n) && rdB s (A.PORT_GPTP n) 8 && decide (x.syncDue ≤ s.ridge) then
      let time := (s.ridge + rdWide s A.RIDGE_EPOCH_LO) % 2 ^ 64
      let s := setSensor s n { x with syncDue := s.ridge + 1000000000 / 2 ^ (-log).toNat }
      portSend s n (fun sec => .sync n sec time)
    else s) s

/-- GPTP_MESSAGE_RECEIVE: an 802.1AS message of the port; a completed exchange gives the peer delay (R94). -/
def execGptpMessageReceive (port : Fin 32) (msg : GptpMsg) (s : State) : Host.Outcome State Fault Refusal :=
  whenOn (fun s =>
    let n := port.val
    if rdB s (A.PORT_STATUS n) 0 && unitOn s (0x040 + n) && rdB s (A.PORT_GPTP n) 8 then
      match msg with
      | .pdelayReq t2 =>
        portSend s n (fun sec => .pdelay n sec t2.toNat ((s.ridge + rdWide s A.RIDGE_EPOCH_LO) % 2 ^ 64))
      | .pdelayResp t1 t2 t3 t4 =>
        wr s (A.PORT_PDELAY n) (((sgn 64 (t4 - t1).toNat - sgn 64 (t3 - t2).toNat) / 2) % 2 ^ 32).toNat
      | .other => s
    else s) s

/-- SENSOR_LINK_UP: the port's link comes up and PORT_CFG applies (R98, R125). -/
def execSensorLinkUp (port : Fin 32) (s : State) : Host.Outcome State Fault Refusal :=
  whenOn (fun s =>
    let n := port.val
    if rdB s (A.PORT_STATUS n) 0 || !laneFit s n then s
    else
      let cfg := rd s (A.PORT_CFG n)
      let s := setSensor s n { sensorOf s n with cfg := cfg, lastSeq := none, asm := none, syncDue := s.ridge }
      let s := wr s (A.PORT_STATUS n) (1 + 0x10 * fldN cfg 1 0)
      levelClear s (0x040 + n)) s

/-- SENSOR_LINK_DOWN: the port's link goes down (R125, R393, R394). -/
def execSensorLinkDown (port : Fin 32) (cause : LinkCause) (s : State) : Host.Outcome State Fault Refusal :=
  whenOn (fun s => sensorDown s port.val cause) s

end Sys2Proof.Machine
end

