-- ==== Sys2Proof/Machine/Safe.lean ====
section
/-!
DEFINITION. The lanterns (R420 to R422) and safe state: what its entry and its exit do (R469 to R472).
-/

namespace Sys2Proof.Machine

/-! ### The lantern word (R420, Table 14.7) -/

/-- One bit of CRC-8 with polynomial x⁸ + x² + x + 1, most significant bit first. -/
def crc8Bit (c : Nat) (b : Bool) : Nat :=
  let top := bitN c 7 != b
  let c := (2 * c) % 256
  if top then c ^^^ 0x07 else c

/-- CRC-8 over the low `n` bits of `v`, initial value zero. -/
def crc8 (n v : Nat) : Nat := (List.range n).foldl (fun c i => crc8Bit c (bitN v (n - 1 - i))) 0

/-- LANTERN_CFG.frame_group. -/
def lanternFg (s : State) : Nat := rdF s A.LANTERN_CFG 2 0

/-- after_test is set in a word that begins now (R422). -/
def afterTest (s : State) : Bool :=
  decide (0 < s.lantern.afterLaunches) ||
    (match s.lantern.afterUntil with | some t => decide (s.ridge < t) | none => false)

/-- The epoch of a word: of the current cycle once the group has launched since its enable; none in an idle word. -/
def lanternEpoch (s : State) : Option Nat :=
  let g := lanternFg s
  if fgOn s g && (fgOf s g).launched then (curCycle s g).map (fun c => c.2 % 256) else none

/-- The word of lantern A. Lantern B sends its complement. -/
def lanternWord (s : State) : Nat :=
  let high := 0xA5 * 2 ^ 16 + 2 ^ 13 * lanternFg s + 2 ^ 12 * b2n (afterTest s)
    + (match lanternEpoch s with | some e => 2 * 2 ^ 10 + e | none => 1 * 2 ^ 10)
  256 * high + crc8 24 high

/-- A lantern is lit. -/
def lanternsLit (s : State) : Bool := rdF s A.LANTERN_STATUS 1 0 != 0

/-- Both lanterns go dark. -/
def lanternsOff (s : State) : State :=
  wrF { s with lantern := { s.lantern with due := false, word := 0 } } A.LANTERN_STATUS 1 0 0

/-- Nothing keeps the lanterns dark: they light at the next word boundary (R420, R421). -/
def lanternsDue (s : State) : State :=
  let free := s.lantern.booted && !s.lantern.clockLost && s.lantern.test.isNone && !safeState s && !lanternsLit s
  if free then { s with lantern := { s.lantern with due := true } } else s

/-- The relight of a test fixes how long after_test stays set (R422). -/
def lanternRelit (s : State) : State :=
  if s.lantern.tested then
    let on := fgOn s (lanternFg s)
    { s with lantern := { s.lantern with
        tested := false, relit := s.ridge, afterLaunches := if on then 2 else 0,
        afterUntil := if on then none else some (s.ridge + 1000000) } }
  else s

/-- LANTERN_STATUS of lanterns that light: a lantern whose lane has been cut stays dark (R393). -/
def litBits (s : State) : Nat := b2n (!laserCut s 47) + 2 * b2n (!laserCut s 48)

/-- At a word boundary the lanterns that are to light do so, and every lit lantern begins a word (R420). -/
def lanternBoundary (s : State) : State :=
  if s.ridge % 32000 ≠ 0 then s
  else
    let s := if s.lantern.due then
        lanternRelit (wrF { s with lantern := { s.lantern with due := false } } A.LANTERN_STATUS 1 0 (litBits s))
      else s
    if lanternsLit s then
      let w := lanternWord s
      wrF { s with lantern := { s.lantern with word := BitVec.ofNat 32 w } } A.LANTERN_STATUS 15 8 (fldN w 15 8)
    else s

/-- A launch of frame group `g` counts towards the end of after_test (R422). -/
def lanternLaunched (s : State) (g : Nat) : State :=
  if g = lanternFg s ∧ s.lantern.relit < s.ridge then
    { s with lantern := { s.lantern with afterLaunches := s.lantern.afterLaunches - 1 } }
  else s

/-- A write of LANTERN_TEST.test that is admitted (R422); it reads 0 once it has acted. -/
def lanternTest (s : State) : State :=
  if s.lantern.test.isSome || safeState s then s
  else
    let s := lanternsOff (bump s A.LANTERN_TESTS 1)
    wrF { s with lantern := { s.lantern with test := some s.ridge } } A.LANTERN_STATUS 2 2 1

/-- The test length has passed (R422). -/
def lanternTestEnd (s : State) : State :=
  match s.lantern.test with
  | none => s
  | some t =>
    if s.ridge < t + 1000 * rdF s A.LANTERN_TEST_LEN 16 0 then s
    else
      let s := wrF { s with lantern := { s.lantern with test := none, tested := true } } A.LANTERN_STATUS 2 2 0
      lanternsDue (raise s 0x2E0 2)

/-! ### Entering and leaving safe state -/

/-- Covered results that are held for a verdict are replaced by tarps, and the cycle enters no verdict (R447, R469). -/
def safeTarps (s : State) : State :=
  match s.comp.cycle with
  | none => s
  | some c =>
    let s := { s with comp := { s.comp with cycle := some { c with results := [], safe := true } } }
    c.results.foldl (fun s r => sendResult s r.ring (tarpOf r.pod)) s

/-- Safe state begins (R469, R470): `source` is the source of the entry, `rec` the bytes of the record that caused it,
`st` its status. -/
def enterSafe (s : State) (source st : Nat) (rec : List Byte) : State :=
  let s := wr (bump s A.FC_ENTRIES 1) A.FC_STATUS (1 + 65536 * source)
  let s := wrF (lanternsOff s) A.LANTERN_STATUS 3 3 1
  let s := camFreeze (raise (raise s 0x2E0 1) 0x2C0 2)
  safeTarps (sendEvent s Ev.SAFE_ENTERED 0 0 0 st rec)

/-- C5 is latched (R458, R472). -/
def latchFatal (s : State) (flags : Nat) : State :=
  raise (wrF { s with fc := { s.fc with quietFrom := none, exitDue := false } } A.FC_STATUS 1 0 2) 0x2C0 flags

/-- A report of class C4 or C5 forces safe state, restarts the quiet period, or latches C5 (R469, R470). -/
def forceSafe (s : State) (cls source st : Nat) (rec : List Byte) : State :=
  if rdF s A.FC_STATUS 1 0 = 2 then s
  else
    let s := if safeState s then s else enterSafe s source st rec
    if cls = 5 then latchFatal s 8 else quietRestart s

/-- Exits within the recovery window (R472). -/
def recentExits (s : State) : List Nat :=
  s.fc.exits.filter (fun t => decide (s.ridge < t + 60000000000 * rdF s A.FC_RECOVERY_CFG 26 16))

/-- The device leaves safe state at a launch of frame `k` of the covered frame group, or at once with `k` zero (R471);
the recovery limit has been checked. -/
def leaveSafe (s : State) (k : Nat) : State :=
  let s := { s with fc := { s.fc with quietFrom := none, exitDue := false, exits := recentExits s ++ [s.ridge] } }
  let s := wrF (wrF (bump s A.FC_RECOVERIES 1) A.FC_STATUS 1 0 0) A.LANTERN_STATUS 3 3 0
  let s := camResume (lanternsDue (raise s 0x2C0 4))
  let s := wrF (wrF { s with comp := { s.comp with window := [] } } A.COMP_STATUS 6 0 0) A.COMP_STATUS 11 11 0
  sendEvent s Ev.SAFE_LEFT 0 k 0 0 (leBytes 4 k ++ leBytes 4 s.fc.exits.length ++ leBytes 8 s.ridge)

/-! ### Commands -/

/-- LANTERN_WORD_BOUNDARY: a word boundary of the lanterns. -/
def execLanternWordBoundary (s : State) : Host.Outcome State Fault Refusal := whenOn lanternBoundary s

/-- LANTERN_TEST: a guarded write to LANTERN_TEST. -/
def execLanternTest (agent : Agent) (v : Word) (s : State) : Host.Outcome State Fault Refusal :=
  whenOn (fun s => immediateWrite s agent A.LANTERN_TEST v.toNat (fun s =>
    if v.getLsbD 0 then lanternTest s else s)) s

/-- LANTERN_TEST_END: the test length expires. -/
def execLanternTestEnd (s : State) : Host.Outcome State Fault Refusal := whenOn lanternTestEnd s

end Sys2Proof.Machine
end

