-- ==== Sys2Proof/Machine/Collector.lean ====
section
/-!
DEFINITION. The fault collector: classification, records, merging, reactions, safe state by command, and the end of the
quiet period (R458 to R474).
-/

namespace Sys2Proof.Machine

/-! ### Classes -/

/-- Class S is active (R459). -/
def classSActive (s : State) : Bool :=
  s.insts.any (fun x => x.cls == clsS && (x.life == .active || x.jobs.any (fun j => j.stage == .running))) ||
    s.graphs.any (fun e => match e.2 with
      | some g => g.cls == clsS && g.bound && fgOn s g.fg
      | none => false)

/-- A source that Table 16.2 marks "C4 or C3". -/
def eitherSource (i : Nat) : Bool := decide (0x0F0 ≤ i ∧ i ≤ 0x0F4) || decide (0x0F7 ≤ i ∧ i ≤ 0x0FB)

/-- A report follows the previous one of its source within the repeat window (R467). -/
def repeats (s : State) (i : Nat) : Bool :=
  match smGet (fun _ => none) s.fc.lastReport i with
  | some t => decide (s.ridge ≤ t + 1000000 * rdF s A.FC_REEXEC_CFG 29 16)
  | none => false

/-- The class of a report: its source's, raised where R459, R467 and R479 raise it. -/
def classify (s : State) (r : Report) (merged : Bool) : Nat :=
  let conf := if eitherSource r.source then (if classSActive s then 4 else 3) else rdF s (A.FC_SRC_CFG r.source) 2 0
  let c := if r.source = 0x14A ∧ 0x20 ≤ r.detail then max conf 4 else conf
  let c := if conf = 2 ∧ merged = false ∧ repeats s r.source = true then max c 3 else c
  if r.exhausted then max c (if r.cls = clsS then 4 else 3) else c

/-! ### Records (R463, R464) -/

/-- The six words of a record (Table 16.3). -/
def recordWords (x : FaultRecord) : List Nat :=
  [lo32 x.detected, hi32 x.detected,
   x.source + 512 * x.cls + 4096 * b2n x.merged + 8192 * b2n x.injected + 16384 * b2n x.exhausted + 65536 * x.status,
   x.tag + 65536 * x.placement, lo32 x.detail, x.mergedCount + 65536 * x.seq]

/-- The 24 bytes of a record. -/
def recordBytes (x : FaultRecord) : List Byte := (recordWords x).flatMap (leBytes 4)

/-- The record at a log entry. -/
def logAt (s : State) (i : Nat) : Option FaultRecord := smGet (fun _ => none) s.fc.log i

/-- Replace the record at a log entry. -/
def setLog (s : State) (i : Nat) (x : FaultRecord) : State :=
  { s with fc := { s.fc with log := smSet (fun _ => none) s.fc.log i (some x) } }

/-- A link whose level report carries its root-cause tag opens a merge record (R404, R464). -/
def opensMerge (r : Report) : Bool :=
  r.tag != 0 && decide (0x138 ≤ r.source ∧ r.source ≤ 0x13B) && isLevel r.source r.status

/-- A source whose detail the spec defines (R463, R479, R480). -/
def detailDefined (i : Nat) : Bool :=
  decide (i < 0x0C0) || decide (0x0C8 ≤ i ∧ i ≤ 0x0EB) || i == 0x100 || decide (0x110 ≤ i ∧ i ≤ 0x130) || i == 0x148
    || i == 0x149 || i == 0x14A

/-- Write a report as a new record (R463): the record, and the state with it. -/
def newRecord (s : State) (r : Report) (cls : Nat) : FaultRecord × State :=
  let h := rd s A.FC_LOG_HEAD
  let i := fldN h 7 0
  let d := if detailDefined r.source then (r.detail, s) else ((drawFree s).1 % 2 ^ 32, (drawFree s).2)
  let s := d.2
  let x : FaultRecord := {
    detected := r.detected, source := r.source, cls := cls, merged := false, injected := r.injected,
    exhausted := r.exhausted, status := r.status, tag := r.tag, placement := r.placement, detail := d.1,
    mergedCount := 0, seq := fldN h 31 16 }
  let s := wr (setLog s i x) A.FC_LOG_HEAD ((i + 1) % 256 + 65536 * ((fldN h 31 16 + 1) % 65536))
  let open' := s.fc.openMerge.filter (fun m => m.2 != i)
  let s := { s with fc := { s.fc with openMerge := if opensMerge r then open' ++ [(r.tag, i)] else open' } }
  let s := raise s 0x2C0 1
  let s := if rdB s (A.FC_SRC_CFG r.source) 3 then
      sendEvent s Ev.FAULT_RECORD r.cls 0 r.echo r.status (recordBytes x ++ zeros 8)
    else s
  (x, s)

/-- Merge a report into the open record of its tag: the count increments and the class rises (R464). -/
def mergeRecord (s : State) (r : Report) (cls : Nat) : State :=
  match s.fc.openMerge.find? (fun m => m.1 == r.tag) with
  | none => s
  | some m =>
    match logAt s m.2 with
    | none => s
    | some x =>
      setLog s m.2 { x with merged := true, mergedCount := (x.mergedCount + 1) % 65536, cls := max x.cls cls }

/-- The merge record of a link closes when the link is up again (R464): `link` is bits [15:12] of its tags. -/
def closeMerge (s : State) (link : Nat) : State :=
  { s with fc := { s.fc with openMerge := s.fc.openMerge.filter (fun m => m.1 / 4096 != link) } }

/-! ### Reactions (Table 16.1) -/

/-- Replace a firmware processor; its watchdog runs while it runs (R505, Table 17.13). -/
def setCore (s : State) (k : Nat) (x : FwCore) : State :=
  let s := { s with cores := smSet (fun _ => {}) s.cores k x }
  wrF s (A.WD_STATUS k) 8 8 (b2n (x.running && !(x.halted0 || x.halted1)))

/-- A job that failed with a status is to be fired again while retries are left; otherwise its instance ends with that
status (R346, R350, R467). Its execution sequence is retired. -/
def jobLost (s : State) (exec st : Nat) : State :=
  match findExec s exec with
  | none => s
  | some (x, j) =>
    if j.retries < retryLimit s ∧ (x.life = .active ∨ x.life = .completed) then
      let s := execLost s exec
      updJob s x.id j.entry.index (fun r => { r with stage := .retrying, issued := [], finished := 0 })
    else failExec s exec st

/-- The running jobs that a core holds: a control core those of its cluster, the scheduler core every one. -/
def heldJobs (s : State) (k : Nat) : List Nat :=
  s.insts.flatMap (fun x => (x.jobs.filter (fun j => j.stage == .running &&
    (k == 2 || (decide (j.entry.unit ≤ 4) && 3 + j.cluster == k)))).map (·.exec))

/-- A scheduler or control core is reset, and the jobs it held end with a status (R459). -/
def resetCore (s : State) (k st : Nat) : State :=
  (heldJobs s k).foldl (fun s e => jobLost s e st) (setCore s k {})

/-- The core of a source marked "C4 or C3". -/
def sourceCore (i : Nat) : Nat :=
  if i < 0x0F4 then 3 + (i - 0x0F0) else if i = 0x0F4 ∨ i = 0x0F7 then 2 else 3 + (i - 0x0F8)

/-- The reaction of class C3 (R458, R459, R479): a fence where the unit has one, a core reset where Table 16.2 says so. -/
def degrade (s : State) (r : Report) : State :=
  let i := r.source
  let fence (u : Nat) : State :=
    if u < 0x10 then execArrFence.applyArrFence s (u / 4) (u % 4) 1
    else applyEngFence s ((u - 0x10) / 4) ((u - 0x10) % 4) 1
  if 0x0C8 ≤ i ∧ i ≤ 0x0E7 then fence (i - 0x0C8)
  else if i = 0x14A ∧ r.detail < 0x20 then fence r.detail
  else if eitherSource i then resetCore s (sourceCore i) r.status
  else s

/-- Count a report by source, one of the 512 (R460, R483), and by class. -/
def countReport (s : State) (i cls : Nat) : State :=
  let s := if i < 0x200 then bumpSat s (A.FC_SRC_COUNT i) 1 else s
  let n := min (smGet (fun _ => 0) s.fc.counts cls + 1) 0xFFFFFFFF
  { s with fc := { s.fc with counts := smSet (fun _ => 0) s.fc.counts cls n } }

/-- The collector decides on a report: classified, counted, recorded or merged, and reacted to (R458, R462). -/
def collect (s : State) (r : Report) : State :=
  let merged := r.tag != 0 && s.fc.openMerge.any (fun m => m.1 == r.tag)
  let cls := classify s r merged
  let s := if merged = false ∧ rdF s (A.FC_SRC_CFG r.source) 2 0 = 2 then
      { s with fc := { s.fc with lastReport := smSet (fun _ => none) s.fc.lastReport r.source (some s.ridge) } }
    else s
  let s := countReport s r.source cls
  let x := newRecord s r cls
  let s := if merged then mergeRecord s r cls else x.2
  let s := if r.source = 0x1F0 then raise s 0x2C0 0x10 else s
  if 4 ≤ cls then forceSafe s cls r.source r.status (recordBytes x.1)
  else if cls = 3 then degrade s r
  else s

/-- The report at the head of the inbox reaches the collector. -/
def collectNext (s : State) : State :=
  match s.fc.inbox with
  | [] => s
  | r :: t => collect { s with fc := { s.fc with inbox := t } } r

/-- A report that reaches the collector from a mechanism outside the model's state: a level source becomes active. -/
def collectFrom (s : State) (r : Report) : State :=
  if (sourceInfo r.source).isNone then s
  else
    let s := if isLevel r.source r.status then quietFollow (wrF s (A.FC_SRC_CFG r.source) 12 12 1) else s
    collect s { r with detected := s.ridge }

/-! ### The way out of safe state -/

/-- An exit occurs: from safe state, or, with the recovery limit reached, into the latched fatal state (R471, R472). -/
def exitSafe (s : State) (k : Nat) : State :=
  if rdF s A.FC_RECOVERY_CFG 3 0 ≤ (recentExits s).length then
    let r : Report := { source := 0x1F1, status := St.RECOVERY_LIMIT, detected := s.ridge }
    let s := (newRecord (countReport s 0x1F1 5) r 5).2
    latchFatal s 0x28
  else leaveSafe s k

/-- The frame group's launch that a due exit has waited for (R471). -/
def exitAtLaunch (s : State) (g k : Nat) : State :=
  if s.fc.exitDue && g == coveredFg s then exitSafe s k else s

/-- A due exit no longer waits once the covered frame group is not enabled (R471). -/
def exitAtDisable (s : State) : State :=
  if s.fc.exitDue && !fgOn s (coveredFg s) then exitSafe s 0 else s

/-- The quiet period ends (R471). -/
def quietExpire (s : State) : State :=
  match s.fc.quietFrom with
  | none => s
  | some t =>
    if s.ridge < t + 1000000 * rdF s A.FC_QUIET 13 0 then s
    else exitAtDisable { s with fc := { s.fc with quietFrom := none, exitDue := true } }

/-- The statuses that Table 16.2 names for a source, where it names one only. -/
def soleStatus (i : Nat) : Option Nat :=
  if 0x060 ≤ i ∧ i < 0x0C8 then none
  else if 0x0F0 ≤ i ∧ i ≤ 0x0F4 then some St.LOCKSTEP_MISMATCH
  else if 0x0F5 ≤ i ∧ i ≤ 0x0FB then some St.WATCHDOG_EXPIRED
  else if i = 0x101 then some St.JOB_TIMEOUT else if i = 0x102 then some St.CYCLE_DEADLINE
  else if i = 0x103 then some St.RESULT_DROPPED else if i = 0x104 then some St.FRAME_MISMATCH
  else if i = 0x105 then some St.ARITH_NONFINITE
  else if 0x110 ≤ i ∧ i ≤ 0x11F then some St.DRAM_ECC_UNCORRECTABLE
  else if 0x120 ≤ i ∧ i ≤ 0x12F then some St.DRAM_CE_RATE
  else if i = 0x130 then some St.ENC_AUTH_FAIL else if i = 0x131 then some St.DRAM_OVERTEMP
  else if i = 0x132 then some St.DRAM_CRITICAL else if i = 0x138 then some St.HOST_LINK_DOWN
  else if i = 0x13C then some St.RIDGE_UNLOCKED else if i = 0x140 then some St.COMP_SAFE
  else if i = 0x141 then some St.COMP_RAIL_FAULT else if i = 0x142 then some St.SNT_ECC_UNCORRECTABLE
  else if i = 0x143 then some St.DEBUG_SAFE else if i = 0x148 then some St.COVERAGE_LAPSE
  else if i = 0x149 then some St.COVERAGE_LAPSE_DOUBLE else if i = 0x14A then some St.BIST_FAIL
  else none

/-- A write of 1 to FC_INJECT.arm: one report from a source, flagged injected (R474). -/
def fcInject (s : State) (i : Nat) : State :=
  if (sourceInfo i).isNone ∨ i = 0x1F0 ∨ i = 0x1F1 ∨ i = 0x1FE ∨ i = 0x1FF then raise s 0x2C0 0x40
  else
    let d := match soleStatus i with
      | some st => (st, s)
      | none => ((drawFree s).1 % 65536, (drawFree s).2)
    let r : Report := { source := i, status := d.1, injected := true, detected := s.ridge }
    { d.2 with fc := { d.2.fc with inbox := d.2.fc.inbox ++ [r] } }

/-- A write of FC_INJECT takes effect: the source stays, and arm reads 0 once its report has been raised. -/
def applyFcInject (s : State) (v : Nat) : State :=
  let s := wr s A.FC_INJECT (fldN v 8 0)
  if bitN v 12 then fcInject s (fldN v 8 0) else s

/-- Safe state is forced from outside the collector's reports (R419, R450, R469). -/
def forceFromHost (s : State) : State := collect s { source := 0x1FF, status := St.FC_FORCED, detected := s.ridge }

/-! ### Commands -/

/-- FAULT_REPORT: the oldest report on its way reaches the collector; or, with an operand, the report of a mechanism
whose detection no other command of the table carries. -/
def execFaultReport (ext : Option FaultIn) (s : State) : Host.Outcome State Fault Refusal :=
  whenOn (fun s =>
    match ext with
    | none => collectNext s
    | some f => collectFrom s { source := f.source.toNat, status := f.status.toNat, detail := f.detail.toNat,
                                placement := placement s, tag := f.tag.toNat, cls := f.cls.toNat }) s

/-- QUIET_PERIOD_EXPIRE: the quiet period expires. -/
def execQuietPeriodExpire (s : State) : Host.Outcome State Fault Refusal := whenOn quietExpire s

/-- FC_SELF_FAULT: the rails' copies differ, or a CRC fails (R473): `copies` and `crcs` tell what FC_SELF_STATUS
reads then. -/
def execFcSelfFault (copies crcs : Bool) (s : State) : Host.Outcome State Fault Refusal :=
  whenOn (fun s =>
    if copies && crcs then s
    else
      let s := wr s A.FC_SELF_STATUS (b2n copies + 2 * b2n crcs)
      if levelActive s 0x1F0 then s
      else collectFrom s { source := 0x1F0, status := St.FC_SELF_FAULT }) s

/-- FC_FORCE_SAFE: a write of FC_FORCE_SAFE. -/
def execFcForceSafe (agent : Agent) (v : Word) (s : State) : Host.Outcome State Fault Refusal :=
  whenOn (fun s => immediateWrite s agent A.FC_FORCE_SAFE v.toNat (fun s => if v.getLsbD 0 then forceFromHost s else s)) s

/-- FC_KILL: a guarded write of FC_KILL. -/
def execFcKill (agent : Agent) (v : Word) (s : State) : Host.Outcome State Fault Refusal :=
  whenOn (fun s => immediateWrite s agent A.FC_KILL v.toNat (fun s =>
    if v.getLsbD 0 then collect s { source := 0x1FE, status := St.FC_KILLED, detected := s.ridge } else s)) s

/-- FC_INJECT: a guarded write of FC_INJECT. -/
def execFcInject (agent : Agent) (v : Word) (s : State) : Host.Outcome State Fault Refusal :=
  whenOn (fun s => namedWrite s agent A.FC_INJECT v.toNat (fun s => applyFcInject s v.toNat)) s

end Sys2Proof.Machine
end

