-- ==== Sys2Proof/Machine/Conditioning.lean ====
section
/-!
DEFINITION. Image pipes: slots, the stages of Table 5.1, output tensors, statistics, the sentry tap and the device
test line (R128 to R150).
-/

namespace Sys2Proof.Machine

/-! ### Slot configuration (Tables 5.6 to 5.8)

A configuration is the list of the slot's words (offset / 4), then TAP_CFG, TAP_SCALE, TAP_BASE, STE_CTL, STE_WIN_XY,
STE_WIN_WH, STE_SAT, STAT_LUMA and STAT_CLASS. -/

/-- The addresses of a slot's configuration words. -/
def slotAddrs (q i : Nat) : List Nat :=
  (List.range 53).map (fun k => A.SL_CTL q i + 4 * k) ++
    [A.TAP_CFG q i, A.TAP_SCALE q i, A.TAP_BASE q i, A.STE_CTL (4 * q + i), A.STE_WIN_XY (4 * q + i),
     A.STE_WIN_WH (4 * q + i), A.STE_SAT (4 * q + i), A.STAT_LUMA, A.STAT_CLASS]

/-- The live configuration of a slot. -/
def slotLive (s : State) (q i : Nat) : List Nat := (slotAddrs q i).map (rd s)

/-- SL_CTL. -/
abbrev slCtl (c : List Nat) : Nat := cw c 0
/-- YUV422 mode. -/
def slYuv (c : List Nat) : Bool := bitN (slCtl c) 1
/-- Position of the red sample (R133). -/
def slPhase (c : List Nat) : Nat := fldN (slCtl c) 4 3
/-- Output channels. -/
def slChannels (c : List Nat) : Nat := if bitN (slCtl c) 5 then 1 else 3
/-- CHW layout. -/
def slChw (c : List Nat) : Bool := bitN (slCtl c) 6
/-- Buffers. -/
def slBuffers (c : List Nat) : Nat := fldN (slCtl c) 8 7 + 1
/-- Class of the tensor tag. -/
def slClass (c : List Nat) : Nat := fldN (slCtl c) 12 11
/-- Stream id. -/
def slStream (c : List Nat) : Nat := fldN (slCtl c) 27 16
/-- Crop origin and size, decimation. -/
def slX0 (c : List Nat) : Nat := fldN (cw c 22) 13 0
/-- Crop row origin. -/
def slY0 (c : List Nat) : Nat := fldN (cw c 22) 28 16
/-- Crop width. -/
def slW (c : List Nat) : Nat := fldN (cw c 23) 14 0
/-- Crop height. -/
def slH (c : List Nat) : Nat := fldN (cw c 23) 29 16
/-- Horizontal decimation. -/
def slDx (c : List Nat) : Nat := fldN (cw c 24) 3 0
/-- Vertical decimation. -/
def slDy (c : List Nat) : Nat := fldN (cw c 24) 7 4
/-- SL_OUT_BASE. -/
def slOut (c : List Nat) : Nat := cw c 44 + 2 ^ 32 * cw c 45
/-- SL_OUT_STRIDE. -/
def slStride (c : List Nat) : Nat := cw c 46
/-- SL_OUT_PITCH. -/
def slPitch (c : List Nat) : Nat := cw c 47
/-- SL_OUT_PLANE. -/
def slPlane (c : List Nat) : Nat := cw c 48
/-- SL_TAG_BASE. -/
def slTag (c : List Nat) : Nat := cw c 49 + 2 ^ 32 * cw c 50
/-- SL_TAG_STRIDE. -/
def slTagStride (c : List Nat) : Nat := cw c 51
/-- SL_OUT_PEG.peg. -/
def slPeg (c : List Nat) : Nat := fldN (cw c 52) 15 0
/-- Output columns. -/
def slCols (c : List Nat) : Nat := slW c / slDx c
/-- Output rows. -/
def slRows (c : List Nat) : Nat := slH c / slDy c
/-- Data bytes of an output row. -/
def slRowBytes (c : List Nat) : Nat := 2 * slChannels c * slCols c
/-- TAP_CFG.enable. -/
def tapOn (c : List Nat) : Bool := bitN (cw c 53) 0
/-- Block size of the tap. -/
def tapF (c : List Nat) : Nat := 4 * 2 ^ fldN (cw c 53) 2 1
/-- Channels the tap keeps: indices of R, G, B. -/
def tapChans (c : List Nat) : List Nat := if bitN (cw c 53) 3 then [0, 1, 2] else [1]
/-- TAP_BASE. -/
def tapBase (c : List Nat) : Nat := fldN (cw c 55) 22 0
/-- Bytes of the tap buffer for a frame of `w` by `h` (R146). -/
def tapBytes (c : List Nat) (w h : Nat) : Nat :=
  (tapChans c).length * (w / tapF c) * (h / tapF c) * 2 + h / tapF c

/-- The knees of a decompanding curve are valid (R132). -/
def kneesOk (c : List Nat) : Bool :=
  let n := fldN (cw c 5) 4 0
  let x (i : Nat) : Nat := fldN (cw c (6 + i)) 23 0
  decide (n ≤ 16) && (n == 0 || x 0 == 0) &&
    (List.range 16).all (fun i => decide (fldN (cw c (6 + i)) 28 24 ≤ 20)) &&
    (List.range n).all (fun i => (i == 0 || decide (x (i - 1) < x i)))

/-- A slot's whole configuration meets its constraints (R130, R132, R135 to R137, R141, R142, R146, Tables 5.7 and
5.8) with the live geometry of its stream. -/
def slotConfigOk (s : State) (c : List Nat) : Bool :=
  let st := slStream c
  let g := streamCfg (rd s) st
  let n := slBuffers c
  let buf := if slChw c then slPlane c * (slChannels c - 1) + slPitch c * slRows c else slPitch c * slRows c
  let row := if slChw c then 2 * slCols c else slRowBytes c
  decide (st < 0x200 ∧ slClass c ≠ 0) && kneesOk c &&
    decide (1 ≤ slW c ∧ slW c ≤ 16384 ∧ 1 ≤ slH c ∧ slH c ≤ 8192 ∧ 1 ≤ slDx c ∧ slDx c ≤ 8 ∧ 1 ≤ slDy c ∧ slDy c ≤ 8) &&
    decide (slX0 c + slW c ≤ g.width ∧ slY0 c + slH c ≤ g.lines ∧ slW c % slDx c = 0 ∧ slH c % slDy c = 0) &&
    (slYuv c == (g.dt == 0x1E)) &&
    decide (slOut c % 64 = 0 ∧ slStride c % 64 = 0 ∧ slPitch c % 64 = 0 ∧ slTag c % 64 = 0 ∧ slTagStride c % 64 = 0) &&
    decide (row ≤ slPitch c) && (!slChw c || decide (slPlane c % 64 = 0 ∧ slPitch c * slRows c ≤ slPlane c)) &&
    (List.range n).all (fun i => inMemory (slOut c + i * slStride c) buf &&
      inMemory (slTag c + i * slTagStride c) (8 + slRows c) &&
      refWellFormed (slPeg c + i) && refNames (slPeg c + i) && pegMode (pegAt s (slPeg c + i)) == 2) &&
    decide (fldN (cw c 60) 9 0 + fldN (cw c 60) 19 10 + fldN (cw c 60) 29 20 ≤ 1024) && decide (fldN (cw c 61) 1 0 ≠ 0) &&
    decide (fldN (cw c 56) 6 2 ≤ 16 ∧ fldN (cw c 56) 21 16 ≤ 47) &&
    (fldN (cw c 56) 1 0 == 0 || decide (fldN (cw c 56) 13 8 + 1 ≤ fldN (cw c 58) 14 0 ∧
      fldN (cw c 56) 21 16 + 1 ≤ fldN (cw c 58) 29 16)) &&
    (!tapOn c || decide (tapBase c % 64 = 0 ∧ rd s A.SNT_TAP_BASE ≤ tapBase c ∧
      tapBase c + tapBytes c g.width g.lines ≤ rd s A.SNT_TAP_BASE + rd s A.SNT_TAP_SIZE))

/-! ### Stages 1 to 4 (R132, R133) -/

/-- The raw code of pixel `x` of a line. -/
def lineCode (l : Line) (x : Nat) : Nat :=
  match l.px with
  | some p => p.getD x l.pad
  | none => l.pad

/-- Decompanding (R132): the segment that holds `v`, its knee's output built up from zero. -/
def decompand (c : List Nat) (v : Nat) : Nat :=
  let n := fldN (cw c 5) 4 0
  if n = 0 then v
  else
    let x (i : Nat) : Nat := fldN (cw c (6 + i)) 23 0
    let sh (i : Nat) : Nat := fldN (cw c (6 + i)) 28 24
    let go (acc : Nat × Nat) (i : Nat) : Nat × Nat :=
      -- output at knee i, and the result so far
      let y := if i = 0 then 0 else acc.1 + (x i - x (i - 1)) * 2 ^ sh (i - 1)
      (y, if x i ≤ v then y + (v - x i) * 2 ^ sh i else acc.2)
    min ((List.range n).foldl go (0, 0)).2 0xFFFFFF

/-- Stages 1 to 3 of a CFA pixel at row `y`, column `x` (row parity decides the CFA position). -/
def cfaPixel (c : List Nat) (l : Line) (y x : Nat) : Nat :=
  decompand c (lineCode l x - fldN (cw c (1 + 2 * (y % 2) + x % 2)) 23 0)

/-- The nearest index of the same CFA position (R133); nothing where the frame has none. -/
def reflect (i : Int) (n : Nat) : Option Nat :=
  let j : Int := if i < 0 then -i else if (n : Int) ≤ i then 2 * (n : Int) - 2 - i else i
  if 0 ≤ j ∧ j < n then some j.toNat else none

/-- The demosaic of one pixel from a function that gives stage-3 values by row and column (R133): R, G or C, B. -/
def demosaic (c : List Nat) (v : Int → Int → Nat) (y x : Nat) : List Nat :=
  let p := slPhase c
  let yi : Int := y
  let xi : Int := x
  let self := v yi xi
  let ew := rneNat (v yi (xi - 1) + v yi (xi + 1)) 2
  let ns := rneNat (v (yi - 1) xi + v (yi + 1) xi) 2
  let nsew := rneNat (v (yi - 1) xi + v (yi + 1) xi + v yi (xi - 1) + v yi (xi + 1)) 4
  let diag := rneNat (v (yi - 1) (xi - 1) + v (yi - 1) (xi + 1) + v (yi + 1) (xi - 1) + v (yi + 1) (xi + 1)) 4
  let row := decide (y % 2 = p / 2)
  let col := decide (x % 2 = p % 2)
  if row && col then [self, nsew, diag]
  else if !row && !col then [diag, nsew, self]
  else if row then [ew, self, ns]
  else [ns, self, ew]

/-- The YUV channels of a pixel: Y, Cb, Cr, the chroma of its pair (Table 5.1). -/
def yuvPixel (l : Line) (x : Nat) : List Nat :=
  [lineCode l x % 256, lineCode l (x / 2 * 2) / 256, lineCode l (x / 2 * 2 + 1) / 256]

/-- The stage-4 channels of pixel (y, x) of a frame's lines. -/
def stage4 (c : List Nat) (rows : List Line) (w y x : Nat) : List Nat :=
  if slYuv c then
    match rows[y]? with
    | some l => yuvPixel l x
    | none => [0, 0, 0]
  else
    demosaic c (fun yy xx =>
      match reflect yy rows.length, reflect xx w with
      | some i, some j =>
        match rows[i]? with
        | some l => cfaPixel c l i j
        | none => 0
      | _, _ => Config.openResult 1 [rows.length, w, y, x] % 2 ^ 24) y x

/-- The stage-4 channels of pixel `x` of the test line: rows above and below it are zero (R148). -/
def stage4Test (c : List Nat) (l : Line) (x : Nat) : List Nat :=
  if slYuv c then yuvPixel l x
  else
    demosaic c (fun yy xx =>
      if yy ≠ (l.lines : Int) then 0
      else match reflect xx l.width with
        | some j => cfaPixel c l l.lines j
        | none => Config.openResult 1 [1, l.width, l.lines, x] % 2 ^ 24) l.lines x

/-- A test-line signature (R149). -/
def testSignature (c : List Nat) (l : Line) : Nat :=
  crc32c ((List.range l.width).flatMap (fun x => (stage4Test c l x).flatMap (fun v => leBytes 3 v)))

/-! ### Stages 5 to 8 (R134, R135) -/

/-- The average of an output pixel's block, by channel. -/
def boxMean (c : List Nat) (rows : List Line) (w r k ch : Nat) : Nat :=
  let cells := (List.range (slDy c)).flatMap (fun j => (List.range (slDx c)).map (fun i =>
    (stage4 c rows w (slY0 c + slDy c * r + j) (slX0 c + slDx c * k + i)).getD ch 0))
  rneNat cells.sum (slDx c * slDy c)

/-- An FP32 add of the pipe. -/
abbrev pAdd (a b : Fp) : Fp := fpAdd f32 false a b
/-- An FP32 multiply of the pipe. -/
abbrev pMul (a b : Fp) : Fp := fpMul f32 false a b

/-- A BF16 output of stage 8; the spec gives none for a value that is no number, and no infinity, NaN or negative zero is ever
written (R134). -/
def pipeOut (x : Fp) (args : List Nat) : Nat :=
  match x with
  | .nan => finiteCode 0x7F80 0x8000 (Config.openResult 2 args)
  | _ => bf16out x

/-- The output channels of a pixel, from its averaged inputs. -/
def pipePixel (c : List Nat) (v : List Nat) : List Nat :=
  (List.range (slChannels c)).map (fun ch =>
    let m (k : Nat) : Fp := f32v (cw c (25 + k))
    let x (k : Nat) : Fp := fpInt f32 (v.getD k 0)
    let y := pAdd (pAdd (pAdd (pMul (m (3 * ch)) (x 0)) (pMul (m (3 * ch + 1)) (x 1))) (pMul (m (3 * ch + 2)) (x 2))) (m (9 + ch))
    let z := pMul (fpSub f32 false y (f32v (cw c (37 + ch)))) (f32v (cw c (40 + ch)))
    pipeOut z (ch :: v))

/-- The pixels of an output row. -/
def pipeRow (c : List Nat) (rows : List Line) (w r : Nat) : List (List Nat) :=
  (List.range (slCols c)).map (fun k => pipePixel c ((List.range 3).map (boxMean c rows w r k)))

/-! ### Output rows (R136 to R139) -/

/-- The flags of input rows `a` to `b`, both included, within a frame. -/
def rowFlags (rows : List Line) (a b : Int) : Nat :=
  (rows.zipIdx.foldl (fun f e => if a ≤ (e.2 : Int) ∧ (e.2 : Int) ≤ b then f ||| e.1.flags else f) 0) &&& 0x5F

/-- The flag byte of output row `r` (R138). -/
def outFlags (c : List Nat) (rows : List Line) (r : Nat) : Nat :=
  rowFlags rows ((slY0 c + slDy c * r : Nat) - 1 : Int) (slY0 c + slDy c * (r + 1) : Nat)

/-- The last input row on which output row `r` depends. -/
def rowNeeds (c : List Nat) (lines r : Nat) : Nat := min (slY0 c + slDy c * (r + 1)) (lines - 1)

/-- Write output row `r` of a frame, its flag byte, the tag with the last row, and count it (R136 to R138). -/
def writeRow (s : State) (q : Nat) (c : List Nat) (rows : List Line) (l : Line) (r : Nat) : State :=
  let i := l.frame % slBuffers c
  let base := slOut c + i * slStride c
  let tag := slTag c + i * slTagStride c
  let px := pipeRow c rows l.width r
  let put (s : State) (a : Nat) (bs : List Byte) : State := (memWrite s (.pipe ⟨q % 16, Nat.mod_lt q (by decide)⟩) a bs (slClass c)).2
  let s := if slChw c then
      (List.range (slChannels c)).foldl (fun s ch =>
        put s (base + ch * slPlane c + r * slPitch c) (px.flatMap (fun p => leBytes 2 (p.getD ch 0)))) s
    else put s (base + r * slPitch c) (px.flatMap (fun p => p.flatMap (leBytes 2)))
  let s := put s (tag + 8 + r) (leBytes 1 (outFlags c rows r))
  let s := if r + 1 = slRows c then
      let fl := ((List.range (slRows c)).map (outFlags c rows)).foldl (· ||| ·) 0
      put s tag (tagBytes { frame := l.frame, stream := slStream c, settings := l.settings, cls := slClass c, flags := fl })
    else s
  pegInc s (slPeg c + i) .byte (slRowBytes c) (some l.frame) (slClass c)

/-! ### Statistics (R141 to R145) -/

/-- The luma of a pixel (R141). -/
def luma (c : List Nat) (v : List Nat) : Nat :=
  (fldN (cw c 60) 9 0 * v.getD 0 0 + fldN (cw c 60) 19 10 * v.getD 1 0 + fldN (cw c 60) 29 20 * v.getD 2 0 + 512) / 1024

/-- The counted pixels of a rectangle: their channels; pixels of PAD lines and padded tails are left out (R143). -/
def countedPixels (c : List Nat) (rows : List Line) (x0 x1 y0 y1 : Nat) : List (List Nat) :=
  rows.zipIdx.flatMap (fun e =>
    if y0 ≤ e.2 ∧ e.2 < y1 ∧ bitN e.1.flags 2 = false then
      ((List.range e.1.width).filter (fun x => decide (x0 ≤ x ∧ x < x1 ∧ x < e.1.valid))).map (fun x => stage4 c rows e.1.width e.2 x)
    else [])

/-- Window of the statistics: x, y, w, h. -/
def statWin (c : List Nat) : Nat × Nat × Nat × Nat :=
  (fldN (cw c 57) 13 0, fldN (cw c 57) 28 16, fldN (cw c 58) 14 0, fldN (cw c 58) 29 16)

/-- The tag of a frame's statistics (R145). -/
def statTag (c : List Nat) (rows : List Line) (l : Line) : Tag :=
  let w := statWin c
  let fl := (rows.zipIdx.foldl (fun f e => if w.2.1 ≤ e.2 ∧ e.2 < w.2.1 + w.2.2.2 then f ||| e.1.flags else f) 0) ||| (l.flags &&& (flVoid ||| flUnknown))
  { frame := l.frame, stream := slStream c, settings := l.settings, cls := fldN (cw c 61) 1 0, flags := fl }

/-- The body of the histogram pod (Table 5.2). -/
def histogramBody (c : List Nat) (rows : List Line) (l : Line) : List Byte :=
  let w := statWin c
  let px := countedPixels c rows w.1 (w.1 + w.2.2.1) w.2.1 (w.2.1 + w.2.2.2)
  let all := ((List.range l.width).countP (fun x => decide (w.1 ≤ x ∧ x < w.1 + w.2.2.1)))
    * (rows.zipIdx.countP (fun e => decide (w.2.1 ≤ e.2 ∧ e.2 < w.2.1 + w.2.2.2)))
  let excl := if bitN l.flags 4 then 0 else all - px.length
  let sh := fldN (cw c 56) 6 2
  let bins (f : List Nat → Nat) : List Byte :=
    (List.range 256).flatMap (fun b => leBytes 4 (px.countP (fun p => min (f p / 2 ^ sh) 255 == b)))
  tagBytes (statTag c rows l) ++ leBytes 4 px.length ++ leBytes 4 excl
    ++ bins (luma c) ++ bins (fun p => p.getD 0 0) ++ bins (fun p => p.getD 1 0) ++ bins (fun p => p.getD 2 0)

/-- One zone of the zone pod (R142, Table 5.2). -/
def zoneBytes (c : List Nat) (rows : List Line) (i j zx zy : Nat) : List Byte :=
  let w := statWin c
  let px := countedPixels c rows (w.1 + i * w.2.2.1 / zx) (w.1 + (i + 1) * w.2.2.1 / zx)
    (w.2.1 + j * w.2.2.2 / zy) (w.2.1 + (j + 1) * w.2.2.2 / zy)
  let n := px.length
  if n = 0 then zeros 12 ++ leBytes 4 (2 ^ 17)
  else
    let mean (ch : Nat) : List Byte := leBytes 4 (rneNat (px.map (fun p => p.getD ch 0)).sum n)
    let sat := px.countP (fun p => p.any (fun v => decide (fldN (cw c 59) 23 0 ≤ v)))
    mean 0 ++ mean 1 ++ mean 2 ++ leBytes 4 (rneNat (sat * 65536) n)

/-- The body of the zone pod. -/
def zoneBody (c : List Nat) (rows : List Line) (l : Line) : List Byte :=
  let zx := fldN (cw c 56) 13 8 + 1
  let zy := fldN (cw c 56) 21 16 + 1
  tagBytes (statTag c rows l) ++ leBytes 1 zx ++ leBytes 1 zy ++ zeros 6 ++
    (List.range zy).flatMap (fun j => (List.range zx).flatMap (fun i => zoneBytes c rows i j zx zy))

/-- The statistics pods of a closed frame (R144, R145). -/
def statPods (c : List Nat) (rows : List Line) (l : Line) : List OutPod :=
  let pod (op : Nat) (b : List Byte) : OutPod :=
    { kind := 0xA, cls := fldN (cw c 61) 1 0, frame := l.frame, operation := op, body := b }
  (if bitN (cw c 56) 0 then [pod 1 (histogramBody c rows l)] else []) ++
    (if bitN (cw c 56) 1 then [pod 2 (zoneBody c rows l)] else [])

/-! ### The sentry tap (R146, R147) -/

/-- Store bytes in the sentry SRAM. -/
def sntPut (s : State) (a : Nat) (bs : List Byte) : State := { s with sntMem := putBytes s.sntMem a bs }

/-- One tapped value. -/
def tapValue (c : List Nat) (rows : List Line) (w i j ch : Nat) : Nat :=
  let f := tapF c
  let sum := ((List.range f).flatMap (fun y => (List.range f).map (fun x =>
    (stage4 c rows w (f * j + y) (f * i + x)).getD ch 0))).sum
  match fpConv f16 true (match f32v (cw c 54) with
    | .fin n m e => fpRound f32 false (frMul { n := sum, d := f * f } (fpVal (.fin n m e)))
    | x => x) with
  | .nan => finiteCode 0x7C00 0x8000 (Config.openResult 3 [i, j, ch])
  | x => if fpIsZero x then 0 else fpEncode f16 x

/-- The flag bytes of the tap rows (R146). -/
def tapFlags (c : List Nat) (rows : List Line) (h : Nat) : List Nat :=
  (List.range (h / tapF c)).map (fun j => rowFlags rows (tapF c * j : Nat) (tapF c * j + tapF c - 1 : Nat))

/-- The tap's bytes of a frame (R146). -/
def tapFrame (c : List Nat) (rows : List Line) (w h : Nat) : List Byte :=
  let f := tapF c
  (tapChans c).flatMap (fun ch => (List.range (h / f)).flatMap (fun j => (List.range (w / f)).flatMap (fun i =>
      leBytes 2 (tapValue c rows w i j ch)))) ++
    (tapFlags c rows h).flatMap (leBytes 1)

/-! ### A line through its pipe -/

/-- A slot while a frame passes. -/
def slotOf (s : State) (q i : Nat) : PipeSlot := smGet (fun _ => {}) s.slots (4 * q + i)

/-- Replace a slot. -/
def setSlot (s : State) (q i : Nat) (x : PipeSlot) : State := { s with slots := smSet (fun _ => {}) s.slots (4 * q + i) x }

/-- The tap buffer of a slot. -/
def tapOf (s : State) (n : Nat) : TapState := smGet (fun _ => {}) s.taps n

/-- Replace the tap buffer of a slot. -/
def setTap (s : State) (n : Nat) (x : TapState) : State := { s with taps := smSet (fun _ => {}) s.taps n x }

/-- The sentry has ended its run for a frame, or for a later one: a buffer of that frame is released at once. -/
def tapPast (s : State) (k : Nat) : Bool :=
  match s.sentry.ended with | some e => decide (0 ≤ sgn 32 (e + 2 ^ 32 - k)) | none => false

/-- A tap buffer has been written (R146). -/
def tapWritten (s : State) (n k : Nat) (flags : List Nat) : State :=
  setTap s n { held := !tapPast s k, frame := some k, flags := flags.foldl (· ||| ·) 0, void := flags.all (fun f => bitN f 4) }

/-- A frame of a slot starts: it takes its live configuration (R129), and the tap finds its buffer free or not. -/
def slotStart (s : State) (q i : Nat) (l : Line) : State :=
  let c := slotLive s q i
  let clash := tapOn c && (tapOf s (4 * q + i)).held
  let s := setSlot s q i { busy := true, cfg := c, frame := l.frame, rows := [], tap := tapOn c && !clash,
                            stats := unitOn s 0x0A8 }
  let s := wrF s (A.SL_STATUS q i) 0 0 1
  if clash then
    let s := raise (bumpSat s (A.TAP_OVERRUN_COUNT q i) 1) (0x080 + 2 * q) 8
    report s { source := 0x060 + q, status := St.TAP_OVERRUN, detail := l.stream, cls := slClass c }
  else s

/-- A frame of a slot closes: tap, statistics, and the slot's status. -/
def slotClose (s : State) (q i : Nat) (l : Line) : State :=
  let x := slotOf s q i
  let s := if x.tap then
      tapWritten (sntPut s (tapBase x.cfg) (tapFrame x.cfg x.rows l.width l.lines)) (4 * q + i) l.frame
        (tapFlags x.cfg x.rows l.lines)
    else s
  let s := if x.stats then { s with statQ := s.statQ ++ (statPods x.cfg x.rows l).map (fun p => (4 * q + i, p)) } else s
  let s := setSlot s q i { x with busy := false, rows := [] }
  let s := wr s (A.SL_STATUS q i) (2 * rdF s (A.SL_STATUS q i) 1 1 + 65536 * (l.frame % 65536))
  bump s (A.SL_FRAMES q i) 1

/-- An image line passes under slot `i`. -/
def slotLine (s : State) (q i : Nat) (l : Line) : State :=
  let s := if l.index = 0 then slotStart s q i l else s
  let x := slotOf s q i
  let rows := x.rows ++ [l]
  let s := setSlot s q i { x with rows := rows }
  let ready := (List.range (slRows x.cfg)).filter (fun r => rowNeeds x.cfg l.lines r == l.index)
  let s := ready.foldl (fun s r => writeRow s q x.cfg rows l r) s
  if l.index + 1 = l.lines then slotClose s q i l else s

/-- The test line is checked under the frame's configuration (R148 to R150). -/
def testLine (s : State) (q i : Nat) (l : Line) (mainErr tapErr : Nat) : State :=
  let c := (slotOf s q i).cfg
  let ref := testSignature c l
  let m := ref ^^^ mainErr
  let t := ref ^^^ tapErr
  let s := setRec s (0x080 + 2 * q) (1 + i) [m, t, ref, l.frame]
  let fail (s : State) (flag status : Nat) : State :=
    report (raise (bumpSat s (A.PIPE_TL_FAIL_COUNT q) 1) (0x080 + 2 * q) flag)
      { source := 0x070 + q, status := status, detail := l.stream, cls := slClass c }
  let s := if m = ref then s else fail s 2 St.TL_FAIL_MAIN
  if t = ref then s else fail s 4 St.TL_FAIL_TAP

/-- The slot whose frame a line belongs to: one that has taken the frame, or at frame start one that is enabled. -/
def slotTaking (s : State) (q : Nat) (l : Line) : Option Nat :=
  if l.index = 0 ∧ l.test = false then slotFor s q l.stream
  else (List.range 4).find? (fun i =>
    let x := slotOf s q i
    slStream x.cfg == l.stream && x.frame == l.frame && !x.cfg.isEmpty && (x.busy == !l.test))

/-- The output of the slot that takes a line lies in a region that is still being zero-filled (R380). -/
def lineWaits (s : State) (q : Nat) (l : Line) : Bool :=
  match slotTaking s q l with
  | none => false
  | some i =>
    let c := if l.index = 0 then slotLive s q i else (slotOf s q i).cfg
    !l.test && (encWaits s (slOut c) (slBuffers c * slStride c) || encWaits s (slTag c) (slBuffers c * slTagStride c))

/-- The oldest line of a pipe is processed (R128). A pipe that is off starts no new frame and discards what reaches it (R68);
conditioning gives embedded lines no work. -/
def pipeLine (s : State) (q mainErr tapErr : Nat) : State :=
  match pipeQueue s q with
  | [] => s
  | l :: t =>
    if lineWaits s q l then s else
    let s := setPipeQueue s q t
    let starts := l.index == 0 && !l.test
    if l.emb.isSome ∨ (unitOn s (0x080 + 2 * q) = false ∧ (starts = true ∨ (slotTaking s q l).isNone)) then s
    else match slotTaking s q l with
    | some i => if l.test then testLine s q i l mainErr tapErr else slotLine s q i l
    | none => raise (bumpSat s (A.PIPE_NOSLOT_COUNT q) 1) (0x080 + 2 * q) 0x20

/-! ### Commands -/

/-- PIPE_LINE: the oldest line of pipe `q` is processed; `mainErr` and `tapErr` are what a fault has done to the
signatures of a test line (0: nothing). -/
def execPipeLine (q : Fin 16) (mainErr tapErr : Word) (s : State) : Host.Outcome State Fault Refusal :=
  whenOn (fun s => pipeLine s q.val mainErr.toNat tapErr.toNat) s

/-- STATISTICS_POD: the waiting statistics pods of a slot are sent (R145). -/
def execStatisticsPod (q : Fin 16) (slot : Fin 4) (s : State) : Host.Outcome State Fault Refusal :=
  whenOn (fun s =>
    let e := 4 * q.val + slot.val
    let mine := s.statQ.filter (fun p => p.1 == e)
    let s := { s with statQ := s.statQ.filter (fun p => p.1 != e) }
    mine.foldl (fun s p => bump (sendTo s (statRing s) p.2) (A.STE_COUNT e) 1) s) s

end Sys2Proof.Machine
end

