-- ==== Sys2Proof/Machine/VideoDecode.lean ====
section
/-!
DEFINITION. Video decode: queues, batches, samples, void peas, deadlines and load (chapter 6). The pictures that a
core decodes are given by the codec's own standard, so a command carries what the core read and decoded.
-/

namespace Sys2Proof.Machine

/-! ### Batch checks (Table 6.4) -/

/-- A pea descriptor is valid (Table 6.3, step B5). -/
def peaOk (s : State) (c : List Nat) (d : List Byte) : Bool :=
  let a := leAt d 0 8
  let n := leAt d 8 4
  let form := leAt d 12 1
  let dl := leAt d 16 8
  decide (leAt d 13 3 = 0 ∧ leAt d 28 4 = 0 ∧ (dl = 0 ∨ s.ridge < dl)) &&
    (if form = 1 then decide (1 ≤ n ∧ n ≤ fldN (cw c 4) 26 0) && inDram a n
     else if form = 2 then n == dqSlotData c && inDram a n
     else form == 3 && a == 0 && n == 0)

/-- The status with which a batch pod is rejected; 0 where it passes (R167). Table 6.4 names no status for the bytes that R166 wants
zero after the descriptors and in a QUEUE_RESET: RESERVED_NONZERO (R10; log entry 53). -/
def batchStatus (s : State) (p : RxPod) : Nat :=
  let q := p.hdr.target % 256
  let c := dqCfg s q
  let b := p.body
  let n := leAt b 0 1
  let out := leAt b 8 8
  let tag := leAt b 16 8
  let pea (i : Nat) : List Byte := (b.drop (32 + 32 * i)).take 32
  if 64 ≤ q ∨ dqOn c = false ∨ dqCamera c = true then St.QUEUE_INVALID
  else if p.hdr.operation ≠ 1 ∧ p.hdr.operation ≠ 2 then St.BATCH_OP_INVALID
  else if p.hdr.operation = 2 then
    (if p.hdr.length ≠ 2 then St.BATCH_LENGTH_INVALID else if leNat b ≠ 0 then St.RESERVED_NONZERO else 0)
  else if n = 0 ∨ 64 < n ∨ p.hdr.length ≠ 3 + n then St.BATCH_LENGTH_INVALID
  else if leAt b 1 7 ≠ 0 ∨ leAt b 24 8 ≠ 0 ∨ out % 64 ≠ 0 ∨ tag % 64 ≠ 0 ∨ inMemory out (n * dqSlot c) = false
      ∨ inMemory tag (16 * n) = false then St.BATCH_ADDR_INVALID
  else if (List.range n).any (fun i => !peaOk s c (pea i)) then St.PEA_INVALID
  else if strict s && (dqForm c == 0 || (List.range n).any (fun i => leAt (pea i) 12 1 != 3 && leAt (pea i) 12 1 != dqForm c)) then
    St.SPLIT_FIXED
  else if 256 < dqQueued s q + n then St.QUEUE_FULL
  else if leNat (b.drop (32 + 32 * n)) ≠ 0 then St.RESERVED_NONZERO
  else 0

/-- Every earlier batch pod of the queue has been taken, so this one is next (R170). -/
def batchNext (s : State) (p : RxPod) : Bool :=
  (dqPods s (p.hdr.target % 256)).all (fun x => decide (p.no ≤ x.no))

/-- The samples of a batch pod. -/
def batchSamples (c : List Nat) (p : RxPod) : List Sample :=
  let b := p.body
  let n := leAt b 0 1
  (List.range n).map (fun i =>
    let d := b.drop (32 + 32 * i)
    { camera := false, pod := p.no, pea := i, form := leAt d 12 1, addr := leAt d 0 8, len := leAt d 8 4, frame := leAt d 24 4,
      deadline := leAt d 16 8, out := leAt b 8 8 + i * dqSlot c, tag := leAt b 16 8 + 16 * i, cls := p.hdr.cls,
      seq := p.hdr.sequence, last := i + 1 == n })

/-! ### A sample's end (R170, R171, R176 to R179) -/

/-- The slot and tag entry of a sample: addresses and its peg (R179). -/
def samplePlace (c : List Nat) (x : Sample) : Nat × Nat × Nat :=
  if x.camera then
    let i := x.frame % dqBuffers c
    (dqOut c + i * dqSlot c, dqTag c + 16 * i, if refNames (dqPeg c) then dqPeg c + i else dqPeg c)
  else (x.out, x.tag, dqPeg c)

/-- The class of a sample's tag. -/
def sampleClass (c : List Nat) (x : Sample) : Nat := if x.camera then dqClass c else x.cls

/-- A picture has been decoded: it counts towards the rate of the last 10 ms (DEC_LOAD, Table 6.9). -/
def decoded (s : State) (n : Nat) : State :=
  { s with decIn := s.decIn.filter (fun e => decide (s.ridge < e.1 + 10000000)) ++ [(s.ridge, n)] }

/-- A sample leaves its queue with a status and, when it is valid, its data (R170, R171, R177). -/
def dqFinish (s : State) (q : Nat) (x : Sample) (status : Nat) (data : List Byte) (rap : Bool) (lumaSize : Nat) : State :=
  let c := dqCfg s q
  let d := dqOf s q
  let pl := samplePlace c x
  let cls := sampleClass c x
  let void := decide (status ≠ 0)
  let us := match d.began with | some t => min ((s.ridge - t) / 1000) 0xFFFFFFFF | none => 0
  let slot := if void then zeros (dqSlot c) else data
  let tag : Tag := { frame := x.frame, stream := 0x240 + q, settings := if x.camera then x.settings else 0, cls := cls,
                     flags := (if void then flVoid else 0) ||| (if x.camera && x.unknown then flUnknown else 0) }
  let valid := if x.form = 2 ∨ (x.form = 1 ∧ void = true) then false else if x.form = 1 then true else d.valid
  let s := (memWrite s .decode pl.1 slot cls x.seq).2
  let s := (memWrite s .decode pl.2.1 (tagBytes tag ++ leBytes 2 status ++ leBytes 1 x.form ++ leBytes 1 (b2n rap)
    ++ leBytes 4 us) cls x.seq).2
  let s := pegInc s pl.2.2 .count 1 (if x.camera then some x.frame else none) cls x.seq
  let partly := d.partly || void
  let size := if x.form = 1 ∧ void = false then some lumaSize else d.lastLuma
  let refs := if valid = false then [] else if x.form = 1 then d.after else d.refs
  let s := setDq s q { d with items := d.items.drop 1, began := none, valid := valid, lastLuma := size,
                              partly := partly && !x.last, rap := false, luma := 0, after := [], refs := refs }
  let s := if x.form = 1 ∧ void = false then decoded s lumaSize else s
  let s := wrF (wrF (wr s A.DEC_STATUS (coresBusy s)) (A.DQ_STATUS (q / 16) (q % 16)) 31 16 status) (A.DQ_STATUS (q / 16) (q % 16)) 0 0 (b2n valid)
  let s := if void then
      let s := setRec (bumpSat s A.DEC_VOID_COUNT 1) 0x0C0 (1 + q) [x.pea + status * 65536, x.frame, lo32 s.ridge, hi32 s.ridge]
      let s := if status = St.DECODE_DEADLINE then bumpSat s A.DEC_DEADLINE_COUNT 1 else s
      let s := { s with rr := { s.rr with voids := if status = St.DECODE_DEADLINE then s.rr.voids.erase (q, x.pea, x.frame) else s.rr.voids } }
      let s := if status = St.DECODE_DEADLINE then record s false 4 q (x.pea + 2 ^ 32 * x.frame) [] else s
      let s := sendEvent (raise s 0x0C0 1) 0x0301 cls x.frame x.seq status
        (leBytes 2 q ++ leBytes 1 x.pea ++ leBytes 1 x.form ++ leBytes 2 status ++ zeros 2 ++ leBytes 4 x.frame
          ++ leBytes 4 x.seq ++ leBytes 8 s.ridge ++ zeros 8)
      if x.camera then report s { source := 0x080 + q, status := status, detail := q, cls := cls } else s
    else s
  let s := if x.last && !x.camera then podComplete s x.pod (if partly then St.BATCH_PARTIAL else 0) else s
  dqUpdate s q

/-- The deadline of the head sample of a queue, once it is known (R176). -/
def dqDeadline (c : List Nat) (d : DecQueue) (x : Sample) : Option Nat :=
  if x.camera then some (x.endAt + dqBudget c)
  else if x.deadline ≠ 0 then some x.deadline
  else d.began.map (fun t => t + dqBudget c)

/-- Deadlines are measured, but in a replay, which voids the recorded samples (R182). -/
def dqExpired (s : State) (q : Nat) (x : Sample) : Bool :=
  if replaying s then s.rr.voids.contains (q, x.pea, x.frame)
  else match dqDeadline (dqCfg s q) (dqOf s q) x with
    | some t => decide (t ≤ s.ridge)
    | none => false

/-- The sets of a queue's context after a sample that carries some: each replaces the set of its codec and id (R163). -/
def setsAfter (old : List (Bool × StreamSet)) (h : SampleHeaders) : List (Bool × StreamSet) :=
  h.sets.foldl (fun l x => l.filter (fun e => !(e.1 == h.av1 && e.2.id == x.id)) ++ [(h.av1, x)]) old

/-- The set that a sample's picture uses. -/
def setUsed (d : DecQueue) (h : SampleHeaders) : Option StreamSet :=
  ((setsAfter d.sets h).find? (fun e => e.1 == h.av1 && e.2.id == h.uses)).map (·.2)

/-- The size of a sample's picture. -/
def pictureSize (h : SampleHeaders) (p : StreamSet) : FrameSize := h.size.getD p.size

/-- The profile of a set is one of Table 6.1, and the greatest bit depth that it allows. -/
def profileDepth (av1 : Bool) (p : StreamSet) : Option Nat :=
  if av1 then (if p.profile = 0 then some 10 else none)
  else if p.profile = 2 ∨ p.compat2 = true then some 10
  else if p.profile = 1 ∨ p.compat1 = true then some 8
  else none

/-- The first failing check of Table 6.5 on a compressed sample, given the set that its picture uses; 0 where all pass. -/
def sampleStatus (c : List Nat) (d : DecQueue) (h : SampleHeaders) : Nat :=
  match if h.parses then setUsed d h else none with
  | none => St.DECODE_STREAM_ERROR
  | some p =>
    let z := pictureSize h p
    if h.av1 ≠ dqAv1 c then St.DECODE_CODEC_MISMATCH
    else if h.unsupported ∨ (profileDepth h.av1 p).isNone then St.DECODE_PROFILE_UNSUPPORTED
    else if (if h.av1 then 16 < p.level.toNat else 183 < p.level.toNat) then St.DECODE_LEVEL_UNSUPPORTED
    else if p.chroma420 = false ∨ p.bitDepth.toNat ≠ dqDepthBits c ∨ (profileDepth h.av1 p).getD 0 < p.bitDepth.toNat then
      St.DECODE_FORMAT_MISMATCH
    else if 8192 < z.codedW.toNat ∨ 4352 < z.codedH.toNat ∨ fldN (cw c 1) 13 0 < z.codedW.toNat
        ∨ fldN (cw c 1) 28 16 < z.codedH.toNat then St.DECODE_DIM_EXCEEDED
    else if z.outW.toNat ≠ dqW c ∨ z.outH.toNat ≠ dqH c then St.DECODE_DIM_MISMATCH
    else if dqDpb c < (if h.av1 then 8 else p.pictures.toNat) then St.DECODE_DPB_EXCEEDED
    else if (d.valid = false ∧ h.key = false) ∨ h.refs.any (fun r => !d.refs.contains r.toNat) then St.DECODE_REF_LOST
    else 0

/-- The pictures that a queue's context holds after a sample's picture. -/
def refsAfter (d : DecQueue) (h : SampleHeaders) : List Nat :=
  let kept := d.refs.filter (fun r => h.kept.any (fun k => k.toNat == r))
  kept ++ (h.names.map (·.toNat)).filter (fun r => !kept.contains r)

/-- The input or the place of the head sample of a queue lies in a region that is still being zero-filled (R380). -/
def dqWaits (s : State) (q : Nat) : Bool :=
  match (dqOf s q).items with
  | [] => false
  | x :: _ =>
    let c := dqCfg s q
    (!x.camera && encWaits s x.addr x.len) || encWaits s (samplePlace c x).1 (dqSlot c) || encWaits s (samplePlace c x).2.1 16

/-- A core begins the head sample of a queue (R168, R169, R176). -/
def dqStart (s : State) (q : Nat) (h : SampleHeaders) : State :=
  let s := dqApply s q
  let c := dqCfg s q
  let d := dqOf s q
  match d.items with
  | [] => s
  | x :: _ =>
    if dqOn c = false ∨ unitOn s 0x0C0 = false ∨ d.began.isSome ∨ 4 ≤ coresBusy s + s.bist.slices.countP (fun x => decide (0x2C ≤ x.1)) then s
    else
      let void (s : State) (st : Nat) : State := dqFinish s q x st [] false 0
      if dqExpired s q x then void s St.DECODE_DEADLINE
      else if x.form = 3 then void s St.PEA_SKIPPED
      else if x.camera && x.lost then void s St.DECODE_INPUT_LOST
      else
        let s := setDq s q { d with began := some s.ridge }
        if x.camera = false ∧ (memRead s .decode x.addr x.len x.cls (echo := x.seq)).1 ≠ 0 then
          void (memRead s .decode x.addr x.len x.cls (echo := x.seq)).2.2 (memRead s .decode x.addr x.len x.cls (echo := x.seq)).1
        else
          let st := if x.form = 1 then sampleStatus c d h else 0
          let known := x.form == 1 && h.parses && (setUsed d h).isSome
          let s := if x.form = 1 ∧ h.parses = true then setDq s q { dqOf s q with sets := setsAfter d.sets h } else s
          if st ≠ 0 then dqFinish s q x st [] (known && h.key) 0
          else
            let luma := match setUsed d h with
              | some p => (pictureSize h p).codedW.toNat * (pictureSize h p).codedH.toNat
              | none => 0
            let s := setDq s q { dqOf s q with rap := known && h.key, luma := luma, after := refsAfter d h }
            wr s A.DEC_STATUS (coresBusy s)

/-- Rows of `w` codes at a pitch, `e` bytes a code. -/
def planeBytes (w h pitch e : Nat) (px : List Nat) : List Byte :=
  (List.range h).flatMap (fun r => padTo pitch ((List.range w).flatMap (fun i => leBytes e (px.getD (r * w + i) 0))))

/-- The slot of a decoded picture in the queue's format (R178). -/
def pictureBytes (c : List Nat) (p : Picture) : List Byte :=
  let w := dqW c
  let h := dqH c
  let b := dqDepthBits c
  let e := if b = 8 then 1 else 2
  let y := p.y.map (·.toNat)
  let cb := p.cb.map (·.toNat)
  let cr := p.cr.map (·.toNat)
  let full (l : List Nat) (off : Nat) : List Nat :=
    (List.range (w * h)).map (fun i =>
      bf16of { n := (l.getD (i / w / 2 * (w / 2) + i % w / 2) 0 : Int) - off, d := 2 ^ b - 1 })
  if dqFormat c = 0 then
    planeBytes w h (roundUp (w * e) 64) e y ++ planeBytes (w / 2) (h / 2) (roundUp (w / 2 * e) 64) e cb
      ++ planeBytes (w / 2) (h / 2) (roundUp (w / 2 * e) 64) e cr
  else
    let yb := planeBytes w h (roundUp (2 * w) 64) 2 ((List.range (w * h)).map (fun i => bf16of { n := y.getD i 0, d := 2 ^ b - 1 }))
    if dqFormat c = 1 then
      yb ++ planeBytes w h (roundUp (2 * w) 64) 2 (full cb (2 ^ (b - 1))) ++ planeBytes w h (roundUp (2 * w) 64) 2 (full cr (2 ^ (b - 1)))
    else yb

/-- The running sample of a queue finishes: a raw pea's bytes, or the picture decoded, or an error in it (R168,
R169, R176). -/
def dqDone (s : State) (q : Nat) (pic : Option Picture) : State :=
  let c := dqCfg s q
  let d := dqOf s q
  match d.items, d.began with
  | x :: _, some _ =>
    let late := if replaying s then dqExpired s q x
      else match dqDeadline c d x with | some t => decide (t < s.ridge) | none => false
    if late then dqFinish s q x St.DECODE_DEADLINE [] d.rap 0
    else if x.form = 2 then
      let r := memRead s .decode x.addr x.len x.cls (echo := x.seq)
      dqFinish r.2.2 q x r.1 r.2.1 false 0
    else match pic with
      | some p => dqFinish s q x 0 (pictureBytes c p) d.rap d.luma
      | none => dqFinish s q x St.DECODE_STREAM_ERROR [] d.rap 0
  | _, _ => s

/-- The deadline of the head sample is reached (R176). -/
def dqTimeout (s : State) (q : Nat) : State :=
  match (dqOf s q).items with
  | x :: _ => if dqExpired s q x then dqFinish s q x St.DECODE_DEADLINE [] (dqOf s q).rap 0 else s
  | [] => s

/-! ### Commands -/

/-- BATCH_SUBMIT: decode takes the started batch pod `no` in its queue's order (R166, R170). -/
def execBatchSubmit (no : Nat) (s : State) : Host.Outcome State Fault Refusal :=
  whenOn (fun s =>
    match takePod s no 3 (fun h => h.operation == 1) with
    | some (p, t) =>
      if batchNext s p && unitOn s 0x0C0 then
        let q := p.hdr.target % 256
        let t := setDq t q { dqOf t q with items := (dqOf t q).items ++ batchSamples (dqCfg s q) p }
        dqUpdate t q
      else s
    | none => s) s

/-- QUEUE_RESET: the started batch pod `no` invalidates the queue's context after every earlier batch (R173). -/
def execQueueReset (no : Nat) (s : State) : Host.Outcome State Fault Refusal :=
  whenOn (fun s =>
    match takePod s no 3 (fun h => h.operation == 2) with
    | some (p, t) =>
      let q := p.hdr.target % 256
      if batchNext s p && unitOn s 0x0C0 && (dqOf s q).items.isEmpty then
        let t := wrF (setDq t q { dqOf t q with valid := false, refs := [] }) (A.DQ_STATUS (q / 16) (q % 16)) 0 0 0
        podComplete t no 0
      else s
    | none => s) s

/-- DECODE_SAMPLE_START: a core begins the next sample of queue `q`, whose headers read `hdr`. -/
def execDecodeSampleStart (q : Fin 64) (hdr : SampleHeaders) (s : State) : Host.Outcome State Fault Refusal :=
  whenOn (fun s => if dqWaits s q.val then s else dqStart s q.val hdr) s

/-- DECODE_SAMPLE_DONE: the running sample of queue `q` finishes with a picture, or with an error in its data. -/
def execDecodeSampleDone (q : Fin 64) (pic : Option Picture) (s : State) : Host.Outcome State Fault Refusal :=
  whenOn (fun s => if dqWaits s q.val then s else dqDone s q.val pic) s

/-- DECODE_DEADLINE: the deadline of the head sample of queue `q` is reached. -/
def execDecodeDeadline (q : Fin 64) (s : State) : Host.Outcome State Fault Refusal :=
  whenOn (fun s => if dqWaits s q.val then s else dqTimeout s q.val) s

/-- DECODE_CONFIG_APPLY: queue `q` stands at a sample boundary. -/
def execDecodeConfigApply (q : Fin 64) (s : State) : Host.Outcome State Fault Refusal :=
  whenOn (fun s => dqApply s q.val) s

end Sys2Proof.Machine
end

