-- ==== Sys2Proof/Machine/Bist.lean ====
section
/-!
DEFINITION. Built-in self-test: commanded tests, in-field slices and coverage lapses (R475 to R480, R484).
-/

namespace Sys2Proof.Machine

/-- Slices per pass and slice length in µs of a BIST unit (Table 16.7); nothing for a number the table does not list. -/
def bistUnit (u : Nat) : Option (Nat × Nat) :=
  if u < 0x10 then some (16, 120)
  else if u < 0x20 then some (6, 100)
  else if u < 0x24 then some (4, 60)
  else if u = 0x24 then some (8, 100)
  else if u < 0x2A then some (1, 20)
  else if u = 0x2A then some (4, 140)
  else if u = 0x2B then some (2, 50)
  else if u < 0x30 then some (10, 150)
  else none

/-- A unit's slices, in ticks. -/
def sliceTicks (u : Nat) : Nat :=
  match bistUnit u with | some (_, l) => 1000 * l | none => 0

/-- A unit with a fence field that is set (R479). -/
def bistFenced (s : State) (u : Nat) : Bool :=
  if u < 0x10 then unitFenced s (u / 4) (u % 4)
  else if u < 0x20 then unitFenced s ((u - 0x10) / 4) (4 + (u - 0x10) % 4)
  else false

/-- A unit is fenced, or excluded in BIST_UNIT_CFG. -/
def bistExempt (s : State) (u : Nat) : Bool := bistFenced s u || rdB s (A.BIST_UNIT_CFG u) 0

/-- The place in which at most one slice runs: a cluster, or what lies outside the clusters (4). -/
def bistPlace (u : Nat) : Nat :=
  if u < 0x10 then u / 4 else if u < 0x20 then (u - 0x10) / 4 else if u < 0x24 then u - 0x20
  else if 0x25 ≤ u ∧ u ≤ 0x28 then u - 0x25 else 4

/-- A unit has no operation running or queued. -/
def bistIdle (s : State) (u : Nat) : Bool :=
  if u < 0x10 then (arrOps s (u / 4) (u % 4)).isEmpty
  else if u < 0x20 then (engOps s ((u - 0x10) / 4) ((u - 0x10) % 4)).isEmpty
  else if u < 0x24 then (List.range 4).all (fun a => (arrOps s (u - 0x20) a).isEmpty)
  else if u = 0x24 then s.seq.cmds.isEmpty
  else if u < 0x2A then true
  else if u = 0x2A then s.sentry.run.isNone
  else if u = 0x2B then s.slots.all (fun e => !e.2.busy)
  else decide (coresBusy s + s.bist.slices.countP (fun x => decide (0x2C ≤ x.1)) < 4)

/-- The launch counts of frame group `g` whose cycles may hold a window that reaches into [t, t + n). -/
def windowLaunches (s : State) (g t n b : Nat) : List Nat :=
  let x := fgOf s g
  match x.cycle with
  | some c => c.1 :: x.replay.map (·.1)
  | none =>
    let p := fgPeriod s g
    if p = 0 ∨ t + n < fgStart s g then []
    else
      let top := (t + n - fgStart s g) / p
      ((List.range (b / p + 3)).map (fun i => top - i)).dedup.filterMap (fun k =>
        if x.first ≤ k then some (fgStart s g + k * p) else none)

/-- A span of `n` ticks from ridge count `t` touches a reserved class S window (R478). -/
def inReserved (s : State) (t n : Nat) : Bool :=
  (List.range 8).any (fun g =>
    let a := 1000 * rdF s (A.BIST_SWIN_START g) 16 0
    let b := 1000 * rdF s (A.BIST_SWIN_END g) 16 0
    fgOn s g && rdB s (A.BIST_SWIN_START g) 31 &&
      (windowLaunches s g t n b).any (fun l => decide (l + a < t + n ∧ t < l + b)))

/-- The controller tries a slice of unit `u`: it starts, is deferred, or is not due at all (R478, R480). A slice of an array
leaves its weight registers invalid. -/
def sliceStart (s : State) (u : Nat) : State :=
  if (bistUnit u).isNone || !rdB s A.BIST_CTL 0 || bistExempt s u || bistBusy s u
      || s.bist.slices.any (fun x => bistPlace x.1 == bistPlace u) then s
  else if bistIdle s u && (safeState s || !inReserved s s.ridge (sliceTicks u)) then
    let s := { s with bist := { s.bist with slices := s.bist.slices ++ [(u, s.ridge)] } }
    if u < 0x10 then setArr s (u / 4) (u % 4) { arrUnit s (u / 4) (u % 4) with resident := [] } else s
  else bump s A.BIST_DEFERRALS 1

/-- What waited for a slice of unit `u` goes on (R478). -/
def sliceFrees (s : State) (u : Nat) : State :=
  if u < 0x10 then promote s (u / 4)
  else if u < 0x20 then engNext s ((u - 0x10) / 4) ((u - 0x10) % 4)
  else if u < 0x24 then promote s (u - 0x20)
  else if u = 0x24 then { s with bist := { s.bist with waited := [] } }
  else s

/-- A slice ends: a full pass clears the unit's lapses; a signature that differs raises BIST_FAIL (R478 to R480). -/
def sliceEnd (s : State) (u : Nat) (fail : Bool) : State :=
  match s.bist.slices.find? (fun x => x.1 == u) with
  | none => s
  | some (_, t) =>
    if s.ridge < t + sliceTicks u then s
    else
      let s := { s with bist := { s.bist with slices := s.bist.slices.filter (fun x => x.1 != u) } }
      let s := wrF s (A.BIST_UNIT_STATUS u) 10 10 (b2n fail)
      let s := if fail then
          report (raise (bumpSat s A.BIST_FAILS 1) 0x2E8 2)
            { source := 0x14A, status := St.BIST_FAIL, detail := u, placement := placement s }
        else
          let n := rdF s (A.BIST_UNIT_STATUS u) 7 0 + 1
          match bistUnit u with
          | some (total, _) =>
            if n < total then wrF s (A.BIST_UNIT_STATUS u) 7 0 n
            else lapseRestart (wrF s (A.BIST_UNIT_STATUS u) 7 0 0) u
          | none => s
      sliceFrees s u

/-- The time of a unit since its last completed full pass (R480). -/
def sincePass (s : State) (u : Nat) : Nat := s.ridge - smGet (fun _ => 0) s.bist.passAt u

/-- The diagnostic test interval in ticks. -/
def bistInterval (s : State) : Nat := 1000000 * rdF s A.BIST_INTERVAL 13 0

/-- A unit's time since its last full pass exceeds the interval: COVERAGE_LAPSE (R480). -/
def coverageLapse (s : State) (u : Nat) : State :=
  if (bistUnit u).isNone || bistExempt s u || rdB s (A.BIST_UNIT_STATUS u) 8
      || decide (sincePass s u ≤ bistInterval s) then s
  else
    let s := raise (wrF s (A.BIST_UNIT_STATUS u) 8 8 1) 0x2E8 4
    if levelActive s 0x148 then s
    else report (bumpSat s A.BIST_LAPSES 1) { source := 0x148, status := St.COVERAGE_LAPSE, detail := u }

/-- It reaches twice the interval: COVERAGE_LAPSE_DOUBLE (R480). -/
def coverageDouble (s : State) (u : Nat) : State :=
  if (bistUnit u).isNone || bistExempt s u || rdB s (A.BIST_UNIT_STATUS u) 9
      || decide (sincePass s u < 2 * bistInterval s) then s
  else
    let s := wrF s (A.BIST_UNIT_STATUS u) 9 9 1
    if levelActive s 0x149 then s
    else report s { source := 0x149, status := St.COVERAGE_LAPSE_DOUBLE, detail := u }

/-- A commanded test of unit `u` may run (R477). -/
def bistMayRun (s : State) (u : Nat) : Bool :=
  (bistUnit u).isSome && s.bist.cmd.isNone &&
    (if u < 0x20 then bistFenced s u else (List.range 8).all (fun g => !fgOn s g))

/-- A write of BIST_CMD takes effect (R477): the fields stay, and start reads 0. -/
def applyBistCmd (s : State) (v : Nat) : State :=
  let u := fldN v 5 0
  let s := wr s A.BIST_CMD (u + 256 * fldN v 8 8)
  if bitN v 15 = false then s
  else if bistMayRun s u then
    wr { s with bist := { s.bist with cmd := some (u, bitN v 8) } } A.BIST_STATUS (1 + 256 * u)
  else wr s A.BIST_STATUS (rdF s A.BIST_STATUS 0 0 + 256 * u + 65536 * 2)

/-- A commanded test ends with a signature: compared with the one of the firmware image, recorded, and sent (R477). -/
def bistResult (s : State) (sig : Nat) : State :=
  match s.bist.cmd with
  | none => s
  | some (u, mem) =>
    let passed := decide (leAt s.bist.expected (16 * (2 * u + b2n mem)) 16 = sig)
    let s := wr { s with bist := { s.bist with cmd := none } } A.BIST_STATUS (256 * u + 65536 * b2n (!passed))
    let s := setRec s 0x2E8 1
      [u + 256 * b2n mem + 512 * b2n passed, fldN sig 31 0, fldN sig 63 32, fldN sig 95 64, fldN sig 127 96]
    let s := raise (if passed && !mem then lapseRestart s u else s) 0x2E8 1
    match drawFree s with
    | (v, s) => sendEvent s Ev.BIST_RESULT 0 0 0 0 (leBytes 16 v)

/-! ### Commands -/

/-- BIST_CMD: a guarded write of BIST_CMD. -/
def execBistCmd (agent : Agent) (v : Word) (s : State) : Host.Outcome State Fault Refusal :=
  whenOn (fun s => namedWrite s agent A.BIST_CMD v.toNat (fun s => applyBistCmd s v.toNat)) s

/-- BIST_RESULT: the commanded test ends with a signature. -/
def execBistResult (sig : BitVec 128) (s : State) : Host.Outcome State Fault Refusal :=
  whenOn (fun s => bistResult s sig.toNat) s

/-- BIST_SLICE_START: the controller tries a slice of a unit. -/
def execBistSliceStart (u : BitVec 6) (s : State) : Host.Outcome State Fault Refusal :=
  whenOn (fun s => sliceStart s u.toNat) s

/-- BIST_SLICE_END: the slice of a unit ends; `fail` tells that its signature differs. -/
def execBistSliceEnd (u : BitVec 6) (fail : Bool) (s : State) : Host.Outcome State Fault Refusal :=
  whenOn (fun s => sliceEnd s u.toNat fail) s

/-- COVERAGE_LAPSE: the collector looks at a unit's time. -/
def execCoverageLapse (u : BitVec 6) (s : State) : Host.Outcome State Fault Refusal :=
  whenOn (fun s => coverageLapse s u.toNat) s

/-- COVERAGE_LAPSE_DOUBLE: the collector looks at a unit's time. -/
def execCoverageLapseDouble (u : BitVec 6) (s : State) : Host.Outcome State Fault Refusal :=
  whenOn (fun s => coverageDouble s u.toNat) s

end Sys2Proof.Machine
end

