-- ==== Sys2Proof/Machine/Comparator.lean ====
section
/-!
DEFINITION. The sentry channel and the comparator: runs, grids, judgement, the verdict and its releases (R433 to R447,
R453 to R456).
-/

namespace Sys2Proof.Machine

/-! ### The sentry (R434 to R437) -/

/-- SNT_CTL.enable. -/
def sentryOn (s : State) : Bool := rdB s A.SNT_CTL 0

/-- A slot, 4q + i, is in SNT_TAP_MASK. -/
def sentryTap (s : State) (n : Nat) : Bool := if n < 32 then rdB s A.SNT_TAP_MASK_LO n else rdB s A.SNT_TAP_MASK_HI (n - 32)

/-- The slots of the mask. -/
def sentrySlots (s : State) : List Nat := (List.range 64).filter (sentryTap s)

/-- The slots that have not written their buffer of frame `k`. -/
def sentryMissing (s : State) (k : Nat) : List Nat := (sentrySlots s).filter (fun n => (tapOf s n).frame != some k)

/-- The regions of the sentry SRAM do not overlap, and every enabled tap buffer lies in the tap region (R434). -/
def sentryRegionsOk (s : State) : Bool :=
  let b := rdF s A.SNT_TAP_BASE 22 0
  let n := rdF s A.SNT_TAP_SIZE 22 0
  decide (b % 64 = 0 ∧ n % 64 = 0 ∧ rdF s A.SNT_PROG_SIZE 22 0 ≤ b ∧ b + n ≤ 0x7F8000
    ∧ rdF s A.SNT_PROG_SIZE 22 0 ≤ 0x7F8000) &&
    (List.range 64).all (fun k =>
      let c := slotLive s (k / 4) (k % 4)
      let g := streamCfg (rd s) (slStream c)
      !(rdB s (A.SL_CTL (k / 4) (k % 4)) 0 && tapOn c) || decide (b ≤ tapBase c ∧ tapBase c + tapBytes c g.width g.lines ≤ b + n))

/-- A write of SNT_CTL takes effect (R434); an enable that is ignored leaves the other field to take its value (R10). -/
def applySntCtl (s : State) (v : Nat) : State :=
  if bitN v 0 && !sentryRegionsOk s then
    applyPlain (raise s 0x2D0 0x10) A.SNT_CTL (setFldN v 0 0 (rdF s A.SNT_CTL 0 0))
  else applyPlain s A.SNT_CTL v

/-- A run starts, once every tap is written or the start limit has passed (R435). -/
def sentryStart (s : State) : State :=
  match s.sentry.due with
  | none => s
  | some (k, l) =>
    let miss := sentryMissing s k
    if bistBusy s 0x2A || (!miss.isEmpty && decide (s.ridge < l + 1000 * rdF s A.SNT_START_LIMIT 19 0)) then s
    else wrF { s with sentry := { s.sentry with due := none, run := some (k, s.ridge, miss) } } A.SNT_STATUS 0 0 1

/-- The sentry's run of frame `k` is over: its tap buffers are released (R435). -/
def sentryOver (s : State) (k : Nat) : State :=
  let held := s.taps.filter (fun e => e.2.held && e.2.frame == some k)
  let freed : List (Nat × TapState) := held.map (fun e => (e.1, { e.2 with held := false }))
  let s := { s with taps := smSetAll (fun _ => {}) s.taps freed }
  wrF { s with sentry := { s.sentry with run := none, due := none, ended := some k } } A.SNT_STATUS 0 0 0

/-- The cells of a grid, 2 bits each, four to a byte (R436). -/
def gridBytes : List (BitVec 2) → List Byte
  | a :: b :: c :: d :: t => BitVec.ofNat 8 (a.toNat + 4 * b.toNat + 16 * c.toNat + 64 * d.toNat) :: gridBytes t
  | [] => []
  | l => [BitVec.ofNat 8 ((l.getD 0 0).toNat + 4 * (l.getD 1 0).toNat + 16 * (l.getD 2 0).toNat)]

/-- Cell columns and rows of the comparator's grid (Table 15.10). -/
def gridCols (s : State) : Nat := rdF s A.COMP_GRID_DIM 7 0 + 1
/-- Cell rows. -/
def gridRows (s : State) : Nat := rdF s A.COMP_GRID_DIM 15 8 + 1

/-- A cell (i, j) lies in the rectangle of a ZONE_RECT word. -/
def inRect (w i j : Nat) : Bool := decide (fldN w 7 0 ≤ i ∧ i ≤ fldN w 23 16 ∧ fldN w 15 8 ≤ j ∧ j ≤ fldN w 31 24)

/-- The grid a run writes: `cells` is what the program finds, of which SNT_INJECT marks zone 0 free (Table 15.9). -/
def runCells (s : State) (cells : List (BitVec 2)) : List (BitVec 2) :=
  let gx := gridCols s
  (List.range (gx * gridRows s)).map (fun n =>
    if rdB s A.SNT_INJECT 0 && inRect (rd s (A.ZONE_RECT 0)) (n % gx) (n / gx) then 0 else cells.getD n 2)

/-- The address of the grid buffer of frame `k` (R434, R436). -/
def gridBuffer (k : Nat) : Nat := 0x7F8000 + 0x4000 * (k % 2)

/-- A run ends: its grid is written, judged void or not, and its tap buffers are released (R435 to R437). -/
def sentryEnd (s : State) (cells : List (BitVec 2)) (corrected : Nat) (uncorrectable : Bool) : State :=
  match s.sentry.run with
  | none => s
  | some (k, t, miss) =>
    let slots := sentrySlots s
    let flags := slots.foldl (fun f n => f ||| (if miss.contains n then flVoid else (tapOf s n).flags)) 0
    let void := uncorrectable || slots.all (fun n => miss.contains n || (tapOf s n).void)
    let s := if corrected = 0 then s else raise (bumpSat s A.SNT_ECC_CORR corrected) 0x2D0 4
    let s := if uncorrectable then
        report (raise (bumpSat s A.SNT_ECC_UNCORR 1) 0x2D0 8) { source := 0x142, status := St.SNT_ECC_UNCORRECTABLE }
      else s
    let s := wrF (sntPut s (gridBuffer k) (gridBytes (runCells s cells))) A.SNT_INJECT 0 0 0
    let s := if void then raise (bumpSat s A.SNT_VOID_COUNT 1) 0x2D0 2 else s
    let s := sentryOver { s with sentry := { s.sentry with
      last := some { frame := k, flags := flags, void := void, at_ := s.ridge } } } k
    wr (wr s A.SNT_LAST_TIME ((s.ridge - t) / 1000)) A.SNT_STATUS (2 + 65536 * (k % 65536))

/-- The sentry is stopped at J(k): a grid that is not complete is late (R437). -/
def sentryCut (s : State) : State :=
  match s.sentry.cutAt with
  | none => s
  | some (k, j) =>
    if s.ridge < j then s
    else
      let s := { s with sentry := { s.sentry with cutAt := none } }
      let done := match s.sentry.last with | some g => decide (g.frame = k ∧ g.at_ ≤ j) | none => false
      if done then s
      else
        let s := sentryOver (raise (bumpSat s A.SNT_LATE_COUNT 1) 0x2D0 1) k
        wr s A.SNT_STATUS (65536 * (k % 65536))

/-! ### Trigonometry of the comparator (R442) -/

/-- Entries 0 to 63 of COS14. -/
def cosQ0 : List Nat := [16384, 16384, 16383, 16381, 16379, 16376, 16373, 16369, 16364, 16359, 16353, 16347, 16340,
  16332, 16324, 16315, 16305, 16295, 16284, 16273, 16261, 16248, 16235, 16221, 16207, 16192, 16176, 16160, 16143,
  16125, 16107, 16088, 16069, 16049, 16029, 16008, 15986, 15964, 15941, 15917, 15893, 15868, 15843, 15817, 15791,
  15763, 15736, 15707, 15679, 15649, 15619, 15588, 15557, 15525, 15493, 15460, 15426, 15392, 15357, 15322, 15286,
  15250, 15213, 15175]

/-- Entries 64 to 127 of COS14. -/
def cosQ1 : List Nat := [15137, 15098, 15059, 15019, 14978, 14937, 14896, 14854, 14811, 14768, 14724, 14680, 14635,
  14589, 14543, 14497, 14449, 14402, 14354, 14305, 14256, 14206, 14155, 14104, 14053, 14001, 13949, 13896, 13842,
  13788, 13733, 13678, 13623, 13567, 13510, 13453, 13395, 13337, 13279, 13219, 13160, 13100, 13039, 12978, 12916,
  12854, 12792, 12729, 12665, 12601, 12537, 12472, 12406, 12340, 12274, 12207, 12140, 12072, 12004, 11935, 11866,
  11797, 11727, 11656]

/-- Entries 128 to 191 of COS14. -/
def cosQ2 : List Nat := [11585, 11514, 11442, 11370, 11297, 11224, 11151, 11077, 11003, 10928, 10853, 10778, 10702,
  10625, 10549, 10471, 10394, 10316, 10238, 10159, 10080, 10001, 9921, 9841, 9760, 9679, 9598, 9516, 9434, 9352, 9269,
  9186, 9102, 9019, 8935, 8850, 8765, 8680, 8595, 8509, 8423, 8337, 8250, 8163, 8076, 7988, 7900, 7812, 7723, 7635,
  7545, 7456, 7366, 7276, 7186, 7096, 7005, 6914, 6823, 6731, 6639, 6547, 6455, 6363]

/-- Entries 192 to 255 of COS14. -/
def cosQ3 : List Nat := [6270, 6177, 6084, 5990, 5897, 5803, 5708, 5614, 5520, 5425, 5330, 5235, 5139, 5044, 4948,
  4852, 4756, 4660, 4563, 4467, 4370, 4273, 4176, 4078, 3981, 3883, 3786, 3688, 3590, 3492, 3393, 3295, 3196, 3098,
  2999, 2900, 2801, 2702, 2603, 2503, 2404, 2305, 2205, 2105, 2006, 1906, 1806, 1706, 1606, 1506, 1406, 1306, 1205,
  1105, 1005, 904, 804, 704, 603, 503, 402, 302, 201, 101]

/-- Entries 256 to 256 of COS14. -/
def cosQ4 : List Nat := [0]

/-- COS14 from 0 to a quarter turn. -/
def cosQuarter : List Nat := cosQ0 ++ cosQ1 ++ cosQ2 ++ cosQ3 ++ cosQ4

/-- COS14 (R442). -/
def cos14 (i : Nat) : Int :=
  if i ≤ 256 then (cosQuarter.getD i 0 : Int)
  else if i ≤ 512 then -(cosQuarter.getD (512 - i) 0 : Int)
  else if i ≤ 768 then -(cosQuarter.getD (i - 512) 0 : Int)
  else (cosQuarter.getD (1024 - i) 0 : Int)

/-- SIN14 (R442). -/
def sin14 (i : Nat) : Int := cos14 ((i + 768) % 1024)

/-! ### Covered content (R440) -/

/-- A record of an object list. -/
structure CompObject where
  x : Int
  y : Int
  halfLen : Nat
  halfWid : Nat
  heading : Nat
  confidence : Nat
  deriving DecidableEq, Repr

/-- Record `r` of an object list (Table 15.3). -/
def compObject (b : List Byte) (r : Nat) : CompObject :=
  { x := sgn 32 (leAt b (16 + 32 * r) 4), y := sgn 32 (leAt b (20 + 32 * r) 4), halfLen := leAt b (24 + 32 * r) 2,
    halfWid := leAt b (26 + 32 * r) 2, heading := leAt b (28 + 32 * r) 2, confidence := leAt b (32 + 32 * r) 2 }

/-- The kind of an entry (Table 15.12). -/
def covKind (w : Nat) : Nat := fldN w 2 1
/-- Its factor. -/
def covF (w : Nat) : Nat := 2 ^ fldN w 4 3
/-- Its stream. -/
def covStream (w : Nat) : Nat := fldN w 27 16

/-- The enabled entries of a snapshot. -/
def covOn (c : CompSnap) : List Nat := c.entries.filter (fun w => bitN w 0)

/-- The entry of a stream; none where it is judged presence only (R439). -/
def covFor (c : CompSnap) (stream : Nat) : Option Nat := (covOn c).find? (fun w => covStream w == stream)

/-- Covered content breaks the layout of its entry's kind (R440). -/
def malformed (c : CompSnap) (r : Covered) : Bool :=
  match covFor c r.stream with
  | none => false
  | some w =>
    let b := r.content
    if covKind w = 0 then
      !(decide (16 ≤ b.length ∧ leAt b 0 4 ≤ 1024 ∧ b.length = 16 + 32 * leAt b 0 4) && ((b.drop 4).take 12).all (· == 0))
    else if covKind w = 1 then
      !(decide (16 ≤ b.length ∧ leAt b 0 2 = c.gx * covF w ∧ leAt b 2 2 = c.gy * covF w ∧ leAt b 4 1 = covF w
          ∧ b.length = 16 + ceilDiv (c.gx * covF w * (c.gy * covF w)) 4) && ((b.drop 5).take 11).all (· == 0))
    else false

/-- The 2-bit code of cell `n` of packed cells from byte `off`. -/
def packedCell (b : List Byte) (off n : Nat) : Nat := fldN (leAt b (off + n / 4) 1) (2 * (n % 4) + 1) (2 * (n % 4))

/-- Occupied, free or unknown from several cells: occupied if any is, free if all are, unknown otherwise (R440). -/
def mergeCells (l : List Nat) : Nat :=
  if l.any (· == 1) then 1 else if !l.isEmpty && l.all (· == 0) then 0 else 2

/-- The main occupancy of sentry cell (i, j) (R440). -/
def mainOcc (c : CompSnap) (rs : List Covered) (i j : Nat) : Nat :=
  mergeCells (rs.flatMap (fun r =>
    match covFor c r.stream with
    | some w =>
      if covKind w = 1 then
        let f := covF w
        (List.range f).flatMap (fun y => (List.range f).map (fun x =>
          packedCell r.content 16 ((f * j + y) * (c.gx * f) + (f * i + x))))
      else []
    | none => []))

/-- The objects of the cycle's lists that pass COMP_CONF_MIN. -/
def compObjects (c : CompSnap) (rs : List Covered) : List CompObject :=
  (rs.flatMap (fun r =>
    match covFor c r.stream with
    | some w => if covKind w = 0 then (List.range (leAt r.content 0 4)).map (compObject r.content) else []
    | none => [])).filter (fun o => decide (c.confMin ≤ o.confidence))

/-! ### Zones (R442) -/

/-- inside(c, o, g): lengths are doubled, so that the cell centre is exact. -/
def inside (c : CompSnap) (o : CompObject) (g i j : Nat) : Bool :=
  let dx : Int := 2 * c.orgX + (2 * i + 1) * c.cell - 2 * o.x
  let dy : Int := 2 * c.orgY + (2 * j + 1) * c.cell - 2 * o.y
  let co := cos14 (o.heading / 64)
  let si := sin14 (o.heading / 64)
  decide ((dx * co + dy * si).natAbs ≤ 2 * (o.halfLen + g) * 16384 ∧
    (dy * co - dx * si).natAbs ≤ 2 * (o.halfWid + g) * 16384)

/-- The cells of a zone. -/
def zoneCells (w : Nat) : List (Nat × Nat) :=
  (List.range (fldN w 31 24 + 1 - fldN w 15 8)).flatMap (fun dj =>
    (List.range (fldN w 23 16 + 1 - fldN w 7 0)).map (fun di => (fldN w 7 0 + di, fldN w 15 8 + dj)))

/-- The centre of an object lies in a zone. -/
def centreIn (c : CompSnap) (w : Nat) (o : CompObject) : Bool :=
  let i := (o.x - c.orgX) / (c.cell : Int)
  let j := (o.y - c.orgY) / (c.cell : Int)
  decide (0 ≤ i ∧ 0 ≤ j) && inRect w i.toNat j.toNat

/-- Miss, phantom and unknown counts of a zone, of words `z`: `grid` is the sentry's cells. -/
def zoneCounts (c : CompSnap) (rs : List Covered) (grid : Nat → Nat → Nat) (z : List Nat) : Nat × Nat × Nat :=
  let rect := z.getD 0 0
  let g := fldN (z.getD 3 0) 15 0
  let objs := compObjects c rs
  let cells := zoneCells rect
  let miss := cells.countP (fun p => grid p.1 p.2 == 1 && mainOcc c rs p.1 p.2 != 1 &&
    !objs.any (fun o => inside c o g p.1 p.2))
  let ph := cells.countP (fun p => grid p.1 p.2 == 0 && mainOcc c rs p.1 p.2 == 1)
  let po := objs.countP (fun o => centreIn c rect o &&
    !cells.any (fun p => grid p.1 p.2 != 0 && inside c o g p.1 p.2))
  (miss, ph + po, cells.countP (fun p => decide (2 ≤ grid p.1 p.2)))

/-- The active zones of a snapshot, with their numbers. -/
def activeZones (c : CompSnap) : List (Nat × List Nat) :=
  ((List.range 32).map (fun z => (z, c.zones.getD z []))).filter (fun e => bitN (fldN (e.2.getD 2 0) 3 0) c.set)

/-- A zone fails. -/
def zoneFails (z : List Nat) (n : Nat × Nat × Nat) : Bool :=
  decide (fldN (z.getD 1 0) 15 0 < n.1 ∨ fldN (z.getD 1 0) 31 16 < n.2.1 ∨ fldN (z.getD 2 0) 31 16 < n.2.2)

/-! ### Enabling and the snapshot -/

/-- The grid, zones and entries meet Tables 15.10 to 15.12 (R454). -/
def compConfigOk (s : State) : Bool :=
  let gx := gridCols s
  let gy := gridRows s
  let zone (z : Nat) : Bool :=
    let r := rd s (A.ZONE_RECT z)
    rdF s (A.ZONE_CFG z) 3 0 == 0 ||
      decide (fldN r 7 0 ≤ fldN r 23 16 ∧ fldN r 23 16 < gx ∧ fldN r 15 8 ≤ fldN r 31 24 ∧ fldN r 31 24 < gy)
  let es := ((List.range 16).map (fun i => rd s (A.COV_CTL i))).filter (fun w => bitN w 0)
  decide (16 ≤ gx ∧ 16 ≤ gy ∧ 100 ≤ rdF s A.COMP_GRID_CELL 15 0 ∧ rdF s A.COMP_GRID_CELL 15 0 ≤ 10000) &&
    (List.range 32).all zone && es.all (fun w => covKind w != 3 && decide (0x400 ≤ covStream w)) &&
    decide ((es.map covStream).Nodup)

/-- A held result of a cycle that the comparator no longer judges, emptied (R439). -/
def notJudged (p : OutPod) : OutPod :=
  let t := parseTag (leAt p.body 0 8)
  { p with status := St.COMP_NOT_JUDGED, body := tagBytes { t with flags := t.flags ||| flVoid } ++ leBytes 2 St.COMP_NOT_JUDGED
      ++ (p.body.drop 10).take 2 ++ leBytes 4 0 ++ (p.body.drop 16).take 8 }

/-- The comparator is disabled: a cycle that awaits its verdict is judged no more (R439). -/
def compDisabled (s : State) : State :=
  match s.comp.cycle with
  | none => s
  | some c =>
    c.results.foldl (fun s r => sendResult s r.ring (notJudged r.pod)) { s with comp := { s.comp with cycle := none } }

/-- A write of COMP_CTL takes effect: K and W keep their values while the covered frame group is enabled, and K no
greater than W is required (R447, R454). An enable that is ignored leaves the write's other fields to take their
values (R10). -/
def applyCompCtl (s : State) (v : Nat) : State :=
  let old := rd s A.COMP_CTL
  let bad := bitN v 0 && !compConfigOk s
  let v := if bad then setFldN v 0 0 (fldN old 0 0) else v
  let s := if bad then raise s 0x2D8 8 else s
  let v1 := if fgOn s (coveredFg s) then setFldN v 15 4 (fldN old 15 4) else v
  let s := if bitN v 0 then s else compDisabled s
  if fldN v1 9 4 < fldN v1 15 10 then
    raise (wr s A.COMP_CTL (setFldN (v1 % 0x100000) 15 4 (fldN old 15 4))) 0x2D8 8
  else wr s A.COMP_CTL (v1 % 0x100000)

/-- The comparator is enabled. -/
def compOn (s : State) : Bool := rdB s A.COMP_CTL 0

/-- The snapshot at L(k) (R442). -/
def compSnap (s : State) : CompSnap :=
  { gx := gridCols s, gy := gridRows s, orgX := sgn 32 (rd s A.COMP_GRID_ORG_X), orgY := sgn 32 (rd s A.COMP_GRID_ORG_Y),
    cell := rdF s A.COMP_GRID_CELL 15 0, confMin := rdF s A.COMP_CONF_MIN 15 0, set := rdF s A.COMP_SET 1 0,
    zones := (List.range 32).map (fun z => [rd s (A.ZONE_RECT z), rd s (A.ZONE_TOL z), rd s (A.ZONE_CFG z), rd s (A.ZONE_MARGIN z)]),
    entries := (List.range 16).map (fun i => rd s (A.COV_CTL i)) }

/-! ### Judgement (R441, R443) -/

/-- J(k). -/
def cutOff (c : CompCycle) : Nat := c.deadline - 150000

/-- The covered results that count for the cycle. -/
def inTime (c : CompCycle) : List Covered := c.results.filter (fun r => decide (r.at_ ≤ cutOff c))

/-- The armed emitters whose result is not complete. -/
def missingArmed (c : CompCycle) : List ArmedEmitter :=
  c.armed.filter (fun e => !(inTime c).any (fun r => r.inst == e.inst && r.pod.operation == e.job))

/-- The streams of enabled entries that no result and no armed emitter carries. -/
def missingStreams (c : CompCycle) : List Nat :=
  ((covOn c.snap).map covStream).filter (fun x =>
    !(inTime c).any (fun r => r.stream == x) && !c.armed.any (fun e => e.stream == x))

/-- The sentry's grid of the cycle, if it is complete in time. -/
def cycleGrid (s : State) (c : CompCycle) : Option SentryGrid :=
  s.sentry.last.filter (fun g => decide (g.frame = c.frame ∧ g.at_ ≤ cutOff c))

/-- Every input is complete. -/
def inputsComplete (s : State) (c : CompCycle) : Bool :=
  (missingArmed c).isEmpty && (missingStreams c).isEmpty && (cycleGrid s c).isSome

/-- The verdicts that apply (Table 15.4), with the failing zones and the largest miss and phantom counts. -/
def judge (s : State) (c : CompCycle) (rail : Bool) : List Nat × Nat × Nat × Nat :=
  let rs := inTime c
  let good := rs.filter (fun r => !malformed c.snap r)
  let zs : List ((Nat × List Nat) × Nat × Nat × Nat) := match cycleGrid s c with
    | none => []
    | some _ =>
      let buf := (List.range (ceilDiv (c.snap.gx * c.snap.gy) 4)).map (fun i => smGet memDefault s.sntMem (gridBuffer c.frame + i))
      let cell (i j : Nat) : Nat := packedCell buf 0 (j * c.snap.gx + i)
      (activeZones c.snap).map (fun z => (z, zoneCounts c.snap good cell z.2))
  let failing := zs.filter (fun z => zoneFails z.1.2 z.2)
  let reasons := (if rail then [6] else [])
    ++ (match cycleGrid s c with | some g => if g.void then [4] else [] | none => [3])
    ++ (if (missingArmed c).isEmpty && (missingStreams c).isEmpty then [] else [2])
    ++ (if rs.any (malformed c.snap) then [5] else [])
    ++ (if failing.isEmpty then [] else [1])
  (reasons, (failing.map (fun z => 2 ^ z.1.1)).sum, (zs.map (fun z => z.2.1)).foldl max 0, (zs.map (fun z => z.2.2.1)).foldl max 0)

/-! ### Releases (R444, R445) -/

/-- A covered result with CONTESTED set in its tag. -/
def contestedPod (p : OutPod) : OutPod :=
  let t := parseTag (leAt p.body 0 8)
  { p with body := tagBytes { t with flags := t.flags ||| flContested } ++ p.body.drop 8 }

/-- An empty result pod of a covered stream that did not complete (R445). -/
def absentPod (c : CompCycle) (slot op stream cls : Nat) : OutPod :=
  let t : Tag := { frame := c.frame, stream := stream, settings := 0, cls := cls, flags := flVoid + flContested }
  { kind := 8, cls := cls, slot := slot, frame := c.frame, operation := op, status := St.CYCLE_DEADLINE,
    body := tagBytes t ++ leBytes 4 St.CYCLE_DEADLINE ++ leBytes 4 0 ++ leBytes 8 c.launch }

/-- The ring of the sentry grid pod. -/
def gridRing (s : State) : Nat := rdF s A.COMP_CTL 19 16

/-- The sentry grid pod (R444); the cells and flags of a grid that is not complete are open. -/
def gridPod (s : State) (c : CompCycle) (verdict zones : Nat) : OutPod × State :=
  let n := ceilDiv (c.snap.gx * c.snap.gy) 4
  let g := match cycleGrid s c with
    | some g => (g.flags, (List.range n).map (fun i => smGet memDefault s.sntMem (gridBuffer c.frame + i)), s)
    | none =>
      let a := drawFree s
      let b := drawFree a.2
      (a.1 % 128, leBytes n b.1, b.2)
  let t : Tag := { frame := c.frame, stream := rdF s A.SNT_CTL 27 16, settings := 0, cls := clsS, flags := g.1 ||| flContested }
  let content := leBytes 2 c.snap.gx ++ leBytes 2 c.snap.gy ++ leBytes 4 (unsgn 32 c.snap.orgX) ++ leBytes 4 (unsgn 32 c.snap.orgY)
    ++ leBytes 2 c.snap.cell ++ leBytes 1 verdict ++ leBytes 1 0 ++ leBytes 4 zones ++ zeros 12 ++ g.2.1
  ({ kind := 8, cls := clsS, frame := c.frame, operation := 0xFFFF,
     body := tagBytes t ++ leBytes 4 0 ++ leBytes 4 content.length ++ leBytes 8 c.launch ++ content }, g.2.2)

/-- The releases of a disagreement that forces no safe state (R444, R445). -/
def releaseContested (s : State) (c : CompCycle) (verdict zones : Nat) : State :=
  let s := (inTime c).foldl (fun s r => sendResult s r.ring (contestedPod r.pod)) s
  let s := if verdict = 2 then
      let s := (missingArmed c).foldl (fun s e => sendResult s e.ring (absentPod c e.slot e.job e.stream e.cls)) s
      (missingStreams c).foldl (fun s x => sendResult s (gridRing s) (absentPod c 0 0xFFFF x clsS)) s
    else s
  match gridPod s c verdict zones with
  | (p, s) => rrContested (raise (sendResult s (gridRing s) p) 0x2D8 1) c.frame

/-- W of the K-in-W rule. -/
def compW (s : State) : Nat := rdF s A.COMP_CTL 9 4 + 1
/-- K of the K-in-W rule. -/
def compK (s : State) : Nat := rdF s A.COMP_CTL 15 10 + 1

/-- Replace the comparator's cycle. -/
def setCycle (s : State) (c : CompCycle) : State := { s with comp := { s.comp with cycle := some c } }

/-- Record the verdict of a cycle (Table 15.10, selector 0x01). -/
def noteVerdict (s : State) (c : CompCycle) (v : Nat) (j : List Nat × Nat × Nat × Nat) : State :=
  let bad := v != 0
  let window := (bad :: s.comp.window).take (compW s)
  let s := { s with comp := { s.comp with window := window } }
  let s := setRec s 0x2D8 1
    [c.frame, v + (j.1.map (fun x => 2 ^ (2 + x))).sum, j.2.1, min j.2.2.1 65535 + 65536 * min j.2.2.2 65535,
     lo32 s.ridge, hi32 s.ridge]
  let s := wr s A.COMP_STATUS (window.countP (· == true) + 256 * v + 2048 * rdF s A.COMP_STATUS 11 11 + 65536 * (c.frame % 65536))
  let s := bump s A.COMP_CYCLES 1
  let s := if bad then bumpSat s A.COMP_DISAGREE 1 else s
  if v = 6 then
    report (raise (bumpSat s A.COMP_RAIL_FAULTS 1) 0x2D8 4) { source := 0x141, status := St.COMP_RAIL_FAULT }
  else s

/-- Judgement of the cycle ends (R441 to R447): no verdict in safe state, though a rail fault is reported (R438); otherwise the verdict, and either safe state
by the K-in-W rule or the releases. -/
def compVerdict (s : State) (rail : Bool) : State :=
  match s.comp.cycle with
  | none => s
  | some c =>
    if c.judged || !(c.cut || inputsComplete s c) then s
    else if c.safe || safeState s then
      let s := setCycle s { c with judged := true, results := [] }
      if rail then report (raise s 0x2D8 4) { source := 0x141, status := St.COMP_RAIL_FAULT } else s
    else
      let j := judge s c rail
      let v := j.1.headD 0
      let s := noteVerdict s c v j
      if v = 0 then
        (inTime c).foldl (fun s r => sendResult s r.ring r.pod) (setCycle s { c with judged := true, results := [] })
      else if compK s ≤ s.comp.window.countP (· == true) then
        let s := setCycle s { c with judged := true, results := inTime c }
        let s := wrF (raise (bumpSat s A.COMP_SAFE_COUNT 1) 0x2D8 2) A.COMP_STATUS 11 11 1
        collect s { source := 0x140, status := St.COMP_SAFE, detected := s.ridge }
      else releaseContested (setCycle s { c with judged := true, results := [] }) c v j.2.1

/-- The judgement cut-off of the comparator's cycle (R441, Table 15.12). -/
def compCut (s : State) : State :=
  match s.comp.cycle with
  | none => s
  | some c =>
    if c.cut || decide (s.ridge < cutOff c) then s
    else
      let s := setCycle s { c with cut := true }
      (List.range 16).foldl (fun s i =>
        let w := c.snap.entries.getD i 0
        if bitN w 0 then
          wr s (A.COV_LAST i) (b2n (c.seen.contains (covStream w)) + 65536 * (c.frame % 65536))
        else s) s

/-- The launch of cycle `k` of the covered frame group: the sentry's run falls due, and the comparator takes its
snapshot (R435, R442). -/
def coveredLaunch (s : State) (k l : Nat) : State :=
  let d := l + fgDeadline s (coveredFg s)
  let s := if sentryOn s then
      { s with sentry := { s.sentry with due := some (k, l), run := none, cutAt := some (k, d - 150000) } }
    else s
  let c : CompCycle := { frame := k, launch := l, deadline := d, snap := compSnap s, safe := safeState s }
  { s with comp := { s.comp with cycle := if compOn s then some c else none } }

/-! ### Commands -/

/-- SENTRY_ENABLE: a write of SNT_CTL. -/
def execSentryEnable (agent : Agent) (v : Word) (s : State) : Host.Outcome State Fault Refusal :=
  whenOn (fun s => namedWrite s agent A.SNT_CTL v.toNat (fun s => applySntCtl s v.toNat)) s

/-- SENTRY_RUN_START. -/
def execSentryRunStart (s : State) : Host.Outcome State Fault Refusal := whenOn sentryStart s

/-- SENTRY_RUN_END: the run ends with the cells its program finds, having met `corrected` correctable words and, where
`uncorrectable`, one that is not. -/
def execSentryRunEnd (cells : List (BitVec 2)) (corrected : Nat) (uncorrectable : Bool) (s : State) :
    Host.Outcome State Fault Refusal :=
  whenOn (fun s => sentryEnd s cells corrected uncorrectable) s

/-- SNT_INJECT: a guarded write arms the sentry's injection. -/
def execSntInject (agent : Agent) (v : Word) (s : State) : Host.Outcome State Fault Refusal :=
  whenOn (fun s => namedWrite s agent A.SNT_INJECT v.toNat (fun s => applyPlain s A.SNT_INJECT v.toNat)) s

/-- COMP_ENABLE: a write of COMP_CTL. -/
def execCompEnable (agent : Agent) (v : Word) (s : State) : Host.Outcome State Fault Refusal :=
  whenOn (fun s => namedWrite s agent A.COMP_CTL v.toNat (fun s => applyCompCtl s v.toNat)) s

/-- JUDGEMENT_CUT_OFF: J(k) of the covered frame group. -/
def execJudgementCutOff (s : State) : Host.Outcome State Fault Refusal := whenOn (fun s => compCut (sentryCut s)) s

/-- COMP_VERDICT: judgement ends; `rail` tells that a code was not a complementary pair. -/
def execCompVerdict (rail : Bool) (s : State) : Host.Outcome State Fault Refusal := whenOn (fun s => compVerdict s rail) s

end Sys2Proof.Machine
end

