-- ==== Sys2Proof/Machine/PointPrep.lean ====
section
/-!
DEFINITION. Point preparation: transform, table, output and flags (R151 to R156).
-/

namespace Sys2Proof.Machine

/-- The next window to form: the launch count and frame of the first cycle after the last one formed (R151). -/
def ppNext (s : State) : Option (Nat × Nat) :=
  let g := rdF s A.PP_CTL 5 3
  let x := fgOf s g
  if fgOn s g = false then none
  else
    match x.cycle, s.pp.last with
    | some c, last => (c :: x.replay).find? (fun l => match last with | some m => decide (m < l.1) | none => true)
    | none, none => some (gridCycle s g x.first)
    | none, some m =>
      if m < fgStart s g ∨ fgPeriod s g = 0 then some (gridCycle s g x.first)
      else some (gridCycle s g (max x.first ((m - fgStart s g) / fgPeriod s g + 1)))

/-- A point in the vehicle frame (R152). -/
structure CellPoint where
  p : List Fp
  /-- Cell index, and the cell coordinates. -/
  cell : Nat
  ijk : List Nat
  src : Point
  deriving DecidableEq, Repr

/-- An FP32 word of source `n`'s extrinsics. -/
def extA (s : State) (n k : Nat) : Fp := f32v (rd s (A.PP_EXT_A n k))
/-- A translation word of source `n`. -/
def extT (s : State) (n k : Nat) : Fp := f32v (rd s (A.PP_EXT_T n k))

/-- A point transformed: p = A (x, y, z) + t (R152). -/
def ppTransform (s : State) (q : Point) : List Fp :=
  (List.range 3).map (fun r =>
    let m (k : Nat) : Fp := extA s q.port (3 * r + k)
    pAdd (pAdd (pAdd (pMul (m 0) (fpInt f32 q.x)) (pMul (m 1) (fpInt f32 q.y))) (pMul (m 2) (fpInt f32 q.z))) (extT s q.port r))

/-- Cells along axis `r`. -/
def ppN (s : State) (r : Nat) : Nat :=
  let w := rd s A.PP_GRID_N
  if r = 0 then fldN w 10 0 + 1 else if r = 1 then fldN w 21 11 + 1 else fldN w 27 22 + 1

/-- The cell index of a coordinate along axis `r`, if it lies in the grid (R152). -/
def ppIndex (s : State) (r : Nat) (v : Fp) : Option Nat :=
  match fpDiv f32 false (fpSub f32 false v (f32v (rd s (A.PP_GRID_ORG r)))) (f32v (rd s (A.PP_GRID_CELL r))) with
  | .fin n m q =>
    let i := frFloor (fpVal (.fin n m q))
    if 0 ≤ i ∧ i < ppN s r then some i.toNat else none
  | _ => none

/-- Place a point in the grid. -/
def ppPlace (s : State) (q : Point) : Option CellPoint :=
  let p := ppTransform s q
  match ppIndex s 0 (p.getD 0 .nan), ppIndex s 1 (p.getD 1 .nan), ppIndex s 2 (p.getD 2 .nan) with
  | some i, some j, some k => some { p := p, cell := k * ppN s 1 * ppN s 0 + j * ppN s 0 + i, ijk := [i, j, k], src := q }
  | _, _, _ => none

/-- The eight features of a point in FP32 (R152); `stop` is the window's end. -/
def ppFeatures (s : State) (stop : Int) (c : CellPoint) : List Fp :=
  let half (r : Nat) : Fp :=
    let centre := pAdd (f32v (rd s (A.PP_GRID_ORG r)))
      (pMul (fpRound f32 false { n := 2 * c.ijk.getD r 0 + 1, d := 2 }) (f32v (rd s (A.PP_GRID_CELL r))))
    fpSub f32 false (c.p.getD r .nan) centre
  c.p ++ [fpDiv f32 false (fpInt f32 c.src.intensity) (fpInt f32 255), half 0, half 1,
    fpDiv f32 false (fpInt f32 (stop - c.src.stamp)) (fpInt f32 1000000000), fpInt f32 c.src.ret]

/-- A table entry: its cell and its points in order. -/
structure PpEntry where
  cell : Nat
  pts : List CellPoint
  deriving DecidableEq, Repr

/-- Put a point into a table of at most `cap` entries: the table and the points the full table lost. -/
def ppInsert (cap : Nat) (t : List PpEntry × Nat) (c : CellPoint) : List PpEntry × Nat :=
  if t.1.any (fun e => e.cell == c.cell) then
    (t.1.map (fun e => if e.cell = c.cell then { e with pts := e.pts ++ [c] } else e), t.2)
  else if t.1.length < cap then (t.1 ++ [{ cell := c.cell, pts := [c] }], t.2)
  else (t.1, t.2 + 1)

/-- The key order of the sorted path (R154). -/
def ppKeyLt (a b : CellPoint) : Bool :=
  decide (a.cell < b.cell) || (a.cell == b.cell &&
    (decide (a.src.stamp < b.src.stamp) || (a.src.stamp == b.src.stamp &&
      (decide (a.src.port < b.src.port) || (a.src.port == b.src.port && decide (a.src.idx < b.src.idx))))))

/-- A BF16 feature; the spec gives none for a value that is no number, but it is finite (R134, R152). -/
def ppOut (x : Fp) (args : List Nat) : Nat :=
  match x with
  | .nan => finiteCode 0x7F80 0x8000 (Config.openResult 4 args)
  | _ => bf16out x

/-- The feature bytes of an entry (R153, R155). -/
def ppEntryBytes (s : State) (stop : Int) (voxel : Bool) (cap : Nat) (e : PpEntry) : List Byte :=
  if voxel then
    (List.range 8).flatMap (fun k =>
      let fs := e.pts.map (fun c => (ppFeatures s stop c).getD k .nan)
      leBytes 2 (ppOut (fpDiv f32 false (fs.foldl pAdd fpZero) (fpInt f32 e.pts.length)) [e.cell, k]))
  else
    padTo (16 * cap) ((e.pts.take cap).flatMap (fun c =>
      (ppFeatures s stop c).flatMap (fun f => leBytes 2 (ppOut f [e.cell, c.src.idx]))))

/-- A list of bytes padded to a 64-byte boundary. -/
def pad64 (l : List Byte) : List Byte := padTo (roundUp l.length 64) l

/-- Formation completes (R153 to R156). -/
def ppFinish (s : State) (l frame : Nat) (sorted : Bool) : State :=
  let w := ppWindow s l
  let src := rd s A.PP_SOURCES
  let sel := s.pp.points.filter (fun p => decide (w.1 ≤ p.stamp ∧ (p.stamp : Int) < w.2) && bitN src p.port)
  let placed := sel.filterMap (ppPlace s)
  let order := if sorted then sortBy ppKeyLt placed else placed
  let cap := rdF s A.PP_CAP 15 0 + 1
  let per := rdF s A.PP_CAP 21 16 + 1
  let voxel := rdB s A.PP_CTL 1
  let t := order.foldl (ppInsert cap) ([], 0)
  let held (e : PpEntry) : Nat := if voxel then e.pts.length else min per e.pts.length
  let kept := (t.1.map held).sum
  let outGrid := sel.length - placed.length
  let dropped := outGrid + s.pp.late + (placed.length - kept)
  let lost := s.pp.lost.filter (fun p => decide (w.1 ≤ p.2 ∧ (p.2 : Int) < w.2) && bitN src p.1)
  let silent := (portsOf src).filter (fun n => sel.all (fun p => p.port != n) && lost.all (fun p => p.1 != n))
  let void := sel.isEmpty && lost.isEmpty
  let cls := rdF s A.PP_CTL 7 6
  let fl := (if s.pp.overflow || decide (0 < t.2) then flCut else 0) ||| (if silent.isEmpty then 0 else flPad)
    ||| (if void then flVoid else 0)
  let tag : Tag := { frame := frame, stream := rdF s A.PP_CTL 27 16, settings := 0, cls := cls, flags := fl }
  let used := t.1.length
  let head := padTo 64 (tagBytes tag ++ leBytes 4 used ++ leBytes 4 sel.length ++ leBytes 4 kept ++ leBytes 4 dropped)
  let cells := pad64 (t.1.flatMap (fun e => leBytes 4 e.cell) ++ List.replicate (4 * (cap - used)) 0xFF#8)
  let counts := pad64 (padTo (2 * cap) (t.1.flatMap (fun e => leBytes 2 (min (held e) 0xFFFF))))
  let feats := padTo (cap * (if voxel then 16 else 16 * per)) (t.1.flatMap (ppEntryBytes s w.2 voxel per))
  let lostPts := s.pp.overflow
  let s := (memWrite s .pointPrep (rdWide s A.PP_OUT_BASE_LO) (head ++ cells ++ counts ++ feats) cls).2
  let s := bumpSat (wr (wr s A.PP_LAST_POINTS sel.length) A.PP_LAST_TIME ((s.ridge - s.pp.startedAt) / 1000)) A.PP_DROPPED outGrid
  let next := ppWindow s (l + fgPeriod s (rdF s A.PP_CTL 5 3))
  let left := s.pp.points.filter (fun p => decide (next.1 ≤ p.stamp))
  let lostLeft := s.pp.lost.filter (fun p => decide (next.1 ≤ (p.2 : Int)))
  let s := { s with pp := { s.pp with forming := none, late := 0, overflow := false, points := left, lost := lostLeft } }
  let s := pegInc s (rdF s A.PP_OUT_PEG 15 0) .count 1 (some frame) cls
  let tell (s : State) (b : Bool) (flag st : Nat) : State :=
    if b then report (raise s 0x0A0 flag) { source := 0x0C0, status := st, cls := cls } else s
  let s := if lostPts then report s { source := 0x0C0, status := St.POINTS_OVERFLOW, cls := cls } else s
  let s := tell s (decide (0 < t.2)) 4 St.PILLARS_OVERFLOW
  let s := tell s (!silent.isEmpty) 8 St.SOURCE_SILENT
  raise (wrF s A.PP_STATUS 0 0 0) 0x0A0 1

/-- PP_FORMATION_START: the end of the next window plus the guard is reached (R151, R154). -/
def execPpFormationStart (s : State) : Host.Outcome State Fault Refusal :=
  whenOn (fun s =>
    match ppNext s, s.pp.forming with
    | some c, none =>
      if rdB s A.PP_CTL 0 && unitOn s 0x0A0 && decide ((ppWindow s c.1).2 + 1000 * (rdF s A.PP_GUARD 15 0 : Int) ≤ s.ridge) then
        let sorted := strict s || rdB s A.PP_CTL 2
        wr { s with pp := { s.pp with forming := some (c.1, c.2, sorted), startedAt := s.ridge, last := some c.1 } }
          A.PP_STATUS (1 + 2 * b2n sorted)
      else s
    | _, _ => s) s

/-- The bytes of point preparation's output (Table 5.8). -/
def ppOutBytes (s : State) : Nat :=
  let cap := rdF s A.PP_CAP 15 0 + 1
  64 + roundUp (4 * cap) 64 + roundUp (2 * cap) 64
    + cap * (if rdB s A.PP_CTL 1 then 16 else 16 * (rdF s A.PP_CAP 21 16 + 1))

/-- PP_FORMATION_DONE: the formation in progress completes (R155), once its output is out of the way of a zero-fill (R380). -/
def execPpFormationDone (s : State) : Host.Outcome State Fault Refusal :=
  whenOn (fun s =>
    match s.pp.forming with
    | some f => if encWaits s (rdWide s A.PP_OUT_BASE_LO) (ppOutBytes s) then s else ppFinish s f.1 f.2.1 f.2.2
    | none => s) s

/-- Point preparation's whole configuration meets Table 5.9 (R130). -/
def ppConfigOk (s : State) : Bool :=
  let voxel := rdB s A.PP_CTL 1
  let out := ppOutBytes s
  let peg := rdF s A.PP_OUT_PEG 15 0
  let len := rdF s A.PP_WIN_LEN 17 0
  let guard_ := rdF s A.PP_GUARD 15 0
  decide (1000 ≤ len ∧ len ≤ 200000 ∧ 10 ≤ guard_ ∧ guard_ ≤ 10000) && (voxel || ppN s 2 == 1) &&
    decide (rdF s A.PP_CTL 7 6 ≠ 0 ∧ 0x400 ≤ rdF s A.PP_CTL 27 16) &&
    (List.range 3).all (fun r => fpLt fpZero (f32v (rd s (A.PP_GRID_CELL r)))) &&
    decide (1 ≤ rdF s A.PP_BUF_SIZE 6 0 ∧ rdF s A.PP_BUF_SIZE 6 0 ≤ 64) &&
    decide (rd s A.PP_BUF_BASE_LO % 64 = 0 ∧ rd s A.PP_OUT_BASE_LO % 64 = 0) &&
    inDram (rdWide s A.PP_BUF_BASE_LO) (0x100000 * rdF s A.PP_BUF_SIZE 6 0) && inMemory (rdWide s A.PP_OUT_BASE_LO) out &&
    refWellFormed peg && refNames peg

end Sys2Proof.Machine
end

