-- ==== Sys2Proof/Machine/UpdateApply.lean ====
section
/-!
DEFINITION. What an application of update groups does beyond copying: the checks of the blocks whose configuration
changes, and the work that a changed enable stops or lets start (R68, R83, R106, R130).
-/

namespace Sys2Proof.Machine

/-- Live registers that differ between two states. -/
def changedAddrs (s0 s1 : State) : List Nat :=
  (((s0.rf.live ++ s1.rf.live).map (·.1)).dedup).filter (fun a => rd s0 a != rd s1 a)

/-- Put registers back to what they were. -/
def restoreRegs (s0 s : State) (l : List Nat) : State := l.foldl (fun s a => wr s a (rd s0 a)) s

/-- The configuration words that belong to slot `i` of pipe `q` alone. -/
def slotOwn (q i : Nat) : List Nat := (slotAddrs q i).take 60

/-- A slot whose configuration an application changed: kept if the whole of it meets its constraints (R130). -/
def slotApplied (s0 s : State) (q i : Nat) : State :=
  if slotConfigOk s (slotLive s q i) then wrF s (A.SL_STATUS q i) 1 1 0
  else raise (wrF (restoreRegs s0 s (slotOwn q i)) (A.SL_STATUS q i) 1 1 1) (0x080 + 2 * q) 0x10

/-- Point preparation's configuration, changed by an application: kept if the whole of it meets Table 5.9 (R130). -/
def ppApplied (s0 s : State) (l : List Nat) : State :=
  if ppConfigOk s then s
  else raise (restoreRegs s0 s (l.filter (fun a => a / 0x1000 = 0x0A0 ∨ a / 0x1000 = 0x0A1))) 0x0A0 0x20

/-- The engine of a page, as cluster and engine. -/
def engineOfPage (p : Nat) : Option (Nat × Nat) :=
  if 0x100 ≤ p ∧ p < 0x200 ∧ 9 ≤ (p - 0x100) % 0x40 ∧ (p - 0x100) % 0x40 ≤ 0xC then
    some ((p - 0x100) / 0x40, (p - 0x100) % 0x40 - 9)
  else none

/-- The words that the configurations of all slots share meet their constraints (R141, Table 5.8). -/
def statOk (s : State) : Bool :=
  decide (rdF s A.STAT_LUMA 9 0 + rdF s A.STAT_LUMA 19 10 + rdF s A.STAT_LUMA 29 20 ≤ 1024) && decide (rdF s A.STAT_CLASS 1 0 ≠ 0)

/-- What follows when the live copies have changed from those of `s0` by an application on some pages (R106, R130, and the units'
enables of R68). -/
def appliedHooks (s0 s : State) (pages : Nat → Bool) : State :=
  let l := changedAddrs s0 s
  let stat := l.contains A.STAT_LUMA || l.contains A.STAT_CLASS
  let s := (List.range 512).foldl (fun s st =>
    if l.contains (A.ST_CTL (stPage st) (stEntry st)) then streamDisable s st else s) s
  let s := (List.range 64).foldl (fun s k =>
    let q := k / 4
    let again := rdB s (A.SL_STATUS q (k % 4)) 1 && pages (0x081 + 2 * q)
    if (slotOwn q (k % 4)).any l.contains || (stat && rdB s (A.SL_CTL q (k % 4)) 0) || again then
      slotApplied s0 s q (k % 4) else s) s
  let s := if stat && !statOk s then restoreRegs s0 s [A.STAT_LUMA, A.STAT_CLASS] else s
  let s := if l.any (fun a => (a / 0x1000 = 0x0A0 ∨ a / 0x1000 = 0x0A1) ∧ 0x100 ≤ a % 0x1000) then ppApplied s0 s l else s
  l.foldl (fun s a =>
    match engineOfPage (a / 0x1000) with
    | some (c, e) => if a % 0x1000 = 0x008 then engNext s c e else s
    | none => s) s

/-- An armed group applies at ridge count `t` (R83). -/
def groupApplies (s : State) (g t : Nat) : State := 
  appliedHooks s (applyGroup s g t) (fun p => pageGroup s p == g && holdLevel s (pageDomain p) == 0)

/-- Pages of a domain that wakes apply what they held back (R83). -/
def deferredApplies (s : State) (d : Nat) : State := 
  appliedHooks s (applyDeferred s d) (fun p => s.rf.deferred.contains p && pageDomain p == d)

/-- The groups that a launch of frame group `fg` at count `l` applies (R83, R345). -/
def launchGroups (s : State) (fg l : Nat) : State :=
  (List.range 16).foldl (fun s g =>
    let x := groupOf s g
    if x.armed && x.boundary == some fg && decide (x.due ≤ l) then groupApplies s g l else s) s

/-- UPDATE_GROUP_APPLY: the time of an armed group that waits for no launch has come. -/
def execUpdateGroupApply (g : Fin 16) (s : State) : Host.Outcome State Fault Refusal :=
  whenOn (fun s =>
    let x := groupOf s g.val
    if x.armed && x.boundary.isNone && decide (x.due ≤ s.ridge) then groupApplies s g.val x.due else s) s

end Sys2Proof.Machine
end

