-- ==== Sys2Proof/Machine/Launch.lean ====
section
/-!
DEFINITION. Frame groups: enable and disable, launches and deadlines; the STRICT bit; and the recorder's modes (R344 to
R347, R353 to R358).
-/

namespace Sys2Proof.Machine

/-! ### Deadlines (R347) -/

/-- CYCLE_INCOMPLETE for an instance whose cycle has `n` jobs cancelled or discarded. -/
def sendIncomplete (s : State) (g : Nat) (x : Instance) (n : Nat) : State :=
  sendEvent s Ev.CYCLE_INCOMPLETE x.tagCls x.frame x.seq St.CYCLE_DEADLINE
    (leBytes 1 g ++ zeros 3 ++ leBytes 4 x.frame ++ leBytes 2 x.slot ++ leBytes 2 n ++ zeros 4)

/-- Jobs of an instance that have not completed. -/
def unfinished (x : Instance) : Nat := x.jobs.countP (fun j => j.stage != .done)

/-- The deadline of the cycle of frame group `g` launched at `l`: its instances end, and what of them has not completed
is cancelled or will be discarded, with the jobs that go on of its instances that ended before (R347). -/
def cycleDeadline (s : State) (g l : Nat) : State :=
  let f := fgOf s g
  let s := setFg s g { f with running := f.running.filter (fun c => c.1 != l) }
  let mine := s.insts.filter (fun x => match x.cycle with | some c => c.1 == g && c.2.1 == l | none => false)
  let s := (mine.filter (fun x => x.life != .active)).foldl (fun s x => sweepInst (instLeave s x .cut) x.id) s
  let xs := mine.filter (fun x => x.life == .active)
  if xs.isEmpty then s
  else
    let s := raise (raise (bumpSat s (A.FG_MISSED g) 1) 0x003 2) 0x0E0 4
    xs.foldl (fun s x =>
      match s.insts.find? (fun y => y.id == x.id) with
      | none => s
      | some x =>
        let s := sendIncomplete s g x (unfinished x)
        let s := if x.cls = clsS then
            report s { source := 0x102, status := St.CYCLE_DEADLINE, cls := clsS, echo := x.seq }
          else s
        endInst s x St.CYCLE_DEADLINE .cut) s

/-- The deadlines of a frame group that have been reached at ridge count `t`, oldest first. -/
def deadlinesUpTo (s : State) (g t : Nat) : State :=
  ((fgOf s g).running.filter (fun c => decide (c.2.2 ≤ t))).foldl (fun s c => cycleDeadline s g c.1) s

/-! ### Instances -/

/-- A new instance of a graph. -/
def newInstance (s : State) (slot : Nat) (g : Graph) (cause : StartCause) (frame tagCls seq entry : Nat)
    (cycle : Option (Nat × Nat × Nat)) : Instance :=
  { id := s.nextId, slot := slot, addr := g.addr, frame := frame, cls := g.cls, tagCls := tagCls, cause := cause, seq := seq,
    entry := entry, cycle := cycle, jobs := g.jobs.map (fun e => { entry := e }) }

/-- Add an instance. -/
def addInstance (s : State) (x : Instance) : State :=
  dspRegs { s with insts := s.insts ++ [x], nextId := s.nextId + 1 }

/-- Arm the instance of every cycle graph bound to a frame group (R345). -/
def armCycle (s : State) (g l k : Nat) : State :=
  s.graphs.foldl (fun s e =>
    match e.2 with
    | some gr =>
      if gr.bound && gr.fg == g then
        addInstance s (newInstance s e.1 gr .cycle k gr.cls 0 0 (some (g, l, l + fgDeadline s g)))
      else s
    | none => s) s

/-- The covered result emitters of the instances armed for a launch. -/
def armedEmitters (s : State) (g l : Nat) : List ArmedEmitter :=
  (s.insts.filter (fun x => match x.cycle with | some c => c.1 == g && c.2.1 == l | none => false)).flatMap (fun x =>
    (x.jobs.filter (fun j => j.entry.unit == 6 && j.entry.covered)).map (fun j =>
      { inst := x.id, slot := x.slot, job := j.entry.index, stream := j.entry.stream, ring := j.entry.ring, cls := x.tagCls }))

/-! ### Enable and disable (R344, R358, R367, R416) -/

/-- The device is the ridge-time master (R416). -/
def ridgeMaster (s : State) : Bool := rdF s A.GL_SYNC_CFG 7 0 == ringId s

/-- Ridge time is locked: always, on the master (R416). -/
def ridgeLocked (s : State) : Bool := ridgeMaster s || rdB s A.RIDGE_STATUS 1

/-- An entry of the record ring at a unit: stamp, kind, source, auxiliary field and payload (R355); none where its check
sequence fails. -/
def rrEntry (s : State) (pos : Nat) : Option (Nat × Nat × Nat × Nat × List Byte) :=
  let get (off n : Nat) : List Byte :=
    (List.range n).map (fun i => memByte s (rrBase s + (32 * pos + off + i) % (32 * rrUnits s)))
  let h := get 0 32
  let n := leAt h 12 4
  if 32 * rrUnits s < 32 + n then none
  else
    let payload := get 32 n
    if crc32c (h.take 28 ++ payload) = leAt h 28 4 then
      some (leAt h 0 8, leAt h 8 1, leAt h 9 1, leAt h 16 8, payload)
    else none

/-- The units of an entry with `n` payload bytes. -/
def rrLen (n : Nat) : Nat := 1 + ceilDiv n 32

/-- The launch markers from a unit to RR_HEAD, as stamp, frame group and frame. -/
def rrMarkers : Nat → State → Nat → List (Nat × Nat × Nat)
  | 0, _, _ => []
  | fuel + 1, s, pos =>
    match rrEntry s pos with
    | none => []
    | some (t, kind, src, aux, payload) =>
      let next := (pos + rrLen payload.length) % rrUnits s
      let rest := if next = rd s A.RR_HEAD then [] else rrMarkers fuel s next
      if kind = 5 then (t, src, aux % 2 ^ 32) :: rest else rest

/-- The recorded launches of a frame group, Δ added, no earlier than count `t`. -/
def recordedLaunches (s : State) (delta : Int) (g t : Nat) : List (Nat × Nat) :=
  (rrMarkers (rrUnits s) s (rd s A.RR_START)).filterMap (fun m =>
    let at' := (m.1 : Int) + delta
    if m.2.1 = g ∧ (t : Int) ≤ at' then some (at'.toNat, m.2.2) else none)

/-- A frame group follows the recorded launches no earlier than count `t` (R358). -/
def replayGroup (s : State) (delta : Int) (g t : Nat) : State :=
  let f := fgOf s g
  let f1 : FgCycle := match recordedLaunches s delta g t with
    | c :: rest => { running := f.running, cycle := some c, replay := rest }
    | [] => { running := f.running }
  wr (setFg s g f1) (A.FG_FRAME g) (match f1.cycle with | some c => c.2 | none => 0)

/-- The enable of the marked frame group starts the replay: Δ makes the marked launch recur 1 ms later (R358). -/
def replayStart (s : State) : State :=
  match rrEntry s (rd s A.RR_START) with
  | some (t, _, _, _, _) =>
    let delta : Int := (s.ridge : Int) + 1000000 - (t : Int)
    let s := { s with rr := { s.rr with delta := some delta } }
    (List.range 8).foldl (fun s g => if fgOn s g then replayGroup s delta g (s.ridge + 1000000) else s) s
  | none => s

/-- The frame group that the launch marker at RR_START names. -/
def markedFg (s : State) : Option Nat := (rrEntry s (rd s A.RR_START)).map (fun e => e.2.2.1)

/-- An enable of a frame group (R344, R416, R447). -/
def fgEnable (s : State) (g : Nat) : State :=
  if fgOn s g then s
  else if !ridgeLocked s then raise s 0x003 1
  else
    let s := wr s (A.FG_CTL g) 1
    let p := fgPeriod s g
    let n := ceilDiv (s.ridge + 1000000 - fgStart s g) p
    let s := setFg s g { first := n, cur := n, running := (fgOf s g).running }
    let s := wr s (A.FG_FRAME g) (gridCycle s g n).2
    let s := if g = coveredFg s then
        wrF { s with comp := { s.comp with window := [] } } A.COMP_STATUS 6 0 0
      else s
    if replaying s then
      match s.rr.delta with
      | some d => replayGroup s d g (s.ridge + 1000000)
      | none => if markedFg s = some g then replayStart s else s
    else s

/-- A replay is over once no frame group is enabled after its last entry: RR_DONE, and the recorder is off (R358). -/
def replayDone (s : State) : State :=
  if replaying s && s.rr.ended && (List.range 8).all (fun g => !fgOn s g) then
    let s := wrF { s with rr := { s.rr with delta := none, ended := false, voids := [] } } A.RR_CTL 1 0 0
    sendEvent (raise s 0x002 8) Ev.RR_DONE 0 0 0 0 []
  else s

/-- A frame group is disabled: no further cycle launches, and a launched one runs on (R83, R344, R367, R471). -/
def fgDisable (s : State) (g : Nat) : State :=
  if fgOn s g then
    let s := wr (wr s (A.FG_CTL g) 0) (A.FG_FRAME g) 0
    let s := setFg s g { running := (fgOf s g).running }
    exitAtDisable (replayDone (releaseBoundary s g s.ridge))
  else s

/-- A write of FG_CTL takes effect. -/
def applyFgCtl (s : State) (g v : Nat) : State := if bitN v 0 then fgEnable s g else fgDisable s g

/-! ### Launches (R345, R355, R357, R435) -/

/-- The next launch of an enabled frame group: L(k) and k (R344, R358). -/
def nextLaunch (s : State) (g : Nat) : Option (Nat × Nat) :=
  let f := fgOf s g
  if fgOn s g = false then none
  else if s.rr.delta.isSome then
    if f.launched then f.replay.head? else f.cycle
  else some (gridCycle s g (if f.launched then f.cur + 1 else f.cur))

/-- The frame group's cycle moves to the launch at `l` of frame `k`. -/
def advanceCycle (s : State) (g l k : Nat) : State :=
  let f := fgOf s g
  let running := f.running ++ [(l, k, l + fgDeadline s g)]
  let f := if s.rr.delta.isSome then
      { f with cycle := some (l, k), replay := if f.launched then f.replay.drop 1 else f.replay, launched := true,
               running := running }
    else { f with cur := if f.launched then f.cur + 1 else f.cur, launched := true, running := running }
  wr (setFg s g f) (A.FG_FRAME g) k

/-- What the launch of a cycle of the covered frame group asks of the sentry and the comparator. -/
def launchCovered (s : State) (g l k : Nat) : State :=
  if g ≠ coveredFg s then s
  else
    let s := coveredLaunch s k l
    match s.comp.cycle with
    | some c => setCycle s { c with armed := armedEmitters s g l }
    | none => s

/-- The launch of cycle `k` of frame group `g` at L(k) = `l`, in the order of R345. -/
def launch (s : State) (g l k : Nat) : State :=
  let s := launchGroups (deadlinesUpTo s g l) g l
  let s := rearmPegs (latchWaits s) g k
  let s := advanceCycle s g l k
  let s := rrLaunched (record s false 5 g k [] (stamp := l)) g
  let s := clockAtLaunch (lanternLaunched (exitAtLaunch s g k) g) g
  launchCovered (armCycle s g l k) g l k

/-- In a replay whose entries are over, a frame group's next launch disables it (R358): its last recorded launch plus
its period, and at once where it has launched nothing. -/
def replayStops (s : State) (g : Nat) : Bool :=
  s.rr.ended && fgOn s g &&
    (match (fgOf s g).cycle with
     | some c => (fgOf s g).launched && decide (c.1 + fgPeriod s g ≤ s.ridge)
     | none => true)

/-- A frame group launches if its launch count has come. -/
def cycleLaunch (s : State) (g : Nat) : State :=
  match nextLaunch s g with
  | some (l, k) => if l ≤ s.ridge then launch s g l k else s
  | none => if replayStops s g then fgDisable s g else s

/-! ### STRICT and the recorder's modes (R353, R354, R357, R358) -/

/-- A write of DET_CTL takes effect, or is refused (R353). -/
def applyDetCtl (s : State) (v : Nat) : State :=
  let busy := (List.range 8).any (fgOn s) || anyRuns s
  if bitN v 0 = rdB s A.DET_CTL 0 then s
  else if busy then raise (wrF s A.DET_STATUS 1 1 1) 0x002 1
  else wr (wr s A.DET_CTL (b2n (bitN v 0))) A.DET_STATUS (b2n (bitN v 0))

/-- The fields of RR_CTL other than its mode. -/
def rrFields (v : Nat) : Nat := v &&& 0xFF7C

/-- Leave a replay: the frame groups return to their launch grid. -/
def leaveReplay (s : State) : State :=
  if s.rr.delta.isNone then { s with rr := { s.rr with ended := false, voids := [] } }
  else
    let s := { s with rr := { s.rr with delta := none, ended := false, voids := [] } }
    (List.range 8).foldl (fun s g =>
      if fgOn s g then
        let n := ceilDiv (s.ridge + 1000000 - fgStart s g) (fgPeriod s g)
        wr (setFg s g { first := n, cur := n, running := (fgOf s g).running }) (A.FG_FRAME g) (gridCycle s g n).2
      else s) s

/-- Recording starts, on an empty ring (R355). -/
def rrRecord (s : State) (v : Nat) : State :=
  let was := rrMode s
  let s := wr (leaveReplay s) A.RR_CTL (rrFields v + 1)
  if was = 1 then s
  else wr (wr { s with rr := {} } A.RR_HEAD 0) A.RR_OLDEST 0

/-- A write of mode replay (R358). -/
def rrReplay (s : State) (v : Nat) : State :=
  let marked := match rrEntry s (rd s A.RR_START) with
    | some e => e.2.1 == 5
    | none => false
  if strict s && (List.range 8).all (fun g => !fgOn s g) && marked && decide (rd s A.RR_START < rrUnits s) then
    wr { s with rr := { s.rr with delta := none, pos := rd s A.RR_START, ended := false, voids := [], post := none } }
      A.RR_CTL (rrFields v + 2)
  else raise s 0x002 0x20

/-- The recorder is switched off. -/
def rrOff (s : State) (v : Nat) : State := wr (leaveReplay s) A.RR_CTL (rrFields v)

/-- A write of RR_CTL takes effect by its mode; the reserved mode keeps the one in force (R10). -/
def applyRrCtl (s : State) (v : Nat) : State :=
  match fldN v 1 0 with
  | 0 => rrOff s v
  | 1 => rrRecord s v
  | 2 => rrReplay s v
  | _ => wr s A.RR_CTL (rrFields v + rrMode s)

/-! ### Commands -/

/-- CYCLE_LAUNCH: the launch count of a frame group's next cycle has come. -/
def execCycleLaunch (g : Fin 8) (s : State) : Host.Outcome State Fault Refusal :=
  whenOn (fun s => cycleLaunch s g.val) s

/-- CYCLE_DEADLINE: the deadline of a frame group's launched cycle has come. -/
def execCycleDeadline (g : Fin 8) (s : State) : Host.Outcome State Fault Refusal :=
  whenOn (fun s => deadlinesUpTo s g.val s.ridge) s

/-- FG_ENABLE: a write that sets FG_CTL.enable. -/
def execFgEnable (agent : Agent) (g : Fin 8) (s : State) : Host.Outcome State Fault Refusal :=
  whenOn (fun s => namedWrite s agent (A.FG_CTL g.val) 1 (fun s => fgEnable s g.val)) s

/-- FG_DISABLE: a write that clears FG_CTL.enable. -/
def execFgDisable (agent : Agent) (g : Fin 8) (s : State) : Host.Outcome State Fault Refusal :=
  whenOn (fun s => namedWrite s agent (A.FG_CTL g.val) 0 (fun s => fgDisable s g.val)) s

/-- DET_CTL: a guarded write of DET_CTL. -/
def execDetCtl (agent : Agent) (v : Word) (s : State) : Host.Outcome State Fault Refusal :=
  whenOn (fun s => namedWrite s agent A.DET_CTL v.toNat (fun s => applyDetCtl s v.toNat)) s

/-- RR_RECORD: a guarded write of RR_CTL with mode record and the other fields of `v`. -/
def execRrRecord (agent : Agent) (v : Word) (s : State) : Host.Outcome State Fault Refusal :=
  let w := rrFields v.toNat + 1
  whenOn (fun s => namedWrite s agent A.RR_CTL w (fun s => rrRecord s w)) s

/-- RR_REPLAY: a guarded write of RR_CTL with mode replay. -/
def execRrReplay (agent : Agent) (v : Word) (s : State) : Host.Outcome State Fault Refusal :=
  let w := rrFields v.toNat + 2
  whenOn (fun s => namedWrite s agent A.RR_CTL w (fun s => rrReplay s w)) s

/-- RR_OFF: a guarded write of RR_CTL with mode off. -/
def execRrOff (agent : Agent) (v : Word) (s : State) : Host.Outcome State Fault Refusal :=
  let w := rrFields v.toNat
  whenOn (fun s => namedWrite s agent A.RR_CTL w (fun s => rrOff s w)) s

end Sys2Proof.Machine
end

