-- ==== Sys2Proof/Machine/SeqOps.lean ====
section
/-!
DEFINITION. Sequence commands: layout, validation, eviction, drops, and the quantising of keys and values (R312 to
R317, R319 to R321, R324, R328 to R331).
-/

namespace Sys2Proof.Machine

/-! ### Layout (Tables 11.4 and 11.5) -/

/-- The fields of a command. -/
structure SeqFields where
  version : Nat
  op : Nat
  cls : Nat
  peg : Nat
  ctx : Nat
  frame : Nat
  layer : Nat
  /-- Reserved fields are zero. -/
  clean : Bool
  /-- APPEND and RESTORE. -/
  pos : Nat
  n : Nat
  kSrc : Nat
  vSrc : Nat
  stride : Nat
  fp16 : Bool
  tag : Nat
  div : Nat
  /-- STAGE. -/
  select : Nat
  mark : Bool
  lagLo : Nat
  lagHi : Nat
  posLo : Nat
  posHi : Nat
  frame0 : Nat
  bMax : Nat
  /-- IMPORTANCE. -/
  mass : Nat
  deriving DecidableEq, Repr

/-- Read the 64 bytes of a command. -/
def parseSeq (b : List Byte) : SeqFields :=
  let n (o k : Nat) := leAt b o k
  { version := fldN (n 0 1) 3 0, op := fldN (n 0 1) 7 4, cls := fldN (n 1 1) 1 0, peg := n 2 2, ctx := fldN (n 4 4) 19 0,
    frame := n 8 4, layer := fldN (n 12 1) 5 0,
    clean := fldN (n 1 1) 7 2 == 0 && fldN (n 4 4) 31 20 == 0 && n 13 3 == 0 &&
      (fldN (n 0 1) 7 4 != 1 || (n 40 24 == 0 && !bitN (n 16 1) 7 && n 23 1 == 0 && n 29 1 == 0)),
    pos := n 16 4, n := n 20 4, kSrc := n 24 8, vSrc := n 32 8, stride := n 40 4, fp16 := bitN (n 44 1) 0, tag := n 48 8,
    div := n 56 4, select := fldN (n 16 1) 1 0, mark := bitN (n 16 1) 2, lagLo := n 17 1, lagHi := n 18 1,
    posLo := n 20 4, posHi := n 24 4, frame0 := fldN (n 28 2) 11 0, bMax := fldN (n 30 2) 10 0 + 1, mass := n 32 8 }

/-- The entry that an OPEN describes: bytes 0 to 11 and 20 to 31 of Table 11.2, which take bytes 16 to 39 of the
command (log entry 42). -/
def openEntry (b : List Byte) : SeqEntry :=
  parseEntry ((b.drop 16).take 12 ++ zeros 8 ++ (b.drop 28).take 12 ++ zeros 28)

/-- The fields of a STAGE's block selection are in range. -/
def stageFieldsOk (f : SeqFields) (e : SeqEntry) : Bool :=
  decide (f.layer < e.layers) && f.select != 0 && (f.select != 1 || decide (f.lagLo ≤ f.lagHi))
    && (e.cls == clsA || (f.select != 3 && !f.mark))

/-! ### Views (Table 11.7) -/

/-- Offsets within the auxiliary part of a view: K scales, V scales, mask, positions, tag, and its length. -/
def auxParts (e : SeqEntry) (bMax : Nat) : Nat × Nat × Nat × Nat × Nat × Nat :=
  let t := 64 * bMax
  let v := e.kp * t * 2
  let m := roundUp (v + (if e.vTok then e.vp * t * 2 else e.vp * 512)) 64
  let p := m + t * 4
  let g := p + roundUp (4 * bMax) 64
  (0, v, m, p, g, g + 64)

/-- The frames of a view (R323). -/
def viewFrames (e : SeqEntry) (bMax : Nat) : Nat := e.ppb * bMax + ceilDiv (auxParts e bMax).2.2.2.2.2 16384

/-! ### Positions (R310, R320, R321) -/

/-- The group of a context. -/
def groupOfCtx (s : State) (ctx : Nat) : Option SeqGroup := s.seq.groups.find? (fun g => g.ctx == ctx)

/-- A block is pinned by a STAGE that has not copied it (R326). -/
def pinned (s : State) (ctx pos : Nat) : Bool :=
  s.seq.cmds.any (fun c => leAt c.bytes 0 1 / 16 == 4 && fldN (leAt c.bytes 4 4) 19 0 == ctx && c.picks.any (fun x => x.pos == pos))

/-- A block is being extended by an open group. -/
def extending (s : State) (ctx pos : Nat) : Bool :=
  match groupOfCtx s ctx with
  | some g => g.blocks.any (fun b => b.pos == pos)
  | none => false

/-- A slot holds a live or dropped block. -/
def slotHeld (x : SeqSlot) : Bool := x.state == 1 || x.state == 2

/-- A block is among the `k` highest positions of a context. -/
def amongHighest (bs : List (Nat × SeqSlot)) (k : Nat) (x : SeqSlot) : Bool :=
  decide ((bs.filter (fun y => slotHeld y.2 && decide (x.pos < y.2.pos))).length < k)

/-- A block is among the `k` lowest positions of a context. -/
def amongLowest (bs : List (Nat × SeqSlot)) (k : Nat) (x : SeqSlot) : Bool :=
  decide ((bs.filter (fun y => slotHeld y.2 && decide (y.2.pos < x.pos))).length < k)

/-! ### Eviction (R321) -/

/-- What an eviction leaves of the map, or the reason that stops it. -/
inductive Evictions where
  /-- The blocks to evict, by slot. -/
  | evict (l : List (Nat × SeqSlot))
  /-- A block to evict is being copied by a STAGE: the APPEND waits (R321). -/
  | waits
  /-- The blocks to evict, by slot; but for a further slot that the group needs no block qualifies. -/
  | full (l : List (Nat × SeqSlot))
  deriving DecidableEq, Repr

/-- Capacity eviction: while a slot that the group needs is occupied, the least important block goes. It answers
whether every slot is free then. -/
def evictFor (e : SeqEntry) (need : List Nat) (keep : Nat → Bool) : Nat → List (Nat × SeqSlot) → Bool × List (Nat × SeqSlot)
  | 0, _ => (false, [])
  | fuel + 1, bs =>
    if need.all (fun i => !(bs.any (fun b => b.1 == i && slotHeld b.2 && !keep b.2.pos))) then (true, [])
    else
      let cand := bs.filter (fun b => slotHeld b.2 && !keep b.2.pos && !amongLowest bs e.sink b.2 && !amongHighest bs e.recent b.2)
      match sortBy (fun (a b : Nat × SeqSlot) => decide (a.2.imp < b.2.imp ∨ (a.2.imp = b.2.imp ∧ a.2.pos < b.2.pos))) cand with
      | [] => (false, [])
      | v :: _ =>
        let r := evictFor e need keep fuel (bs.filter (fun b => b.1 != v.1))
        (r.1, v :: r.2)

/-- The blocks that the first layer of a group evicts: by the window, and for the slots it needs. `first` is the block
that it extends, if any. -/
def evictions (s : State) (ctx : Nat) (e : SeqEntry) (frame : Nat) (blocks : List Nat) (first : Option Nat)
    (bs : List (Nat × SeqSlot)) : Evictions :=
  let old := bs.filter (fun b => slotHeld b.2 && e.window != 0 && decide (e.window ≤ (frame + 2 ^ 32 - b.2.frame) % 2 ^ 32))
  let rest := bs.filter (fun b => !old.any (fun o => o.1 == b.1))
  let r := evictFor e (blocks.map (· % e.maxBlocks)) (fun p => first == some p) (bs.length + 1) rest
  if (old ++ r.2).any (fun b => pinned s ctx b.2.pos) then .waits
  else if r.1 = true ∧ blocks.length ≤ e.maxBlocks then .evict (old ++ r.2)
  else .full (old ++ r.2)

/-- Evict a block for good: its pages are freed and its slot is empty. -/
def evictBlock (ctx : Nat) (s : State) (b : Nat × SeqSlot) : State :=
  let e := entryOf s ctx
  let s := freePages s (validPages b.2.pages)
  let s := writeSlot s e b.1 {}
  let s := writeEntry s ctx { e with
    live := e.live - b2n (b.2.state == 1), dropped := e.dropped - b2n (b.2.state == 2), version := (e.version + 1) % 2 ^ 32 }
  bump s A.SEQ_EVICTS 1

/-! ### Drops (R329, R330) -/

/-- The blocks of the contexts of the drop index that may be dropped, or the first status that stops the reads of their
entries and slots (R308). -/
def droppable (s : State) : List Nat → SeqRead (List (Nat × Nat × SeqSlot)) × State
  | [] => (.ok [], s)
  | ctx :: t =>
    match readEntry s ctx with
    | (.bad st, s) => (.bad st, s)
    | (.ok e, s) =>
      match readSlots s e with
      | (.bad st, s) => (.bad st, s)
      | (.ok bs, s) =>
        match droppable s t with
        | (.bad st, s) => (.bad st, s)
        | (.ok l, s) =>
          (.ok ((bs.filter (fun b => b.2.state == 1 && !amongHighest bs e.recent b.2 && !pinned s ctx b.2.pos
            && !extending s ctx b.2.pos)).map (fun b => (ctx, b.1, b.2)) ++ l), s)

/-- The order of drops: lowest importance, oldest frame, lowest context, lowest position. -/
def dropOrder (frame : Nat) (l : List (Nat × Nat × SeqSlot)) : List (Nat × Nat × SeqSlot) :=
  let age (x : SeqSlot) : Nat := (frame + 2 ^ 32 - x.frame % 2 ^ 32) % 2 ^ 32
  sortBy (fun (a b : Nat × Nat × SeqSlot) => decide (a.2.2.imp < b.2.2.imp ∨ (a.2.2.imp = b.2.2.imp ∧
    (age b.2.2 < age a.2.2 ∨ (age a.2.2 = age b.2.2 ∧ (a.1 < b.1 ∨ (a.1 = b.1 ∧ a.2.2.pos < b.2.2.pos))))))) l

/-- Drop a block: its pages are freed; it keeps its slot. -/
def dropBlock (s : State) (x : Nat × Nat × SeqSlot) : State :=
  let e := entryOf s x.1
  let s := freePages s (validPages x.2.2.pages)
  let s := writeSlot s e x.2.1 { x.2.2 with state := 2, pages := [], scales := [] }
  let s := writeEntry s x.1 { e with live := e.live - 1, dropped := e.dropped + 1, version := (e.version + 1) % 2 ^ 32 }
  raise (bump s A.SEQ_DROPS 1) 0x200 2

/-- The shortest front of a list of candidates whose pages cover `n`. -/
def takeDrops : Nat → List (Nat × Nat × SeqSlot) → Option (List (Nat × Nat × SeqSlot))
  | 0, _ => some []
  | _ + 1, [] => none
  | n + 1, x :: t => (takeDrops (n + 1 - (validPages x.2.2.pages).length) t).map (fun l => x :: l)

/-- Make room for `n` pages of a class: the status that the allocation fails with, or 0. Class S takes its own share
and never fails (R319). -/
def makeRoom (s : State) (n cls frame : Nat) : Nat × State :=
  if cls = clsS ∨ n ≤ poolFree s then (0, s)
  else if strict s then (St.PAGE_DROP_FORBIDDEN, s)
  else if rdB s A.SEQ_CTL 1 = false then (St.POOL_EXHAUSTED, s)
  else
    match droppable s s.seq.index with
    | (.bad st, s) => (st, s)
    | (.ok l, s) =>
      match takeDrops (n - poolFree s) (dropOrder frame l) with
      | none => (St.POOL_EXHAUSTED, s)
      | some l => (0, l.foldl dropBlock s)

/-! ### Quantising (R312 to R315) -/

/-- A code of an 8-bit format with `fb` fraction bits, step exponent `emin` and largest finite `lim`: the code, and
whether it saturated. -/
def fp8Code (fb : Nat) (emin : Int) (lim : Nat) (x : Fr) : Nat × Bool :=
  if x.n = 0 then (0, false)
  else
    let a := frAbs x
    let q := max (frLog2 a - fb) emin
    let m := (rne (frShift a (-q))).toNat
    let one := 2 ^ fb
    let v := frShift (frInt m) q
    let neg := 128 * b2n (decide (x.n < 0))
    if frLt (frInt lim) v then
      let q := frLog2 (frInt lim) - fb
      let m := (rne (frShift (frInt lim) (-q))).toNat
      (neg + (q - emin + 1).toNat * one + (m - one), true)
    else if m = 0 then (0, false)
    else if m < one then (neg + m, false)
    else
      let m' := if m = 2 * one then one else m
      let q := if m = 2 * one then q + 1 else q
      (neg + (q - emin + 1).toNat * one + (m' - one), false)

/-- E4M3 of a value, saturating at 448. -/
def e4m3Code (x : Fr) : Nat × Bool := fp8Code 3 (-9) 448 x
/-- E5M2 of a value, saturating at 57,344. -/
def e5m2Code (x : Fr) : Nat × Bool := fp8Code 2 (-16) 57344 x

/-- One token row of 256 elements: the scale's FP16 bits, the codes, and how many saturated (R315, step 1). -/
def tokenRow (xs : List Fr) : Nat × List Nat × Nat :=
  let a := frMaxAbs xs
  if a.n = 0 then (0, xs.map (fun _ => 0), 0)
  else
    let s0 := f16out (fpRound f16 true (frDiv a (frInt 448)))
    let s := if s0 = 0 then 1 else s0
    let sv := fpVal (fpDecode f16 s)
    let c := xs.map (fun x => e4m3Code (frDiv x sv))
    (s, c.map (·.1), c.countP (·.2))

/-- One dimension row of a v_layout 0 page: codes under the span rule, and how many were set to zero (R315, step 2). -/
def dimRow (codes : List Nat) : List Nat × Nat :=
  let eff (c : Nat) : Nat := max 1 (c % 128 / 4)
  let nz := codes.filter (fun c => c % 128 != 0)
  let emax := nz.foldl (fun a c => max a (eff c)) 0
  let bad (c : Nat) : Bool := c % 128 != 0 && decide (eff c + 15 < emax)
  (codes.map (fun c => if bad c then 0 else c), codes.countP bad)

/-- The page of one token-row part: old rows kept, new rows given, zero beyond; with the 64 scales. -/
def tokenPage (old : List Byte) (oldScales : List Nat) (r0 : Nat) (rows : List (List Fr)) : List Byte × List Nat × Nat :=
  let q := rows.map tokenRow
  (padTo 16384 (padTo (256 * r0) old ++ q.flatMap (fun x => x.2.1.map (BitVec.ofNat 8))),
   (List.range 64).map (fun i => if i < r0 then oldScales.getD i 0 else ((q.map (·.1)).getD (i - r0) 0)),
   (q.map (·.2.2)).sum)

/-- The page of one dimension-row part: bytes, elements saturated, elements set to zero. -/
def dimPage (old : List Byte) (r0 : Nat) (rows : List (List Fr)) : List Byte × Nat × Nat :=
  let new := rows.map (fun r => r.map e5m2Code)
  let q := (List.range 256).map (fun d =>
    dimRow ((List.range 64).map (fun i =>
      if i < r0 then (old.getD (64 * d + i) 0).toNat else ((new.getD (i - r0) []).getD d (0, false)).1)))
  (q.flatMap (fun x => x.1.map (BitVec.ofNat 8)), (new.map (fun r => r.countP (·.2))).sum, (q.map (·.2)).sum)

/-! ### Validation (Table 11.6) -/

/-- The view of a RELEASE or IMPORTANCE. -/
def viewAt (s : State) (frame0 : Nat) : Option SeqView := s.seq.views.find? (fun v => v.frame0 == frame0)

/-- The operands of a command, as address, extent and alignment (S10). -/
def seqAddrs (s : State) (f : SeqFields) (e : SeqEntry) : List (Nat × Nat) :=
  if f.op = 3 ∨ f.op = 7 then
    (if e.kp = 0 then [] else [(f.kSrc, (f.n - 1) * f.stride + 512 * e.kp)])
    ++ (if e.vp = 0 then [] else [(f.vSrc, (f.n - 1) * f.stride + 512 * e.vp)])
    ++ [(f.tag, 8 + ceilDiv f.n (max 1 f.div))]
  else if f.op = 6 then
    [(f.mass, 4 * (match viewAt s f.frame0 with | some v => v.slots.length | none => 1))]
  else if f.op = 1 then (if e.aux = 0 then [] else [(e.aux, 1)])
  else []

/-- An operand of a command is aligned and in populated memory. -/
def seqAddrOk (x : Nat × Nat) : Bool := x.1 % 64 == 0 && (inDram x.1 x.2 || inScratch x.1 x.2 || inCache x.1 x.2)

/-- Steps S4 to S6 for an OPEN. -/
def openStatus (s : State) (e : SeqEntry) : Nat :=
  if 4 < e.kp ∨ 4 < e.vp ∨ e.ppb = 0 ∨ 8 < e.ppb ∨ e.cls = 0 ∨ e.stream < 0x400 ∨ e.maxBlocks ≤ e.sink + e.recent
      ∨ (e.vTok ∧ e.cls = clsS) ∨ (e.stats ∧ e.cls ≠ clsA) ∨ (e.recompute ∧ e.cls ≠ clsQ)
      ∨ (e.cls = clsS ∧ e.aux ≠ 0) then St.GEOMETRY_INVALID
  else if 98304 < e.mapSize then St.MAP_TOO_LARGE
  else if e.cls = clsS ∧ poolShareS s < ((s.seq.commits.map (·.2)).sum) + e.commitment then St.RESERVE_EXHAUSTED
  else 0

/-- The layer order and the position of an APPEND (S7, R320). -/
def appendOrder (s : State) (f : SeqFields) (e : SeqEntry) : Nat :=
  let ok := match groupOfCtx s f.ctx with
    | none => f.layer == 0 && f.pos == e.tokens
    | some g => f.layer == g.layer && f.pos == g.pos && f.n == g.n && f.layer != 0
  if ok then 0 else St.APPEND_ORDER

/-- The layer order and the position of a RESTORE (S7, R331): of what its block has so far. A block that is no longer
dropped is written by no RESTORE, and has no order (R332). -/
def restoreOrder (s : State) (f : SeqFields) (e : SeqEntry) : Nat × State :=
  if e.layers ≤ f.layer ∨ f.pos % 64 ≠ 0 then (St.APPEND_ORDER, s)
  else
    match slotOfPos s e (f.pos / 64) with
    | (.bad st, s) => (st, s)
    | (.ok none, s) => (0, s)
    | (.ok (some x), s) =>
      let next := match s.seq.restoring.find? (fun r => r.ctx == f.ctx && 64 * r.block.pos == f.pos) with
        | some r => r.layer
        | none => 0
      if x.state ≠ 2 then (0, s)
      else if (f.n ≠ 64 ∧ f.n ≠ x.fill) ∨ (f.layer ≠ 0 ∧ f.layer ≠ next) then (St.APPEND_ORDER, s)
      else (0, s)

/-- The order of an APPEND or a RESTORE, by its op. -/
def seqOrder (s : State) (f : SeqFields) (e : SeqEntry) : Nat × State :=
  if f.op = 3 then (appendOrder s f e, s) else if f.op = 7 then restoreOrder s f e else (0, s)

/-- Step S7: the order and the position of an APPEND or a RESTORE, and the frame of its source's tag (R28). -/
def seqSource (s : State) (f : SeqFields) (e : SeqEntry) (cls echo : Nat) : Nat × State :=
  match seqOrder s f e with
  | (0, s) =>
    if (f.op = 3 ∨ f.op = 7) ∧ seqAddrOk (f.tag, 8) = true then
      match checkInputs s .sequence f.frame cls echo f.ctx [(f.tag, 0)] with
      | (st, _, s) => (st, s)
    else (0, s)
  | r => r

/-- Steps S8 to S10: the view, and the addresses. -/
def seqPlaces (s : State) (f : SeqFields) (e : SeqEntry) : Nat :=
  let lo := f.frame0
  let hi := f.frame0 + viewFrames e f.bMax
  let share := rdF s A.SEQ_CACHE_S 11 0
  if f.op = 4 ∧ 2048 < hi then St.VIEW_TOO_LARGE
  else if f.op = 4 ∧ (if e.cls = clsS then share < hi else lo < share) then St.VIEW_CLASS_INVALID
  else if (f.op = 5 ∨ f.op = 6) ∧ (viewAt s f.frame0).isNone = true then St.VIEW_NOT_FOUND
  else if ((f.op = 3 ∨ f.op = 7) ∧ f.stride % 64 ≠ 0) ∨ (seqAddrs s f e).all seqAddrOk = false then St.OPERAND_ADDR_INVALID
  else pegStatus s f.peg

/-- The status with which a command is refused (Table 11.6), in `cls` of its issuer, from the host or not; and the
context's entry. -/
def seqValidate (s : State) (b : List Byte) (cls echo : Nat) (host : Bool) : Nat × SeqEntry × State :=
  let f := parseSeq b
  let opn := openEntry b
  if f.version ≠ 1 ∨ f.op = 0 ∨ 7 < f.op ∨ f.clean = false
      ∨ ((f.op = 3 ∨ f.op = 7) ∧ (f.n = 0 ∨ 65536 < f.n ∨ f.div = 0)) then (St.SEQ_OP_INVALID, opn, s)
  else if seqOn s = false then (St.CONTEXT_INVALID, opn, s)
  else
    match readEntry s f.ctx with
    | (.bad st, s) => (st, opn, s)
    | (.ok e0, s) =>
      if f.op = 1 ∧ e0.state ≠ 0 then (St.CONTEXT_BUSY, opn, s)
      else if f.op ≠ 1 ∧ e0.state ≠ 1 then (St.CONTEXT_INVALID, opn, s)
      else
        let e := if f.op = 1 then opn else e0
        if f.cls ≠ cls ∨ (e.cls ≠ cls ∧ ¬(f.op = 2 ∧ host = true)) then (St.CONTEXT_CLASS_MISMATCH, e, s)
        else if f.op = 1 ∧ openStatus s e ≠ 0 then (openStatus s e, e, s)
        else if f.op = 4 ∧ stageFieldsOk f e = false then (St.SEQ_OP_INVALID, e, s)
        else
          match seqSource s f e cls echo with
          | (0, s) => (seqPlaces s f e, e, s)
          | (st, s) => (st, e, s)

end Sys2Proof.Machine
end

