-- ==== Sys2Proof/Machine/SeqCommands.lean ====
section
/-!
DEFINITION. The sequence engine's commands, from acceptance to completion, and its control registers (R316 to R338).
-/

namespace Sys2Proof.Machine

/-! ### Ends of a command -/

/-- The execution sequence that a command carries. -/
def seqExec (c : SeqCmd) : Option Nat :=
  match c.issuer with
  | .job x _ _ _ => some x
  | .pod _ => none

/-- The sequence of the pod that a command comes from (R542). -/
def seqEcho (s : State) (c : SeqCmd) : Nat :=
  match c.issuer with
  | .job x _ _ _ => execEcho s x
  | .pod no => podEcho s no

/-- A status that re-execution of a command may follow (R334, R467). -/
def seqReexecutable (st : Nat) : Bool := reexecutable st || st == St.SEQ_MISMATCH || st == St.MAP_CORRUPT

/-- Counts and flags of a failed command (R334, R337). -/
def seqFailFlags (s : State) (st : Nat) (injected : Bool) : State :=
  let s := if injected then raise s 0x200 0x80 else s
  if st = St.SEQ_MISMATCH then raise (bumpSat s A.SEQ_MISMATCH_COUNT 1) 0x200 0x10
  else if st = St.MAP_CORRUPT then raise (bumpSat s A.SEQ_MAP_CORRUPT_COUNT 1) 0x200 8
  else if st = St.RECOMPUTE_TIMEOUT then raise s 0x200 4
  else s

/-- A command fails: recorded, reported where R334 says so, and its job or pod ends; a failure that re-execution
follows waits for it while retries are left. -/
def seqFail (s : State) (c : SeqCmd) (st : Nat) (injected : Bool) : State :=
  let s := seqFailFlags (seqNoteFail s c st injected) st injected
  let again := seqReexecutable st && decide (c.retries < retryLimit s) && (seqExec c).isSome
  let s := if st = St.SEQ_MISMATCH ∨ st = St.MAP_CORRUPT then
      report s { source := 0x100, status := st, cls := c.cls, injected := injected, exhausted := !again,
                 echo := seqEcho s c,
                 detail := fldN (leAt c.bytes 4 4) 19 0 + 2 ^ 28 * fldN (leAt c.bytes 0 1) 7 4 }
    else s
  let s := seqDrop s c
  if again then setSeq s (fun q => { q with failed := q.failed ++ [(c, st)] })
  else
    match c.issuer with
    | .job x _ _ _ => failExec s x st
    | .pod no => podComplete s no st

/-- A command completes: out_peg counts, and its job or pod goes on (R316). -/
def seqDone (s : State) (c : SeqCmd) : State :=
  let f := parseSeq c.bytes
  let s := bump (seqRegs (setSeq s (fun q => { q with cmds := q.cmds.filter (fun d => d.id != c.id) }))) A.SEQ_COMMANDS 1
  match c.issuer with
  | .job x _ _ _ =>
    let s := jobFlags s x c.flags
    descDone (if execCounts s x then pegInc s f.peg .count 1 (some f.frame) c.cls (seqEcho s c) else s) x
  | .pod no => podComplete (pegInc s f.peg .count 1 (some f.frame) c.cls (seqEcho s c)) no 0

/-- Take back a block that RESTOREs were writing. -/
def restoreGone (s : State) (ctx pos : Nat) : State :=
  let old := s.seq.restoring.filter (fun r => r.ctx == ctx && r.block.pos == pos)
  let s := freePages s (old.flatMap (fun r => validPages r.block.pages))
  setSeq s (fun q => { q with restoring := q.restoring.filter (fun r => !(r.ctx == ctx && r.block.pos == pos)) })

/-- Put an accepted command into the queue. -/
def seqAccept (s : State) (c : SeqCmd) : State :=
  seqRegs (setSeq s (fun q => { q with cmds := q.cmds ++ [c] }))

/-- Change an accepted command. -/
def updCmd (s : State) (id : Nat) (f : SeqCmd → SeqCmd) : State :=
  setSeq s (fun q => { q with cmds := q.cmds.map (fun c => if c.id = id then f c else c) })

/-- The context that a command names. -/
def cmdCtx (c : SeqCmd) : Nat := fldN (leAt c.bytes 4 4) 19 0

/-- The op of a command. -/
def cmdOp (c : SeqCmd) : Nat := fldN (leAt c.bytes 0 1) 7 4

/-- An earlier APPEND, RESTORE or CLOSE of a context is still at work: later commands of the context take effect after
it (R317). -/
def ctxBusy (s : State) (ctx : Nat) : Bool := s.seq.cmds.any (fun c => c.stage == .running && cmdCtx c == ctx)

/-! ### Where a command comes from -/

/-- What a command row finds: a command to act on with the state that has taken it, or the state as it is left. -/
inductive SeqTake where
  | cmd (c : SeqCmd) (s : State)
  | stop (s : State)
  deriving DecidableEq, Repr

/-- The engine's own regions are still being zero-filled (R380). -/
def seqFills (s : State) : Bool :=
  encWaits s (seqDir s) 0x4000000 || encWaits s (seqPool s) (16384 * poolPages s)

/-- Take the next command of a firing, or the command of a control pod, where its op is `op`. An op outside Table 11.4
is taken by any row, and refused there. No instance that has ended stages a view (R325, log entry 157). -/
def seqTake (s : State) (src : SeqFrom) (op : Nat) : SeqTake :=
  if 16 ≤ s.seq.cmds.length ∨ unitOn s 0x200 = false ∨ seqFills s = true then .stop s
  else
    match src with
    | .job x =>
      match findExec s x.toNat with
      | none => .stop s
      | some (i, j) =>
        match (List.range j.entry.descCount).filter (mayIssue s i j) with
        | [] => .stop s
        | k :: _ =>
          if j.entry.unit ≠ 5 ∨ jobAwake s j = false ∨ encWaits s (descAddr i j.entry 64 k) 64 = true then .stop s
          else
              match memRead s .dispatch (descAddr i j.entry 64 k) 64 i.cls (echo := i.seq) with
              | (0, b, s1) =>
                let o := fldN (leAt b 0 1) 7 4
                if (o ≠ op ∧ 1 ≤ o ∧ o ≤ 7) ∨ (op = 4 ∧ i.life ≠ .active) then .stop s
                else
                  let s1 := updJob s1 i.id j.entry.index (fun r => { r with issued := r.issued ++ [k] })
                  .cmd { id := s1.nextId, bytes := b, issuer := .job x.toNat k i.id j.entry.index, cls := i.cls,
                         frame := i.frame, stage := .running, acceptedAt := s1.ridge } { s1 with nextId := s1.nextId + 1 }
              | (st, _, s1) => .stop (failExec s1 x.toNat st)
    | .pod no =>
      match takePod s no 4 (fun h => h.target % 256 == 6 && h.operation == op) with
      | none => .stop s
      | some (p, s) =>
        let b := padTo 64 p.body
        if p.hdr.length ≠ 4 ∨ fldN (leAt b 0 1) 7 4 ≠ op ∨ leAt p.body 64 16 ≠ 0 then
          .stop (podComplete s no St.SEQ_OP_INVALID)
        else
          .cmd { id := s.nextId, bytes := b, issuer := .pod no, cls := p.hdr.cls, frame := p.hdr.frame, stage := .running,
                 acceptedAt := s.ridge } { s with nextId := s.nextId + 1 }

/-- A command is a RESTORE of the recompute job of its block. -/
def ofRecompute (s : State) (c : SeqCmd) : Bool :=
  cmdOp c == 7 &&
    (match c.issuer with
     | .job x _ _ _ =>
       (match findExec s x with
        | some (i, _) => i.cause == .recompute (cmdCtx c) ((parseSeq c.bytes).pos / 64)
        | none => false)
     | .pod _ => false)

/-- Validate a command that has been taken, and act on it with its fields and its context's entry. A RESTORE whose
context has closed since its block was asked for writes nothing (R332). -/
def seqRun (s : State) (c : SeqCmd) (act : State → SeqCmd → SeqFields → SeqEntry → State) : State :=
  match seqValidate s c.bytes c.cls (seqEcho s c) (seqExec c).isNone with
  | (0, e, s) => act s c (parseSeq c.bytes) e
  | (st, _, s) =>
    if st = St.CONTEXT_INVALID ∧ ofRecompute s c then seqDone s { c with flags := jfRestore }
    else seqFail s c st false

/-- An operand of a command lies in a region that is still being zero-filled (R380). -/
def seqWaits (s : State) (c : SeqCmd) : Bool :=
  let f := parseSeq c.bytes
  seqFills s || (seqAddrs s f (entryOf s f.ctx)).any (fun x => encWaits s x.1 x.2)

/-- A command waits for a BIST slice of the engine; one of class S is counted, once (R478). -/
def sliceHolds (s : State) (c : SeqCmd) : State :=
  if c.cls ≠ clsS ∨ s.bist.waited.contains c.issuer then s
  else { bumpSat s A.BIST_S_WAITS 1 with bist := { s.bist with waited := s.bist.waited ++ [c.issuer] } }

/-- Act on the command that a row finds; while an earlier command of its context is at work, or `waits`, nothing
happens yet. -/
def seqCommand (s : State) (src : SeqFrom) (op : Nat) (waits : State → SeqCmd → Bool)
    (act : State → SeqCmd → SeqFields → SeqEntry → State) : State :=
  match seqTake s src op with
  | .stop s => s
  | .cmd c s1 =>
    if bistBusy s1 0x24 then sliceHolds s c
    else if seqWaits s1 c || waits s1 c then s else seqRun s1 c act

/-! ### OPEN and CLOSE (R318, R319) -/

/-- The number of open contexts changes. -/
def countContexts (s : State) (d : Int) : State := wr s A.SEQ_CONTEXTS ((rd s A.SEQ_CONTEXTS : Int) + d).toNat

/-- An OPEN of class S waits for pages of the class S share (R319). -/
def openWaits (s : State) (c : SeqCmd) : Bool :=
  match seqValidate s c.bytes c.cls (seqEcho s c) (seqExec c).isNone with
  | (0, e, s) => shareShort s e.cls e.mapCount 0
  | _ => false

/-- OPEN: the map pages are allocated and zeroed, and the entry is written. -/
def seqOpenAct (s : State) (c : SeqCmd) (f : SeqFields) (e : SeqEntry) : State :=
  let n := e.mapCount
  match makeRoom s n e.cls f.frame with
  | (0, s) =>
    match allocPages s n (e.cls == clsS) with
    | (ps, s) =>
      let s := ps.foldl (fun s p => (memWrite s .sequence (seqPool s + 16384 * p) (zeros 16384)).2) s
      let s := if e.cls = clsS then
          poolRegs (setSeq s (fun q => { q with commits := smPut q.commits f.ctx e.commitment })) else s
      let map := (List.range 6).map (fun i => match ps[i]? with | some p => p + 2 ^ 31 | none => 0)
      let s := writeEntry s f.ctx { e with state := 1, tokens := 0, live := 0, dropped := 0, mapPages := n, map := map,
                                           version := 0 }
      let s := if e.recompute then setSeq s (fun q => { q with index := q.index ++ [f.ctx] }) else s
      seqDone (countContexts s 1) c
  | (st, s) => seqFail s c st false

/-- CLOSE is accepted: the context closes, and takes no further command. -/
def seqCloseAct (s : State) (c : SeqCmd) (f : SeqFields) (e : SeqEntry) : State :=
  seqAccept (writeEntry s f.ctx { e with state := 3 }) c

/-- Every page of a context that closes is freed, with what the engine keeps of it. -/
def closePages (s : State) (ctx : Nat) (e : SeqEntry) (bs : List (Nat × SeqSlot)) : State :=
  let gone := s.seq.restoring.filter (fun r => r.ctx == ctx)
  let s := freePages s (bs.flatMap (fun b => validPages b.2.pages) ++ validPages e.map
    ++ gone.flatMap (fun r => validPages r.block.pages))
  let f (q : SeqEngine) : SeqEngine := { q with
    commits := smDel q.commits ctx, index := q.index.filter (· != ctx), requests := q.requests.filter (fun r => r.ctx != ctx),
    restoring := q.restoring.filter (fun r => r.ctx != ctx),
    marks := q.marks.filter (fun m => m.1 / 64 != ctx) }
  poolRegs (setSeq s f)

/-- CLOSE takes effect: every page of the context is freed. -/
def seqCloseEnd (s : State) (c : SeqCmd) : State :=
  let ctx := cmdCtx c
  if s.seq.cmds.any (fun d => cmdCtx d == ctx && decide (d.id < c.id)) then s
  else
    let s := match groupOfCtx s ctx with
      | some g => discardGroup s g
      | none => s
    match readEntry s ctx with
    | (.bad st, s) => seqFail s c st false
    | (.ok e, s) =>
      match readSlots s e with
      | (.bad st, s) => seqFail s c st false
      | (.ok bs, s) =>
        let s := closePages s ctx e bs
        let s := writeEntry s ctx { e with state := 0, live := 0, dropped := 0, mapPages := 0, map := [0, 0, 0, 0, 0, 0] }
        seqDone (countContexts s (-1)) c

/-! ### APPEND (R320, R321) -/

/-- The block positions of a group. -/
def groupBlocks (pos n : Nat) : List Nat := (List.range ((pos + n - 1) / 64 - pos / 64 + 1)).map (fun i => pos / 64 + i)

/-- APPEND of layer 0 opens a group: eviction, and slots in state writing; a partly filled block keeps its slot. -/
def openGroup (s : State) (c : SeqCmd) (f : SeqFields) (ev : List (Nat × SeqSlot)) : State :=
  let s := ev.foldl (evictBlock f.ctx) s
  let e := entryOf s f.ctx
  let blocks := groupBlocks f.pos f.n
  let s := blocks.foldl (fun s b =>
    match readSlot s e (b % e.maxBlocks) with
    | (.ok x, s) => if slotHeld x then s else writeSlot s e (b % e.maxBlocks) { pos := b, state := 3 }
    | (.bad _, s) => s) s
  let who := match c.issuer with
    | .job x _ i j => (i, j, x)
    | .pod _ => (0, 0, 0)
  let g : SeqGroup := {
    ctx := f.ctx, pos := f.pos, n := f.n, frame := f.frame, layer := 0, inst := who.1, job := who.2.1, exec := who.2.2,
    blocks := blocks.map (fun b => { pos := b, fill := min 64 (f.pos + f.n - 64 * b), flags := 0, pages := [], scales := [] }) }
  setSeq s (fun q => { q with groups := q.groups ++ [g] })

/-- Allocate the pages of a layer of a group, and let the APPEND work. -/
def appendLayer (s : State) (c : SeqCmd) (f : SeqFields) (e : SeqEntry) : State :=
  match groupOfCtx s f.ctx with
  | none => s
  | some g =>
    match makeRoom s (e.ppb * g.blocks.length) e.cls f.frame with
    | (0, s) =>
      match allocPages s (e.ppb * g.blocks.length) (e.cls == clsS) with
      | (ps, s) =>
        let bs := g.blocks.zipIdx.map (fun b =>
          { b.1 with pages := b.1.pages ++ ((ps.drop (e.ppb * b.2)).take e.ppb).map (· + 2 ^ 31) })
        let s := setSeq s (fun q => { q with groups := q.groups.map (fun h =>
          if h.ctx = f.ctx then { h with blocks := bs, busy := true } else h) })
        seqAccept s c
    | (st, s) => seqFail (discardGroup s g) c st false

/-- APPEND is accepted. -/
def seqAppendAct (s : State) (c : SeqCmd) (f : SeqFields) (e : SeqEntry) : State :=
  if f.layer ≠ 0 then appendLayer s c f e
  else if 2 ^ 32 - 64 < e.tokens + f.n then seqFail s c St.CONTEXT_FULL false
  else
    match readSlots s e with
    | (.bad st, s) => seqFail s c st false
    | (.ok bs, s) =>
      let first := if f.pos % 64 = 0 then none else some (f.pos / 64)
      match evictions s f.ctx e f.frame (groupBlocks f.pos f.n) first bs with
      | .full l => seqFail (l.foldl (evictBlock f.ctx) s) c St.CONTEXT_FULL false
      | .waits => s
      | .evict l => appendLayer (openGroup s c f l) c f (entryOf s f.ctx)

/-- An APPEND has to wait: at layer 0 for a block that a STAGE copies (R321), and in class S for pages of the class S
share (R319). -/
def appendWaits (s : State) (c : SeqCmd) : Bool :=
  let f := parseSeq c.bytes
  match seqValidate s c.bytes c.cls (seqEcho s c) (seqExec c).isNone with
  | (0, e, s) =>
    let need := e.ppb * (groupBlocks f.pos f.n).length
    if f.layer ≠ 0 then shareShort s e.cls need 0
    else
      match readSlots s e with
      | (.bad _, _) => false
      | (.ok bs, s) =>
        match evictions s f.ctx e f.frame (groupBlocks f.pos f.n) (if f.pos % 64 = 0 then none else some (f.pos / 64)) bs with
        | .waits => true
        | .full _ => false
        | .evict l => shareShort s e.cls need (l.map (fun b => (validPages b.2.pages).length)).sum
  | _ => false

/-- Read token rows: for each token its elements, or the status that stops the command. -/
def seqRows (s : State) (cls echo : Nat) (fp16 : Bool) (addr stride parts n : Nat) : Nat × List (List Fr) × State :=
  if parts = 0 then (0, List.replicate n [], s)
  else
    (List.range n).foldl (fun acc t =>
      if acc.1 ≠ 0 then acc
      else
        match memRead acc.2.2 .sequence (addr + t * stride) (512 * parts) cls (echo := echo) with
        | (0, b, s) =>
          let v := (List.range (256 * parts)).map (fun i => fpDecode (if fp16 then f16 else bf16) (leAt b (2 * i) 2))
          if v.all fpFinite then (0, acc.2.1 ++ [v.map fpVal], s) else (St.ARITH_NONFINITE, [], s)
        | (st, _, s) => (st, [], s)) (0, [], s)

/-- Bytes about which nothing is known. -/
def freeBytes (s : State) (n : Nat) : List Byte × State :=
  match drawFree s with
  | (v, s) => (leBytes n v, s)

/-- The bytes that page `p` of layer `l` of a block held before, where the block is extended; nothing is known of the
rows of a block that has since been evicted or dropped. -/
def oldPage (s : State) (e : SeqEntry) (old : Option SeqSlot) (l p : Nat) : List Byte × State :=
  match old with
  | some x => if x.state = 1 then (memBytes s (seqPool s + 16384 * (x.pages.getD (l * e.ppb + p) 0 % 2 ^ 21)) 16384, s)
    else freeBytes s 16384
  | none => freeBytes s 16384

/-- The pages of one layer of a block: written to memory; the scales, saturated elements and elements set to zero. -/
def writeBlockLayer (s : State) (e : SeqEntry) (l r0 : Nat) (old : Option SeqSlot) (pages : List Nat)
    (kRows vRows : List (List Fr)) (cls echo : Nat) : Nat × List Nat × Nat × Nat × State :=
  (List.range e.ppb).foldl (fun acc p =>
    if acc.1 ≠ 0 then acc
    else
      let rows := (if p < e.kp then kRows else vRows).map (fun r => (r.drop (256 * (if p < e.kp then p else p - e.kp))).take 256)
      let s := acc.2.2.2.2
      match (if r0 = 0 then ([], s) else oldPage s e old l p) with
      | (ob, s) =>
        let addr := seqPool s + 16384 * (pages.getD p 0 % 2 ^ 21)
        if p < e.kp ∨ e.vTok = true then
          let os := match old with
            | some x => (x.scales.drop (64 * (l * e.tokPages + p))).take 64
            | none => []
          let q := tokenPage ob os r0 rows
          match memWrite s .sequence addr q.1 cls echo with
          | (st, s) => (st, acc.2.1 ++ q.2.1, acc.2.2.1 + q.2.2, acc.2.2.2.1, s)
        else
          let q := dimPage ob r0 rows
          match memWrite s .sequence addr q.1 cls echo with
          | (st, s) => (st, acc.2.1, acc.2.2.1 + q.2.1, acc.2.2.2.1 + q.2.2, s)) (0, [], 0, 0, s)

/-- Count what quantising did (R315). -/
def seqQuantCounts (s : State) (sat flush : Nat) : State := bumpSat (bumpSat s A.SEQ_KV_SAT sat) A.SEQ_V_FLUSH flush

/-- The second datapath differs: by a fault, or by an armed injection. -/
def seqMismatch (s : State) (mismatch : Bool) : Option Bool × State :=
  if rdB s A.SEQ_INJECT 0 then (some true, wrF s A.SEQ_INJECT 0 0 0) else (if mismatch then some false else none, s)

/-- The block that a group extends, as its slot has it. -/
def oldSlot (s : State) (g : SeqGroup) (e : SeqEntry) (b : SeqBlock) : SeqRead (Option SeqSlot) × State :=
  if g.pos ≤ 64 * b.pos then (.ok none, s) else slotOfPos s e b.pos

/-- The pages of a block that a commit replaces are free, once no STAGE that was accepted before copies them. -/
def replacePages (s : State) (ps : List Nat) : State :=
  releaseHeld (setSeq s (fun q => { q with held := q.held ++ ps }))

/-- The group commits (R320): its blocks are live, their old pages are free, tokens and version advance. -/
def commitGroup (s : State) (g : SeqGroup) : State :=
  let e := entryOf s g.ctx
  let s := g.blocks.foldl (fun s b =>
    let old := match (oldSlot s g e b).1 with
      | .ok x => x
      | .bad _ => none
    let s := match old with
      | some x => replacePages s (validPages x.pages)
      | none => s
    let x : SeqSlot := {
      pos := b.pos, frame := g.frame, state := 1, fill := b.fill,
      flags := b.flags ||| (match old with | some x => x.flags | none => 0),
      imp := match old with | some x => x.imp | none => rdF s A.SEQ_IMP_CFG 31 16,
      pages := b.pages, scales := b.scales }
    let e' := entryOf s g.ctx
    let wasLive := match old with | some x => x.state == 1 | none => false
    let wasDropped := match old with | some x => x.state == 2 | none => false
    let s := writeSlot s e (b.pos % e.maxBlocks) x
    writeEntry s g.ctx { e' with live := e'.live + 1 - b2n wasLive, dropped := e'.dropped - b2n wasDropped }) s
  let e := entryOf s g.ctx
  let s := writeEntry s g.ctx { e with tokens := e.tokens + g.n, version := (e.version + 1) % 2 ^ 32 }
  setSeq s (fun q => { q with groups := q.groups.filter (fun h => h.ctx != g.ctx) })

/-- The layer of an APPEND is quantised and written, block by block, with the flags of its rows; the blocks with their scales and
flags, elements saturated, elements set to zero. -/
def appendBlocks (s : State) (c : SeqCmd) (f : SeqFields) (e : SeqEntry) (g : SeqGroup) (ks vs : List (List Fr)) :
    Nat × List SeqBlock × Nat × Nat × State :=
  g.blocks.foldl (fun (acc : Nat × List SeqBlock × Nat × Nat × State) b =>
    if acc.1 ≠ 0 then acc
    else
      let s := acc.2.2.2.2
      let t0 := 64 * b.pos - f.pos
      let r0 := f.pos - 64 * b.pos
      let rows (l : List (List Fr)) : List (List Fr) := (l.drop t0).take (64 - r0)
      match oldSlot s g e b with
      | (.bad st, s) => (st, acc.2.1, acc.2.2.1, acc.2.2.2.1, s)
      | (.ok old, s) =>
      match writeBlockLayer s e f.layer r0 old (b.pages.drop (e.ppb * f.layer)) (rows ks) (rows vs) c.cls (seqEcho s c) with
      | (st, sc, sat, fl, s) =>
        match (if st ≠ 0 then (st, [], s) else
            readRuns s .sequence c.cls (seqEcho s c) (flagRun f.tag f.div t0 (min f.n (t0 + (64 - r0))))) with
        | (st, fb, s) =>
          let fb := (fb.map (·.toNat)).foldl (· ||| ·) 0
          (st, acc.2.1 ++ [{ b with scales := b.scales ++ sc, flags := b.flags ||| fb }], acc.2.2.1 + sat,
           acc.2.2.2.1 + fl, s)) (0, [], 0, 0, s)

/-- APPEND completes: its layer is quantised and written, and the last layer commits the group. -/
def seqAppendEnd (s : State) (c : SeqCmd) (mismatch : Bool) : State :=
  let f := parseSeq c.bytes
  match groupOfCtx s f.ctx with
  | none => seqFail s c St.APPEND_ORDER false
  | some g =>
    let fail (s : State) (st : Nat) (inj : Bool) : State :=
      seqFail (match groupOfCtx s f.ctx with | some g => discardGroup s g | none => s) c st inj
    match readEntry s f.ctx with
    | (.bad st, s) => fail s st false
    | (.ok e, s) =>
      match seqRows s c.cls (seqEcho s c) f.fp16 f.kSrc f.stride e.kp f.n with
      | (0, ks, s) =>
        match seqRows s c.cls (seqEcho s c) f.fp16 f.vSrc f.stride e.vp f.n with
        | (0, vs, s) =>
          match seqMismatch s mismatch with
          | (some inj, s) => fail s St.SEQ_MISMATCH inj
          | (none, s) =>
            match appendBlocks s c f e g ks vs with
            | (0, bs, sat, fl, s) =>
              let s := seqQuantCounts s sat fl
              let g' := { g with blocks := bs, layer := g.layer + 1, busy := false, frame := f.frame }
              let s := setSeq s (fun q => { q with groups := q.groups.map (fun h => if h.ctx = f.ctx then g' else h) })
              let s := if f.layer + 1 = e.layers then commitGroup s g' else s
              seqDone s { c with flags := if 0 < sat then jfKvSat else 0 }
            | (st, _, _, _, s) => fail s st false
        | (st, _, s) => fail s st false
      | (st, _, s) => fail s st false

/-! ### RESTORE (R331, R332) -/

/-- RESTORE is accepted: pages are allocated for its layer, unless its block is no longer dropped. -/
def seqRestoreAct (s : State) (c : SeqCmd) (f : SeqFields) (e : SeqEntry) : State :=
  let pos := f.pos / 64
  match slotOfPos s e pos with
  | (.bad st, s) => seqFail s c st false
  | (.ok none, s) => seqDone s { c with flags := jfRestore }
  | (.ok (some x), s) =>
    if x.state ≠ 2 then seqDone s { c with flags := jfRestore }
    else
      -- layer 0 begins the block anew
      let s := if f.layer = 0 then restoreGone s f.ctx pos else s
      match makeRoom s e.ppb e.cls f.frame with
      | (0, s) =>
        match allocPages s e.ppb false with
        | (ps, s) =>
          let inst := match c.issuer with
            | .job _ _ i _ => i
            | .pod _ => 0
          let r := (s.seq.restoring.find? (fun r => r.ctx == f.ctx && r.block.pos == pos)).getD
            { ctx := f.ctx, layer := 0, inst := inst,
              block := { pos := pos, fill := x.fill, flags := 0, pages := [], scales := [] } }
          let r := { r with block := { r.block with pages := r.block.pages ++ ps.map (· + 2 ^ 31) } }
          let s := setSeq s (fun q => { q with
            restoring := q.restoring.filter (fun y => !(y.ctx == f.ctx && y.block.pos == pos)) ++ [r] })
          seqAccept s c
      | (st, s) => seqFail s c st false

/-- The last layer is restored: the block is live again, for the STAGEs that wait for it too. -/
def restoreLive (s : State) (r : SeqRestore) (x : SeqSlot) : State :=
  let e := entryOf s r.ctx
  let y : SeqSlot := { x with state := 1, pages := r.block.pages, scales := r.block.scales }
  let s := writeSlot s e (x.pos % e.maxBlocks) y
  let fill (z : SeqSlot) : SeqSlot := if z.pos = x.pos ∧ z.state = 2 then y else z
  let s := setSeq s (fun q => { q with cmds := q.cmds.map (fun c =>
    if cmdCtx c = r.ctx then { c with picks := c.picks.map fill } else c) })
  let s := writeEntry s r.ctx { e with live := e.live + 1, dropped := e.dropped - 1, version := (e.version + 1) % 2 ^ 32 }
  let s := setSeq s (fun q => { q with
    restoring := q.restoring.filter (fun y => !(y.ctx == r.ctx && y.block.pos == x.pos))
    requests := q.requests.filter (fun y => !(y.ctx == r.ctx && y.pos == x.pos)) })
  seqRegs (bump s A.SEQ_RECOMPUTES 1)

/-- RESTORE completes. -/
def seqRestoreEnd (s : State) (c : SeqCmd) (mismatch : Bool) : State :=
  let f := parseSeq c.bytes
  let pos := f.pos / 64
  let fail (s : State) (st : Nat) (inj : Bool) : State := seqFail (restoreGone s f.ctx pos) c st inj
  match readEntry s f.ctx with
  | (.bad st, s) => fail s st false
  | (.ok e, s) =>
    match slotOfPos s e pos with
    | (.bad st, s) => fail s st false
    | (.ok x, s) =>
    match x, s.seq.restoring.find? (fun r => r.ctx == f.ctx && r.block.pos == pos) with
    | some x, some r =>
      if x.state ≠ 2 then seqDone (restoreGone s f.ctx pos) { c with flags := jfRestore }
      else
        match seqRows s c.cls (seqEcho s c) f.fp16 f.kSrc f.stride e.kp x.fill with
        | (0, ks, s) =>
          match seqRows s c.cls (seqEcho s c) f.fp16 f.vSrc f.stride e.vp x.fill with
          | (0, vs, s) =>
            match seqMismatch s mismatch with
            | (some inj, s) => fail s St.SEQ_MISMATCH inj
            | (none, s) =>
              match writeBlockLayer s e f.layer 0 none (r.block.pages.drop (e.ppb * f.layer)) ks vs c.cls (seqEcho s c) with
              | (0, sc, sat, fl, s) =>
                let s := seqQuantCounts s sat fl
                let r := { r with layer := r.layer + 1, block := { r.block with scales := r.block.scales ++ sc } }
                let s := setSeq s (fun q => { q with
                  restoring := q.restoring.map (fun y => if y.ctx = f.ctx ∧ y.block.pos = pos then r else y) })
                let s := if f.layer + 1 = e.layers then restoreLive s r x else s
                seqDone s { c with flags := if 0 < sat then jfKvSat else 0 }
              | (st, _, _, _, s) => fail s st false
          | (st, _, s) => fail s st false
        | (st, _, s) => fail s st false
    | _, _ => seqDone (restoreGone s f.ctx pos) { c with flags := jfRestore }

/-! ### STAGE (R323 to R327, R331, R333) -/

/-- The word of saved_version of a layer (R311). -/
def savedVersion (s : State) (e : SeqEntry) (l : Nat) : Nat := leNat ((mapRead e 1 s (4 * l) 4).2.1)

/-- The blocks that a STAGE selects, positions ascending, whether VOID ones were left out, and whether too many were
found (R326). -/
def stageSelect (s : State) (f : SeqFields) (bs : List (Nat × SeqSlot)) : List SeqSlot × Bool × Bool :=
  let marked := smGet (fun _ => []) s.seq.marks (64 * f.ctx + f.layer)
  let hit (x : SeqSlot) : Bool :=
    if f.select = 1 then
      let lag := (f.frame + 2 ^ 32 - x.frame % 2 ^ 32) % 2 ^ 32
      decide (f.lagLo ≤ lag ∧ lag ≤ f.lagHi)
    else if f.select = 2 then decide (f.posLo ≤ x.pos ∧ x.pos ≤ f.posHi)
    else marked.contains x.pos
  let sel := (bs.map (·.2)).filter (fun x => slotHeld x && hit x)
  let ok := sel.filter (fun x => !bitN x.flags 4)
  let ps := sortBy (fun (a b : SeqSlot) => decide (a.pos < b.pos)) ok
  (ps.drop (ps.length - f.bMax), decide (ok.length < sel.length), decide (f.bMax < ps.length))

/-- A live view, or an earlier STAGE that waits, overlaps the frames of a view; a view that a failed execution of the
same job staged at the same frame does not count (R324, R325). -/
def stageBlocked (s : State) (id frame0 frames : Nat) : Bool :=
  s.seq.views.any (fun v => framesOverlap v.frame0 v.frames frame0 frames) ||
  s.seq.cmds.any (fun c => decide (c.id < id) && c.stage == .blocked &&
    (let g := parseSeq c.bytes
     framesOverlap g.frame0 (viewFrames (entryOf s g.ctx) g.bMax) frame0 frames))

/-- A dropped block is asked for, unless it has been already: STAGEs share one request (R331). -/
def askRecompute (f : SeqFields) (e : SeqEntry) (s : State) (x : SeqSlot) : State :=
  if x.state = 2 ∧ s.seq.requests.any (fun r => r.ctx == f.ctx && r.pos == x.pos) = false then
    let body := leBytes 4 f.ctx ++ leBytes 4 x.pos ++ leBytes 4 x.frame ++ leBytes 1 e.layers ++ zeros 3 ++ leBytes 8 e.aux
      ++ zeros 8
    let r : SeqRequest := {
      ctx := f.ctx, pos := x.pos, at_ := s.ridge, slot := e.recompSlot, sent := false,
      start := { cause := .recompute f.ctx x.pos, entry := e.recompEntry, frame := f.frame, cls := e.cls, seq := 0,
                 body := body } }
    setSeq s (fun q => { q with requests := q.requests ++ [r] })
  else s

/-- A STAGE proceeds: its frames are live, and dropped blocks are asked for (R324, R331). -/
def stageProceed (s : State) (c : SeqCmd) : State :=
  let f := parseSeq c.bytes
  let e := entryOf s f.ctx
  let who := match c.issuer with
    | .job x _ i j => (i, j, x)
    | .pod _ => (0, 0, 0)
  let v : SeqView := {
    ctx := f.ctx, layer := f.layer, frame0 := f.frame0, frames := viewFrames e f.bMax, cls := e.cls, inst := who.1,
    job := who.2.1, exec := who.2.2,
    slots := (List.range f.bMax).map (fun i => (c.picks[i]?).map (·.pos)) }
  let s := viewRegs (setSeq s (fun q => { q with views := q.views ++ [v] }))
  let s := updCmd s c.id (fun d => { d with stage := .copying })
  seqRegs (c.picks.foldl (askRecompute f e) s)

/-- STAGE is accepted: it selects and pins its blocks. -/
def seqStageAct (s : State) (c : SeqCmd) (f : SeqFields) (e : SeqEntry) : State :=
  if f.select = 3 ∧ savedVersion s e f.layer ≠ e.version then seqFail s c St.STATS_STALE false
  else
    match readSlots s e with
    | (.bad st, s) => seqFail s c st false
    | (.ok bs, s) =>
      let sel := stageSelect s f bs
      if strict s = true ∧ sel.1.any (fun x => x.state == 2) = true then
        seqFail s c St.PAGE_DROP_FORBIDDEN false
      else
        let s := if f.mark then
            setSeq (mapWrite e 1 s (4 * f.layer) (leBytes 4 e.version))
              (fun q => { q with marks := smPut q.marks (64 * f.ctx + f.layer) (sel.1.map (·.pos)) })
          else s
        let c := { c with picks := sel.1, hadVoid := sel.2.1, flags := if sel.2.2 then jfTruncated else 0 }
        -- a view of a failed execution of the same job is replaced
        let s := match c.issuer with
          | .job x _ i j => dropViews s (fun v => v.inst == i && v.job == j && v.frame0 == f.frame0 && v.exec != x)
          | .pod _ => s
        if stageBlocked s c.id f.frame0 (viewFrames e f.bMax) then seqAccept s { c with stage := .blocked }
        else stageProceed (seqAccept s { c with stage := .copying }) c

/-- The bytes of part `p` of a view (Table 11.7): slots in order, zero beyond. -/
def viewPart (s : State) (e : SeqEntry) (l bMax p : Nat) (slots : List (Option SeqSlot)) : List Byte :=
  let page (x : SeqSlot) : List Byte := memBytes s (seqPool s + 16384 * (x.pages.getD (l * e.ppb + p) 0 % 2 ^ 21)) 16384
  let pages := slots.map (fun x => match x with | some x => page x | none => zeros 16384)
  if p < e.kp ∨ e.vTok = true then pages.flatten
  else (List.range 256).flatMap (fun d => (List.range bMax).flatMap (fun b => ((pages.getD b []).drop (64 * d)).take 64))

/-- The auxiliary bytes of a view. -/
def viewAux (e : SeqEntry) (f : SeqFields) (slots : List (Option SeqSlot)) (tag : Tag) : List Byte :=
  let a := auxParts e f.bMax
  let t := 64 * f.bMax
  let scale (p j : Nat) : Nat :=
    match slots.getD (j / 64) none with
    | some x => x.scales.getD (64 * (f.layer * e.tokPages + p) + j % 64) 0
    | none => 0
  let part (p : Nat) : List Byte := (List.range t).flatMap (fun j => leBytes 2 (scale p j))
  let k := (List.range e.kp).flatMap part
  let v := if e.vTok then (List.range e.vp).flatMap (fun p => part (e.kp + p))
    else (List.range (256 * e.vp)).flatMap (fun _ => leBytes 2 0x3C00)
  let mask := (List.range t).flatMap (fun j =>
    match slots.getD (j / 64) none with
    | some x => leBytes 4 (if j % 64 < x.fill then 0 else 0xFF7FFFFF)
    | none => leBytes 4 0xFF7FFFFF)
  let pos := (List.range f.bMax).flatMap (fun i =>
    match slots.getD i none with
    | some x => leBytes 4 x.pos
    | none => leBytes 4 0xFFFFFFFF)
  padTo a.2.2.1 (k ++ v) ++ padTo (a.2.2.2.1 - a.2.2.1) mask ++ padTo (a.2.2.2.2.1 - a.2.2.2.1) pos ++ padTo 64 (tagBytes tag)

/-- The blocks of a STAGE are live again or were never dropped: it can copy. -/
def stageReady (c : SeqCmd) : Bool := c.picks.all (fun x => x.state == 1)

/-- The copy of a STAGE reads the pages of its layer through their check words and granules. -/
def stageCopy (s : State) (c : SeqCmd) (f : SeqFields) (e : SeqEntry) (used : List SeqSlot) : Nat × State :=
  used.foldl (fun (acc : Nat × State) x =>
    (List.range e.ppb).foldl (fun acc p =>
      if acc.1 ≠ 0 then acc
      else
        match memRead acc.2 .sequence (seqPool s + 16384 * (x.pages.getD (f.layer * e.ppb + p) 0 % 2 ^ 21)) 16384 c.cls f.ctx (seqEcho s c) with
        | (st, _, s) => (st, s)) acc) (0, s)

/-- STAGE completes: the blocks are copied, and the view is written with its tag. -/
def seqStageEnd (s : State) (c : SeqCmd) (mismatch : Bool) : State :=
  let f := parseSeq c.bytes
  match readEntry s f.ctx with
  | (.bad st, s) => seqFail s c st false
  | (.ok e, s) =>
    if stageReady c = false then s
    else
      let slots := (List.range f.bMax).map (fun i => c.picks[i]?)
      let used := slots.filterMap id
      match stageCopy s c f e used with
      | (0, s) =>
        match seqMismatch s mismatch with
        | (some inj, s) => seqFail s c St.SEQ_MISMATCH inj
        | (none, s) =>
          let last := (slots.zipIdx.filter (fun x => x.1.isSome)).getLast?
          let gap := match last with
            | some x => (slots.take x.2).any (fun y => y.isNone)
            | none => false
          let fl := inheritFlags (used.map (·.flags)) ||| (if c.hadVoid || gap then flPad else 0)
          let tag : Tag := { frame := f.frame, stream := e.stream, settings := 0, cls := e.cls, flags := fl }
          let parts := (List.range e.ppb).flatMap (fun p => viewPart s e f.layer f.bMax p slots)
          let aux := viewAux e f slots tag
          match memWrite s .sequence (cacheFrame f.frame0) (parts ++ aux) c.cls (seqEcho s c) with
          | (0, s) => seqDone (bump s A.SEQ_STAGE_BYTES (parts.length + aux.length)) c
          | (st, s) => seqFail s c st false
      | (st, s) => seqFail s c st false

/-! ### RELEASE and IMPORTANCE (R324, R328) -/

/-- The view that a RELEASE or IMPORTANCE names is still being staged: a STAGE copies it, or one of its own context
waits at its frame where no view of that context is live yet (R317, R324). -/
def viewPending (s : State) (c : SeqCmd) : Bool :=
  let f0 := (parseSeq c.bytes).frame0
  s.seq.cmds.any (fun d => cmdOp d == 4 && (parseSeq d.bytes).frame0 == f0 &&
    (d.stage == .copying || (d.stage == .blocked && cmdCtx d == cmdCtx c &&
      !s.seq.views.any (fun v => v.frame0 == f0 && v.ctx == cmdCtx c))))

/-- RELEASE: the view's frames are free. -/
def seqReleaseAct (s : State) (c : SeqCmd) (f : SeqFields) (_ : SeqEntry) : State :=
  seqDone (dropViews s (fun v => v.frame0 == f.frame0)) c

/-- The new score of a block (R328). -/
def newScore (d score : Nat) (m : Fr) : Nat :=
  let add := min 65535 (rne (frShift (if m.n < 0 then frInt 0 else m) 8)).toNat
  min 65535 (score - score / 2 ^ d + add)

/-- IMPORTANCE: the scores of the view's blocks. -/
def seqImportanceAct (s : State) (c : SeqCmd) (f : SeqFields) (e : SeqEntry) : State :=
  match viewAt s f.frame0 with
  | none => seqFail s c St.VIEW_NOT_FOUND false
  | some v =>
    match memRead s .sequence f.mass (4 * v.slots.length) c.cls f.ctx (seqEcho s c) with
    | (0, b, s) =>
      let ms := (List.range v.slots.length).map (fun i => f32v (leAt b (4 * i) 4))
      if ms.all fpFinite = false then seqFail s c St.ARITH_NONFINITE false
      else
        let d := rdF s A.SEQ_IMP_CFG 3 0
        let named := (v.slots.zip ms).filterMap (fun x => x.1.map (fun p => (p, x.2)))
        match slotsOf s e (named.map (·.1)) with
        | (.bad st, s) => seqFail s c st false
        | (.ok ys, s) =>
          seqDone (ys.foldl (fun s y =>
            match named.find? (fun x => x.1 == y.pos) with
            | some x => writeSlot s e (y.pos % e.maxBlocks) { y with imp := newScore d y.imp (fpVal x.2) }
            | none => s) s) c
    | (st, _, s) => seqFail s c st false

/-! ### Control -/

/-- The regions obey R307, and the class S share fits the pool (R338). -/
def seqRegionsOk (s : State) : Bool :=
  let d := seqDir s
  let w := seqWork s
  let p := seqPool s
  let n := 0x40000000 * rdF s A.SEQ_POOL_SIZE 5 0
  let apart (a n b m : Nat) : Bool := decide (a + n ≤ b) || decide (b + m ≤ a)
  d % 0x4000000 == 0 && w % 0x200000 == 0 && p % 0x200000 == 0 && decide (1 ≤ rdF s A.SEQ_POOL_SIZE 5 0 ∧ rdF s A.SEQ_POOL_SIZE 5 0 ≤ 32)
    && inDram d 0x4000000 && inDram w 0x1000000 && inDram p n
    && apart d 0x4000000 w 0x1000000 && apart d 0x4000000 p n && apart w 0x1000000 p n
    && decide (poolShareS s ≤ poolPages s)

/-- A write of SEQ_CTL takes effect (R338): enable, which follows the regions and the open contexts, and drop_enable,
which the engine ignores while it is enabled. -/
def applySeqCtl (s : State) (v : Nat) : State :=
  if seqOn s then
    if bitN v 0 ∨ rd s A.SEQ_CONTEXTS ≠ 0 then s
    else poolRegs (wrF (wrF s A.SEQ_CTL 0 0 0) A.SEQ_STATUS 0 0 0)
  else if bitN v 0 = false then applyPlain s A.SEQ_CTL v
  else if seqRegionsOk s then poolRegs (wrF (applyPlain s A.SEQ_CTL v) A.SEQ_STATUS 0 0 1)
  else configRejected (applyPlain s A.SEQ_CTL (setFldN v 0 0 0)) 0x200

/-- RWL fields of pages 0x200 and 0x201, which ignore writes while the engine is enabled. -/
def seqFrozen (s : State) (a : Nat) : Bool :=
  seqOn s && (a / 0x1000 == 0x200 || a / 0x1000 == 0x201) && a != A.SEQ_CTL &&
  (match findReg a with
   | some (row, _) => row.acc == .rwl
   | none => false)

/-! ### Commands -/

/-- OPEN. -/
def execSeqOpen (src : SeqFrom) (s : State) : Host.Outcome State Fault Refusal :=
  whenOn (fun s => seqCommand s src 1 (fun s c => ctxBusy s (cmdCtx c) || openWaits s c) seqOpenAct) s

/-- CLOSE: the context takes no further command; SEQ_COMMAND_COMPLETE frees its pages. -/
def execSeqClose (src : SeqFrom) (s : State) : Host.Outcome State Fault Refusal :=
  whenOn (fun s => seqCommand s src 2 (fun _ _ => false) seqCloseAct) s

/-- APPEND is accepted; SEQ_COMMAND_COMPLETE ends it. -/
def execSeqAppend (src : SeqFrom) (s : State) : Host.Outcome State Fault Refusal :=
  whenOn (fun s => seqCommand s src 3 (fun s c => ctxBusy s (cmdCtx c) || appendWaits s c) seqAppendAct) s

/-- STAGE is accepted. -/
def execSeqStage (src : SeqFrom) (s : State) : Host.Outcome State Fault Refusal :=
  whenOn (fun s => seqCommand s src 4 (fun _ _ => false) seqStageAct) s

/-- STAGE_START: a STAGE that waited for a view starts (R324). -/
def execStageStart (id : Nat) (s : State) : Host.Outcome State Fault Refusal :=
  whenOn (fun s =>
    match s.seq.cmds.find? (fun c => c.id == id && c.stage == .blocked) with
    | none => s
    | some c =>
      let f := parseSeq c.bytes
      if stageBlocked s c.id f.frame0 (viewFrames (entryOf s f.ctx) f.bMax) then s else stageProceed s c) s

/-- STAGE_COPY_DONE: the copy of a STAGE ends; `mismatch` tells that the two datapaths differed. -/
def execStageCopyDone (id : Nat) (mismatch : Bool) (s : State) : Host.Outcome State Fault Refusal :=
  whenOn (fun s =>
    match s.seq.cmds.find? (fun c => c.id == id && c.stage == .copying) with
    | none => s
    | some c => if seqFills s then s else seqStageEnd s c mismatch) s

/-- RELEASE. -/
def execSeqRelease (src : SeqFrom) (s : State) : Host.Outcome State Fault Refusal :=
  whenOn (fun s => seqCommand s src 5 viewPending seqReleaseAct) s

/-- IMPORTANCE. -/
def execSeqImportance (src : SeqFrom) (s : State) : Host.Outcome State Fault Refusal :=
  whenOn (fun s => seqCommand s src 6 (fun s c => ctxBusy s (cmdCtx c) || viewPending s c) seqImportanceAct) s

/-- RESTORE is accepted; SEQ_COMMAND_COMPLETE ends it. -/
def execSeqRestore (src : SeqFrom) (s : State) : Host.Outcome State Fault Refusal :=
  whenOn (fun s => seqCommand s src 7 (fun s c => ctxBusy s (cmdCtx c)) seqRestoreAct) s

/-- SEQ_COMMAND_COMPLETE: an APPEND, RESTORE or CLOSE that took time ends, after the earlier ones of its context;
`mismatch` tells that the two datapaths differed. -/
def execSeqCommandComplete (id : Nat) (mismatch : Bool) (s : State) : Host.Outcome State Fault Refusal :=
  whenOn (fun s =>
    match s.seq.cmds.find? (fun c => c.id == id && c.stage == .running) with
    | none => s
    | some c =>
      if seqWaits s c || s.seq.cmds.any (fun d => d.stage == .running && cmdCtx d == cmdCtx c && decide (d.id < c.id)) then s
      else if cmdOp c = 3 then seqAppendEnd s c mismatch
      else if cmdOp c = 7 then seqRestoreEnd s c mismatch
      else seqCloseEnd s c) s

/-- RECOMPUTE_TIMEOUT: a block is not live within SEQ_RECOMP_TIMEOUT of its request, and the STAGEs that wait for it
fail (R332). -/
def execRecomputeTimeout (ctx : BitVec 20) (pos : Nat) (s : State) : Host.Outcome State Fault Refusal :=
  whenOn (fun s =>
    match s.seq.requests.find? (fun r => r.ctx == ctx.toNat && r.pos == pos) with
    | none => s
    | some r =>
      if s.ridge ≤ r.at_ + 1000 * rdF s A.SEQ_RECOMP_TIMEOUT 19 0 then s
      else
        let s := seqRegs (setSeq s (fun q => { q with
          requests := q.requests.filter (fun y => !(y.ctx == r.ctx && y.pos == r.pos)) }))
        (stagesFor s r.ctx r.pos).foldl (fun s c => seqFail s c St.RECOMPUTE_TIMEOUT false) s) s

/-- SEQ_CTL: the engine is enabled or disabled. -/
def execSeqCtl (agent : Agent) (v : Word) (s : State) : Host.Outcome State Fault Refusal :=
  whenOn (fun s => namedWrite s agent A.SEQ_CTL v.toNat (fun s => applySeqCtl s v.toNat)) s

/-- SEQ_INJECT: a guarded write arms a bit flip on the second datapath. -/
def execSeqInject (agent : Agent) (v : Word) (s : State) : Host.Outcome State Fault Refusal :=
  whenOn (fun s => namedWrite s agent A.SEQ_INJECT v.toNat (fun s => applyPlain s A.SEQ_INJECT v.toNat)) s

end Sys2Proof.Machine
end

