-- ==== Sys2Proof/Machine/JobCommands.lean ====
section
/-!
DEFINITION. The scheduler: graphs loaded and unloaded, instances started, jobs fired, completed, timed out and executed
again (R339 to R346, R348 to R351, R467).
-/

namespace Sys2Proof.Machine

/-! ### Graph images (R339 to R341) -/

/-- An address range is 64-aligned and lies in populated local DRAM outside the firmware region. -/
def dramRange (a n : Nat) : Bool := decide (a % 64 = 0) && inDram a n

/-- The header of an image is well formed (Table 12.1): fields no row of the table defines are reserved. -/
def headerOk (h : List Byte) (len : Nat) : Bool :=
  let jobs := leAt h 4 2
  let param := leAt h 8 8
  let size := leAt h 16 4
  let table := leAt h 20 4
  decide (leAt h 0 1 = 1 ∧ 1 ≤ leAt h 1 1 ∧ leAt h 1 1 ≤ 3 ∧ leAt h 2 1 < 0x20 ∧ leAt h 3 1 = 0 ∧ leAt h 6 2 = 0
      ∧ leNat (h.drop 24) = 0) &&
    decide (1 ≤ jobs ∧ jobs ≤ 4096 ∧ size ≤ 65488) && (param == 0) == (size == 0) && (size == 0 || dramRange param size) &&
    decide (64 ≤ table ∧ table % 64 = 0 ∧ table + 64 * jobs ≤ len)

/-- Wait `w` of a job entry. -/
def parseWait (e : List Byte) (w : Nat) : JobWait :=
  { peg := leAt e (8 + 8 * w) 2, lag := leAt e (10 + 8 * w) 1, epoch := bitN (leAt e (11 + 8 * w) 1) 0,
    target := leAt e (12 + 8 * w) 4 }

/-- Read a job entry (Table 12.2). -/
def parseJob (e : List Byte) : JobEntry :=
  { index := leAt e 0 2, unit := leAt e 2 1, exit := bitN (leAt e 3 1) 0, orderFree := bitN (leAt e 3 1) 1,
    covered := bitN (leAt e 3 1) 2, peg := leAt e 4 2, waits := (List.range (leAt e 6 1)).map (parseWait e),
    hops := leAt e 7 1, descOffset := leAt e 40 4, descCount := leAt e 44 4, timeout := leAt e 48 4, ring := leAt e 52 1,
    stream := leAt e 54 2, result := leAt e 56 8 }

/-- A job entry is well formed (Table 12.2, R341, R439): a byte or bit that no field of its unit defines is reserved. -/
def entryOk (e : List Byte) (i len : Nat) (bound : Bool) : Bool :=
  let x := parseJob e
  let emitter := x.unit == 6
  let waits := (List.range 4).all (fun w =>
    if w < leAt e 6 1 then decide (leAt e (11 + 8 * w) 1 ≤ 1) && refWellFormed (leAt e (8 + 8 * w) 2)
    else leAt e (8 + 8 * w) 8 == 0)
  decide (x.index = i ∧ x.unit ≤ 6 ∧ leAt e 3 1 < 8 ∧ leAt e 6 1 ≤ 4 ∧ leAt e 53 1 = 0 ∧ x.descOffset % 64 = 0
      ∧ 1 ≤ x.timeout ∧ x.timeout ≤ 1000000) &&
    refWellFormed x.peg && waits && (!x.covered || (emitter && bound)) &&
    (if emitter then
      decide (x.ring < 16 ∧ 0x400 ≤ x.stream ∧ x.stream ≤ 0xFFF ∧ 1 ≤ x.descCount ∧ x.descCount ≤ 2097016)
    else
      decide (x.ring = 0 ∧ x.stream = 0 ∧ x.result = 0 ∧ 1 ≤ x.descCount ∧ x.descCount ≤ 65536
        ∧ x.descOffset + (if x.unit = 5 then 64 else 128) * x.descCount ≤ len))

/-- The graph of an image. -/
def parseGraph (addr len : Nat) (h : List Byte) (entries : List (List Byte)) : Graph :=
  { addr := addr, len := len, cls := fldN (leAt h 1 1) 1 0, bound := bitN (leAt h 2 1) 0, fg := fldN (leAt h 2 1) 3 1,
    notify := bitN (leAt h 2 1) 4, jobs := entries.map parseJob, paramAddr := leAt h 8 8, paramSize := leAt h 16 4 }

/-- A slot lies in the slot range of a class (R44). -/
def slotPermits (s : State) (cls slot : Nat) : Bool :=
  let w := rd s (0x4100 + 4 * cls)
  decide (fldN w 7 0 ≤ slot ∧ slot ≤ fldN w 15 8)

/-- Steps 3 to 5 of R341: the status of the first failure, or 0. -/
def graphStatus (s : State) (slot : Nat) (g : Graph) : Nat :=
  let reserved := g.jobs.any (fun e => refReserved e.peg || e.waits.any (fun w => refReserved w.peg))
  if rd s A.DSP_JOBS_FREE < g.jobs.length then St.GRAPH_TOO_LARGE
  else if reserved then St.PEG_INVALID
  else if (g.cls == clsS && split s) || !slotPermits s g.cls slot
      || g.jobs.any (fun e => decide (e.unit < 4) && !(classClusters s g.cls).contains e.unit) then St.CLASS_UNAVAILABLE
  else 0

/-- Read and check an image: its graph and 0, or the status of the first failure (R341). -/
def readGraph (s : State) (slot addr len cls echo : Nat) : Nat × Option Graph × State :=
  if (graphOf s slot).isSome then (St.GRAPH_SLOT_BUSY, none, s)
  else
    match memRead s .dispatch addr 64 cls (echo := echo) with
    | (0, h, s) =>
      if headerOk h len = false then (St.GRAPH_INVALID, none, s)
      else
        let n := leAt h 4 2
        match memRead s .dispatch (addr + leAt h 20 4) (64 * n) cls (echo := echo) with
        | (0, b, s) =>
          let es := (List.range n).map (fun i => (b.drop (64 * i)).take 64)
          if (List.range n).all (fun i => entryOk (es.getD i []) i len (bitN (leAt h 2 1) 0)) then
            let g := parseGraph addr len h es
            (graphStatus s slot g, some g, s)
          else (St.GRAPH_INVALID, none, s)
        | (st, _, s) => (st, none, s)
    | (st, _, s) => (st, none, s)

/-- GRAPH_LOAD (R339, R341). -/
def graphLoad (s : State) (no : Nat) : State :=
  let wait := s
  match takePod s no 4 (isControl 5 1) with
  | none => s
  | some (p, s) =>
    let slot := leAt p.body 0 1
    let addr := leAt p.body 8 8
    let len := leAt p.body 16 4
    if p.hdr.length ≠ 3 ∨ leAt p.body 1 7 ≠ 0 ∨ leNat (p.body.drop 20) ≠ 0 ∨ len < 64 ∨ dramRange addr len = false then
      podComplete s no St.GRAPH_INVALID
    else if encWaits s addr len then wait
    else
      match readGraph s slot addr len p.hdr.cls p.hdr.sequence with
      | (0, some g, s) => podComplete (dspRegs (setGraph s slot (some g))) no 0
      | (st, _, s) => podComplete (if st = St.CLASS_UNAVAILABLE then raise s 0x004 1 else s) no st

/-- GRAPH_UNLOAD (R339, R342). The spec gives no status for a slot that holds no image: it is a free value. -/
def graphUnload (s : State) (no : Nat) : State :=
  match takePod s no 4 (isControl 5 2) with
  | none => s
  | some (p, s) =>
    let slot := leAt p.body 0 1
    if p.hdr.length ≠ 3 ∨ leNat (p.body.drop 1) ≠ 0 then podComplete s no St.GRAPH_INVALID
    else
      match graphOf s slot with
      | none => podComplete (drawFree s).2 no ((drawFree s).1 % 65536)
      | some g =>
        if (g.bound && fgOn s g.fg) || g.unload.isSome then podComplete s no St.GRAPH_SLOT_BUSY
        else if (activeInsts s).any (fun x => x.slot == slot) then setGraph s slot (some { g with unload := some no })
        else unloadGraph s slot no

/-! ### On-demand instances (R331, R343) -/

/-- Requests that wait in dispatch enter their slot's queue as it has room. -/
def admitStarts (s : State) (slot : Nat) : State :=
  match graphOf s slot with
  | none => s
  | some g =>
    let mine := s.starts.filter (fun e => e.1 == slot)
    let n := 16 - g.queue.length
    let rest := (mine.drop n) ++ s.starts.filter (fun e => e.1 != slot)
    setGraph { s with starts := rest } slot (some { g with queue := g.queue ++ (mine.take n).map (·.2) })

/-- The parameter block or pod body is written to param_addr before the entry job's waits are evaluated (R343). -/
def writeParams (s : State) (g : Graph) (q : StartReq) : Nat × State :=
  if g.paramSize = 0 then (0, s) else memWrite s .dispatch g.paramAddr (q.body.take g.paramSize) g.cls q.seq

/-- A queued request may start: a job pod once its own start conditions hold (R35). -/
def queueReady (s : State) (q : StartReq) : Bool :=
  match q.cause with
  | .pod no => (match podAt s no with | some p => p.stage == .running | none => false)
  | _ => true

/-- The head of a slot's queue starts an instance when the slot is free. -/
def instanceStart (s : State) (slot : Nat) : State :=
  let s := admitStarts s slot
  match graphOf s slot with
  | none => s
  | some g =>
    match g.queue with
    | [] => s
    | q :: rest =>
      if encWaits s g.paramAddr g.paramSize || g.bound || g.unload.isSome || !queueReady s q || (activeInsts s).any (fun x => x.slot == slot) then s
      else
        let s := setGraph s slot (some { g with queue := rest })
        match writeParams s g q with
        | (st, s) =>
          let s := match q.cause with
            | .pod no => (podAt s no).elim s (fun p => markState s p.hdr.origin p.hdr.sequence .running)
            | _ => s
          let x := newInstance s slot g q.cause q.frame q.cls q.seq q.entry none
          let s := addInstance s x
          if st = 0 then s else endInst s x st .failed

/-! ### Firing (R345, R348, R350, R530) -/

/-- Instances in the order of issue: class, then slot; the oldest first. -/
def issueOrder (s : State) : List Instance :=
  sortBy (fun a b => decide (a.cls < b.cls) || (a.cls == b.cls && decide (a.slot < b.slot))) s.insts

/-- The job that fires next. -/
def nextReady (s : State) : Option (Instance × JobRun) :=
  (issueOrder s).findSome? (fun x => (x.jobs.find? (jobReady s x)).map (fun j => (x, j)))

/-- A job fires: it takes an execution sequence and a cluster, and wakes the domains it uses. -/
def fireJob (s : State) (x : Instance) (j : JobRun) (retries : Nat) : State :=
  let r : JobRun := { j with
    stage := .running, met := jobMet s x j, exec := s.nextExec, cluster := placeJob s x.cls j.entry,
    firedAt := s.ridge, issued := [], finished := 0, retries := retries }
  let s := bump { s with nextExec := (s.nextExec + 1) % 2 ^ 32 } A.DSP_FIRED 1
  let s := updJob s x.id j.entry.index (fun _ => r)
  let s := updInst s x.id (fun y => { y with fired := some (y.fired.getD s.ridge) })
  (jobDomains r).foldl wakeRequest s

/-- JOB_FIRE: the next ready job fires, or its instance ends for a wait on a peg that is not configured (R294). -/
def jobFire (s : State) : State :=
  if coreStalled s 2 then s
  else
    match nextReady s with
    | none => s
    | some (x, j) =>
      if badWait s x j then failJob s x j St.PEG_UNCONFIGURED else fireJob s x j j.retries

/-! ### Completion (R346, R362) -/

/-- A job completes: its peg counts, what it left open is discarded, and its instance may complete. -/
def jobDone (s : State) (x : Instance) (j : JobRun) : State :=
  if refNames j.entry.peg && pegMode (pegAt s j.entry.peg) == 0 then failExec s j.exec St.PEG_UNCONFIGURED
  else
    let s := seqJobEnded (pegInc s j.entry.peg .count 1 (some x.frame) x.cls x.seq) j.exec
    settleInst (updJob s x.id j.entry.index (fun r => { r with stage := .done })) x.id

/-- A result emitter reads its tag and content and forms its result pod (R362). -/
def runEmitter (s : State) (x : Instance) (j : JobRun) : Nat × State :=
  match memRead s .dispatch j.entry.result 8 x.cls (echo := x.seq) with
  | (0, t, s) =>
    match memRead s .dispatch (j.entry.result + 64) j.entry.descCount x.cls (echo := x.seq) with
    | (0, content, s) => (0, emitResult s x j.entry (parseTag (leNat t)) content)
    | (st, _, s) => (st, s)
  | (st, _, s) => (st, s)

/-- JOB_COMPLETE: the last descriptor or command of a firing has completed. A completion of a retired firing is
discarded (R350), as is one that follows its deadline (R347). -/
def jobComplete (s : State) (exec : Nat) : State :=
  match findExec s exec with
  | none => lateDiscard s
  | some (x, j) =>
    if jobAwake s j = false ∨ (j.entry.unit = 6 ∧ encWaits s j.entry.result (64 + j.entry.descCount) = true) then s
    else if x.life = .cut then
      if j.entry.unit ≠ 6 ∧ j.finished < j.entry.descCount then s else cancelJob (lateDiscard s) x j
    else if j.entry.unit = 6 then
      match runEmitter s x j with
      | (0, s) =>
        (match findExec s exec with
         | some (y, k) => jobDone s y k
         | none => s)
      | (st, s) => failExec s exec st
    else if j.finished < j.entry.descCount then s
    else jobDone s x j

/-! ### Timeouts (R348, R350, R351) -/

/-- JOB_TIMEOUT: the effective timeout of a firing expires. -/
def jobTimeout (s : State) (exec : Nat) : State :=
  match findExec s exec with
  | none => s
  | some (x, j) =>
    if jobAwake s j = false ∨ s.ridge < j.firedAt + effTimeout j.entry then s
    else
      let s := raise (bumpSat s A.DSP_TIMEOUTS 1) 0x0E0 2
      let s := report s { source := 0x101, status := St.JOB_TIMEOUT, tag := j.linkTag, cls := x.cls, echo := x.seq,
                          exhausted := decide (retryLimit s ≤ j.retries) }
      jobLost s exec St.JOB_TIMEOUT

/-! ### Re-execution (R239, R252, R334, R467, R468) -/

/-- Arrays of a cluster that run nothing, are in service, and are neither fenced nor under test. -/
def freeArrays (s : State) (c : Nat) : List Nat :=
  (List.range 4).filter (fun a =>
    !unitFenced s c a && (arrOps s c a).isEmpty && !bistBusy s (4 * c + a) && unitOn s (0x104 + 0x40 * c + a))

/-- The arrays on which a failed operation of `n` arrays runs again: those its issue does not use come first, then
those the issue has released, and its own array last (R467). -/
def reexecArrays (s : State) (op : Op) (n : Nat) : Option (List Nat) :=
  let free := freeArrays s op.cluster
  let own (a : Nat) : Bool := a == op.unit || op.partner == some a
  let outside := free.filter (fun a => !op.issueUnits.contains a && !own a)
  let released := free.filter (fun a => op.issueUnits.contains a && !own a)
  let l := outside ++ released
  let busyOther := (List.range 4).any (fun a => !unitFenced s op.cluster a && !own a && !l.contains a)
  if n ≤ l.length then some (l.take n)
  else if busyOther then none
  else
    let l := l ++ free.filter own
    if n ≤ l.length then some (l.take n) else none

/-- A failed operation of an array starts again. -/
def reexecArray (s : State) (op : Op) : State :=
  let n := if op.partner.isSome then 2 else 1
  let d := parseArr op.desc
  if (List.range 4).countP (fun a => !unitFenced s op.cluster a) < n then failExec (opGone s op) op.exec St.ARRAY_FENCED
  else if streamFits s op = false then s
  else
    match reexecArrays s op n with
    | none => s
    | some l =>
      let f (o : Op) : Op := { o with
        unit := l.getD 0 0, partner := if op.partner.isSome then l[1]? else none, stage := .waiting,
        issueUnits := o.issueUnits ++ l, retries := o.retries + 1, startedAt := s.ridge }
      let s := jobFlags (updOp s op.id f) op.exec jfReexec
      let s := opBegin s (f op) (arrOperands d)
      rotRegs (l.foldl (fun s a => arrStart s op.cluster a d) s) op.cluster

/-- A failed operation of an engine is queued on the same engine again. -/
def reexecEngine (s : State) (op : Op) : State :=
  if unitFenced s op.cluster op.unit then failExec (opGone s op) op.exec St.ENGINE_FENCED
  else
    let s := updOp s op.id (fun o => { o with stage := .queued, retries := o.retries + 1 })
    engNext (jobFlags s op.exec jfReexec) op.cluster (op.unit - 4)

/-- What a sequence command does once it is accepted, by its op. -/
def seqAct (op : Nat) : State → SeqCmd → SeqFields → SeqEntry → State :=
  if op = 1 then seqOpenAct else if op = 2 then seqCloseAct else if op = 3 then seqAppendAct
  else if op = 4 then seqStageAct else if op = 5 then seqReleaseAct else if op = 6 then seqImportanceAct
  else seqRestoreAct

/-- A failed sequence command is issued again. -/
def reexecSeq (s : State) (id : Nat) : State :=
  match s.seq.failed.find? (fun c => c.1.id == id) with
  | none => s
  | some (c, _) =>
    let s := setSeq s (fun q => { q with failed := q.failed.filter (fun d => d.1.id != id) })
    let s := match c.issuer with
      | .job x _ _ _ => jobFlags s x jfReexec
      | .pod _ => s
    let c1 : SeqCmd := { c with stage := .running, acceptedAt := s.ridge, retries := c.retries + 1, picks := [], flags := 0 }
    seqRun s c1 (seqAct (cmdOp c))

/-- A timed-out job fires again with a new execution sequence (R350). -/
def reexecJob (s : State) (inst job : Nat) : State :=
  match s.insts.find? (fun x => x.id == inst) with
  | none => s
  | some x =>
    match x.jobs.find? (fun j => j.entry.index == job && j.stage == .retrying) with
    | none => s
    | some j =>
      if coreStalled s 2 then s
      else fireJob (updInst s inst (fun y => { y with flags := y.flags ||| jfReexec })) x j (j.retries + 1)

/-- REEXECUTION_START: what failed is executed again. -/
def reexecute (s : State) (t : Reexec) : State :=
  match t with
  | .op id =>
    match opOf s id with
    | some op =>
      (match op.stage with
       | .failed _ =>
         if coreStalled s (3 + op.cluster) then s
         else if opLive s op = false then lateDiscard (opGone s op)
         else if op.unit < 4 then reexecArray s op
         else reexecEngine s op
       | _ => s)
    | none => s
  | .job inst job => reexecJob s inst job
  | .seq id => reexecSeq s id

/-! ### Commands -/

/-- GRAPH_LOAD: a running control pod, by arrival number. -/
def execGraphLoad (no : Nat) (s : State) : Host.Outcome State Fault Refusal := whenOn (fun s => graphLoad s no) s

/-- GRAPH_UNLOAD: a running control pod. -/
def execGraphUnload (no : Nat) (s : State) : Host.Outcome State Fault Refusal := whenOn (fun s => graphUnload s no) s

/-- INSTANCE_START: a slot looks for what is queued. -/
def execInstanceStart (slot : BitVec 8) (s : State) : Host.Outcome State Fault Refusal :=
  whenOn (fun s => instanceStart s slot.toNat) s

/-- JOB_FIRE: the next ready job, in the order of R345. -/
def execJobFire (s : State) : Host.Outcome State Fault Refusal := whenOn jobFire s

/-- JOB_COMPLETE: the firing with an execution sequence. -/
def execJobComplete (exec : BitVec 32) (s : State) : Host.Outcome State Fault Refusal :=
  whenOn (fun s => jobComplete s exec.toNat) s

/-- JOB_TIMEOUT: the firing with an execution sequence. -/
def execJobTimeout (exec : BitVec 32) (s : State) : Host.Outcome State Fault Refusal :=
  whenOn (fun s => jobTimeout s exec.toNat) s

/-- REEXECUTION_START. -/
def execReexecutionStart (t : Reexec) (s : State) : Host.Outcome State Fault Refusal := whenOn (fun s => reexecute s t) s

end Sys2Proof.Machine
end

