-- ==== Sys2Proof/Machine/Rings.lean ====
section
/-!
DEFINITION. Host rings: how a pod is written, waits, is dropped, and is signalled (R360 to R364, R370, R534).
-/

namespace Sys2Proof.Machine

/-- The host link and its PCIe tunnel are up: the device can write to host memory (R399, R401). -/
def hostUp (s : State) : Bool := rdB s A.U4_STATUS 0 && rdB s A.U4_STATUS 2

/-! ### Space (R360) -/

/-- Used bytes of a ring. -/
def ringUsed (s : State) (r : Nat) : Nat := (rd s (A.RING_HEAD r) + 2 ^ 32 - rd s (A.RING_TAIL r)) % 2 ^ 32

/-- Bytes that `n` bytes take at head `h` of a ring of `size` bytes, the skip at its end included. -/
def ringTake (size h n : Nat) : Nat := if size < h % size + n then size - h % size + n else n

/-- Pods, as lengths in bytes, fit a ring one after the other. -/
def ringFits (s : State) (r : Nat) (l : List Nat) : Bool :=
  let size := ringSize s r
  let need := l.foldl (fun acc n => acc + ringTake size (rd s (A.RING_HEAD r) + acc) n) 0
  decide (ringUsed s r + need ≤ size)

/-! ### Signals (R364) -/

/-- A pod has been written to a ring: a message now, or at the end of the coalescing interval. -/
def ringSignal (s : State) (r : Nat) : State :=
  if rdB s (A.RING_CFG r) 11 = false then s
  else
    let x := ringOf s r
    let c := 1000 * rdF s (A.RING_CFG r) 31 16
    match x.lastMsg with
    | some t =>
      if s.ridge < t + c then setRing s r { x with msgDue := some (t + c) }
      else setRing (msixSignal s (rdF s (A.RING_CFG r) 10 5)) r { x with lastMsg := some s.ridge, msgDue := none }
    | none => setRing (msixSignal s (rdF s (A.RING_CFG r) 10 5)) r { x with lastMsg := some s.ridge, msgDue := none }

/-- The coalescing interval of a ring has ended (R364). -/
def coalesceEnd (s : State) (r : Nat) : State :=
  let x := ringOf s r
  match x.msgDue with
  | some t =>
    if t ≤ s.ridge then
      setRing (msixSignal s (rdF s (A.RING_CFG r) 10 5)) r { x with lastMsg := some s.ridge, msgDue := none }
    else s
  | none => s

/-! ### Writing (R360, R362, R542) -/

/-- A pod that bears the name of the one just written for the first time takes its sequence (R50, R542). -/
def sameSeq (u q : Nat) (p : OutPod) : OutPod := if p.uid = u ∧ p.seq = none then { p with seq := some q } else p

/-- The kept copy of a retained result pod, and every copy that waits in a ring, take the sequence that its first writing
gave it (R50, R542). -/
def nameSeq (s : State) (u q : Nat) : State :=
  if u = 0 then s
  else
    { s with
      pods := { s.pods with retained := s.pods.retained.map (fun y => { y with pods := y.pods.map (fun e => (e.1, sameSeq u q e.2)) }) }
      rings := smMap (fun _ => {}) s.rings (fun x => { x with queue := x.queue.map (fun e => { e with pod := sameSeq u q e.pod }) }) }

/-- Write a pod that fits at the head of a ring, then the head copy, then signal. -/
def ringPut (s : State) (r : Nat) (p : OutPod) : State :=
  let size := ringSize s r
  let base := rdWide s (A.RING_BASE_LO r)
  let h := rd s (A.RING_HEAD r)
  let n := 32 * outUnits p
  let x := ringOf s r
  let q := p.seq.getD x.nextSeq
  let s := if p.seq.isNone then setRing s r { x with nextSeq := (x.nextSeq + 1) % 2 ^ 32 } else s
  let s := nameSeq s p.uid q
  let wraps := decide (size < h % size + n)
  let s := if wraps then hostPut s (base + h % size) [0] else s
  let s := hostPut s (base + (if wraps then 0 else h % size)) (outBytes s p q)
  let h1 := (h + ringTake size h n) % 2 ^ 32
  let s := hostPut (wr s (A.RING_HEAD r) h1) (rdWide s (A.RING_HEADPTR_LO r)) (leBytes 4 h1)
  ringSignal s r

/-- The pod at the head of a ring's queue leaves it; the next begins its own wait (R361). -/
def ringPop (s : State) (r : Nat) : State :=
  let x := ringOf s r
  setRing s r { x with queue := match x.queue with
    | _ :: e :: t => { e with since := some s.ridge } :: t
    | _ => [] }

/-- EVENT_LOST, with the events dropped since the last one (R361). -/
def eventLostPod (s : State) : OutPod :=
  { kind := 9, cls := 3, operation := Ev.EVENT_LOST, body := leBytes 4 (min s.lostEvents 0xFFFFFFFF) ++ zeros 12 }

/-- EVENT_LOST goes before a pod: it is an event pod, and events have been lost (R361). -/
def lostBefore (s : State) (p : OutPod) : Bool := p.kind == 9 && decide (0 < s.lostEvents)

/-- What is written when a pod is: the pod, after EVENT_LOST where that goes before it. -/
def ringBatch (s : State) (p : OutPod) : List OutPod := if lostBefore s p then [eventLostPod s, p] else [p]

/-- A pod can be written to its ring now, with what goes before it (R360, R361). -/
def ringReady (s : State) (r : Nat) (p : OutPod) : Bool :=
  hostUp s && ringOn s r && ringFits s r ((ringBatch s p).map (fun p => 32 * outUnits p))

/-- The next pod of a ring is written, if it fits and the host can be reached. -/
def ringWrite (s : State) (r : Nat) : State :=
  match (ringOf s r).queue with
  | [] => s
  | e :: _ =>
    if ringReady s r e.pod then
      let s1 := (ringBatch s e.pod).foldl (fun s p => ringPut s r p) (ringPop s r)
      if lostBefore s e.pod then { s1 with lostEvents := 0 } else s1
    else s

/-! ### Dropping (R360, R361, R370) -/

/-- Drop a pod that its ring will not take. -/
def dropPod (s : State) (r : Nat) (p : OutPod) (never : Bool) : State :=
  if p.kind = 8 ∨ p.kind = 0xB then dropResult s r p never else loseEvent s

/-- The pod at the head of a ring has waited 100 µs and still finds no space (R361). -/
def ringExpire (s : State) (r : Nat) : State :=
  match (ringOf s r).queue with
  | [] => s
  | e :: _ =>
    let waited := match e.since with
      | some t => decide (t + 100000 ≤ s.ridge)
      | none => false
    if waited && !ringReady s r e.pod then
      dropPod (ringPop s r) r e.pod false
    else s

/-- READY goes to the event ring as soon as that ring is enabled (R534). -/
def readyToRing (s : State) : State :=
  match s.sec.ready with
  | some p =>
    if ringOn s (eventRing s) then enqueue { s with sec := { s.sec with ready := none } } (eventRing s) p else s
  | none => s

/-- A ring is disabled: the pods that wait for it are dropped, but READY waits on (R360, R370). The message owed for pods
already written still comes at the end of its interval (R364). -/
def ringDisable (s : State) (r : Nat) : State :=
  let q := (ringOf s r).queue
  let s := setRing (wrF s (A.RING_CFG r) 4 4 0) r { ringOf s r with queue := [] }
  q.foldl (fun s e =>
    if e.pod.operation = 0x0F80 ∧ e.pod.kind = 9 then { s with sec := { s.sec with ready := some e.pod } }
    else dropPod s r e.pod true) s

/-- A write of RING_CFG takes effect (R370, Table 12.11). -/
def applyRingCfg (s : State) (r v : Nat) : State :=
  if ringOn s r then (if bitN v 4 then s else ringDisable s r)
  else
    let s := applyPlain s (A.RING_CFG r) v
    if ringOn s r then readyToRing s else s

/-! ### Commands -/

/-- RING_POD_WRITE: the next pod of a ring. -/
def execRingPodWrite (r : Fin 16) (s : State) : Host.Outcome State Fault Refusal := whenOn (fun s => ringWrite s r.val) s

/-- RING_WAIT_EXPIRE: the 100 µs of a ring's next pod have passed. -/
def execRingWaitExpire (r : Fin 16) (s : State) : Host.Outcome State Fault Refusal :=
  whenOn (fun s => ringExpire s r.val) s

/-- RING_TAIL: a write of RING_TAIL. -/
def execRingTail (agent : Agent) (r : Fin 16) (v : Word) (s : State) : Host.Outcome State Fault Refusal :=
  whenOn (fun s => namedWrite s agent (A.RING_TAIL r.val) v.toNat (fun s => applyPlain s (A.RING_TAIL r.val) v.toNat)) s

/-- RING_CFG_WRITE: a write of RING_CFG. -/
def execRingCfgWrite (agent : Agent) (r : Fin 16) (v : Word) (s : State) : Host.Outcome State Fault Refusal :=
  whenOn (fun s => namedWrite s agent (A.RING_CFG r.val) v.toNat (fun s => applyRingCfg s r.val v.toNat)) s

/-- MSIX_COALESCE_EXPIRE: the end of a ring's coalescing interval. -/
def execMsixCoalesceExpire (r : Fin 16) (s : State) : Host.Outcome State Fault Refusal :=
  whenOn (fun s => coalesceEnd s r.val) s

end Sys2Proof.Machine
end

