-- ==== Sys2Proof/Machine/Links.lean ====
section
/-!
DEFINITION. Guyline ports as the rest of the device sees them: link state, routes, packets waiting to be sent, and
accesses to remote devices (R22, R404 to R408, R411, R412).
-/

namespace Sys2Proof.Machine

/-! ### Ports -/

/-- A guyline port beside its registers. -/
def glOf (s : State) (p : Nat) : GlPort := smGet (fun _ => {}) s.gl p

/-- Replace a guyline port. -/
def setGl (s : State) (p : Nat) (x : GlPort) : State := { s with gl := smSet (fun _ => {}) s.gl p x }

/-- A port carries data: its link is up and secured (R410). -/
def glUp (s : State) (p : Nat) : Bool := rdB s (A.GL_STATUS p) 0 && rdB s (A.GL_STATUS p) 1

/-- The page of a port. -/
def glPage (p : Nat) : Nat := 0x288 + 8 * p

/-- The clock domain of a port. -/
def glDomain (p : Nat) : Nat := 21 + p

/-! ### Routes (R411, R412) -/

/-- The egress in use towards a ring id: 0 none, 1 to 3 port A to C, 4 local. A stand-alone device reaches no other ring id
(R22). -/
def egress (s : State) (dst : Nat) : Nat :=
  if dst = ringId s then 4
  else if multiDevice s = false then 0
  else
    let w := rd s (A.GL_ROUTE dst)
    if bitN w 8 then fldN w 6 4 else fldN w 2 0

/-- The port towards a ring id, if the packet can be sent there. -/
def routePort (s : State) (dst : Nat) : Option Nat :=
  let e := egress s dst
  if 1 ≤ e ∧ e ≤ 3 ∧ glUp s (e - 1) = true then some (e - 1) else none

/-- A device with a ring id can be reached (R22). -/
def reachable (s : State) (ring : Nat) : Bool := ring == 0 || ring == ringId s || (routePort s ring).isSome

/-! ### Packets (R405 to R408) -/

/-- The virtual channel of a request of a class (Table 14.5). -/
def requestVc (cls : Nat) : Nat := if cls = clsS then 0 else 1

/-- Slots of 16 bytes that a packet occupies: header, payload, trailer. -/
def packetSlots (k : Packet) : Nat := 3 + ceilDiv k.payload.length 16

/-- The buffer class of a packet (R406). -/
def bufferClass (k : Packet) : Nat := 2 * k.vc + b2n k.dateline

/-- Put a packet at the end of a port's queue; a dateline port marks it (R406). -/
def queuePacket (s : State) (p : Nat) (k : Packet) : State :=
  let k := if rdB s (A.GL_CFG p) 2 then { k with dateline := true } else k
  setGl (wakeRequest s (glDomain p)) p { glOf s p with txq := (glOf s p).txq ++ [k] }

/-- Send a packet of this device: whether its destination can be reached, and the state (R22, R411). -/
def sendPacket (s : State) (k : Packet) : Bool × State :=
  match routePort s k.dst with
  | some p => (true, queuePacket s p { k with src := ringId s, timed := ridgeLocked s, sent := lo32 s.ridge })
  | none => (false, s)

/-- Send packets in order; the first that cannot be sent stops the rest. -/
def sendPackets (s : State) (l : List Packet) : Bool × State :=
  l.foldl (fun acc k => if acc.1 then sendPacket acc.2 k else acc) (true, s)

/-- Bytes in pieces of at most 4,096. -/
def glPieces (b : List Byte) : List (Nat × List Byte) :=
  (List.range (ceilDiv b.length 4096)).map (fun i => (4096 * i, (b.drop (4096 * i)).take 4096))

/-- A remote write by an agent, on behalf of a received pod if one makes it, is outstanding from now until it has been
performed (R57, R61): its last packet bears its number. -/
def noteOut (s : State) (ag : Agent) (pod : Option Nat) : State :=
  { s with nextId := s.nextId + 1, outWrites := s.outWrites ++ [{ id := s.nextId, agent := ag, pod := pod, before := s.pods.nextNo }] }

/-- A write to a remote device: 0, or ADDR_UNREACHABLE. -/
def remoteWrite (s : State) (a : Nat) (b : List Byte) (cls : Nat) (ag : Agent) (pod : Option Nat) : Nat × State :=
  let n := ceilDiv b.length 4096
  let ks := (glPieces b).map (fun x =>
    ({ kind := 1, dst := addrRing a, src := 0, cls := cls, vc := requestVc cls, timed := false,
       addr := addrLocal a + x.1, len := x.2.length, payload := x.2,
       wid := if x.1 = 4096 * (n - 1) then s.nextId else 0 } : Packet))
  let r := sendPackets s ks
  if r.1 then (0, noteOut r.2 ag pod) else (St.ADDR_UNREACHABLE, r.2)

/-- A whole received pod travels to a remote device as POD packets (R408); 0, or ADDR_UNREACHABLE. -/
def forwardPod (s : State) (dst cls : Nat) (ag : Agent) (no : Nat) (b : List Byte) : Nat × State :=
  let n := ceilDiv b.length 4096
  let ks := (glPieces b).map (fun x =>
    ({ kind := 4, dst := dst, src := 0, cls := cls, vc := 1, timed := false, first := x.1 == 0,
       last := x.1 == 4096 * (n - 1), len := x.2.length, payload := x.2,
       wid := if x.1 = 4096 * (n - 1) then s.nextId else 0 } : Packet))
  let r := sendPackets s ks
  if r.1 then (0, noteOut r.2 ag (some no)) else (St.ADDR_UNREACHABLE, r.2)

/-- An increment that waits for no write any more becomes visible (R57). -/
def incsDue (s : State) : State :=
  let due := s.heldIncs.filter (fun h => h.waits.isEmpty)
  due.foldl (fun s h => pegInc s h.ref h.need h.amount h.frame h.cls h.echo)
    { s with heldIncs := s.heldIncs.filter (fun h => !h.waits.isEmpty) }

/-- Remote writes have been performed, or will never be: they hold nothing back any more, and a pod that has none left
completes with a status (R38, R57, R61). -/
def writesEnd (s : State) (ids : List Nat) (st : Nat) : State :=
  let gone := s.outWrites.filter (fun w => ids.contains w.id)
  let s := { s with
    outWrites := s.outWrites.filter (fun w => !ids.contains w.id)
    heldIncs := s.heldIncs.map (fun h => { h with waits := h.waits.filter (fun i => !ids.contains i) }) }
  let pods := (gone.filterMap (·.pod)).filter (fun no => !s.outWrites.any (fun w => w.pod == some no))
  incsDue (pods.foldl (fun s no => podComplete s no st) s)

/-! ### Root-cause tags (R351, R404) -/

/-- A link goes down: its count of link-downs rises, and gives the root-cause tag (0 host, 1 to 3 guyline A to C). -/
def linkTag (s : State) (link : Nat) : Nat × State :=
  let n := (smGet (fun _ => 0) s.linkDowns link + 1) % 4096
  (4096 * link + n, { s with linkDowns := smSet (fun _ => 0) s.linkDowns link n })

/-- Running jobs whose traffic the link carried take its tag for their JOB_TIMEOUT reports (R351). -/
def tagJobs (s : State) (execs : List Nat) (tag : Nat) : State :=
  { s with insts := s.insts.map (fun x => { x with jobs := x.jobs.map (fun j =>
      if j.stage == .running && execs.contains j.exec then { j with linkTag := tag } else j) }) }

/-- The state of the node as flits and management responses give it (Table 14.4). -/
def nodeState (s : State) : Nat :=
  if s.mgt.resetAt.isSome then 5
  else if rdF s A.FC_STATUS 1 0 = 2 then 4
  else if safeState s then 3
  else if rdF s A.FW_STATUS 3 0 = 6 then 2
  else 1

end Sys2Proof.Machine
end

