-- ==== Sys2Proof/Machine/Pods.lean ====
section
/-!
DEFINITION. Pods on their way in: the pod port, the checks of Table 2.8 and of each kind, acceptance, and the closing of
origin windows (R36 to R50).
-/

namespace Sys2Proof.Machine

/-- A ring id names the local device (R20). -/
def ownRing (s : State) (ring : Nat) : Bool := ring == 0 || ring == ringId s

/-! ### The pod port (R39 to R41, R534) -/

/-- A host write into the pod-port window at an offset. -/
def podPortWrite (s : State) (off : Nat) (bs : List Byte) : State :=
  if rdF s A.FW_STATUS 3 0 ≠ 6 ∨ streamIsLost s = true then s
  else if off ≠ rdF s A.POD_STREAM_POS 19 0 then streamLoss s St.STREAM_POSITION_INVALID (rd s A.POD_STREAM_POS) 2
  else
    let s := wr s A.POD_STREAM_POS ((rd s A.POD_STREAM_POS + bs.length) % 2 ^ 32)
    let k := s.pods.skip
    wakeRequest { s with pods := { s.pods with stream := s.pods.stream ++ bs.drop k, skip := k - bs.length } } 5

/-- A write of POD_RESYNC takes effect (R40). -/
def applyResync (s : State) (v : Nat) : State :=
  if streamIsLost s && v % 32 == 0 then
    wrF (wr { s with pods := { s.pods with stream := [], skip := 0 } } A.POD_STREAM_POS v) A.POD_STATE 1 0 0
  else s

/-- A write of RETAIN_CFG takes effect (R49). -/
def applyRetainCfg (s : State) (v : Nat) : State := retainTrim (applyPlain s A.RETAIN_CFG v)

/-- Bytes of the receive ring that a partly received pod has taken: its header has passed steps 1 to 6 (R41). -/
def partTaken (s : State) : Nat :=
  let h := parseHeader (s.pods.stream.take 32)
  if 32 ≤ s.pods.stream.length ∧ headerStatus h = 0 then 32 * h.length else 0

/-- POD_CREDIT as it reads. -/
def creditNow (s : State) : Nat := podCredit s - partTaken s

/-- Leave `n` bytes of the stream behind; those not yet received are skipped as they come (R43). -/
def streamSkip (s : State) (n : Nat) : State :=
  { s with pods := { s.pods with stream := s.pods.stream.drop n, skip := n - s.pods.stream.length } }

/-! ### Steps 12 to 17 of Table 2.8 -/

/-- The class partition permits a pod's class for its target (R44). -/
def targetPermits (s : State) (h : PodHeader) : Bool :=
  if h.kind = 1 then slotPermits s h.cls (h.target % 256)
  else if h.kind = 3 then rdB s A.CLS_DECODE (h.cls - 1)
  else true

/-- A control pod's section and operation (R36, Table 2.15). -/
def controlStatus (sect op : Nat) : Nat :=
  let ops : Option (List Nat) :=
    if sect = 2 then some [1]
    else if sect = 5 then some [1, 2, 0x10]
    else if sect = 6 then some [1, 2]
    else if sect = 0xA then some [1, 2, 4, 5, 6, 7, 0x10]
    else if (1 ≤ sect ∧ sect ≤ 9) ∨ (0x10 ≤ sect ∧ sect ≤ 0x13) then some []
    else none
  match ops with
  | none => St.TARGET_INVALID
  | some l => if l.contains op then 0 else St.CONTROL_OP_INVALID

/-- target[7:0] of a pod for this device names an object that takes the pod (step 13, R343). -/
def targetStatus (s : State) (h : PodHeader) : Nat :=
  let t := h.target % 256
  if h.kind = 1 then
    match graphOf s t with
    | none => St.TARGET_INVALID
    | some g => if g.bound then St.GRAPH_BOUND else 0
  else if h.kind = 3 then (if t < 64 then 0 else St.TARGET_INVALID)
  else if h.kind = 4 then controlStatus t h.operation
  else 0

/-- Steps 12 to 17 of Table 2.8 in order: the first failing status, or 0. -/
def validateStatus (s : State) (via : Nat) (h : PodHeader) (body : List Byte) : Nat :=
  let own := ownRing s (h.target / 256)
  let toBase := h.kind == 4 && h.target % 256 == 0xA
  if rdB s A.CLS_CTL (h.cls - 1) = false ∨ (h.cls = clsS ∧ split s = true) ∨ (own = true ∧ targetPermits s h = false) then
    St.CLASS_UNAVAILABLE
  else if reachable s (h.target / 256) = false then St.ADDR_UNREACHABLE
  else if via = 0 ∧ hostUnauth s = true ∧ toBase = false then St.HOST_UNAUTHENTICATED
  else if own = true ∧ targetStatus s h ≠ 0 then targetStatus s h
  else if refReserved h.completionPeg ∨ refReserved h.waitPeg then St.PEG_INVALID
  else if timed h = true ∧ h.launch < s.ridge then St.LAUNCH_PAST
  else if timed h = true ∧ s.ridge + 10000000000 < h.launch then St.LAUNCH_FAR
  else if h.kind = 2 ∧ (leAt body 8 4 = 0 ∨ body.length - 16 < leAt body 8 4) then St.DATA_COUNT_INVALID
  else 0

/-! ### The checks of each kind (R38, R46, R167, R343, R497) -/

/-- A job pod's parameters and its slot's queue (R343). -/
def jobPodStatus (s : State) (h : PodHeader) (body : List Byte) : Nat :=
  match graphOf s (h.target % 256) with
  | none => St.TARGET_INVALID
  | some g =>
    let room := 16 + b2n (!(activeInsts s).any (fun x => x.slot == h.target % 256))
    if g.jobs.length ≤ h.operation ∨ g.paramSize < body.length then St.GRAPH_INVALID
    else if room ≤ g.queue.length then St.SLOT_QUEUE_FULL
    else 0

/-- Bytes of an attestation object (R497). -/
def attestLen (what : Nat) : Nat := if what = 0 then 1792 else if what = 1 then 4864 else 1793

/-- An ATTEST pod's body (R497). -/
def attestStatus (s : State) (h : PodHeader) (body : List Byte) : Nat :=
  let what := leAt body 0 1
  let a := leAt body 8 8
  let n := attestLen what
  let hidden := (List.range 16).any (fun r => encOn s r && rdF s (A.ENC_CTL r) 6 5 == 0 &&
    decide (encBase s r < addrLocal a + n ∧ addrLocal a < encBase s r + encSize s r))
  if h.length ≠ 3 ∨ 2 < what ∨ leAt body 1 7 ≠ 0 ∨ (what ≠ 0 ∧ leNat (body.drop 16) ≠ 0) then St.RESERVED_NONZERO
  else if a % 64 ≠ 0 ∨ 2 ^ 56 ≤ a ∨ isLocal s a = false ∨ inDram (addrLocal a) n = false ∨ hidden = true then
    St.OPERAND_ADDR_INVALID
  else 0

/-- The checks that follow step 17, for a pod to this device. The spec gives no check for the reserved bytes of a data pod, nor for
the padding after its bytes (R38): the first must be zero, the second is not looked at (log entry 53). -/
def kindStatus (s : State) (p : RxPod) : Nat :=
  let h := p.hdr
  if h.kind = 1 then jobPodStatus s h p.body
  else if h.kind = 2 then (if leAt p.body 12 4 ≠ 0 ∨ leAt p.body 7 1 ≠ 0 then St.RESERVED_NONZERO else 0)
  else if h.kind = 3 then batchStatus s p
  else if isControl 5 0x10 h then (if h.length ≠ 2 ∨ leNat p.body ≠ 0 then St.RESERVED_NONZERO else 0)
  else if isControl 0xA 1 h then attestStatus s h p.body
  else 0

/-! ### Acceptance (R43, R48) -/

/-- An accepted pod enters the receive ring; a job pod joins its slot's queue; a pod for another device travels on and
is complete here when it has been performed there as far as this device can tell (R22, R61, R343; log entry 151). -/
def podAccept (s : State) (p : RxPod) (b : List Byte) : State :=
  let ring := p.hdr.target / 256
  let own := ownRing s ring
  let p : RxPod := if own then p else { p with hdr := { p.hdr with completionPeg := 0 } }
  let s := { s with pods := { s.pods with rx := s.pods.rx ++ [p], nextNo := s.pods.nextNo + 1 } }
  let s := wakeRequest (bump s A.POD_ACCEPT_COUNT 1) 5
  let t := p.hdr.target % 256
  if own = false then
    let s := updatePod s p.no (fun p => { p with stage := .running })
    let r := forwardPod s ring p.hdr.cls (podAgent p.hdr) p.no b
    if r.1 = 0 then r.2 else podComplete r.2 p.no r.1
  else if p.hdr.kind = 1 then
    match graphOf s t with
    | some g => setGraph s t (some { g with queue := g.queue ++
        [{ cause := .pod p.no, entry := p.hdr.operation, frame := p.hdr.frame, cls := p.hdr.cls, seq := p.hdr.sequence,
           body := p.body }] })
    | none => s
  else if p.hdr.kind = 3 then dqUpdate s t
  else s

/-- Steps 12 onwards: the pod is marked, then accepted or rejected. -/
def podValidate (s : State) (via : Nat) (h : PodHeader) (b : List Byte) : State :=
  let p : RxPod := { no := s.pods.nextNo, hdr := h, body := (b.drop 32).take (32 * h.length - 48), via := via, arrived := s.ridge }
  let s := markSeq s h.origin h.sequence .queued
  let st := validateStatus s via h p.body
  let st := if st = 0 ∧ ownRing s (h.target / 256) = true then kindStatus s p else st
  let s := if st = St.QUEUE_FULL ∧ h.kind = 3 then raise s 0x0C0 8 else s
  if st = 0 then podAccept s p b
  else podReject (markState s h.origin h.sequence (.rejected st)) (b.take 32) st

/-- Step 9 of Table 2.8 onwards. -/
def podAdmit (s : State) (via : Nat) (b : List Byte) : State :=
  let h := parseHeader b
  match windowOf s h.origin with
  | none =>
    if 256 ≤ s.pods.windows.length then podReject (raise s 0x0E2 2) (b.take 32) St.ORIGIN_LIMIT
    else podValidate s via h b
  | some w =>
    if 0 < seqDist h.sequence w.head then podValidate s via h b
    else if inWindow w.head h.sequence = false then podReject s (b.take 32) St.SEQUENCE_STALE
    else
      match seqRec w h.sequence with
      | some r => answerDuplicate s h.origin h.sequence h.cls r
      | none => podValidate s via h b

/-! ### Receiving (Table 2.8) -/

/-- Steps 7 and 8 on a whole pod: the failing status, or 0. -/
def trailerStatus (h : PodHeader) (b : List Byte) : Nat :=
  let n := 32 * h.length
  if crc32c (b.take (n - 4)) ≠ leAt b (n - 4) 4 then St.CRC_ERROR
  else if leAt b (n - 16) 4 ≠ h.sequence ∨ leAt b (n - 12) 8 ≠ 0 then St.TRAILER_MISMATCH
  else 0

/-- A pod that has passed step 8: recorded, turned away in a replay, or taken to step 9 (R355, R358). -/
def podFramed (s : State) (via : Nat) (rrLost : Bool) (b : List Byte) : State :=
  let h := parseHeader b
  let s := if via = 0 then { s with pods := { s.pods with lastFramed := some (h.origin, h.sequence) } } else s
  let s := record s rrLost 2 via 0 b
  if replaying s && !(h.kind == 4 && h.target % 256 == 5) then podReject s (b.take 32) St.REPLAY_ACTIVE
  else podAdmit s via b

/-- The pod at the head of the host's stream. -/
def receiveStream (s : State) (rrLost : Bool) : State :=
  let b := s.pods.stream
  if b.length < 32 ∨ streamIsLost s = true then s
  else
    let h := parseHeader b
    let st := headerStatus h
    if st ≠ 0 then
      if lengthInvalid h.length then streamLoss (podReject s (b.take 32) st 3) St.LENGTH_INVALID (framePos s) 0 h.cls h.sequence
      else streamSkip (podReject s (b.take 32) st) (32 * h.length)
    else if podCredit s < 32 * h.length then streamLoss s St.POD_OVERRUN (framePos s) 6 h.cls h.sequence
    else if b.length < 32 * h.length then s
    else
      let pod := b.take (32 * h.length)
      let ts := trailerStatus h pod
      if ts ≠ 0 then streamLoss (podReject s (b.take 32) ts 3) ts (framePos s) 0 h.cls h.sequence
      else podFramed (streamSkip s (32 * h.length)) 0 rrLost pod

/-- The oldest pod that a guyline port has assembled: it waits there while the receive ring lacks room (R408). The pod
stream of R42 is the host's, so no check of such a pod loses it. -/
def receiveGuyline (s : State) (via : Nat) (rrLost : Bool) : State :=
  match s.podsIn.find? (fun x => x.1 == via) with
  | none => s
  | some (_, b) =>
    let h := parseHeader b
    let st := headerStatus h
    let whole := b.length == 32 * h.length
    let rest := { s with podsIn := s.podsIn.eraseP (fun x => x.1 == via) }
    if st ≠ 0 then podReject rest (b.take 32) st
    else if whole = false then podReject rest (b.take 32) St.LENGTH_INVALID
    else if creditNow s < 32 * h.length then s
    else if trailerStatus h b ≠ 0 then podReject rest (b.take 32) (trailerStatus h b)
    else podFramed rest via rrLost b

/-! ### Origin windows close (R46) -/

/-- ORIGIN_CLOSE is taken: the window closes when every earlier pod of its origin has completed. -/
def originClose (s : State) (no : Nat) : State :=
  match takePod s no 4 (isControl 5 0x10) with
  | some (_, s) => s
  | none => s

/-- The ORIGIN_CLOSE pod of an origin that dispatch has taken, once no earlier pod of the origin is left. -/
def closingPod (s : State) (o : Nat) : Option RxPod :=
  s.pods.rx.find? (fun p => p.taken && p.stage == .running && isControl 5 0x10 p.hdr && p.hdr.kind == 4 && p.hdr.origin == o &&
    s.pods.rx.all (fun q => q.hdr.origin != o || decide (p.no ≤ q.no) || (match q.stage with | .done _ => true | _ => false)))

/-- The window of an origin closes, with what it kept. -/
def originWindowClose (s : State) (o : Nat) : State :=
  match closingPod s o with
  | none => s
  | some p =>
    let s := podComplete s p.no 0
    let s := setWindows s (s.pods.windows.filter (fun w => w.origin != o))
    { s with pods := { s.pods with retained := s.pods.retained.filter (fun x => x.origin != o) } }

/-! ### Commands -/

/-- POD_PORT_WRITE: a host write through BAR0 at an offset of the pod-port window. -/
def execPodPortWrite (off : BitVec 20) (bytes : List Byte) (s : State) : Host.Outcome State Fault Refusal :=
  whenOn (fun s => podPortWrite s off.toNat bytes) s

/-- POD_RESYNC: a write of POD_RESYNC. -/
def execPodResync (agent : Agent) (v : Word) (s : State) : Host.Outcome State Fault Refusal :=
  whenOn (fun s => namedWrite s agent A.POD_RESYNC v.toNat (fun s => applyResync s v.toNat)) s

/-- POD_RECEIVE: the next pod of the host's stream (`via` 0) or of a guyline port is checked. -/
def execPodReceive (via : Fin 4) (rrLost : Bool) (s : State) : Host.Outcome State Fault Refusal :=
  whenOn (fun s => if via.val = 0 then receiveStream s rrLost else receiveGuyline s via.val rrLost) s

/-- ORIGIN_CLOSE: a running control pod. -/
def execOriginClose (no : Nat) (s : State) : Host.Outcome State Fault Refusal := whenOn (fun s => originClose s no) s

/-- ORIGIN_WINDOW_CLOSE: the window of an origin. -/
def execOriginWindowClose (origin : BitVec 16) (s : State) : Host.Outcome State Fault Refusal :=
  whenOn (fun s => originWindowClose s origin.toNat) s

/-- RETAIN_CFG: a write of RETAIN_CFG. -/
def execRetainCfg (agent : Agent) (v : Word) (s : State) : Host.Outcome State Fault Refusal :=
  whenOn (fun s => namedWrite s agent A.RETAIN_CFG v.toNat (fun s => applyRetainCfg s v.toNat)) s

end Sys2Proof.Machine
end

