-- ==== Sys2Proof/Machine/Dram.lean ====
section
/-!
DEFINITION. DRAM beside its accesses: refresh, temperatures, correction rates, scrub passes, injected errors, and the
enabling and disabling of encryption regions (R376 to R391).
-/

namespace Sys2Proof.Machine

/-! ### Random values and keys (R486, R501) -/

/-- `n` random bytes: free values. -/
def randomBytes (s : State) (n : Nat) : List Byte × State := (leBytes n (drawFree s).1, (drawFree s).2)

/-- The entropy source has failed (R507). -/
def trngFailed (s : State) : Bool := rdB s A.SEC_TRNG_STATUS 1

/-- A key slot. -/
def keySlot (s : State) (k : Nat) : KeySlot := smGet (fun _ => {}) s.keySlots k

/-- SEC_KEY_SLOTS follows the slots. -/
def keyRegs (s : State) : State :=
  let bits (q : KeySlot → Bool) : Nat := ((List.range 16).map (fun k => if q (keySlot s k) then 2 ^ k else 0)).sum
  wr s A.SEC_KEY_SLOTS (bits (·.valid) + 65536 * bits (fun x => x.valid && x.imported))

/-- Replace a key slot. -/
def setKeySlot (s : State) (k : Nat) (x : KeySlot) : State :=
  keyRegs { s with keySlots := smSet (fun _ => {}) s.keySlots k x }

/-- A fresh region key is drawn into a slot (R501). -/
def drawRegionKey (s : State) (k : Nat) : State :=
  let r := randomBytes s 32
  setKeySlot r.2 k { valid := true, key := r.1 }

/-! ### Encryption regions (R379, R380) -/

/-- Two ranges have a byte in common. -/
def overlap (a n b m : Nat) : Bool := decide (a < b + m ∧ b < a + n)

/-- A region may be enabled (R379). -/
def encConfigOk (s : State) (r : Nat) : Bool :=
  let b := encBase s r
  let n := encSize s r
  let m := encMeta s r
  decide (b % 0x200000 = 0 ∧ n ≠ 0 ∧ n ≤ 65536 * 0x200000 ∧ m % 65536 = 0) && inDram b n && inDram m (n / 32) &&
    !overlap b n m (n / 32) &&
    (List.range 16).all (fun q => q == r || !encOn s q ||
      (!overlap b n (encBase s q) (encSize s q) && !overlap m (n / 32) (encMeta s q) (encSize s q / 32)
        && !overlap m (n / 32) (encBase s q) (encSize s q) && !overlap b n (encMeta s q) (encSize s q / 32)))

/-- A region is written as zeros with write counter 0, granule by granule (R380). -/
def encFill (s : State) (r k : Nat) : State :=
  (List.range k).foldl (fun s i =>
    let ws := granuleWords s (r, i) ++ metaWords s (r, i)
    let s := countWords (memZero s (granuleAddr s r i) 1024) true ws
    eccWrite (memPut s (encMeta s r + 32 * i) (metaEntry s r i 0 (zeros 1024))) ws) s

/-- What a region holds once nothing decrypts it: its ciphertext (R380). -/
def encSeal (s : State) (r k : Nat) : State :=
  (List.range k).foldl (fun s i =>
    let a := granuleAddr s r i
    memPut s a (padTo 1024 (Config.gcmCipher (encKey s r) (encIv r i (granuleCounter s r i)) (memBytes s a 1024)))) s

/-- An enabled region is disabled. Where it is still being zero-filled, the spec does not say how far the fill has come:
a free number of granules. -/
def encDisable (s : State) (r : Nat) : State :=
  let n := encSize s r / 1024
  let done := rdB s (A.ENC_STATUS r) 0
  let k := if done then n else (drawFree s).1 % (n + 1)
  let s := if done then s else encFill (drawFree s).2 r k
  encDrain (wr (wrF (encSeal s r k) (A.ENC_CTL r) 0 0 0) (A.ENC_STATUS r) 0)

/-- A disabled region is enabled: a fresh key, then the zero-fill (R380, R501); refused while the entropy source has
failed or the security core has expired (R507, Table 17.9). -/
def encEnable (s : State) (r v : Nat) : State :=
  let t := applyPlain s (A.ENC_CTL r) v
  if trngFailed s || s.sec.keysStopped then s
  else if encConfigOk s r = false then configRejected (applyPlain s (A.ENC_CTL r) (setFldN v 0 0 0)) 0x261
  else wr (drawRegionKey t (rdF t (A.ENC_CTL r) 4 1)) (A.ENC_STATUS r) 2

/-- A write of ENC_CTL takes effect: an enabled region takes a clear enable only (R391). -/
def applyEncCtl (s : State) (r v : Nat) : State :=
  if encOn s r then (if bitN v 0 then s else encDisable s r)
  else if bitN v 0 then encEnable s r v
  else applyPlain s (A.ENC_CTL r) v

/-- The zero-fill of a region completes (R380). -/
def encReady (s : State) (r : Nat) : State :=
  if encOn s r && rdB s (A.ENC_STATUS r) 1 then
    encDrain (wr (encFill s r (encSize s r / 1024)) (A.ENC_STATUS r) 1)
  else s

/-! ### Temperatures (R384, R385, R524) -/

/-- The hottest of the stacks, and the lowest stack that is as hot. -/
def hottest (t : List Nat) : Int × Nat :=
  ((List.range t.length).map (fun i => (sgn 16 (t.getD i 0), i))).foldl
    (fun m x => if m.1 < x.1 then x else m) (sgn 16 (t.getD 0 0), 0)

/-- The hottest die of all stacks, as the last sample gave it. -/
def dramMax (s : State) : Int := sgn 16 (rdF s A.MEM_TEMP_MAX 15 0)

/-- MEM_TEMP_HOT. -/
def dramHotAt (s : State) : Int := sgn 16 (rdF s A.MEM_TEMP_HOT 15 0)

/-- A level source whose detail the spec does not state reports, once. -/
def levelReport (s : State) (src st : Nat) : State :=
  if levelActive s src then s else report s { source := src, status := st }

/-- Channel `ch` takes its stacks' temperatures; refresh doubles at 85 °C and halves below 82 °C. -/
def channelTemp (t : List Nat) (s : State) (ch : Nat) : State :=
  let a := t.getD ch 0 % 65536
  let b := t.getD (16 + ch / 4) 0 % 65536
  let hot := decide (170 ≤ max (sgn 16 a) (sgn 16 b))
  let cool := decide (max (sgn 16 a) (sgn 16 b) < 164)
  let was := rdB s (A.CH_STATUS ch) 1
  let s := wr s (A.CH_TEMP ch) (a + 65536 * b)
  if hot && !was then raise (wrF s (A.CH_STATUS ch) 1 1 1) (0x240 + ch) 8
  else if cool then wrF s (A.CH_STATUS ch) 1 1 0
  else s

/-- The words of a ten-stack temperature capture (R390). -/
def tempWords (t : List Nat) (first : Nat) : List Nat :=
  (List.range 5).map (fun i => t.getD (first + 2 * i) 0 % 65536 + 65536 * (t.getD (first + 2 * i + 1) 0 % 65536))

/-- Every stack reports its hottest die. -/
def tempSample (s : State) (t : List Nat) : State :=
  let was := dramMax s
  let m := hottest t
  let s := (List.range 16).foldl (channelTemp t) s
  let s := wr s A.MEM_TEMP_MAX (unsgn 16 m.1 + 65536 * m.2)
  let s := setRec (setRec s 0x260 2 (tempWords t 0)) 0x260 3 (tempWords t 10)
  let s := if was < dramHotAt s ∧ dramHotAt s ≤ m.1 then raise s 0x260 2 else s
  let s := if 190 ≤ m.1 then levelReport (if was < 190 then raise s 0x260 4 else s) 0x131 St.DRAM_OVERTEMP else s
  let s := if 200 ≤ m.1 then levelReport (if was < 200 then raise s 0x260 8 else s) 0x132 St.DRAM_CRITICAL else s
  let below := decide (m.1 < dramHotAt s - 6)
  { s with pm := { s.pm with coolAt := if below then some (s.pm.coolAt.getD s.ridge) else none } }

/-! ### Commands -/

/-- DRAM_REFRESH: a channel refreshes, which changes only timing (R384). -/
def execDramRefresh (_ch : Fin 16) (s : State) : Host.Outcome State Fault Refusal := whenOn (fun s => s) s

/-- DRAM_TEMP_SAMPLE: the hottest die of each of the 20 stacks, in units of 0.5 °C. -/
def execDramTempSample (temps : Vector (BitVec 16) 20) (s : State) : Host.Outcome State Fault Refusal :=
  whenOn (fun s => tempSample s (temps.toList.map (·.toNat))) s

/-- DRAM_CE_RATE: a second of a channel ends (R376). -/
def execDramCeRate (ch : Fin 16) (s : State) : Host.Outcome State Fault Refusal :=
  whenOn (fun s =>
    let n := smGet (fun _ => 0) s.corrections ch.val
    let s := { s with corrections := smSet (fun _ => 0) s.corrections ch.val 0 }
    if rdF s (A.CH_CE_LIMIT ch.val) 15 0 < n then
      report (raise (drawFree s).2 (0x240 + ch.val) 4)
        { source := 0x120 + ch.val, status := St.DRAM_CE_RATE, detail := (drawFree s).1 % 2 ^ 32 }
    else s) s

/-- DRAM_SCRUB_PASS: a scrub period ends (R378); `complete` tells whether the pass was read to its end. -/
def execDramScrubPass (complete : Bool) (s : State) : Host.Outcome State Fault Refusal :=
  whenOn (fun s => scrubPeriod s 4 (rdF s A.MEM_SCRUB_CFG 7 0) 3600000000000 complete
    (fun s => raise (bumpSat s A.MEM_SCRUB_LAG 1) 0x260 1)) s

/-- CH_INJECT: a write of CH_INJECT. -/
def execChInject (agent : Agent) (ch : Fin 16) (v : Word) (s : State) : Host.Outcome State Fault Refusal :=
  whenOn (fun s => namedWrite s agent (A.CH_INJECT ch.val) v.toNat (fun s => applyPlain s (A.CH_INJECT ch.val) v.toNat)) s

/-- ENC_REGION_ENABLE: a write of ENC_CTL that sets enable. -/
def execEncRegionEnable (agent : Agent) (r : Fin 16) (v : Word) (s : State) : Host.Outcome State Fault Refusal :=
  whenOn (fun s => namedWrite s agent (A.ENC_CTL r.val) (setFldN v.toNat 0 0 1)
    (fun s => applyEncCtl s r.val (setFldN v.toNat 0 0 1))) s

/-- ENC_REGION_READY: the zero-fill of a region completes. -/
def execEncRegionReady (r : Fin 16) (s : State) : Host.Outcome State Fault Refusal := whenOn (fun s => encReady s r.val) s

/-- ENC_REGION_DISABLE: a write of ENC_CTL that clears enable. -/
def execEncRegionDisable (agent : Agent) (r : Fin 16) (v : Word) (s : State) : Host.Outcome State Fault Refusal :=
  whenOn (fun s => namedWrite s agent (A.ENC_CTL r.val) (setFldN v.toNat 0 0 0)
    (fun s => applyEncCtl s r.val (setFldN v.toNat 0 0 0))) s

end Sys2Proof.Machine
end

