-- ==== Sys2Proof/Machine/Power.lean ====
section
/-!
DEFINITION. Power management while the device runs: the supply and clock monitors, the current budget and the governor, the
limits that heat sets, and the hold levels of clock domains (R512 to R530).
-/

namespace Sys2Proof.Machine

/-! ### Monitors (R516, R527) -/

/-- A rail has been outside its window for 2 µs. -/
def railFault (s : State) (r : Nat) (above : Bool) : State :=
  let src := if r = 0 then 0x150 + b2n above else 0x151 + r
  levelReport (raise (bumpSat s (A.RAIL_FAULTS r) 1) 0x011 1) src
    (if above then St.SUPPLY_OVERVOLTAGE else St.SUPPLY_UNDERVOLTAGE)

/-- REF or the SNT oscillator is lost. Without SNT the collector cannot classify, and REF forces both rails (R527). A REF
that stops takes the MGT clock with it, and with that clock the lanterns (R421). -/
def clockLost (s : State) (snt stopped : Bool) : State :=
  let s := raise s 0x020 1
  if snt then
    let s := wrF s A.CLK_MON 1 1 0
    if levelActive s 0x159 then s else collectFrom s { source := 0x159, status := St.CLOCK_LOST }
  else
    let s := levelReport (wrF s A.CLK_MON 0 0 0) 0x158 St.CLOCK_LOST
    if stopped then lanternsOff { s with lantern := { s.lantern with clockLost := true } } else s

/-- Domains that run from a phase-locked loop (Table 18.5). -/
def pllDomain (d : Nat) : Bool := decide (3 ≤ d ∧ d ≤ 24)

/-- A phase-locked domain clock loses lock. -/
def pllUnlocked (s : State) (d : Nat) : State :=
  if pllDomain d then
    levelReport (raise (wrF (wrF s A.CLK_MON 15 8 d) (A.CLK_STATUS (d - 1)) 4 4 0) 0x020 2) 0x15A St.PLL_UNLOCKED
  else s

/-! ### The budget (R518, R519) -/

/-- The power-management core runs. -/
def pmRuns (s : State) : Bool := (coreAt s 1).running

/-- The working package limit in watts. -/
def workLimit (s : State) : Nat := min (s.pm.work.getD 240) (rdF s A.PM_PKG_LIMIT 7 0)

/-- I_lim in amperes. -/
def currentLimit (s : State) : Nat :=
  let cap := rdF s A.PM_EMERGENCY_CAP 8 0
  if cap = 0 then rdF s A.PM_VCORE_LIMIT 8 0 else min (rdF s A.PM_VCORE_LIMIT 8 0) cap

/-- What the arrays would draw in mA with class S arrays at one level and the other running arrays at another. -/
def arraysDraw (s : State) (m : PowerSample) (lS lO : Nat) : Nat :=
  ((List.range 16).map (fun u =>
    let os := arrOps s (u / 4) (u % 4)
    let row := m.levels.getD u []
    if os.isEmpty then 0 else if os.any (fun o => o.cls == clsS) then row.getD lS 0 else row.getD lO 0)).sum

/-- VCORE in mV. -/
def vcore (m : PowerSample) : Nat := (m.volts.toList.getD 0 0).toNat

/-- The package limit holds with the arrays at these levels. -/
def packageFits (s : State) (m : PowerSample) (lS lO : Nat) : Bool :=
  decide (m.basePower + arraysDraw s m lS lO * vcore m / 1000 ≤ 1000 * workLimit s)

/-- The VCORE limit holds with the arrays at these levels. -/
def currentFits (s : State) (m : PowerSample) (lS lO : Nat) : Bool :=
  decide (m.baseCurrent + arraysDraw s m lS lO ≤ 1000 * currentLimit s)

/-- The largest level up to `top` that a condition admits; 0 where none does. -/
def topLevel (top : Nat) (q : Nat → Bool) : Nat := ((List.range (top + 1)).reverse.find? q).getD 0

/-- ARR_STATUS of every array follows its caps. -/
def allArrRegs (s : State) : State := (List.range 16).foldl (fun s u => arrRegs s (u / 4) (u % 4)) s

/-- The rails as measured (Table 18.11). -/
def railRegs (s : State) (m : PowerSample) : State :=
  (List.range 6).foldl (fun s r =>
    wr (wr s (A.RAIL_V r) (m.volts.toList.getD r 0).toNat) (A.RAIL_I r) (m.amps.toList.getD r 0).toNat) s

/-- Every 100 µs: measure, then set L_S and L_AQ. A level that the governor took away returns once the current is within
its limit (R521). -/
def budget (s : State) (m : PowerSample) : State :=
  if pmRuns s = false then s
  else
    let s := wr (railRegs s m) A.PM_POWER m.pkg.toNat
    let fits (a b : Nat) : Bool := packageFits s m a b && currentFits s m a b
    let lS := topLevel 16 (fun l => fits l (min l 1))
    let lAQ := topLevel lS (fun l => fits lS l)
    let p := !packageFits s m 16 16
    let i := !currentFits s m 16 16
    let was := rdF s A.PM_STATUS 1 0 != 0
    let free := decide ((m.amps.toList.getD 0 0).toNat ≤ 1000 * currentLimit s)
    let s := { s with pm := { s.pm with capS := lS, capAQ := lAQ } }
    let back := s.arrays.map (fun e => (e.1, { e.2 with gov := 16 }))
    let s := if free then { s with arrays := smSetAll (fun _ => {}) s.arrays back } else s
    let s := wrF (wrF s A.PM_STATUS 0 0 (b2n p)) A.PM_STATUS 1 1 (b2n i)
    let s := if p || i then bump s A.PM_CAP_INTERVALS 1 else s
    let s := if (p || i) && !was then raise s 0x010 1 else s
    let v := (m.amps.toList.getD 0 0).toNat / 100
    let s := setRec s 0x010 1 [m.pkg.toNat + 65536 * (v % 65536), lS + 256 * lAQ, workLimit s]
    allArrRegs s

/-! ### The governor (R521, R522) -/

/-- Every 1 µs: while VCORE exceeds I_lim, every array goes down two levels, one per 0.5 µs. -/
def governor (s : State) (ma : Nat) : State :=
  let high := decide (1000 * currentLimit s < ma)
  let was := rdB s A.PM_STATUS 3
  let s := if rdF s (A.RAIL_I_MAX 0) 19 0 < ma then wr s (A.RAIL_I_MAX 0) ma else s
  let s := wrF s A.PM_STATUS 3 3 (b2n high)
  if high then
    let s := if was then s else raise (bumpSat s A.PM_GOV_TRIPS 1) 0x010 2
    let dark := allBelow 16 (fun u => arrLevel s (u / 4) (u % 4) == 0)
    let s := allArrRegs ((List.range 16).foldl (fun s u =>
      setArr s (u / 4) (u % 4) { arrUnit s (u / 4) (u % 4) with gov := arrLevel s (u / 4) (u % 4) - 2 }) s)
    if dark then
      let t := s.pm.overAt.getD s.ridge
      let s := { s with pm := { s.pm with overAt := some t } }
      if t + 100000 ≤ s.ridge then levelReport s 0x15C St.POWER_LIMIT_UNHELD else s
    else { s with pm := { s.pm with overAt := none } }
  else { s with pm := { s.pm with overAt := none } }

/-- A write of PM_EMERGENCY_CAP takes effect (R522). -/
def applyCap (s : State) (v : Nat) : State :=
  let c := fldN v 8 0
  let c := if c = 0 then 0 else if c < 100 then 100 else if 280 < c then 280 else c
  wrF (wr s A.PM_EMERGENCY_CAP c) A.PM_STATUS 2 2 (b2n (c != 0))

/-! ### Heat (R524, R525) -/

/-- The working package limit steps down while a stack is hot, and up once every stack has been cool for 1 s (R524). -/
def hotStep (s : State) : State :=
  let ready := match s.pm.limitAt with
    | some t => decide (t + 100000000 ≤ s.ridge)
    | none => true
  let top := rdF s A.PM_PKG_LIMIT 7 0
  let step := rdF s A.PM_HOT_STEP 5 0
  if pmRuns s = false ∨ ready = false then s
  else if dramHotAt s ≤ dramMax s then
    let s := { s with pm := { s.pm with work := some (max 120 (workLimit s - step)), limitAt := some s.ridge } }
    raise (wrF s A.PM_STATUS 4 4 1) 0x010 4
  else
    match s.pm.work, s.pm.coolAt with
    | some w, some t =>
      if t + 1000000000 ≤ s.ridge then
        let w' := min w top + step
        let s := { s with pm := { s.pm with work := if top ≤ w' then none else some w', limitAt := some s.ridge } }
        wrF s A.PM_STATUS 4 4 (b2n (decide (w' < top)))
      else s
    | _, _ => s

/-- The die sensors are read (R525). -/
def dieSample (s : State) (t : List Nat) : State :=
  let was := sgn 16 (rdF s A.DIE_TEMP 15 0)
  let m := hottest t
  let hot := (rdF s A.DIE_TEMP_HOT 15 0 : Int)
  let s := wr s A.DIE_TEMP (unsgn 16 m.1 + 65536 * m.2)
  let s := if was < hot ∧ hot ≤ m.1 then raise s 0x011 2 else s
  if 230 ≤ m.1 then levelReport s 0x15B St.DIE_CRITICAL else s

/-- The die clocks step by one, down every 10 ms while hot, up every 100 ms once cool; under STRICT the step waits for a
launch (R525). -/
def clockStep (s : State) : State :=
  let t := sgn 16 (rdF s A.DIE_TEMP 15 0)
  let hot := (rdF s A.DIE_TEMP_HOT 15 0 : Int)
  let n := s.pm.clockDue.getD (rdF s A.PM_STATUS 7 5)
  let due (w : Nat) : Bool := match s.pm.clockAt with
    | some c => decide (c + w ≤ s.ridge)
    | none => true
  let go (n' : Nat) : State :=
    let s := { s with pm := { s.pm with clockAt := some s.ridge } }
    let s := if n = 0 then raise s 0x010 8 else s
    if strict s then { s with pm := { s.pm with clockDue := some n' } } else setClockStep s n'
  if pmRuns s = false then s
  else if hot ≤ t ∧ n < 4 ∧ due 10000000 = true then go (n + 1)
  else if t < hot - 10 ∧ 0 < n ∧ due 100000000 = true then go (n - 1)
  else s

/-! ### Hold levels (R526, R528 to R530) -/

/-- Work of a domain that the model holds. -/
def domainBusy (s : State) (d : Nat) : Bool :=
  s.rf.posted.any (fun e => !e.2.isEmpty && pageDomain e.1 == d) || s.rf.wakes.contains d ||
  s.insts.any (fun x => x.jobs.any (fun j => j.stage == .running && (jobDomains j).contains d)) ||
  (if d = 5 then anyRuns s || !s.pods.rx.isEmpty || !s.starts.isEmpty || !s.pods.stream.isEmpty
   else if 6 ≤ d ∧ d ≤ 9 then s.ops.any (fun o => o.cluster == d - 6 && decide (o.unit < 4))
   else if 10 ≤ d ∧ d ≤ 13 then s.ops.any (fun o => o.cluster == d - 10 && decide (4 ≤ o.unit))
   else if d = 14 then !s.seq.cmds.isEmpty
   else if d = 18 then s.pipeQ.any (fun e => !e.2.isEmpty) || s.slots.any (fun e => e.2.busy) || s.pp.forming.isSome
   else if d = 19 then s.decq.any (fun e => !e.2.items.isEmpty)
   else if 21 ≤ d ∧ d ≤ 23 then !(glOf s (d - 21)).txq.isEmpty || !(glOf s (d - 21)).rxq.isEmpty
   else false)

/-- A link is up or trains: its port is in use and its lanes are not in shutdown. -/
def linkAwake (s : State) (group : Nat) (used up : Bool) : Bool :=
  up || (used && (smGet (fun _ => ({} : LaneGroup)) s.lanes group).shut.isNone)

/-- The deepest hold level Table 18.5 gives a domain now. -/
def tableLimit (s : State) (d : Nat) : Nat :=
  if d = 17 then (if (List.range 32).any (fun n => unitOn s (0x040 + n)) then 0 else 3)
  else if d = 20 then (if linkAwake s 35 true (rdB s A.U4_STATUS 0) then 0 else 3)
  else if 21 ≤ d ∧ d ≤ 23 then
    (if linkAwake s (32 + (d - 21)) (rdB s (A.GL_CFG (d - 21)) 0) (rdB s (A.GL_STATUS (d - 21)) 0) then 0 else 3)
  else if d = 25 then (if (List.range 8).any (fgOn s) then 0 else 1)
  else clockDeepest d

/-- The wake budget in µs: the smallest among the classes of loaded graphs and queued pods, else that of class Q (R529). -/
def wakeBudget (s : State) : Nat :=
  let cs := s.graphs.filterMap (fun e => e.2.map (·.cls)) ++ s.pods.rx.map (fun p => p.hdr.cls)
  let b (c : Nat) : Nat := if c = clsS then rd s A.PM_WAKE_S else if c = clsA then rd s A.PM_WAKE_A else rd s A.PM_WAKE_Q
  match cs with
  | [] => b clsQ
  | c :: t => t.foldl (fun m x => min m (b x)) (b c)

/-- The deepest level whose wake time is within a budget (Table 18.6). -/
def budgetDepth (us : Nat) : Nat := if us < 2 then 0 else if us < 30 then 1 else if us < 250 then 2 else 3

/-- The deepest level a domain may descend to. -/
def holdLimit (s : State) (d : Nat) : Nat :=
  min (min (tableLimit s d) (rdF s (A.CLK_HOLD_MAX (d - 1)) 2 0)) (budgetDepth (wakeBudget s))

/-- The idle time after which a level is entered (Table 18.6). -/
def idleTicks (l : Nat) : Nat := if l = 1 then 10000 else if l = 2 then 150000 else 2000000

/-- CLK_STATUS of a domain at a hold level: clocks gated from H1, the loop off from H2. -/
def clkStatus (l : Nat) : Nat := l + 8 * b2n (l == 0) + 16 * b2n (decide (l ≤ 1))

/-- A domain that has been idle for a time descends one level. -/
def holdEntry (s : State) (d idle : Nat) : State :=
  let l := holdLevel s d + 1
  if d = 0 ∨ 25 < d ∨ 3 < l ∨ holdLimit s d < l ∨ idle < idleTicks l ∨ domainBusy s d = true then s
  else wr s (A.CLK_STATUS (d - 1)) (clkStatus l)

/-- Running jobs of which a domain's wake completes the awakening start their timeout now (R530). -/
def restartTimeouts (s0 s : State) : State :=
  { s with insts := s.insts.map (fun x => { x with jobs := x.jobs.map (fun j =>
      if j.stage == .running && jobAwake s j && !jobAwake s0 j then { j with firedAt := s.ridge } else j) }) }

/-- A held domain for which a wake is requested reaches H0 (R83, R530). -/
def domainWake (s : State) (d : Nat) : State :=
  if holdLevel s d = 0 ∨ d = 0 ∨ s.rf.wakes.contains d = false then s
  else
    let s0 := s
    let s := { s with rf := { s.rf with wakes := s.rf.wakes.filter (fun x => x != d) } }
    let s := bump (wr s (A.CLK_STATUS (d - 1)) (clkStatus 0)) (A.CLK_WAKES (d - 1)) 1
    restartTimeouts s0 (deferredApplies s d)

/-- Domains deeper than they may be are woken (R529). -/
def wakeDeep (s : State) : State :=
  (List.range 25).foldl (fun s i => if budgetDepth (wakeBudget s) < holdLevel s (i + 1) then wakeRequest s (i + 1) else s) s

/-- A write of a class's wake budget takes effect. -/
def applyPmWake (s : State) (a v : Nat) : State := wakeDeep (applyPlain s a v)

/-- The address of a class's wake budget: PM_WAKE_S, PM_WAKE_A, PM_WAKE_Q. -/
def wakeAddr (c : Nat) : Nat := if c = 0 then A.PM_WAKE_S else if c = 1 then A.PM_WAKE_A else A.PM_WAKE_Q

/-! ### Commands -/

/-- RAIL_WINDOW_FAULT: rail 0 VCORE to 5 VAUX (Table 18.11) is below or above its window. -/
def execRailWindowFault (rail : Fin 6) (above : Bool) (s : State) : Host.Outcome State Fault Refusal :=
  whenOn (fun s => railFault s rail.val above) s

/-- CLOCK_LOST: REF, or the SNT oscillator, deviates or has stopped. -/
def execClockLost (snt stopped : Bool) (s : State) : Host.Outcome State Fault Refusal :=
  whenOn (fun s => clockLost s snt stopped) s

/-- PLL_UNLOCKED: a domain's clock. -/
def execPllUnlocked (d : Fin 26) (s : State) : Host.Outcome State Fault Refusal := whenOn (fun s => pllUnlocked s d.val) s

/-- AON_FAULT: the AON oscillator fails its check. -/
def execAonFault (s : State) : Host.Outcome State Fault Refusal :=
  whenOn (fun s => raise (wrF s A.CLK_MON 2 2 0) 0x020 4) s

/-- PM_BUDGET_INTERVAL: what the core measures. -/
def execPmBudgetInterval (m : PowerSample) (s : State) : Host.Outcome State Fault Refusal := whenOn (fun s => budget s m) s

/-- GOVERNOR_SAMPLE: VCORE current in mA. -/
def execGovernorSample (ma : BitVec 20) (s : State) : Host.Outcome State Fault Refusal :=
  whenOn (fun s => governor s ma.toNat) s

/-- PM_EMERGENCY_CAP: a write of PM_EMERGENCY_CAP. -/
def execPmEmergencyCap (agent : Agent) (v : Word) (s : State) : Host.Outcome State Fault Refusal :=
  whenOn (fun s => immediateWrite s agent A.PM_EMERGENCY_CAP v.toNat (fun s => applyCap s v.toNat)) s

/-- DRAM_HOT_REDUCTION: 100 ms have passed since the working limit last stepped. -/
def execDramHotReduction (s : State) : Host.Outcome State Fault Refusal := whenOn hotStep s

/-- DIE_TEMP_SAMPLE: the 16 die sensors in units of 0.5 °C. -/
def execDieTempSample (temps : Vector (BitVec 16) 16) (s : State) : Host.Outcome State Fault Refusal :=
  whenOn (fun s => dieSample s (temps.toList.map (·.toNat))) s

/-- CLOCK_STEP: the time of a clock step has come. -/
def execClockStep (s : State) : Host.Outcome State Fault Refusal := whenOn clockStep s

/-- HOLD_LEVEL_ENTRY: a domain has been idle for a number of ticks. -/
def execHoldLevelEntry (d : Fin 26) (idle : BitVec 64) (s : State) : Host.Outcome State Fault Refusal :=
  whenOn (fun s => holdEntry s d.val idle.toNat) s

/-- DOMAIN_WAKE: a domain's wake time has passed. -/
def execDomainWake (d : Fin 26) (s : State) : Host.Outcome State Fault Refusal := whenOn (fun s => domainWake s d.val) s

/-- PM_WAKE: a write of the wake budget of class S, A or Q. -/
def execPmWake (agent : Agent) (c : Fin 3) (v : Word) (s : State) : Host.Outcome State Fault Refusal :=
  whenOn (fun s => namedWrite s agent (wakeAddr c.val) v.toNat (fun s => applyPmWake s (wakeAddr c.val) v.toNat)) s

end Sys2Proof.Machine
end

