-- ==== Sys2Proof/Machine/Lockstep.lean ====
section
/-!
DEFINITION. The lock-step pairs and the watchdogs of the firmware processors (R448 to R450, R457, R505, R506, R510).
-/

namespace Sys2Proof.Machine

/-! ### Lock-step pairs -/

/-- The core of pair `p`: 0 to 3 the control cores, 4 the scheduler, in the core order of R488. -/
def pairCore (p : Nat) : Nat := if p < 4 then 3 + p else 2

/-- The checker of a pair compares: the pair runs in lock-step. -/
def pairCompares (s : State) (p : Nat) : Bool :=
  let c := coreAt s (pairCore p)
  decide (p < 5) && c.running && !c.stopped && !c.halted0 && !c.halted1 && !split s

/-- LS_STATUS follows the pairs (Table 15.13). -/
def lsRegs (s : State) : State :=
  let bits (f : FwCore → Bool) : Nat := ((List.range 5).map (fun p => 2 ^ p * b2n (f (coreAt s (pairCore p))))).sum
  wr s A.LS_STATUS (bits (fun c => c.halted0 || c.halted1) + 256 * bits (fun c => c.stopped)
    + 65536 * b2n (split s))

/-- The checker of a pair finds a difference at an instruction address: both copies stop (R448). -/
def lsMismatch (s : State) (p addr : Nat) (injected : Bool) : State :=
  if pairCompares s p = false then s
  else
    let k := pairCore p
    let s := lsRegs (setCore s k { coreAt s k with stopped := true })
    let s := setRec (bumpSat s A.LS_MISMATCH_COUNT 1) 0x2DB 1 [p + 256 * b2n injected, addr, lo32 s.ridge, hi32 s.ridge]
    let s := raise s 0x2DB (1 + 4 * b2n injected)
    report s { source := 0x0F0 + p, status := St.LOCKSTEP_MISMATCH, injected := injected, placement := placement s }

/-- An armed injection strikes in the next compared cycle of its pair (Table 15.13). -/
def lsTry (s : State) : State :=
  let p := rdF s A.LS_INJECT 2 0
  if rdB s A.LS_INJECT 3 && pairCompares s p then
    lsMismatch (drawFree (wrF s A.LS_INJECT 3 3 0)).2 p ((drawFree s).1 % 2 ^ 32) true
  else s

/-- The watchdog of a core that is halted stands still (R450, R505). -/
def haltCore (s : State) (k : Nat) (copies : List Nat) : State :=
  let c := coreAt s k
  let c1 := { c with halted0 := c.halted0 || copies.contains 0, halted1 := c.halted1 || copies.contains 1 }
  setCore s k { c1 with haltAt := if c.halted0 || c.halted1 then c.haltAt else s.ridge }

/-- Halt requests under a debug session (R450): `copy` is the copy named on a split device. -/
def lsHalt (s : State) (mask copy : Nat) : State :=
  if rdB s A.MGT_STATUS 2 = false ∨ mask % 32 = 0 then s
  else
    let s := if fgOn s (coveredFg s) then
        raise (collect s { source := 0x143, status := St.DEBUG_SAFE, detected := s.ridge }) 0x2DB 8
      else s
    let s := (List.range 5).foldl (fun s p =>
      if bitN mask p then haltCore s (pairCore p) (if split s then [copy] else [0, 1]) else s) s
    raise (lsRegs s) 0x2DB 2

/-- A resume restarts every halted pair (R450). -/
def lsResume (s : State) : State :=
  if rdB s A.MGT_STATUS 2 = false then s
  else
    let s := (List.range 5).foldl (fun s p =>
      let k := pairCore p
      let c := coreAt s k
      if c.halted0 || c.halted1 then
        setCore s k { c with halted0 := false, halted1 := false, kickAt := c.kickAt + (s.ridge - c.haltAt), haltAt := 0 }
      else s) s
    lsTry (lsRegs s)

/-- A write of LS_DEBUG takes effect: halt requests, then a resume. -/
def applyLsDebug (s : State) (v copy : Nat) : State :=
  let s := wr s A.LS_DEBUG (fldN v 4 0)
  let s := lsHalt s (fldN v 4 0) copy
  if bitN v 8 then wr (lsResume s) A.LS_DEBUG 0 else s

/-- A write of LS_INJECT takes effect. -/
def applyLsInject (s : State) (v : Nat) : State := lsTry (applyPlain s A.LS_INJECT v)

/-! ### Watchdogs -/

/-- The management session closes, with any handshake (R500). -/
def closeSession (s : State) : State :=
  let was := s.mgt.session.isSome
  let s := { s with mgt := { s.mgt with session := none, shake := none } }
  let s := wrF (wrF s A.MGT_STATUS 2 1 0) A.SEC_STATUS 2 2 0
  if was then raise s 0x030 8 else s

/-- A watchdog expires: flagged, counted, reported under the source of its core, with the consequence of Table 17.9
(R505, R506). -/
def wdExpire (s : State) (k : Nat) : State :=
  let s := wrF (bumpSat s (A.WD_EXPIRIES k) 1) (A.WD_STATUS k) 9 9 1
  let s := report (raise s 0x039 1) { source := 0x0F5 + k, status := St.WATCHDOG_EXPIRED }
  if k = 0 then setCore (closeSession { s with sec := { s.sec with keysStopped := true } }) k {}
  else if k = 1 then setCore s k {} else s

/-- The watchdog of a core runs. -/
def wdRunning (s : State) (k : Nat) : Bool := rdB s (A.WD_STATUS k) 8

/-- The next period of a watchdog starts now. -/
def wdRestart (s : State) (k : Nat) : State := setCore s k { coreAt s k with kickAt := s.ridge }

/-- A kick of the watchdog of core `k` by an agent (R505). -/
def wdKick (s : State) (ag : Agent) (k token : Nat) : State :=
  let own := match ag with | .firmware c => decide (c.val = k) | _ => false
  if own = false ∨ wdRunning s k = false then s
  else
    let t := s.ridge - (coreAt s k).kickAt
    let opening := 10000 * rdF s (A.WD_CFG k) 15 0
    let closing := 10000 * rdF s (A.WD_CFG k) 31 16
    let good := decide (opening ≤ t ∧ t < closing) && decide (token % 256 = (rdF s (A.WD_STATUS k) 7 0 + 1) % 256)
    if good then wdRestart (wrF s (A.WD_STATUS k) 7 0 token) k
    else wdExpire (wdRestart s k) k

/-- The window of the watchdog of core `k` closes without a kick (R505). -/
def wdTimeout (s : State) (k : Nat) : State :=
  if wdRunning s k = false ∨ s.ridge < (coreAt s k).kickAt + 10000 * rdF s (A.WD_CFG k) 31 16 then s
  else wdExpire (wdRestart s k) k

/-- A core starts from its first instruction (R505, R506). -/
def startCore (s : State) (k : Nat) : State :=
  lsTry (lsRegs (wrF (setCore s k { running := true, kickAt := s.ridge }) (A.WD_STATUS k) 7 0 0))

/-! ### Commands -/

/-- LOCKSTEP_MISMATCH: the checker of a pair finds a difference at an instruction address of copy 0. -/
def execLockstepMismatch (p : Fin 5) (addr : Word) (s : State) : Host.Outcome State Fault Refusal :=
  whenOn (fun s => lsMismatch s p.val addr.toNat false) s

/-- LS_DEBUG_HALT: a guarded write of LS_DEBUG with halt requests. -/
def execLsDebugHalt (agent : Agent) (mask : BitVec 5) (copy : Fin 2) (s : State) : Host.Outcome State Fault Refusal :=
  whenOn (fun s => namedWrite s agent A.LS_DEBUG mask.toNat (fun s => applyLsDebug s mask.toNat copy.val)) s

/-- LS_DEBUG_RESUME: a guarded write of LS_DEBUG with resume. -/
def execLsDebugResume (agent : Agent) (s : State) : Host.Outcome State Fault Refusal :=
  whenOn (fun s => namedWrite s agent A.LS_DEBUG 0x100 (fun s => applyLsDebug s 0x100 0)) s

/-- LS_INJECT: a guarded write of LS_INJECT. -/
def execLsInject (agent : Agent) (v : Word) (s : State) : Host.Outcome State Fault Refusal :=
  whenOn (fun s => namedWrite s agent A.LS_INJECT v.toNat (fun s => applyLsInject s v.toNat)) s

end Sys2Proof.Machine
end

