-- ==== Sys2Proof/Machine/Security.lean ====
section
/-!
DEFINITION. The security core while the device runs: derived keys, attestation, the host's authentication, model keys,
MACsec keys, watchdogs and the security version (R485 to R487, R496 to R498, R501 to R503, R505 to R507).
-/

namespace Sys2Proof.Machine

/-! ### Identity and derived keys (R485 to R487) -/

/-- The serial number as bytes. -/
def serialBytes (s : State) : List Byte := leBytes 16 s.fuses.serial

/-- M_fw, or zero before a firmware image is accepted. -/
def fwMeasure (s : State) : List Byte := (s.sec.fw.map (·.m)).getD (zeros 64)

/-- M_cfg, or zero without a configuration image. -/
def cfgMeasure (s : State) : List Byte := (s.sec.cfg.map (·.m)).getD (zeros 64)

/-- The security version of the running firmware. -/
def fwSvn (s : State) : Nat := (s.sec.fw.map (·.svn)).getD 0

/-- The seed of the identity key IK. -/
def ikSeed (s : State) : List Byte := Config.kdf Config.dus (serialBytes s) [0x49, 0x4B]

/-- The seed of the device KEM key DK. -/
def dkSeed (s : State) : List Byte := Config.kdf Config.dus (serialBytes s ++ leBytes 1 (fwSvn s)) [0x44, 0x4B]

/-- The seed of the alias key AK. -/
def akSeed (s : State) : List Byte := Config.kdf Config.dus (fwMeasure s ++ cfgMeasure s) [0x41, 0x4B]

/-- The IK public key, 1,793 bytes. -/
def ikPublic (s : State) : List Byte := padTo 1793 (Config.falconPublic (ikSeed s))

/-- ID_GRADE (Table 3.8). -/
def gradeCode (s : State) : Nat := s.fuses.grade + 1

/-! ### Attestation (R497, Table 17.7) -/

/-- Put pieces at offsets of `n` zero bytes. -/
def layOut (n : Nat) (l : List (Nat × List Byte)) : List Byte :=
  l.foldl (fun b x => padTo n (b.take x.1 ++ x.2 ++ b.drop (x.1 + x.2.length))) (zeros n)

/-- LOCK is set on every guarded page, which is every page with the common header (R91). -/
def allLocked (s : State) : Bool := allBelow 0x300 (fun p => !hasHeader p || locked s p)

/-- The bits of an attestation report's bytes 2 and 3. -/
def reportBits (s : State) : Nat :=
  b2n s.sec.cfg.isSome + 2 * b2n (!multiDevice s) + 4 * b2n (split s) + 8 * b2n s.sec.debugOpened + 16 * b2n (strict s)
    + 32 * b2n (rdB s A.SEC_STATUS 1) + 64 * b2n (allLocked s) + 128 * b2n s.fuses.debugOff + 256 * rdF s A.FC_STATUS 1 0

/-- Encryption regions enabled, one bit each. -/
def regionBits (s : State) : Nat := ((List.range 16).map (fun r => if encOn s r then 2 ^ r else 0)).sum

/-- The model id of a key slot; zero for a region key. -/
def slotModel (s : State) (k : Nat) : Nat := if (keySlot s k).imported then (keySlot s k).model else 0

/-- The first 512 bytes of the attestation report. -/
def reportHead (s : State) (nonce : List Byte) : List Byte :=
  layOut 512 ([(0, leBytes 1 1), (1, leBytes 1 (nodeState s)), (2, leBytes 2 (reportBits s)), (4, leBytes 1 (gradeCode s)),
    (5, leBytes 1 (ringId s)), (6, leBytes 1 s.fuses.counter), (8, leBytes 8 s.ridge), (16, serialBytes s), (32, padTo 32 nonce),
    (64, leBytes 4 (rd s A.FW_VERSION)), (68, leBytes 1 (fwSvn s)), (72, leBytes 4 (rd s A.CFG_VERSION)),
    (76, leBytes 4 (rd s A.FC_RECOVERIES)), (80, padTo 64 (fwMeasure s)), (144, padTo 64 (cfgMeasure s)),
    (208, padTo 64 s.sentry.digest), (272, leBytes 4 (rdF s A.SEC_KEY_SLOTS 15 0 + 65536 * regionBits s))]
    ++ (List.range 16).map (fun k => (280 + 8 * k, leBytes 8 (slotModel s k))))

/-- The first 3,584 bytes of the alias certificate. -/
def certHead (s : State) : List Byte :=
  layOut 3584 [(0, leBytes 1 1), (1, leBytes 1 (fwSvn s)), (16, serialBytes s), (32, padTo 64 (fwMeasure s)),
    (96, padTo 64 (cfgMeasure s)), (192, padTo 1793 (Config.falconPublic (akSeed s))),
    (1985, padTo 1568 (Config.kemPublic (dkSeed s)))]

/-- A head and its signature by a seed's key over its 512-bit digest. -/
def signed (seed head : List Byte) : List Byte := head ++ padTo 1280 (Config.falconSign seed (Config.shake256 64 head))

/-- The alias certificate. -/
def aliasCert (s : State) : List Byte := signed (ikSeed s) (certHead s)

/-- An attestation object: 0 a report, 1 the alias certificate, 2 the IK public key. -/
def attestObject (s : State) (what : Nat) (nonce : List Byte) : List Byte :=
  if what = 0 then signed (akSeed s) (reportHead s nonce) else if what = 1 then aliasCert s else ikPublic s

/-- ATTEST is taken: one at a time. -/
def attestTake (s : State) (no : Nat) : State :=
  if s.sec.attest.isSome ∨ s.sec.keysStopped = true then s
  else
    match takePod s no 4 (isControl 0xA 1) with
    | none => s
    | some (p, s) =>
      { s with sec := { s.sec with attest := some { no := no, what := leAt p.body 0 1, addr := addrLocal (leAt p.body 8 8),
                                                    nonce := (p.body.drop 16).take 32 } } }

/-- The attestation object is written, and the pod completes. -/
def attestDone (s : State) : State :=
  match s.sec.attest with
  | none => s
  | some a =>
    if encWaits s a.addr (attestLen a.what) then s else
    let s := { s with sec := { s.sec with attest := none } }
    let r := memWrite s (.firmware 0) a.addr (attestObject s a.what a.nonce) (podCls s a.no) (podEcho s a.no)
    podComplete r.2 a.no r.1

/-! ### The host's authentication (R498) -/

/-- A failed tag, signature or HOST_AUTH is counted and flagged. -/
def authFail (s : State) : State := raise (bumpSat s A.SEC_AUTH_FAILS 1) 0x030 1

/-- The host challenge is renewed. -/
def renewChallenge (s : State) : State :=
  { (drawFree s).2 with sec := { s.sec with challenge := (drawFree s).1 % 2 ^ 192 } }

/-- A HOST_AUTH pod authenticates the host. -/
def hostProof (s : State) (p : RxPod) : Bool :=
  let key := p.body.take 1793
  let sig := (p.body.drop 1856).take 1280
  let rest := (p.body.drop 1793).take 63 ++ p.body.drop 3136
  p.hdr.length == 100 && leNat rest == 0 && some (Config.shake256 32 key) == s.sec.hostKey &&
    Config.falconVerify key (Config.shake256 64 (leBytes 24 s.sec.challenge ++ serialBytes s)) sig

/-- HOST_AUTH: whatever it finds, the challenge is renewed. -/
def hostAuth (s : State) (no : Nat) : State :=
  if s.sec.keysStopped then s
  else
    match takePod s no 4 (isControl 0xA 2) with
    | none => s
    | some (p, s) =>
      let ok := hostProof s p
      let s := renewChallenge s
      if ok then podComplete (raise (wrF s A.SEC_STATUS 1 1 1) 0x030 2) no 0
      else podComplete (authFail s) no St.HOST_AUTH_FAIL

/-- The host becomes unauthenticated, where a host key is set (R498). -/
def hostReset (s : State) : State := if s.sec.hostKey.isSome then wrF s A.SEC_STATUS 1 1 0 else s

/-! ### Model keys (R501, R502) -/

/-- A key slot is named by an enabled region. -/
def slotNamed (s : State) (k : Nat) : Bool := (List.range 16).any (fun r => encOn s r && rdF s (A.ENC_CTL r) 4 1 == k)

/-- A pod completes with a status that the spec does not state: free. -/
def completeFree (s : State) (no : Nat) : State := podComplete (drawFree s).2 no ((drawFree s).1 % 65536)

/-- A model-key blob, checked and decrypted: the model id and the key, or none (R502). -/
def openBlob (s : State) (b : List Byte) : Option (Nat × List Byte) :=
  let k := Config.kdf (Config.kemDecaps (dkSeed s) ((b.drop 32).take 1568)) (b.take 32) [0x4B, 0x42]
  let key := Config.gcmPlain k 0 ((b.drop 1600).take 32)
  if leAt b 0 1 ≠ 1 ∨ leAt b 1 1 ≠ fwSvn s ∨ leAt b 16 16 ≠ s.fuses.serial
      ∨ padTo 16 (Config.gcmTag k 0 (b.take 32) key) ≠ (b.drop 1632).take 16 then none
  else some (leAt b 8 8, key)

/-- KEY_IMPORT. -/
def keyImport (s : State) (no : Nat) : State :=
  let wait := s
  if s.sec.keysStopped then s
  else
    match takePod s no 4 (isControl 0xA 4) with
    | none => s
    | some (p, s) =>
      let k := leAt p.body 0 1
      if trngFailed s then podComplete s no St.TRNG_FAILED
      else if 16 ≤ k then completeFree s no
      else if ((keySlot s k).valid && !(keySlot s k).imported) || slotNamed s k then podComplete s no St.KEY_SLOT_BUSY
      else if encWaits s (addrLocal (leAt p.body 8 8)) 1648 then wait
      else
        match memRead s (.firmware 0) (addrLocal (leAt p.body 8 8)) 1648 p.hdr.cls (echo := p.hdr.sequence) with
        | (0, b, s) =>
          (match openBlob s b with
           | some (m, key) =>
             podComplete (raise (setKeySlot s k { valid := true, imported := true, model := m, key := key }) 0x030 0x20) no 0
           | none => podComplete (authFail s) no St.KEY_BLOB_INVALID)
        | (st, _, s) => podComplete s no st

/-- KEY_CLEAR zeroes an imported key; the spec gives no status for another slot. -/
def keyClear (s : State) (no : Nat) : State :=
  if s.sec.keysStopped then s
  else
    match takePod s no 4 (isControl 0xA 6) with
    | none => s
    | some (p, s) =>
      let k := leAt p.body 0 1
      if k < 16 ∧ (keySlot s k).imported = true then podComplete (setKeySlot s k {}) no 0 else completeFree s no

/-- MODEL_IMPORT is taken: one at a time. A request that breaks its conditions has no stated status. -/
def modelImport (s : State) (no : Nat) : State :=
  if s.sec.keysStopped ∨ s.sec.import_.isSome then s
  else
    match takePod s no 4 (isControl 0xA 5) with
    | none => s
    | some (p, s) =>
      let k := leAt p.body 0 1
      let r := leAt p.body 1 1
      let dst := addrLocal (leAt p.body 16 8)
      let n := leAt p.body 24 4
      let ok := decide (k < 16 ∧ r < 16 ∧ n % 65536 = 0 ∧ n ≠ 0) && (keySlot s k).imported && encOn s r
        && rdF s (A.ENC_CTL r) 6 5 == 0 && decide (encBase s r ≤ dst ∧ dst + n ≤ encBase s r + encSize s r)
      if ok then
        { s with sec := { s.sec with import_ := some { no := no, slot := k, region := r, src := addrLocal (leAt p.body 8 8),
                                                       dst := dst, len := n } } }
      else completeFree s no

/-- A chunk of a package: its plaintext where its tag is right (R502). -/
def importChunk (s : State) (m : ModelImport) (i : Nat) : Nat × List Byte × State :=
  match memRead s (.firmware 0) (m.src + 65536 * i) 65536 (podCls s m.no) (echo := podEcho s m.no) with
  | (0, c, s) =>
    (match memRead s (.firmware 0) (m.src + m.len + 16 * i) 16 (podCls s m.no) (echo := podEcho s m.no) with
     | (0, t, s) =>
       let k := keySlot s m.slot
       let plain := Config.gcmPlain k.key i c
       let aad := leBytes 8 k.model ++ (leBytes 12 i).reverse
       if padTo 16 (Config.gcmTag k.key i aad plain) = t then (0, padTo 65536 plain, s)
       else (St.MODEL_IMPORT_FAIL, [], authFail s)
     | (st, _, s) => (st, [], s))
  | (st, _, s) => (st, [], s)

/-- The chunks of a package in order, until one fails. -/
def importChunks (m : ModelImport) : Nat → Nat → State → Nat × State
  | 0, _, s => (0, s)
  | n + 1, i, s =>
    let r := importChunk s m i
    if r.1 = 0 then
      let w := memWrite r.2.2 (.firmware 0) (m.dst + 65536 * i) r.2.1 (podCls r.2.2 m.no) (podEcho r.2.2 m.no)
      if w.1 = 0 then importChunks m n (i + 1) w.2 else w
    else (r.1, r.2.2)

/-- MODEL_IMPORT finishes; a failure leaves the destination zero. -/
def importDone (s : State) : State :=
  match s.sec.import_ with
  | none => s
  | some m =>
    if encWaits s m.dst m.len || encWaits s m.src (m.len + 16 * (m.len / 65536)) then s
    else
      let s := { s with sec := { s.sec with import_ := none } }
      match importChunks m (m.len / 65536) 0 s with
      | (0, s) => podComplete s m.no 0
      | (st, s) => podComplete (memWrite s (.firmware 0) m.dst (zeros m.len) (podCls s m.no) (podEcho s m.no)).2 m.no st

/-- The words of a region entry, written in their order by the security core (R501). -/
def regionWrite (s : State) (r : Nat) (entry : List Byte) : State :=
  let w (i : Nat) : Nat := leAt entry (4 * i) 4
  let s := [0, 1, 2, 3, 4].foldl (fun s i =>
    if frozenByUse s (A.ENC_BASE_LO r + 4 * i) then s else applyPlain s (A.ENC_BASE_LO r + 4 * i) (w i)) s
  applyEncCtl s r (w 5)

/-- REGION_SET. -/
def regionSet (s : State) (no : Nat) : State :=
  if s.sec.keysStopped then s
  else
    match takePod s no 4 (isControl 0xA 7) with
    | none => s
    | some (p, s) =>
      let r := leAt p.body 0 1
      if multiDevice s || locked s 0x261 then completeFree (guardRefused s 0x261) no
      else if 16 ≤ r then completeFree s no
      else
        let e := (p.body.drop 32).take 32
        if trngFailed s && bitN (leAt e 20 4) 0 then podComplete s no St.TRNG_FAILED
        else
          let t := regionWrite s r e
          if encOn t r = bitN (leAt e 20 4) 0 then podComplete t no 0 else completeFree t no

/-! ### The security version and the entropy source (R496, R507) -/

/-- A write of SEC_SVN_COMMIT: its status, and the state. -/
def svnCommit (s : State) (ag : Agent) (v : Nat) : Nat × State :=
  let update := match s.mgt.session with
    | some x => bitN x.privs 0
    | none => false
  if bitN v 0 = false then (0, s)
  else if ag = .management ∧ update = true ∧ s.fuses.counter < fwSvn s then
    (0, wrF { s with fuses := { s.fuses with counter := fwSvn s } } A.FW_SVN 14 8 (fwSvn s))
  else (St.SVN_COMMIT_REFUSED, s)

/-! ### MACsec keys (R503) -/

/-- Extended packet numbers on a port: PORT_CFG of a sensor port; the management port takes the default suite (R95). -/
def portXpn (s : State) (n : Nat) : Bool := n == 32 || bitN (smGet (fun _ => ({} : SensorPort)) s.sensors n).cfg 6

/-- A port runs MACsec: it is keyed and enabled. -/
def portKeyed (s : State) (n : Nat) : Bool :=
  (secOf s n).key.isSome &&
    (if n = 32 then rdB s A.MGT_CFG 0 && rdB s A.MGT_STATUS 0
     else bitN (smGet (fun _ => ({} : SensorPort)) s.sensors n).cfg 4 && rdB s (A.PORT_STATUS n) 0)

/-- A SAK is drawn and distributed; the association it replaces stays accepted for 3 s. -/
def newSak (s : State) (n : Nat) : State :=
  let x := secOf s n
  let an := x.saks % 4
  let s := setSec s n { x with sa := some { an := an }, old := x.sa.map (fun a => (a, s.ridge + 3000000000)), txPn := 1,
                               saks := x.saks + 1 }
  let s := if n < 32 then wrF s (A.PORT_STATUS n) 1 1 1 else s
  { (drawFree s).2 with portOut := s.portOut ++ [.sak n an] }

/-- A key-agreement frame of a live peer arrives on a keyed port that has no association yet. -/
def mkaFrame (s : State) (n : Nat) (icvOk : Bool) : State :=
  if portKeyed s n && icvOk && (secOf s n).sa.isNone && !s.sec.keysStopped then newSak s n else s

/-- The packet number of a port has reached its threshold. -/
def macRekey (s : State) (n : Nat) : State :=
  match (secOf s n).sa with
  | some a =>
    let limit := if portXpn s n then 2 ^ 62 else 0xC0000000
    if portKeyed s n && decide (limit ≤ max a.nextPn (secOf s n).txPn) && !s.sec.keysStopped then newSak s n else s
  | none => s

/-- 3 s after a rekey the old association is no longer accepted. -/
def oldSaGone (s : State) (n : Nat) : State :=
  match (secOf s n).old with
  | some (_, t) => if t ≤ s.ridge then setSec s n { secOf s n with old := none } else s
  | none => s

/-! ### Commands -/

/-- MKA_FRAME_RECEIVE: a key-agreement frame on a port (0 to 31 sensor, 32 management). -/
def execMkaFrameReceive (port : Fin 33) (icvOk : Bool) (s : State) : Host.Outcome State Fault Refusal :=
  whenOn (fun s => mkaFrame s port.val icvOk) s

/-- MACSEC_REKEY: a port. -/
def execMacsecRekey (port : Fin 33) (s : State) : Host.Outcome State Fault Refusal := whenOn (fun s => macRekey s port.val) s

/-- OLD_SA_EXPIRE: a port. -/
def execOldSaExpire (port : Fin 33) (s : State) : Host.Outcome State Fault Refusal :=
  whenOn (fun s => oldSaGone s port.val) s

/-- ATTEST: a running control pod, by arrival number. -/
def execAttest (no : Nat) (s : State) : Host.Outcome State Fault Refusal := whenOn (fun s => attestTake s no) s

/-- ATTEST_OUTPUT_WRITTEN: the object of the attestation in progress. -/
def execAttestOutputWritten (s : State) : Host.Outcome State Fault Refusal := whenOn attestDone s

/-- HOST_AUTH: a running control pod. -/
def execHostAuth (no : Nat) (s : State) : Host.Outcome State Fault Refusal := whenOn (fun s => hostAuth s no) s

/-- KEY_IMPORT: a running control pod. -/
def execKeyImport (no : Nat) (s : State) : Host.Outcome State Fault Refusal := whenOn (fun s => keyImport s no) s

/-- MODEL_IMPORT: a running control pod. -/
def execModelImport (no : Nat) (s : State) : Host.Outcome State Fault Refusal := whenOn (fun s => modelImport s no) s

/-- MODEL_IMPORT_DONE: the import in progress. -/
def execModelImportDone (s : State) : Host.Outcome State Fault Refusal := whenOn importDone s

/-- KEY_CLEAR: a running control pod. -/
def execKeyClear (no : Nat) (s : State) : Host.Outcome State Fault Refusal := whenOn (fun s => keyClear s no) s

/-- REGION_SET: a running control pod. -/
def execRegionSet (no : Nat) (s : State) : Host.Outcome State Fault Refusal := whenOn (fun s => regionSet s no) s

/-- SEC_SVN_COMMIT: a write of SEC_SVN_COMMIT. -/
def execSecSvnCommit (agent : Agent) (v : Word) (s : State) : Host.Outcome State Fault Refusal :=
  whenOn (fun s => namedWrite s agent A.SEC_SVN_COMMIT v.toNat (fun s => (svnCommit s agent v.toNat).2)) s

/-- TRNG_FAILED: the entropy source fails its health tests. -/
def execTrngFailed (s : State) : Host.Outcome State Fault Refusal :=
  whenOn (fun s => if trngFailed s then s else raise (wr s A.SEC_TRNG_STATUS 2) 0x030 0x10) s

/-- WD_KICK: an agent writes a token to the watchdog of a core. -/
def execWdKick (agent : Agent) (core : Fin 7) (token : BitVec 8) (s : State) : Host.Outcome State Fault Refusal :=
  whenOn (fun s => namedWrite s agent (A.WD_KICK core.val) token.toNat (fun s => wdKick s agent core.val token.toNat)) s

/-- WATCHDOG_EXPIRED: the window of a core's watchdog closes. -/
def execWatchdogExpired (core : Fin 7) (s : State) : Host.Outcome State Fault Refusal :=
  whenOn (fun s => wdTimeout s core.val) s

/-- CORE_RESTARTED: a core that was reset runs again (R459, R506). -/
def execCoreRestarted (core : Fin 7) (s : State) : Host.Outcome State Fault Refusal :=
  whenOn (fun s =>
    if (coreAt s core.val).running ∨ s.sec.fw = none ∨ (core.val = 0 ∧ s.sec.keysStopped = true) then s
    else startCore s core.val) s

end Sys2Proof.Machine
end

