-- ==== Sys2Proof/Machine/RegAccess.lean ====
section
/-!
DEFINITION. Every register as the fabric reaches it: what a write does once it takes effect, what a read returns, the
mailboxes, and accesses of any width to the local address space (R10, R11, R21, R23, R64 to R80, R540).
-/

namespace Sys2Proof.Machine

/-! ### Writes that act (Table 0.3, and the chapters' own rules) -/

/-- A write of POD_RING_CFG takes effect while the pod port is idle (Table 2.10). -/
def applyPodRingCfg (s : State) (v : Nat) : State :=
  if s.pods.stream.isEmpty && s.pods.skip == 0 && s.pods.rx.isEmpty then applyPlain s A.POD_RING_CFG v else s

/-- A write of MSIX_CTRL takes effect: unmasking sends a pending message (R398). -/
def applyMsixCtrl (s : State) (n v : Nat) : State :=
  let s := applyPlain s (A.MSIX_CTRL n) v
  let pba := A.MSIX_PBA (n / 32)
  if rdB s (A.MSIX_CTRL n) 0 = false ∧ rdB s pba (n % 32) = true then msixSignal (wrF s pba (n % 32) (n % 32) 0) n else s

/-- A write of RIDGE_EPOCH_HI takes effect; on the master it makes the epoch valid (R416). -/
def applyEpochHi (s : State) (v : Nat) : State :=
  let s := applyPlain s A.RIDGE_EPOCH_HI v
  if ridgeMaster s then wrF s A.RIDGE_STATUS 2 2 1 else s

/-- A write of FC_SRC_CFG takes effect, unless it names a class the source may not have (R461, Table 16.12). -/
def applySrcCfg (s : State) (i v : Nat) : State :=
  match sourceInfo i with
  | none => s
  | some x =>
    let c := fldN v 2 0
    let now := rdF s (A.FC_SRC_CFG i) 2 0
    if c ≠ now ∧ (x.fixed = true ∨ c < x.floor ∨ x.ceiling < c) then configRejected s 0x2C0
    else quietFollow (applyPlain s (A.FC_SRC_CFG i) v)

/-- A write on the pages of the base and global sections. -/
def applyBase (s : State) (ag : Agent) (cls a v : Nat) (is : List Nat) : State :=
  let i := is.getD 0 0
  if a = A.UPDATE_STROBE then writeStrobe s (fldN v 15 0)
  else if a = A.DET_CTL then applyDetCtl s v
  else if a = A.RR_CTL then applyRrCtl s v
  else if cls = 0x004 ∧ a = A.FG_CTL i then applyFgCtl s i v
  else if a = A.RIDGE_EPOCH_HI then applyEpochHi s v
  else if a = A.PM_EMERGENCY_CAP then applyCap s v
  else if a = A.PM_WAKE_S ∨ a = A.PM_WAKE_A ∨ a = A.PM_WAKE_Q then applyPmWake s a v
  else if a = A.SEC_SVN_COMMIT then (svnCommit s ag v).2
  else if cls = 0x013 ∧ a = A.WD_KICK i then wdKick s ag i (fldN v 7 0)
  else applyPlain s a v

/-- A write on the pages of dispatch, clusters and the sequence engine. -/
def applyWork (s : State) (cls a v : Nat) (is : List Nat) : State :=
  let i := is.getD 0 0
  let j := is.getD 1 0
  let r := 32 * j + is.getD 2 0
  if a = A.POD_RING_CFG then applyPodRingCfg s v
  else if a = A.POD_RESYNC then applyResync s v
  else if a = A.RETAIN_CFG then applyRetainCfg s v
  else if a = A.DSP_RING_SEL then readyToRing (applyPlain s a v)
  else if cls = 0x050 ∧ a / 0x1000 = 0x0E3 ∧ a = A.RING_CFG i then applyRingCfg s i v
  else if cls = 0x061 ∧ a = A.ARR_FENCE i j then execArrFence.applyArrFence s i j v
  else if 0x063 ≤ cls ∧ cls ≤ 0x066 ∧ a % 0x1000 = 0x104 then applyEngFence s ((a / 0x1000 - 0x100) / 0x40) (cls - 0x063) v
  else if cls = 0x068 ∧ a = A.ROLL_CTL i j (is.getD 2 0) then applyRollCtl s i r v
  else if cls = 0x068 ∧ a = A.ROLL_COMMIT i j (is.getD 2 0) then applyRollCommit s i r v
  else if cls = 0x068 ∧ a = A.ROLL_RELEASE i j (is.getD 2 0) then applyRollRelease s i r v
  else if cls = 0x068 ∧ a = A.ROLL_RESET i j (is.getD 2 0) then applyRollReset s i r v
  else if a = A.SEQ_CTL then applySeqCtl s v
  else applyPlain s a v

/-- A write on the pages of ingress, memory, links and safety. -/
def applyOuter (s : State) (cls a v : Nat) (is : List Nat) : State :=
  let i := is.getD 0 0
  if cls = 0x021 ∧ a % 0x40 = 0 then applyStCtl s (32 * i + is.getD 1 0) v
  else if cls = 0x082 ∧ a = A.ENC_CTL i then applyEncCtl s i v
  else if a / 0x1000 = 0x282 ∧ a = A.MSIX_CTRL i then applyMsixCtrl s i v
  else if a = A.SNT_CTL then applySntCtl s v
  else if a = A.COMP_CTL then applyCompCtl s v
  else if a = A.LS_DEBUG then
    (let d := if split s then drawFree s else (0, s)
     applyLsDebug d.2 v (d.1 % 2))
  else if a = A.LS_INJECT then applyLsInject s v
  else if a = A.LANTERN_TEST then (if bitN v 0 then lanternTest s else s)
  else if a = A.FC_FORCE_SAFE then (if bitN v 0 then forceFromHost s else s)
  else if a = A.FC_KILL then
    (if bitN v 0 then collect s { source := 0x1FE, status := St.FC_KILLED, detected := s.ridge } else s)
  else if a = A.FC_INJECT then applyFcInject s v
  else if a / 0x1000 = 0x2C1 then applySrcCfg s i v
  else if a = A.BIST_CMD then applyBistCmd s v
  else if a / 0x1000 = 0x2EA then lapseRestart (applyPlain s a v) i
  else applyPlain s a v

/-- A write to a register takes effect. -/
def applyReg (s : State) (ag : Agent) (a v : Nat) : State :=
  match pageInfo (a / 0x1000) with
  | none => s
  | some x =>
    if a % 0x1000 < 0x100 then applyHeader s ag a v
    else if seqFrozen s a || frozenByUse s a then s
    else
      match findReg a with
      | none => s
      | some (_, is) =>
        if x.cls ≤ 0x004 ∨ (0x010 ≤ x.cls ∧ x.cls ≤ 0x013) then applyBase s ag x.cls a v is
        else if 0x050 ≤ x.cls ∧ x.cls ≤ 0x070 then applyWork s x.cls a v is
        else applyOuter s x.cls a v is

/-! ### Arrival of a write (R64 to R67, R78 to R80, R86 to R89) -/

/-- A header register that is judged at the page's fabric interface, at once. -/
def headerAtOnce (o : Nat) : Bool := o == 0x008 || o == 0x040 || o == 0x044

/-- An aligned 32-bit write arrives at a page. -/
def writeWord (s : State) (ag : Agent) (a v : Nat) : State :=
  let p := a / 0x1000
  if isPegPage p then writePegWord s ag a (BitVec.ofNat 32 v)
  else if hasHeader p = false then s
  else if pageBarred ag p then guardRefused s p
  else if a % 0x1000 < 0x100 then
    if headerAtOnce (a % 0x1000) || !isPosted p then applyHeader s ag a v
    else if a % 0x1000 < 0x048 ∧ a % 0x1000 ≠ 0x01C then postWrite s ag a v
    else s
  else
    match findReg a with
    | none => s
    | some (row, _) =>
      match admitWrite s ag a v with
      | (false, s) => s
      | (true, s) =>
        if row.acc = .rws ∨ row.acc = .rwi ∨ isPosted p = false then applyReg s ag a v else postWrite s ag a v

/-- A write of bytes to the register pages: 32 bits, or 64 bits of the host as two writes; any other is discarded (R65). -/
def regWrite (s : State) (ag : Agent) (a : Nat) (b : List Byte) : State :=
  if a % 4 = 0 ∧ b.length = 4 then writeWord s ag a (leNat b)
  else if a % 4 = 0 ∧ b.length = 8 ∧ ag = .host then
    writeWord (writeWord s ag a (leNat (b.take 4))) ag (a + 4) (leNat (b.drop 4))
  else accessError s (a / 0x1000)

/-- The posted write at the head of a page's queue is applied while its domain runs. -/
def postedApply (s : State) (p : Nat) : State :=
  match postedOf s p with
  | [] => s
  | w :: t => if holdLevel s (pageDomain p) = 0 then applyReg (setPosted s p t) w.agent w.addr w.value.toNat else s

/-! ### Reads (R65, R68, R69) -/

/-- A page holds RWS fields. -/
def pageShadowed (p : Nat) : Bool :=
  regGroups.any (fun g => decide (g.page ≤ p) && (splitDims g.dims (p - g.page)).isSome && g.rows.any (fun r => r.acc == .rws))

/-- PAGE_CAP (Table 3.3). -/
def pageCap (p : Nat) (x : PageInfo) : Nat :=
  b2n (pageShadowed p || x.unit) + 2 * b2n (isPosted p) + 4 + 8 * b2n x.mailbox + 16 * b2n x.immediate + 256 * x.domain

/-- A header register as it reads (Tables 3.2 and 3.3). -/
def readHeader (s : State) (p o : Nat) (x : PageInfo) : Nat :=
  if o = 0x000 then 2 ^ 20 * x.cls + 2 ^ 12 * x.inst + 2 ^ 8 * x.page + 1
  else if o = 0x004 then pageCap p x
  else if o = 0x008 then
    (if x.unit then 0x100 * fldN (rdShadow s (hdrAddr p o)) 8 8 else 0x100) + pageGroup s p
  else if o = 0x00C then
    b2n (!(postedOf s p).isEmpty) + 2 * rdF s (hdrAddr p o) 1 1 + 16 * (postedOf s p).length
  else if o = 0x040 then
    b2n (s.rf.unlocks.any (fun u => u.page == p && decide (s.ridge < u.lapse))) + 2 * b2n (multiDevice s)
  else rd s (hdrAddr p o)

/-- The ordering code, 12 characters (Table 3.8). -/
def orderingCode (s : State) : List Byte :=
  [0x5A, 0x56, 0x54, 0x34, 0x31, 0x36, 0x30, 0x2D] ++ (if s.fuses.grade = 1 then [0x49, 0x4E] else [0x41, 0x51]) ++ zeros 2

/-- SEC_OWNER (Table 17.11). -/
def ownerWord (s : State) : Nat :=
  ((List.range 4).map (fun i => if (smGet (fun _ => none) s.fuses.owners i).isSome then 2 ^ i else 0)).sum
    + 16 * (s.fuses.revoked % 16) + 256 * (s.fuses.privs % 65536)

/-- Registers whose value comes from the rest of the state, or from what only the part itself knows. -/
def derivedReg (s : State) (a : Nat) (is : List Nat) : Option Nat :=
  let p := a / 0x1000
  let i := is.getD 0 0
  if a = A.ID_VENDOR then some (Config.vendorId % 65536)
  else if a = A.ID_GRADE then some (gradeCode s)
  else if a = A.ID_CODE0 then some (leAt (orderingCode s) 0 4)
  else if a = A.ID_CODE1 then some (leAt (orderingCode s) 4 4)
  else if a = A.ID_CODE2 then some (leAt (orderingCode s) 8 4)
  else if a = A.ID_STEP then some (Config.stepping % 65536)
  else if a = A.SEC_OWNER then some (ownerWord s)
  else if a = A.POD_CREDIT then some (creditNow s)
  else if a = A.CLS_STATUS then some (b2n (split s) + 2 * b2n (classSActive s))
  else if a = A.RIDGE_STATUS then some (b2n (ridgeMaster s) + 2 * b2n (ridgeLocked s) + 4 * rdF s a 2 2)
  else if a = A.FC_STATUS then
    some (rdF s a 1 0 + 4 * b2n s.fc.quietFrom.isSome + 8 * b2n (highLevel s) + 16 * min 15 (recentExits s).length
      + 65536 * rdF s a 24 16)
  else if 0x080 ≤ p ∧ p < 0x0A0 ∧ p % 2 = 0 ∧ a = A.PIPE_STATUS i then
    some (((List.range 4).map (fun k => 2 ^ k * b2n (rdB s (A.SL_CTL i k) 0)
      + 16 * 2 ^ k * b2n (smGet (fun _ => ({} : PipeSlot)) s.slots (4 * i + k)).busy)).sum)
  else if 0x080 ≤ p ∧ p < 0x0A0 ∧ p % 2 = 0 ∧ a = A.PIPE_LOAD i then
    some (min 2047 ((((smGet (fun _ => []) s.pipeIn i).filter (fun e => decide (s.ridge < e.1 + 1000000))).map (·.2)).sum / 1000))
  else if a = A.DEC_LOAD then
    some (min 8191 (((s.decIn.filter (fun e => decide (s.ridge < e.1 + 10000000))).map (·.2)).sum / 10000))
  else if p % 0x40 = 0x10 ∧ a = A.SCR_STATUS i then some (b2n (scrubRuns s i) + 256 * rollsEnabled s i)
  else if a = A.MEM_STATUS then some (rdF s a 15 0 + 65536 * b2n (scrubRuns s 4))
  else if 0x100 ≤ p ∧ p < 0x200 ∧ (p % 0x40 = 0x11 ∨ p % 0x40 = 0x12) ∧ a % 0x40 = 0x28 then
    some (rollStatus s i (32 * is.getD 1 0 + is.getD 2 0))
  else if p = 0x2EA ∧ a = A.BIST_UNIT_STATUS i then
    some (fldN (rd s a) 15 0 + 65536 * min 65535 ((s.ridge - smGet (fun _ => 0) s.bist.passAt i) / 1000000))
  else none

/-- Registers that hold a rate or a power measured outside the model, in which a draw `v` stands for what is measured:
GL_UTIL, up to 1,000, of a link that is up (R425), and PH_LANE_POWER, launch and received power, of a lane that transmits or
receives light (R428). They read zero otherwise. -/
def measuredReg (s : State) (a : Nat) (is : List Nat) (v : Nat) : Option Nat :=
  let p := a / 0x1000
  let i := is.getD 0 0
  if 0x288 ≤ p ∧ p ≤ 0x298 ∧ a = A.GL_UTIL i then some (if rdB s (A.GL_STATUS i) 0 then v % 1001 else 0)
  else if p = 0x2A8 ∧ a = A.PH_LANE_POWER i then
    let launch := if laserCut s i || laneShut s i then 0 else v % 65536
    let received := if rdB s (A.PH_LANE_STATUS i) 0 then v / 65536 % 65536 else 0
    some (launch + 65536 * received)
  else none

/-- An aligned 32-bit read: the word, and the state that has drawn what the spec leaves free. -/
def readWord (s : State) (a : Nat) : Nat × State :=
  let p := a / 0x1000
  if isPegPage p then (readPegWord s a, s)
  else
    match pageInfo p with
    | none => (0, s)
    | some x =>
      if a % 0x1000 < 0x100 then (readHeader s p (a % 0x1000) x, s)
      else
        match findReg a with
        | none => (0, s)
        | some (row, is) =>
          match derivedReg s a is with
          | some v => (v, s)
          | none =>
            if row.acc = .wo then (0, s)
            else if row.acc = .rws then (rdShadow s a, s)
            else
              match measuredReg s a is (drawFree s).1 with
              | some v => (v, (drawFree s).2)
              | none => (rd s a, s)

/-- A read of bytes from the register pages (R65). -/
def regRead (s : State) (ag : Agent) (a n : Nat) : List Byte × State :=
  if a % 4 = 0 ∧ n = 4 then (leBytes 4 (readWord s a).1, (readWord s a).2)
  else if a % 4 = 0 ∧ n = 8 ∧ ag = .host then
    let r := readWord s a
    let q := readWord r.2 (a + 4)
    (leBytes 4 r.1 ++ leBytes 4 q.1, q.2)
  else (zeros n, accessError s (a / 0x1000))

/-! ### Accesses to the local address space (R21, R23, R540) -/

/-- Write bytes at a local address: a status (0 OK) and the state. -/
def busWrite (s : State) (ag : Agent) (a : Nat) (b : List Byte) (cls : Nat := 0) (echo : Nat := 0) : Nat × State :=
  match accessRefusal s ag true a b.length with
  | some (x, st) => (st, noteRefusal s ag x st cls echo)
  | none => if place a = .regs then (0, regWrite s ag a b) else memStore s ag a b cls echo

/-- Read bytes at a local address: a status (0 OK), the bytes, and the state. -/
def busRead (s : State) (ag : Agent) (a n : Nat) (cls : Nat := 0) (echo : Nat := 0) : Nat × List Byte × State :=
  match accessRefusal s ag false a n with
  | some (x, st) => (st, zeros n, noteRefusal s ag x st cls echo)
  | none =>
    if place a = .regs then (0, regRead s ag a n)
    else if place a = .podPort then (0, zeros n, s)
    else memRead s ag a n cls (echo := echo)

/-! ### Mailboxes (R74 to R76, and the selectors of each chapter) -/

/-- Six words from bytes. -/
def wordsOf (b : List Byte) : List Nat := (List.range 6).map (fun i => leAt b (4 * i) 4)

/-- `n` free words. -/
def freeWords : Nat → State → List Nat × State
  | 0, s => ([], s)
  | n + 1, s =>
    let r := freeWords n (drawFree s).2
    ((drawFree s).1 % 2 ^ 32 :: r.1, r.2)

/-- Dropped blocks in all contexts, open or closing (R337): those of the drop index. -/
def droppedBlocks (s : State) : Nat := (s.seq.index.map (fun i => (entryOf s i).dropped)).sum

/-- Pages of an update group (Table 3.5). -/
def groupPages (s : State) (g : Nat) : Nat := (List.range 0x300).countP (fun p => hasHeader p && pageGroup s p == g)

/-- The captures of the identity, update, ridge and window pages. -/
def captureBase (s : State) (p sel : Nat) : Option (List Nat × State) :=
  if p = 0x000 ∧ sel = 1 then some (wordsOf (serialBytes s), s)
  else if p = 0x001 ∧ 1 ≤ sel ∧ sel ≤ 16 then
    let x := groupOf s (sel - 1)
    some ([lo32 x.lastT, hi32 x.lastT, x.applied, groupPages s (sel - 1)], s)
  else if p = 0x003 ∧ sel = 1 then some ([lo32 s.ridge, hi32 s.ridge], s)
  else if p = 0x003 ∧ sel = 2 then
    let t := (s.ridge + rdWide s A.RIDGE_EPOCH_LO) % 2 ^ 64
    let sec := t / 1000000000
    some ([lo32 s.ridge, hi32 s.ridge, lo32 sec, hi32 sec % 65536, t % 1000000000], s)
  else if p = 0x003 ∧ 0x10 ≤ sel ∧ sel < 0x18 then
    match curCycle s (sel - 0x10) with
    | some (l, k) =>
      let d := l + fgDeadline s (sel - 0x10)
      some ([lo32 l, hi32 l, k, lo32 d, hi32 d], s)
    | none => some ([], s)
  else if p = 0x0E2 ∧ sel = 1 then
    match windowOf s (rdF s A.ORIGIN_QUERY 15 0) with
    | some w => some ([w.head, 1, w.completed], s)
    | none =>
      let f := freeWords 2 s
      some ([f.1.getD 0 0, 0, f.1.getD 1 0], f.2)
  else none

/-- The captures of dispatch and the sequence engine. -/
def captureWork (s : State) (p sel : Nat) : Option (List Nat × State) :=
  if p = 0x0E0 ∧ sel = 1 then some (recOf s p 1, s)
  else if p = 0x0E0 ∧ sel = 2 then
    match graphOf s (rdF s A.DSP_SLOT_QUERY 7 0) with
    | some g => some ([1 + 2 * b2n g.bound + 4 * g.fg, g.jobs.length, g.queue.length, g.done], s)
    | none => some ([], s)
  else if p = 0x200 ∧ sel = 1 then some (recOf s p 1, s)
  else if p = 0x200 ∧ sel = 2 then
    some ([rd s A.SEQ_POOL_FREE, rd s A.SEQ_POOL_S_COMMIT, droppedBlocks s, rd s A.SEQ_CACHE_USED], s)
  else none

/-- The captures of an array, an engine, and the other pages of a cluster. -/
def captureCluster (s : State) (p sel : Nat) : Option (List Nat × State) :=
  let c := (p - 0x100) / 0x40
  let o := (p - 0x100) % 0x40
  if p < 0x100 ∨ 0x200 ≤ p then none
  else if 4 ≤ o ∧ o ≤ 7 ∧ sel = 1 then
    let f := freeWords 4 s
    match arrOps s c (o - 4) with
    | x :: _ =>
      let d := parseArr x.desc
      some ([lo32 x.addr, hi32 x.addr, min d.tokens (x.written / d.nTiles * d.block), rdF s (A.ARR_STATUS c (o - 4)) 11 8], s)
    | [] => some (f.1, f.2)
  else if 4 ≤ o ∧ o ≤ 7 ∧ sel = 2 then
    let x := arrUnit s c (o - 4)
    some ([lo32 x.busy, hi32 x.busy, lo32 x.ballast, hi32 x.ballast, lo32 x.stalled, hi32 x.stalled], s)
  else if 9 ≤ o ∧ o ≤ 0xC ∧ sel = 1 then
    let f := freeWords 3 s
    match engRunning s c (o - 9) with
    | some x =>
      let rows := (engRows x.block (o - 9) x.desc).2
      some ([lo32 x.addr, hi32 x.addr, if x.stage = .running then f.1.getD 2 0 % (rows + 1) else 0], f.2)
    | none => some (f.1, f.2)
  else if 9 ≤ o ∧ o ≤ 0xC ∧ sel = 2 then
    let x := smGet (fun _ => (0, 0)) s.engCycles (4 * c + (o - 9))
    some ([lo32 x.1, hi32 x.1, lo32 x.2, hi32 x.2], s)
  else if 9 ≤ o ∧ o ≤ 0xC ∧ sel = 3 then some (recOf s p 3, s)
  else if o = 8 ∧ sel = 1 then some (recOf s p 1, s)
  else if o = 8 ∧ sel = 2 then
    some ([rd s (A.BF12_GROUPS c), rd s (A.BF12_SAT_COUNT c), rd s (A.BF12_FLUSH_COUNT c), rd s (A.BF12_CLAMP_COUNT c)], s)
  else if o = 0xD ∧ sel = 1 then some (recOf s p 1, s)
  else if o = 0x10 ∧ (sel = 1 ∨ sel = 2) then some (recOf s p sel, s)
  else if (o = 0x11 ∨ o = 0x12) ∧ 1 ≤ sel ∧ sel ≤ 32 then
    some ([rd s (A.ROLL_HEAD c (o - 0x11) (sel - 1)), rd s (A.ROLL_TAIL c (o - 0x11) (sel - 1)),
           rd s (A.ROLL_RESERVE c (o - 0x11) (sel - 1))], s)
  else none

/-- A measurement or hash in pieces of 192 bits. -/
def piece (b : List Byte) (i : Nat) : List Nat := wordsOf ((b.drop (24 * i)).take 24)

/-- The captures of the base, memory and safety pages. -/
def captureOuter (s : State) (p sel : Nat) : Option (List Nat × State) :=
  if p = 0x030 then
    if sel = 1 ∨ sel = 2 then some (piece (padTo 32 (Config.shake256 32 (ikPublic s))) (sel - 1), s)
    else if sel = 3 then some (wordsOf (leBytes 24 s.sec.challenge), s)
    else if 4 ≤ sel ∧ sel < 0x14 then some ([lo32 (slotModel s (sel - 4)), hi32 (slotModel s (sel - 4))], s)
    else if 0x14 ≤ sel ∧ sel < 0x1C then
      some (piece (padTo 32 ((smGet (fun _ => none) s.fuses.owners ((sel - 0x14) / 2)).getD [])) ((sel - 0x14) % 2), s)
    else none
  else if p = 0x038 then
    if 1 ≤ sel ∧ sel ≤ 3 then some (piece (padTo 64 (fwMeasure s)) (sel - 1), s)
    else if 4 ≤ sel ∧ sel ≤ 6 then some (piece (padTo 64 (cfgMeasure s)) (sel - 4), s)
    else if 7 ≤ sel ∧ sel ≤ 9 then some (piece (padTo 64 s.sec.preview) (sel - 7), s)
    else none
  else if p = 0x2C0 ∧ sel = 1 then
    some (((logAt s (rdF s A.FC_LOG_INDEX 7 0)).map recordWords).getD [], s)
  else if p = 0x2C0 ∧ sel = 2 then some ((List.range 5).map (fun i => smGet (fun _ => 0) s.fc.counts (i + 1)), s)
  else if p = 0x2D0 ∧ sel = 1 then some (wordsOf (s.sentry.digest.take 24), s)
  else if (0x060 ≤ p ∧ p < 0x070 ∧ 1 ≤ sel ∧ sel ≤ 32) ∨ (0x080 ≤ p ∧ p < 0x0A0 ∧ p % 2 = 0 ∧ 1 ≤ sel ∧ sel ≤ 4)
      ∨ (p = 0x0C0 ∧ 1 ≤ sel ∧ sel ≤ 64) ∨ (p = 0x260 ∧ 1 ≤ sel ∧ sel ≤ 3)
      ∨ ((p = 0x010 ∨ (0x240 ≤ p ∧ p < 0x250) ∨ p = 0x261 ∨ p = 0x2D8 ∨ p = 0x2DB ∨ p = 0x2E8) ∧ sel = 1) then
    some (recOf s p sel, s)
  else none

/-- What a selector of a page captures; none for an undefined selector. -/
def captureWords (s : State) (p sel : Nat) : Option (List Nat × State) :=
  (captureBase s p sel).or ((captureWork s p sel).or ((captureCluster s p sel).or (captureOuter s p sel)))

/-- A pending capture of a page completes. -/
def captureDone (s : State) (p : Nat) : State :=
  match s.rf.captures.find? (fun c => c.1 == p) with
  | none => s
  | some (_, sel) =>
    let s := { s with rf := { s.rf with captures := s.rf.captures.filter (fun c => c.1 != p) } }
    let seq := (rdF s (hdrAddr p 0x024) 15 8 + 1) % 256
    match captureWords s p sel with
    | some (ws, s) =>
      (List.range 6).foldl (fun s i => wr s (hdrAddr p (0x028 + 4 * i)) (ws.getD i 0)) (wr s (hdrAddr p 0x024) (1 + 256 * seq))
    | none => (List.range 6).foldl (fun s i => wr s (hdrAddr p (0x028 + 4 * i)) 0) (wr s (hdrAddr p 0x024) (3 + 256 * seq))

/-! ### Pods start (R35, R38) -/

/-- A data pod is written: local, or on its way to another device. -/
def dataWrite (s : State) (p : RxPod) : Nat × State :=
  let a := leAt p.body 0 8
  let b := (p.body.drop 16).take (leAt p.body 8 4)
  if isLocal s a then busWrite s (podAgent p.hdr) (addrLocal a) b p.hdr.cls p.hdr.sequence
  else remoteWrite s a b p.hdr.cls (podAgent p.hdr) (some p.no)

/-- A received pod that has not started ends without waiting because a peg it increments or waits on is not configured (R294). -/
def pegEnds (s : State) (p : RxPod) : Bool :=
  pegUnconfigured s p.hdr.completionPeg || (!p.waitMet && pegUnconfigured s p.hdr.waitPeg)

/-- A job pod that ends before it starts leaves its slot's queue. -/
def leaveQueue (s : State) (p : RxPod) : State :=
  let t := p.hdr.target % 256
  match graphOf s t with
  | some g =>
    if p.hdr.kind = 1 then setGraph s t (some { g with queue := g.queue.filter (fun q => q.cause != .pod p.no) }) else s
  | none => s

/-- A received pod starts once its conditions hold; a job pod is still queued for its slot
(Table 2.9), and a data pod's write waits for a region that is being filled. A data pod for another device runs until its write
has been performed there (R38, R57). -/
def podStart (s : State) (no : Nat) : State :=
  match podAt s no with
  | none => s
  | some p =>
    let a := leAt p.body 0 8
    if p.stage ≠ .waiting then s
    else if pegEnds s p then podComplete (leaveQueue s p) no St.PEG_UNCONFIGURED
    else if startable s p = false then s
    else if p.hdr.kind = 2 ∧ isLocal s a = true ∧ encWaits s (addrLocal a) (leAt p.body 8 4) = true then s
    else
      let s := updatePod s no (fun p => { p with stage := .running })
      let s := if p.hdr.kind = 1 then s else markState s p.hdr.origin p.hdr.sequence .running
      if p.hdr.kind = 2 then
        let r := dataWrite s p
        if r.1 = 0 ∧ isLocal s a = false then r.2 else podComplete r.2 no r.1
      else s

/-! ### Commands -/

/-- REGISTER_WRITE: an agent writes bytes in the register pages; the host does so through BAR0. -/
def execRegisterWrite (agent : Agent) (addr : BitVec 24) (bytes : List Byte) (s : State) :
    Host.Outcome State Fault Refusal :=
  whenOn (fun s =>
    if place addr.toNat = .regs then asAgent s agent (fun s => regWrite s agent addr.toNat bytes) else s) s

/-- POSTED_WRITE_APPLY: the head of a page's queue. -/
def execPostedWriteApply (page : BitVec 12) (s : State) : Host.Outcome State Fault Refusal :=
  whenOn (fun s => postedApply s page.toNat) s

/-- MBX_CAPTURE_DONE: the pending capture of a page. -/
def execMbxCaptureDone (page : BitVec 12) (s : State) : Host.Outcome State Fault Refusal :=
  whenOn (fun s => captureDone s page.toNat) s

/-- POD_START: a received pod, by arrival number. -/
def execPodStart (no : Nat) (s : State) : Host.Outcome State Fault Refusal := whenOn (fun s => podStart s no) s

end Sys2Proof.Machine
end

