-- ==== Sys2Proof/Machine/HostPort.lean ====
section
/-!
DEFINITION. The host port: the link and its media layer, BAR2 and its aperture, and the PCIe function (R395 to R401, R404,
R424).
-/

namespace Sys2Proof.Machine

/-! ### The link (R396, R401, R404) -/

/-- The host link goes down with everything in flight on it (R401, R404). -/
def hostDown (s : State) (jobs : List Nat) : State :=
  if rdB s A.U4_STATUS 0 = false then s
  else
    let t := linkTag s 0
    let s := wr (bumpSat t.2 A.U4_LINK_DOWNS 1) A.U4_ROOT_TAG t.1
    let s := wr s A.U4_STATUS (8 * b2n (rdB s A.U4_STATUS 3))
    let s := report (raise s 0x280 1) { source := 0x138, status := St.HOST_LINK_DOWN, tag := t.1 }
    let s := if streamIsLost s then s else streamLoss s St.HOST_LINK_DOWN (rd s A.POD_STREAM_POS) 2
    tagJobs { s with remote := [], media := {} } jobs t.1

/-- The host link is up after training at a generation that U4_CFG enables (R396, R401, R464, R498). -/
def hostLinkUp (s : State) (gen4 : Bool) : State :=
  let lit := laneFit s 44 && laneFit s 45
  let may := if gen4 then rdB s A.U4_CFG 0 else rdB s A.U4_CFG 1
  if rdB s A.U4_STATUS 0 || !lit || !may then s
  else
    let s := raise (wr s A.U4_STATUS (13 + 2 * b2n gen4)) 0x280 2
    closeMerge (levelClear (hostReset { s with media := {} }) 0x138) 0

/-- A block of the media layer arrives: what follows a bad or missing one is discarded until its replay, each replay is a
retry, and the link goes down when the eighth fails or 2 µs have passed (R396, R403). -/
def mediaBlock (s : State) (seq : Nat) (ok : Bool) (jobs : List Nat) : State :=
  let m := s.media
  let expected := seq == (m.rxSeq + 1) % 4096
  let late := m.failAt.any (fun t => decide (t + 2000 ≤ s.ridge))
  let retry := m.failAt.isNone || expected
  if rdB s A.U4_STATUS 0 = false then s
  else if ok && expected && !late then { s with media := { rxSeq := seq } }
  else if late || (retry && decide (8 ≤ m.retries)) then hostDown (raise s 0x280 4) jobs
  else
    let s := if retry then bump s A.U4_RETRIES 1 else s
    { s with media := { m with retries := m.retries + b2n retry, failAt := some (m.failAt.getD s.ridge) } }

/-! ### BAR2 (R23, R400, R498) -/

/-- An outcome of an access to BAR2 is given to the host. -/
def hostReply (s : State) (c : HostCpl) : State := { s with hostOut := s.hostOut ++ [c] }

/-- The completion of an access that ended with a status (R21, R285, R374, R377, R382, R383, R400). The spec names none for
ADDR_UNREACHABLE; it is answered as the others are (log entry 159). -/
def hostRefused (s : State) (st : Nat) : State :=
  hostReply s (if st = St.ADDR_UNMAPPED then .unsupportedRequest else .completerAbort)

/-- A tag that no read in flight uses. -/
def freeTag (s : State) : Nat :=
  ((List.range (s.remote.length + 1)).find? (fun t => s.remote.all (fun r => r.tag != t))).getD 0

/-- The class of the requests that BAR2 accesses cause: the spec gives none, and it is one for all of them (log entry 151). -/
def bar2Cls : Nat := 1 + Config.bar2Class % 3

/-- A write through BAR2 to a device address. -/
def bar2Write (s : State) (a : Nat) (b : List Byte) (rrLost : Bool) : State :=
  if isLocal s a then
    if encWaits s (addrLocal a) b.length then s
    else
      match busWrite s .host (addrLocal a) b with
      | (0, s) => hostReply (recordWrite s rrLost 0 (addrLocal a) b) .posted
      | (st, s) => hostRefused s st
  else
    match remoteWrite s a b bar2Cls .host none with
    | (0, s) => hostReply s .posted
    | (st, s) => hostRefused s st

/-- A read through BAR2 from a device address: a remote one waits for its completion (R400, R409). -/
def bar2Read (s : State) (a n : Nat) : State :=
  if isLocal s a then
    if encWaits s (addrLocal a) n then s
    else
      match busRead s .host (addrLocal a) n with
      | (0, b, s) => hostReply s (.data b)
      | (st, _, s) => hostRefused s st
  else
    let tag := freeTag s
    match sendPacket s { kind := 2, dst := addrRing a, src := 0, cls := bar2Cls, vc := requestVc bar2Cls, timed := false,
                           addr := addrLocal a, readTag := tag, len := n } with
    | (true, s) => { s with remote := s.remote ++ [{ tag := tag, at_ := s.ridge, len := n }] }
    | (false, s) => hostRefused s St.ADDR_UNREACHABLE

/-- An access to BAR2: one PCIe transaction of 1 to 4,096 bytes inside the BAR. -/
def bar2Access (s : State) (off : Nat) (acc : BusAccess) (rrLost : Bool) : State :=
  let n := match acc with
    | .read n => n
    | .write b => b.length
  if hostUp s = false ∨ n = 0 ∨ 4096 < n ∨ 2 ^ 28 < off + n then s
  else if hostUnauth s then hostReply s .completerAbort
  else
    let a := rdWide s A.U4_APERTURE_LO + off
    match acc with
    | .read n => bar2Read s a n
    | .write b => bar2Write s a b rrLost

/-- The oldest remote read that has waited 200 µs completes without data (R400). -/
def remoteTimeout (s : State) : State :=
  match s.remote with
  | r :: t => if r.at_ + 200000 ≤ s.ridge then hostReply { s with remote := t } .completerAbort else s
  | [] => s

/-! ### The PCIe function (R397, R398, R498) -/

/-- Function Level Reset: the function's PCIe state and its MSI-X state, and the host is unauthenticated again. -/
def functionReset (s : State) : State :=
  if rdB s A.U4_STATUS 2 = false then s
  else
    let s := (List.range 64).foldl (fun s v =>
      [A.MSIX_ENTRY v 0, A.MSIX_ENTRY v 1, A.MSIX_ENTRY v 2, A.MSIX_CTRL v].foldl (fun s a => wr s a (regReset a)) s) s
    let s := (List.range 2).foldl (fun s i => wr s (A.MSIX_PBA i) 0) s
    hostReset { s with remote := [] }

/-! ### Commands -/

/-- BAR2_ACCESS: a host access at an offset of BAR2. -/
def execBar2Access (off : BitVec 28) (acc : BusAccess) (rrLost : Bool) (s : State) : Host.Outcome State Fault Refusal :=
  whenOn (fun s => bar2Access s off.toNat acc rrLost) s

/-- REMOTE_TIMEOUT: the oldest remote read in flight. -/
def execRemoteTimeout (s : State) : Host.Outcome State Fault Refusal := whenOn remoteTimeout s

/-- U4_APERTURE: a write of U4_APERTURE_HI; the low half written before takes effect with it (R66). -/
def execU4Aperture (agent : Agent) (v : Word) (s : State) : Host.Outcome State Fault Refusal :=
  whenOn (fun s => namedWrite s agent A.U4_APERTURE_HI v.toNat (fun s => applyPlain s A.U4_APERTURE_HI v.toNat)) s

/-- FUNCTION_LEVEL_RESET. -/
def execFunctionLevelReset (s : State) : Host.Outcome State Fault Refusal := whenOn functionReset s

/-- MSIX_UNMASK: a write of a vector's control word. -/
def execMsixUnmask (agent : Agent) (vector : Fin 64) (v : Word) (s : State) : Host.Outcome State Fault Refusal :=
  whenOn (fun s => namedWrite s agent (A.MSIX_CTRL vector.val) v.toNat (fun s => applyMsixCtrl s vector.val v.toNat)) s

/-- USB4_BLOCK_RECEIVE: a media-layer block, with the running jobs whose traffic the link carries. -/
def execUsb4BlockReceive (seq : BitVec 12) (ok : Bool) (jobs : List (BitVec 32)) (s : State) :
    Host.Outcome State Fault Refusal :=
  whenOn (fun s => mediaBlock s seq.toNat ok (jobs.map (·.toNat))) s

/-- HOST_LINK_DOWN: the link is lost, with the running jobs whose traffic it carried. -/
def execHostLinkDown (jobs : List (BitVec 32)) (s : State) : Host.Outcome State Fault Refusal :=
  whenOn (fun s => hostDown s (jobs.map (·.toNat))) s

/-- HOST_LINK_UP: training has completed at Gen 4 or Gen 3. -/
def execHostLinkUp (gen4 : Bool) (s : State) : Host.Outcome State Fault Refusal := whenOn (fun s => hostLinkUp s gen4) s

end Sys2Proof.Machine
end

