-- ==== Sys2Proof/Machine/Guyline.lean ====
section
/-!
DEFINITION. The link layer of the guyline: packets in bytes, flits, replay, credit, training, link loss and failover
(R402 to R413, R504).
-/

namespace Sys2Proof.Machine

/-! ### Packets in bytes (Table 14.5) -/

/-- Packet types. -/
def pkWrite : Nat := 1
/-- READ_REQ. -/
def pkReadReq : Nat := 2
/-- READ_CPL. -/
def pkReadCpl : Nat := 3
/-- POD. -/
def pkPod : Nat := 4
/-- PEG_INC. -/
def pkPegInc : Nat := 5
/-- SYNC. -/
def pkSync : Nat := 6
/-- DELAY_REQ. -/
def pkDelayReq : Nat := 7
/-- DELAY_RESP. -/
def pkDelayResp : Nat := 8

/-- A time message of R414. -/
def isTimeMsg (kind : Nat) : Bool := decide (6 ≤ kind ∧ kind ≤ 8)

/-- The header of a packet; `hops` and `dateline` are what the devices on the way change. -/
def packetHeader (k : Packet) (hops : Nat) (dateline : Bool) : List Byte :=
  leBytes 1 (k.kind + 16 * b2n dateline) ++ leBytes 1 k.dst ++ leBytes 1 k.src ++
  leBytes 1 (k.cls + 4 * k.vc + 16 * b2n k.timed) ++ leBytes 2 (k.len - 1) ++ leBytes 1 hops ++
  leBytes 1 (b2n k.first + 2 * b2n k.last) ++
  (if isTimeMsg k.kind then leBytes 8 k.addr else leBytes 6 k.addr ++ leBytes 2 k.peg) ++
  leBytes 4 k.frame ++ leBytes 4 k.execSeq ++ leBytes 2 k.readTag ++ leBytes 2 k.status ++ leBytes 4 k.sent

/-- The CRC of a packet, as its source computes it: hops and dateline as they leave the source. -/
def packetCrc (k : Packet) : Nat := crc32c (packetHeader k 0 false ++ k.payload)

/-- A packet with its CRC, in whole slots (R402, R405). -/
def packetBytes (k : Packet) (crc : Nat) : List Byte :=
  packetHeader k k.hops k.dateline ++ padTo (roundUp k.payload.length 16) k.payload ++ leBytes 4 crc ++ zeros 12

/-- Payload bytes of a packet whose header begins `b`: a completion that carries a status has none. -/
def payloadLen (b : List Byte) : Nat :=
  let kind := leAt b 0 1 % 16
  if kind = pkWrite ∨ kind = pkPod ∨ (kind = pkReadCpl ∧ leAt b 26 2 = 0) then leAt b 4 2 % 4096 + 1 else 0

/-- The packet that 32 header bytes and its payload spell. -/
def parsePacket (b payload : List Byte) : Packet :=
  let kind := leAt b 0 1 % 16
  { kind := kind, dateline := bitN (leAt b 0 1) 4, dst := leAt b 1 1, src := leAt b 2 1,
    cls := leAt b 3 1 % 4, vc := fldN (leAt b 3 1) 3 2, timed := bitN (leAt b 3 1) 4, hops := leAt b 6 1,
    first := bitN (leAt b 7 1) 0, last := bitN (leAt b 7 1) 1,
    addr := if isTimeMsg kind then leAt b 8 8 else leAt b 8 6, peg := if isTimeMsg kind then 0 else leAt b 14 2,
    frame := leAt b 16 4, execSeq := leAt b 20 4, readTag := leAt b 24 2, status := leAt b 26 2, sent := leAt b 28 4,
    len := leAt b 4 2 % 4096 + 1, payload := payload }

/-! ### Link loss (R403, R404, R412, R483) -/

/-- The lanes of a port (Table 14.1). -/
def glLanes (p : Nat) : List Nat := (List.range 4).map (32 + 4 * p + ·)

/-- The outstanding remote writes whose packets wait or fly on a port. -/
def portWrites (x : GlPort) : List Nat := ((x.txq.map (·.wid)) ++ x.ending.map (·.2)).filter (· != 0)

/-- A guyline link that was up goes down with everything in flight on it: `flags` are set beside LINK_DOWN. -/
def glDown (s : State) (p status flags : Nat) (jobs : List Nat) : State :=
  if rdB s (A.GL_STATUS p) 0 = false then s
  else
    let t := linkTag s (p + 1)
    let s := wrF (wr t.2 (A.GL_ROOT_TAG p) t.1) (A.GL_STATUS p) 1 0 0
    let x := glOf s p
    let s := setGl s p { rxq := x.rxq, asm := x.asm, failoverAt := some (s.ridge + 101000) }
    let s := report (raise s (glPage p) (1 ||| flags)) { source := 0x139 + p, status := status, tag := t.1 }
    writesEnd (tagJobs s jobs t.1) (portWrites x) St.ADDR_UNREACHABLE

/-- A link is refused: the port stays down and its level condition holds (R410, R483). -/
def glRefuse (s : State) (p status flags : Nat) : State :=
  levelReport (if flags = 0 then s else raise s (glPage p) flags) (0x139 + p) status

/-! ### Flits (R402, R403, R406, R504) -/

/-- The IV of a data flit: the port tag of its direction, then the count of data flits under the key. -/
def flitIv (sender receiver port n : Nat) : Nat :=
  2 ^ 64 * (2 ^ 24 * sender + 2 ^ 16 * receiver + 2 ^ 8 * (0x0A + port)) + n % 2 ^ 64

/-- The ring id seen at the other end of a port. -/
def peerRing (s : State) (p : Nat) : Nat := rdF s (A.GL_STATUS p) 15 8

/-- The credit field of the next flit, and the slots that stay owed. -/
def creditField (owed : List (Nat × Nat)) : Nat × List (Nat × Nat) :=
  match owed with
  | [] => (0, [])
  | (c, n) :: t => (c + 8 * min n 8191, if n ≤ 8191 then t else (c, n - 8191) :: t)

/-- A flit: header, 224 payload bytes, tag and CRC. -/
def flitBytes (s : State) (p seq type : Nat) (nak : Bool) (payload : List Byte) : List Byte :=
  let x := glOf s p
  let head := leBytes 2 (seq + 4096 * type) ++ leBytes 2 (x.rxSeq + 4096 * nodeState s) ++
    leBytes 2 (creditField x.owed).1 ++ leBytes 2 (b2n nak)
  let iv := flitIv (ringId s) (peerRing s p) p x.txFlits
  let enc := rdB s (A.GL_CFG p) 1 && type == 0
  let body := if enc then padTo 224 (Config.gcmCipher x.key iv payload) else payload
  let tag := if enc then padTo 16 (Config.gcmTag x.key iv head payload) else zeros 16
  let b := head ++ body ++ tag ++ zeros 4
  b ++ leBytes 4 (crc32c b)

/-- A flit leaves a port. -/
def flitOut (s : State) (p : Nat) (b : List Byte) : State := { s with glOut := s.glOut ++ [(p, b)] }

/-- An idle flit returns ack, nak and credit; it takes no sequence of its own. -/
def sendIdle (s : State) (p : Nat) (nak : Bool) : State :=
  let x := glOf s p
  let b := flitBytes s p ((x.txSeq + 4095) % 4096) 1 nak (zeros 224)
  setGl (flitOut s p b) p { x with owed := (creditField x.owed).2, nak := nak }

/-- A data flit is sent and kept for replay. -/
def sendData (s : State) (p : Nat) (payload : List Byte) : State :=
  let x := glOf s p
  let b := flitBytes s p x.txSeq 0 false (padTo 224 payload)
  setGl (flitOut s p b) p { x with
    owed := (creditField x.owed).2, txSeq := (x.txSeq + 1) % 4096, txFlits := x.txFlits + 1,
    retry := x.retry ++ [(x.txSeq, b)], ackAt := if x.retry.isEmpty then s.ridge else x.ackAt }

/-- The transmitter replays every flit that is not acknowledged, at most eight times without progress (R403). -/
def replayFlits (s : State) (p : Nat) : State :=
  let x := glOf s p
  if x.retry.isEmpty || decide (8 ≤ x.retries) then s
  else
    let s := bump s (A.GL_RETRIES p) 1
    let s := setGl s p { x with retries := x.retries + 1, failAt := some (x.failAt.getD s.ridge), ackAt := s.ridge }
    x.retry.foldl (fun s f => flitOut s p f.2) s

/-! ### Credit (R406) -/

/-- Slots of a buffer class become free here and are owed to the peer. -/
def oweSlots (s : State) (p cls n : Nat) : State :=
  let x := glOf s p
  setGl s p { x with owed := smSet (fun _ => 0) x.owed cls (smGet (fun _ => 0) x.owed cls + n) }

/-- Credit held at the peer. -/
def creditOf (s : State) (p cls : Nat) : Nat := smGet (fun _ => 0) (glOf s p).credit cls

/-- Change the credit held at the peer. -/
def setCredit (s : State) (p cls n : Nat) : State :=
  let x := glOf s p
  setGl s p { x with credit := smSet (fun _ => 0) x.credit cls n }

/-! ### Packets on arrival (R405, R406, R411, R412) -/

/-- A packet is older than 100 µs: checked by a device locked to ridge time, on packets that carry a time (R412). -/
def expired (s : State) (k : Packet) : Bool :=
  k.timed && ridgeLocked s && decide (100000 < sgn 32 ((lo32 s.ridge + 2 ^ 32 - k.sent) % 2 ^ 32))

/-- A packet is discarded for its age at a port. -/
def expirePacket (s : State) (p : Nat) (k : Packet) : State :=
  report (raise (bumpSat s (A.GL_EXPIRED p) 1) (glPage p) 0x80) { source := 0x139 + p, status := St.GUYLINE_EXPIRED, cls := k.cls }

/-- A packet for another device takes a hop (R405, R411, R412). -/
def forwardPacket (s : State) (p : Nat) (k : Packet) : State :=
  if isTimeMsg k.kind then s
  else if 255 ≤ k.hops + 1 then
    report (raise s (glPage p) 0x20) { source := 0x139 + p, status := St.GUYLINE_HOP_LIMIT, cls := k.cls }
  else
    match routePort s k.dst with
    | some q => queuePacket s q { k with hops := k.hops + 1 }
    | none => s

/-- A packet with the CRC it carried has arrived at a port: it is forwarded, kept for its command, or discarded. -/
def packetArrive (s : State) (p : Nat) (k : Packet) (crc : Nat) : State :=
  if k.dst ≠ ringId s then forwardPacket (oweSlots s p (bufferClass k) (packetSlots k)) p { k with crc := some crc }
  else if packetCrc k ≠ crc then
    report (raise (bumpSat (oweSlots s p (bufferClass k) (packetSlots k)) (A.GL_E2E_CRC p) 1) (glPage p) 0x10)
      { source := 0x139 + p, status := St.GUYLINE_E2E_CRC, cls := k.cls }
  else
    let x := glOf s p
    setGl s p { x with rxq := x.rxq ++ [k] }

/-- Take whole packets off the bytes that a port has received; a slot of type 0 fills a flit. -/
def takePackets : Nat → State → Nat → State
  | 0, s, _ => s
  | n + 1, s, p =>
    let x := glOf s p
    let b := x.rxBytes
    let kind := leAt b 0 1 % 16
    if b.length < 16 then s
    else if kind = 0 ∨ 8 < kind then takePackets n (setGl s p { x with rxBytes := b.drop 16 }) p
    else
      let pay := payloadLen b
      let whole := 48 + roundUp pay 16
      if b.length < whole then s
      else
        let k := parsePacket b ((b.drop 32).take pay)
        let s := setGl s p { x with rxBytes := b.drop whole }
        takePackets n (packetArrive s p k (leAt b (whole - 16) 4)) p

/-! ### Flits on arrival -/

/-- The peer's state as a flit gives it (R413). -/
def takeNodeState (s : State) (p node : Nat) : State :=
  if rdF s (A.GL_STATUS p) 7 4 = node then s else raise (wrF s (A.GL_STATUS p) 7 4 node) (glPage p) 0x40

/-- An ack frees the flits up to it; that is progress. A remote write whose last flit is acknowledged counts as performed
(log entry 151). -/
def takeAck (s : State) (p ack : Nat) : State :=
  let x := glOf s p
  if x.retry.any (fun f => f.1 == ack) then
    let rest := (x.retry.dropWhile (fun f => f.1 != ack)).drop 1
    let kept (e : Nat × Nat) : Bool := rest.any (fun f => f.1 == e.1)
    let s := setGl s p { x with retry := rest, ending := x.ending.filter kept, retries := 0, failAt := none, ackAt := s.ridge }
    writesEnd s ((x.ending.filter (fun e => !kept e)).map (·.2)) 0
  else s

/-- Credit that a flit returns. -/
def takeCredit (s : State) (p w : Nat) : State :=
  if w % 8 < 6 then setCredit s p (w % 8) (creditOf s p (w % 8) + fldN w 15 3) else s

/-- What every good flit carries beside its payload. -/
def takeHeader (s : State) (p : Nat) (b : List Byte) : State :=
  let s := takeAck (takeNodeState s p (leAt b 2 2 / 4096)) p (leAt b 2 2 % 4096)
  if bitN (leAt b 6 1) 0 then replayFlits s p else s

/-- A flit that is bad, or ahead of a lost one: a nak, once, until the replay arrives. -/
def flitBad (s : State) (p : Nat) : State := if (glOf s p).nak then s else sendIdle s p true

/-- A data flit in order: its tag is checked, and its packets are taken. -/
def takeData (s : State) (p : Nat) (b : List Byte) (jobs : List Nat) : State :=
  let x := glOf s p
  let enc := rdB s (A.GL_CFG p) 1
  let iv := flitIv (peerRing s p) (ringId s) x.peerPort x.rxFlits
  let body := (b.drop 8).take 224
  let plain := if enc then padTo 224 (Config.gcmPlain x.key iv body) else body
  if enc && !(padTo 16 (Config.gcmTag x.key iv (b.take 8) plain) == (b.drop 232).take 16) then
    glDown s p St.GUYLINE_AUTH_FAIL 4 jobs
  else
    let s := setGl s p { x with rxSeq := leAt b 0 2 % 4096, rxFlits := x.rxFlits + 1, nak := false, rxBytes := x.rxBytes ++ plain }
    let s := takeCredit (takeHeader s p b) p (leAt b 4 2)
    sendIdle (takePackets (glOf s p).rxBytes.length s p) p false

/-- A flit arrives at a port. -/
def flitReceive (s : State) (p : Nat) (b : List Byte) (bad : Bool) (jobs : List Nat) : State :=
  if glUp s p = false then s
  else if bad || b.length != 256 || crc32c (b.take 252) != leAt b 252 4 then flitBad s p
  else
    let x := glOf s p
    let seq := leAt b 0 2 % 4096
    let type := leAt b 0 2 / 4096
    if type = 1 then takeCredit (takeHeader s p b) p (leAt b 4 2)
    else if type ≠ 0 then s
    else if seq = (x.rxSeq + 1) % 4096 then takeData s p b jobs
    else if x.nak then s
    else if (x.rxSeq + 4096 - seq) % 4096 < 512 then sendIdle (takeHeader s p b) p false
    else flitBad s p

/-! ### Sending (R406, R412, R414) -/

/-- Two packets must keep their order: they share a vc (R407), or are requests of one source that touch the same bytes (R56). -/
def keepOrder (k q : Packet) : Bool :=
  k.vc == q.vc || (decide (k.kind ≤ 2 ∧ q.kind ≤ 2 ∧ k.addr < q.addr + q.len ∧ q.addr < k.addr + k.len) &&
    k.src == q.src && k.dst == q.dst)

/-- The first packet that has credit for all its slots, with no earlier packet before it whose order it must keep. -/
def nextPacket (s : State) (p : Nat) : List Packet → List Packet → Option Packet
  | _, [] => none
  | held, k :: t =>
    if !held.any (keepOrder k) && decide (packetSlots k ≤ creditOf s p (bufferClass k)) then some k
    else nextPacket s p (k :: held) t

/-- A packet in slots, flit by flit; zero slots fill its last flit. -/
def sendPacketFlits (s : State) (p : Nat) (b : List Byte) : State :=
  (List.range (ceilDiv b.length 224)).foldl (fun s i => sendData s p ((b.drop (224 * i)).take 224)) s

/-- What a packet of this device carries of the moment it is sent: its time, or the times of R414. -/
def stampPacket (s : State) (p : Nat) (k : Packet) : Packet × State :=
  if k.src ≠ ringId s then (k, s)
  else if k.kind = pkSync then ({ k with addr := s.ridge, timed := false, sent := 0 }, setGl s p { glOf s p with t1 := some s.ridge })
  else if k.kind = pkDelayReq then ({ k with timed := false, sent := 0 }, setGl s p { glOf s p with t3 := some s.ridge })
  else if k.kind = pkDelayResp then ({ k with timed := false, sent := 0 }, s)
  else ({ k with timed := ridgeLocked s, sent := lo32 s.ridge }, s)

/-- The next packet of a port is sent, or discarded for its age. -/
def packetSend (s : State) (p : Nat) : State :=
  let x := glOf s p
  match nextPacket s p [] x.txq with
  | none => s
  | some k =>
    let n := ceilDiv (packetSlots k) 14
    if glUp s p = false ∨ 512 < x.retry.length + n then s
    else
      let s := setGl s p { x with txq := x.txq.erase k }
      if k.src ≠ ringId s ∧ expired s k = true then expirePacket s p k
      else
        let r := stampPacket s p k
        let s := setCredit r.2 p (bufferClass k) (creditOf s p (bufferClass k) - packetSlots k)
        let s := sendPacketFlits s p (packetBytes r.1 (r.1.crc.getD (packetCrc r.1)))
        if k.wid = 0 then s
        else setGl s p { glOf s p with ending := (glOf s p).ending ++ [(((glOf s p).txSeq + 4095) % 4096, k.wid)] }

/-! ### Training (R410, R504) -/

/-- The key of a link: the end with the lower ring id sends a fresh encapsulation key, the other the ciphertext. -/
def linkKey (s : State) (t : GlTraining) : List Byte × State :=
  let d := drawFree s
  let rand := leBytes 32 d.1
  if ringId s < t.ring.toNat then
    let key := padTo 1568 (Config.kemPublic rand)
    (Config.kdf (Config.kemDecaps rand t.kem) (Config.shake256 64 (aliasCert s ++ t.cert ++ key ++ t.kem)) [0x47, 0x4C], d.2)
  else
    let e := Config.kemEncaps t.kem rand
    (Config.kdf e.2 (Config.shake256 64 (t.cert ++ aliasCert s ++ t.kem ++ e.1)) [0x47, 0x4C], d.2)

/-- The peer's certificate verifies with the IK key it carries, and that key is the one expected at the port. -/
def peerVerified (s : State) (p : Nat) (t : GlTraining) : Bool :=
  Config.falconVerify t.ik (Config.shake256 64 (t.cert.take 3584)) (t.cert.drop 3584) &&
    (padTo 32 (Config.shake256 32 t.ik) == smGet (fun _ => []) s.sec.peers p)

/-- Training has reached its end: the link is refused, or comes up with a fresh key. A port is enabled once LOCK is set on its
page (R91, R410). -/
def trainingDone (s : State) (p : Nat) (t : GlTraining) : State :=
  let ring := t.ring.toNat
  let ready := rdB s (A.GL_CFG p) 0 && locked s (glPage p)
  if rdB s (A.GL_STATUS p) 0 || !ready || !(glLanes p).all (laneFit s) then s
  else
    let s := wrF s (A.GL_STATUS p) 15 8 ring
    if ring = ringId s then glRefuse s p St.GUYLINE_RING_ID_CONFLICT 0
    else if ring ≠ rdF s (A.GL_CFG p) 15 8 then glRefuse s p St.GUYLINE_PEER_UNEXPECTED 8
    else if rdB s A.SEC_TRNG_STATUS 1 then glRefuse s p St.GUYLINE_DOWN 0
    else if peerVerified s p t = false then glRefuse s p St.GUYLINE_AUTH_FAIL 4
    else
      let k := linkKey s t
      let s := wrF (wrF k.2 (A.GL_STATUS p) 1 0 3) (A.GL_STATUS p) 19 16 0xF
      let x := glOf s p
      let owed := smSetAll (fun _ => 0) [] ((List.range 6).map (fun c => (c, (t.buffers.toList.getD c 0).toNat)))
      let s := setGl s p { rxq := x.rxq, asm := x.asm, owed := owed, key := k.1, peerPort := t.peerPort.val,
                           restoreAt := some (s.ridge + 101000) }
      closeMerge (levelClear s (0x139 + p)) (p + 1)

/-! ### Failover (R412) -/

/-- Ring ids whose route satisfies a condition. -/
def routesOf (s : State) (q : Nat → Bool) : List Nat := (List.range 256).filter (fun i => q (rd s (A.GL_ROUTE i)))

/-- 101 µs after a link-down, the destinations that used it switch to their alternates. -/
def routeFailover (s : State) (p : Nat) : State :=
  let due := (glOf s p).failoverAt.any (fun t => decide (t ≤ s.ridge))
  if due = false then s
  else
    let s := setGl s p { glOf s p with failoverAt := none }
    let l := routesOf s (fun w => fldN w 2 0 == p + 1 && fldN w 6 4 != 0 && !bitN w 8)
    if l.isEmpty then s
    else
      let s := l.foldl (fun s i => wrF s (A.GL_ROUTE i) 8 8 1) s
      bumpSat (wrF s (A.GL_STATUS p) 2 2 1) A.GL_FAILOVERS 1

/-- 101 µs after the link is up again, they return. -/
def routeRestore (s : State) (p : Nat) : State :=
  let due := (glOf s p).restoreAt.any (fun t => decide (t ≤ s.ridge))
  if due = false ∨ glUp s p = false then s
  else
    let s := setGl s p { glOf s p with restoreAt := none }
    let l := routesOf s (fun w => fldN w 2 0 == p + 1 && bitN w 8)
    wrF (l.foldl (fun s i => wrF s (A.GL_ROUTE i) 8 8 0) s) (A.GL_STATUS p) 2 2 0

/-! ### Commands -/

/-- GUYLINE_FLIT_RECEIVE: 256 bytes at a port, with the running jobs whose traffic its link carries. -/
def execGuylineFlitReceive (port : Fin 3) (flit : List Byte) (uncorrectable : Bool) (jobs : List (BitVec 32)) (s : State) :
    Host.Outcome State Fault Refusal :=
  whenOn (fun s => flitReceive s port.val flit uncorrectable (jobs.map (·.toNat))) s

/-- FLIT_ACK_TIMEOUT: ack has made no progress for 250 ns. -/
def execFlitAckTimeout (port : Fin 3) (s : State) : Host.Outcome State Fault Refusal :=
  whenOn (fun s =>
    if glUp s port.val && decide ((glOf s port.val).ackAt + 250 ≤ s.ridge) then replayFlits s port.val else s) s

/-- LINK_RETRY_FAIL: eight replays without progress, or 2 µs since the first failure. -/
def execLinkRetryFail (port : Fin 3) (jobs : List (BitVec 32)) (s : State) : Host.Outcome State Fault Refusal :=
  whenOn (fun s =>
    let p := port.val
    let x := glOf s p
    let late := x.failAt.any (fun t => decide (t + 2000 ≤ s.ridge))
    if rdB s (A.GL_STATUS p) 0 && x.failAt.isSome && (late || decide (8 ≤ x.retries)) then
      glDown (bumpSat s (A.GL_RETRY_FAILS p) 1) p St.LINK_RETRY_FAIL 2 (jobs.map (·.toNat))
    else s) s

/-- GUYLINE_TRAINING_DONE: lane lock, the exchange of ring ids and authentication have ended. -/
def execGuylineTrainingDone (port : Fin 3) (t : GlTraining) (s : State) : Host.Outcome State Fault Refusal :=
  whenOn (fun s => trainingDone s port.val t) s

/-- GUYLINE_PACKET_SEND: the next packet of a port that has credit. -/
def execGuylinePacketSend (port : Fin 3) (s : State) : Host.Outcome State Fault Refusal := whenOn (fun s => packetSend s port.val) s

/-- ROUTE_FAILOVER: 101 µs after a link-down. -/
def execRouteFailover (port : Fin 3) (s : State) : Host.Outcome State Fault Refusal := whenOn (fun s => routeFailover s port.val) s

/-- ROUTE_RESTORE: 101 µs after a link-up. -/
def execRouteRestore (port : Fin 3) (s : State) : Host.Outcome State Fault Refusal := whenOn (fun s => routeRestore s port.val) s

end Sys2Proof.Machine
end

