-- ==== Sys2Proof/Machine/Packets.lean ====
section
/-!
DEFINITION. What the packets of the guyline do at their destination, and ridge time (R287, R405 to R409, R412, R414, R416).
-/

namespace Sys2Proof.Machine

/-! ### Delivery (R405 to R409, R412) -/

/-- The packet at the head of a port's received packets, if it is of a kind, and the state without it: its slots are free. -/
def takePacket (s : State) (p kind : Nat) : Option (Packet × State) :=
  let x := glOf s p
  match x.rxq with
  | k :: t => if k.kind = kind then some (k, oweSlots (setGl s p { x with rxq := t }) p (bufferClass k) (packetSlots k)) else none
  | [] => none

/-- Deliver the packet at the head of a port, if it is of a kind: one that is too old is discarded. -/
def deliver (s : State) (p kind : Nat) (f : State → Packet → State) : State :=
  match takePacket s p kind with
  | some (k, t) => if expired t k then expirePacket t p k else f t k
  | none => s

/-- The head of a port waits: the access meets a region that is still being filled, or a pod lacks room. -/
def headWaits (s : State) (p : Nat) (q : Packet → Bool) : Bool :=
  match (glOf s p).rxq with
  | k :: _ => q k
  | [] => false

/-- A packet's source as an agent (R409). -/
def packetAgent (k : Packet) : Agent := .remote (BitVec.ofNat 8 k.src)

/-- The frame that a packet carries to a peg: zero for none. -/
def packetFrame (k : Packet) : Option Nat := if k.frame = 0 then none else some k.frame

/-- A WRITE is performed, recorded where a capture window asks for it, and increments its peg (R287, R407). -/
def packetWrite (p : Nat) (rrLost : Bool) (s : State) (k : Packet) : State :=
  match busWrite s (packetAgent k) k.addr k.payload k.cls with
  | (0, s) =>
    let s := recordWrite s rrLost (p + 1) k.addr k.payload
    let n := if pegMode (pegAt s k.peg) = 2 then k.payload.length else 1
    pegInc s k.peg .either n (packetFrame k) k.cls
  | (_, s) => s

/-- A READ_REQ is answered by one READ_CPL with the data, or with the status of the access (R409). -/
def packetRead (s : State) (k : Packet) : State :=
  match busRead s (packetAgent k) k.addr k.len k.cls with
  | (st, b, s) =>
    (sendPacket s { kind := pkReadCpl, dst := k.src, src := 0, cls := k.cls, vc := 2, timed := false, readTag := k.readTag,
                    status := st, execSeq := k.execSeq, len := if st = 0 then b.length else 1,
                    payload := if st = 0 then b else [] }).2

/-- A READ_CPL completes the read of its tag towards the host (R400, R409). -/
def packetCompletion (s : State) (k : Packet) : State :=
  match s.remote.find? (fun r => r.tag == k.readTag) with
  | none => s
  | some _ =>
    let s := { s with remote := s.remote.filter (fun r => r.tag != k.readTag) }
    if k.status = 0 then hostReply s (.data k.payload) else hostRefused s k.status

/-- Bytes of pods that a port has assembled or is assembling. -/
def assembledBytes (s : State) : Nat :=
  (s.podsIn.map (fun x => x.2.length)).sum + (s.gl.map (fun g => (g.2.asm.map (fun a => a.2.length)).sum)).sum

/-- A POD packet joins the pod of its source and vc; one out of sequence discards that pod (R408). -/
def packetPod (p : Nat) (s : State) (k : Packet) : State :=
  let x := glOf s p
  let key := 4 * k.src + k.vc
  let old := x.asm.find? (fun a => a.1 == key)
  let rest := x.asm.filter (fun a => a.1 != key)
  let bad := if k.first then old.isSome else old.isNone
  let s := if bad then raise (bumpSat s (A.GL_E2E_CRC p) 1) (glPage p) 0x10 else s
  if bad && !k.first then setGl s p { glOf s p with asm := rest }
  else
    let b := (if k.first then [] else (old.map (·.2)).getD []) ++ k.payload
    if k.last then { setGl s p { glOf s p with asm := rest } with podsIn := s.podsIn ++ [(p + 1, b)] }
    else setGl s p { glOf s p with asm := rest ++ [(key, b)] }

/-! ### Ridge time (R30, R414, R416) -/

/-- The port through which this device takes time. -/
def upstreamPort (s : State) : Option Nat :=
  let u := rdF s A.GL_SYNC_CFG 9 8
  if ridgeMaster s ∨ u = 0 then none else some (u - 1)

/-- A time message to the device at the other end of a port. -/
def timeMessage (s : State) (p kind v : Nat) : State :=
  queuePacket s p { kind := kind, dst := peerRing s p, src := ringId s, cls := 0, vc := 2, timed := false, addr := v }

/-- A SYNC of the upstream end: its time and its arrival are kept, and a DELAY_REQ follows. -/
def syncArrive (p : Nat) (s : State) (k : Packet) : State :=
  if upstreamPort s = some p then
    let s := setGl s p { glOf s p with t1 := some k.addr, t2 := some s.ridge, t3 := none }
    timeMessage { s with time := { s.time with lastSync := s.ridge } } p pkDelayReq 0
  else s

/-- A DELAY_REQ of the downstream end is answered with its arrival time. -/
def delayReqArrive (p : Nat) (s : State) (_ : Packet) : State := timeMessage s p pkDelayResp s.ridge

/-- No frame group is enabled. -/
def noFrameGroup (s : State) : Bool := !(List.range 8).any (fgOn s)

/-- The ridge counter is corrected by an offset: a step while no frame group is enabled, a slew otherwise. -/
def correctRidge (s : State) (off : Int) : State :=
  if noFrameGroup s then { s with ridge := unsgn 64 ((s.ridge : Int) - off), time := { s.time with slew := 0, phase := 0 } }
  else { s with time := { s.time with slew := -off } }

/-- Ridge time is locked: RIDGE_STATUS.locked is set, and at first lock the epoch is adopted. -/
def ridgeLock (s : State) (epoch : Nat) : State :=
  let s := levelClear (wrF s A.RIDGE_STATUS 1 1 1) 0x13C
  if s.time.everLocked then s
  else wrF (wr (wr { s with time := { s.time with everLocked := true } } A.RIDGE_EPOCH_LO (epoch % 2 ^ 32))
    A.RIDGE_EPOCH_HI (epoch / 2 ^ 32)) A.RIDGE_STATUS 2 2 1

/-- Ridge time is no longer locked: the device counts on its own reference and reports it. -/
def ridgeUnlock (s : State) : State :=
  let s := wrF { s with time := { s.time with good := 0, bad := 0, slew := 0 } } A.RIDGE_STATUS 1 1 0
  levelReport (raise s 0x003 4) 0x13C St.RIDGE_UNLOCKED

/-- The offset of a completed exchange is beyond the bound of R30 for a device `h` hops from the master. -/
def beyondBound (off : Int) (h : Nat) : Bool := decide (8 + (h - 1) < 2 * off.natAbs)

/-- An exchange has completed with an offset, at `h` hops from the master whose epoch is `epoch`. -/
def exchangeDone (s : State) (off : Int) (h epoch : Nat) : State :=
  let s := wr s A.RIDGE_SKEW (unsgn 32 off)
  let good := if off.natAbs ≤ 2 then s.time.good + 1 else 0
  let bad := if beyondBound off h then s.time.bad + 1 else 0
  let s := { s with time := { s.time with good := good, bad := bad } }
  if ridgeLocked s && decide (3 ≤ bad) then ridgeUnlock s
  else
    let s := correctRidge s off
    if !ridgeLocked s && decide (8 ≤ good) then ridgeLock s epoch else s

/-- A DELAY_RESP completes the exchange of the upstream port (R414). -/
def delayRespArrive (p h epoch : Nat) (s : State) (k : Packet) : State :=
  let x := glOf s p
  match x.t1, x.t2, x.t3 with
  | some t1, some t2, some t3 =>
    if upstreamPort s = some p then
      let off : Int := (((t2 : Int) - t1) - ((k.addr : Int) - t3)) / 2
      exchangeDone (setGl s p { x with t1 := none, t2 := none, t3 := none }) off h epoch
    else s
  | _, _, _ => s

/-- Every 125 µs the upstream end of a link sends SYNC; a device relays the master's time while it is locked. -/
def syncInterval (s : State) (p : Nat) : State :=
  let due := match (glOf s p).t1 with
    | some t => decide (t + 125000 ≤ s.ridge)
    | none => true
  if glUp s p && ridgeLocked s && upstreamPort s != some p && due && !(glOf s p).txq.any (fun k => k.kind == pkSync) then
    timeMessage s p pkSync 0
  else s

/-- No SYNC has arrived for 1 ms. -/
def syncTimeout (s : State) : State :=
  if !ridgeMaster s && rdB s A.RIDGE_STATUS 1 && decide (s.time.lastSync + 1000000 ≤ s.ridge) then ridgeUnlock s else s

/-! ### Commands -/

/-- WRITE: the head of a port's received packets. -/
def execGlWrite (port : Fin 3) (rrLost : Bool) (s : State) : Host.Outcome State Fault Refusal :=
  whenOn (fun s =>
    if headWaits s port.val (fun k => encWaits s k.addr k.payload.length) then s
    else deliver s port.val pkWrite (packetWrite port.val rrLost)) s

/-- READ_REQ: the head of a port's received packets. -/
def execGlReadReq (port : Fin 3) (s : State) : Host.Outcome State Fault Refusal :=
  whenOn (fun s =>
    if headWaits s port.val (fun k => encWaits s k.addr k.len) then s else deliver s port.val pkReadReq packetRead) s

/-- READ_CPL: the head of a port's received packets. -/
def execGlReadCpl (port : Fin 3) (s : State) : Host.Outcome State Fault Refusal :=
  whenOn (fun s => deliver s port.val pkReadCpl packetCompletion) s

/-- POD: the head of a port's received packets; it stays, and its credit with it, while the receive ring lacks room. -/
def execGlPod (port : Fin 3) (s : State) : Host.Outcome State Fault Refusal :=
  whenOn (fun s =>
    if headWaits s port.val (fun k => decide (creditNow s < assembledBytes s + k.payload.length)) then s
    else deliver s port.val pkPod (packetPod port.val)) s

/-- PEG_INC: the head of a port's received packets; bytes 8 to 11 hold the amount. -/
def execGlPegInc (port : Fin 3) (s : State) : Host.Outcome State Fault Refusal :=
  whenOn (fun s => deliver s port.val pkPegInc (fun s k => pegInc s k.peg .either (lo32 k.addr) (packetFrame k) k.cls)) s

/-- SYNC: the head of a port's received packets. -/
def execGlSync (port : Fin 3) (s : State) : Host.Outcome State Fault Refusal :=
  whenOn (fun s => deliver s port.val pkSync (syncArrive port.val)) s

/-- DELAY_REQ: the head of a port's received packets. -/
def execGlDelayReq (port : Fin 3) (s : State) : Host.Outcome State Fault Refusal :=
  whenOn (fun s => deliver s port.val pkDelayReq (delayReqArrive port.val)) s

/-- DELAY_RESP: the head of a port's received packets, with the hops to the master and the master's epoch. -/
def execGlDelayResp (port : Fin 3) (hops : BitVec 8) (epoch : BitVec 64) (s : State) : Host.Outcome State Fault Refusal :=
  whenOn (fun s => deliver s port.val pkDelayResp (delayRespArrive port.val hops.toNat epoch.toNat)) s

/-- SYNC_INTERVAL: 125 µs have passed on a port. -/
def execSyncInterval (port : Fin 3) (s : State) : Host.Outcome State Fault Refusal := whenOn (fun s => syncInterval s port.val) s

/-- SYNC_TIMEOUT: no SYNC for 1 ms. -/
def execSyncTimeout (s : State) : Host.Outcome State Fault Refusal := whenOn syncTimeout s

end Sys2Proof.Machine
end

