-- ==== Sys2Proof/Machine/Photonic.lean ====
section
/-!
DEFINITION. The photonic engine: open-fibre shutdown, probes and laser faults (R392 to R394, R428).
-/

namespace Sys2Proof.Machine

/-! ### Lanes that shut down as one (R394, Table 14.1) -/

/-- The group of a lane: sensor ports 0 to 31, guylines 32 to 34, host 35, management 36; a lantern lane has none. -/
def laneGroup (lane : Nat) : Option Nat :=
  if lane < 32 then some lane else if lane < 44 then some (32 + (lane - 32) / 4) else if lane < 46 then some 35
  else if lane = 46 then some 36 else none

/-- The lanes of a group. -/
def groupLanes (g : Nat) : List Nat := (List.range 47).filter (fun l => laneGroup l == some g)

/-- A group beside its registers. -/
def lanesOf (s : State) (g : Nat) : LaneGroup := smGet (fun _ => {}) s.lanes g

/-- Replace a group; PH_STATUS and the port's own view of its lanes follow. -/
def setLanes (s : State) (g : Nat) (x : LaneGroup) : State :=
  let s := { s with lanes := smSet (fun _ => {}) s.lanes g x }
  wrF s A.PH_STATUS 0 0 (b2n (s.lanes.any (fun l => l.2.shut.isSome)))

/-- A lane receives light, or does not. -/
def setLight (s : State) (lane : Nat) (on : Bool) : State :=
  let s := wrF s (A.PH_LANE_STATUS lane) 0 0 (b2n on)
  if 32 ≤ lane ∧ lane < 44 then
    let i := 16 + (lane - 32) % 4
    wrF s (A.GL_STATUS ((lane - 32) / 4)) i i (b2n on)
  else s

/-! ### Links that lose their light -/

/-- The management link goes down (R427). -/
def mgtDown (s : State) : State :=
  if rdB s A.MGT_STATUS 0 = false then s
  else raise (setSec (wrF s A.MGT_STATUS 0 0 0) 32 { secOf s 32 with sa := none, old := none }) 0x2A0 1

/-- The link of a group goes down for want of light or of a laser. -/
def groupDown (s : State) (g : Nat) (cause : LinkCause) (jobs : List Nat) : State :=
  if g < 32 then sensorDown s g cause
  else if g < 35 then glDown s (g - 32) St.GUYLINE_DOWN 0 jobs
  else if g = 35 then hostDown s jobs
  else mgtDown s

/-- A group enters open-fibre shutdown. -/
def shutDown (s : State) (g : Nat) (jobs : List Nat) : State :=
  let s := setLanes s g { lanesOf s g with shut := some s.ridge, probe := none, probed := none }
  let s := (groupLanes g).foldl (fun s l => wrF s (A.PH_LANE_STATUS l) 1 1 1) s
  let s := groupDown (raise s 0x2A8 1) g .openFibre jobs
  if g < 32 then wrF s (A.PORT_STATUS g) 2 2 1 else s

/-- A lane has had no light for 50 µs. -/
def openFibre (s : State) (lane : Nat) (jobs : List Nat) : State :=
  match laneGroup lane with
  | none => s
  | some g =>
    let s := setLight s lane false
    if (lanesOf s g).shut.isSome then s else shutDown s g jobs

/-- A lane receives light; a group in shutdown whose lanes all do resumes. -/
def lightReceived (s : State) (lane : Nat) : State :=
  match laneGroup lane with
  | none => s
  | some g =>
    let s := setLight s lane true
    if (lanesOf s g).shut.isSome && (groupLanes g).all (fun l => rdB s (A.PH_LANE_STATUS l) 0) then
      let s := (groupLanes g).foldl (fun s l => wrF s (A.PH_LANE_STATUS l) 1 1 0) (setLanes s g {})
      let s := if g < 32 then wrF s (A.PORT_STATUS g) 2 2 0 else s
      raise s 0x2A8 4
    else s

/-- PH_PROBE_CFG.interval in ticks. -/
def probeInterval (s : State) : Nat := 1000000 * rdF s A.PH_PROBE_CFG 15 0

/-- A group in shutdown sends a probe, once an interval. -/
def probeStart (s : State) (g : Nat) : State :=
  let x := lanesOf s g
  match x.shut with
  | none => s
  | some t =>
    if x.probe = none ∧ x.probed.getD t + probeInterval s ≤ s.ridge then
      setLanes s g { x with probe := some s.ridge, probed := some s.ridge }
    else s

/-- A probe has lasted its 2 ms. -/
def probeEnd (s : State) (g : Nat) : State :=
  let x := lanesOf s g
  match x.probe with
  | some t => if t + 2000000 ≤ s.ridge then setLanes s g { x with probe := none } else s
  | none => s

/-- A lane above its ceiling is cut, and the fault latched until reset (R393). -/
def laserFault (s : State) (lane : Nat) (jobs : List Nat) : State :=
  if 48 < lane ∨ laserCut s lane = true then s
  else
    let s := wrF (wrF s (A.PH_LANE_STATUS lane) 2 2 1) A.PH_STATUS 1 1 1
    let s := raise s 0x2A8 2
    match laneGroup lane with
    | some g =>
      if g < 32 ∧ rdB s (A.PORT_STATUS g) 0 = false then
        report s { source := 0x040 + g, status := St.LASER_FAULT, detail := g }
      else groupDown s g .laserFault jobs
    | none => wrF s A.LANTERN_STATUS (lane - 47) (lane - 47) 0

/-! ### Commands -/

/-- OPEN_FIBRE: no light on a lane for 50 µs, with the running jobs whose traffic its link carries. -/
def execOpenFibre (lane : Fin 49) (jobs : List (BitVec 32)) (s : State) : Host.Outcome State Fault Refusal :=
  whenOn (fun s => openFibre s lane.val (jobs.map (·.toNat))) s

/-- LIGHT_RECEIVED: light on a lane. -/
def execLightReceived (lane : Fin 49) (s : State) : Host.Outcome State Fault Refusal :=
  whenOn (fun s => lightReceived s lane.val) s

/-- PROBE_START: the probe interval of a group has passed. -/
def execProbeStart (group : Fin 37) (s : State) : Host.Outcome State Fault Refusal := whenOn (fun s => probeStart s group.val) s

/-- PROBE_END: 2 ms of a group's probe have passed. -/
def execProbeEnd (group : Fin 37) (s : State) : Host.Outcome State Fault Refusal := whenOn (fun s => probeEnd s group.val) s

/-- LASER_FAULT: a lane's monitor has cut it, with the running jobs whose traffic its link carries. -/
def execLaserFault (lane : Fin 49) (jobs : List (BitVec 32)) (s : State) : Host.Outcome State Fault Refusal :=
  whenOn (fun s => laserFault s lane.val (jobs.map (·.toNat))) s

end Sys2Proof.Machine
end

