-- ==== Sys2Proof/Machine/Management.lean ====
section
/-!
DEFINITION. The management port: requests, responses, sessions, and register and memory access over it (R417 to R419, R499,
R500).
-/

namespace Sys2Proof.Machine

/-! ### Clocks that the ROM starts (Table 18.8) -/

/-- Domains that run under the ROM: AON, REF, SEC, FAB, C0ARR to C2ARR, and MGT. -/
def romDomains : List Nat := [1, 2, 3, 6, 7, 8, 15, 24]

/-- The ROM's domains run; once the cores have been loaded every domain does, and this changes nothing. -/
def romClocks (s : State) : State :=
  if rdB s (A.CLK_STATUS 0) 3 then s else romDomains.foldl (fun s d => wr s (A.CLK_STATUS (d - 1)) (clkStatus 0)) s

/-! ### Requests and responses (R417, R418) -/

/-- The port's own address. -/
def mgtAddr (s : State) : Nat := 0x025A5601 * 2 ^ 16 + 2 ^ 8 * ringId s

/-- MGT_CFG as the MACsec bits of a port's configuration. -/
def mgtMacCfg (s : State) : Nat := 16 * rdF s A.MGT_CFG 1 0

/-- The open session that a frame names. -/
def sessionOf (s : State) (f : MgtFrame) : Option Session :=
  match s.mgt.session with
  | some x => if f.session.toNat ≠ 0 ∧ x.id = f.session.toNat then some x else none
  | none => none

/-- A response leaves the port, and is one of the last 64 kept. -/
def mgtSend (s : State) (r : MgtResp) (keep : Bool) : State :=
  let l := s.mgt.kept ++ [r]
  let s := if keep then { s with mgt := { s.mgt with kept := l.drop (l.length - 64) } } else s
  { s with mgtOut := s.mgtOut ++ [r] }

/-- The response to a request. -/
def respOf (f : MgtFrame) (op st : Nat) (body : List Byte) : MgtResp :=
  { dest := f.src.toNat, op := op, session := f.session.toNat, seq := f.seq.toNat, status := st, body := body }

/-- A request is refused. -/
def mgtRefuse (s : State) (f : MgtFrame) (op st : Nat) (keep : Bool) : State :=
  let s := bumpSat s A.MGT_REFUSED 1
  mgtSend (if st = St.MGT_AUTH_REQUIRED then raise s 0x2A0 2 else s) (respOf f op st []) keep

/-- The kept responses to a frame's sender and session. -/
def keptFor (s : State) (f : MgtFrame) : List MgtResp :=
  s.mgt.kept.filter (fun r => r.dest == f.src.toNat && r.session == f.session.toNat)

/-- A sequence is older than every response kept for its sender and session, all 64 of them. -/
def mgtStale (s : State) (f : MgtFrame) : Bool :=
  let l := keptFor s f
  decide (64 ≤ l.length) && l.all (fun r => decide (f.seq.toNat < r.seq))

/-- A frame of the session fails its tag (R500). -/
def mgtTagFail (s : State) (x : Session) : State :=
  let s := authFail { s with mgt := { s.mgt with session := some { x with fails := x.fails + 1 } } }
  if 16 ≤ x.fails + 1 then closeSession s else s

/-- A frame of the session verifies. -/
def mgtTagPass (s : State) (x : Session) : State :=
  { s with mgt := { s.mgt with session := some { x with fails := 0, lastAt := s.ridge } } }

/-- What an operation requires of its sender. -/
inductive MgtNeed where
  | open_
  | session
  | priv (bit : Nat)
  deriving DecidableEq, Repr

/-- The frame's session, if any, meets an operation's need (Table 14.6). -/
def needGranted (x : Option Session) (n : MgtNeed) : Bool :=
  match n, x with
  | .open_, _ => true
  | .session, some _ => true
  | .priv b, some x => bitN x.privs b
  | _, none => false

/-- The outcome of an operation is answered, counted, and kept; the last sequence of a session closes it. -/
def mgtAnswer (f : MgtFrame) (op : Nat) (inSession : Bool) (r : Nat × List Byte × State) : State :=
  let s := if r.1 = St.ADDR_UNREACHABLE then mgtRefuse r.2.2 f op r.1 true
    else mgtSend (bump r.2.2 A.MGT_REQUESTS 1) (respOf f op r.1 r.2.1) true
  if inSession && f.seq.toNat == 0xFFFFFFFF then closeSession s else s

/-- A request whose frame has been taken: answered again, refused, or executed. -/
def mgtRequest (s : State) (f : MgtFrame) (op : Nat) (need : MgtNeed) (h : State → Nat × List Byte × State) : State :=
  let x := sessionOf s f
  match (keptFor s f).find? (fun r => r.seq == f.seq.toNat) with
  | some r => { s with mgtOut := s.mgtOut ++ [r] }
  | none =>
    if mgtStale s f then mgtRefuse s f op St.MGT_SEQUENCE_STALE false
    else if needGranted x need = false ∨ (f.session.toNat ≠ 0 ∧ x = none) then mgtRefuse s f op St.MGT_AUTH_REQUIRED true
    else mgtAnswer f op x.isSome (h s)

/-- A management frame arrives. -/
def mgtServe (s : State) (f : MgtFrame) (op : Nat) (need : MgtNeed) (h : State → Nat × List Byte × State) : State :=
  let mine := f.dest.toNat == mgtAddr s || (op == 1 && f.dest.toNat == 0xFFFFFFFFFFFF)
  let frame : EthFrame := { fcsOk := true, dest := f.dest, sec := f.sec, etherType := 0x88B6, data := [] }
  if rdB s A.MGT_STATUS 0 = false ∨ mine = false then s
  else
    match macsecCheck s 32 (mgtMacCfg s) frame with
    | none => s
    | some s =>
      match sessionOf s f with
      | some x => if f.tagOk then mgtRequest (mgtTagPass s x) f op need h else mgtTagFail s x
      | none => mgtRequest s f op need h

/-! ### HELLO and STATUS -/

/-- HELLO: ordering code, ring id, node_state and firmware state. -/
def helloBody (s : State) : List Byte :=
  orderingCode s ++ leBytes 1 (ringId s) ++ leBytes 1 (nodeState s) ++ leBytes 2 0 ++ leBytes 4 (rd s A.FW_STATUS)

/-- STATUS: node_state, lantern state, and the reports of each fault class. -/
def statusBody (s : State) : List Byte :=
  leBytes 1 (nodeState s) ++ zeros 3 ++ leBytes 4 (rd s A.LANTERN_STATUS) ++
    (List.range 5).flatMap (fun i => leBytes 4 (smGet (fun _ => 0) s.fc.counts (i + 1)))

/-! ### Opening a session (R499, Table 17.8) -/

/-- Privilege bits fused for an owner slot. -/
def slotPrivs (s : State) (slot : Nat) : Nat := s.fuses.privs / 16 ^ slot % 16

/-- The status with which START is refused, or 0. -/
def startStatus (s : State) (f : MgtFrame) (slot privs : Nat) : Nat :=
  let busy := match s.mgt.shake with
    | some h => h.src != f.src.toNat && decide (s.ridge < h.startedAt + 5000000000)
    | none => false
  let granted := decide (slot < 4) && (smGet (fun _ => none) s.fuses.owners slot).isSome &&
    (privs &&& slotPrivs s slot) == privs && (!bitN privs 2 || (!s.fuses.debugOff && s.sec.debugOk))
  if rdB s A.SEC_TRNG_STATUS 1 then St.TRNG_FAILED
  else if s.mgt.session.isSome || busy then St.SESSION_BUSY
  else if decide (slot < 4) && bitN s.fuses.revoked slot then St.CREDENTIAL_REVOKED
  else if granted then 0
  else St.PRIVILEGE_DENIED

/-- START: a handshake begins with a fresh nonce, session id and key pair. -/
def startShake (f : MgtFrame) (slot privs : Nat) (nonce : List Byte) (s : State) : Nat × List Byte × State :=
  let st := startStatus s f slot privs
  if st ≠ 0 then (st, [], s)
  else
    let a := drawFree s
    let b := drawFree a.2
    let c := drawFree b.2
    let id := 1 + b.1 % (2 ^ 32 - 1)
    let h : Handshake := { src := f.src.toNat, id := id, slot := slot, privs := privs, clientNonce := padTo 32 nonce,
                           deviceNonce := leBytes 32 a.1, seed := leBytes 32 c.1, startedAt := s.ridge }
    (0, leBytes 32 a.1 ++ leBytes 4 id, { c.2 with mgt := { c.2.mgt with shake := some h } })

/-- The handshake of a frame's sender. -/
def shakeOf (s : State) (f : MgtFrame) : Option Handshake :=
  match s.mgt.shake with
  | some h => if h.src = f.src.toNat then some h else none
  | none => none

/-- A step that the spec gives no status: refused with a free one. -/
def freeRefusal (s : State) : Nat × List Byte × State := (1 + (drawFree s).1 % 65535, [], (drawFree s).2)

/-- GET: up to 1,024 bytes of an object. -/
def getObject (f : MgtFrame) (obj off : Nat) (s : State) : Nat × List Byte × State :=
  let part (b : List Byte) : Nat × List Byte × State := (0, (b.drop off).take 1024, s)
  if obj = 1 then part (aliasCert s)
  else if obj = 2 then part (ikPublic s)
  else
    match shakeOf s f with
    | some h => if obj = 0 then part (padTo 1568 (Config.kemPublic h.seed)) else freeRefusal s
    | none => freeRefusal s

/-- Bytes with a fragment put at an offset. -/
def putFragment (b : List Byte) (off : Nat) (d : List Byte) : List Byte :=
  padTo off b ++ d ++ b.drop (off + d.length)

/-- PUT_CT and PUT_KEY: a fragment of an object of `n` bytes. -/
def putObject (f : MgtFrame) (n off : Nat) (d : List Byte) (set : Handshake → Handshake) (s : State) : Nat × List Byte × State :=
  match shakeOf s f with
  | some h =>
    if d.length ≤ 1024 ∧ off + d.length ≤ n then (0, [], { s with mgt := { s.mgt with shake := some (set h) } }) else freeRefusal s
  | none => freeRefusal s

/-- The transcript T. -/
def transcript (s : State) (h : Handshake) : List Byte :=
  Config.shake256 64 (h.clientNonce ++ h.deviceNonce ++ leBytes 4 h.id ++ padTo 1568 (Config.kemPublic h.seed) ++ h.ct ++
    h.pk ++ leBytes 1 h.slot ++ leBytes 1 h.privs ++ serialBytes s)

/-- FINISH: the owner's key and signature are checked, and the session opens. -/
def finishShake (f : MgtFrame) (sig : List Byte) (s : State) : Nat × List Byte × State :=
  match shakeOf s f with
  | none => freeRefusal s
  | some h =>
    let t := transcript s h
    let keyOk := decide (h.ct.length = 1568 ∧ h.pk.length = 1793) &&
      (smGet (fun _ => none) s.fuses.owners h.slot == some (padTo 32 (Config.shake256 32 h.pk)))
    let s := { s with mgt := { s.mgt with shake := none } }
    if keyOk && Config.falconVerify h.pk t sig then
      let x : Session := { id := h.id, src := h.src, slot := h.slot, privs := h.privs, lastAt := s.ridge }
      let debug := bitN h.privs 2
      let s := { s with mgt := { s.mgt with session := some x }, sec := { s.sec with debugOpened := s.sec.debugOpened || debug } }
      let s := wrF (wrF s A.MGT_STATUS 2 1 (1 + 2 * b2n debug)) A.SEC_STATUS 2 2 1
      (0, padTo 1280 (Config.falconSign (akSeed s) t), raise s 0x030 4)
    else (St.SESSION_AUTH_FAIL, [], authFail s)

/-- 60 s have passed without a request. -/
def sessionIdle (s : State) : State :=
  match s.mgt.session with
  | some x => if x.lastAt + 60000000000 ≤ s.ridge then closeSession s else s
  | none => s

/-! ### Registers and memory (Table 14.6) -/

/-- REG_READ: a register of this device. -/
def mgtRegRead (a : Nat) (s : State) : Nat × List Byte × State :=
  if isLocal s a = false then (St.ADDR_UNREACHABLE, [], s)
  else if place (addrLocal a) = .regs then (0, regRead s .management (addrLocal a) 4)
  else freeRefusal s

/-- REG_WRITE: a register of this device; a commit that is refused says so (R496). -/
def mgtRegWrite (a v : Nat) (s : State) : Nat × List Byte × State :=
  if isLocal s a = false then (St.ADDR_UNREACHABLE, [], s)
  else if place (addrLocal a) = .regs then
    let st := if addrLocal a = A.SEC_SVN_COMMIT then (svnCommit s .management v).1 else 0
    (st, [], regWrite s .management (addrLocal a) (leBytes 4 v))
  else freeRefusal s

/-- MEM_READ: memory of this device. -/
def mgtMemRead (a n : Nat) (s : State) : Nat × List Byte × State :=
  if isLocal s a = false then (St.ADDR_UNREACHABLE, [], s)
  else
    let r := busRead s .management (addrLocal a) n
    (r.1, if r.1 = 0 then r.2.1 else [], r.2.2)

/-- MEM_WRITE: memory of this device. -/
def mgtMemWrite (a : Nat) (b : List Byte) (s : State) : Nat × List Byte × State :=
  if isLocal s a = false then (St.ADDR_UNREACHABLE, [], s)
  else
    let r := busWrite s .management (addrLocal a) b
    (r.1, [], r.2)

/-- A memory access waits for a region that is still being filled (R380). -/
def mgtWaits (s : State) (a n : Nat) : Bool := isLocal s a && encWaits s (addrLocal a) n

/-- RESET: safe state at once, the reset 1 ms later (R419). -/
def mgtReset (s : State) : Nat × List Byte × State :=
  let s := raise (forceFromHost s) 0x2A0 4
  (0, [], { s with mgt := { s.mgt with resetAt := some (s.ridge + 1000000) } })

/-! ### Commands -/

/-- HELLO. -/
def execMgtHello (f : MgtFrame) (s : State) : Host.Outcome State Fault Refusal :=
  whenOn (fun s => mgtServe s f 0x01 .open_ (fun s => (0, helloBody s, s))) s

/-- START: SESSION_OPEN, step 0x01. -/
def execMgtStart (f : MgtFrame) (slot privs : BitVec 8) (nonce : List Byte) (s : State) : Host.Outcome State Fault Refusal :=
  whenOn (fun s => mgtServe s f 0x10 .open_ (startShake f slot.toNat privs.toNat nonce)) s

/-- GET: SESSION_OPEN, step 0x02. -/
def execMgtGet (f : MgtFrame) (obj : BitVec 8) (off : BitVec 16) (s : State) : Host.Outcome State Fault Refusal :=
  whenOn (fun s => mgtServe s f 0x10 .open_ (getObject f obj.toNat off.toNat)) s

/-- PUT_CT: SESSION_OPEN, step 0x03. -/
def execMgtPutCt (f : MgtFrame) (off : BitVec 16) (data : List Byte) (s : State) : Host.Outcome State Fault Refusal :=
  whenOn (fun s => mgtServe s f 0x10 .open_
    (putObject f 1568 off.toNat data (fun h => { h with ct := putFragment h.ct off.toNat data }))) s

/-- PUT_KEY: SESSION_OPEN, step 0x04. -/
def execMgtPutKey (f : MgtFrame) (off : BitVec 16) (data : List Byte) (s : State) : Host.Outcome State Fault Refusal :=
  whenOn (fun s => mgtServe s f 0x10 .open_
    (putObject f 1793 off.toNat data (fun h => { h with pk := putFragment h.pk off.toNat data }))) s

/-- FINISH: SESSION_OPEN, step 0x05. -/
def execMgtFinish (f : MgtFrame) (sig : List Byte) (s : State) : Host.Outcome State Fault Refusal :=
  whenOn (fun s => mgtServe s f 0x10 .open_ (finishShake f sig)) s

/-- SESSION_CLOSE: the session closes once its response is sent. -/
def execSessionClose (f : MgtFrame) (s : State) : Host.Outcome State Fault Refusal :=
  whenOn (fun s => mgtServe s f 0x11 .session (fun s => (0, [], closeSession s))) s

/-- SESSION_IDLE_TIMEOUT: 60 s without a request. -/
def execSessionIdleTimeout (s : State) : Host.Outcome State Fault Refusal := whenOn sessionIdle s

/-- REG_READ: the 32-bit register at a device address. -/
def execMgtRegRead (f : MgtFrame) (addr : BitVec 56) (s : State) : Host.Outcome State Fault Refusal :=
  whenOn (fun s => mgtServe s f 0x20 (.priv 1) (mgtRegRead addr.toNat)) s

/-- REG_WRITE: the 32-bit register at a device address. -/
def execMgtRegWrite (f : MgtFrame) (addr : BitVec 56) (v : Word) (s : State) : Host.Outcome State Fault Refusal :=
  whenOn (fun s => mgtServe s f 0x21 (.priv 1) (mgtRegWrite addr.toNat v.toNat)) s

/-- MEM_READ: bytes at a device address. -/
def execMgtMemRead (f : MgtFrame) (addr : BitVec 56) (len : BitVec 11) (s : State) : Host.Outcome State Fault Refusal :=
  whenOn (fun s =>
    if mgtWaits s addr.toNat len.toNat then s else mgtServe s f 0x22 (.priv 2) (mgtMemRead addr.toNat len.toNat)) s

/-- MEM_WRITE: bytes at a device address. -/
def execMgtMemWrite (f : MgtFrame) (addr : BitVec 56) (bytes : List Byte) (s : State) : Host.Outcome State Fault Refusal :=
  whenOn (fun s =>
    if mgtWaits s addr.toNat bytes.length then s else mgtServe s f 0x23 (.priv 2) (mgtMemWrite addr.toNat bytes)) s

/-- RESET. -/
def execMgtReset (f : MgtFrame) (s : State) : Host.Outcome State Fault Refusal :=
  whenOn (fun s => mgtServe s f 0x30 (.priv 3) mgtReset) s

/-- STATUS. -/
def execMgtStatus (f : MgtFrame) (s : State) : Host.Outcome State Fault Refusal :=
  whenOn (fun s => mgtServe s f 0x31 .open_ (fun s => (0, statusBody s, s))) s

/-- MGT_LINK_UP: acquisition has completed. -/
def execMgtLinkUp (s : State) : Host.Outcome State Fault Refusal :=
  whenOn (fun s => if laneFit s 46 then wrF (romClocks s) A.MGT_STATUS 0 0 1 else s) s

/-- MGT_LINK_DOWN. -/
def execMgtLinkDown (s : State) : Host.Outcome State Fault Refusal := whenOn mgtDown s

end Sys2Proof.Machine
end

