-- ==== Sys2Proof/Machine/Boot.lean ====
section
/-!
DEFINITION. Images and boot: transfer, the checks of Table 17.5, configuration, fuse commands, and the stages from the ROM to
READY (R487 to R496, R503, R532 to R535).
-/

namespace Sys2Proof.Machine

/-! ### Staging (R490, R495) -/

/-- FW_STATUS.stage. -/
def fwStage (s : State) : Nat := rdF s A.FW_STATUS 3 0

/-- The ROM runs: the cores have not been loaded. -/
def underRom (s : State) : Bool := decide (fwStage s ≤ 2)

/-- Where the firmware image, the configuration image and a previewed image lie in the firmware region. -/
def fwCopy : Nat := 0x2FC0000000
/-- The configuration image. -/
def cfgCopy : Nat := 0x2FC8000000
/-- A previewed image. -/
def previewCopy : Nat := 0x2FD0000000

/-- The address of offset `o` of an image in its staging area. -/
def stageAddr (s : State) (kind o : Nat) : Nat :=
  if underRom s = false then previewCopy + o
  else if kind = 2 then scratchBase 2 + o
  else if o < 0x3000000 then scratchBase 0 + o
  else scratchBase 1 + (o - 0x3000000)

/-- The first `n` staged bytes of an image. -/
def stagedBytes (s : State) (kind n : Nat) : List Byte := (List.range n).map (fun o => memByte s (stageAddr s kind o))

/-- Every byte of an image of `n` bytes lies in a received span. -/
def allReceived (got : List (Nat × Nat)) (n : Nat) : Bool :=
  let upTo := (sortBy (fun a b => decide (a.1 < b.1)) got).foldl (fun e g => if g.1 ≤ e then max e (g.1 + g.2) else e) 0
  decide (n ≤ upTo)

/-! ### The header and its sections (Tables 17.3 and 17.4) -/

/-- A section of an image. -/
structure Section where
  type : Nat
  core : Nat
  off : Nat
  len : Nat
  opening : Nat
  closing : Nat
  deriving DecidableEq, Repr

/-- Bytes of an image from an offset are zero. -/
def zeroAt (b : List Byte) (off n : Nat) : Bool := ((b.drop off).take n).all (· == 0)

/-- Section table entry `i`. -/
def sectionAt (b : List Byte) (i : Nat) : Section :=
  let e := b.drop (3200 + 32 * i)
  { type := leAt e 0 1, core := leAt e 1 1, off := leAt e 4 4, len := leAt e 8 4, opening := leAt e 16 4, closing := leAt e 20 4 }

/-- The sections of an image. -/
def sectionsOf (b : List Byte) : List Section := (List.range (leAt b 13 1)).map (sectionAt b)

/-- The content of the first section of a type. -/
def sectionBytes (b : List Byte) (type : Nat) : Option (List Byte) :=
  ((sectionsOf b).find? (fun x => x.type == type)).map (fun x => (b.drop x.off).take x.len)

/-- An entry's own fields are valid. -/
def sectionEntryOk (b : List Byte) (n i : Nat) : Bool :=
  let x := sectionAt b i
  let e := 3200 + 32 * i
  zeroAt b (e + 2) 2 && zeroAt b (e + 24) 8 && decide (4096 ≤ x.off ∧ x.off % 64 = 0 ∧ x.off + x.len ≤ n) &&
    (if x.type = 1 then decide (x.core ≤ 6) else zeroAt b (e + 12) 12)

/-- The sections are of types permitted for the kind, in the counts of Table 17.4. -/
def countsOk (kind : Nat) (l : List Section) : Bool :=
  let n (t : Nat) : Nat := l.countP (fun x => x.type == t)
  if kind = 1 then
    l.all (fun x => decide (1 ≤ x.type ∧ x.type ≤ 3)) && n 2 == 1 && n 3 == 1 &&
      (List.range 7).all (fun c => l.countP (fun x => x.type == 1 && x.core == c) == 1)
  else
    l.all (fun x => decide (0x10 ≤ x.type ∧ x.type ≤ 0x13)) && n 0x11 == 1 && decide (n 0x10 ≤ 1 ∧ n 0x12 ≤ 1 ∧ n 0x13 ≤ 1)

/-- No two sections overlap. -/
def apart : List Section → Bool
  | [] => true
  | x :: t => t.all (fun y => decide (x.off + x.len ≤ y.off ∨ y.off + y.len ≤ x.off)) && apart t

/-- Step 1 of Table 17.5 on the image of a transfer. -/
def wellFormedImage (b : List Byte) (kind n : Nat) : Bool :=
  let k := leAt b 13 1
  leAt b 0 2 == 1 && leAt b 2 1 == kind && leAt b 4 4 == n && decide (n % 64 = 0 ∧ 1 ≤ k ∧ k ≤ 16 ∧ leAt b 12 1 ≤ 63) &&
    zeroAt b 15 1 && zeroAt b 32 32 && zeroAt b 1857 63 && zeroAt b 3712 384 && zeroAt b (3200 + 32 * k) (32 * (16 - k)) &&
    (List.range k).all (sectionEntryOk b n) && countsOk kind (sectionsOf b) && apart (sectionsOf b)

/-! ### The checks (Table 17.5) -/

/-- The measurement of an image (R488). -/
def measure (b : List Byte) : List Byte := padTo 64 (Config.shake256 64 (b.take 1920 ++ b.drop 3200))

/-- The signer's key of an image. -/
def signerKey (b : List Byte) : List Byte := (b.drop 64).take 1793

/-- Step 3: the signer is known for the kind. -/
def signerOk (s : State) (b : List Byte) (kind : Nat) : Bool :=
  let signer := leAt b 3 1
  let hash := padTo 32 (Config.shake256 32 (signerKey b))
  let none_ := (List.range 4).all (fun i => (smGet (fun _ => none) s.fuses.owners i).isNone)
  if kind = 1 then signer == 0 && hash == Config.romAnchor
  else if signer = 0 then none_ && hash == Config.romAnchor
  else
    decide (signer ≤ 4) && !bitN s.fuses.revoked (signer - 1) &&
      smGet (fun _ => none) s.fuses.owners (signer - 1) == some hash &&
      ((sectionBytes b 0x13).isNone || bitN (slotPrivs s (signer - 1)) 0)

/-- The first failing step, or 0. -/
def imageStatus (s : State) (x : Transfer) (b : List Byte) : Nat :=
  if wellFormedImage b x.kind x.len = false then St.IMAGE_MALFORMED
  else if bitN (leAt b 14 1) s.fuses.grade = false ∨ (zeroAt b 16 16 = false ∧ leAt b 16 16 ≠ s.fuses.serial) then
    St.IMAGE_INCOMPATIBLE
  else if signerOk s b x.kind = false then St.IMAGE_SIGNER_UNKNOWN
  else if allReceived x.got x.len = false then St.IMAGE_INCOMPLETE
  else if Config.falconVerify (signerKey b) (measure b) ((b.drop 1920).take 1280) = false then St.IMAGE_SIGNATURE_INVALID
  else if leAt b 12 1 < s.fuses.counter then St.IMAGE_ROLLBACK
  else 0

/-! ### Fuse commands (R495) -/

/-- One fuse command: the fuses after it, or nothing where it cannot be executed. -/
def fuseCommand (f : Fuses) (e hash : List Byte) : Option Fuses :=
  let slot := leAt e 1 1
  let privs := leAt e 2 1
  let op := leAt e 0 1
  if zeroAt e 3 5 = false then none
  else if op = 1 then
    if slot < 4 ∧ privs < 16 ∧ hash.length = 32 then
      match smGet (fun _ => none) f.owners slot with
      | none => some { f with owners := smSet (fun _ => none) f.owners slot (some hash), privs := f.privs ||| privs * 16 ^ slot }
      | some h => if h = hash ∧ f.privs / 16 ^ slot % 16 = privs then some f else none
    else none
  else if op = 2 then (if slot < 4 then some { f with revoked := f.revoked ||| 2 ^ slot } else none)
  else if op = 3 then some { f with debugOff := true }
  else if op = 4 then some { f with split := true }
  else none

/-- A list of fuse commands: whether all were executed, and the fuses. -/
def fuseCommands : Nat → Fuses → List Byte → Bool × Fuses
  | 0, f, b => (b.isEmpty, f)
  | n + 1, f, b =>
    if b.isEmpty then (true, f)
    else
      let long := leAt b 0 1 == 1
      match fuseCommand f (padTo 8 b) (if long then (b.drop 8).take 32 else []) with
      | some g => if b.length < 8 then (false, f) else fuseCommands n g (b.drop (if long then 40 else 8))
      | none => (false, f)

/-- The fuse commands of a configuration image; `fails` tells that a fuse does not verify after blowing. -/
def runFuses (s : State) (b : List Byte) (fails : Bool) : Bool × State :=
  match sectionBytes b 0x13 with
  | none => (true, s)
  | some l =>
    let r := fuseCommands l.length s.fuses l
    if fails && r.2 != s.fuses then (false, s) else (r.1, { s with fuses := r.2 })

/-! ### Stages 2 and 3 (R492, R493, R503, R533) -/

/-- Set the status of the last image, or of what stopped boot. -/
def setImageStatus (s : State) (st : Nat) : State := wrF s A.FW_STATUS 31 16 st

/-- Boot stops (R535). -/
def bootStop (s : State) (st : Nat) : State := { setImageStatus s st with sec := { s.sec with stopped := true } }

/-- What the device-parameter section sets (R493). -/
def applyParameters (s : State) (p : List Byte) : State :=
  let ring := leAt p 0 1
  let hash := (p.drop 16).take 32
  let s := wr s A.ID_RING (ring + 256 * b2n (ring != 0))
  let peers := (List.range 3).map (fun i => (i, (p.drop (48 + 32 * i)).take 32))
  let s := wrF s A.CLS_STATUS 0 0 (b2n (s.fuses.split || bitN (leAt p 1 1) 0))
  { s with sec := { s.sec with debugOk := bitN (leAt p 1 1) 1, hostKey := if leNat hash = 0 then none else some hash,
                               peers := smSetAll (fun _ => []) [] peers } }

/-- The wrapped secrets of a configuration image (R503). -/
def applySecrets (s : State) (w : List Byte) : State :=
  let key := Config.kdf (Config.kemDecaps (dkSeed s) (w.take 1568)) (cfgMeasure s) [0x57, 0x53]
  (Config.wrappedSecrets key (w.drop 1568)).foldl (fun s e =>
    if e.1 ≤ 32 then setSec s e.1 { secOf s e.1 with key := some e.2 } else s) s

/-- The cores and the sentry program are loaded, and every domain runs: stage 3. -/
def loadCores (s : State) : State :=
  let b := stagedBytes s 1 ((s.sec.fw.map (·.len)).getD 0)
  let s := (List.range 25).foldl (fun s d => wr s (A.CLK_STATUS d) (clkStatus 0)) s
  let s := (sectionsOf b).foldl (fun s x =>
    if x.type = 1 then wr s (A.WD_CFG x.core) (x.opening % 65536 + 65536 * (x.closing % 65536)) else s) (wr s A.CLK_MON 7)
  let prog := (sectionBytes b 2).getD []
  let s := { s with sntMem := putBytes s.sntMem 0 prog, sentry := { s.sentry with digest := padTo 64 (Config.shake256 64 prog) },
                    bist := { s.bist with expected := (sectionBytes b 3).getD [] }, sec := { s.sec with xfer := none, cfgWait := none } }
  let s := wrF (wr s A.SNT_PROG_SIZE prog.length) A.FW_STATUS 3 0 3
  let bits := 1 + 8 * b2n s.fuses.debugOff + 16 * b2n s.sec.cfg.isSome + 32 * b2n (!multiDevice s)
  let s := renewChallenge (wr s A.SEC_STATUS bits)
  (List.range 7).foldl startCore s

/-- Boot goes on without a configuration image. -/
def noConfig (s : State) : State := loadCores (wrF s A.CLS_STATUS 0 0 (b2n s.fuses.split))

/-- A configuration image has been accepted. -/
def configAccepted (s : State) (b : List Byte) (fails : Bool) : State :=
  match runFuses s b fails with
  | (false, s) => bootStop s St.FUSE_WRITE_FAIL
  | (true, s) =>
    let s := applyParameters s ((sectionBytes b 0x11).getD [])
    let s := match sectionBytes b 0x12 with
      | some w => applySecrets s w
      | none => s
    loadCores s

/-! ### Image requests (R490 to R492) -/

/-- The kind of image the device waits for; none outside ROM boot, where either is checked. -/
def kindExpected (s : State) (kind : Nat) : Bool :=
  if fwStage s = 0 then kind == 1 else if fwStage s = 2 then kind == 2 else decide (kind = 1 ∨ kind = 2)

/-- A length that Table 17.3 permits. -/
def lengthOk (kind n : Nat) : Bool := decide (n % 64 = 0 ∧ 8192 ≤ n ∧ n ≤ (if kind = 1 then 0x4000000 else 0x100000))

/-- A transfer is bound to another address. -/
def boundElsewhere (s : State) (f : MgtFrame) : Bool :=
  match s.sec.xfer with
  | some x => x.src != f.src.toNat
  | none => false

/-- IMAGE_BEGIN. -/
def imageBegin (f : MgtFrame) (kind n : Nat) (s : State) : Nat × List Byte × State :=
  if boundElsewhere s f then (St.IMAGE_BUSY, [], s)
  else if s.sec.stopped ∧ underRom s = true ∨ kindExpected s kind = false then freeRefusal s
  else if kind = 2 ∧ n = 0 ∧ fwStage s = 2 then (0, [], noConfig s)
  else if lengthOk kind n = false then (St.IMAGE_TOO_LARGE, [], { s with sec := { s.sec with cfgWait := none } })
  else
    let x : Transfer := { src := f.src.toNat, kind := kind, len := n, lastAt := s.ridge }
    (0, [], { romClocks s with sec := { s.sec with xfer := some x, cfgWait := none } })

/-- The transfer bound to a frame's sender. -/
def transferOf (s : State) (f : MgtFrame) : Option Transfer :=
  match s.sec.xfer with
  | some x => if x.src = f.src.toNat then some x else none
  | none => none

/-- IMAGE_CHUNK. -/
def imageChunk (f : MgtFrame) (o : Nat) (d : List Byte) (s : State) : Nat × List Byte × State :=
  if boundElsewhere s f then (St.IMAGE_BUSY, [], s)
  else
    match transferOf s f with
    | none => freeRefusal s
    | some x =>
      let s := { s with sec := { s.sec with xfer := some { x with lastAt := s.ridge } } }
      let n := d.length
      let fits := decide (o % 64 = 0 ∧ 1 ≤ n ∧ n ≤ 1472 ∧ o + n ≤ x.len ∧ (n % 64 = 0 ∨ o + n = x.len))
      if fits = false then freeRefusal s
      else
        let m := (List.range n).foldl (fun m i => smSet memDefault m (stageAddr s x.kind (o + i)) (d.getD i 0)) s.mem
        (0, [], { s with mem := m, sec := { s.sec with xfer := some { x with lastAt := s.ridge, got := x.got ++ [(o, n)] } } })

/-- What a successful IMAGE_END answers: the version and M. -/
def imageBody (b : List Byte) : List Byte := leBytes 4 (leAt b 8 4) ++ zeros 4 ++ measure b

/-- What an accepted image leaves. -/
def imageInfo (b : List Byte) (n : Nat) : ImageInfo := { m := measure b, version := leAt b 8 4, svn := leAt b 12 1, len := n }

/-- An image is refused. -/
def imageRefused (s : State) (st : Nat) : State :=
  let s := setImageStatus (raise s 0x038 1) st
  if st = St.IMAGE_SIGNATURE_INVALID then authFail s else s

/-- An image is accepted under the ROM. -/
def imageAccepted (s : State) (x : Transfer) (b : List Byte) (fails : Bool) : State :=
  let i := imageInfo b x.len
  let s := setImageStatus s 0
  if x.kind = 1 then
    let s := wr (wr s A.FW_VERSION i.version) A.FW_SVN (i.svn + 256 * s.fuses.counter)
    wrF { s with sec := { s.sec with fw := some i, cfgWait := some s.ridge } } A.FW_STATUS 3 0 2
  else configAccepted (wr { s with sec := { s.sec with cfg := some i } } A.CFG_VERSION i.version) b fails

/-- IMAGE_END: the image is checked; outside ROM boot it is only reported (R495). -/
def imageEnd (f : MgtFrame) (fails : Bool) (s : State) : Nat × List Byte × State :=
  if boundElsewhere s f then (St.IMAGE_BUSY, [], s)
  else
    match transferOf s f with
    | none => freeRefusal s
    | some x =>
      let b := stagedBytes s x.kind x.len
      let st := imageStatus s x b
      let s := { s with sec := { s.sec with xfer := none } }
      let body := if st = 0 then imageBody b else []
      if underRom s then (st, body, if st = 0 then imageAccepted s x b fails else imageRefused s st)
      else
        let s := bump { s with sec := { s.sec with preview := measure b } } A.FW_PREVIEWS 1
        (st, body, raise (if st = 0 then setImageStatus s 0 else imageRefused s st) 0x038 2)

/-- What IMAGE_* requires of its sender. -/
def imageNeed (s : State) : MgtNeed := if underRom s then .open_ else .priv 0

/-- A transfer has received no request for 2 s. -/
def imageTimeout (s : State) : State :=
  match s.sec.xfer with
  | some x =>
    if x.lastAt + 2000000000 ≤ s.ridge then setImageStatus { s with sec := { s.sec with xfer := none } } St.IMAGE_TIMEOUT else s
  | none => s

/-- 2 s have passed since the firmware image without an IMAGE_BEGIN of kind 0x02. -/
def configTimeout (s : State) : State :=
  match s.sec.cfgWait with
  | some t => if fwStage s = 2 ∧ t + 2000000000 ≤ s.ridge then noConfig s else s
  | none => s

/-! ### Stages 4 to 6 (R387, R476, R494, R533, R534) -/

/-- An image in the firmware region. -/
def copyImage (s : State) (kind a : Nat) (i : Option ImageInfo) : State :=
  match i with
  | some x => memPut s a (((List.range x.len).map (fun o =>
      memByte s (if kind = 2 then scratchBase 2 + o else if o < 0x3000000 then scratchBase 0 + o
        else scratchBase 1 + (o - 0x3000000)))))
  | none => s

/-- DRAM training ends: the staged images are copied, or boot stops with the channels that failed. -/
def trainingEnds (s : State) (failed : Nat) : State :=
  if s.sec.stopped ∨ ¬ (fwStage s = 3 ∨ fwStage s = 4) then s
  else
    let s := (List.range 16).foldl (fun s ch => wrF s (A.CH_STATUS ch) 0 0 (b2n (!bitN failed ch))) s
    let s := wrF s A.MEM_STATUS 15 0 (65535 - failed)
    if failed = 0 then
      wrF (copyImage (copyImage s 1 fwCopy s.sec.fw) 2 cfgCopy s.sec.cfg) A.FW_STATUS 3 0 5
    else bootStop (wrF s A.FW_STATUS 3 0 4) St.MEM_TRAIN_FAIL

/-- Power-on BIST finds a unit bad: fenced with a C3 record, or C5 where it has no fence field (R476). -/
def bistFound (s : State) (u : Nat) : State :=
  let r : Report := { source := 0x14A, status := St.BIST_FAIL, detail := u, detected := s.ridge, placement := placement s }
  let s := wrF s (A.BIST_UNIT_STATUS u) 10 10 1
  if u < 0x20 then
    collect { s with sec := { s.sec with fenced := s.sec.fenced + 1 } } r
  else
    let x := newRecord (countReport s 0x14A 5) r 5
    forceSafe x.2 5 0x14A St.BIST_FAIL (recordBytes x.1)

/-- An entry of the register list cannot be written: no RWK or RWL field is named, or the page refuses it (R494). -/
def entryRefused (s : State) (a v : Nat) : Bool :=
  if a % 0x1000 = 0x008 then !hasHeader (a / 0x1000) || v &&& 0xFFFFFEF0 != 0
  else
    match findReg a with
    | none => true
    | some (row, _) =>
      !(row.acc == .rwk || row.acc == .rwl) || seqFrozen s a || frozenByUse s a || rangeBad s a v || (mergeFields row (rd s a) v).2

/-- The page has set CONFIG_REJECTED. -/
def pageRejects (s : State) (p : Nat) : Bool :=
  match configRejectedBit p with
  | some b => bitN (evtFlags s p) b
  | none => false

/-- The register list in order: the index of the entry that stops boot, if any, and the state (R494). -/
def writeList : Nat → List Byte → State → Option Nat × State
  | i, b0 :: b1 :: b2 :: b3 :: v0 :: v1 :: v2 :: v3 :: t, s =>
    let w := leNat [b0, b1, b2, b3]
    let a := 0x1000 * (w % 0x1000) + fldN w 23 12
    let v := leNat [v0, v1, v2, v3]
    if fldN w 31 24 ≠ 0 ∨ entryRefused s a v = true then (some i, s)
    else
      let s := if a % 0x1000 = 0x008 then writePageCtl s (a / 0x1000) v true else applyReg s (.firmware 0) a v
      if pageRejects s (a / 0x1000) then (some i, s) else writeList (i + 1) t s
  | _, [], s => (none, s)
  | i, _, s => (some i, s)

/-- LOCK on every page with the header (R91). -/
def lockAll (s : State) : State :=
  (List.range 0x300).foldl (fun s p => if hasHeader p then writeLock s p 1 else s) s

/-- Power-on BIST ends with the units that failed; the register list is written, and LOCK set in a multi-device
configuration. -/
def bistEnds (s : State) (failed : List Nat) : State :=
  if s.sec.stopped || fwStage s != 5 || s.sec.configured then s
  else
    let s := { s with mem := s.mem.filter (fun c => decide (0x1000000000 ≤ c.1)),
                      ecc := s.ecc.filter (fun c => decide (0x1000000000 ≤ c.1)),
                      sntMem := s.sntMem.filter (fun c => decide (c.1 < rd s A.SNT_PROG_SIZE)) }
    let s := (List.range 48).foldl lapseRestart s
    let s := (failed.filter (fun u => (bistUnit u).isSome)).dedup.foldl bistFound s
    let list := match s.sec.cfg with
      | some i => (sectionBytes (memBytes s cfgCopy i.len) 0x10).getD []
      | none => []
    match writeList 0 list s with
    | (some i, s) => bootStop (wrF s A.FW_STATUS 15 4 i) St.CONFIG_INVALID
    | (none, s) =>
      let s := if multiDevice s then lockAll s else s
      { s with sec := { s.sec with configured := true } }

/-- READY (R534): after boot, or after a wake from H4. -/
def readyPod (s : State) (wake : Bool) : OutPod :=
  { kind := 9, cls := clsQ, operation := 0x0F80,
    body := leBytes 4 (rd s A.FW_VERSION) ++ leBytes 4 (rd s A.CFG_VERSION) ++ leBytes 8 s.ridge ++
      leBytes 4 ((s.ridge + 2000000) / 1000000) ++ leBytes 2 s.sec.fenced ++ leBytes 2 (b2n wake) ++ zeros 8 }

/-- Boot completes: stage 6. -/
def bootComplete (s : State) : State :=
  if s.sec.stopped || fwStage s != 5 || !s.sec.configured then s
  else
    let s := raise (wrF (wrF s A.PM_STATUS 8 8 1) A.FW_STATUS 3 0 6) 0x010 0x10
    let s := lanternsDue { s with lantern := { s.lantern with booted := true } }
    readyToRing { s with sec := { s.sec with ready := some (readyPod s false) } }

/-! ### Commands -/

/-- IMAGE_BEGIN. -/
def execImageBegin (f : MgtFrame) (kind : BitVec 8) (len : Word) (s : State) : Host.Outcome State Fault Refusal :=
  whenOn (fun s => mgtServe s f 0x02 (imageNeed s) (imageBegin f kind.toNat len.toNat)) s

/-- IMAGE_CHUNK. -/
def execImageChunk (f : MgtFrame) (off : Word) (data : List Byte) (s : State) : Host.Outcome State Fault Refusal :=
  whenOn (fun s => mgtServe s f 0x03 (imageNeed s) (imageChunk f off.toNat data)) s

/-- IMAGE_END; `fuseFails` tells that a fuse does not verify after blowing. -/
def execImageEnd (f : MgtFrame) (fuseFails : Bool) (s : State) : Host.Outcome State Fault Refusal :=
  whenOn (fun s => mgtServe s f 0x04 (imageNeed s) (imageEnd f fuseFails)) s

/-- IMAGE_TIMEOUT: 2 s without a request of the transfer. -/
def execImageTimeout (s : State) : Host.Outcome State Fault Refusal := whenOn imageTimeout s

/-- CONFIG_WAIT_TIMEOUT: 2 s without a configuration image. -/
def execConfigWaitTimeout (s : State) : Host.Outcome State Fault Refusal := whenOn configTimeout s

/-- DRAM_TRAINING_DONE: with the channels that failed. -/
def execDramTrainingDone (failed : BitVec 16) (s : State) : Host.Outcome State Fault Refusal :=
  whenOn (fun s => trainingEnds s failed.toNat) s

/-- POWER_ON_BIST_DONE: with the units that failed. -/
def execPowerOnBistDone (failed : List (BitVec 6)) (s : State) : Host.Outcome State Fault Refusal :=
  whenOn (fun s => bistEnds s (failed.map (·.toNat))) s

/-- BOOT_COMPLETE: calibration is over, and stage 6 begins. -/
def execBootComplete (s : State) : Host.Outcome State Fault Refusal := whenOn bootComplete s

end Sys2Proof.Machine
end

