-- ==== Sys2Proof/Machine/PowerReset.lean ====
section
/-!
DEFINITION. Resets, hold level H4, the end of level conditions, and the entries of a replay (R358, R419, R460, R473, R516,
R531, R532).
-/

namespace Sys2Proof.Machine

/-! ### Reset (R419, R532) -/

/-- Everything but the fuses is cleared. What the device has sent, the commands that wait and the count of free values are no
state of the device. -/
def resetDevice (s : State) : State :=
  { State.reset with
    pending := s.pending, freeCount := s.freeCount, fuses := s.fuses, hostMem := s.hostMem, msixOut := s.msixOut,
    portOut := s.portOut, glOut := s.glOut, hostOut := s.hostOut, mgtOut := s.mgtOut }

/-- 1 ms after a verified RESET the device resets, and the ROM starts. -/
def resetExecute (s : State) : State :=
  match s.mgt.resetAt with
  | some t => if t ≤ s.ridge then romClocks (resetDevice s) else s
  | none => s

/-! ### Hold level H4 (R531) -/

/-- PM_SLEEP is refused. -/
def sleepRefused (s : State) (no : Nat) : Bool :=
  (List.range 8).any (fgOn s) || anyRuns s || s.pods.rx.any (fun p => p.no != no) || rrMode s != 0 || safeState s ||
    multiDevice s || s.mgt.session.isSome

/-- Contents that H4 loses: scratch, page cache and weight buffers. -/
def loseScratch (s : State) : State :=
  { s with
    mem := s.mem.filter (fun c => decide (0x1000000000 ≤ c.1)), ecc := s.ecc.filter (fun c => decide (0x1000000000 ≤ c.1))
    arrays := smMap (fun _ => {}) s.arrays (fun x => { x with resident := [] }) }

/-- The device goes into H4. -/
def goToSleep (s : State) (wake : Nat) : State :=
  let s := lanternsOff (loseScratch (bump s A.PM_SLEEPS 1))
  let s := (List.range 16).foldl (fun s ch => wrF s (A.CH_STATUS ch) 2 2 1) s
  { s with power := .asleep, sec := { s.sec with wakeAt := if wake = 0 then none else some wake } }

/-- PM_SLEEP, a running control pod. -/
def pmSleep (s : State) (no : Nat) : State :=
  match takePod s no 4 (isControl 0xA 0x10) with
  | none => s
  | some (p, s) =>
    if p.hdr.length ≠ 2 ∨ leAt p.body 8 8 ≠ 0 then podComplete s no St.RESERVED_NONZERO
    else if sleepRefused s no then podComplete s no St.SLEEP_REFUSED
    else goToSleep (podComplete s no 0) (leAt p.body 0 8)

/-- Every link has gone down in H4; each trains again (R401, R410). -/
def linksFell (s : State) : State :=
  let s := (List.range 32).foldl (fun s n => sensorDown s n .other) s
  let s := (List.range 3).foldl (fun s p => glDown s p St.GUYLINE_DOWN 0 []) s
  mgtDown (hostDown s [])

/-- The device wakes from H4 and sends READY. -/
def wakeUp (s : State) : State :=
  let s := { s with power := .on, sec := { s.sec with wakeAt := none }, rf := { s.rf with wakes := [] } }
  let s := (List.range 16).foldl (fun s ch => wrF s (A.CH_STATUS ch) 2 2 0) s
  let s := (List.range 25).foldl (fun s i =>
    deferredApplies (if holdLevel s (i + 1) = 0 then s else wr s (A.CLK_STATUS i) (clkStatus 0)) (i + 1)) s
  let s := lanternsDue (linksFell ((List.range 7).foldl startCore s))
  readyToRing { s with sec := { s.sec with ready := some (readyPod s true) } }

/-- The wake count has come, or light is on a lane that wakes. -/
def h4Wake (s : State) (light : Bool) : State :=
  let due := s.sec.wakeAt.any (fun t => decide (t ≤ s.ridge))
  if light || due then wakeUp s else s

/-! ### Level conditions that end (R460, R473, R516) -/

/-- What the state knows of a level source's condition: it still holds. -/
def levelHolds (s : State) (i : Nat) : Bool :=
  if 0x040 ≤ i ∧ i < 0x060 then !rdB s (A.PORT_STATUS (i - 0x040)) 0
  else if 0x120 ≤ i ∧ i < 0x130 then
    decide (rdF s (A.CH_CE_LIMIT (i - 0x120)) 15 0 < smGet (fun _ => 0) s.corrections (i - 0x120))
  else if i = 0x131 then decide (190 ≤ dramMax s)
  else if i = 0x132 then decide (200 ≤ dramMax s)
  else if i = 0x138 then !rdB s A.U4_STATUS 0
  else if 0x139 ≤ i ∧ i ≤ 0x13B then !rdB s (A.GL_STATUS (i - 0x139)) 0
  else if i = 0x13C then !ridgeLocked s
  else if i = 0x148 ∨ i = 0x149 then (List.range 48).any (fun u => rdB s (A.BIST_UNIT_STATUS u) (i - 0x140))
  else if i = 0x15B then decide (230 ≤ sgn 16 (rdF s A.DIE_TEMP 15 0))
  else if i = 0x15C then s.pm.overAt.isSome
  else if i = 0x1F0 then locked s 0x2C0
  else false

/-- What else is right again once a condition has ended. -/
def levelRestores (s : State) (i : Nat) : State :=
  if i = 0x158 then
    lanternsDue (wrF { s with lantern := { s.lantern with clockLost := false } } A.CLK_MON 0 0 1)
  else if i = 0x159 then wrF s A.CLK_MON 1 1 1
  else if i = 0x15A then
    (List.range 25).foldl (fun s d =>
      if pllDomain (d + 1) ∧ decide (holdLevel s (d + 1) ≤ 1) = true ∧ (rdB s (A.CLK_STATUS d) 3 = true ∨ holdLevel s (d + 1) = 1) then
        wrF s (A.CLK_STATUS d) 4 4 1 else s) s
  else if i = 0x1F0 then wr s A.FC_SELF_STATUS 3
  else s

/-- The condition of a level source has ended. -/
def faultLevelClear (s : State) (i : Nat) : State :=
  if levelActive s i && levelSources.contains i && !levelHolds s i then levelRestores (levelClear s i) i else s

/-! ### Replay (R182, R358) -/

/-- Bytes with a 64-bit time of theirs moved by Δ, in the byte order `le` tells. -/
def moveTime (delta : Int) (le : Bool) (b : List Byte) (off : Nat) : List Byte :=
  let t : Nat := (((if le then leAt b off 8 else beAt b off 8 : Nat) : Int) + delta).toNat % 2 ^ 64
  b.take off ++ (if le then leBytes 8 t else (leBytes 8 t).reverse) ++ b.drop (off + 8)

/-- The absolute times within an entry move with it, so that what follows from them is as recorded (R358, R359, log entry
158): a pod's launch_ridge, the deadlines of a batch's peas, and a point packet's base_time. -/
def moveEntry (delta : Int) (kind : Nat) (b : List Byte) : List Byte :=
  if kind = 1 then (if leAt b 0 1 % 16 = 2 ∧ 24 ≤ b.length then moveTime delta false b 16 else b)
  else if kind = 2 then
    let h := parseHeader b
    let b := if timed h then moveTime delta true b 24 else b
    if h.kind = 3 ∧ h.operation = 1 then
      (List.range (min (leAt b 32 1) (h.length - 3))).foldl (fun b i =>
        let o := 80 + 32 * i
        if leAt b o 8 = 0 then b else moveTime delta true b o) b
    else b
  else b

/-- What an entry of the record ring does when it takes effect. -/
def replayEffect (s : State) (kind src aux : Nat) (b : List Byte) : State :=
  if kind = 1 then tsfDeliver s src b
  else if kind = 2 then podAdmit s src b
  else if kind = 3 then
    let d := if src = 0 then (0, s) else drawFree s
    (busWrite d.2 (if src = 0 then .host else .remote (BitVec.ofNat 8 d.1)) aux b).2
  else if kind = 4 then { s with rr := { s.rr with voids := s.rr.voids ++ [(src, aux % 256, aux / 2 ^ 32)] } }
  else s

/-- The next entry of a replay takes effect at its stamp plus Δ; the last one ends the replay. -/
def replayEntry (s : State) : State :=
  match s.rr.delta with
  | none => s
  | some delta =>
    if s.rr.ended then s
    else
      match rrEntry s s.rr.pos with
      | none => replayDone { s with rr := { s.rr with ended := true } }
      | some (t, kind, src, aux, b) =>
        if (s.ridge : Int) < (t : Int) + delta then s
        else if kind = 3 ∧ encWaits s aux b.length = true then s
        else
          let next := (s.rr.pos + rrLen b.length) % rrUnits s
          let last := next == rd s A.RR_HEAD
          let s := replayEffect s kind src aux (moveEntry delta kind b)
          replayDone { s with rr := { s.rr with pos := next, ended := last } }

/-! ### Commands -/

/-- POWER_ON_RESET: a rail has stayed below its POR threshold for 1 µs; this holds whatever the device does. -/
def execPowerOnReset (s : State) : Host.Outcome State Fault Refusal := .next { resetDevice s with power := .held }

/-- POWER_GOOD: reset is released, and the ROM starts. -/
def execPowerGood (s : State) : Host.Outcome State Fault Refusal :=
  .next (if s.power = .held then endCommand s (romClocks (resetDevice s)) else s)

/-- RESET_EXECUTE: 1 ms after a verified RESET. -/
def execResetExecute (s : State) : Host.Outcome State Fault Refusal := whenOn resetExecute s

/-- PM_SLEEP: a control pod of the base section, by arrival number. -/
def execPmSleep (no : Nat) (s : State) : Host.Outcome State Fault Refusal := whenOn (fun s => pmSleep s no) s

/-- H4_WAKE: the wake count, or light on lane 44, 45 or 46. -/
def execH4Wake (light : Bool) (s : State) : Host.Outcome State Fault Refusal :=
  .next (if s.power = .asleep then endCommand s (h4Wake s light) else s)

/-- FAULT_LEVEL_CLEAR: the condition of a level source has ended. -/
def execFaultLevelClear (i : BitVec 9) (s : State) : Host.Outcome State Fault Refusal :=
  whenOn (fun s => faultLevelClear s i.toNat) s

/-- REPLAY_ENTRY: the next entry of the record ring. -/
def execReplayEntry (s : State) : Host.Outcome State Fault Refusal := whenOn replayEntry s

end Sys2Proof.Machine
end

