-- ==== Sys2Proof/Machine/Dispatch.lean ====
section
/-!
DEFINITION. exec: one arm per command, each arm one direct call of the command's meaning.
-/

namespace Sys2Proof.Machine

def exec (i : Instr) (s : State) : Host.Outcome State Fault Refusal :=
  match i with
  | .powerOnReset => Sys2Proof.Machine.execPowerOnReset s
  | .powerGood => Sys2Proof.Machine.execPowerGood s
  | .railWindowFault rail above => Sys2Proof.Machine.execRailWindowFault rail above s
  | .clockLost snt stopped => Sys2Proof.Machine.execClockLost snt stopped s
  | .pllUnlocked d => Sys2Proof.Machine.execPllUnlocked d s
  | .aonFault => Sys2Proof.Machine.execAonFault s
  | .imageBegin f kind len => Sys2Proof.Machine.execImageBegin f kind len s
  | .imageChunk f off data => Sys2Proof.Machine.execImageChunk f off data s
  | .imageEnd f fuseFails => Sys2Proof.Machine.execImageEnd f fuseFails s
  | .imageTimeout => Sys2Proof.Machine.execImageTimeout s
  | .configWaitTimeout => Sys2Proof.Machine.execConfigWaitTimeout s
  | .dramTrainingDone failed => Sys2Proof.Machine.execDramTrainingDone failed s
  | .powerOnBistDone failed => Sys2Proof.Machine.execPowerOnBistDone failed s
  | .bootComplete => Sys2Proof.Machine.execBootComplete s
  | .registerWrite agent addr bytes => Sys2Proof.Machine.execRegisterWrite agent addr bytes s
  | .postedWriteApply page => Sys2Proof.Machine.execPostedWriteApply page s
  | .evtAck agent page mask seq => Sys2Proof.Machine.execEvtAck agent page mask seq s
  | .mbxSelCapture agent page sel => Sys2Proof.Machine.execMbxSelCapture agent page sel s
  | .mbxSelCancel agent page => Sys2Proof.Machine.execMbxSelCancel agent page s
  | .mbxCaptureDone page => Sys2Proof.Machine.execMbxCaptureDone page s
  | .key agent page v => Sys2Proof.Machine.execKey agent page v s
  | .unlockLapse agent page => Sys2Proof.Machine.execUnlockLapse agent page s
  | .lock agent page bit => Sys2Proof.Machine.execLock agent page bit s
  | .updateStrobe agent mask => Sys2Proof.Machine.execUpdateStrobe agent mask s
  | .updateGroupApply g => Sys2Proof.Machine.execUpdateGroupApply g s
  | .podPortWrite off bytes => Sys2Proof.Machine.execPodPortWrite off bytes s
  | .podResync agent v => Sys2Proof.Machine.execPodResync agent v s
  | .podReceive via rrLost => Sys2Proof.Machine.execPodReceive via rrLost s
  | .podStart no => Sys2Proof.Machine.execPodStart no s
  | .originClose no => Sys2Proof.Machine.execOriginClose no s
  | .originWindowClose origin => Sys2Proof.Machine.execOriginWindowClose origin s
  | .retainCfg agent v => Sys2Proof.Machine.execRetainCfg agent v s
  | .bar2Access off acc rrLost => Sys2Proof.Machine.execBar2Access off acc rrLost s
  | .remoteTimeout => Sys2Proof.Machine.execRemoteTimeout s
  | .u4Aperture agent v => Sys2Proof.Machine.execU4Aperture agent v s
  | .functionLevelReset => Sys2Proof.Machine.execFunctionLevelReset s
  | .msixUnmask agent vector v => Sys2Proof.Machine.execMsixUnmask agent vector v s
  | .usb4BlockReceive seq ok jobs => Sys2Proof.Machine.execUsb4BlockReceive seq ok jobs s
  | .hostLinkDown jobs => Sys2Proof.Machine.execHostLinkDown jobs s
  | .hostLinkUp gen4 => Sys2Proof.Machine.execHostLinkUp gen4 s
  | .tsfFrameReceive port frame rrLost => Sys2Proof.Machine.execTsfFrameReceive port frame rrLost s
  | .streamWindowStart port vc => Sys2Proof.Machine.execStreamWindowStart port vc s
  | .fsDeadline port vc => Sys2Proof.Machine.execFsDeadline port vc s
  | .feDeadline port vc => Sys2Proof.Machine.execFeDeadline port vc s
  | .tpDeadline port vc => Sys2Proof.Machine.execTpDeadline port vc s
  | .streamEnable agent port vc v => Sys2Proof.Machine.execStreamEnable agent port vc v s
  | .camSettings no => Sys2Proof.Machine.execCamSettings no s
  | .controlResponse port => Sys2Proof.Machine.execControlResponse port s
  | .camAckTimeout port => Sys2Proof.Machine.execCamAckTimeout port s
  | .settingsApplyRidge port => Sys2Proof.Machine.execSettingsApplyRidge port s
  | .gptpSyncSend port => Sys2Proof.Machine.execGptpSyncSend port s
  | .gptpMessageReceive port msg => Sys2Proof.Machine.execGptpMessageReceive port msg s
  | .sensorLinkUp port => Sys2Proof.Machine.execSensorLinkUp port s
  | .sensorLinkDown port cause => Sys2Proof.Machine.execSensorLinkDown port cause s
  | .mkaFrameReceive port icvOk => Sys2Proof.Machine.execMkaFrameReceive port icvOk s
  | .macsecRekey port => Sys2Proof.Machine.execMacsecRekey port s
  | .oldSaExpire port => Sys2Proof.Machine.execOldSaExpire port s
  | .pipeLine q mainErr tapErr => Sys2Proof.Machine.execPipeLine q mainErr tapErr s
  | .statisticsPod q slot => Sys2Proof.Machine.execStatisticsPod q slot s
  | .ppFormationStart => Sys2Proof.Machine.execPpFormationStart s
  | .ppFormationDone => Sys2Proof.Machine.execPpFormationDone s
  | .batchSubmit no => Sys2Proof.Machine.execBatchSubmit no s
  | .queueReset no => Sys2Proof.Machine.execQueueReset no s
  | .decodeSampleStart q hdr => Sys2Proof.Machine.execDecodeSampleStart q hdr s
  | .decodeSampleDone q pic => Sys2Proof.Machine.execDecodeSampleDone q pic s
  | .decodeDeadline q => Sys2Proof.Machine.execDecodeDeadline q s
  | .decodeConfigApply q => Sys2Proof.Machine.execDecodeConfigApply q s
  | .arrayIssue exec n => Sys2Proof.Machine.execArrayIssue exec n s
  | .weightTileLoad op kt nt fault => Sys2Proof.Machine.execWeightTileLoad op kt nt fault s
  | .arrayTileDone op fault => Sys2Proof.Machine.execArrayTileDone op fault s
  | .abftVerdict op => Sys2Proof.Machine.execAbftVerdict op s
  | .abftLate op => Sys2Proof.Machine.execAbftLate op s
  | .arrayOperationDone op loss => Sys2Proof.Machine.execArrayOperationDone op loss s
  | .ballastEnd c a => Sys2Proof.Machine.execBallastEnd c a s
  | .activityLevelStep c a => Sys2Proof.Machine.execActivityLevelStep c a s
  | .arrFence agent c a v => Sys2Proof.Machine.execArrFence agent c a v s
  | .abftInject agent c v => Sys2Proof.Machine.execAbftInject agent c v s
  | .engineIssue exec e => Sys2Proof.Machine.execEngineIssue exec e s
  | .engineOperationDone c e loss fault => Sys2Proof.Machine.execEngineOperationDone c e loss fault s
  | .engFence agent c e v => Sys2Proof.Machine.execEngFence agent c e v s
  | .engInject agent c e v => Sys2Proof.Machine.execEngInject agent c e v s
  | .scratchScrubPass c complete => Sys2Proof.Machine.execScratchScrubPass c complete s
  | .scrInject agent c v => Sys2Proof.Machine.execScrInject agent c v s
  | .pegCount agent peg v => Sys2Proof.Machine.execPegCount agent peg v s
  | .pegCfg agent peg v => Sys2Proof.Machine.execPegCfg agent peg v s
  | .pegIncWrite agent peg v => Sys2Proof.Machine.execPegIncWrite agent peg v s
  | .rollEnable agent c r ctl => Sys2Proof.Machine.execRollEnable agent c r ctl s
  | .rollAppendReserve c r => Sys2Proof.Machine.execRollAppendReserve c r s
  | .rollAppendCommit c r => Sys2Proof.Machine.execRollAppendCommit c r s
  | .rollCommit agent c r v => Sys2Proof.Machine.execRollCommit agent c r v s
  | .rollRelease agent c r v => Sys2Proof.Machine.execRollRelease agent c r v s
  | .rollReset agent c r => Sys2Proof.Machine.execRollReset agent c r s
  | .seqOpen src => Sys2Proof.Machine.execSeqOpen src s
  | .seqClose src => Sys2Proof.Machine.execSeqClose src s
  | .seqAppend src => Sys2Proof.Machine.execSeqAppend src s
  | .seqStage src => Sys2Proof.Machine.execSeqStage src s
  | .stageStart id => Sys2Proof.Machine.execStageStart id s
  | .stageCopyDone id mismatch => Sys2Proof.Machine.execStageCopyDone id mismatch s
  | .seqRelease src => Sys2Proof.Machine.execSeqRelease src s
  | .seqImportance src => Sys2Proof.Machine.execSeqImportance src s
  | .seqRestore src => Sys2Proof.Machine.execSeqRestore src s
  | .recomputeTimeout ctx pos => Sys2Proof.Machine.execRecomputeTimeout ctx pos s
  | .seqCtl agent v => Sys2Proof.Machine.execSeqCtl agent v s
  | .seqInject agent v => Sys2Proof.Machine.execSeqInject agent v s
  | .graphLoad no => Sys2Proof.Machine.execGraphLoad no s
  | .graphUnload no => Sys2Proof.Machine.execGraphUnload no s
  | .instanceStart slot => Sys2Proof.Machine.execInstanceStart slot s
  | .cycleLaunch g => Sys2Proof.Machine.execCycleLaunch g s
  | .jobFire => Sys2Proof.Machine.execJobFire s
  | .jobComplete exec => Sys2Proof.Machine.execJobComplete exec s
  | .jobTimeout exec => Sys2Proof.Machine.execJobTimeout exec s
  | .cycleDeadline g => Sys2Proof.Machine.execCycleDeadline g s
  | .fgEnable agent g => Sys2Proof.Machine.execFgEnable agent g s
  | .fgDisable agent g => Sys2Proof.Machine.execFgDisable agent g s
  | .detCtl agent v => Sys2Proof.Machine.execDetCtl agent v s
  | .rrRecord agent v => Sys2Proof.Machine.execRrRecord agent v s
  | .rrReplay agent v => Sys2Proof.Machine.execRrReplay agent v s
  | .rrOff agent v => Sys2Proof.Machine.execRrOff agent v s
  | .replayEntry => Sys2Proof.Machine.execReplayEntry s
  | .ringPodWrite r => Sys2Proof.Machine.execRingPodWrite r s
  | .ringWaitExpire r => Sys2Proof.Machine.execRingWaitExpire r s
  | .ringTail agent r v => Sys2Proof.Machine.execRingTail agent r v s
  | .ringCfgWrite agent r v => Sys2Proof.Machine.execRingCfgWrite agent r v s
  | .msixCoalesceExpire r => Sys2Proof.Machine.execMsixCoalesceExpire r s
  | .dramRefresh ch => Sys2Proof.Machine.execDramRefresh ch s
  | .dramTempSample temps => Sys2Proof.Machine.execDramTempSample temps s
  | .dramCeRate ch => Sys2Proof.Machine.execDramCeRate ch s
  | .dramScrubPass complete => Sys2Proof.Machine.execDramScrubPass complete s
  | .chInject agent ch v => Sys2Proof.Machine.execChInject agent ch v s
  | .encRegionEnable agent r v => Sys2Proof.Machine.execEncRegionEnable agent r v s
  | .encRegionReady r => Sys2Proof.Machine.execEncRegionReady r s
  | .encRegionDisable agent r v => Sys2Proof.Machine.execEncRegionDisable agent r v s
  | .guylineFlitReceive port flit uncorrectable jobs => Sys2Proof.Machine.execGuylineFlitReceive port flit uncorrectable jobs s
  | .flitAckTimeout port => Sys2Proof.Machine.execFlitAckTimeout port s
  | .linkRetryFail port jobs => Sys2Proof.Machine.execLinkRetryFail port jobs s
  | .guylineTrainingDone port t => Sys2Proof.Machine.execGuylineTrainingDone port t s
  | .guylinePacketSend port => Sys2Proof.Machine.execGuylinePacketSend port s
  | .glWrite port rrLost => Sys2Proof.Machine.execGlWrite port rrLost s
  | .glReadReq port => Sys2Proof.Machine.execGlReadReq port s
  | .glReadCpl port => Sys2Proof.Machine.execGlReadCpl port s
  | .glPod port => Sys2Proof.Machine.execGlPod port s
  | .glPegInc port => Sys2Proof.Machine.execGlPegInc port s
  | .glSync port => Sys2Proof.Machine.execGlSync port s
  | .glDelayReq port => Sys2Proof.Machine.execGlDelayReq port s
  | .glDelayResp port hops epoch => Sys2Proof.Machine.execGlDelayResp port hops epoch s
  | .syncInterval port => Sys2Proof.Machine.execSyncInterval port s
  | .syncTimeout => Sys2Proof.Machine.execSyncTimeout s
  | .routeFailover port => Sys2Proof.Machine.execRouteFailover port s
  | .routeRestore port => Sys2Proof.Machine.execRouteRestore port s
  | .openFibre lane jobs => Sys2Proof.Machine.execOpenFibre lane jobs s
  | .lightReceived lane => Sys2Proof.Machine.execLightReceived lane s
  | .probeStart group => Sys2Proof.Machine.execProbeStart group s
  | .probeEnd group => Sys2Proof.Machine.execProbeEnd group s
  | .laserFault lane jobs => Sys2Proof.Machine.execLaserFault lane jobs s
  | .mgtHello f => Sys2Proof.Machine.execMgtHello f s
  | .mgtStart f slot privs nonce => Sys2Proof.Machine.execMgtStart f slot privs nonce s
  | .mgtGet f obj off => Sys2Proof.Machine.execMgtGet f obj off s
  | .mgtPutCt f off data => Sys2Proof.Machine.execMgtPutCt f off data s
  | .mgtPutKey f off data => Sys2Proof.Machine.execMgtPutKey f off data s
  | .mgtFinish f sig => Sys2Proof.Machine.execMgtFinish f sig s
  | .sessionClose f => Sys2Proof.Machine.execSessionClose f s
  | .sessionIdleTimeout => Sys2Proof.Machine.execSessionIdleTimeout s
  | .mgtRegRead f addr => Sys2Proof.Machine.execMgtRegRead f addr s
  | .mgtRegWrite f addr v => Sys2Proof.Machine.execMgtRegWrite f addr v s
  | .mgtMemRead f addr len => Sys2Proof.Machine.execMgtMemRead f addr len s
  | .mgtMemWrite f addr bytes => Sys2Proof.Machine.execMgtMemWrite f addr bytes s
  | .mgtReset f => Sys2Proof.Machine.execMgtReset f s
  | .resetExecute => Sys2Proof.Machine.execResetExecute s
  | .mgtStatus f => Sys2Proof.Machine.execMgtStatus f s
  | .lanternWordBoundary => Sys2Proof.Machine.execLanternWordBoundary s
  | .lanternTest agent v => Sys2Proof.Machine.execLanternTest agent v s
  | .lanternTestEnd => Sys2Proof.Machine.execLanternTestEnd s
  | .sentryEnable agent v => Sys2Proof.Machine.execSentryEnable agent v s
  | .sentryRunStart => Sys2Proof.Machine.execSentryRunStart s
  | .sentryRunEnd cells corrected uncorrectable => Sys2Proof.Machine.execSentryRunEnd cells corrected uncorrectable s
  | .sntInject agent v => Sys2Proof.Machine.execSntInject agent v s
  | .compEnable agent v => Sys2Proof.Machine.execCompEnable agent v s
  | .judgementCutOff => Sys2Proof.Machine.execJudgementCutOff s
  | .compVerdict rail => Sys2Proof.Machine.execCompVerdict rail s
  | .lockstepMismatch p addr => Sys2Proof.Machine.execLockstepMismatch p addr s
  | .lsDebugHalt agent mask copy => Sys2Proof.Machine.execLsDebugHalt agent mask copy s
  | .lsDebugResume agent => Sys2Proof.Machine.execLsDebugResume agent s
  | .lsInject agent v => Sys2Proof.Machine.execLsInject agent v s
  | .faultReport ext => Sys2Proof.Machine.execFaultReport ext s
  | .faultLevelClear src => Sys2Proof.Machine.execFaultLevelClear src s
  | .quietPeriodExpire => Sys2Proof.Machine.execQuietPeriodExpire s
  | .fcSelfFault copies crcs => Sys2Proof.Machine.execFcSelfFault copies crcs s
  | .fcForceSafe agent v => Sys2Proof.Machine.execFcForceSafe agent v s
  | .fcKill agent v => Sys2Proof.Machine.execFcKill agent v s
  | .fcInject agent v => Sys2Proof.Machine.execFcInject agent v s
  | .reexecutionStart t => Sys2Proof.Machine.execReexecutionStart t s
  | .bistCmd agent v => Sys2Proof.Machine.execBistCmd agent v s
  | .bistResult sig => Sys2Proof.Machine.execBistResult sig s
  | .bistSliceStart u => Sys2Proof.Machine.execBistSliceStart u s
  | .bistSliceEnd u fail => Sys2Proof.Machine.execBistSliceEnd u fail s
  | .coverageLapse u => Sys2Proof.Machine.execCoverageLapse u s
  | .coverageLapseDouble u => Sys2Proof.Machine.execCoverageLapseDouble u s
  | .wdKick agent core token => Sys2Proof.Machine.execWdKick agent core token s
  | .watchdogExpired core => Sys2Proof.Machine.execWatchdogExpired core s
  | .attest no => Sys2Proof.Machine.execAttest no s
  | .attestOutputWritten => Sys2Proof.Machine.execAttestOutputWritten s
  | .hostAuth no => Sys2Proof.Machine.execHostAuth no s
  | .keyImport no => Sys2Proof.Machine.execKeyImport no s
  | .modelImport no => Sys2Proof.Machine.execModelImport no s
  | .keyClear no => Sys2Proof.Machine.execKeyClear no s
  | .regionSet no => Sys2Proof.Machine.execRegionSet no s
  | .secSvnCommit agent v => Sys2Proof.Machine.execSecSvnCommit agent v s
  | .trngFailed => Sys2Proof.Machine.execTrngFailed s
  | .pmSleep no => Sys2Proof.Machine.execPmSleep no s
  | .h4Wake light => Sys2Proof.Machine.execH4Wake light s
  | .pmBudgetInterval m => Sys2Proof.Machine.execPmBudgetInterval m s
  | .governorSample ma => Sys2Proof.Machine.execGovernorSample ma s
  | .pmEmergencyCap agent v => Sys2Proof.Machine.execPmEmergencyCap agent v s
  | .dramHotReduction => Sys2Proof.Machine.execDramHotReduction s
  | .dieTempSample temps => Sys2Proof.Machine.execDieTempSample temps s
  | .clockStep => Sys2Proof.Machine.execClockStep s
  | .holdLevelEntry d idle => Sys2Proof.Machine.execHoldLevelEntry d idle s
  | .domainWake d => Sys2Proof.Machine.execDomainWake d s
  | .pmWake agent c v => Sys2Proof.Machine.execPmWake agent c v s
  | .mgtLinkUp => Sys2Proof.Machine.execMgtLinkUp s
  | .mgtLinkDown => Sys2Proof.Machine.execMgtLinkDown s
  | .patrolScrubRead u upset => Sys2Proof.Machine.execPatrolScrubRead u upset s
  | .seqCommandComplete id mismatch => Sys2Proof.Machine.execSeqCommandComplete id mismatch s
  | .modelImportDone => Sys2Proof.Machine.execModelImportDone s
  | .coreRestarted core => Sys2Proof.Machine.execCoreRestarted core s

end Sys2Proof.Machine
end

