-- ==== Sys2Proof/Safety.lean ====
section
/-!
DEFINITION. What claims mean by a safe state and a safe step of the block.
-/

namespace Sys2Proof.Safety

open Sys2Proof.Machine

/-- Every addressed memory of the block is in its one canonical form: the local memory map, the host memory that the device
wrote, and the sentry SRAM. -/
abbrev MemoryCanonical (s : State) : Prop := Memory.wf s.mem ∧ Memory.wf s.hostMem ∧ Memory.wf s.sntMem

/-- A fuse bit is blown once and never restored (R485): `g` holds every bit that `f` holds, and the fixed words of `f`. -/
def FusesGrow (f g : Fuses) : Prop :=
  g.serial = f.serial ∧ g.grade = f.grade ∧
    (∀ i h, smGet (fun _ => none) f.owners i = some h → smGet (fun _ => none) g.owners i = some h) ∧
    (∀ i, bitN f.privs i = true → bitN g.privs i = true) ∧ (∀ i, bitN f.revoked i = true → bitN g.revoked i = true) ∧
    f.counter ≤ g.counter ∧ (f.split = true → g.split = true) ∧ (f.debugOff = true → g.debugOff = true)

/-- The parts of the state that a claim can say are left alone: every field of `State` but the queue (of which a claim
speaks by itself), the register file (of which claims speak register by register), the rings with the messages and event
pods that any flag can send, and the model's own bookkeeping of free values and identities. -/
inductive Part where
  | power | ridge | pegs | pods | hostMem | mem | ecc | scrubs | fc | fgs | rr | streams | sensors | portSec |
  portOut | camPods | decIn | pipeIn | pipeQ | slots | statQ | pp | decq | sntMem | rolls | seq | graphs | insts
  | starts | nextExec | ops | arrays | engCycles | records | keySlots | corrections | gl | glOut | linkDowns |
  time | lanes | media | hostOut | remote | outWrites | encQ | heldIncs | podsIn | mgt | mgtOut | comp | sentry
  | taps | lantern | cores | bist | pm | fuses | sec
  deriving DecidableEq, Repr

/-- A part of the state is as it was. -/
def Part.Same : Part → State → State → Prop
  | .power, s, t => t.power = s.power
  | .ridge, s, t => t.ridge = s.ridge
  | .pegs, s, t => t.pegs = s.pegs
  | .pods, s, t => t.pods = s.pods
  | .hostMem, s, t => t.hostMem = s.hostMem
  | .mem, s, t => t.mem = s.mem
  | .ecc, s, t => t.ecc = s.ecc
  | .scrubs, s, t => t.scrubs = s.scrubs
  | .fc, s, t => t.fc = s.fc
  | .fgs, s, t => t.fgs = s.fgs
  | .rr, s, t => t.rr = s.rr
  | .streams, s, t => t.streams = s.streams
  | .sensors, s, t => t.sensors = s.sensors
  | .portSec, s, t => t.portSec = s.portSec
  | .portOut, s, t => t.portOut = s.portOut
  | .camPods, s, t => t.camPods = s.camPods
  | .decIn, s, t => t.decIn = s.decIn
  | .pipeIn, s, t => t.pipeIn = s.pipeIn
  | .pipeQ, s, t => t.pipeQ = s.pipeQ
  | .slots, s, t => t.slots = s.slots
  | .statQ, s, t => t.statQ = s.statQ
  | .pp, s, t => t.pp = s.pp
  | .decq, s, t => t.decq = s.decq
  | .sntMem, s, t => t.sntMem = s.sntMem
  | .rolls, s, t => t.rolls = s.rolls
  | .seq, s, t => t.seq = s.seq
  | .graphs, s, t => t.graphs = s.graphs
  | .insts, s, t => t.insts = s.insts
  | .starts, s, t => t.starts = s.starts
  | .nextExec, s, t => t.nextExec = s.nextExec
  | .ops, s, t => t.ops = s.ops
  | .arrays, s, t => t.arrays = s.arrays
  | .engCycles, s, t => t.engCycles = s.engCycles
  | .records, s, t => t.records = s.records
  | .keySlots, s, t => t.keySlots = s.keySlots
  | .corrections, s, t => t.corrections = s.corrections
  | .gl, s, t => t.gl = s.gl
  | .glOut, s, t => t.glOut = s.glOut
  | .linkDowns, s, t => t.linkDowns = s.linkDowns
  | .time, s, t => t.time = s.time
  | .lanes, s, t => t.lanes = s.lanes
  | .media, s, t => t.media = s.media
  | .hostOut, s, t => t.hostOut = s.hostOut
  | .remote, s, t => t.remote = s.remote
  | .outWrites, s, t => t.outWrites = s.outWrites
  | .encQ, s, t => t.encQ = s.encQ
  | .heldIncs, s, t => t.heldIncs = s.heldIncs
  | .podsIn, s, t => t.podsIn = s.podsIn
  | .mgt, s, t => t.mgt = s.mgt
  | .mgtOut, s, t => t.mgtOut = s.mgtOut
  | .comp, s, t => t.comp = s.comp
  | .sentry, s, t => t.sentry = s.sentry
  | .taps, s, t => t.taps = s.taps
  | .lantern, s, t => t.lantern = s.lantern
  | .cores, s, t => t.cores = s.cores
  | .bist, s, t => t.bist = s.bist
  | .pm, s, t => t.pm = s.pm
  | .fuses, s, t => t.fuses = s.fuses
  | .sec, s, t => t.sec = s.sec

/-- Every part. -/
def Part.all : List Part :=
  [.power, .ridge, .pegs, .pods, .hostMem, .mem, .ecc, .scrubs, .fc, .fgs, .rr, .streams, .sensors, .portSec,
  .portOut, .camPods, .decIn, .pipeIn, .pipeQ, .slots, .statQ, .pp, .decq, .sntMem, .rolls, .seq, .graphs, .insts,
  .starts, .nextExec, .ops, .arrays, .engCycles, .records, .keySlots, .corrections, .gl, .glOut, .linkDowns,
  .time, .lanes, .media, .hostOut, .remote, .outWrites, .encQ, .heldIncs, .podsIn, .mgt, .mgtOut, .comp, .sentry,
  .taps, .lantern, .cores, .bist, .pm, .fuses, .sec]

/-- The parts of the state that a command may change: those that its rules and the rules of what it sets going (the end of a
firing, a fault report, a forced safe state, a write of any register) write somewhere; every other part is as it was. -/
def mayChange : Instr → List Part
  | .powerOnReset | .powerGood | .resetExecute => Part.all
  | .railWindowFault _ _ | .pllUnlocked _ | .ringWaitExpire _ | .fcInject _ _ | .coverageLapse _
  | .coverageLapseDouble _ | .dieTempSample _ => [.fc]
  | .clockLost _ _ | .lsDebugHalt _ _ _ | .lsDebugResume _ | .faultReport _ | .fcSelfFault _ _ | .fcForceSafe _ _
  | .fcKill _ _ =>
    [.pegs, .pods, .mem, .ecc, .fc, .sensors, .portSec, .portOut, .camPods, .rolls, .seq, .graphs, .insts, .starts,
    .ops, .records, .corrections, .encQ, .heldIncs, .comp, .lantern, .cores, .bist]
  | .aonFault | .evtAck _ _ _ _ | .mbxSelCapture _ _ _ | .mbxSelCancel _ _ | .mbxCaptureDone _ | .key _ _ _
  | .unlockLapse _ _ | .lock _ _ _ | .updateStrobe _ _ | .u4Aperture _ _ | .msixUnmask _ _ _ | .streamEnable _ _ _ _
  | .abftInject _ _ _ | .engInject _ _ _ _ | .scrInject _ _ _ | .rollEnable _ _ _ _ | .rollRelease _ _ _ _
  | .seqCtl _ _ | .seqInject _ _ | .detCtl _ _ | .ringTail _ _ _ | .msixCoalesceExpire _ | .dramRefresh _
  | .chInject _ _ _ | .sentryEnable _ _ | .sntInject _ _ | .trngFailed | .pmEmergencyCap _ _ | .holdLevelEntry _ _
  | .pmWake _ _ _ | .mgtLinkUp => []
  | .imageBegin _ _ _ => [.fc, .portSec, .sntMem, .records, .mgt, .mgtOut, .sentry, .cores, .bist, .sec]
  | .imageChunk _ _ _ => [.mem, .portSec, .mgt, .mgtOut, .sec]
  | .imageEnd _ _ => [.fc, .portSec, .sntMem, .records, .mgt, .mgtOut, .sentry, .cores, .bist, .fuses, .sec]
  | .imageTimeout => [.sec]
  | .configWaitTimeout => [.fc, .sntMem, .records, .sentry, .cores, .bist, .sec]
  | .dramTrainingDone _ => [.mem, .sec]
  | .powerOnBistDone _ =>
    [.pegs, .pods, .mem, .ecc, .fc, .fgs, .rr, .sensors, .portSec, .portOut, .camPods, .sntMem, .rolls, .seq,
    .graphs, .insts, .starts, .ops, .records, .keySlots, .corrections, .encQ, .heldIncs, .mgt, .comp, .lantern,
    .cores, .bist, .fuses, .sec]
  | .bootComplete => [.lantern, .sec]
  | .registerWrite _ _ _ | .postedWriteApply _ =>
    [.pegs, .pods, .mem, .ecc, .fc, .fgs, .rr, .sensors, .portSec, .portOut, .camPods, .rolls, .seq, .graphs,
    .insts, .starts, .ops, .records, .keySlots, .corrections, .encQ, .heldIncs, .mgt, .comp, .lantern, .cores,
    .bist, .fuses, .sec]
  | .updateGroupApply _ | .domainWake _ =>
    [.pegs, .pods, .mem, .ecc, .fc, .streams, .pipeIn, .pipeQ, .decq, .rolls, .seq, .graphs, .insts, .starts, .ops,
    .records, .corrections, .encQ, .heldIncs]
  | .podPortWrite _ _ | .podResync _ _ | .originClose _ | .retainCfg _ _ => [.pods]
  | .podReceive _ _ =>
    [.pegs, .pods, .mem, .ecc, .fc, .rr, .decq, .graphs, .records, .corrections, .gl, .outWrites, .encQ, .heldIncs,
    .podsIn]
  | .podStart _ =>
    [.pegs, .pods, .mem, .ecc, .fc, .fgs, .rr, .sensors, .portSec, .portOut, .camPods, .rolls, .seq, .graphs,
    .insts, .starts, .ops, .records, .keySlots, .corrections, .gl, .outWrites, .encQ, .heldIncs, .mgt, .comp,
    .lantern, .cores, .bist, .fuses, .sec]
  | .originWindowClose _ => [.pegs, .pods, .fc, .heldIncs]
  | .bar2Access _ _ _ =>
    [.pegs, .pods, .mem, .ecc, .fc, .fgs, .rr, .sensors, .portSec, .portOut, .camPods, .rolls, .seq, .graphs,
    .insts, .starts, .ops, .records, .keySlots, .corrections, .gl, .hostOut, .remote, .outWrites, .encQ, .heldIncs,
    .mgt, .comp, .lantern, .cores, .bist, .fuses, .sec]
  | .remoteTimeout => [.hostOut, .remote]
  | .functionLevelReset => [.remote]
  | .usb4BlockReceive _ _ _ | .hostLinkDown _ => [.pods, .fc, .insts, .linkDowns, .media, .remote]
  | .hostLinkUp _ => [.fc, .media]
  | .tsfFrameReceive _ _ _ =>
    [.mem, .ecc, .fc, .rr, .streams, .sensors, .portSec, .pipeIn, .pipeQ, .pp, .decq, .records, .corrections, .encQ]
  | .streamWindowStart _ _ | .feDeadline _ _ => [.fc, .streams, .pipeIn, .pipeQ, .decq, .records]
  | .fsDeadline _ _ => [.fc, .streams, .pipeIn, .pipeQ, .decq]
  | .tpDeadline _ _ => [.fc, .streams]
  | .camSettings _ | .camAckTimeout _ => [.pegs, .pods, .fc, .sensors, .portSec, .portOut, .camPods, .heldIncs]
  | .controlResponse _ => [.pegs, .pods, .fc, .sensors, .camPods, .heldIncs]
  | .settingsApplyRidge _ => [.sensors]
  | .gptpSyncSend _ => [.sensors, .portSec, .portOut]
  | .gptpMessageReceive _ _ | .mkaFrameReceive _ _ | .macsecRekey _ => [.portSec, .portOut]
  | .sensorLinkUp _ => [.fc, .sensors]
  | .sensorLinkDown _ _ => [.fc, .sensors, .portSec]
  | .oldSaExpire _ | .mgtLinkDown => [.portSec]
  | .pipeLine _ _ _ => [.pegs, .mem, .ecc, .fc, .pipeQ, .slots, .statQ, .sntMem, .records, .corrections, .encQ, .taps]
  | .statisticsPod _ _ => [.statQ]
  | .ppFormationStart => [.pp]
  | .ppFormationDone => [.pegs, .mem, .ecc, .fc, .pp, .records, .corrections, .encQ]
  | .batchSubmit _ => [.pods, .decq]
  | .queueReset _ => [.pegs, .pods, .fc, .decq, .heldIncs]
  | .decodeSampleStart _ _ | .decodeSampleDone _ _ | .decodeDeadline _ =>
    [.pegs, .pods, .mem, .ecc, .fc, .rr, .decIn, .decq, .records, .corrections, .encQ, .heldIncs]
  | .decodeConfigApply _ => [.decq]
  | .arrayIssue _ _ | .weightTileLoad _ _ _ _ | .arrayTileDone _ _ | .abftVerdict _ | .abftLate _
  | .arrayOperationDone _ _ =>
    [.pegs, .pods, .mem, .ecc, .fc, .rolls, .seq, .graphs, .insts, .starts, .ops, .arrays, .records, .corrections,
    .encQ, .heldIncs]
  | .ballastEnd _ _ | .activityLevelStep _ _ => [.arrays]
  | .arrFence _ _ _ _ => [.fc, .bist]
  | .engineIssue _ _ =>
    [.pegs, .pods, .mem, .ecc, .fc, .rolls, .seq, .graphs, .insts, .starts, .ops, .records, .corrections, .encQ,
    .heldIncs]
  | .engineOperationDone _ _ _ _ =>
    [.pegs, .pods, .mem, .ecc, .fc, .rolls, .seq, .graphs, .insts, .starts, .ops, .engCycles, .records,
    .corrections, .encQ, .heldIncs]
  | .engFence _ _ _ _ =>
    [.pegs, .pods, .mem, .ecc, .fc, .rolls, .seq, .graphs, .insts, .starts, .ops, .records, .corrections, .encQ,
    .heldIncs, .bist]
  | .scratchScrubPass _ _ | .dramScrubPass _ => [.ecc, .scrubs, .fc, .records, .corrections]
  | .pegCount _ _ _ | .pegCfg _ _ _ => [.pegs, .pods, .insts]
  | .pegIncWrite _ _ _ => [.pegs, .fc, .heldIncs]
  | .rollAppendReserve _ _ | .rollReset _ _ _ => [.rolls]
  | .rollAppendCommit _ _ => [.pegs, .fc, .rolls]
  | .rollCommit _ _ _ _ => [.pegs, .fc]
  | .seqOpen _ | .seqClose _ | .seqAppend _ | .seqStage _ | .seqRelease _ | .seqImportance _ | .seqRestore _ =>
    [.pegs, .pods, .mem, .ecc, .fc, .rolls, .seq, .graphs, .insts, .starts, .records, .corrections, .encQ,
    .heldIncs, .bist]
  | .stageStart _ => [.seq, .starts]
  | .stageCopyDone _ _ | .recomputeTimeout _ _ | .instanceStart _ | .jobTimeout _ | .seqCommandComplete _ _ =>
    [.pegs, .pods, .mem, .ecc, .fc, .rolls, .seq, .graphs, .insts, .starts, .records, .corrections, .encQ,
    .heldIncs]
  | .graphLoad _ => [.pegs, .pods, .ecc, .fc, .graphs, .records, .corrections, .heldIncs]
  | .graphUnload _ => [.pegs, .pods, .fc, .graphs, .heldIncs]
  | .cycleLaunch _ =>
    [.pegs, .pods, .mem, .ecc, .fc, .fgs, .rr, .streams, .pipeIn, .pipeQ, .decq, .rolls, .seq, .graphs, .insts,
    .starts, .ops, .records, .corrections, .encQ, .heldIncs, .comp, .sentry, .lantern, .pm]
  | .jobFire =>
    [.pegs, .pods, .mem, .ecc, .fc, .rolls, .seq, .graphs, .insts, .starts, .nextExec, .records, .corrections,
    .encQ, .heldIncs]
  | .jobComplete _ =>
    [.pegs, .pods, .mem, .ecc, .fc, .rolls, .seq, .graphs, .insts, .starts, .records, .corrections, .encQ,
    .heldIncs, .comp]
  | .cycleDeadline _ =>
    [.pegs, .pods, .mem, .ecc, .fc, .fgs, .rolls, .seq, .graphs, .insts, .starts, .records, .corrections, .encQ,
    .heldIncs]
  | .fgEnable _ _ => [.fgs, .rr, .comp]
  | .fgDisable _ _ => [.fc, .fgs, .rr, .comp, .lantern]
  | .rrRecord _ _ | .rrOff _ _ => [.fgs, .rr]
  | .rrReplay _ _ => [.rr]
  | .replayEntry =>
    [.pegs, .pods, .mem, .ecc, .fc, .fgs, .rr, .streams, .sensors, .portSec, .portOut, .camPods, .pipeIn, .pipeQ,
    .pp, .decq, .rolls, .seq, .graphs, .insts, .starts, .ops, .records, .keySlots, .corrections, .gl, .outWrites,
    .encQ, .heldIncs, .mgt, .comp, .lantern, .cores, .bist, .fuses, .sec]
  | .ringPodWrite _ => [.pods, .hostMem]
  | .ringCfgWrite _ _ _ => [.fc, .sec]
  | .dramTempSample _ => [.fc, .records, .pm]
  | .dramCeRate _ => [.fc, .corrections]
  | .encRegionEnable _ _ _ | .encRegionDisable _ _ _ => [.mem, .ecc, .fc, .records, .keySlots, .corrections, .encQ]
  | .encRegionReady _ => [.mem, .ecc, .fc, .records, .corrections, .encQ]
  | .guylineFlitReceive _ _ _ _ => [.pegs, .pods, .fc, .insts, .gl, .glOut, .linkDowns, .outWrites, .heldIncs]
  | .flitAckTimeout _ => [.gl, .glOut]
  | .linkRetryFail _ _ => [.pegs, .pods, .fc, .insts, .gl, .linkDowns, .outWrites, .heldIncs]
  | .guylineTrainingDone _ _ | .glDelayReq _ => [.fc, .gl]
  | .guylinePacketSend _ => [.fc, .gl, .glOut]
  | .glWrite _ _ =>
    [.pegs, .pods, .mem, .ecc, .fc, .fgs, .rr, .sensors, .portSec, .portOut, .camPods, .rolls, .seq, .graphs,
    .insts, .starts, .ops, .records, .keySlots, .corrections, .gl, .encQ, .heldIncs, .mgt, .comp, .lantern, .cores,
    .bist, .fuses, .sec]
  | .glReadReq _ => [.ecc, .fc, .records, .corrections, .gl]
  | .glReadCpl _ => [.fc, .gl, .hostOut, .remote]
  | .glPod _ => [.fc, .gl, .podsIn]
  | .glPegInc _ => [.pegs, .fc, .gl]
  | .glSync _ => [.fc, .gl, .time]
  | .glDelayResp _ _ _ => [.ridge, .fc, .gl, .time]
  | .syncInterval _ | .routeFailover _ | .routeRestore _ => [.gl]
  | .syncTimeout => [.fc, .time]
  | .openFibre _ _ =>
    [.pegs, .pods, .fc, .sensors, .portSec, .insts, .gl, .linkDowns, .lanes, .media, .remote, .outWrites, .heldIncs]
  | .lightReceived _ | .probeStart _ | .probeEnd _ => [.lanes]
  | .laserFault _ _ =>
    [.pegs, .pods, .fc, .sensors, .portSec, .insts, .gl, .linkDowns, .media, .remote, .outWrites, .heldIncs]
  | .mgtHello _ | .mgtStart _ _ _ _ | .mgtGet _ _ _ | .mgtPutCt _ _ _ | .mgtPutKey _ _ _ | .sessionClose _
  | .mgtRegRead _ _ | .mgtStatus _ => [.portSec, .mgt, .mgtOut]
  | .mgtFinish _ _ => [.portSec, .mgt, .mgtOut, .sec]
  | .sessionIdleTimeout => [.mgt]
  | .mgtRegWrite _ _ _ | .mgtMemWrite _ _ _ =>
    [.pegs, .pods, .mem, .ecc, .fc, .fgs, .rr, .sensors, .portSec, .portOut, .camPods, .rolls, .seq, .graphs,
    .insts, .starts, .ops, .records, .keySlots, .corrections, .encQ, .heldIncs, .mgt, .mgtOut, .comp, .lantern,
    .cores, .bist, .fuses, .sec]
  | .mgtMemRead _ _ _ => [.ecc, .fc, .portSec, .records, .corrections, .mgt, .mgtOut]
  | .mgtReset _ =>
    [.pegs, .pods, .mem, .ecc, .fc, .sensors, .portSec, .portOut, .camPods, .rolls, .seq, .graphs, .insts, .starts,
    .ops, .records, .corrections, .encQ, .heldIncs, .mgt, .mgtOut, .comp, .lantern, .cores, .bist]
  | .lanternWordBoundary | .lanternTest _ _ | .lanternTestEnd => [.lantern]
  | .sentryRunStart => [.sentry]
  | .sentryRunEnd _ _ _ => [.fc, .sntMem, .sentry, .taps]
  | .compEnable _ _ => [.fc, .comp]
  | .judgementCutOff => [.comp, .sentry, .taps]
  | .compVerdict _ =>
    [.pegs, .pods, .mem, .ecc, .fc, .rr, .sensors, .portSec, .portOut, .camPods, .rolls, .seq, .graphs, .insts,
    .starts, .ops, .records, .corrections, .encQ, .heldIncs, .comp, .lantern, .cores, .bist]
  | .lockstepMismatch _ _ | .lsInject _ _ | .coreRestarted _ => [.fc, .records, .cores]
  | .faultLevelClear _ => [.fc, .lantern]
  | .quietPeriodExpire => [.fc, .comp, .lantern]
  | .reexecutionStart _ =>
    [.pegs, .pods, .mem, .ecc, .fc, .rolls, .seq, .graphs, .insts, .starts, .nextExec, .ops, .arrays, .records,
    .corrections, .encQ, .heldIncs]
  | .bistCmd _ _ => [.bist]
  | .bistResult _ => [.fc, .records, .bist]
  | .bistSliceStart _ => [.arrays, .bist]
  | .bistSliceEnd _ _ =>
    [.pegs, .pods, .mem, .ecc, .fc, .rolls, .seq, .graphs, .insts, .starts, .ops, .arrays, .records, .corrections,
    .encQ, .heldIncs, .bist]
  | .wdKick _ _ _ | .watchdogExpired _ => [.fc, .mgt, .cores, .sec]
  | .attest _ => [.pods, .sec]
  | .attestOutputWritten | .modelImportDone =>
    [.pegs, .pods, .mem, .ecc, .fc, .records, .corrections, .encQ, .heldIncs, .sec]
  | .hostAuth _ | .modelImport _ => [.pegs, .pods, .fc, .heldIncs, .sec]
  | .keyImport _ => [.pegs, .pods, .ecc, .fc, .records, .keySlots, .corrections, .heldIncs]
  | .keyClear _ => [.pegs, .pods, .fc, .keySlots, .heldIncs]
  | .regionSet _ => [.pegs, .pods, .mem, .ecc, .fc, .records, .keySlots, .corrections, .encQ, .heldIncs]
  | .secSvnCommit _ _ => [.fuses]
  | .pmSleep _ => [.power, .pegs, .pods, .mem, .ecc, .fc, .arrays, .heldIncs, .lantern, .sec]
  | .h4Wake _ =>
    [.power, .pegs, .pods, .mem, .ecc, .fc, .streams, .sensors, .portSec, .pipeIn, .pipeQ, .decq, .rolls, .seq,
    .graphs, .insts, .starts, .ops, .records, .corrections, .gl, .linkDowns, .media, .remote, .outWrites, .encQ,
    .heldIncs, .lantern, .cores, .sec]
  | .pmBudgetInterval _ => [.arrays, .records, .pm]
  | .governorSample _ => [.fc, .arrays, .pm]
  | .dramHotReduction | .clockStep => [.pm]
  | .patrolScrubRead _ _ => [.mem, .ecc, .scrubs, .fc, .records, .corrections]

/-- A step goes on: the block answers a next state, and neither a fault nor a refusal. -/
def GoesOn (s : State) : Prop := ∃ t, step s = .next t

end Sys2Proof.Safety
end

