-- ==== Sys2Proof/Claims.lean ====
section
/-!
DEFINITION. The terms in which the statements speak of a command: where setting flags may write, and when a command's own
effect happens.
-/

namespace Sys2Proof.Safety

open Sys2Proof.Machine

/-- The addresses that setting flags of page `p` may write: the flags of the page, the flags and the count of lost
event pods of the host page, and the pending bits of the messages. -/
def eventAddr (p a : Nat) : Prop :=
  a = hdrAddr p 0x010 ∨ a = hdrAddr 0x0E0 0x010 ∨ a = A.EVENTS_LOST ∨ a = A.MSIX_PBA 0 ∨ a = A.MSIX_PBA 1

/-! ### When a command's own effect happens -/

/-- A write of an agent takes effect at once (R78, R80, R87 to R90, R498): the host is not held off, the page's fabric interface
admits it, and it waits neither behind posted writes nor for a held domain. -/
def takesEffect (s : State) (ag : Agent) (a v : Nat) : Bool :=
  !(ag == .host && hostUnauth s) && (admitWrite s ag a v).1 &&
    (isRws a || !isPosted (a / 0x1000) || ((postedOf s (a / 0x1000)).isEmpty && holdLevel s (pageDomain (a / 0x1000)) == 0))

/-- A write of an RWI field takes effect: it passes the same checks, and no queue (R86). -/
def takesEffectNow (s : State) (ag : Agent) (a v : Nat) : Bool :=
  !(ag == .host && hostUnauth s) && (admitWrite s ag a v).1

/-- The state in which a management request is executed (R417, R418, R499): the port is up, the frame is for it and passes
MACsec, a frame of the session carries a good tag, no kept response answers it, none makes it stale, and its session, if
any, meets the need. None where the request is not executed. -/
def mgtTaken (s : State) (f : MgtFrame) (op : Nat) (need : MgtNeed) : Option State :=
  let mine := f.dest.toNat == mgtAddr s || (op == 1 && f.dest.toNat == 0xFFFFFFFFFFFF)
  let frame : EthFrame := { fcsOk := true, dest := f.dest, sec := f.sec, etherType := 0x88B6, data := [] }
  if rdB s A.MGT_STATUS 0 = false ∨ mine = false then none
  else
    match macsecCheck s 32 (mgtMacCfg s) frame with
    | none => none
    | some u =>
      let v := match sessionOf u f with
        | some x => mgtTagPass u x
        | none => u
      if (sessionOf u f).isSome ∧ f.tagOk = false ∨ (keptFor v f).any (fun r => r.seq == f.seq.toNat) = true ∨
          mgtStale v f = true ∨ needGranted (sessionOf v f) need = false ∨ (f.session.toNat ≠ 0 ∧ sessionOf v f = none) then none
      else some v

/-- The control pod with arrival number `no` runs, addresses operation `op` of section `sect`, and has not been taken
(R36). -/
def runningControl (s : State) (no sect op : Nat) : Option RxPod :=
  match podAt s no with
  | some p => if p.stage = .running ∧ p.taken = false ∧ p.hdr.kind = 4 ∧ isControl sect op p.hdr = true then some p else none
  | none => none

/-- The pod with arrival number `no` has completed with a status: it has left, or only the order of its origin still holds
its completion back. -/
abbrev PodDone (s : State) (no st : Nat) : Prop := ∀ p ∈ s.pods.rx, p.no = no → p.stage = .done st

/-- An agent's write to a header register that no queue orders reaches the page (R78, R379): the host is not held off, and
the page is not barred to the agent. -/
def takesPage (s : State) (ag : Agent) (p : Nat) : Bool := !(ag == .host && hostUnauth s) && !pageBarred ag p

/-- An agent's write to the header register at `a` of page `p` takes effect at once (R78, R80, R498): it reaches the page, and
waits neither behind posted writes nor for a held domain. -/
def takesTurn (s : State) (ag : Agent) (p a : Nat) : Bool :=
  takesPage s ag p &&
    (isRws a || !isPosted (a / 0x1000) || ((postedOf s (a / 0x1000)).isEmpty && holdLevel s (pageDomain (a / 0x1000)) == 0))

/-- The command that a row of the sequence engine takes and validates, with its context's entry and the state in which it
acts (R316, R317): no slice of the engine's self test holds it, and nothing that the row waits for is outstanding. -/
def seqReady (s : State) (src : SeqFrom) (op : Nat) (waits : State → SeqCmd → Bool) : Option (SeqCmd × SeqEntry × State) :=
  match seqTake s src op with
  | .stop _ => none
  | .cmd c u =>
    if bistBusy u 0x24 = true ∨ (seqWaits u c || waits u c) = true then none
    else
      match seqValidate u c.bytes c.cls (seqEcho u c) (seqExec c).isNone with
      | (0, e, v) => some (c, e, v)
      | _ => none

/-- A sequence command has completed on the way from `v` to `t` (R316): it has left the engine, and its pod is done, or its job
has one more descriptor finished. -/
def SeqFinished (v t : State) (c : SeqCmd) : Prop :=
  (∀ d ∈ t.seq.cmds, d.id ≠ c.id) ∧ (∀ no, c.issuer = .pod no → PodDone t no 0) ∧
    ∀ x k i j, c.issuer = .job x k i j →
      (findExec t x).map (fun y => y.2.finished) = (findExec v x).map (fun y => y.2.finished + 1)

/-- The slots of the view that a STAGE copies: its picks, empty beyond (R323, R326). -/
def stageSlots (c : SeqCmd) : List (Option SeqSlot) :=
  (List.range (parseSeq c.bytes).bMax).map (fun i => c.picks[i]?)

/-- The tag of a view (R327). -/
def stageTag (e : SeqEntry) (c : SeqCmd) (slots : List (Option SeqSlot)) : Tag :=
  let gap := match (slots.zipIdx.filter (fun x => x.1.isSome)).getLast? with
    | some x => (slots.take x.2).any (fun y => y.isNone)
    | none => false
  { frame := (parseSeq c.bytes).frame, stream := e.stream, settings := 0, cls := e.cls,
    flags := inheritFlags ((slots.filterMap id).map (·.flags)) ||| (if c.hadVoid || gap then flPad else 0) }

/-- The bytes of the view: its parts, then its auxiliary part (Table 11.7). -/
def stageBytes (s : State) (e : SeqEntry) (c : SeqCmd) (slots : List (Option SeqSlot)) : List Byte :=
  (List.range e.ppb).flatMap (fun p => viewPart s e (parseSeq c.bytes).layer (parseSeq c.bytes).bMax p slots) ++
    viewAux e (parseSeq c.bytes) slots (stageTag e c slots)

/-- Registers on whose application a unit acts: streams, pipes, statistics and point preparation (pages 0x060 to 0x0AF), and
the enables of the cluster engines (R68, R106, R130). -/
def unitActs (a : Nat) : Bool :=
  decide (0x060 ≤ a / 0x1000 ∧ a / 0x1000 < 0x0B0) || (a % 0x1000 == 0x008 && (engineOfPage (a / 0x1000)).isSome)

/-- The due application of update group `g` copies, and no unit has to act on what it changes; no slot of the group waits to have
a rejected configuration checked again (R130). -/
def appliesPlainly (s : State) (g : Nat) : Bool :=
  (changedAddrs s (applyGroup s g (groupOf s g).due)).all (fun a => !unitActs a) &&
    (List.range 64).all (fun k => !(rdB s (A.SL_STATUS (k / 4) (k % 4)) 1 && pageGroup s (0x081 + 2 * (k / 4)) == g))

/-- Steps 9 to 11 of Table 2.8 find a sequence that is new to the window of its origin, or that opens one. -/
def newToOrigin (s : State) (h : PodHeader) : Bool :=
  match windowOf s h.origin with
  | none => decide (s.pods.windows.length < 256)
  | some w => decide (0 < seqDist h.sequence w.head) || (inWindow w.head h.sequence && (seqRec w h.sequence).isNone)

/-- The host's stream begins with a whole pod `b` that passes steps 1 to 8 of Table 2.8, with room in the receive ring. -/
def wholePod (s : State) (h : PodHeader) (b : List Byte) : Bool :=
  !streamIsLost s && h == parseHeader s.pods.stream && headerStatus h == 0 && decide (32 * h.length ≤ podCredit s) &&
    decide (32 * h.length ≤ s.pods.stream.length) && b == s.pods.stream.take (32 * h.length) && trailerStatus h b == 0

/-- The received pod of a header and its bytes. -/
def arrivedPod (s : State) (via : Nat) (h : PodHeader) (b : List Byte) : RxPod :=
  { no := s.pods.nextNo, hdr := h, body := (b.drop 32).take (32 * h.length - 48), via := via, arrived := s.ridge }

/-- What the checks after step 11 of Table 2.8 find for a pod: those of every pod, then those of its kind. -/
def arrivalStatus (s : State) (p : RxPod) : Nat :=
  let st := validateStatus s p.via p.hdr p.body
  if st = 0 ∧ ownRing s (p.hdr.target / 256) = true then kindStatus s p else st

/-- A window's record of a sequence has a state. -/
def Recorded (s : State) (h : PodHeader) (st : SeqState) : Prop :=
  ∃ w, windowOf s h.origin = some w ∧ ∃ m ∈ w.marks, m.seq = h.sequence ∧ m.state = st

/-- The state in which the work of a pod that starts is done: the pod runs, and its window's record says so. -/
def podRuns (s : State) (p : RxPod) : State :=
  markState (updatePod s p.no (fun q => { q with stage := .running })) p.hdr.origin p.hdr.sequence .running

/-- The bytes that a data pod writes. -/
def podData (p : RxPod) : List Byte := (p.body.drop 16).take (leAt p.body 8 4)

/-- A frame at port `n` passes the checks of Table 4.4 in order, MACsec apart: its link and its page are up, it is whole, sent to
the port or to the link-local group, and is a TSF frame with a good header and length that is newer than the last. -/
def tsfSound (s : State) (n : Nat) (f : EthFrame) : Prop :=
  rdB s (A.PORT_STATUS n) 0 = true ∧ unitOn s (0x040 + n) = true ∧ f.fcsOk = true ∧ 46 ≤ f.data.length ∧
    f.data.length ≤ 1500 ∧ (f.dest.toNat = portAddr s n ∨ f.dest.toNat = 0x0180C200000E) ∧ f.etherType = 0x88B5 ∧
    tsfHeaderOk f.data = true ∧ 0 < beAt f.data 2 2 ∧ beAt f.data 2 2 ≤ 1484 ∧ 16 + beAt f.data 2 2 ≤ f.data.length ∧
    ∀ q, (sensorOf s n).lastSeq = some q → 0 < sgn 32 (beAt f.data 4 4 + 4294967296 - q)

/-- Such a frame without MACsec, on a port that does not require it. -/
def tsfGood (s : State) (n : Nat) (f : EthFrame) : Prop :=
  tsfSound s n f ∧ f.sec = none ∧ (bitN (sensorOf s n).cfg 4 && bitN (sensorOf s n).cfg 5) = false

/-- The payload of a TSF frame: as many bytes as its length says, after the header. -/
def tsfPayload (f : EthFrame) : List Byte := (f.data.drop 16).take (beAt f.data 2 2)

/-- What leaves port `n` where it sends a frame (R95): the frame, under the port's association and next packet number where it
runs MACsec and has one; nothing where it requires protection and has none. -/
def sentFrame (s : State) (n : Nat) (f : Option (Nat × Nat) → PortOut) : List PortOut :=
  if bitN (sensorOf s n).cfg 4 = false then [f none]
  else
    match (secOf s n).sa with
    | some a => [f (some (a.an, (secOf s n).txPn))]
    | none => if bitN (sensorOf s n).cfg 5 then [] else [f none]

/-- The bytes of a control message of port `n` (Tables 4.2 and 4.8): message number, operation, settings id, time, payload. -/
def camBytes (s : State) (n id op sid time : Nat) (payload : List Byte) : List Byte :=
  let body := beBytes 4 id ++ leBytes 1 op ++ leBytes 1 sid ++ beBytes 2 payload.length ++ beBytes 8 time ++ payload
  leBytes 1 0x13 ++ zeros 1 ++ beBytes 2 body.length ++ beBytes 4 (sensorOf s n).txSeq ++ zeros 8 ++ body

/-- The 802.1AS time of a ridge count (R94). -/
def gptpTime (s : State) (ridge : Nat) : Nat := (ridge + rdWide s A.RIDGE_EPOCH_LO) % 18446744073709551616

/-- Stream `st` is enabled and within its frame window `w`, and none of the window's deadlines has passed. -/
def midWindow (s : State) (st : Nat) (w : Nat × Nat) : Prop :=
  let x := streamOf s st
  streamRuns s st = true ∧ (streamCfg (rd s) st).on = true ∧ x.cfg.on = true ∧ x.win = some w ∧ windowNow s x.cfg = some w ∧
    (x.phase = .awaited → s.ridge < w.1 + x.cfg.fsDl) ∧ (x.phase = .opened → s.ridge < w.1 + x.cfg.feDl) ∧
    (x.cfg.tpCamera = true → x.tpDone = false → s.ridge < w.1 + x.cfg.tpDeadline)

/-- A good frame carries a whole CSI-2 packet in one segment, with a header that passes its code; none is being assembled. -/
def csiWhole (s : State) (n : Nat) (f : EthFrame) (h : CsiHeader) (fixed : Bool) : Prop :=
  tsfGood s n f ∧ leAt f.data 0 1 % 16 = 1 ∧ leAt f.data 1 1 = 3 ∧ beAt f.data 8 4 = 0 ∧ (sensorOf s n).asm = none ∧
    checkHeader (tsfPayload f) = some (h, fixed)

/-- The base time of a point packet as a ridge count, signed (R122). -/
def pointBase (s : State) (b : List Byte) : Int :=
  sgn 64 (beAt b 0 8 + 18446744073709551616 - rdWide s A.RIDGE_EPOCH_LO % 18446744073709551616)

/-- Point `i` of a packet that arrives at port `n` in cycle `k` (R121, R123). -/
def packetPoint (s : State) (n k : Nat) (b : List Byte) (i : Nat) : Point :=
  { port := n, x := sgn 32 (beAt b (16 + 16 * i) 4), y := sgn 32 (beAt b (16 + 16 * i + 4) 4),
    z := sgn 32 (beAt b (16 + 16 * i + 8) 4), intensity := leAt b (16 + 16 * i + 12) 1, ret := leAt b (16 + 16 * i + 13) 1,
    stamp := (pointBase s b + 1000 * (beAt b (16 + 16 * i + 14) 2 : Int)).toNat, frame := k, idx := i }

/-- The arrays that a descriptor names. -/
def arraysOf (d : ArrDesc) : List Nat := (d.array :: (if d.paired then [d.partner] else [])).eraseDups

/-- The operation of an issue of one descriptor, as it enters cluster `j.cluster` (R243). -/
def issuedOp (s : State) (x : Instance) (j : JobRun) (k : Nat) (desc blk : List Byte) (m : List (Nat × Nat)) : Op :=
  let d := parseArr desc
  let map := sortBy (fun a b => decide (a.1 < b.1)) m
  { id := s.nextId + 1, issue := s.nextId, exec := j.exec, index := k, cluster := j.cluster, unit := smGet id map d.array,
    partner := if d.paired then some (smGet id map d.partner) else none, desc := desc, addr := descAddr x j.entry 128 k,
    frame := x.frame, cls := x.cls, tagCls := x.tagCls, slot := x.slot, job := j.entry.index, stage := .queued,
    issueUnits := map.map (·.2), block := blk, slabs := slabsOf [d] d.slot }

/-- The descriptors of a running array job that its control core may issue now, in order. -/
def issuable (s : State) (x : Instance) (j : JobRun) : List Nat :=
  (List.range j.entry.descCount).filter (fun i =>
    !j.issued.contains i && (if j.entry.orderFree && !strict s then mayIssue s x j i else true))

/-- The control core of a running array job issues one descriptor, `k`: it can be read, with the parameter block it names, passes
every check, and its arrays, or healthy ones in place of fenced ones, are those of `m`. The last state is that after the reads. -/
def issueTaken (s : State) (x : Instance) (j : JobRun) (k : Nat) (desc blk : List Byte) (m : List (Nat × Nat)) (v : State) :
    Prop :=
  coreStalled s (3 + j.cluster) = false ∧ jobAwake s j = true ∧ j.entry.unit ≤ 4 ∧ (issuable s x j).head? = some k ∧
    encWaits s (descAddr x j.entry 128 k) 128 = false ∧
    ∃ u, readDescs s j.cluster [descAddr x j.entry 128 k] 128 x.cls x.seq = (0, [desc], u) ∧
      readBlocks u j.cluster [desc] x.cls x.seq = (0, [blk], v) ∧ validateIssue v j.cluster x.cls [(desc, blk)] = 0 ∧
      pegStatus v (parseArr desc).outPeg = 0 ∧ substitute v j.cluster (arraysOf (parseArr desc)) = some m

/-- The state in which the operation of that issue has entered. -/
def issueEntered (v : State) (x : Instance) (j : JobRun) (k : Nat) (desc blk : List Byte) (m : List (Nat × Nat)) : State :=
  enterIssue (countSliceWaits v j.cluster x.cls m [parseArr desc]) x j [(k, descAddr x j.entry 128 k, desc, blk)]
    (sortBy (fun a b => decide (a.1 < b.1)) m)

/-- No operation waits for an array of cluster `c`. -/
def noneQueued (s : State) (c : Nat) : Prop := ∀ o ∈ s.ops, o.cluster = c → o.unit < 4 → o.stage ≠ .queued

/-- Operation `o` runs on an array, and none of its operands lies in a region that is being zero-filled. -/
def arrayRuns (s : State) (id : Nat) (o : Op) : Prop :=
  opOf s id = some o ∧ o.stage = .running ∧ o.unit < 4 ∧ opWaits s o (arrOperands (parseArr o.desc)) = false

/-- A failure of an operation is followed by its re-execution: the status allows it, a retry is left, and its job counts. -/
def retriesOn (s : State) (o : Op) : Prop := o.retries < retryLimit s ∧ opLive s o = true

/-- Where an output tile is written: the bytes of each token at its place in the output. -/
def tileWrites (d : ArrDesc) (i : Nat) (out : List (List Byte)) : List (Nat × List Byte) :=
  out.zipIdx.map (fun w => (((tileSpan d i).1 + w.2) * d.outStride + (tileSpan d i).2.2.1 * ofmtBytes d.ofmt, w.1))

/-- The checks of the chunks of an output tile that wait for their verdicts from now on. -/
def tileChecks (s : State) (i : Nat) (l : List (Option Nat × Option Nat)) : List TileCheck :=
  l.zipIdx.map (fun k => { tile := i, chunk := k.2, at_ := s.ridge, row := k.1.1, col := k.1.2 })

/-- The operation of an engine issue, as it enters the queue of engine `e` of cluster `j.cluster` (R248). -/
def issuedEngOp (s : State) (x : Instance) (j : JobRun) (e k : Nat) (desc blk : List Byte) : Op :=
  { id := s.nextId, issue := s.nextId, exec := j.exec, index := k, cluster := j.cluster, unit := 4 + e, desc := desc,
    addr := descAddr x j.entry 128 k, frame := x.frame, cls := x.cls, tagCls := x.tagCls, slot := x.slot, job := j.entry.index,
    stage := .queued, block := blk }

/-- The control core of a running cluster job issues descriptor `k` to engine `e`: the queue has room, the descriptor can be read,
with the parameter block that a window operation names, and passes every check. -/
def engineTaken (s : State) (x : Instance) (j : JobRun) (e k : Nat) (desc blk : List Byte) : Prop :=
  coreStalled s (3 + j.cluster) = false ∧ jobAwake s j = true ∧ j.entry.unit ≤ 4 ∧ (issuable s x j).head? = some k ∧
    encWaits s (descAddr x j.entry 128 k) 128 = false ∧ (engOps s j.cluster e).countP (fun o => o.stage == .queued) < 8 ∧
    ∃ u v, readDescs s j.cluster [descAddr x j.entry 128 k] 128 x.cls x.seq = (0, [desc], u) ∧
      (if e == 1 && decide (2 ≤ leAt desc 1 1 ∧ leAt desc 1 1 ≤ 4) then peekBlock u j.cluster x.cls x.seq (leAt desc 48 8)
        else (0, [], u)) = (0, blk, v) ∧ validateEng v j.cluster e blk desc = 0 ∧ pegStatus v (parseEng desc).peg = 0

/-- Engine `e` of cluster `c` runs the operation `op`, with nothing queued behind it and no operand in a region that is being
zero-filled. -/
def engineRuns (s : State) (c e : Nat) (op : Op) : Prop :=
  engOps s c e = [op] ∧ op.stage = .running ∧ opOf s op.id = some op ∧ op.cluster = c ∧ op.unit = 4 + e ∧
    opWaits s op (engOperands op.block e op.desc) = false

/-- The outputs of an engine operation are written. -/
def engineWrites (s : State) (op : Op) (o : EngOut) : Nat × State :=
  o.writes.foldl (fun acc w => if acc.1 = 0 then opWrite acc.2 op w.1 w.2.1 w.2.2 else acc) (0, s)

/-- Where scrubber `u` reads next. -/
def scrubNext (s : State) (u : Nat) : Nat := (scrubSpan u).1 + (scrubSpan u).2.1 * (scrubOf s u).done

/-- The map pages of an OPEN, zeroed, and the state in which they are its own and a class S context has committed its pages
(R318, R319). -/
def openPages (s : State) (f : SeqFields) (e : SeqEntry) : List Nat × State :=
  match allocPages s e.mapCount (e.cls == clsS) with
  | (ps, s) =>
    let s := ps.foldl (fun s p => (memWrite s .sequence (seqPool s + 16384 * p) (zeros 16384)).2) s
    (ps, if e.cls = clsS then poolRegs (setSeq s (fun q => { q with commits := smPut q.commits f.ctx e.commitment })) else s)

/-- The entry of a context that an OPEN with map pages `ps` opens (R310, R318). -/
def openedEntry (e : SeqEntry) (ps : List Nat) : SeqEntry :=
  { e with state := 1, tokens := 0, live := 0, dropped := 0, mapPages := e.mapCount,
           map := (List.range 6).map (fun i => match ps[i]? with | some p => p + 2147483648 | none => 0), version := 0 }

/-- What a marking STAGE stores: the version of the layer and the positions that it selected (R333). -/
def stageMark (s : State) (f : SeqFields) (e : SeqEntry) (l : List SeqSlot) : State :=
  if f.mark then
    setSeq (mapWrite e 1 s (4 * f.layer) (leBytes 4 e.version))
      (fun q => { q with marks := smPut q.marks (64 * f.ctx + f.layer) (l.map (·.pos)) })
  else s

/-- The views without one that a failed execution of the command's own job staged at the same frame (R325). -/
def stageFresh (s : State) (c : SeqCmd) : State :=
  match c.issuer with
  | .job x _ i j => dropViews s (fun v => v.inst == i && v.job == j && v.frame0 == (parseSeq c.bytes).frame0 && v.exec != x)
  | .pod _ => s

/-- The live view of a STAGE that proceeds (R323, R324). -/
def stagedView (c : SeqCmd) (e : SeqEntry) : SeqView :=
  let f := parseSeq c.bytes
  let who := match c.issuer with
    | .job x _ i j => (i, j, x)
    | .pod _ => (0, 0, 0)
  { ctx := f.ctx, layer := f.layer, frame0 := f.frame0, frames := viewFrames e f.bMax, cls := e.cls, inst := who.1,
    job := who.2.1, exec := who.2.2, slots := (List.range f.bMax).map (fun i => (c.picks[i]?).map (·.pos)) }

/-- An IMPORTANCE's masses, with the position of the block that each is for (R328). -/
def namedMasses (y : SeqView) (b : List Byte) : List (Nat × Fp) :=
  (y.slots.zip ((List.range y.slots.length).map (fun i => f32v (leAt b (4 * i) 4)))).filterMap (fun x => x.1.map (fun p => (p, x.2)))

/-- The blocks `ys` of a context with the scores that these masses give them (R328). -/
def scoreBlocks (s : State) (e : SeqEntry) (d : Nat) (named : List (Nat × Fp)) (ys : List SeqSlot) : State :=
  ys.foldl (fun s y =>
    match named.find? (fun x => x.1 == y.pos) with
    | some x => writeSlot s e (y.pos % e.maxBlocks) { y with imp := newScore d y.imp (fpVal x.2) }
    | none => s) s

/-- What a context's open group holds is given back. -/
def ungrouped (s : State) (ctx : Nat) : State :=
  match groupOfCtx s ctx with
  | some g => discardGroup s g
  | none => s

/-- The engine once a layer of a group is written with the blocks `bs`, and the last layer has committed the group (R320). -/
def appendedTo (s : State) (f : SeqFields) (e : SeqEntry) (g : SeqGroup) (bs : List SeqBlock) (sat fl : Nat) : State :=
  let g' : SeqGroup := { g with blocks := bs, layer := g.layer + 1, busy := false, frame := f.frame }
  let s := setSeq (seqQuantCounts s sat fl) (fun q => { q with groups := q.groups.map (fun h => if h.ctx = f.ctx then g' else h) })
  if f.layer + 1 = e.layers then commitGroup s g' else s

/-- The engine once a layer of a dropped block is restored with scales `sc`, and the last layer has made it live (R331). -/
def restoredTo (s : State) (f : SeqFields) (e : SeqEntry) (r : SeqRestore) (x : SeqSlot) (sc : List Nat) (sat fl : Nat) : State :=
  let r' : SeqRestore := { r with layer := r.layer + 1, block := { r.block with scales := r.block.scales ++ sc } }
  let s := setSeq (seqQuantCounts s sat fl) (fun q => { q with
    restoring := q.restoring.map (fun y => if y.ctx = f.ctx ∧ y.block.pos = f.pos / 64 then r' else y) })
  if f.layer + 1 = e.layers then restoreLive s r' x else s

/-- SEQ_COMMAND_COMPLETE ends command `c`: it is at work, nothing that it needs is being zero-filled, and no earlier command of its
context is at work. -/
def seqEnds (s : State) (id : Nat) (c : SeqCmd) : Prop :=
  s.seq.cmds.find? (fun d => d.id == id && d.stage == .running) = some c ∧ seqWaits s c = false ∧
    ∀ d ∈ s.seq.cmds, d.stage = .running → cmdCtx d = cmdCtx c → id ≤ d.id

/-- Job `j` of an instance as it fires, for the `retries`th time again: it takes the next execution sequence (R345, R350). -/
def firedJob (s : State) (x : Instance) (j : JobRun) (retries : Nat) : JobRun :=
  { j with stage := .running, met := jobMet s x j, exec := s.nextExec, cluster := placeJob s x.cls j.entry, firedAt := s.ridge,
           issued := [], finished := 0, retries := retries }

/-- The instances with job `i` of instance `id` changed by `f`. -/
def jobChanged (l : List Instance) (id i : Nat) (f : JobRun → JobRun) : List Instance :=
  l.map (fun y => if y.id = id then { y with jobs := y.jobs.map (fun r => if r.entry.index = i then f r else r) } else y)

/-- The instances with job `i` of instance `id` fired as `r`. -/
def jobFired (s : State) (l : List Instance) (id i : Nat) (r : JobRun) : List Instance :=
  (jobChanged l id i (fun _ => r)).map (fun y => if y.id = id then { y with fired := some (y.fired.getD s.ridge) } else y)

/-- A firing ends its work: its result is formed, or its last descriptor has completed, in state `u`; its peg is configured, and its
instance has not been cut at a deadline (R346, R347, R362). -/
def jobEnds (s : State) (ex : BitVec 32) (x : Instance) (j : JobRun) (u : State) : Prop :=
  findExec s ex.toNat = some (x, j) ∧ s.insts.find? (fun y => y.id == x.id) = some x ∧ jobAwake s j = true ∧ x.life ≠ .cut ∧
    (if j.entry.unit = 6 then encWaits s j.entry.result (64 + j.entry.descCount) = false ∧ runEmitter s x j = (0, u)
      else j.entry.descCount ≤ j.finished ∧ u = s) ∧
    pegUnconfigured u j.entry.peg = false

/-- An instance with job `i` done. -/
def doneJob (x : Instance) (i : Nat) : Instance :=
  { x with jobs := x.jobs.map (fun r => if r.entry.index = i then { r with stage := .done } else r) }

/-- The cycle graphs that are bound to a frame group, with their slots. -/
def boundGraphs (s : State) (g : Nat) : List (Nat × Graph) :=
  s.graphs.filterMap (fun e => e.2.bind (fun gr => if gr.bound && gr.fg == g then some (e.1, gr) else none))

/-- A frame group's cycles as it follows recorded launches (R358). -/
def replayCycle (running : List (Nat × Nat × Nat)) (l : List (Nat × Nat)) : FgCycle :=
  match l with
  | c :: rest => { running := running, cycle := some c, replay := rest }
  | [] => { running := running }

/-- The next entry of the replay is due, and nothing that it writes is being zero-filled (R358, R359, R380). -/
def entryDue (s : State) (d : Int) (t kind src aux : Nat) (b : List Byte) : Prop :=
  s.rr.delta = some d ∧ s.rr.ended = false ∧ rrEntry s s.rr.pos = some (t, kind, src, aux, b) ∧ (t : Int) + d ≤ (s.ridge : Int) ∧
    (kind = 3 → encWaits s aux b.length = false)

/-- Where the replay goes on after an entry with payload `b`. -/
def entryNext (s : State) (b : List Byte) : Nat := (s.rr.pos + rrLen b.length) % rrUnits s

/-- The payload of a data flit as the receiver at a port reads it (R402, R504). -/
def flitPlain (s : State) (p : Nat) (b : List Byte) : List Byte :=
  let x := glOf s p
  let body := (b.drop 8).take 224
  if rdB s (A.GL_CFG p) 1 then
    padTo 224 (Config.gcmPlain x.key (flitIv (peerRing s p) (ringId s) x.peerPort x.rxFlits) body)
  else body

/-- The tag of a data flit holds; on a link without encryption nothing is asked of it (R403, R504). -/
def flitHolds (s : State) (p : Nat) (b : List Byte) : Bool :=
  let x := glOf s p
  !rdB s (A.GL_CFG p) 1 ||
    (padTo 16 (Config.gcmTag x.key (flitIv (peerRing s p) (ringId s) x.peerPort x.rxFlits) (b.take 8) (flitPlain s p b)) ==
      (b.drop 232).take 16)

/-- A time message to the device at the other end of a port, as it waits to be sent (R414). -/
def timePacket (s : State) (p kind v : Nat) : Packet :=
  { kind := kind, dst := peerRing s p, src := ringId s, cls := 0, vc := 2, timed := false, addr := v,
    dateline := rdB s (A.GL_CFG p) 2 }

/-- The READ_CPL that answers a READ_REQ with a status and bytes, as it waits at port `q` (R409). -/
def readAnswer (s : State) (q : Nat) (k : Packet) (st : Nat) (b : List Byte) : Packet :=
  { kind := 3, dst := k.src, src := ringId s, cls := k.cls, vc := 2, timed := ridgeLocked s, sent := lo32 s.ridge,
    dateline := rdB s (A.GL_CFG q) 2, readTag := k.readTag, status := st, execSeq := k.execSeq,
    len := if st = 0 then b.length else 1, payload := if st = 0 then b else [] }

/-- A port with the slots of a packet free again and owed to its peer (R406). -/
def owing (x : GlPort) (k : Packet) : GlPort :=
  { x with owed := smSet (fun _ => 0) x.owed (bufferClass k) (smGet (fun _ => 0) x.owed (bufferClass k) + packetSlots k) }

/-- The port without the packet at its head, whose slots it owes to the peer. -/
def headTaken (x : GlPort) (k : Packet) : GlPort := owing { x with rxq := x.rxq.drop 1 } k

end Sys2Proof.Safety
end

