-- ==== Sys2Proof/WellFormed.lean ====
section
/-!
DEFINITION. Which commands are well formed: the shape their operands must have to be a frame, a flit, an access or
a request of the spec at all. A meaning is total without it; a command that is not well formed is none the outside can send.
-/

namespace Sys2Proof

/-- An access of BAR2 is one transaction of 1 to 4,096 bytes inside the aperture (R23, R400). -/
def accessFits (off : Nat) : BusAccess → Bool
  | .read n => decide (1 ≤ n ∧ n ≤ 4096 ∧ off + n ≤ 2 ^ 28)
  | .write b => decide (1 ≤ b.length ∧ b.length ≤ 4096 ∧ off + b.length ≤ 2 ^ 28)

/-- An Ethernet frame carries at most 1,500 bytes of client data (R97: a 16-byte header and 1,484 bytes). -/
def frameFits (f : EthFrame) : Bool := decide (f.data.length ≤ 1500)

/-- A loss of bank cycles is of at least one access (R284). -/
def lossReal : Option BankLoss → Bool
  | some l => decide (1 ≤ l.count)
  | none => true

/-- The chroma planes of a decoded picture are of one size, no larger than its luma plane (Table 6.1: 4:2:0). -/
def pictureFits : Option Picture → Bool
  | some p => decide (p.cb.length = p.cr.length ∧ p.cb.length ≤ p.y.length)
  | none => true

/-- The command is well formed. -/
def Instr.wellFormed : Instr → Bool
  | .powerOnReset => true
  | .powerGood => true
  | .railWindowFault _ _ => true
  | .clockLost _ _ => true
  | .pllUnlocked _ => true
  | .aonFault => true
  | .imageBegin _ _ _ => true
  | .imageChunk _ _ data => decide (1 ≤ data.length ∧ data.length ≤ 1476)
  | .imageEnd _ _ => true
  | .imageTimeout => true
  | .configWaitTimeout => true
  | .dramTrainingDone _ => true
  | .powerOnBistDone failed => decide failed.Nodup
  | .bootComplete => true
  | .registerWrite _ _ bytes => !bytes.isEmpty
  | .postedWriteApply _ => true
  | .evtAck _ _ _ _ => true
  | .mbxSelCapture _ _ _ => true
  | .mbxSelCancel _ _ => true
  | .mbxCaptureDone _ => true
  | .key _ _ _ => true
  | .unlockLapse _ _ => true
  | .lock _ _ _ => true
  | .updateStrobe _ _ => true
  | .updateGroupApply _ => true
  | .podPortWrite off bytes => !bytes.isEmpty && decide (off.toNat + bytes.length ≤ 2 ^ 20)
  | .podResync _ _ => true
  | .podReceive _ _ => true
  | .podStart _ => true
  | .originClose _ => true
  | .originWindowClose _ => true
  | .retainCfg _ _ => true
  | .bar2Access off acc _ => accessFits off.toNat acc
  | .remoteTimeout => true
  | .u4Aperture _ _ => true
  | .functionLevelReset => true
  | .msixUnmask _ _ _ => true
  | .usb4BlockReceive _ _ _ => true
  | .hostLinkDown _ => true
  | .hostLinkUp _ => true
  | .tsfFrameReceive _ frame _ => frameFits frame
  | .streamWindowStart _ _ => true
  | .fsDeadline _ _ => true
  | .feDeadline _ _ => true
  | .tpDeadline _ _ => true
  | .streamEnable _ _ _ _ => true
  | .camSettings _ => true
  | .controlResponse _ => true
  | .camAckTimeout _ => true
  | .settingsApplyRidge _ => true
  | .gptpSyncSend _ => true
  | .gptpMessageReceive _ _ => true
  | .sensorLinkUp _ => true
  | .sensorLinkDown _ _ => true
  | .mkaFrameReceive _ _ => true
  | .macsecRekey _ => true
  | .oldSaExpire _ => true
  | .pipeLine _ _ _ => true
  | .statisticsPod _ _ => true
  | .ppFormationStart => true
  | .ppFormationDone => true
  | .batchSubmit _ => true
  | .queueReset _ => true
  | .decodeSampleStart _ _ => true
  | .decodeSampleDone _ pic => pictureFits pic
  | .decodeDeadline _ => true
  | .decodeConfigApply _ => true
  | .arrayIssue _ n => decide (1 ≤ n.val)
  | .weightTileLoad _ _ _ _ => true
  | .arrayTileDone _ _ => true
  | .abftVerdict _ => true
  | .abftLate _ => true
  | .arrayOperationDone _ loss => lossReal loss
  | .ballastEnd _ _ => true
  | .activityLevelStep _ _ => true
  | .arrFence _ _ _ _ => true
  | .abftInject _ _ _ => true
  | .engineIssue _ _ => true
  | .engineOperationDone _ _ loss _ => lossReal loss
  | .engFence _ _ _ _ => true
  | .engInject _ _ _ _ => true
  | .scratchScrubPass _ _ => true
  | .scrInject _ _ _ => true
  | .pegCount _ _ _ => true
  | .pegCfg _ _ _ => true
  | .pegIncWrite _ _ _ => true
  | .rollEnable _ _ _ _ => true
  | .rollAppendReserve _ _ => true
  | .rollAppendCommit _ _ => true
  | .rollCommit _ _ _ _ => true
  | .rollRelease _ _ _ _ => true
  | .rollReset _ _ _ => true
  | .seqOpen _ => true
  | .seqClose _ => true
  | .seqAppend _ => true
  | .seqStage _ => true
  | .stageStart _ => true
  | .stageCopyDone _ _ => true
  | .seqRelease _ => true
  | .seqImportance _ => true
  | .seqRestore _ => true
  | .recomputeTimeout _ _ => true
  | .seqCtl _ _ => true
  | .seqInject _ _ => true
  | .graphLoad _ => true
  | .graphUnload _ => true
  | .instanceStart _ => true
  | .cycleLaunch _ => true
  | .jobFire => true
  | .jobComplete _ => true
  | .jobTimeout _ => true
  | .cycleDeadline _ => true
  | .fgEnable _ _ => true
  | .fgDisable _ _ => true
  | .detCtl _ _ => true
  | .rrRecord _ _ => true
  | .rrReplay _ _ => true
  | .rrOff _ _ => true
  | .replayEntry => true
  | .ringPodWrite _ => true
  | .ringWaitExpire _ => true
  | .ringTail _ _ _ => true
  | .ringCfgWrite _ _ _ => true
  | .msixCoalesceExpire _ => true
  | .dramRefresh _ => true
  | .dramTempSample _ => true
  | .dramCeRate _ => true
  | .dramScrubPass _ => true
  | .chInject _ _ _ => true
  | .encRegionEnable _ _ _ => true
  | .encRegionReady _ => true
  | .encRegionDisable _ _ _ => true
  | .guylineFlitReceive _ flit _ _ => decide (flit.length = 256)
  | .flitAckTimeout _ => true
  | .linkRetryFail _ _ => true
  | .guylineTrainingDone _ t => decide (t.kem.length = 1568 ∧ t.ik.length = 1793)
  | .guylinePacketSend _ => true
  | .glWrite _ _ => true
  | .glReadReq _ => true
  | .glReadCpl _ => true
  | .glPod _ => true
  | .glPegInc _ => true
  | .glSync _ => true
  | .glDelayReq _ => true
  | .glDelayResp _ _ _ => true
  | .syncInterval _ => true
  | .syncTimeout => true
  | .routeFailover _ => true
  | .routeRestore _ => true
  | .openFibre _ _ => true
  | .lightReceived _ => true
  | .probeStart _ => true
  | .probeEnd _ => true
  | .laserFault _ _ => true
  | .mgtHello _ => true
  | .mgtStart _ _ _ nonce => decide (nonce.length = 32)
  | .mgtGet _ _ _ => true
  | .mgtPutCt _ _ data => decide (1 ≤ data.length ∧ data.length ≤ 1024)
  | .mgtPutKey _ _ data => decide (1 ≤ data.length ∧ data.length ≤ 1024)
  | .mgtFinish _ sig => decide (sig.length = 1280)
  | .sessionClose _ => true
  | .sessionIdleTimeout => true
  | .mgtRegRead _ _ => true
  | .mgtRegWrite _ _ _ => true
  | .mgtMemRead _ _ len => len != 0
  | .mgtMemWrite _ _ bytes => decide (1 ≤ bytes.length ∧ bytes.length ≤ 1484)
  | .mgtReset _ => true
  | .resetExecute => true
  | .mgtStatus _ => true
  | .lanternWordBoundary => true
  | .lanternTest _ _ => true
  | .lanternTestEnd => true
  | .sentryEnable _ _ => true
  | .sentryRunStart => true
  | .sentryRunEnd cells _ _ => decide (cells.length ≤ 65536)
  | .sntInject _ _ => true
  | .compEnable _ _ => true
  | .judgementCutOff => true
  | .compVerdict _ => true
  | .lockstepMismatch _ _ => true
  | .lsDebugHalt _ _ _ => true
  | .lsDebugResume _ => true
  | .lsInject _ _ => true
  | .faultReport _ => true
  | .faultLevelClear _ => true
  | .quietPeriodExpire => true
  | .fcSelfFault _ _ => true
  | .fcForceSafe _ _ => true
  | .fcKill _ _ => true
  | .fcInject _ _ => true
  | .reexecutionStart _ => true
  | .bistCmd _ _ => true
  | .bistResult _ => true
  | .bistSliceStart _ => true
  | .bistSliceEnd _ _ => true
  | .coverageLapse _ => true
  | .coverageLapseDouble _ => true
  | .wdKick _ _ _ => true
  | .watchdogExpired _ => true
  | .attest _ => true
  | .attestOutputWritten => true
  | .hostAuth _ => true
  | .keyImport _ => true
  | .modelImport _ => true
  | .keyClear _ => true
  | .regionSet _ => true
  | .secSvnCommit _ _ => true
  | .trngFailed => true
  | .pmSleep _ => true
  | .h4Wake _ => true
  | .pmBudgetInterval m => decide (m.levels.length = 16) && m.levels.all (fun l => decide (l.length = 17))
  | .governorSample _ => true
  | .pmEmergencyCap _ _ => true
  | .dramHotReduction => true
  | .dieTempSample _ => true
  | .clockStep => true
  | .holdLevelEntry _ _ => true
  | .domainWake _ => true
  | .pmWake _ _ _ => true
  | .mgtLinkUp => true
  | .mgtLinkDown => true
  | .patrolScrubRead _ _ => true
  | .seqCommandComplete _ _ => true
  | .modelImportDone => true
  | .coreRestarted _ => true

end Sys2Proof
end

