-- ==== Sys2Proof/Certificates/Slice0/Obligations.lean ====
section
/-!
DEFINITION. What the model is claimed to do: the statements for the provers.
-/

open Sys2Proof Sys2Proof.Machine Sys2Proof.Safety

/-- O1. A step takes the command at the front. For every command c and every state whose queue begins with c, one step
is exec of c on the state with the rest of the queue. -/
def Obligations.StepTakesFront : Prop :=
  ∀ (c : Instr) (rest : List Instr) (s : State), s.pending = c :: rest → step s = exec c (s.withPending rest)

/-- O2. On an empty queue the ridge counter ticks. With an empty queue a step changes nothing but ridge time: while
reset is held nothing; otherwise the ridge count rises by one, and while the counter slews every 5,000th tick is
doubled or left out. That a step on an empty queue is one tick is the model's choice (log entry 1). -/
def Obligations.EmptyQueueTicks : Prop :=
  ∀ s : State, s.pending = [] →
    (s.power = .held → step s = .next s) ∧
    (s.power ≠ .held → s.time.slew = 0 → step s = .next { s with ridge := s.ridge + 1 }) ∧
    (s.power ≠ .held → s.time.slew ≠ 0 → s.time.phase < 4999 →
      step s = .next { s with ridge := s.ridge + 1, time := { s.time with phase := s.time.phase + 1 } }) ∧
    (s.power ≠ .held → 0 < s.time.slew → 4999 ≤ s.time.phase →
      step s = .next { s with ridge := s.ridge + 2, time := { s.time with phase := 0, slew := s.time.slew - 1 } }) ∧
    (s.power ≠ .held → s.time.slew < 0 → 4999 ≤ s.time.phase →
      step s = .next { s with time := { s.time with phase := 0, slew := s.time.slew + 1 } })

/-- O3. No command stops the block. Every command, on every state, answers a next state; no command ends in a fault or a
refusal. The effect itself is the subject of the other statements. -/
def Obligations.EveryCommandGoesOn : Prop :=
  ∀ (c : Instr) (s : State), ∃ t, exec c s = .next t

/-- O4. A block that is held in reset or asleep ignores commands. While reset is asserted or the device is in H4, a
command other than POWER_ON_RESET, POWER_GOOD and H4_WAKE changes nothing. -/
def Obligations.OffBlockIsInert : Prop :=
  ∀ (c : Instr) (s : State), s.power ≠ .on → c ≠ .powerOnReset → c ≠ .powerGood → (∀ light, c ≠ .h4Wake light) →
    exec c s = .next s

/-- O5. Every step keeps the memories canonical. Whatever step a state takes, where the local memory, the host memory
and the sentry SRAM of the state are in canonical form (addresses strictly rising, no byte equal to what an unlisted
address reads as), those of the next state are. -/
def Obligations.StepKeepsCanonicalMemory : Prop :=
  ∀ s t : State, MemoryCanonical s → step s = .next t → MemoryCanonical t

/-- O6. The memories are canonical at reset. The memories of the state after reset are in canonical form; they list
nothing. -/
def Obligations.ResetMemoryCanonical : Prop :=
  MemoryCanonical State.reset ∧ State.reset.mem = [] ∧ State.reset.hostMem = [] ∧ State.reset.sntMem = []

/-- O7. A fuse bit is never restored. No step of any command, from any state, restores a fuse bit: an owner key hash
once provisioned stays that hash, every privilege, revocation, split and debug-disable bit once blown stays blown,
the security version counter never falls, and the serial number and grade never change. -/
def Obligations.FusesNeverRestored : Prop :=
  ∀ s t : State, step s = .next t → FusesGrow s.fuses t.fuses

/-- O8. A command leaves the queue alone. No command changes the queue of waiting commands. -/
def Obligations.ExecLeavesQueue : Prop :=
  ∀ (c : Instr) (s t : State), exec c s = .next t → t.pending = s.pending

/-- O9. What each command leaves alone. For each of the 225 commands, every part of the state that the table mayChange
of Safety.lean does not list for it is the same in the next state: memories, pegs, pods, queues, engines, links,
collectors, sentry, lanterns, power management, security, fuses. (The registers are the subject of the statements on
each command.) -/
def Obligations.CommandFrame : Prop :=
  ∀ (c : Instr) (s t : State) (p : Part), exec c s = .next t → p ∉ mayChange c → p.Same s t

/-- O10. The state after reset. After reset every register reads its reset value, no posted write, capture, unlock or
armed group is held, no LOCK is set, no peg, pod, session, key, graph, instance or operation exists, the ridge count
is 0, and the queue is empty. Where the spec gives a register no reset value, the value is the model's (log entries
named in NOTES.md). -/
def Obligations.ResetState : Prop :=
  (∀ a, rd State.reset a = regReset a % 4294967296) ∧
  (∀ p, postedOf State.reset p = [] ∧ (0x000 ≤ p → p < 0x300 → hasHeader p = true → locked State.reset p = false)) ∧
  State.reset.rf.captures = [] ∧ State.reset.rf.unlocks = [] ∧ State.reset.pegs = [] ∧ State.reset.pods = {} ∧
  State.reset.mgt = {} ∧ State.reset.keySlots = [] ∧ State.reset.graphs = [] ∧ State.reset.insts = [] ∧
  State.reset.ops = [] ∧ State.reset.rolls = [] ∧ State.reset.ridge = 0 ∧ State.reset.power = .on ∧
  State.reset.pending = []

/-- O11. Power-on reset, power good and the management reset. POWER_ON_RESET in any state, POWER_GOOD while reset is
held, and RESET_EXECUTE 1 ms after a verified RESET clear every register, peg, pod window, key, session, graph,
instance and operation and every LOCK; the fuses keep their state, and waiting commands keep waiting. After
POWER_ON_RESET reset is asserted; after the other two the device runs, with the clocks that the ROM starts. -/
def Obligations.ResetsClear : Prop :=
  (∀ (s : State), ∃ t, exec .powerOnReset s = .next t ∧
      t.power = .held ∧ t.fuses = s.fuses ∧ t.pegs = [] ∧ t.pods = {} ∧ t.keySlots = [] ∧ t.mgt = {} ∧ t.sec = {} ∧ t.mem = [] ∧ t.insts = [] ∧ t.ops = [] ∧ t.graphs = [] ∧ t.ridge = 0 ∧ (∀ a, rd t a = regReset a % 4294967296)) ∧
  (∀ (s : State), s.power = .held → ∃ t, exec .powerGood s = .next t ∧
      t.power = .on ∧ t.fuses = s.fuses ∧ t.pegs = [] ∧ t.pods = {} ∧ t.keySlots = [] ∧ t.mgt = {} ∧ t.sec = {} ∧ t.mem = [] ∧ t.insts = [] ∧ t.ops = [] ∧ t.graphs = [] ∧ t.ridge = 0 ∧ (∀ a, (∀ d, a ≠ A.CLK_STATUS d) → rd t a = regReset a % 4294967296)) ∧
  (∀ (w : Nat) (s : State), s.power = .on → s.mgt.resetAt = some w → w ≤ s.ridge → ∃ t, exec .resetExecute s = .next t ∧
      t.power = .on ∧ t.fuses = s.fuses ∧ t.pegs = [] ∧ t.pods = {} ∧ t.keySlots = [] ∧ t.mgt = {} ∧ t.sec = {} ∧ t.mem = [] ∧ t.insts = [] ∧ t.ops = [] ∧ t.graphs = [] ∧ t.ridge = 0 ∧ (∀ a, (∀ d, a ≠ A.CLK_STATUS d) → rd t a = regReset a % 4294967296))

/-- O12. Hold level H4. A PM_SLEEP pod whose reserved bytes are zero puts the device into H4 when nothing of R531
forbids it: it sleeps until the count its body names, every DRAM channel is in self-refresh, the sleep is counted,
and scratch and the page cache are lost. H4_WAKE by light, or at the wake count, brings the device back on, with
every channel out of self-refresh and READY due. -/
def Obligations.SleepAndWake : Prop :=
  (∀ (no : Nat) (p : RxPod) (s : State), s.power = .on → runningControl s no 0xA 0x10 = some p → p.hdr.length = 2 → leAt p.body 8 8 = 0 → sleepRefused s no = false → ∃ t, exec (.pmSleep no) s = .next t ∧
      t.power = .asleep ∧ PodDone t no 0 ∧ t.sec.wakeAt = (if leAt p.body 0 8 = 0 then none else some (leAt p.body 0 8)) ∧ (∀ c ∈ t.mem, 0x1000000000 ≤ c.1) ∧ (∀ ch < 16, rdB t (A.CH_STATUS ch) 2 = true)) ∧
  (∀ (light : Bool) (s : State), s.power = .asleep → (light = true ∨ ∃ w, s.sec.wakeAt = some w ∧ w ≤ s.ridge) → ∃ t, exec (.h4Wake light) s = .next t ∧
      t.power = .on ∧ t.sec.wakeAt = none ∧ (∀ ch < 16, rdB t (A.CH_STATUS ch) 2 = false) ∧ (ringOn s (eventRing s) = false → t.sec.ready.isSome = true))

/-- O13. Training, power-on self-test and the end of boot. DRAM_TRAINING_DONE in stage 3 or 4 sets trained for exactly
the channels that trained and goes to stage 5, or stops boot in stage 4 with MEM_TRAIN_FAIL where a channel failed.
POWER_ON_BIST_DONE in stage 5 without a configuration image ends the register list at once, whatever units failed.
BOOT_COMPLETE then enters stage 6, sets ready, raises the flag of page 0x010 and lets the lanterns light.
CONFIG_WAIT_TIMEOUT, 2 s after the firmware image, boots on without a configuration image, and IMAGE_TIMEOUT
abandons a transfer that has had no request for 2 s. -/
def Obligations.BootStages : Prop :=
  (∀ (failed : BitVec 16) (s : State), s.power = .on → s.sec.stopped = false → (fwStage s = 3 ∨ fwStage s = 4) → ∃ t, exec (.dramTrainingDone failed) s = .next t ∧
      (∀ ch < 16, rdB t (A.CH_STATUS ch) 0 = !bitN failed.toNat ch) ∧ rdF t A.MEM_STATUS 15 0 = 65535 - failed.toNat ∧ fwStage t = (if failed = 0 then 5 else 4) ∧ ((failed ≠ 0 → t.sec.stopped = true ∧ rdF t A.FW_STATUS 31 16 = St.MEM_TRAIN_FAIL))) ∧
  (∀ (failed : List (BitVec 6)) (s : State), s.power = .on → s.sec.stopped = false → fwStage s = 5 → s.sec.configured = false → s.sec.cfg = none → ∃ t, exec (.powerOnBistDone failed) s = .next t ∧
      t.sec.configured = true) ∧
  (∀ (s : State), s.power = .on → s.sec.stopped = false → fwStage s = 5 → s.sec.configured = true → ∃ t, exec .bootComplete s = .next t ∧
      fwStage t = 6 ∧ rdB t A.PM_STATUS 8 = true ∧ t.lantern.booted = true ∧ bitN (evtFlags t 0x010) 4 = true ∧ ((ringOn s (eventRing s) = false → t.sec.ready.isSome = true))) ∧
  (∀ (w : Nat) (s : State), s.power = .on → s.sec.cfgWait = some w → fwStage s = 2 → w + 2000000000 ≤ s.ridge → ∃ t, exec .configWaitTimeout s = .next t ∧
      fwStage t = 3 ∧ t.sec.cfgWait = none ∧ t.sec.xfer = none) ∧
  (∀ (x : Transfer) (s : State), s.power = .on → s.sec.xfer = some x → x.lastAt + 2000000000 ≤ s.ridge → ∃ t, exec .imageTimeout s = .next t ∧
      t.sec.xfer = none ∧ rdF t A.FW_STATUS 31 16 = St.IMAGE_TIMEOUT ∧ rdF t A.FW_STATUS 15 0 = rdF s A.FW_STATUS 15 0 ∧ (∀ a, a ≠ A.FW_STATUS → rd t a = rd s a))

/-- O14. Image transfer. An IMAGE_BEGIN that is taken and whose kind and length are accepted binds the transfer to its
sender; an IMAGE_CHUNK of the bound sender stages exactly its bytes and notes the span; an IMAGE_END of the bound
sender answers with the status of the checks, with the version and M where they pass, ends the transfer, and under
the ROM an accepted firmware image leads to stage 2, its version in FW_VERSION. -/
def Obligations.ImageRequests : Prop :=
  (∀ (f : MgtFrame) (kind : BitVec 8) (len : Word) (u : State) (s : State), s.power = .on → mgtTaken s f 2 (imageNeed s) = some u → boundElsewhere u f = false → ((u.sec.stopped = true → underRom u = false)) → kindExpected u kind.toNat = true → lengthOk kind.toNat len.toNat = true → f.seq ≠ 0xFFFFFFFF → ∃ t, exec (.imageBegin f kind len) s = .next t ∧
      t.sec.xfer = some { src := f.src.toNat, kind := kind.toNat, len := len.toNat, lastAt := u.ridge } ∧ t.sec.cfgWait = none ∧ t.mgtOut = u.mgtOut ++ [respOf f 2 0 []]) ∧
  (∀ (f : MgtFrame) (off : Word) (data : List Byte) (u : State) (x : Transfer) (s : State), s.power = .on → mgtTaken s f 3 (imageNeed s) = some u → transferOf u f = some x → off.toNat % 64 = 0 → 1 ≤ data.length → data.length ≤ 1472 → off.toNat + data.length ≤ x.len → (data.length % 64 = 0 ∨ off.toNat + data.length = x.len) → f.seq ≠ 0xFFFFFFFF → ∃ t, exec (.imageChunk f off data) s = .next t ∧
      (∀ i < data.length, memByte t (stageAddr u x.kind (off.toNat + i)) = data.getD i 0) ∧ t.sec.xfer = some { x with lastAt := u.ridge, got := x.got ++ [(off.toNat, data.length)] } ∧ t.mgtOut = u.mgtOut ++ [respOf f 3 0 []]) ∧
  (∀ (f : MgtFrame) (fails : Bool) (u : State) (x : Transfer) (s : State), s.power = .on → mgtTaken s f 4 (imageNeed s) = some u → transferOf u f = some x → f.seq ≠ 0xFFFFFFFF → ∃ t, exec (.imageEnd f fails) s = .next t ∧
      t.sec.xfer = none ∧ t.mgtOut = u.mgtOut ++ [respOf f 4 (imageStatus u x (stagedBytes u x.kind x.len)) (if imageStatus u x (stagedBytes u x.kind x.len) = 0 then imageBody (stagedBytes u x.kind x.len) else [])] ∧ ((underRom u = true → x.kind = 1 → imageStatus u x (stagedBytes u x.kind x.len) = 0 → fwStage t = 2 ∧ rd t A.FW_VERSION = leAt (stagedBytes u x.kind x.len) 8 4)))

/-- O15. A transfer is bound to one sender. The first accepted IMAGE_BEGIN binds the transfer to its source address;
while it runs, IMAGE requests of any other address that are taken are refused with IMAGE_BUSY and leave it as it is;
a transfer without a request for 2 s is abandoned with IMAGE_TIMEOUT; and an IMAGE_BEGIN from the bound address
restarts it. -/
def Obligations.TransferBound : Prop :=
  (∀ (f : MgtFrame) (kind : BitVec 8) (len : Word) (s u : State), s.power = .on →
    mgtTaken s f 2 (imageNeed s) = some u → (u.sec.xfer = none ∨ ∃ x, u.sec.xfer = some x ∧ x.src = f.src.toNat) →
    (u.sec.stopped = true → underRom u = false) → kindExpected u kind.toNat = true → lengthOk kind.toNat len.toNat = true →
    ∃ t, exec (.imageBegin f kind len) s = .next t ∧
      t.sec.xfer = some { src := f.src.toNat, kind := kind.toNat, len := len.toNat, got := [], lastAt := u.ridge }) ∧
  (∀ (f : MgtFrame) (c : Instr) (op : Nat) (s u : State) (x : Transfer), s.power = .on →
    ((∃ kind len, c = .imageBegin f kind len ∧ op = 2) ∨ (∃ off data, c = .imageChunk f off data ∧ op = 3) ∨
      (∃ fails, c = .imageEnd f fails ∧ op = 4)) →
    mgtTaken s f op (imageNeed s) = some u → u.sec.xfer = some x → x.src ≠ f.src.toNat →
    ∃ t, exec c s = .next t ∧ t.sec.xfer = some x ∧ t.mgtOut = u.mgtOut ++ [respOf f op St.IMAGE_BUSY []]) ∧
  (∀ (s : State) (x : Transfer), s.power = .on → s.sec.xfer = some x → x.lastAt + 2000000000 ≤ s.ridge →
    ∃ t, exec .imageTimeout s = .next t ∧ t.sec.xfer = none ∧ rdF t A.FW_STATUS 31 16 = St.IMAGE_TIMEOUT)

/-- O16. Management requests outside a session. HELLO and STATUS that are taken are answered with status 0 and their
body; START that can be granted begins a handshake of its sender, GET answers up to 1,024 bytes of the object from
the offset, PUT_CT and PUT_KEY put their fragment, and FINISH ends the handshake: where the owner key and the
signature are right the session is open with the privileges of the handshake, otherwise it answers
SESSION_AUTH_FAIL. -/
def Obligations.ManagementOpen : Prop :=
  (∀ (f : MgtFrame) (u : State) (s : State), s.power = .on → mgtTaken s f 1 .open_ = some u → ∃ t, exec (.mgtHello f) s = .next t ∧
      t.mgtOut = u.mgtOut ++ [respOf f 1 0 (helloBody u)]) ∧
  (∀ (f : MgtFrame) (u : State) (s : State), s.power = .on → mgtTaken s f 49 .open_ = some u → ∃ t, exec (.mgtStatus f) s = .next t ∧
      t.mgtOut = u.mgtOut ++ [respOf f 0x31 0 (statusBody u)]) ∧
  (∀ (f : MgtFrame) (slot privs : BitVec 8) (nonce : List Byte) (u : State) (s : State), s.power = .on → mgtTaken s f 16 .open_ = some u → startStatus u f slot.toNat privs.toNat = 0 → ∃ t, exec (.mgtStart f slot privs nonce) s = .next t ∧
      ∃ h, t.mgt.shake = some h ∧ h.src = f.src.toNat ∧ h.slot = slot.toNat ∧ h.privs = privs.toNat ∧ h.clientNonce = padTo 32 nonce ∧ h.startedAt = u.ridge ∧ h.ct = [] ∧ h.pk = [] ∧ t.mgtOut = u.mgtOut ++ [respOf f 0x10 0 (h.deviceNonce ++ leBytes 4 h.id)]) ∧
  (∀ (f : MgtFrame) (obj : BitVec 8) (off : BitVec 16) (u : State) (h : Handshake) (s : State), s.power = .on → mgtTaken s f 16 .open_ = some u → ((obj = 0 → shakeOf u f = some h)) → obj.toNat ≤ 2 → ∃ t, exec (.mgtGet f obj off) s = .next t ∧
      t.mgtOut = u.mgtOut ++ [respOf f 0x10 0 ((if obj = 1 then aliasCert u else if obj = 2 then ikPublic u else padTo 1568 (Config.kemPublic h.seed)).drop off.toNat |>.take 1024)]) ∧
  (∀ (f : MgtFrame) (off : BitVec 16) (data : List Byte) (u : State) (h : Handshake) (s : State), s.power = .on → mgtTaken s f 16 .open_ = some u → shakeOf u f = some h → data.length ≤ 1024 → off.toNat + data.length ≤ 1568 → f.seq ≠ 0xFFFFFFFF → ∃ t, exec (.mgtPutCt f off data) s = .next t ∧
      t.mgt.shake = some { h with ct := putFragment h.ct off.toNat data } ∧ t.mgtOut = u.mgtOut ++ [respOf f 0x10 0 []]) ∧
  (∀ (f : MgtFrame) (off : BitVec 16) (data : List Byte) (u : State) (h : Handshake) (s : State), s.power = .on → mgtTaken s f 16 .open_ = some u → shakeOf u f = some h → data.length ≤ 1024 → off.toNat + data.length ≤ 1793 → f.seq ≠ 0xFFFFFFFF → ∃ t, exec (.mgtPutKey f off data) s = .next t ∧
      t.mgt.shake = some { h with pk := putFragment h.pk off.toNat data } ∧ t.mgtOut = u.mgtOut ++ [respOf f 0x10 0 []]) ∧
  (∀ (f : MgtFrame) (sig : List Byte) (u : State) (h : Handshake) (s : State), s.power = .on → mgtTaken s f 16 .open_ = some u → shakeOf u f = some h → f.seq ≠ 0xFFFFFFFF → ∃ t, exec (.mgtFinish f sig) s = .next t ∧
      t.mgt.shake = none ∧ (if h.ct.length = 1568 ∧ h.pk.length = 1793 ∧ smGet (fun _ => none) u.fuses.owners h.slot = some (padTo 32 (Config.shake256 32 h.pk)) ∧ Config.falconVerify h.pk (transcript u h) sig = true then t.mgt.session = some { id := h.id, src := h.src, slot := h.slot, privs := h.privs, lastAt := u.ridge } ∧ rdB t A.MGT_STATUS 1 = true ∧ rdB t A.SEC_STATUS 2 = true else t.mgt.session = u.mgt.session ∧ t.mgtOut = u.mgtOut ++ [respOf f 0x10 St.SESSION_AUTH_FAIL []]))

/-- O17. Management requests in a session. In an open session with the privilege that the operation needs: REG_READ and
REG_WRITE reach the device's own registers, MEM_READ and MEM_WRITE its memory, all as agent management port, with
the access's status in the response; RESET answers and sets the reset 1 ms ahead; SESSION_CLOSE and 60 s without a
request close the session. MGT_LINK_UP brings the port up while its lane is fit, and MGT_LINK_DOWN takes it down and
raises the flag of page 0x2A0. -/
def Obligations.ManagementSession : Prop :=
  (∀ (f : MgtFrame) (addr : BitVec 56) (u : State) (s : State), s.power = .on → mgtTaken s f 32 (.priv 1) = some u → isLocal u addr.toNat = true → place (addrLocal addr.toNat) = .regs → ∃ t, exec (.mgtRegRead f addr) s = .next t ∧
      t.mgtOut = u.mgtOut ++ [respOf f 0x20 0 (regRead u .management (addrLocal addr.toNat) 4).1]) ∧
  (∀ (f : MgtFrame) (addr : BitVec 56) (v : Word) (u : State) (s : State), s.power = .on → mgtTaken s f 33 (.priv 1) = some u → isLocal u addr.toNat = true → place (addrLocal addr.toNat) = .regs → f.seq ≠ 0xFFFFFFFF → ∃ t, exec (.mgtRegWrite f addr v) s = .next t ∧
      t.mgtOut = u.mgtOut ++ [respOf f 0x21 (if addrLocal addr.toNat = A.SEC_SVN_COMMIT then (svnCommit u .management v.toNat).1 else 0) []] ∧ ((∀ a, a ≠ A.MGT_REQUESTS → ¬eventAddr 0x0E0 a → rd t a = rd (regWrite u .management (addrLocal addr.toNat) (leBytes 4 v.toNat)) a))) ∧
  (∀ (f : MgtFrame) (addr : BitVec 56) (len : BitVec 11) (u : State) (s : State), s.power = .on → mgtWaits s addr.toNat len.toNat = false → mgtTaken s f 34 (.priv 2) = some u → isLocal u addr.toNat = true → (busRead u .management (addrLocal addr.toNat) len.toNat).1 ≠ St.ADDR_UNREACHABLE → ∃ t, exec (.mgtMemRead f addr len) s = .next t ∧
      t.mgtOut = u.mgtOut ++ [respOf f 0x22 (busRead u .management (addrLocal addr.toNat) len.toNat).1 (if (busRead u .management (addrLocal addr.toNat) len.toNat).1 = 0 then (busRead u .management (addrLocal addr.toNat) len.toNat).2.1 else [])]) ∧
  (∀ (f : MgtFrame) (addr : BitVec 56) (bytes : List Byte) (u : State) (s : State), s.power = .on → mgtWaits s addr.toNat bytes.length = false → mgtTaken s f 35 (.priv 2) = some u → isLocal u addr.toNat = true → (busWrite u .management (addrLocal addr.toNat) bytes).1 ≠ St.ADDR_UNREACHABLE → ∃ t, exec (.mgtMemWrite f addr bytes) s = .next t ∧
      t.mgtOut = u.mgtOut ++ [respOf f 0x23 (busWrite u .management (addrLocal addr.toNat) bytes).1 []] ∧ t.mem = (busWrite u .management (addrLocal addr.toNat) bytes).2.mem) ∧
  (∀ (f : MgtFrame) (u : State) (s : State), s.power = .on → mgtTaken s f 48 (.priv 3) = some u → ∃ t, exec (.mgtReset f) s = .next t ∧
      t.mgt.resetAt = some (u.ridge + 1000000) ∧ t.mgtOut = u.mgtOut ++ [respOf f 0x30 0 []]) ∧
  (∀ (f : MgtFrame) (u : State) (s : State), s.power = .on → mgtTaken s f 17 .session = some u → ∃ t, exec (.sessionClose f) s = .next t ∧
      t.mgt.session = none ∧ t.mgt.shake = none ∧ rdB t A.MGT_STATUS 1 = false ∧ t.mgtOut = u.mgtOut ++ [respOf f 0x11 0 []]) ∧
  (∀ (x : Session) (s : State), s.power = .on → s.mgt.session = some x → x.lastAt + 60000000000 ≤ s.ridge → ∃ t, exec .sessionIdleTimeout s = .next t ∧
      t.mgt.session = none ∧ t.mgt.shake = none ∧ rdF t A.MGT_STATUS 2 1 = 0 ∧ rdB t A.SEC_STATUS 2 = false ∧ bitN (evtFlags t 0x030) 3 = true) ∧
  (∀ (s : State), s.power = .on → laneFit s 46 = true → ∃ t, exec .mgtLinkUp s = .next t ∧
      rdB t A.MGT_STATUS 0 = true ∧ rdF t A.MGT_STATUS 2 1 = rdF s A.MGT_STATUS 2 1) ∧
  (∀ (s : State), s.power = .on → rdB s A.MGT_STATUS 0 = true → ∃ t, exec .mgtLinkDown s = .next t ∧
      rdB t A.MGT_STATUS 0 = false ∧ rdF t A.MGT_STATUS 2 1 = rdF s A.MGT_STATUS 2 1 ∧ bitN (evtFlags t 0x2A0) 0 = true)

/-- O18. Supply and clock monitors. A rail outside its window counts in RAIL_FAULTS of that rail, raises flag 0 of page
0x011, and its source reports, once until the condition ends, SUPPLY_OVERVOLTAGE or SUPPLY_UNDERVOLTAGE; a lost REF
or SNT oscillator clears its bit of CLK_MON and raises flag 0 of page 0x020, a REF that stops darkens both lanterns;
a domain that loses lock is named in CLK_MON, loses its lock bit and raises flag 1 of page 0x020; an AON fault
clears its bit of CLK_MON, raises flag 2 and reports nothing. Every other register that these do not name is as it
was. -/
def Obligations.SupplyAndClockMonitors : Prop :=
  (∀ (rail : Fin 6) (above : Bool) (s : State), s.power = .on → ∃ t, exec (.railWindowFault rail above) s = .next t ∧
      rd t (A.RAIL_FAULTS rail.val) = min (rd s (A.RAIL_FAULTS rail.val) + 1) 0xFFFFFFFF ∧ bitN (evtFlags t 0x011) 0 = true ∧ ((levelActive s (if rail.val = 0 then 0x150 + b2n above else 0x151 + rail.val) = false → ∃ r, t.fc.inbox = s.fc.inbox ++ [r] ∧ r.source = (if rail.val = 0 then 0x150 + b2n above else 0x151 + rail.val) ∧ r.status = (if above then St.SUPPLY_OVERVOLTAGE else St.SUPPLY_UNDERVOLTAGE) ∧ r.detected = s.ridge)) ∧ ((levelActive s (if rail.val = 0 then 0x150 + b2n above else 0x151 + rail.val) = true → t.fc.inbox = s.fc.inbox)) ∧ (∀ a, ¬eventAddr 0x011 a → a ≠ A.RAIL_FAULTS rail.val → a ≠ A.FC_SRC_CFG (if rail.val = 0 then 0x150 + b2n above else 0x151 + rail.val) → rd t a = rd s a)) ∧
  (∀ (stopped : Bool) (s : State), s.power = .on → ∃ t, exec (.clockLost false stopped) s = .next t ∧
      rdB t A.CLK_MON 0 = false ∧ bitN (evtFlags t 0x020) 0 = true ∧ ((stopped = true → t.lantern.clockLost = true ∧ t.lantern.due = false ∧ rdF t A.LANTERN_STATUS 1 0 = 0)) ∧ ((stopped = false → t.lantern = s.lantern)) ∧ ((levelActive s 0x158 = false → ∃ r, t.fc.inbox = s.fc.inbox ++ [r] ∧ r.source = 0x158 ∧ r.status = St.CLOCK_LOST)) ∧ (∀ a, ¬eventAddr 0x020 a → a ≠ A.CLK_MON → a ≠ A.LANTERN_STATUS → a ≠ A.FC_SRC_CFG 0x158 → rd t a = rd s a)) ∧
  (∀ (stopped : Bool) (s : State), s.power = .on → ∃ t, exec (.clockLost true stopped) s = .next t ∧
      rdB t A.CLK_MON 1 = false ∧ bitN (evtFlags t 0x020) 0 = true ∧ t.lantern.clockLost = s.lantern.clockLost) ∧
  (∀ (d : Fin 26) (s : State), s.power = .on → pllDomain d.val = true → ∃ t, exec (.pllUnlocked d) s = .next t ∧
      rdF t A.CLK_MON 15 8 = d.val ∧ rdB t (A.CLK_STATUS (d.val - 1)) 4 = false ∧ bitN (evtFlags t 0x020) 1 = true ∧ levelActive t 0x15A = true ∧ (∀ a, ¬eventAddr 0x020 a → a ≠ A.CLK_MON → a ≠ A.CLK_STATUS (d.val - 1) → a ≠ A.FC_SRC_CFG 0x15A → rd t a = rd s a)) ∧
  (∀ (s : State), s.power = .on → ∃ t, exec .aonFault s = .next t ∧
      rdB t A.CLK_MON 2 = false ∧ bitN (evtFlags t 0x020) 2 = true ∧ t.fc.inbox = s.fc.inbox ∧ (∀ a, ¬eventAddr 0x020 a → a ≠ A.CLK_MON → rd t a = rd s a))

/-- O19. The power budget, the governor and the emergency cap. While the power-management core runs, a budget interval
writes the measured power, voltages and currents, and chooses for class S the largest level at which the package and
the VCORE limit hold with the other arrays at level 1, and for the others the largest that then still fits. A
governor sample sets or clears the governor bit by comparing the current with I_lim, keeps the highest current,
counts a new excess and, while it lasts, takes two levels off every array. A write of PM_EMERGENCY_CAP that takes
effect sets the cap, raised to 100 or lowered to 280, or removes it at 0, and changes no other register but
PM_STATUS. -/
def Obligations.PowerBudget : Prop :=
  (∀ (m : PowerSample) (s : State), s.power = .on → pmRuns s = true → ∃ t, exec (.pmBudgetInterval m) s = .next t ∧
      rd t A.PM_POWER = m.pkg.toNat ∧ (∀ r < 6, rd t (A.RAIL_V r) = (m.volts.toList.getD r 0).toNat ∧ rd t (A.RAIL_I r) = (m.amps.toList.getD r 0).toNat) ∧ t.pm.capS = topLevel 16 (fun l => packageFits s m l (min l 1) && currentFits s m l (min l 1)) ∧ t.pm.capAQ = topLevel t.pm.capS (fun l => packageFits s m t.pm.capS l && currentFits s m t.pm.capS l) ∧ rdB t A.PM_STATUS 0 = !packageFits s m 16 16 ∧ rdB t A.PM_STATUS 1 = !currentFits s m 16 16) ∧
  (∀ (ma : BitVec 20) (s : State), s.power = .on → ∃ t, exec (.governorSample ma) s = .next t ∧
      rdB t A.PM_STATUS 3 = decide (1000 * currentLimit s < ma.toNat) ∧ rdF t (A.RAIL_I_MAX 0) 19 0 = max (rdF s (A.RAIL_I_MAX 0) 19 0) ma.toNat ∧ ((ma.toNat ≤ 1000 * currentLimit s → t.pm.overAt = none ∧ t.arrays = s.arrays)) ∧ ((1000 * currentLimit s < ma.toNat → ∀ u < 16, (arrUnit t (u / 4) (u % 4)).gov = arrLevel s (u / 4) (u % 4) - 2)) ∧ ((1000 * currentLimit s < ma.toNat → rdB s A.PM_STATUS 3 = false → rd t A.PM_GOV_TRIPS = min (rd s A.PM_GOV_TRIPS + 1) 0xFFFFFFFF))) ∧
  (∀ (agent : Agent) (v : Word) (s : State), s.power = .on → takesEffectNow s agent A.PM_EMERGENCY_CAP v.toNat = true → ∃ t, exec (.pmEmergencyCap agent v) s = .next t ∧
      rdF t A.PM_EMERGENCY_CAP 8 0 = (if fldN v.toNat 8 0 = 0 then 0 else max 100 (min 280 (fldN v.toNat 8 0))) ∧ rdB t A.PM_STATUS 2 = decide (fldN v.toNat 8 0 ≠ 0) ∧ (∀ a, a ≠ A.PM_EMERGENCY_CAP → a ≠ A.PM_STATUS → rd t a = rd s a))

/-- O20. Heat: the working limit, the die sensors and clock steps. While a stack is hot, DRAM_HOT_REDUCTION lowers the
working limit by PM_HOT_STEP, not below 120 W, once every 100 ms. A die sample writes the hottest sensor and its
index into DIE_TEMP, raises flag 1 of page 0x011 where it comes to DIE_TEMP_HOT, and at 115 °C source 0x15B becomes
active. CLOCK_STEP on a hot die runs the array, cluster and sequence clocks one eighth slower, at once or, under
STRICT, at the next launch. -/
def Obligations.HeatAndClockSteps : Prop :=
  (∀ (s : State), s.power = .on → pmRuns s = true → dramHotAt s ≤ dramMax s → (∀ w, s.pm.limitAt = some w → w + 100000000 ≤ s.ridge) → ∃ t, exec .dramHotReduction s = .next t ∧
      t.pm.work = some (max 120 (workLimit s - rdF s A.PM_HOT_STEP 5 0)) ∧ t.pm.limitAt = some s.ridge ∧ rdB t A.PM_STATUS 4 = true ∧ bitN (evtFlags t 0x010) 2 = true ∧ (∀ a, ¬eventAddr 0x010 a → a ≠ A.PM_STATUS → rd t a = rd s a)) ∧
  (∀ (temps : Vector (BitVec 16) 16) (s : State), s.power = .on → ∃ t, exec (.dieTempSample temps) s = .next t ∧
      (∀ i < 16, sgn 16 (temps.toList.getD i 0).toNat ≤ sgn 16 (rdF t A.DIE_TEMP 15 0)) ∧ (rdF t A.DIE_TEMP 15 0 = (temps.toList.getD (rdF t A.DIE_TEMP 31 16) 0).toNat) ∧ rdF t A.DIE_TEMP 31 16 < 16 ∧ ((sgn 16 (rdF s A.DIE_TEMP 15 0) < rdF s A.DIE_TEMP_HOT 15 0 → (rdF s A.DIE_TEMP_HOT 15 0 : Int) ≤ sgn 16 (rdF t A.DIE_TEMP 15 0) → bitN (evtFlags t 0x011) 1 = true)) ∧ ((230 ≤ sgn 16 (rdF t A.DIE_TEMP 15 0) → levelActive t 0x15B = true)) ∧ (∀ a, ¬eventAddr 0x011 a → a ≠ A.DIE_TEMP → a ≠ A.FC_SRC_CFG 0x15B → rd t a = rd s a)) ∧
  (∀ (s : State), s.power = .on → pmRuns s = true → (rdF s A.DIE_TEMP_HOT 15 0 : Int) ≤ sgn 16 (rdF s A.DIE_TEMP 15 0) → s.pm.clockDue.getD (rdF s A.PM_STATUS 7 5) < 4 → (∀ w, s.pm.clockAt = some w → w + 10000000 ≤ s.ridge) → ∃ t, exec .clockStep s = .next t ∧
      t.pm.clockAt = some s.ridge ∧ ((strict s = true → t.pm.clockDue = some (s.pm.clockDue.getD (rdF s A.PM_STATUS 7 5) + 1) ∧ rdF t A.PM_STATUS 7 5 = rdF s A.PM_STATUS 7 5)) ∧ ((strict s = false → rdF t A.PM_STATUS 7 5 = s.pm.clockDue.getD (rdF s A.PM_STATUS 7 5) + 1 ∧ ∀ d ∈ steppedDomains, rd t (A.CLK_FREQ (d - 1)) = clockNominal d * (7 - s.pm.clockDue.getD (rdF s A.PM_STATUS 7 5)) / 8)))

/-- O21. Hold levels and wakes. A domain that is idle for the time of the next level descends exactly one level where
its limits admit it, and no other register changes. A requested wake of a held domain brings it to H0, counts it in
CLK_WAKES and ends the request. A write of a wake budget that takes effect sets it and requests the wake of every
domain deeper than the budget then allows. -/
def Obligations.HoldLevels : Prop :=
  (∀ (d : Fin 26) (idle : BitVec 64) (s : State), s.power = .on → d.val ≠ 0 → holdLevel s d.val + 1 ≤ 3 → holdLevel s d.val + 1 ≤ holdLimit s d.val → idleTicks (holdLevel s d.val + 1) ≤ idle.toNat → domainBusy s d.val = false → ∃ t, exec (.holdLevelEntry d idle) s = .next t ∧
      holdLevel t d.val = holdLevel s d.val + 1 ∧ (∀ a, a ≠ A.CLK_STATUS (d.val - 1) → rd t a = rd s a)) ∧
  (∀ (d : Fin 26) (s : State), s.power = .on → d.val ≠ 0 → holdLevel s d.val ≠ 0 → s.rf.wakes.contains d.val = true → ∃ t, exec (.domainWake d) s = .next t ∧
      holdLevel t d.val = 0 ∧ t.rf.wakes = s.rf.wakes.filter (fun x => x != d.val)) ∧
  (∀ (agent : Agent) (c : Fin 3) (v : Word) (s : State), s.power = .on → takesEffect s agent (wakeAddr c.val) v.toNat = true → ∃ t, exec (.pmWake agent c v) s = .next t ∧
      rdF t (wakeAddr c.val) 17 0 = (if fldN v.toNat 17 0 ≤ 250000 then fldN v.toNat 17 0 else rdF s (wakeAddr c.val) 17 0) ∧ (∀ d, 1 ≤ d → d ≤ 25 → budgetDepth (wakeBudget t) < holdLevel t d → t.rf.wakes.contains d = true) ∧ (∀ a, a ≠ wakeAddr c.val → rd t a = rd s a))

/-- O22. Register writes and their application. A 32-bit aligned write of EVT_ENABLE of a page in domain FAB sets the
mask and nothing else; a write of any other size or alignment is discarded and sets ACCESS_ERROR; a 32-bit aligned
write to page 0x261 of any agent but the security core is discarded and sets GUARD_REFUSED; the head of a page's
posted queue, once its domain runs, leaves the queue and takes effect, a mask write as that mask. -/
def Obligations.RegisterWrites : Prop :=
  (∀ (agent : Agent) (p v : Nat) (s : State), s.power = .on → hasHeader p = true → isPosted p = false → takesPage s agent p = true → ∃ t, exec (.registerWrite agent (BitVec.ofNat 24 (hdrAddr p 0x018)) (leBytes 4 v)) s = .next t ∧
      rd t (hdrAddr p 0x018) = v % 65536 ∧ (∀ a, a ≠ hdrAddr p 0x018 → rd t a = rd s a)) ∧
  (∀ (agent : Agent) (addr : BitVec 24) (bytes : List Byte) (s : State), s.power = .on → hasHeader (addr.toNat / 0x1000) = true → ((agent = .host → hostUnauth s = false)) → (addr.toNat % 4 ≠ 0 ∨ (bytes.length ≠ 4 ∧ (bytes.length ≠ 8 ∨ agent ≠ .host))) → ∃ t, exec (.registerWrite agent addr bytes) s = .next t ∧
      bitN (evtFlags t (addr.toNat / 0x1000)) 15 = true ∧ (∀ a, ¬eventAddr (addr.toNat / 0x1000) a → rd t a = rd s a)) ∧
  (∀ (agent : Agent) (o v : Nat) (s : State), s.power = .on → agent ≠ .firmware 0 → (agent ≠ .host ∨ hostUnauth s = false) → o < 0x1000 → o % 4 = 0 → ∃ t, exec (.registerWrite agent (BitVec.ofNat 24 (0x261000 + o)) (leBytes 4 v)) s = .next t ∧
      bitN (evtFlags t 0x261) 14 = true ∧ t.rf.unlocks = s.rf.unlocks ∧ postedOf t 0x261 = postedOf s 0x261 ∧ (∀ a, ¬eventAddr 0x261 a → rd t a = rd s a)) ∧
  (∀ (page : BitVec 12) (w : PostedWrite) (rest : List PostedWrite) (s : State), s.power = .on → postedOf s page.toNat = w :: rest → holdLevel s (pageDomain page.toNat) = 0 → ∃ t, exec (.postedWriteApply page) s = .next t ∧
      (∀ a, ¬eventAddr 0x0E0 a → rd t a = rd (applyReg (setPosted s page.toNat rest) w.agent w.addr w.value.toNat) a) ∧ ((w.addr = hdrAddr page.toNat 0x018 → hasHeader page.toNat = true → postedOf t page.toNat = rest ∧ rd t w.addr = w.value.toNat % 65536)))

/-- O23. Acknowledgements and mailboxes. An evaluated acknowledgement clears exactly the flags of its mask where its
sequence is that of EVT_STATUS, and clears nothing and sets stale otherwise; the sequence stays. A selector written
to MBX_SEL replaces the pending capture and clears valid and error; selector 0 cancels it and requests none. A
capture that completes increments capture_seq, sets valid, and puts the captured words in MBX_DATA; an undefined
selector sets error too and leaves zero. -/
def Obligations.MailboxAndAck : Prop :=
  (∀ (agent : Agent) (page : BitVec 12) (mask : BitVec 16) (seq : BitVec 8) (s : State), s.power = .on → hasHeader page.toNat = true → takesTurn s agent page.toNat (hdrAddr page.toNat 0x014) = true → ∃ t, exec (.evtAck agent page mask seq) s = .next t ∧
      rdF t (hdrAddr page.toNat 0x010) 23 16 = rdF s (hdrAddr page.toNat 0x010) 23 16 ∧ ((rdF s (hdrAddr page.toNat 0x010) 23 16 = seq.toNat → (∀ k < 16, bitN (evtFlags t page.toNat) k = (bitN (evtFlags s page.toNat) k && !bitN mask.toNat k)) ∧ rdB t (hdrAddr page.toNat 0x014) 31 = false)) ∧ ((rdF s (hdrAddr page.toNat 0x010) 23 16 ≠ seq.toNat → evtFlags t page.toNat = evtFlags s page.toNat ∧ rdB t (hdrAddr page.toNat 0x014) 31 = true)) ∧ (∀ a, a ≠ hdrAddr page.toNat 0x00C → a ≠ hdrAddr page.toNat 0x010 → a ≠ hdrAddr page.toNat 0x014 → rd t a = rd s a)) ∧
  (∀ (agent : Agent) (page : BitVec 12) (sel : BitVec 8) (s : State), s.power = .on → hasHeader page.toNat = true → takesTurn s agent page.toNat (hdrAddr page.toNat 0x020) = true → ∃ t, exec (.mbxSelCapture agent page sel) s = .next t ∧
      rd t (hdrAddr page.toNat 0x020) = sel.toNat ∧ rdB t (hdrAddr page.toNat 0x024) 0 = false ∧ rdB t (hdrAddr page.toNat 0x024) 1 = false ∧ ((sel ≠ 0 → ∀ x, x ∈ t.rf.captures ∧ x.1 = page.toNat ↔ x = (page.toNat, sel.toNat))) ∧ (∀ a, a ≠ hdrAddr page.toNat 0x020 → a ≠ hdrAddr page.toNat 0x024 → rd t a = rd s a)) ∧
  (∀ (agent : Agent) (page : BitVec 12) (s : State), s.power = .on → hasHeader page.toNat = true → takesTurn s agent page.toNat (hdrAddr page.toNat 0x020) = true → ∃ t, exec (.mbxSelCancel agent page) s = .next t ∧
      (∀ x ∈ t.rf.captures, x.1 ≠ page.toNat) ∧ rdF t (hdrAddr page.toNat 0x024) 1 0 = 0 ∧ rdF t (hdrAddr page.toNat 0x024) 15 8 = rdF s (hdrAddr page.toNat 0x024) 15 8 ∧ (∀ a, a ≠ hdrAddr page.toNat 0x020 → a ≠ hdrAddr page.toNat 0x024 → rd t a = rd s a)) ∧
  (∀ (page : BitVec 12) (sel : Nat) (r : Option (List Nat × State)) (s : State), s.power = .on → s.rf.captures.find? (fun c => c.1 == page.toNat) = some (page.toNat, sel) → captureWords { s with rf := { s.rf with captures := s.rf.captures.filter (fun c => c.1 != page.toNat) } } page.toNat sel = r → ∃ t, exec (.mbxCaptureDone page) s = .next t ∧
      rdF t (hdrAddr page.toNat 0x024) 15 8 = (rdF s (hdrAddr page.toNat 0x024) 15 8 + 1) % 256 ∧ rdB t (hdrAddr page.toNat 0x024) 0 = true ∧ rdB t (hdrAddr page.toNat 0x024) 1 = r.isNone ∧ (∀ i < 6, rd t (hdrAddr page.toNat (0x028 + 4 * i)) = ((r.map (·.1)).getD []).getD i 0 % 4294967296) ∧ (∀ x ∈ t.rf.captures, x.1 ≠ page.toNat))

/-- O24. Keys, unlocks and locks. A correct KEY write on an unlocked page of a stand-alone device arms an unlock of its
writer for 10,000 ticks and leaves the unlocks of other agents; UNLOCK_LAPSE removes exactly the unlocks of its
agent and page whose time has passed; LOCK with 1 sets the lock of its page and with 0 changes nothing. -/
def Obligations.KeysAndLocks : Prop :=
  (∀ (agent : Agent) (page : BitVec 12) (v : Word) (s : State), s.power = .on → hasHeader page.toNat = true → locked s page.toNat = false → multiDevice s = false → takesPage s agent page.toNat = true → fldN v.toNat 15 0 = 0x7E57 → fldN v.toNat 27 16 = page.toNat → ∃ t, exec (.key agent page v) s = .next t ∧
      unlockArmed t page.toNat agent = true ∧ ((∀ u, (u.page ≠ page.toNat ∨ u.agent ≠ agent) → (u ∈ t.rf.unlocks ↔ u ∈ s.rf.unlocks))) ∧ ((∀ u ∈ t.rf.unlocks, u.page = page.toNat → u.agent = agent → u.lapse = s.ridge + 10000)) ∧ (∀ a, rd t a = rd s a)) ∧
  (∀ (agent : Agent) (page : BitVec 12) (s : State), s.power = .on → ∃ t, exec (.unlockLapse agent page) s = .next t ∧
      (∀ u, u ∈ t.rf.unlocks ↔ u ∈ s.rf.unlocks ∧ ¬(u.page = page.toNat ∧ u.agent = agent ∧ u.lapse ≤ s.ridge)) ∧ (∀ a, rd t a = rd s a)) ∧
  (∀ (agent : Agent) (page : BitVec 12) (bit : Bool) (s : State), s.power = .on → hasHeader page.toNat = true → takesPage s agent page.toNat = true → ∃ t, exec (.lock agent page bit) s = .next t ∧
      ((bit = true → locked t page.toNat = true)) ∧ ((bit = false → locked t page.toNat = locked s page.toNat)) ∧ (∀ a, a ≠ hdrAddr page.toNat 0x044 → rd t a = rd s a))

/-- O25. Update groups. A strobe arms every group of its mask, due 1,000 ticks later, at the boundary of its frame group
where UPDATE_MODE names one that is enabled, makes the pending copy of every RWS field of their pages equal to its
shadow, and sets RESTROBE where a group was armed already. UPDATE_GROUP_APPLY of a due group that waits for no
launch ends its being armed, counts the application with its time, and raises APPLIED; in a running domain every RWS
field of the group's pages but PAGE_CTL then has its pending value, a held domain keeps its pages for its wake, and
fields of other groups and fields that are not RWS stay, where no unit has to act on what changed. Where the change
is one pipe slot's: a configuration that meets its constraints is live and clears the slot's rejected bit; any other
leaves the slot's words as they were, sets the bit, and raises flag 4 of the pipe's page. Where the change is a
stream's enable, cleared: its open frame closes and the stream is off. -/
def Obligations.UpdateGroups : Prop :=
  (∀ (agent : Agent) (mask : BitVec 16) (s : State), s.power = .on → (agent = .host → hostUnauth s = false) → ∃ t, exec (.updateStrobe agent mask) s = .next t ∧
      ((∀ g < 16, bitN mask.toNat g = true → (groupOf t g).armed = true ∧ (groupOf t g).due = s.ridge + 1000 ∧ (groupOf t g).boundary = (if rdB s A.UPDATE_MODE g && fgOn s (groupFg s g) then some (groupFg s g) else none) ∧ rdB t A.UPDATE_PENDING g = true)) ∧ ((∀ g < 16, bitN mask.toNat g = false → groupOf t g = groupOf s g)) ∧ ((∀ a, isRws a = true → smGet regDefault t.rf.pend a = (if bitN mask.toNat (pageGroup s (a / 0x1000)) then smGet regDefault s.rf.shadow a else smGet regDefault s.rf.pend a))) ∧ ((∀ g < 16, bitN mask.toNat g = true → (groupOf s g).armed = true → bitN (evtFlags t 0x001) 1 = true)) ∧ (∀ a, ¬eventAddr 0x001 a → a ≠ A.UPDATE_PENDING → rd t a = rd s a)) ∧
  (∀ (g : Fin 16) (s : State), s.power = .on → (groupOf s g.val).armed = true → (groupOf s g.val).boundary = none → (groupOf s g.val).due ≤ s.ridge → appliesPlainly s g.val = true → ∃ t, exec (.updateGroupApply g) s = .next t ∧
      (groupOf t g.val).armed = false ∧ (groupOf t g.val).lastT = (groupOf s g.val).due ∧ (groupOf t g.val).applied = ((groupOf s g.val).applied + 1) % 4294967296 ∧ rdB t A.UPDATE_PENDING g.val = false ∧ bitN (evtFlags t 0x001) 0 = true ∧ ((∀ a, isRws a = true → a % 0x1000 ≠ 0x008 → pageGroup s (a / 0x1000) = g.val → holdLevel s (pageDomain (a / 0x1000)) = 0 → rd t a = (smGet regDefault s.rf.pend a).toNat)) ∧ ((∀ a, isRws a = true → pageGroup s (a / 0x1000) ≠ g.val ∨ holdLevel s (pageDomain (a / 0x1000)) ≠ 0 → rd t a = rd s a)) ∧ ((∀ a, isRws a = true → pageGroup s (a / 0x1000) = g.val → holdLevel s (pageDomain (a / 0x1000)) ≠ 0 → rd s a ≠ (smGet regDefault s.rf.pend a).toNat → a / 0x1000 ∈ t.rf.deferred)) ∧ ((∀ a, isRws a = false → ¬eventAddr 0x001 a → a ≠ A.UPDATE_PENDING → rd t a = rd s a))) ∧
  (∀ (g : Fin 16) (q : Fin 16) (i : Fin 4) (s : State), s.power = .on → (groupOf s g.val).armed = true → (groupOf s g.val).boundary = none → (groupOf s g.val).due ≤ s.ridge → (∀ a ∈ changedAddrs s (applyGroup s g.val (groupOf s g.val).due), unitActs a = true → a ∈ slotOwn q.val i.val) → (∃ a ∈ changedAddrs s (applyGroup s g.val (groupOf s g.val).due), a ∈ slotOwn q.val i.val) → (∀ k < 64, rdB s (A.SL_STATUS (k / 4) (k % 4)) 1 = true → pageGroup s (0x081 + 2 * (k / 4)) = g.val → k = 4 * q.val + i.val) → slotConfigOk (applyGroup s g.val (groupOf s g.val).due) (slotLive (applyGroup s g.val (groupOf s g.val).due) q.val i.val) = true → ∃ t, exec (.updateGroupApply g) s = .next t ∧
      (groupOf t g.val).armed = false ∧ (groupOf t g.val).lastT = (groupOf s g.val).due ∧ (groupOf t g.val).applied = ((groupOf s g.val).applied + 1) % 4294967296 ∧ rdB t A.UPDATE_PENDING g.val = false ∧ bitN (evtFlags t 0x001) 0 = true ∧ rdB t (A.SL_STATUS q.val i.val) 1 = false ∧ (∀ a ∈ slotOwn q.val i.val, rd t a = rd (applyGroup s g.val (groupOf s g.val).due) a)) ∧
  (∀ (g : Fin 16) (q : Fin 16) (i : Fin 4) (s : State), s.power = .on → (groupOf s g.val).armed = true → (groupOf s g.val).boundary = none → (groupOf s g.val).due ≤ s.ridge → (∀ a ∈ changedAddrs s (applyGroup s g.val (groupOf s g.val).due), unitActs a = true → a ∈ slotOwn q.val i.val) → (∃ a ∈ changedAddrs s (applyGroup s g.val (groupOf s g.val).due), a ∈ slotOwn q.val i.val) → (∀ k < 64, rdB s (A.SL_STATUS (k / 4) (k % 4)) 1 = true → pageGroup s (0x081 + 2 * (k / 4)) = g.val → k = 4 * q.val + i.val) → slotConfigOk (applyGroup s g.val (groupOf s g.val).due) (slotLive (applyGroup s g.val (groupOf s g.val).due) q.val i.val) = false → ∃ t, exec (.updateGroupApply g) s = .next t ∧
      (groupOf t g.val).armed = false ∧ (groupOf t g.val).lastT = (groupOf s g.val).due ∧ (groupOf t g.val).applied = ((groupOf s g.val).applied + 1) % 4294967296 ∧ rdB t A.UPDATE_PENDING g.val = false ∧ bitN (evtFlags t 0x001) 0 = true ∧ rdB t (A.SL_STATUS q.val i.val) 1 = true ∧ bitN (evtFlags t (0x080 + 2 * q.val)) 4 = true ∧ (∀ a ∈ slotOwn q.val i.val, rd t a = rd s a)) ∧
  (∀ (g : Fin 16) (st : Fin 512) (s : State), s.power = .on → (groupOf s g.val).armed = true → (groupOf s g.val).boundary = none → (groupOf s g.val).due ≤ s.ridge → ((∀ a ∈ changedAddrs s (applyGroup s g.val (groupOf s g.val).due), unitActs a = true → a = A.ST_CTL (st.val / 32) (st.val % 32))) → A.ST_CTL (st.val / 32) (st.val % 32) ∈ changedAddrs s (applyGroup s g.val (groupOf s g.val).due) → (streamOf s st.val).cfg.on = true → (streamCfg (rd (applyGroup s g.val (groupOf s g.val).due)) st.val).on = false → (∀ k < 64, rdB s (A.SL_STATUS (k / 4) (k % 4)) 1 = true → pageGroup s (0x081 + 2 * (k / 4)) ≠ g.val) → ∃ t, exec (.updateGroupApply g) s = .next t ∧
      (streamOf t st.val).cfg.on = false ∧ (streamOf t st.val).phase ≠ .opened ∧ rd t (A.ST_CTL (st.val / 32) (st.val % 32)) = (smGet regDefault s.rf.pend (A.ST_CTL (st.val / 32) (st.val % 32))).toNat)

/-- O26. A full posted queue. A posted write that arrives when its page's queue holds 16 entries is discarded: it sets
PAGE_BUSY.refused and the WRITE_REFUSED flag, the queue stays as it is, and no other register changes. -/
def Obligations.PostedQueueFull : Prop :=
  (∀ (agent : Agent) (addr : BitVec 24) (bytes : List Byte) (row : RegRow) (js : List Nat) (s : State), s.power = .on → hasHeader (addr.toNat / 0x1000) = true → isPosted (addr.toNat / 0x1000) = true → 16 ≤ (postedOf s (addr.toNat / 0x1000)).length → ((agent = .host → hostUnauth s = false)) → addr.toNat % 4 = 0 → bytes.length = 4 → 0x100 ≤ addr.toNat % 0x1000 → findReg addr.toNat = some (row, js) → row.acc ≠ .rws → row.acc ≠ .rwi → (admitWrite s agent addr.toNat (leNat bytes)).1 = true → ∃ t, exec (.registerWrite agent addr bytes) s = .next t ∧
      postedOf t (addr.toNat / 0x1000) = postedOf s (addr.toNat / 0x1000) ∧ rdB t (hdrAddr (addr.toNat / 0x1000) 0x00C) 1 = true ∧ bitN (evtFlags t (addr.toNat / 0x1000)) 13 = true ∧ (∀ a, a ≠ hdrAddr (addr.toNat / 0x1000) 0x00C → ¬eventAddr (addr.toNat / 0x1000) a → rd t a = rd s a)) ∧
  (∀ (agent : Agent) (p o v : Nat) (s : State), s.power = .on → hasHeader p = true → isPosted p = true → 16 ≤ (postedOf s p).length → takesPage s agent p = true → (o = 0x014 ∨ o = 0x018 ∨ o = 0x020) → ∃ t, exec (.registerWrite agent (BitVec.ofNat 24 (hdrAddr p o)) (leBytes 4 v)) s = .next t ∧
      postedOf t p = postedOf s p ∧ rdB t (hdrAddr p 0x00C) 1 = true ∧ bitN (evtFlags t p) 13 = true ∧ (∀ a, a ≠ hdrAddr p 0x00C → ¬eventAddr p a → rd t a = rd s a))

/-- O27. Writes without an unlock. On a stand-alone device a write to an RWK field or a guarded RWI field without an
armed unlock of its agent, on a page that is not locked, is discarded and sets GUARD_REFUSED; so is a KEY write with
a wrong value or page number. An unlock of another agent is neither consumed nor cancelled by a write. -/
def Obligations.GuardedWithoutUnlock : Prop :=
  (∀ (agent : Agent) (addr : BitVec 24) (bytes : List Byte) (row : RegRow) (js : List Nat) (s : State), s.power = .on →
    hasHeader (addr.toNat / 0x1000) = true → (agent = .host → hostUnauth s = false) → addr.toNat % 4 = 0 →
    bytes.length = 4 → 0x100 ≤ addr.toNat % 0x1000 → findReg addr.toNat = some (row, js) →
    (row.acc = .rwk ∨ guardedRwi addr.toNat = true) → locked s (addr.toNat / 0x1000) = false →
    multiDevice s = false → unlockArmed s (addr.toNat / 0x1000) agent = false → debugWrite s agent (addr.toNat / 0x1000) = false →
    ∃ t, exec (.registerWrite agent addr bytes) s = .next t ∧ bitN (evtFlags t (addr.toNat / 0x1000)) 14 = true ∧
      t.rf.unlocks = s.rf.unlocks ∧ (∀ a, ¬eventAddr (addr.toNat / 0x1000) a → rd t a = rd s a)) ∧
  (∀ (agent : Agent) (page : BitVec 12) (v : Word) (s : State), s.power = .on → hasHeader page.toNat = true →
    locked s page.toNat = false → multiDevice s = false → takesPage s agent page.toNat = true →
    ¬(fldN v.toNat 15 0 = 0x7E57 ∧ fldN v.toNat 27 16 = page.toNat) →
    ∃ t, exec (.key agent page v) s = .next t ∧ bitN (evtFlags t page.toNat) 14 = true ∧
      (∀ u ∈ s.rf.unlocks, u.agent ≠ agent → u ∈ t.rf.unlocks) ∧ unlockArmed t page.toNat agent = false ∧
      (∀ a, ¬eventAddr page.toNat a → rd t a = rd s a)) ∧
  (∀ (agent : Agent) (a v : Nat) (s : State), ∀ u ∈ s.rf.unlocks, u.agent ≠ agent →
    u ∈ (admitWrite s agent a v).2.rf.unlocks)

/-- O28. Changing STRICT. A write that changes DET_CTL.strict is applied only while no frame group is enabled and no job
instance runs; otherwise it is ignored and sets STRICT_REFUSED. -/
def Obligations.StrictRefused : Prop :=
  (∀ (agent : Agent) (v : Word) (s : State), s.power = .on → takesEffect s agent A.DET_CTL v.toNat = true → bitN v.toNat 0 ≠ strict s → ∃ t, exec (.detCtl agent v) s = .next t ∧
      (((∀ g < 8, fgOn s g = false) ∧ anyRuns s = false → strict t = bitN v.toNat 0 ∧ rdB t A.DET_STATUS 0 = bitN v.toNat 0 ∧ ∀ a, a ≠ A.DET_CTL → a ≠ A.DET_STATUS → rd t a = rd s a)) ∧ ((¬((∀ g < 8, fgOn s g = false) ∧ anyRuns s = false) → strict t = strict s ∧ rdB t A.DET_STATUS 1 = true ∧ bitN (evtFlags t 0x002) 0 = true ∧ ∀ a, ¬eventAddr 0x002 a → a ≠ A.DET_STATUS → rd t a = rd s a))) ∧
  (∀ (agent : Agent) (v : Word) (s : State), s.power = .on → takesEffect s agent A.DET_CTL v.toNat = true → bitN v.toNat 0 ≠ strict s → fgOn s 3 = true → strict s = false → ∃ t, exec (.detCtl agent v) s = .next t ∧
      strict t = false)

/-- O29. A fault source keeps its permitted class. A write to FC_SRC_CFG that names a class outside the source's
permitted range is ignored and sets CONFIG_REJECTED in page 0x2C0; one that names a permitted class of a source that
is not fixed sets it. -/
def Obligations.SourceClassRange : Prop :=
  ∀ (n : Nat) (x : SourceInfo) (w : PostedWrite) (rest : List PostedWrite) (s : State), s.power = .on → n < 512 →
    sourceInfo n = some x → postedOf s 0x2C1 = w :: rest → holdLevel s (pageDomain 0x2C1) = 0 →
    w.addr = A.FC_SRC_CFG n → x.floor ≤ rdF s (A.FC_SRC_CFG n) 2 0 → rdF s (A.FC_SRC_CFG n) 2 0 ≤ x.ceiling →
    ∃ t, exec (.postedWriteApply 0x2C1) s = .next t ∧
      ((fldN w.value.toNat 2 0 < x.floor ∨ x.ceiling < fldN w.value.toNat 2 0) →
        bitN (evtFlags t 0x2C0) 6 = true ∧ (∀ a, ¬eventAddr 0x2C0 a → rd t a = rd s a)) ∧
      (x.fixed = false → x.floor ≤ fldN w.value.toNat 2 0 → fldN w.value.toNat 2 0 ≤ x.ceiling →
        rdF t (A.FC_SRC_CFG n) 2 0 = fldN w.value.toNat 2 0)

/-- O30. The pod port. A host write at the position of the stream appends its bytes and moves the position on; one at
another position loses the stream; before stage 6 and while the stream is lost a write is ignored. A whole pod that
passes every check leaves the stream, is recorded as queued in the window of its origin, which it opens or moves
where it is new, and enters the receive ring as the next arrival, counted in POD_ACCEPT_COUNT; a job pod joins the
queue of its slot. A pod that fails a check after step 11 is counted in POD_REJECT_COUNT, sets flag 0 of page 0x0E1,
and is recorded as rejected with its status; a duplicate is counted in DUP_COUNT; a pod larger than the free ring,
or with a bad checksum, loses the stream. A pod that a guyline port has assembled is accepted in the same way. (Host
pods that the recorder captures with room in its ring are not in this statement.) A POD_RESYNC that takes effect on
a lost stream empties it and sets the position. RETAIN_CFG takes the size of the retention store, and frees retained
results until the rest fit. -/
def Obligations.PodStream : Prop :=
  (∀ (off : BitVec 20) (bytes : List Byte) (s : State), s.power = .on → rdF s A.FW_STATUS 3 0 = 6 → streamIsLost s = false → off.toNat = rdF s A.POD_STREAM_POS 19 0 → ∃ t, exec (.podPortWrite off bytes) s = .next t ∧
      rd t A.POD_STREAM_POS = (rd s A.POD_STREAM_POS + bytes.length) % 4294967296 ∧ t.pods.stream = s.pods.stream ++ bytes.drop s.pods.skip ∧ t.pods.skip = s.pods.skip - bytes.length ∧ t.pods.rx = s.pods.rx ∧ (∀ a, a ≠ A.POD_STREAM_POS → rd t a = rd s a)) ∧
  (∀ (off : BitVec 20) (bytes : List Byte) (s : State), s.power = .on → rdF s A.FW_STATUS 3 0 = 6 → streamIsLost s = false → off.toNat ≠ rdF s A.POD_STREAM_POS 19 0 → ∃ t, exec (.podPortWrite off bytes) s = .next t ∧
      streamIsLost t = true ∧ t.pods.stream = [] ∧ t.pods.rx = s.pods.rx ∧ rd t A.POD_STREAM_POS = rd s A.POD_STREAM_POS ∧ rdF t A.POD_STATE 31 16 = St.STREAM_POSITION_INVALID ∧ bitN (evtFlags t 0x0E1) 1 = true) ∧
  (∀ (off : BitVec 20) (bytes : List Byte) (s : State), s.power = .on → (rdF s A.FW_STATUS 3 0 ≠ 6 ∨ streamIsLost s = true) → ∃ t, exec (.podPortWrite off bytes) s = .next t ∧
      t.pods = s.pods ∧ (∀ a, rd t a = rd s a)) ∧
  (∀ (via : Fin 4) (rrLost : Bool) (h : PodHeader) (b : List Byte) (p : RxPod) (s : State), s.power = .on → via = 0 → wholePod s h b = true → replaying s = false → ((rrMode s = 1 → rrLost = true ∨ s.rr.frozen = true)) → newToOrigin s h = true → p = arrivedPod s 0 h b → ownRing s (h.target / 256) = true → arrivalStatus s p = 0 → ∃ t, exec (.podReceive via rrLost) s = .next t ∧
      t.pods.rx = s.pods.rx ++ [p] ∧ t.pods.stream = s.pods.stream.drop (32 * h.length) ∧ t.pods.nextNo = s.pods.nextNo + 1 ∧ rd t A.POD_ACCEPT_COUNT = (rd s A.POD_ACCEPT_COUNT + 1) % 4294967296 ∧ Recorded t h .queued ∧ ((h.kind = 1 → (graphOf t (h.target % 256)).map (·.queue) = (graphOf s (h.target % 256)).map (fun g => g.queue ++ [{ cause := .pod p.no, entry := h.operation, frame := h.frame, cls := h.cls, seq := h.sequence, body := p.body }])))) ∧
  (∀ (via : Fin 4) (rrLost : Bool) (h : PodHeader) (b : List Byte) (s : State), s.power = .on → via = 0 → wholePod s h b = true → replaying s = false → ((rrMode s = 1 → rrLost = true ∨ s.rr.frozen = true)) → newToOrigin s h = true → arrivalStatus s (arrivedPod s 0 h b) ≠ 0 → ∃ t, exec (.podReceive via rrLost) s = .next t ∧
      t.pods.rx = s.pods.rx ∧ t.pods.stream = s.pods.stream.drop (32 * h.length) ∧ rd t A.POD_REJECT_COUNT = min (rd s A.POD_REJECT_COUNT + 1) 4294967295 ∧ bitN (evtFlags t 0x0E1) 0 = true ∧ Recorded t h (.rejected (arrivalStatus s (arrivedPod s 0 h b)))) ∧
  (∀ (via : Fin 4) (rrLost : Bool) (h : PodHeader) (b : List Byte) (w : Window) (m : SeqRec) (s : State), s.power = .on → via = 0 → wholePod s h b = true → replaying s = false → ((rrMode s = 1 → rrLost = true ∨ s.rr.frozen = true)) → windowOf s h.origin = some w → seqDist h.sequence w.head ≤ 0 → inWindow w.head h.sequence = true → seqRec w h.sequence = some m → ∃ t, exec (.podReceive via rrLost) s = .next t ∧
      t.pods.rx = s.pods.rx ∧ t.pods.stream = s.pods.stream.drop (32 * h.length) ∧ rd t A.DUP_COUNT = min (rd s A.DUP_COUNT + 1) 4294967295 ∧ bitN (evtFlags t 0x0E2) 0 = true) ∧
  (∀ (via : Fin 4) (rrLost : Bool) (h : PodHeader) (s : State), s.power = .on → via = 0 → streamIsLost s = false → h = parseHeader s.pods.stream → headerStatus h = 0 → 32 * h.length ≤ s.pods.stream.length → 32 * h.length ≤ podCredit s → crc32c (s.pods.stream.take (32 * h.length - 4)) ≠ leAt s.pods.stream (32 * h.length - 4) 4 → ∃ t, exec (.podReceive via rrLost) s = .next t ∧
      streamIsLost t = true ∧ rdF t A.POD_STATE 31 16 = St.CRC_ERROR ∧ t.pods.stream = [] ∧ t.pods.rx = s.pods.rx ∧ rd t A.POD_REJECT_COUNT = min (rd s A.POD_REJECT_COUNT + 1) 4294967295) ∧
  (∀ (via : Fin 4) (rrLost : Bool) (h : PodHeader) (s : State), s.power = .on → via = 0 → streamIsLost s = false → h = parseHeader s.pods.stream → 32 ≤ s.pods.stream.length → headerStatus h = 0 → podCredit s < 32 * h.length → ∃ t, exec (.podReceive via rrLost) s = .next t ∧
      streamIsLost t = true ∧ rdF t A.POD_STATE 31 16 = St.POD_OVERRUN ∧ t.pods.stream = [] ∧ t.pods.rx = s.pods.rx) ∧
  (∀ (via : Fin 4) (rrLost : Bool) (h : PodHeader) (b : List Byte) (p : RxPod) (s : State), s.power = .on → via ≠ 0 → s.podsIn.find? (fun x => x.1 == via.val) = some (via.val, b) → h = parseHeader b → headerStatus h = 0 → b.length = 32 * h.length → 32 * h.length ≤ creditNow s → trailerStatus h b = 0 → replaying s = false → ((rrMode s = 1 → rrLost = true ∨ s.rr.frozen = true)) → newToOrigin s h = true → p = arrivedPod s via.val h b → ownRing s (h.target / 256) = true → arrivalStatus s p = 0 → ∃ t, exec (.podReceive via rrLost) s = .next t ∧
      t.pods.rx = s.pods.rx ++ [p] ∧ t.podsIn = s.podsIn.eraseP (fun x => x.1 == via.val) ∧ rd t A.POD_ACCEPT_COUNT = (rd s A.POD_ACCEPT_COUNT + 1) % 4294967296 ∧ Recorded t h .queued) ∧
  (∀ (agent : Agent) (v : Word) (s : State), s.power = .on → takesEffect s agent A.POD_RESYNC v.toNat = true → streamIsLost s = true → v.toNat % 32 = 0 → ∃ t, exec (.podResync agent v) s = .next t ∧
      rd t A.POD_STREAM_POS = v.toNat ∧ t.pods.stream = [] ∧ t.pods.skip = 0 ∧ streamIsLost t = false ∧ (∀ a, a ≠ A.POD_STREAM_POS → a ≠ A.POD_STATE → rd t a = rd s a)) ∧
  (∀ (agent : Agent) (v : Word) (s : State), s.power = .on → takesEffect s agent A.POD_RESYNC v.toNat = true → (streamIsLost s = false ∨ v.toNat % 32 ≠ 0) → ∃ t, exec (.podResync agent v) s = .next t ∧
      t.pods = s.pods ∧ (∀ a, rd t a = rd s a)) ∧
  (∀ (agent : Agent) (v : Word) (s : State), s.power = .on → takesEffect s agent A.RETAIN_CFG v.toNat = true → ∃ t, exec (.retainCfg agent v) s = .next t ∧
      rdF t A.RETAIN_CFG 1 0 = (if fldN v.toNat 1 0 ≤ 2 then fldN v.toNat 1 0 else rdF s A.RETAIN_CFG 1 0) ∧ (t.pods.retained.map retainedBytes).sum ≤ retainSize t ∧ t.pods.retained = (retainFit (retainSize t) s.pods.retained).1 ∧ rd t A.RETAIN_FREED = min (rd s A.RETAIN_FREED + (s.pods.retained.length - t.pods.retained.length)) 4294967295 ∧ (∀ a, a ≠ A.RETAIN_CFG → a ≠ A.RETAIN_FREED → ¬eventAddr 0x0E2 a → rd t a = rd s a))

/-- O31. Pods start, and origins close. A waiting pod whose conditions hold and that writes nothing starts to run and
stays as it was otherwise. A data pod for this device is written and is done with the status of its write; one for
another device runs on while its packets travel. A pod that names an unconfigured peg is done with PEG_UNCONFIGURED
without running. A pod whose conditions do not hold yet waits. ORIGIN_CLOSE is taken by dispatch, and once no
earlier pod of its origin is left the window of the origin closes with what it retained. -/
def Obligations.PodsStartAndClose : Prop :=
  (∀ (no : Nat) (p : RxPod) (s : State), s.power = .on → podAt s no = some p → p.stage = .waiting → pegEnds s p = false → startable s p = true → p.hdr.kind ≠ 2 → ∃ t, exec (.podStart no) s = .next t ∧
      podAt t no = some { p with stage := .running } ∧ t.mem = s.mem ∧ (∀ a, a ≠ A.ORIGIN_OPEN → rd t a = rd s a)) ∧
  (∀ (no : Nat) (p : RxPod) (s : State), s.power = .on → podAt s no = some p → p.stage = .waiting → pegEnds s p = false → startable s p = true → p.hdr.kind = 2 → isLocal s (leAt p.body 0 8) = true → encWaits s (addrLocal (leAt p.body 0 8)) (leAt p.body 8 4) = false → ∃ t, exec (.podStart no) s = .next t ∧
      PodDone t no (dataWrite (podRuns s p) p).1 ∧ t.mem = (busWrite (podRuns s p) (podAgent p.hdr) (addrLocal (leAt p.body 0 8)) (podData p) p.hdr.cls p.hdr.sequence).2.mem) ∧
  (∀ (no : Nat) (p : RxPod) (g : Nat) (s : State), s.power = .on → podAt s no = some p → p.stage = .waiting → pegEnds s p = false → startable s p = true → p.hdr.kind = 2 → isLocal s (leAt p.body 0 8) = false → routePort s (addrRing (leAt p.body 0 8)) = some g → ∃ t, exec (.podStart no) s = .next t ∧
      podAt t no = some { p with stage := .running } ∧ t.outWrites = s.outWrites ++ [{ id := s.nextId, agent := podAgent p.hdr, pod := some no, before := s.pods.nextNo }] ∧ t.mem = s.mem) ∧
  (∀ (no : Nat) (p : RxPod) (s : State), s.power = .on → podAt s no = some p → p.stage = .waiting → pegEnds s p = true → ∃ t, exec (.podStart no) s = .next t ∧
      PodDone t no St.PEG_UNCONFIGURED ∧ t.mem = s.mem ∧ ((∀ g, graphOf s (p.hdr.target % 256) = some g → p.hdr.kind = 1 → ∃ g', graphOf t (p.hdr.target % 256) = some g' ∧ g'.queue = g.queue.filter (fun q => q.cause != .pod no)))) ∧
  (∀ (no : Nat) (p : RxPod) (s : State), s.power = .on → podAt s no = some p → p.stage = .waiting → pegEnds s p = false → startable s p = false → ∃ t, exec (.podStart no) s = .next t ∧
      t.pods = s.pods ∧ t.mem = s.mem ∧ (∀ a, rd t a = rd s a)) ∧
  (∀ (no : Nat) (p : RxPod) (s : State), s.power = .on → runningControl s no 5 0x10 = some p → ∃ t, exec (.originClose no) s = .next t ∧
      podAt t no = some { p with taken := true } ∧ (∀ a, rd t a = rd s a)) ∧
  (∀ (origin : BitVec 16) (p : RxPod) (s : State), s.power = .on → closingPod s origin.toNat = some p → ∃ t, exec (.originWindowClose origin) s = .next t ∧
      windowOf t origin.toNat = none ∧ PodDone t p.no 0 ∧ (∀ x ∈ t.pods.retained, x.origin ≠ origin.toNat) ∧ ((∀ o, o ≠ origin.toNat → (windowOf t o).isSome = (windowOf s o).isSome)) ∧ rd t A.ORIGIN_OPEN = t.pods.windows.length % 4294967296)

/-- O32. Host rings. A pod that fits, with EVENT_LOST before it where one is owed, is written: it leaves the queue, the
head moves on by its 32-byte units with the skip at the ring's end, its bytes stand in host memory at the place the
head named, and the head copy holds the new head. A pod that has waited 100 µs without space is dropped: a result or
tarp is counted in RING_DROPS, any other pod in EVENTS_LOST. RING_TAIL takes what is written. RING_CFG disables an
enabled ring and empties its queue, ignores another write while it is enabled, and configures a disabled one. A
coalescing interval that ends sends the ring's message. -/
def Obligations.HostRings : Prop :=
  (∀ (r : Fin 16) (e : RingEntry) (rest : List RingEntry) (s : State), s.power = .on → (ringOf s r.val).queue = e :: rest → ringReady s r.val e.pod = true → lostBefore s e.pod = false → ∃ t, exec (.ringPodWrite r) s = .next t ∧
      rd t (A.RING_HEAD r.val) = (rd s (A.RING_HEAD r.val) + ringTake (ringSize s r.val) (rd s (A.RING_HEAD r.val)) (32 * outUnits e.pod)) % 4294967296 ∧ ((ringOf t r.val).queue.map (fun x => { x.pod with seq := none })) = rest.map (fun x => { x.pod with seq := none }) ∧ (∀ j < 4, smGet memDefault t.hostMem (rdWide s (A.RING_HEADPTR_LO r.val) + j) = (leBytes 4 (rd t (A.RING_HEAD r.val))).getD j 0) ∧ ((∀ x j, x = rdWide s (A.RING_BASE_LO r.val) + (if ringSize s r.val < rd s (A.RING_HEAD r.val) % ringSize s r.val + 32 * outUnits e.pod then 0 else rd s (A.RING_HEAD r.val) % ringSize s r.val) + j → j < 32 * outUnits e.pod → x < rdWide s (A.RING_HEADPTR_LO r.val) ∨ rdWide s (A.RING_HEADPTR_LO r.val) + 4 ≤ x → smGet memDefault t.hostMem x = (outBytes s e.pod (e.pod.seq.getD (ringOf s r.val).nextSeq)).getD j 0)) ∧ t.lostEvents = s.lostEvents ∧ (∀ a, a ≠ A.RING_HEAD r.val → a ≠ A.MSIX_PBA 0 → a ≠ A.MSIX_PBA 1 → rd t a = rd s a)) ∧
  (∀ (r : Fin 16) (e : RingEntry) (rest : List RingEntry) (s : State), s.power = .on → (ringOf s r.val).queue = e :: rest → ringReady s r.val e.pod = true → lostBefore s e.pod = true → ∃ t, exec (.ringPodWrite r) s = .next t ∧
      t.lostEvents = 0 ∧ rd t (A.RING_HEAD r.val) = ([64, 32 * outUnits e.pod].foldl (fun h n => h + ringTake (ringSize s r.val) (h % 4294967296) n) (rd s (A.RING_HEAD r.val))) % 4294967296 ∧ ((ringOf t r.val).queue.map (fun x => { x.pod with seq := none })) = rest.map (fun x => { x.pod with seq := none }) ∧ (∀ a, a ≠ A.RING_HEAD r.val → a ≠ A.MSIX_PBA 0 → a ≠ A.MSIX_PBA 1 → rd t a = rd s a)) ∧
  (∀ (r : Fin 16) (s : State), s.power = .on → (∀ e rest, (ringOf s r.val).queue = e :: rest → ringReady s r.val e.pod = false) → ∃ t, exec (.ringPodWrite r) s = .next t ∧
      t.rings = s.rings ∧ t.hostMem = s.hostMem ∧ (∀ a, rd t a = rd s a)) ∧
  (∀ (r : Fin 16) (e : RingEntry) (rest : List RingEntry) (w : Nat) (s : State), s.power = .on → (ringOf s r.val).queue = e :: rest → e.since = some w → w + 100000 ≤ s.ridge → ringReady s r.val e.pod = false → ∃ t, exec (.ringWaitExpire r) s = .next t ∧
      (((bitN (routeOf s 0x0E0) 7 = false ∨ eventRing s ≠ r.val) → (eventRing s ≠ r.val ∨ (e.pod.kind ≠ 8 ∧ e.pod.kind ≠ 0xB)) → ((ringOf t r.val).queue.map (·.pod)) = rest.map (·.pod))) ∧ ((e.pod.kind = 8 ∨ e.pod.kind = 0xB → rd t (A.RING_DROPS r.val) = min (rd s (A.RING_DROPS r.val) + 1) 0xFFFFFFFF)) ∧ ((e.pod.kind ≠ 8 → e.pod.kind ≠ 0xB → bitN (routeOf s 0x0E0) 7 = false → rd t A.EVENTS_LOST = min (rd s A.EVENTS_LOST + 1) 0xFFFFFFFF ∧ t.lostEvents = s.lostEvents + 1))) ∧
  (∀ (agent : Agent) (r : Fin 16) (v : Word) (s : State), s.power = .on → takesEffect s agent (A.RING_TAIL r.val) v.toNat = true → ∃ t, exec (.ringTail agent r v) s = .next t ∧
      rd t (A.RING_TAIL r.val) = v.toNat ∧ (∀ a, a ≠ A.RING_TAIL r.val → rd t a = rd s a)) ∧
  (∀ (agent : Agent) (r : Fin 16) (v : Word) (s : State), s.power = .on → takesEffect s agent (A.RING_CFG r.val) v.toNat = true → ∃ t, exec (.ringCfgWrite agent r v) s = .next t ∧
      ((ringOn s r.val = true → bitN v.toNat 4 = false → ringOn t r.val = false ∧ (ringOf t r.val).queue = [])) ∧ ((ringOn s r.val = true → bitN v.toNat 4 = true → ∀ a, rd t a = rd s a)) ∧ ((ringOn s r.val = false → ringOn t r.val = bitN v.toNat 4 ∧ rdF t (A.RING_CFG r.val) 10 5 = fldN v.toNat 10 5 ∧ rdF t (A.RING_CFG r.val) 3 0 = (if fldN v.toNat 3 0 ≤ 10 then fldN v.toNat 3 0 else rdF s (A.RING_CFG r.val) 3 0)))) ∧
  (∀ (agent : Agent) (r : Fin 16) (v : Word) (s : State), s.power = .on → takesEffect s agent (A.RING_CFG r.val) v.toNat = true → ringOn s r.val = true → bitN v.toNat 4 = false → ∃ t, exec (.ringCfgWrite agent r v) s = .next t ∧
      ringOn t r.val = false) ∧
  (∀ (r : Fin 16) (w : Nat) (s : State), s.power = .on → (ringOf s r.val).msgDue = some w → w ≤ s.ridge → ∃ t, exec (.msixCoalesceExpire r) s = .next t ∧
      (ringOf t r.val).msgDue = none ∧ (ringOf t r.val).lastMsg = some s.ridge ∧ ((rdB s (A.MSIX_CTRL (rdF s (A.RING_CFG r.val) 10 5)) 0 = false → t.msixOut.length = s.msixOut.length + 1)) ∧ ((rdB s (A.MSIX_CTRL (rdF s (A.RING_CFG r.val) 10 5)) 0 = true → t.msixOut = s.msixOut)) ∧ (∀ a, a ≠ A.MSIX_PBA 0 → a ≠ A.MSIX_PBA 1 → rd t a = rd s a))

/-- O33. The host port. A BAR2 write to this device is performed and answers posted, one that is refused answers
Unsupported Request for ADDR_UNMAPPED and Completer Abort for every other status; one to another device answers
posted and its packet joins the queue of the port on the route. A BAR2 read of this device answers its data; one of
another device sends a READ_REQ and is kept, and after 200 µs ends without data. While the host is unauthenticated
an access answers Completer Abort. The aperture takes its high half together with the low half written before. A
vector that is unmasked sends its pending message. FUNCTION_LEVEL_RESET returns every MSI-X register to reset and
forgets reads in flight. The link counts and tags its loss, and comes up at the generation trained where U4_CFG
enables it; a good expected block of the media layer clears its retries, and a bad or unexpected one counts a retry.
(The class of a remote BAR2 request is the model's choice, log entry 151.) -/
def Obligations.HostPortCommands : Prop :=
  (∀ (off : BitVec 28) (b : List Byte) (rrLost : Bool) (u : State) (s : State), s.power = .on → hostUp s = true → hostUnauth s = false → 1 ≤ b.length → b.length ≤ 4096 → off.toNat + b.length ≤ 268435456 → isLocal s (rdWide s A.U4_APERTURE_LO + off.toNat) = true → encWaits s (addrLocal (rdWide s A.U4_APERTURE_LO + off.toNat)) b.length = false → busWrite s .host (addrLocal (rdWide s A.U4_APERTURE_LO + off.toNat)) b = (0, u) → ∃ t, exec (.bar2Access off (.write b) rrLost) s = .next t ∧
      t.hostOut = s.hostOut ++ [.posted] ∧ ((rrMode u ≠ 1 → t.mem = u.mem))) ∧
  (∀ (off : BitVec 28) (b : List Byte) (rrLost : Bool) (st : Nat) (u : State) (s : State), s.power = .on → hostUp s = true → hostUnauth s = false → 1 ≤ b.length → b.length ≤ 4096 → off.toNat + b.length ≤ 268435456 → isLocal s (rdWide s A.U4_APERTURE_LO + off.toNat) = true → encWaits s (addrLocal (rdWide s A.U4_APERTURE_LO + off.toNat)) b.length = false → busWrite s .host (addrLocal (rdWide s A.U4_APERTURE_LO + off.toNat)) b = (st, u) → st ≠ 0 → ∃ t, exec (.bar2Access off (.write b) rrLost) s = .next t ∧
      t.hostOut = s.hostOut ++ [if st = St.ADDR_UNMAPPED then .unsupportedRequest else .completerAbort] ∧ t.mem = u.mem) ∧
  (∀ (off : BitVec 28) (b : List Byte) (rrLost : Bool) (g : Nat) (s : State), s.power = .on → hostUp s = true → hostUnauth s = false → 1 ≤ b.length → b.length ≤ 4096 → off.toNat + b.length ≤ 268435456 → isLocal s (rdWide s A.U4_APERTURE_LO + off.toNat) = false → routePort s (addrRing (rdWide s A.U4_APERTURE_LO + off.toNat)) = some g → ∃ t, exec (.bar2Access off (.write b) rrLost) s = .next t ∧
      t.hostOut = s.hostOut ++ [.posted] ∧ t.outWrites = s.outWrites ++ [{ id := s.nextId, agent := .host, pod := none, before := s.pods.nextNo }] ∧ (glOf t g).txq = (glOf s g).txq ++ [{ kind := 1, dateline := rdB s (A.GL_CFG g) 2, dst := addrRing (rdWide s A.U4_APERTURE_LO + off.toNat), src := ringId s, cls := bar2Cls, vc := requestVc bar2Cls, timed := ridgeLocked s, sent := lo32 s.ridge, addr := addrLocal (rdWide s A.U4_APERTURE_LO + off.toNat), len := b.length, payload := b, wid := s.nextId }]) ∧
  (∀ (off : BitVec 28) (n : Nat) (rrLost : Bool) (b : List Byte) (u : State) (s : State), s.power = .on → hostUp s = true → hostUnauth s = false → 1 ≤ n → n ≤ 4096 → off.toNat + n ≤ 268435456 → isLocal s (rdWide s A.U4_APERTURE_LO + off.toNat) = true → encWaits s (addrLocal (rdWide s A.U4_APERTURE_LO + off.toNat)) n = false → busRead s .host (addrLocal (rdWide s A.U4_APERTURE_LO + off.toNat)) n = (0, b, u) → ∃ t, exec (.bar2Access off (.read n) rrLost) s = .next t ∧
      t.hostOut = s.hostOut ++ [.data b]) ∧
  (∀ (off : BitVec 28) (n : Nat) (rrLost : Bool) (g : Nat) (s : State), s.power = .on → hostUp s = true → hostUnauth s = false → 1 ≤ n → n ≤ 4096 → off.toNat + n ≤ 268435456 → isLocal s (rdWide s A.U4_APERTURE_LO + off.toNat) = false → routePort s (addrRing (rdWide s A.U4_APERTURE_LO + off.toNat)) = some g → ∃ t, exec (.bar2Access off (.read n) rrLost) s = .next t ∧
      t.hostOut = s.hostOut ∧ t.remote = s.remote ++ [{ tag := freeTag s, at_ := s.ridge, len := n }] ∧ (glOf t g).txq = (glOf s g).txq ++ [{ kind := 2, dateline := rdB s (A.GL_CFG g) 2, dst := addrRing (rdWide s A.U4_APERTURE_LO + off.toNat), src := ringId s, cls := bar2Cls, vc := requestVc bar2Cls, timed := ridgeLocked s, sent := lo32 s.ridge, addr := addrLocal (rdWide s A.U4_APERTURE_LO + off.toNat), readTag := freeTag s, len := n }]) ∧
  (∀ (off : BitVec 28) (acc : BusAccess) (rrLost : Bool) (s : State), s.power = .on → hostUp s = true → hostUnauth s = true → 1 ≤ (match acc with | .read n => n | .write b => b.length) → (match acc with | .read n => n | .write b => b.length) ≤ 4096 → off.toNat + (match acc with | .read n => n | .write b => b.length) ≤ 268435456 → ∃ t, exec (.bar2Access off acc rrLost) s = .next t ∧
      t.hostOut = s.hostOut ++ [.completerAbort] ∧ t.mem = s.mem ∧ (∀ a, rd t a = rd s a)) ∧
  (∀ (r : RemoteRead) (rest : List RemoteRead) (s : State), s.power = .on → s.remote = r :: rest → r.at_ + 200000 ≤ s.ridge → ∃ t, exec .remoteTimeout s = .next t ∧
      t.remote = rest ∧ t.hostOut = s.hostOut ++ [.completerAbort] ∧ (∀ a, rd t a = rd s a)) ∧
  (∀ (agent : Agent) (v : Word) (s : State), s.power = .on → takesEffect s agent A.U4_APERTURE_HI v.toNat = true → ∃ t, exec (.u4Aperture agent v) s = .next t ∧
      rdF t A.U4_APERTURE_HI 23 0 = fldN v.toNat 23 0 ∧ ((∀ w, s.rf.staged.find? (fun e => e.1 == A.U4_APERTURE_LO) = some (A.U4_APERTURE_LO, w) → rd t A.U4_APERTURE_LO = w.toNat)) ∧ ((s.rf.staged.find? (fun e => e.1 == A.U4_APERTURE_LO) = none → rd t A.U4_APERTURE_LO = rd s A.U4_APERTURE_LO)) ∧ (∀ a, a ≠ A.U4_APERTURE_LO → a ≠ A.U4_APERTURE_HI → rd t a = rd s a)) ∧
  (∀ (s : State), s.power = .on → rdB s A.U4_STATUS 2 = true → ∃ t, exec .functionLevelReset s = .next t ∧
      (∀ v < 64, rd t (A.MSIX_CTRL v) = regReset (A.MSIX_CTRL v) % 4294967296 ∧ rd t (A.MSIX_ENTRY v 0) = regReset (A.MSIX_ENTRY v 0) % 4294967296) ∧ rd t (A.MSIX_PBA 0) = 0 ∧ rd t (A.MSIX_PBA 1) = 0 ∧ t.remote = [] ∧ ((s.sec.hostKey.isSome = true → rdB t A.SEC_STATUS 1 = false))) ∧
  (∀ (agent : Agent) (vector : Fin 64) (v : Word) (s : State), s.power = .on → takesEffect s agent (A.MSIX_CTRL vector.val) v.toNat = true → bitN v.toNat 0 = false → ∃ t, exec (.msixUnmask agent vector v) s = .next t ∧
      rdB t (A.MSIX_CTRL vector.val) 0 = false ∧ rdB t (A.MSIX_PBA (vector.val / 32)) (vector.val % 32) = false ∧ ((rdB s (A.MSIX_PBA (vector.val / 32)) (vector.val % 32) = true → t.msixOut = s.msixOut ++ [{ addr := rd s (A.MSIX_ENTRY vector.val 0) + 4294967296 * rd s (A.MSIX_ENTRY vector.val 1), data := rd s (A.MSIX_ENTRY vector.val 2) }])) ∧ ((rdB s (A.MSIX_PBA (vector.val / 32)) (vector.val % 32) = false → t.msixOut = s.msixOut)) ∧ (∀ a, a ≠ A.MSIX_CTRL vector.val → a ≠ A.MSIX_PBA (vector.val / 32) → rd t a = rd s a)) ∧
  (∀ (seq : BitVec 12) (ok : Bool) (jobs : List (BitVec 32)) (s : State), s.power = .on → rdB s A.U4_STATUS 0 = true → ok = true → seq.toNat = (s.media.rxSeq + 1) % 4096 → (∀ w, s.media.failAt = some w → s.ridge < w + 2000) → ∃ t, exec (.usb4BlockReceive seq ok jobs) s = .next t ∧
      t.media = { rxSeq := seq.toNat } ∧ (∀ a, rd t a = rd s a)) ∧
  (∀ (seq : BitVec 12) (ok : Bool) (jobs : List (BitVec 32)) (s : State), s.power = .on → rdB s A.U4_STATUS 0 = true → s.media.failAt = none → s.media.retries < 8 → (ok = false ∨ seq.toNat ≠ (s.media.rxSeq + 1) % 4096) → ∃ t, exec (.usb4BlockReceive seq ok jobs) s = .next t ∧
      t.media.rxSeq = s.media.rxSeq ∧ t.media.failAt = some s.ridge ∧ t.media.retries = s.media.retries + 1 ∧ rd t A.U4_RETRIES = (rd s A.U4_RETRIES + 1) % 4294967296 ∧ (∀ a, a ≠ A.U4_RETRIES → rd t a = rd s a)) ∧
  (∀ (jobs : List (BitVec 32)) (s : State), s.power = .on → rdB s A.U4_STATUS 0 = true → ∃ t, exec (.hostLinkDown jobs) s = .next t ∧
      rdB t A.U4_STATUS 0 = false ∧ rdB t A.U4_STATUS 3 = rdB s A.U4_STATUS 3 ∧ rd t A.U4_LINK_DOWNS = min (rd s A.U4_LINK_DOWNS + 1) 0xFFFFFFFF ∧ rd t A.U4_ROOT_TAG = (smGet (fun _ => 0) s.linkDowns 0 + 1) % 4096 ∧ t.remote = [] ∧ t.media = {} ∧ streamIsLost t = true ∧ bitN (evtFlags t 0x280) 0 = true ∧ levelActive t 0x138 = true) ∧
  (∀ (gen4 : Bool) (s : State), s.power = .on → rdB s A.U4_STATUS 0 = false → laneFit s 44 = true → laneFit s 45 = true → (if gen4 then rdB s A.U4_CFG 0 else rdB s A.U4_CFG 1) = true → ∃ t, exec (.hostLinkUp gen4) s = .next t ∧
      rd t A.U4_STATUS = 13 + 2 * b2n gen4 ∧ bitN (evtFlags t 0x280) 1 = true ∧ t.media = {} ∧ levelActive t 0x138 = false ∧ ((s.sec.hostKey.isSome = true → rdB t A.SEC_STATUS 1 = false)))

/-- O34. Frames at a sensor port. A control response that passes the checks of Table 4.4 sets the port's previous
sequence, adds the missing frames to the gap counter and waits to be matched, its message number and result read
from the payload; where the port runs MACsec and the frame passes it, the association's next packet number moves
past it too. A frame start of a whole CSI-2 packet opens the awaited frame of its stream, and a frame end closes the
open one and counts it. The next image line of an open frame of a stream routed to an image pipe, with a good
checksum, queues at the pipe, short pixels filled with the pad value. A segment that continues a packet at its
offset joins it, and one at another offset loses it. The points of a packet go to point preparation with the arrival
cycle and their stamps, and a packet from a port that is not a source, or without a cycle, is counted in
PP_UNFRAMED. A frame with a bad checksum or length, for another address, without the MACsec it needs, of another
EtherType, with a bad TSF header, or not newer than the last is counted, flagged where Table 4.4 says so, and has no
other effect; a live frame in a replay is counted and discarded. (Frames that the recorder captures with room in its
ring are not in this statement.) -/
def Obligations.SensorFrames : Prop :=
  (∀ (port : Fin 32) (frame : EthFrame) (rrLost : Bool) (s : State), s.power = .on → tsfGood s port.val frame → leAt frame.data 0 1 % 16 = 4 → replaying s = false → ((rrMode s = 1 → rrLost = true ∨ s.rr.frozen = true)) → ∃ t, exec (.tsfFrameReceive port frame rrLost) s = .next t ∧
      (sensorOf t port.val).lastSeq = some (beAt frame.data 4 4) ∧ (sensorOf t port.val).responses = (sensorOf s port.val).responses ++ [(beAt (tsfPayload frame) 0 4, leAt (tsfPayload frame) 4 1)] ∧ rd t (A.PORT_SEQ_GAP port.val) = (match (sensorOf s port.val).lastSeq with | some q => min (rd s (A.PORT_SEQ_GAP port.val) + (sgn 32 (beAt frame.data 4 4 + 4294967296 - q) - 1).toNat) 0xFFFFFFFF | none => rd s (A.PORT_SEQ_GAP port.val)) ∧ (∀ a, a ≠ A.PORT_SEQ_GAP port.val → rd t a = rd s a)) ∧
  (∀ (port : Fin 32) (tag : SecTag) (a : MacSa) (frame : EthFrame) (rrLost : Bool) (s : State), s.power = .on → frame.sec = some tag → tag.icvOk = true → bitN (sensorOf s port.val).cfg 4 = true → (secOf s port.val).sa = some a → tag.an.toNat = a.an → a.nextPn ≤ tag.pn.toNat → tsfSound s port.val frame → leAt frame.data 0 1 % 16 = 4 → replaying s = false → ((rrMode s = 1 → rrLost = true ∨ s.rr.frozen = true)) → ∃ t, exec (.tsfFrameReceive port frame rrLost) s = .next t ∧
      (secOf t port.val).sa = some { a with nextPn := tag.pn.toNat + 1 } ∧ (secOf t port.val).old = none ∧ (sensorOf t port.val).lastSeq = some (beAt frame.data 4 4) ∧ (sensorOf t port.val).responses = (sensorOf s port.val).responses ++ [(beAt (tsfPayload frame) 0 4, leAt (tsfPayload frame) 4 1)]) ∧
  (∀ (port : Fin 32) (frame : EthFrame) (rrLost : Bool) (h : CsiHeader) (fixed : Bool) (w : Nat × Nat) (s : State), s.power = .on → csiWhole s port.val frame h fixed → h.dt = 0 → midWindow s (16 * port.val + h.vc) w → (streamOf s (16 * port.val + h.vc)).phase = .awaited → replaying s = false → ((rrMode s = 1 → rrLost = true ∨ s.rr.frozen = true)) → ∃ t, exec (.tsfFrameReceive port frame rrLost) s = .next t ∧
      (streamOf t (16 * port.val + h.vc)).phase = .opened ∧ (streamOf t (16 * port.val + h.vc)).startAt = s.ridge ∧ (streamOf t (16 * port.val + h.vc)).next = 0 ∧ (streamOf t (16 * port.val + h.vc)).csi = some h.wc ∧ rdB t (A.ST_STATUS (stPage (16 * port.val + h.vc)) (stEntry (16 * port.val + h.vc))) 0 = true ∧ (sensorOf t port.val).asm = none) ∧
  (∀ (port : Fin 32) (frame : EthFrame) (rrLost : Bool) (h : CsiHeader) (fixed : Bool) (w : Nat × Nat) (s : State), s.power = .on → csiWhole s port.val frame h fixed → h.dt = 1 → midWindow s (16 * port.val + h.vc) w → (streamOf s (16 * port.val + h.vc)).phase = .opened → (streamOf s (16 * port.val + h.vc)).extra = false → replaying s = false → ((rrMode s = 1 → rrLost = true ∨ s.rr.frozen = true)) → ∃ t, exec (.tsfFrameReceive port frame rrLost) s = .next t ∧
      (streamOf t (16 * port.val + h.vc)).phase = .closed ∧ rd t (A.ST_FRAMES (stPage (16 * port.val + h.vc)) (stEntry (16 * port.val + h.vc))) = (rd s (A.ST_FRAMES (stPage (16 * port.val + h.vc)) (stEntry (16 * port.val + h.vc))) + 1) % 4294967296) ∧
  (∀ (port : Fin 32) (frame : EthFrame) (rrLost : Bool) (h : CsiHeader) (fixed : Bool) (w : Nat × Nat) (px : List Nat) (s : State), s.power = .on → csiWhole s port.val frame h fixed → h.dt = (streamOf s (16 * port.val + h.vc)).cfg.dt → isImageDt h.dt = true → (streamOf s (16 * port.val + h.vc)).cfg.route = 1 → midWindow s (16 * port.val + h.vc) w → (streamOf s (16 * port.val + h.vc)).phase = .opened → (streamOf s (16 * port.val + h.vc)).extra = false → ((streamOf s (16 * port.val + h.vc)).cfg.tpCamera = false ∨ fldN (streamOf s (16 * port.val + h.vc)).cfg.tp 5 0 ≠ h.dt) → beAt frame.data 12 2 = (streamOf s (16 * port.val + h.vc)).next → beAt frame.data 12 2 + 1 < (streamOf s (16 * port.val + h.vc)).cfg.lines → beAt frame.data 2 2 = h.wc + 6 → h.wc ≤ wcMax (streamOf s (16 * port.val + h.vc)).cfg → crc16 (((tsfPayload frame).drop 4).take h.wc) = leAt (tsfPayload frame) (h.wc + 4) 2 → px = (unpack h.dt (((tsfPayload frame).drop 4).take h.wc)).take (streamOf s (16 * port.val + h.vc)).cfg.width → (streamTaken s ((streamOf s (16 * port.val + h.vc)).cfg.target % 16) (16 * port.val + h.vc) = false ∨ (pipeQueue s ((streamOf s (16 * port.val + h.vc)).cfg.target % 16)).countP (fun x => x.stream == (16 * port.val + h.vc) && !x.paced) < 2) → replaying s = false → ((rrMode s = 1 → rrLost = true ∨ s.rr.frozen = true)) → ∃ t, exec (.tsfFrameReceive port frame rrLost) s = .next t ∧
      pipeQueue t ((streamOf s (16 * port.val + h.vc)).cfg.target % 16) = pipeQueue s ((streamOf s (16 * port.val + h.vc)).cfg.target % 16) ++ [mkLine (16 * port.val + h.vc) (streamOf s (16 * port.val + h.vc)) (beAt frame.data 12 2) (if h.wc < wcMax (streamOf s (16 * port.val + h.vc)).cfg then flShort else 0) (some (px ++ List.replicate ((streamOf s (16 * port.val + h.vc)).cfg.width - px.length) (fldN (streamOf s (16 * port.val + h.vc)).cfg.pad 23 0))) px.length false] ∧ (streamOf t (16 * port.val + h.vc)).next = beAt frame.data 12 2 + 1 ∧ (streamOf t (16 * port.val + h.vc)).sawImage = true) ∧
  (∀ (port : Fin 32) (frame : EthFrame) (rrLost : Bool) (a : PacketAsm) (s : State), s.power = .on → tsfGood s port.val frame → leAt frame.data 0 1 % 16 = 1 → leAt frame.data 1 1 = 0 → (sensorOf s port.val).asm = some a → beAt frame.data 8 4 = a.len → replaying s = false → ((rrMode s = 1 → rrLost = true ∨ s.rr.frozen = true)) → ∃ t, exec (.tsfFrameReceive port frame rrLost) s = .next t ∧
      (sensorOf t port.val).asm = some { a with len := a.len + (tsfPayload frame).length, data := (if a.keep then a.data ++ tsfPayload frame else []) } ∧ t.streams = s.streams) ∧
  (∀ (port : Fin 32) (frame : EthFrame) (rrLost : Bool) (a : PacketAsm) (s : State), s.power = .on → tsfGood s port.val frame → leAt frame.data 0 1 % 16 = 1 → bitN (leAt frame.data 1 1) 0 = false → (sensorOf s port.val).asm = some a → beAt frame.data 8 4 ≠ a.len → replaying s = false → ((rrMode s = 1 → rrLost = true ∨ s.rr.frozen = true)) → ∃ t, exec (.tsfFrameReceive port frame rrLost) s = .next t ∧
      (sensorOf t port.val).asm = none ∧ rd t (portCounter port.val 8) = min (rd s (portCounter port.val 8) + 1) 0xFFFFFFFF ∧ bitN (evtFlags t (0x040 + port.val)) 4 = true) ∧
  (∀ (port : Fin 32) (frame : EthFrame) (rrLost : Bool) (l k : Nat) (s : State), s.power = .on → tsfGood s port.val frame → leAt frame.data 0 1 % 16 = 2 → pointsValid (tsfPayload frame) = true → (s.ridge : Int) - 200000000 ≤ pointBase s (tsfPayload frame) → pointBase s (tsfPayload frame) ≤ (s.ridge : Int) + 1000000 → rdB s A.PP_SOURCES port.val = true → cycleAt s (rdF s A.PP_CTL 5 3) 0 s.ridge = some (l, k) → rdB s A.PP_CTL 0 = true → unitOn s 0x0A0 = true → (∀ i < beAt (tsfPayload frame) 8 2, pointPast s (packetPoint s port.val k (tsfPayload frame) i) = false) → s.pp.points.length + beAt (tsfPayload frame) 8 2 ≤ 65536 * rdF s A.PP_BUF_SIZE 6 0 → replaying s = false → ((rrMode s = 1 → rrLost = true ∨ s.rr.frozen = true)) → ∃ t, exec (.tsfFrameReceive port frame rrLost) s = .next t ∧
      t.pp.points = s.pp.points ++ (List.range (beAt (tsfPayload frame) 8 2)).map (packetPoint s port.val k (tsfPayload frame)) ∧ t.pp.overflow = s.pp.overflow ∧ (sensorOf t port.val).lastSeq = some (beAt frame.data 4 4)) ∧
  (∀ (port : Fin 32) (frame : EthFrame) (rrLost : Bool) (s : State), s.power = .on → tsfGood s port.val frame → leAt frame.data 0 1 % 16 = 2 → pointsValid (tsfPayload frame) = true → (s.ridge : Int) - 200000000 ≤ pointBase s (tsfPayload frame) → pointBase s (tsfPayload frame) ≤ (s.ridge : Int) + 1000000 → (rdB s A.PP_SOURCES port.val = false ∨ cycleAt s (rdF s A.PP_CTL 5 3) 0 s.ridge = none) → replaying s = false → ((rrMode s = 1 → rrLost = true ∨ s.rr.frozen = true)) → ∃ t, exec (.tsfFrameReceive port frame rrLost) s = .next t ∧
      rd t A.PP_UNFRAMED = min (rd s A.PP_UNFRAMED + 1) 0xFFFFFFFF ∧ t.pp = s.pp ∧ (sensorOf t port.val).lastSeq = some (beAt frame.data 4 4)) ∧
  (∀ (port : Fin 32) (frame : EthFrame) (rrLost : Bool) (s : State), s.power = .on → rdB s (A.PORT_STATUS port.val) 0 = true → unitOn s (0x040 + port.val) = true → (frame.fcsOk = false ∨ frame.data.length < 46 ∨ 1500 < frame.data.length) → ∃ t, exec (.tsfFrameReceive port frame rrLost) s = .next t ∧
      rd t (portCounter port.val 0) = min (rd s (portCounter port.val 0) + 1) 0xFFFFFFFF ∧ bitN (evtFlags t (0x040 + port.val)) 1 = true ∧ t.sensors = s.sensors ∧ t.streams = s.streams ∧ t.pp = s.pp ∧ (∀ a, a ≠ portCounter port.val 0 → ¬eventAddr (0x040 + port.val) a → rd t a = rd s a)) ∧
  (∀ (port : Fin 32) (frame : EthFrame) (rrLost : Bool) (s : State), s.power = .on → rdB s (A.PORT_STATUS port.val) 0 = true → unitOn s (0x040 + port.val) = true → frame.fcsOk = true → 46 ≤ frame.data.length → frame.data.length ≤ 1500 → frame.dest.toNat ≠ portAddr s port.val → frame.dest.toNat ≠ 0x0180C200000E → ∃ t, exec (.tsfFrameReceive port frame rrLost) s = .next t ∧
      rd t (portCounter port.val 1) = min (rd s (portCounter port.val 1) + 1) 0xFFFFFFFF ∧ t.sensors = s.sensors ∧ t.streams = s.streams ∧ t.pp = s.pp ∧ (∀ a, a ≠ portCounter port.val 1 → rd t a = rd s a)) ∧
  (∀ (port : Fin 32) (frame : EthFrame) (rrLost : Bool) (s : State), s.power = .on → rdB s (A.PORT_STATUS port.val) 0 = true → unitOn s (0x040 + port.val) = true → frame.fcsOk = true → 46 ≤ frame.data.length → frame.data.length ≤ 1500 → (frame.dest.toNat = portAddr s port.val ∨ frame.dest.toNat = 0x0180C200000E) → frame.sec = none → bitN (sensorOf s port.val).cfg 4 = true → bitN (sensorOf s port.val).cfg 5 = true → frame.etherType ≠ 0x888E → ∃ t, exec (.tsfFrameReceive port frame rrLost) s = .next t ∧
      rd t (portCounter port.val 2) = min (rd s (portCounter port.val 2) + 1) 0xFFFFFFFF ∧ bitN (evtFlags t (0x040 + port.val)) 2 = true ∧ t.sensors = s.sensors ∧ t.streams = s.streams ∧ t.pp = s.pp ∧ (∀ a, a ≠ portCounter port.val 2 → ¬eventAddr (0x040 + port.val) a → rd t a = rd s a)) ∧
  (∀ (port : Fin 32) (frame : EthFrame) (rrLost : Bool) (s : State), s.power = .on → rdB s (A.PORT_STATUS port.val) 0 = true → unitOn s (0x040 + port.val) = true → frame.fcsOk = true → 46 ≤ frame.data.length → frame.data.length ≤ 1500 → (frame.dest.toNat = portAddr s port.val ∨ frame.dest.toNat = 0x0180C200000E) → frame.sec = none → (bitN (sensorOf s port.val).cfg 4 && bitN (sensorOf s port.val).cfg 5) = false → frame.etherType ≠ 0x88B5 → frame.etherType ≠ 0x88F7 → frame.etherType ≠ 0x888E → ∃ t, exec (.tsfFrameReceive port frame rrLost) s = .next t ∧
      rd t (portCounter port.val 3) = min (rd s (portCounter port.val 3) + 1) 0xFFFFFFFF ∧ t.sensors = s.sensors ∧ t.streams = s.streams ∧ t.pp = s.pp ∧ (∀ a, a ≠ portCounter port.val 3 → rd t a = rd s a)) ∧
  (∀ (port : Fin 32) (frame : EthFrame) (rrLost : Bool) (s : State), s.power = .on → rdB s (A.PORT_STATUS port.val) 0 = true → unitOn s (0x040 + port.val) = true → frame.fcsOk = true → 46 ≤ frame.data.length → frame.data.length ≤ 1500 → (frame.dest.toNat = portAddr s port.val ∨ frame.dest.toNat = 0x0180C200000E) → frame.sec = none → (bitN (sensorOf s port.val).cfg 4 && bitN (sensorOf s port.val).cfg 5) = false → frame.etherType = 0x88B5 → tsfHeaderOk frame.data = false → ∃ t, exec (.tsfFrameReceive port frame rrLost) s = .next t ∧
      rd t (portCounter port.val 4) = min (rd s (portCounter port.val 4) + 1) 0xFFFFFFFF ∧ bitN (evtFlags t (0x040 + port.val)) 3 = true ∧ t.sensors = s.sensors ∧ t.streams = s.streams ∧ t.pp = s.pp ∧ (∀ a, a ≠ portCounter port.val 4 → ¬eventAddr (0x040 + port.val) a → rd t a = rd s a)) ∧
  (∀ (port : Fin 32) (frame : EthFrame) (rrLost : Bool) (q : Nat) (s : State), s.power = .on → rdB s (A.PORT_STATUS port.val) 0 = true → unitOn s (0x040 + port.val) = true → frame.fcsOk = true → 46 ≤ frame.data.length → frame.data.length ≤ 1500 → (frame.dest.toNat = portAddr s port.val ∨ frame.dest.toNat = 0x0180C200000E) → frame.sec = none → (bitN (sensorOf s port.val).cfg 4 && bitN (sensorOf s port.val).cfg 5) = false → frame.etherType = 0x88B5 → tsfHeaderOk frame.data = true → 0 < beAt frame.data 2 2 → beAt frame.data 2 2 ≤ 1484 → 16 + beAt frame.data 2 2 ≤ frame.data.length → (sensorOf s port.val).lastSeq = some q → sgn 32 (beAt frame.data 4 4 + 4294967296 - q) ≤ 0 → ∃ t, exec (.tsfFrameReceive port frame rrLost) s = .next t ∧
      rd t (portCounter port.val 7) = min (rd s (portCounter port.val 7) + 1) 0xFFFFFFFF ∧ bitN (evtFlags t (0x040 + port.val)) 3 = true ∧ t.sensors = s.sensors ∧ t.streams = s.streams ∧ t.pp = s.pp ∧ (∀ a, a ≠ portCounter port.val 7 → ¬eventAddr (0x040 + port.val) a → rd t a = rd s a)) ∧
  (∀ (port : Fin 32) (frame : EthFrame) (rrLost : Bool) (s : State), s.power = .on → tsfGood s port.val frame → replaying s = true → ∃ t, exec (.tsfFrameReceive port frame rrLost) s = .next t ∧
      rd t A.RR_LIVE_DISCARDED = min (rd s A.RR_LIVE_DISCARDED + 1) 0xFFFFFFFF ∧ (sensorOf t port.val).responses = (sensorOf s port.val).responses ∧ (sensorOf t port.val).asm = (sensorOf s port.val).asm ∧ t.streams = s.streams ∧ t.pp = s.pp)

/-- O35. The length of a TSF frame. A TSF length of 0x0000 or 0xFFFF is invalid, and one greater than 1,484 or than the
bytes that follow the header is rejected: either counts and flags its status and discards the whole TSF frame. Bytes
beyond the length are padding: what they hold makes no difference. -/
def Obligations.TsfLength : Prop :=
  (∀ (port : Fin 32) (frame : EthFrame) (rrLost : Bool) (s : State), s.power = .on → rdB s (A.PORT_STATUS port.val) 0 = true → unitOn s (0x040 + port.val) = true → frame.fcsOk = true →
    46 ≤ frame.data.length → frame.data.length ≤ 1500 → frame.dest.toNat = portAddr s port.val → frame.sec = none →
    bitN (sensorOf s port.val).cfg 4 = false → frame.etherType = 0x88B5 → tsfHeaderOk frame.data = true →
    (beAt frame.data 2 2 = 0 ∨ beAt frame.data 2 2 = 0xFFFF ∨ 1484 < beAt frame.data 2 2 ∨
      frame.data.length < 16 + beAt frame.data 2 2) →
    ∃ t, exec (.tsfFrameReceive port frame rrLost) s = .next t ∧
      rd t (portCounter port.val (if beAt frame.data 2 2 = 0 ∨ beAt frame.data 2 2 = 0xFFFF then 5 else 6)) =
        min (rd s (portCounter port.val (if beAt frame.data 2 2 = 0 ∨ beAt frame.data 2 2 = 0xFFFF then 5 else 6)) + 1)
          0xFFFFFFFF ∧
      bitN (evtFlags t (0x040 + port.val)) 3 = true ∧ t.sensors = s.sensors ∧ t.streams = s.streams ∧ t.pp = s.pp ∧
      t.pipeQ = s.pipeQ ∧ t.decq = s.decq) ∧
  (∀ (port : Fin 32) (frame : EthFrame) (d : List Byte) (rrLost : Bool) (s : State),
    tsfHeaderOk frame.data = true → 16 + beAt frame.data 2 2 ≤ frame.data.length → 16 + beAt frame.data 2 2 ≤ d.length →
    46 ≤ frame.data.length → frame.data.length ≤ 1500 → 46 ≤ d.length → d.length ≤ 1500 →
    d.take (16 + beAt frame.data 2 2) = frame.data.take (16 + beAt frame.data 2 2) →
    exec (.tsfFrameReceive port { frame with data := d } rrLost) s = exec (.tsfFrameReceive port frame rrLost) s)

/-- O36. Frame windows and their deadlines. The start of a window gives the stream its live configuration, held not
enabled and flagged where it is beyond the limits, and awaits a frame; within its window a stream keeps what it has,
and without a cycle it has no window. At fs_deadline without a frame the window's void frame is emitted and counted
missing and flagged; at fe_deadline an open frame closes and is counted; at tp_deadline a camera pattern that has
not come fails; before its count a deadline does nothing. A write of ST_CTL with enable sets it in the shadow where
the entry meets its constraints, and is otherwise rejected with the enable as it was. -/
def Obligations.StreamWindows : Prop :=
  (∀ (port : Fin 32) (vc : Fin 16) (w : Nat × Nat) (s : State), s.power = .on → windowNow s (streamCfg (rd s) (16 * port.val + vc.val)) = some w → ¬((streamOf s (16 * port.val + vc.val)).win.isSome = true ∧ windowNow s (streamOf s (16 * port.val + vc.val)).cfg = (streamOf s (16 * port.val + vc.val)).win) → (streamOf s (16 * port.val + vc.val)).win ≠ some w → ¬((streamCfg (rd s) (16 * port.val + vc.val)).fg = (streamOf s (16 * port.val + vc.val)).cfg.fg ∧ (streamOf s (16 * port.val + vc.val)).win.any (fun v => v.2 == w.2) = true) → ∃ t, exec (.streamWindowStart port vc) s = .next t ∧
      (streamOf t (16 * port.val + vc.val)).win = some w ∧ (streamOf t (16 * port.val + vc.val)).cfg = windowCfg s (16 * port.val + vc.val) ∧ (streamOf t (16 * port.val + vc.val)).phase = .awaited ∧ (streamOf t (16 * port.val + vc.val)).next = 0 ∧ (streamOf t (16 * port.val + vc.val)).held = none ∧ (streamOf t (16 * port.val + vc.val)).settings = none ∧ (streamOf t (16 * port.val + vc.val)).tpDone = false ∧ (((streamCfg (rd s) (16 * port.val + vc.val)).on = true → streamCfgOk s (streamCfg (rd s) (16 * port.val + vc.val)) = false → bitN (evtFlags t (0x060 + stPage (16 * port.val + vc.val))) 5 = true))) ∧
  (∀ (port : Fin 32) (vc : Fin 16) (w : Nat × Nat) (s : State), s.power = .on → (streamOf s (16 * port.val + vc.val)).win = some w → windowNow s (streamOf s (16 * port.val + vc.val)).cfg = some w → ∃ t, exec (.streamWindowStart port vc) s = .next t ∧
      t.streams = s.streams ∧ (∀ a, rd t a = rd s a)) ∧
  (∀ (port : Fin 32) (vc : Fin 16)  (s : State), s.power = .on → fgOn s (streamCfg (rd s) (16 * port.val + vc.val)).fg = false → windowNow s (streamCfg (rd s) (16 * port.val + vc.val)) = none → ¬((streamOf s (16 * port.val + vc.val)).win.isSome = true ∧ windowNow s (streamOf s (16 * port.val + vc.val)).cfg = (streamOf s (16 * port.val + vc.val)).win) → (streamOf s (16 * port.val + vc.val)).phase = .closed → (streamOf s (16 * port.val + vc.val)).cfg.tpCamera = false → ∃ t, exec (.streamWindowStart port vc) s = .next t ∧
      (streamOf t (16 * port.val + vc.val)).win = none ∧ (streamOf t (16 * port.val + vc.val)).phase = .awaited ∧ (∀ a, rd t a = rd s a)) ∧
  (∀ (port : Fin 32) (vc : Fin 16) (w : Nat × Nat) (s : State), s.power = .on → (streamOf s (16 * port.val + vc.val)).win = some w → (streamOf s (16 * port.val + vc.val)).cfg.on = true → streamRuns s (16 * port.val + vc.val) = true → (streamOf s (16 * port.val + vc.val)).phase = .awaited → w.1 + (streamOf s (16 * port.val + vc.val)).cfg.fsDl ≤ s.ridge → ∃ t, exec (.fsDeadline port vc) s = .next t ∧
      (streamOf t (16 * port.val + vc.val)).phase = .closed ∧ (streamOf t (16 * port.val + vc.val)).voided = true ∧ rd t (A.ST_MISSING (stPage (16 * port.val + vc.val)) (stEntry (16 * port.val + vc.val))) = min (rd s (A.ST_MISSING (stPage (16 * port.val + vc.val)) (stEntry (16 * port.val + vc.val))) + 1) 0xFFFFFFFF ∧ rd t (A.ST_FLAGGED (stPage (16 * port.val + vc.val)) (stEntry (16 * port.val + vc.val))) = min (rd s (A.ST_FLAGGED (stPage (16 * port.val + vc.val)) (stEntry (16 * port.val + vc.val))) + 1) 0xFFFFFFFF ∧ bitN (evtFlags t (0x060 + stPage (16 * port.val + vc.val))) 0 = true ∧ bitN (evtFlags t (0x060 + stPage (16 * port.val + vc.val))) 1 = true) ∧
  (∀ (port : Fin 32) (vc : Fin 16)  (s : State), s.power = .on → ((streamOf s (16 * port.val + vc.val)).win = none ∨ (∃ w, (streamOf s (16 * port.val + vc.val)).win = some w ∧ s.ridge < w.1 + (streamOf s (16 * port.val + vc.val)).cfg.fsDl) ∨ (streamOf s (16 * port.val + vc.val)).phase ≠ .awaited) → ∃ t, exec (.fsDeadline port vc) s = .next t ∧
      t.streams = s.streams ∧ (∀ a, rd t a = rd s a)) ∧
  (∀ (port : Fin 32) (vc : Fin 16) (w : Nat × Nat) (s : State), s.power = .on → (streamOf s (16 * port.val + vc.val)).win = some w → (streamOf s (16 * port.val + vc.val)).cfg.on = true → (streamOf s (16 * port.val + vc.val)).phase = .opened → w.1 + (streamOf s (16 * port.val + vc.val)).cfg.feDl ≤ s.ridge → ∃ t, exec (.feDeadline port vc) s = .next t ∧
      (streamOf t (16 * port.val + vc.val)).phase = .closed ∧ rd t (A.ST_FRAMES (stPage (16 * port.val + vc.val)) (stEntry (16 * port.val + vc.val))) = (rd s (A.ST_FRAMES (stPage (16 * port.val + vc.val)) (stEntry (16 * port.val + vc.val))) + 1) % 4294967296) ∧
  (∀ (port : Fin 32) (vc : Fin 16)  (s : State), s.power = .on → ((streamOf s (16 * port.val + vc.val)).win = none ∨ (∃ w, (streamOf s (16 * port.val + vc.val)).win = some w ∧ s.ridge < w.1 + (streamOf s (16 * port.val + vc.val)).cfg.feDl) ∨ (streamOf s (16 * port.val + vc.val)).phase ≠ .opened) → ∃ t, exec (.feDeadline port vc) s = .next t ∧
      t.streams = s.streams ∧ (∀ a, rd t a = rd s a)) ∧
  (∀ (port : Fin 32) (vc : Fin 16) (w : Nat × Nat) (s : State), s.power = .on → (streamOf s (16 * port.val + vc.val)).win = some w → (streamOf s (16 * port.val + vc.val)).cfg.on = true → (streamOf s (16 * port.val + vc.val)).cfg.tpCamera = true → (streamOf s (16 * port.val + vc.val)).tpDone = false → w.1 + (streamOf s (16 * port.val + vc.val)).cfg.tpDeadline ≤ s.ridge → ∃ t, exec (.tpDeadline port vc) s = .next t ∧
      (streamOf t (16 * port.val + vc.val)).tpDone = true ∧ rd t (A.ST_TP_FAIL (stPage (16 * port.val + vc.val)) (stEntry (16 * port.val + vc.val))) = min (rd s (A.ST_TP_FAIL (stPage (16 * port.val + vc.val)) (stEntry (16 * port.val + vc.val))) + 1) 0xFFFFFFFF ∧ bitN (evtFlags t (0x060 + stPage (16 * port.val + vc.val))) 3 = true ∧ (∀ a, a ≠ A.ST_TP_FAIL (stPage (16 * port.val + vc.val)) (stEntry (16 * port.val + vc.val)) → ¬eventAddr (0x060 + stPage (16 * port.val + vc.val)) a → rd t a = rd s a)) ∧
  (∀ (port : Fin 32) (vc : Fin 16)  (s : State), s.power = .on → ((streamOf s (16 * port.val + vc.val)).win = none ∨ (∃ w, (streamOf s (16 * port.val + vc.val)).win = some w ∧ s.ridge < w.1 + (streamOf s (16 * port.val + vc.val)).cfg.tpDeadline) ∨ (streamOf s (16 * port.val + vc.val)).cfg.tpCamera = false ∨ (streamOf s (16 * port.val + vc.val)).tpDone = true) → ∃ t, exec (.tpDeadline port vc) s = .next t ∧
      t.streams = s.streams ∧ (∀ a, rd t a = rd s a)) ∧
  (∀ (agent : Agent) (port : Fin 32) (vc : Fin 16) (v : Word) (s : State), s.power = .on → takesEffect s agent (A.ST_CTL (stPage (16 * port.val + vc.val)) (stEntry (16 * port.val + vc.val))) (v.toNat ||| 1) = true → ∃ t, exec (.streamEnable agent port vc v) s = .next t ∧
      ((streamCfgOk s { streamCfg (rdShadow s) (16 * port.val + vc.val) with ctl := v.toNat ||| 1 } = true → bitN (rdShadow t (A.ST_CTL (stPage (16 * port.val + vc.val)) (stEntry (16 * port.val + vc.val)))) 0 = true ∧ fldN (rdShadow t (A.ST_CTL (stPage (16 * port.val + vc.val)) (stEntry (16 * port.val + vc.val)))) 9 4 = fldN v.toNat 9 4 ∧ ∀ a, rd t a = rd s a)) ∧ ((streamCfgOk s { streamCfg (rdShadow s) (16 * port.val + vc.val) with ctl := v.toNat ||| 1 } = false → bitN (rdShadow t (A.ST_CTL (stPage (16 * port.val + vc.val)) (stEntry (16 * port.val + vc.val)))) 0 = bitN (rdShadow s (A.ST_CTL (stPage (16 * port.val + vc.val)) (stEntry (16 * port.val + vc.val)))) 0 ∧ bitN (evtFlags t (0x060 + stPage (16 * port.val + vc.val))) 5 = true ∧ ∀ a, ¬eventAddr (0x060 + stPage (16 * port.val + vc.val)) a → rd t a = rd s a)))

/-- O37. Camera control. CAM_SETTINGS that is refused completes with its status and the flag of page 0x070; one that is
accepted waits for every port of its mask, joins the outstanding settings of each and sends each a message, counted.
A matched response leaves its queue and ends its message: result 0 shows the settings as applied, and completes the
pod where no other port is missing; results 1 and 2 are counted and flagged as refusals; another result is passed
over. A message without a response is sent again while tries and time are left, and otherwise fails. Settings whose
apply count has passed are no longer outstanding. A Sync that is due leaves with its time, and the next is due an
interval later; a peer-delay request is answered with its times, a response gives the peer delay, and another
message changes nothing. What a port sends is under its association where it runs MACsec. -/
def Obligations.CameraControl : Prop :=
  (∀ (no : Nat) (p : RxPod) (s : State), s.power = .on → unitOn s 0x070 = true → runningControl s no 2 1 = some p → camStatus s p ≠ 0 → ∃ t, exec (.camSettings no) s = .next t ∧
      PodDone t p.no (camStatus s p) ∧ t.camPods = s.camPods ∧ t.sensors = s.sensors ∧ t.portOut = s.portOut ∧ bitN (evtFlags t 0x070) 0 = true) ∧
  (∀ (no : Nat) (p : RxPod) (s : State), s.power = .on → unitOn s 0x070 = true → runningControl s no 2 1 = some p → camStatus s p = 0 → ∃ t, exec (.camSettings no) s = .next t ∧
      t.camPods = s.camPods ++ [{ no := p.no, ports := (portsOf (leAt p.body 0 4)).map (fun n => (n, none)) }] ∧ t.portOut = s.portOut ++ (portsOf (leAt p.body 0 4)).flatMap (fun n => sentFrame s n (fun sec => .tsf n (portAddr s n) sec (camBytes s n (sensorOf s n).nextMsg 1 (leAt p.body 4 1) (gptpTime s ((applyRidge s n p.hdr.frame).getD 0).toNat) ((p.body.drop 16).take (leAt p.body 6 2))))) ∧ (∀ n ∈ portsOf (leAt p.body 0 4), (sensorOf t n).outstanding = camOutstanding s n ++ [(p.hdr.frame, ((applyRidge s n p.hdr.frame).getD 0).toNat)] ∧ (sensorOf t n).msgs = (sensorOf s n).msgs ++ [{ id := (sensorOf s n).nextMsg, pod := p.no, settings := leAt p.body 4 1, applyAt := ((applyRidge s n p.hdr.frame).getD 0).toNat, payload := ((p.body.drop 16).take (leAt p.body 6 2)), sentAt := s.ridge }] ∧ (sensorOf t n).nextMsg = ((sensorOf s n).nextMsg + 1) % 4294967296 ∧ rdF t (A.CAM_STATUS n) 7 0 = leAt p.body 4 1 ∧ rd t (A.CAM_MSG_COUNT n) = (rd s (A.CAM_MSG_COUNT n) + 1) % 4294967296) ∧ ((∀ n, n ∉ portsOf (leAt p.body 0 4) → sensorOf t n = sensorOf s n))) ∧
  (∀ (port : Fin 32) (id : Nat) (rest : List (Nat × Nat)) (m : CamMsg) (s : State), s.power = .on → (sensorOf s port.val).responses = (id, 0) :: rest → (sensorOf s port.val).msgs.find? (fun m => m.id == id) = some m → ∃ t, exec (.controlResponse port) s = .next t ∧
      (sensorOf t port.val).responses = rest ∧ (sensorOf t port.val).msgs = (sensorOf s port.val).msgs.filter (fun k => k.id != id) ∧ rdF t (A.CAM_STATUS port.val) 15 8 = m.settings % 256 ∧ rdF t (A.CAM_STATUS port.val) 31 28 = 0 ∧ ((∀ cp, s.camPods.find? (fun x => x.no == m.pod) = some cp → (∀ e ∈ cp.ports, e.1 ≠ port.val → e.2 = some 0) → PodDone t m.pod 0 ∧ ∀ x ∈ t.camPods, x.no ≠ m.pod))) ∧
  (∀ (port : Fin 32) (id res : Nat) (rest : List (Nat × Nat)) (m : CamMsg) (s : State), s.power = .on → (sensorOf s port.val).responses = (id, res) :: rest → 1 ≤ res → res ≤ 2 → (sensorOf s port.val).msgs.find? (fun m => m.id == id) = some m → ∃ t, exec (.controlResponse port) s = .next t ∧
      (sensorOf t port.val).responses = rest ∧ (sensorOf t port.val).msgs = (sensorOf s port.val).msgs.filter (fun k => k.id != id) ∧ rdF t (A.CAM_STATUS port.val) 31 28 = 1 ∧ rd t (A.CAM_FAIL_COUNT port.val) = min (rd s (A.CAM_FAIL_COUNT port.val) + 1) 0xFFFFFFFF ∧ bitN (evtFlags t 0x070) 1 = true) ∧
  (∀ (port : Fin 32) (id res : Nat) (rest : List (Nat × Nat)) (s : State), s.power = .on → (sensorOf s port.val).responses = (id, res) :: rest → (2 < res ∨ (sensorOf s port.val).msgs.find? (fun m => m.id == id) = none) → ∃ t, exec (.controlResponse port) s = .next t ∧
      (sensorOf t port.val).responses = rest ∧ (sensorOf t port.val).msgs = (sensorOf s port.val).msgs ∧ (∀ a, rd t a = rd s a)) ∧
  (∀ (port : Fin 32) (m : CamMsg) (s : State), s.power = .on → (sensorOf s port.val).msgs.find? (fun m => decide (m.sentAt + 1000 * rdF s A.CAM_ACK_TIMEOUT 15 0 ≤ s.ridge)) = some m → m.resends < rdF s A.CAM_ACK_TIMEOUT 19 16 → s.ridge ≤ m.applyAt → ∃ t, exec (.camAckTimeout port) s = .next t ∧
      t.portOut = s.portOut ++ sentFrame s port.val (fun sec => .tsf port.val (portAddr s port.val) sec (camBytes s port.val m.id 1 m.settings (gptpTime s m.applyAt) m.payload)) ∧ rd t (A.CAM_MSG_COUNT port.val) = (rd s (A.CAM_MSG_COUNT port.val) + 1) % 4294967296 ∧ (sensorOf t port.val).msgs = (sensorOf s port.val).msgs.map (fun k => if k.id = m.id then { k with sentAt := s.ridge, resends := k.resends + 1 } else k) ∧ (∀ a, a ≠ A.CAM_MSG_COUNT port.val → rd t a = rd s a)) ∧
  (∀ (port : Fin 32) (m : CamMsg) (s : State), s.power = .on → (sensorOf s port.val).msgs.find? (fun m => decide (m.sentAt + 1000 * rdF s A.CAM_ACK_TIMEOUT 15 0 ≤ s.ridge)) = some m → (rdF s A.CAM_ACK_TIMEOUT 19 16 ≤ m.resends ∨ m.applyAt < s.ridge) → ∃ t, exec (.camAckTimeout port) s = .next t ∧
      (sensorOf t port.val).msgs = (sensorOf s port.val).msgs.filter (fun k => k.id != m.id) ∧ rdF t (A.CAM_STATUS port.val) 31 28 = 2 ∧ rd t (A.CAM_FAIL_COUNT port.val) = min (rd s (A.CAM_FAIL_COUNT port.val) + 1) 0xFFFFFFFF ∧ bitN (evtFlags t 0x070) 2 = true ∧ t.portOut = s.portOut) ∧
  (∀ (port : Fin 32) (s : State), s.power = .on → ∃ t, exec (.settingsApplyRidge port) s = .next t ∧
      (sensorOf t port.val).outstanding = camOutstanding s port.val ∧ rdF t (A.CAM_STATUS port.val) 26 24 = (camOutstanding s port.val).length % 8 ∧ (∀ a, a ≠ A.CAM_STATUS port.val → rd t a = rd s a)) ∧
  (∀ (port : Fin 32) (s : State), s.power = .on → rdB s (A.PORT_STATUS port.val) 0 = true → unitOn s (0x040 + port.val) = true → rdB s (A.PORT_GPTP port.val) 8 = true → (sensorOf s port.val).syncDue ≤ s.ridge → ∃ t, exec (.gptpSyncSend port) s = .next t ∧
      t.portOut = s.portOut ++ sentFrame s port.val (fun sec => .sync port.val sec (gptpTime s s.ridge)) ∧ (sensorOf t port.val).syncDue = s.ridge + 1000000000 / 2 ^ (-sgn 8 (rdF s (A.PORT_GPTP port.val) 7 0)).toNat ∧ (∀ a, rd t a = rd s a)) ∧
  (∀ (port : Fin 32) (t2 : BitVec 64) (s : State), s.power = .on → rdB s (A.PORT_STATUS port.val) 0 = true → unitOn s (0x040 + port.val) = true → rdB s (A.PORT_GPTP port.val) 8 = true → ∃ t, exec (.gptpMessageReceive port (.pdelayReq t2)) s = .next t ∧
      t.portOut = s.portOut ++ sentFrame s port.val (fun sec => .pdelay port.val sec t2.toNat (gptpTime s s.ridge)) ∧ (∀ a, rd t a = rd s a)) ∧
  (∀ (port : Fin 32) (t1 t2 t3 t4 : BitVec 64) (s : State), s.power = .on → rdB s (A.PORT_STATUS port.val) 0 = true → unitOn s (0x040 + port.val) = true → rdB s (A.PORT_GPTP port.val) 8 = true → ∃ t, exec (.gptpMessageReceive port (.pdelayResp t1 t2 t3 t4)) s = .next t ∧
      rd t (A.PORT_PDELAY port.val) = (((sgn 64 (t4 - t1).toNat - sgn 64 (t3 - t2).toNat) / 2) % 4294967296).toNat ∧ (∀ a, a ≠ A.PORT_PDELAY port.val → rd t a = rd s a)) ∧
  (∀ (port : Fin 32) (s : State), s.power = .on → ∃ t, exec (.gptpMessageReceive port .other) s = .next t ∧
      t.portOut = s.portOut ∧ (∀ a, rd t a = rd s a))

/-- O38. Sensor links and their keys. A port that comes up takes its PORT_CFG, forgets its sequence, shows up in
PORT_STATUS and ends its level condition. A port that goes down loses its association and its half-assembled packet,
raises LINK_DOWN and reports its cause (the spec gives a plain loss no status; that value is free); one that is down
stays as it is. On a keyed port without an association a valid key-agreement frame draws the first, and another
changes nothing; at its packet-number limit a rekey draws the next, the old one lasting 3 s; after that it lapses. -/
def Obligations.SensorLinks : Prop :=
  (∀ (port : Fin 32) (s : State), s.power = .on → rdB s (A.PORT_STATUS port.val) 0 = false → laneFit s port.val = true → ∃ t, exec (.sensorLinkUp port) s = .next t ∧
      rd t (A.PORT_STATUS port.val) = 1 + 16 * rdF s (A.PORT_CFG port.val) 1 0 ∧ (sensorOf t port.val).cfg = rd s (A.PORT_CFG port.val) ∧ (sensorOf t port.val).lastSeq = none ∧ (sensorOf t port.val).asm = none ∧ levelActive t (0x040 + port.val) = false ∧ (∀ a, a ≠ A.PORT_STATUS port.val → a ≠ A.FC_SRC_CFG (0x040 + port.val) → rd t a = rd s a)) ∧
  (∀ (port : Fin 32) (cause : LinkCause) (s : State), s.power = .on → rdB s (A.PORT_STATUS port.val) 0 = true → ∃ t, exec (.sensorLinkDown port cause) s = .next t ∧
      rd t (A.PORT_STATUS port.val) = 4 * b2n (cause == .openFibre) ∧ (sensorOf t port.val).asm = none ∧ (secOf t port.val).sa = none ∧ (secOf t port.val).old = none ∧ bitN (evtFlags t (0x040 + port.val)) 0 = true ∧ levelActive t (0x040 + port.val) = true ∧ t.fc.inbox = s.fc.inbox ++ [{ source := 0x040 + port.val, status := (match cause with | .openFibre => St.OPEN_FIBRE | .laserFault => St.LASER_FAULT | .other => Config.freeValue s.freeCount % 65536), detail := port.val, detected := s.ridge }]) ∧
  (∀ (port : Fin 32) (cause : LinkCause) (s : State), s.power = .on → rdB s (A.PORT_STATUS port.val) 0 = false → ∃ t, exec (.sensorLinkDown port cause) s = .next t ∧
      t.sensors = s.sensors ∧ t.portSec = s.portSec ∧ t.fc = s.fc ∧ (∀ a, rd t a = rd s a)) ∧
  (∀ (port : Fin 33) (icvOk : Bool) (s : State), s.power = .on → portKeyed s port.val = true → icvOk = true → (secOf s port.val).sa = none → s.sec.keysStopped = false → ∃ t, exec (.mkaFrameReceive port icvOk) s = .next t ∧
      (secOf t port.val).sa = some { an := (secOf s port.val).saks % 4 } ∧ (secOf t port.val).saks = (secOf s port.val).saks + 1 ∧ t.portOut = s.portOut ++ [.sak port.val ((secOf s port.val).saks % 4)] ∧ ((port.val < 32 → rdB t (A.PORT_STATUS port.val) 1 = true))) ∧
  (∀ (port : Fin 33) (icvOk : Bool) (s : State), s.power = .on → (portKeyed s port.val = false ∨ icvOk = false ∨ (secOf s port.val).sa.isSome = true ∨ s.sec.keysStopped = true) → ∃ t, exec (.mkaFrameReceive port icvOk) s = .next t ∧
      t.portSec = s.portSec ∧ t.portOut = s.portOut ∧ (∀ a, rd t a = rd s a)) ∧
  (∀ (port : Fin 33) (a : MacSa) (s : State), s.power = .on → (secOf s port.val).sa = some a → portKeyed s port.val = true → (if portXpn s port.val then 4611686018427387904 else 0xC0000000) ≤ max a.nextPn (secOf s port.val).txPn → s.sec.keysStopped = false → ∃ t, exec (.macsecRekey port) s = .next t ∧
      (secOf t port.val).sa = some { an := (secOf s port.val).saks % 4 } ∧ (secOf t port.val).old = some (a, s.ridge + 3000000000) ∧ t.portOut = s.portOut ++ [.sak port.val ((secOf s port.val).saks % 4)]) ∧
  (∀ (port : Fin 33) (o : MacSa) (w : Nat) (s : State), s.power = .on → (secOf s port.val).old = some (o, w) → w ≤ s.ridge → ∃ t, exec (.oldSaExpire port) s = .next t ∧
      (secOf t port.val).old = none ∧ (secOf t port.val).sa = (secOf s port.val).sa ∧ (∀ a, rd t a = rd s a))

/-- O39. Lines through an image pipe. The oldest line of a pipe leaves its queue. The first line of a frame gives its
slot the live configuration for the whole frame; later image lines are kept in order under it, and the last one
closes the frame, counts it and, where statistics are taken, queues its statistics pods. A test line under sound
hardware changes no register; a signature that differs counts and flags its side. A line that no slot takes is
counted and flagged. An embedded line, and a line of no running frame at a pipe that is off, is discarded without
more. A line whose output lies in a region still being zero-filled waits. -/
def Obligations.ImagePipe : Prop :=
  (∀ (q : Fin 16) (e1 e2 : Word) (l : Line) (rest : List Line) (n : Nat) (s : State), s.power = .on → pipeQueue s q.val = l :: rest → lineWaits s q.val l = false → l.emb = none → unitOn s (0x080 + 2 * q.val) = true → slotTaking s q.val l = some n → l.test = false → l.index = 0 → 1 < l.lines → ∃ t, exec (.pipeLine q e1 e2) s = .next t ∧
      pipeQueue t q.val = rest ∧ (slotOf t q.val n).cfg = slotLive s q.val n ∧ (slotOf t q.val n).frame = l.frame ∧ (slotOf t q.val n).busy = true ∧ (slotOf t q.val n).rows = [l] ∧ (slotOf t q.val n).stats = unitOn s 0x0A8 ∧ rdB t (A.SL_STATUS q.val n) 0 = true) ∧
  (∀ (q : Fin 16) (e1 e2 : Word) (l : Line) (rest : List Line) (n : Nat) (s : State), s.power = .on → pipeQueue s q.val = l :: rest → lineWaits s q.val l = false → l.emb = none → slotTaking s q.val l = some n → l.test = false → 0 < l.index → l.index + 1 < l.lines → ∃ t, exec (.pipeLine q e1 e2) s = .next t ∧
      pipeQueue t q.val = rest ∧ slotOf t q.val n = { slotOf s q.val n with rows := (slotOf s q.val n).rows ++ [l] } ∧ (((∀ r, r < slRows (slotOf s q.val n).cfg → rowNeeds (slotOf s q.val n).cfg l.lines r ≠ l.index) → t.mem = s.mem ∧ t.pegs = s.pegs ∧ ∀ a, rd t a = rd s a))) ∧
  (∀ (q : Fin 16) (e1 e2 : Word) (l : Line) (rest : List Line) (n : Nat) (s : State), s.power = .on → pipeQueue s q.val = l :: rest → lineWaits s q.val l = false → l.emb = none → slotTaking s q.val l = some n → l.test = false → 0 < l.index → l.index + 1 = l.lines → ∃ t, exec (.pipeLine q e1 e2) s = .next t ∧
      pipeQueue t q.val = rest ∧ (slotOf t q.val n).busy = false ∧ (slotOf t q.val n).rows = [] ∧ t.statQ = s.statQ ++ (if (slotOf s q.val n).stats then (statPods (slotOf s q.val n).cfg ((slotOf s q.val n).rows ++ [l]) l).map (fun p => (4 * q.val + n, p)) else []) ∧ rd t (A.SL_FRAMES q.val n) = (rd s (A.SL_FRAMES q.val n) + 1) % 4294967296) ∧
  (∀ (q : Fin 16) (e1 e2 : Word) (l : Line) (rest : List Line) (n : Nat) (s : State), s.power = .on → pipeQueue s q.val = l :: rest → lineWaits s q.val l = false → l.emb = none → slotTaking s q.val l = some n → l.test = true → ∃ t, exec (.pipeLine q e1 e2) s = .next t ∧
      pipeQueue t q.val = rest ∧ t.slots = s.slots ∧ ((e1 = 0 → e2 = 0 → t.fc = s.fc ∧ ∀ a, rd t a = rd s a)) ∧ rd t (A.PIPE_TL_FAIL_COUNT q.val) = (if e1 = 0 ∧ e2 = 0 then rd s (A.PIPE_TL_FAIL_COUNT q.val) else min (rd s (A.PIPE_TL_FAIL_COUNT q.val) + (if e1 = 0 then 0 else 1) + (if e2 = 0 then 0 else 1)) 0xFFFFFFFF) ∧ ((e1 ≠ 0 → bitN (evtFlags t (0x080 + 2 * q.val)) 1 = true)) ∧ ((e2 ≠ 0 → bitN (evtFlags t (0x080 + 2 * q.val)) 2 = true)) ∧ recOf t (0x080 + 2 * q.val) (1 + n) = [testSignature (slotOf s q.val n).cfg l ^^^ e1.toNat, testSignature (slotOf s q.val n).cfg l ^^^ e2.toNat, testSignature (slotOf s q.val n).cfg l, l.frame]) ∧
  (∀ (q : Fin 16) (e1 e2 : Word) (l : Line) (rest : List Line) (s : State), s.power = .on → pipeQueue s q.val = l :: rest → lineWaits s q.val l = false → l.emb = none → unitOn s (0x080 + 2 * q.val) = true → slotTaking s q.val l = none → ∃ t, exec (.pipeLine q e1 e2) s = .next t ∧
      pipeQueue t q.val = rest ∧ t.slots = s.slots ∧ rd t (A.PIPE_NOSLOT_COUNT q.val) = min (rd s (A.PIPE_NOSLOT_COUNT q.val) + 1) 0xFFFFFFFF ∧ bitN (evtFlags t (0x080 + 2 * q.val)) 5 = true ∧ (∀ a, ¬eventAddr (0x080 + 2 * q.val) a → a ≠ A.PIPE_NOSLOT_COUNT q.val → rd t a = rd s a)) ∧
  (∀ (q : Fin 16) (e1 e2 : Word) (l : Line) (rest : List Line) (s : State), s.power = .on → pipeQueue s q.val = l :: rest → lineWaits s q.val l = false → (l.emb.isSome = true ∨ (unitOn s (0x080 + 2 * q.val) = false ∧ ((l.index = 0 ∧ l.test = false) ∨ slotTaking s q.val l = none))) → ∃ t, exec (.pipeLine q e1 e2) s = .next t ∧
      pipeQueue t q.val = rest ∧ t.slots = s.slots ∧ t.statQ = s.statQ ∧ t.mem = s.mem ∧ (∀ a, rd t a = rd s a)) ∧
  (∀ (q : Fin 16) (e1 e2 : Word) (l : Line) (rest : List Line) (s : State), s.power = .on → pipeQueue s q.val = l :: rest → lineWaits s q.val l = true → ∃ t, exec (.pipeLine q e1 e2) s = .next t ∧
      t.pipeQ = s.pipeQ ∧ t.slots = s.slots ∧ (∀ a, rd t a = rd s a))

/-- O40. Statistics pods and point preparation. The waiting statistics pods of a slot are sent in order to the
statistics ring, one count each. A formation starts when point preparation is on and the end of the next window plus
the guard is reached, by the sorted path in strict operation, and is then the last one formed; before, nothing
starts. A formation whose output is not being zero-filled completes: it leaves no window in progress, no late points
and no overflow, keeps the points of the next windows, shows how many points it selected, and raises FORMED; an
overflow is reported. -/
def Obligations.ConditioningOutputs : Prop :=
  (∀ (q : Fin 16) (slot : Fin 4) (s : State), s.power = .on → ∃ t, exec (.statisticsPod q slot) s = .next t ∧
      t.statQ = s.statQ.filter (fun p => p.1 != 4 * q.val + slot.val) ∧ rd t (A.STE_COUNT (4 * q.val + slot.val)) = (rd s (A.STE_COUNT (4 * q.val + slot.val)) + s.statQ.countP (fun p => p.1 == 4 * q.val + slot.val)) % 4294967296 ∧ (((∀ p ∈ s.statQ, p.1 = 4 * q.val + slot.val → unwritable s (statRing s) p.2 = false) → (ringOf t (statRing s)).queue.map (·.pod) = (ringOf s (statRing s)).queue.map (·.pod) ++ (s.statQ.filter (fun p => p.1 == 4 * q.val + slot.val)).map (·.2))) ∧ (∀ a, ¬eventAddr 0x0E0 a → a ≠ A.STE_COUNT (4 * q.val + slot.val) → rd t a = rd s a)) ∧
  (∀ (l k : Nat) (s : State), s.power = .on → ppNext s = some (l, k) → s.pp.forming = none → rdB s A.PP_CTL 0 = true → unitOn s 0x0A0 = true → (ppWindow s l).2 + 1000 * (rdF s A.PP_GUARD 15 0 : Int) ≤ s.ridge → ∃ t, exec .ppFormationStart s = .next t ∧
      t.pp = { s.pp with forming := some (l, k, strict s || rdB s A.PP_CTL 2), startedAt := s.ridge, last := some l } ∧ rd t A.PP_STATUS = 1 + 2 * b2n (strict s || rdB s A.PP_CTL 2) ∧ (∀ a, a ≠ A.PP_STATUS → rd t a = rd s a)) ∧
  (∀ (l k : Nat) (s : State), s.power = .on → ppNext s = some (l, k) → (s.pp.forming.isSome = true ∨ (rdB s A.PP_CTL 0 && unitOn s 0x0A0) = false ∨ (s.ridge : Int) < (ppWindow s l).2 + 1000 * (rdF s A.PP_GUARD 15 0 : Int)) → ∃ t, exec .ppFormationStart s = .next t ∧
      t.pp = s.pp ∧ (∀ a, rd t a = rd s a)) ∧
  (∀ (f : Nat × Nat × Bool) (s : State), s.power = .on → s.pp.forming = some f → encWaits s (rdWide s A.PP_OUT_BASE_LO) (ppOutBytes s) = false → ∃ t, exec .ppFormationDone s = .next t ∧
      t.pp.forming = none ∧ t.pp.late = 0 ∧ t.pp.overflow = false ∧ t.pp.last = s.pp.last ∧ t.pp.points = s.pp.points.filter (fun p => decide ((ppWindow s (f.1 + fgPeriod s (rdF s A.PP_CTL 5 3))).1 ≤ p.stamp)) ∧ rd t A.PP_LAST_POINTS = (s.pp.points.filter (fun p => decide ((ppWindow s f.1).1 ≤ p.stamp ∧ (p.stamp : Int) < (ppWindow s f.1).2) && bitN (rd s A.PP_SOURCES) p.port)).length % 4294967296 ∧ rdB t A.PP_STATUS 0 = false ∧ bitN (evtFlags t 0x0A0) 0 = true ∧ ((s.pp.overflow = true → { source := 0x0C0, status := St.POINTS_OVERFLOW, cls := rdF s A.PP_CTL 7 6, detected := s.ridge } ∈ t.fc.inbox)))

/-- O41. Decode queues. While the decode section is on, a batch that is next for its queue has its peas appended in
order; a queue reset that is next and finds the queue empty makes the decoding context invalid, drops its pictures
and completes; one that is not next waits. At a sample boundary a queue takes a configuration that meets its
constraints, keeping its context where nothing that it depends on changes, and keeps the old one whole, flagged,
where the new one does not; while a sample runs it keeps what it has. -/
def Obligations.DecodeQueues : Prop :=
  (∀ (no : Nat) (p : RxPod) (s : State), s.power = .on → unitOn s 0x0C0 = true → podAt s no = some p → p.stage = .running → p.taken = false → p.hdr.kind = 3 → p.hdr.operation = 1 → (p.hdr.target % 256) < 64 → batchNext s p = true → ∃ t, exec (.batchSubmit no) s = .next t ∧
      (dqOf t (p.hdr.target % 256)).items = (dqOf s (p.hdr.target % 256)).items ++ batchSamples (dqCfg s (p.hdr.target % 256)) p ∧ (dqOf t (p.hdr.target % 256)).began = (dqOf s (p.hdr.target % 256)).began ∧ podAt t no = some { p with taken := true } ∧ rdF t (A.DQ_DEPTH ((p.hdr.target % 256) / 16) ((p.hdr.target % 256) % 16)) 8 0 = dqQueued t (p.hdr.target % 256) % 512 ∧ ((∀ j, j ≠ (p.hdr.target % 256) → dqOf t j = dqOf s j))) ∧
  (∀ (no : Nat) (p : RxPod) (s : State), s.power = .on → podAt s no = some p → batchNext s p = false → ∃ t, exec (.batchSubmit no) s = .next t ∧
      t.pods = s.pods ∧ t.decq = s.decq ∧ (∀ a, rd t a = rd s a)) ∧
  (∀ (no : Nat) (p : RxPod) (s : State), s.power = .on → unitOn s 0x0C0 = true → podAt s no = some p → p.stage = .running → p.taken = false → p.hdr.kind = 3 → p.hdr.operation = 2 → (p.hdr.target % 256) < 64 → batchNext s p = true → (dqOf s (p.hdr.target % 256)).items = [] → ∃ t, exec (.queueReset no) s = .next t ∧
      (dqOf t (p.hdr.target % 256)).valid = false ∧ (dqOf t (p.hdr.target % 256)).refs = [] ∧ (dqOf t (p.hdr.target % 256)).items = [] ∧ rdB t (A.DQ_STATUS ((p.hdr.target % 256) / 16) ((p.hdr.target % 256) % 16)) 0 = false ∧ PodDone t no 0) ∧
  (∀ (no : Nat) (p : RxPod) (s : State), s.power = .on → podAt s no = some p → (batchNext s p = false ∨ (dqOf s (p.hdr.target % 256)).items ≠ []) → ∃ t, exec (.queueReset no) s = .next t ∧
      t.pods = s.pods ∧ t.decq = s.decq ∧ (∀ a, rd t a = rd s a)) ∧
  (∀ (q : Fin 64) (s : State), s.power = .on → (dqOf s q.val).began = none → (dqAddrs q.val).map (rd s) ≠ dqCfg s q.val → dqConfigOk s ((dqAddrs q.val).map (rd s)) = true → ∃ t, exec (.decodeConfigApply q) s = .next t ∧
      (dqOf t q.val).cfg = some ((dqAddrs q.val).map (rd s)) ∧ (dqOf t q.val).items = (dqOf s q.val).items ∧ rdB t (A.DQ_STATUS (q.val / 16) (q.val % 16)) 2 = false ∧ (dqOf t q.val).valid = ((dqOf s q.val).valid && (dqContextKey (dqCfg s q.val) == dqContextKey ((dqAddrs q.val).map (rd s)) && (dqOn (dqCfg s q.val) || !dqOn ((dqAddrs q.val).map (rd s))))) ∧ rd t (A.DQ_SLOT_DATA (q.val / 16) (q.val % 16)) = dqSlotData ((dqAddrs q.val).map (rd s)) % 4294967296) ∧
  (∀ (q : Fin 64) (s : State), s.power = .on → (dqOf s q.val).began = none → (dqAddrs q.val).map (rd s) ≠ dqCfg s q.val → dqConfigOk s ((dqAddrs q.val).map (rd s)) = false → (dqCfg s q.val).length = 12 → (∀ w ∈ dqCfg s q.val, w < 4294967296) → ∃ t, exec (.decodeConfigApply q) s = .next t ∧
      (dqAddrs q.val).map (rd t) = dqCfg s q.val ∧ t.decq = s.decq ∧ rdB t (A.DQ_STATUS (q.val / 16) (q.val % 16)) 2 = true ∧ bitN (evtFlags t 0x0C0) 2 = true) ∧
  (∀ (q : Fin 64) (s : State), s.power = .on → ((dqOf s q.val).began ≠ none ∨ (dqAddrs q.val).map (rd s) = dqCfg s q.val) → ∃ t, exec (.decodeConfigApply q) s = .next t ∧
      t.decq = s.decq ∧ (∀ a, rd t a = rd s a))

/-- O42. Samples of a decode queue. A core begins the head sample of a queue that is on, after the queue has taken its
configuration (the state u), when one is free: the sample is decoded while it stays at the head, its parameter sets
persist, and the pictures that it will leave are known. A skipped pea, an expired one, a camera frame with lost
input, a sample whose bytes cannot be read and a compressed one that fails a check are void at once, with that
status. A sample that is done in time leaves its queue; with a picture its context is valid and holds the pictures
after it, with an error it is void; a raw pea makes the context invalid; at its deadline a sample leaves void, and
before it stays. The last pea of a batch completes its pod, as partial where a pea of it was void. -/
def Obligations.DecodeSamples : Prop :=
  (∀ (q : Fin 64) (hdr : SampleHeaders) (u : State) (x : Sample) (rest : List Sample) (s : State), s.power = .on → u = dqApply s q.val → (dqOf u q.val).items = x :: rest → (dqOf u q.val).began = none → dqOn (dqCfg u q.val) = true → unitOn s 0x0C0 = true → coresBusy s + s.bist.slices.countP (fun y => decide (0x2C ≤ y.1)) < 4 → dqWaits s q.val = false → dqExpired u q.val x = false → x.form ≠ 3 → (x.camera = true → x.lost = false) → (x.camera = false → (memRead (setDq u q.val { dqOf u q.val with began := some s.ridge }) .decode x.addr x.len x.cls (echo := x.seq)).1 = 0) → (x.form = 1 → sampleStatus (dqCfg u q.val) (dqOf u q.val) hdr = 0) → ∃ t, exec (.decodeSampleStart q hdr) s = .next t ∧
      (dqOf t q.val).items = x :: rest ∧ (dqOf t q.val).began = some s.ridge ∧ (dqOf t q.val).rap = (x.form == 1 && hdr.key) ∧ (dqOf t q.val).after = refsAfter (dqOf u q.val) hdr ∧ (dqOf t q.val).sets = (if x.form = 1 then setsAfter (dqOf u q.val).sets hdr else (dqOf u q.val).sets) ∧ rd t A.DEC_STATUS = coresBusy t ∧ (∀ a, a ≠ A.DEC_STATUS → ¬eventAddr 0x0C0 a → rd t a = rd u a)) ∧
  (∀ (q : Fin 64) (hdr : SampleHeaders) (u : State) (x : Sample) (rest : List Sample) (s : State), s.power = .on → u = dqApply s q.val → (dqOf u q.val).items = x :: rest → (dqOf u q.val).began = none → dqOn (dqCfg u q.val) = true → unitOn s 0x0C0 = true → coresBusy s + s.bist.slices.countP (fun y => decide (0x2C ≤ y.1)) < 4 → dqWaits s q.val = false → (x.form = 3 ∨ dqExpired u q.val x = true ∨ (x.camera = true ∧ x.lost = true)) → ∃ t, exec (.decodeSampleStart q hdr) s = .next t ∧
      (dqOf t q.val).items = rest ∧ (dqOf t q.val).began = none ∧ ((x.last = true → x.camera = false → PodDone t x.pod (if (dqOf u q.val).partly || true then St.BATCH_PARTIAL else 0))) ∧ rd t A.DEC_VOID_COUNT = min (rd s A.DEC_VOID_COUNT + 1) 0xFFFFFFFF ∧ rdF t (A.DQ_STATUS (q.val / 16) (q.val % 16)) 31 16 = (if dqExpired u q.val x then St.DECODE_DEADLINE else if x.form = 3 then St.PEA_SKIPPED else St.DECODE_INPUT_LOST) ∧ ((x.form = 1 → (dqOf t q.val).valid = false ∧ (dqOf t q.val).refs = [])) ∧ bitN (evtFlags t 0x0C0) 0 = true) ∧
  (∀ (q : Fin 64) (hdr : SampleHeaders) (u : State) (x : Sample) (rest : List Sample) (s : State), s.power = .on → u = dqApply s q.val → (dqOf u q.val).items = x :: rest → (dqOf u q.val).began = none → dqOn (dqCfg u q.val) = true → unitOn s 0x0C0 = true → coresBusy s + s.bist.slices.countP (fun y => decide (0x2C ≤ y.1)) < 4 → dqWaits s q.val = false → x.form ≠ 3 → dqExpired u q.val x = false → x.camera = false → (memRead (setDq u q.val { dqOf u q.val with began := some s.ridge }) .decode x.addr x.len x.cls (echo := x.seq)).1 ≠ 0 → ∃ t, exec (.decodeSampleStart q hdr) s = .next t ∧
      (dqOf t q.val).items = rest ∧ (dqOf t q.val).began = none ∧ ((x.last = true → x.camera = false → PodDone t x.pod (if (dqOf u q.val).partly || true then St.BATCH_PARTIAL else 0))) ∧ rd t A.DEC_VOID_COUNT = min (rd s A.DEC_VOID_COUNT + 1) 0xFFFFFFFF ∧ rdF t (A.DQ_STATUS (q.val / 16) (q.val % 16)) 31 16 = (memRead (setDq u q.val { dqOf u q.val with began := some s.ridge }) .decode x.addr x.len x.cls (echo := x.seq)).1 % 65536 ∧ ((x.form = 1 → (dqOf t q.val).valid = false ∧ (dqOf t q.val).refs = [])) ∧ bitN (evtFlags t 0x0C0) 0 = true) ∧
  (∀ (q : Fin 64) (hdr : SampleHeaders) (u : State) (x : Sample) (rest : List Sample) (s : State), s.power = .on → u = dqApply s q.val → (dqOf u q.val).items = x :: rest → (dqOf u q.val).began = none → dqOn (dqCfg u q.val) = true → unitOn s 0x0C0 = true → coresBusy s + s.bist.slices.countP (fun y => decide (0x2C ≤ y.1)) < 4 → dqWaits s q.val = false → x.form = 1 → dqExpired u q.val x = false → (x.camera = true → x.lost = false) → (x.camera = false → (memRead (setDq u q.val { dqOf u q.val with began := some s.ridge }) .decode x.addr x.len x.cls (echo := x.seq)).1 = 0) → sampleStatus (dqCfg u q.val) (dqOf u q.val) hdr ≠ 0 → ∃ t, exec (.decodeSampleStart q hdr) s = .next t ∧
      (dqOf t q.val).items = rest ∧ (dqOf t q.val).began = none ∧ ((x.last = true → x.camera = false → PodDone t x.pod (if (dqOf u q.val).partly || true then St.BATCH_PARTIAL else 0))) ∧ rd t A.DEC_VOID_COUNT = min (rd s A.DEC_VOID_COUNT + 1) 0xFFFFFFFF ∧ rdF t (A.DQ_STATUS (q.val / 16) (q.val % 16)) 31 16 = sampleStatus (dqCfg u q.val) (dqOf u q.val) hdr % 65536 ∧ ((x.form = 1 → (dqOf t q.val).valid = false ∧ (dqOf t q.val).refs = [])) ∧ bitN (evtFlags t 0x0C0) 0 = true) ∧
  (∀ (q : Fin 64) (pic : Option Picture) (p : Picture) (x : Sample) (rest : List Sample) (b : Nat) (s : State), s.power = .on → (dqOf s q.val).items = x :: rest → (dqOf s q.val).began = some b → dqWaits s q.val = false → x.form = 1 → pic = some p → ((replaying s = true → dqExpired s q.val x = false)) → ((replaying s = false → ∀ d, dqDeadline (dqCfg s q.val) (dqOf s q.val) x = some d → s.ridge ≤ d)) → ∃ t, exec (.decodeSampleDone q pic) s = .next t ∧
      (dqOf t q.val).items = rest ∧ (dqOf t q.val).began = none ∧ ((x.last = true → x.camera = false → PodDone t x.pod (if (dqOf s q.val).partly || false then St.BATCH_PARTIAL else 0))) ∧ (dqOf t q.val).valid = true ∧ (dqOf t q.val).lastLuma = some (dqOf s q.val).luma ∧ (dqOf t q.val).refs = (dqOf s q.val).after ∧ rdF t (A.DQ_STATUS (q.val / 16) (q.val % 16)) 31 16 = 0 ∧ rd t A.DEC_VOID_COUNT = rd s A.DEC_VOID_COUNT) ∧
  (∀ (q : Fin 64) (pic : Option Picture) (x : Sample) (rest : List Sample) (b : Nat) (s : State), s.power = .on → (dqOf s q.val).items = x :: rest → (dqOf s q.val).began = some b → dqWaits s q.val = false → x.form = 1 → pic = none → ((replaying s = true → dqExpired s q.val x = false)) → ((replaying s = false → ∀ d, dqDeadline (dqCfg s q.val) (dqOf s q.val) x = some d → s.ridge ≤ d)) → ∃ t, exec (.decodeSampleDone q pic) s = .next t ∧
      (dqOf t q.val).items = rest ∧ (dqOf t q.val).began = none ∧ ((x.last = true → x.camera = false → PodDone t x.pod (if (dqOf s q.val).partly || true then St.BATCH_PARTIAL else 0))) ∧ rd t A.DEC_VOID_COUNT = min (rd s A.DEC_VOID_COUNT + 1) 0xFFFFFFFF ∧ rdF t (A.DQ_STATUS (q.val / 16) (q.val % 16)) 31 16 = St.DECODE_STREAM_ERROR ∧ ((x.form = 1 → (dqOf t q.val).valid = false ∧ (dqOf t q.val).refs = [])) ∧ bitN (evtFlags t 0x0C0) 0 = true) ∧
  (∀ (q : Fin 64) (pic : Option Picture) (x : Sample) (rest : List Sample) (b : Nat) (s : State), s.power = .on → (dqOf s q.val).items = x :: rest → (dqOf s q.val).began = some b → dqWaits s q.val = false → x.form = 2 → ((replaying s = true → dqExpired s q.val x = false)) → ((replaying s = false → ∀ d, dqDeadline (dqCfg s q.val) (dqOf s q.val) x = some d → s.ridge ≤ d)) → ∃ t, exec (.decodeSampleDone q pic) s = .next t ∧
      (dqOf t q.val).items = rest ∧ (dqOf t q.val).began = none ∧ ((x.last = true → x.camera = false → PodDone t x.pod (if (dqOf s q.val).partly || (memRead s .decode x.addr x.len x.cls (echo := x.seq)).1 != 0 then St.BATCH_PARTIAL else 0))) ∧ (dqOf t q.val).valid = false ∧ (dqOf t q.val).refs = [] ∧ rdF t (A.DQ_STATUS (q.val / 16) (q.val % 16)) 31 16 = (memRead s .decode x.addr x.len x.cls (echo := x.seq)).1 % 65536) ∧
  (∀ (q : Fin 64) (x : Sample) (rest : List Sample) (s : State), s.power = .on → (dqOf s q.val).items = x :: rest → dqExpired s q.val x = true → dqWaits s q.val = false → ∃ t, exec (.decodeDeadline q) s = .next t ∧
      (dqOf t q.val).items = rest ∧ (dqOf t q.val).began = none ∧ ((x.last = true → x.camera = false → PodDone t x.pod (if (dqOf s q.val).partly || true then St.BATCH_PARTIAL else 0))) ∧ rd t A.DEC_VOID_COUNT = min (rd s A.DEC_VOID_COUNT + 1) 0xFFFFFFFF ∧ rdF t (A.DQ_STATUS (q.val / 16) (q.val % 16)) 31 16 = St.DECODE_DEADLINE ∧ ((x.form = 1 → (dqOf t q.val).valid = false ∧ (dqOf t q.val).refs = [])) ∧ bitN (evtFlags t 0x0C0) 0 = true ∧ rd t A.DEC_DEADLINE_COUNT = min (rd s A.DEC_DEADLINE_COUNT + 1) 0xFFFFFFFF) ∧
  (∀ (q : Fin 64) (s : State), s.power = .on → (∀ x rest, (dqOf s q.val).items = x :: rest → dqExpired s q.val x = false) → ∃ t, exec (.decodeDeadline q) s = .next t ∧
      t.decq = s.decq ∧ (∀ a, rd t a = rd s a))

/-- O43. Issue to the arrays. A descriptor that passes every check is issued, and counts as issued in its job. Where its
arrays are free and its inputs carry the frame of the job, an operation without roll operands and without a
parameter block runs: it has the descriptor, cluster, arrays, frame and class of the job, the output tag formed from
its inputs' tags and the sign set of the moment, and its arrays climb towards full activity. Where the arrays are
not free, the operation is queued for them. While another issue is already queued for one of its arrays, or a unit
it needs is out of service, nothing is issued. (Every issue of one descriptor, with none queued for the cluster
before.) -/
def Obligations.ArrayIssue : Prop :=
  (∀ (ex : BitVec 32) (x : Instance) (j : JobRun) (k : Nat) (desc blk : List Byte) (m : List (Nat × Nat)) (v : State) (tags : List Tag) (w : State) (s : State), s.power = .on → findExec s ex.toNat = some (x, j) → issueTaken s x j k desc blk m v → noneQueued s j.cluster → (∀ o ∈ s.ops, o.id ≠ s.nextId + 1) → x.life ≠ .cut → issueWaits v j.cluster (m.map (·.2)) [parseArr desc] = false → issueFree (issueEntered v x j k desc blk m) [issuedOp s x j k desc blk m] = true → opBlocked s (issuedOp s x j k desc blk m) = false → issueInputs (issueEntered v x j k desc blk m) [issuedOp s x j k desc blk m] = (0, [tags], w) → rollOperands desc (arrOperands (parseArr desc)) = [] → (parseArr desc).aGen = false → ∃ t, exec (.arrayIssue ex 1) s = .next t ∧
      (opOf t (s.nextId + 1)).map (fun o => { o with tiles := [], scales := [] }) = some { issuedOp s x j k desc blk m with stage := .running, outTag := tagBits (outputTag x.frame x.tagCls (parseArr desc).outStream tags), startedAt := s.ridge, sign := signWords s j.cluster (parseArr desc).signSet } ∧ (findExec t ex.toNat).map (fun y => y.2.issued) = some (j.issued ++ [k]) ∧ (∀ a ∈ opArrays (issuedOp s x j k desc blk m), (arrUnit t j.cluster a).target = 16) ∧ rd t (A.ROT_STATUS j.cluster) % 2 = 1) ∧
  (∀ (ex : BitVec 32) (x : Instance) (j : JobRun) (k : Nat) (desc blk : List Byte) (m : List (Nat × Nat)) (v : State) (s : State), s.power = .on → findExec s ex.toNat = some (x, j) → issueTaken s x j k desc blk m v → noneQueued s j.cluster → x.life ≠ .cut → issueWaits v j.cluster (m.map (·.2)) [parseArr desc] = false → issueFree (issueEntered v x j k desc blk m) [issuedOp s x j k desc blk m] = false → ∃ t, exec (.arrayIssue ex 1) s = .next t ∧
      t.ops = s.ops ++ [issuedOp s x j k desc blk m] ∧ (findExec t ex.toNat).map (fun y => y.2.issued) = some (j.issued ++ [k])) ∧
  (∀ (ex : BitVec 32) (x : Instance) (j : JobRun) (k : Nat) (desc blk : List Byte) (m : List (Nat × Nat)) (v : State) (s : State), s.power = .on → findExec s ex.toNat = some (x, j) → issueTaken s x j k desc blk m v → issueWaits v j.cluster (m.map (·.2)) [parseArr desc] = true → ∃ t, exec (.arrayIssue ex 1) s = .next t ∧
      t.ops = s.ops ∧ t.insts = s.insts ∧ (∀ a, rd t a = rd s a))

/-- O44. Work of an array operation. Of a running operation: a weight tile that its buffer does not hold loads and
enters the buffer, and that of each operation of the same multicast read; an error that the buffer corrects is
counted, and one that it cannot correct is counted and fails the operation, as does a difference of the two
decodings. An output tile whose weight tiles are loaded and that is formed without a fault is written at its place,
one more counts as written, and with ABFT its chunks wait for their verdicts. A verdict that passes is counted with
its latency; one that fails is counted, flagged and fails the operation; more than 5 µs after its tile a missing
verdict fails it as ABFT_LATE. A failed operation is executed again from its first tile while retries are left. An
operation whose tiles are all written and have passed leaves the arrays, with its tag block written, its descriptor
counted as finished, and its weight tiles resident. -/
def Obligations.ArrayWork : Prop :=
  (∀ (op kt nt clamps : Nat) (fault : Option LoadFault) (o : Op) (tl : WTile) (u : State) (s : State), s.power = .on → arrayRuns s op o → (fault = none ∨ fault = some .eccCorrected) → kt < (parseArr o.desc).kTiles → nt < (parseArr o.desc).nTiles → o.tiles.any (fun y => y.kt == kt && y.nt == nt) = false → s.ops.Pairwise (fun p q => p.id ≠ q.id) → loadTile (if fault = some .eccCorrected then bumpSat s (A.ARR_WECC_CORR o.cluster o.unit) 1 else s) o (parseArr o.desc) kt nt = (0, tl, clamps, u) → ∃ t, exec (.weightTileLoad op kt nt { fault := fault }) s = .next t ∧
      (opOf t op).map (·.tiles) = some (o.tiles ++ [tl]) ∧ (opOf t op).map (·.stage) = some .running ∧ (∀ p ∈ multicastPeers s o, (opOf t p.id).map (fun q => q.tiles.contains tl) = some true) ∧ t.mem = u.mem ∧ rd t (A.ARR_WECC_CORR o.cluster o.unit) = (if fault = some .eccCorrected then min (rd s (A.ARR_WECC_CORR o.cluster o.unit) + 1) 0xFFFFFFFF else rd s (A.ARR_WECC_CORR o.cluster o.unit))) ∧
  (∀ (op kt nt : Nat) (o : Op) (s : State), s.power = .on → arrayRuns s op o → kt < (parseArr o.desc).kTiles → nt < (parseArr o.desc).nTiles → o.tiles.any (fun y => y.kt == kt && y.nt == nt) = false → retriesOn s o → noneQueued s o.cluster → ∃ t, exec (.weightTileLoad op kt nt { fault := some .eccUncorrectable }) s = .next t ∧
      opOf t op = some { o with stage := .failed St.WEIGHT_ECC_UNCORRECTABLE, tiles := [], scales := [], written := 0, checks := [] } ∧ rd t (A.ARR_WECC_UNCORR o.cluster o.unit) = min (rd s (A.ARR_WECC_UNCORR o.cluster o.unit) + 1) 0xFFFFFFFF ∧ bitN (evtFlags t (0x104 + 0x40 * o.cluster + o.unit)) 0 = true) ∧
  (∀ (op kt nt : Nat) (o : Op) (s : State), s.power = .on → arrayRuns s op o → kt < (parseArr o.desc).kTiles → nt < (parseArr o.desc).nTiles → o.tiles.any (fun y => y.kt == kt && y.nt == nt) = false → retriesOn s o → noneQueued s o.cluster → ∃ t, exec (.weightTileLoad op kt nt { fault := some .decodeMismatch }) s = .next t ∧
      opOf t op = some { o with stage := .failed St.LOADER_MISMATCH, tiles := [], scales := [], written := 0, checks := [] } ∧ bitN (evtFlags t (0x104 + 0x40 * o.cluster + o.unit)) 1 = true) ∧
  (∀ (op : Nat) (o : Op) (tiles : List WTile) (bb : List Byte) (f : Formed) (u v w : State) (s : State), s.power = .on → arrayRuns s op o → o.written < (parseArr o.desc).outTiles → tilesFor o (parseArr o.desc) (o.written % (parseArr o.desc).nTiles) = some tiles → injectFor s o = none → (if (parseArr o.desc).bias then opRead s o 56 (4 * (tileSpan (parseArr o.desc) o.written).2.2.1) (4 * (tileSpan (parseArr o.desc) o.written).2.2.2) else (0, [], s)) = (0, bb, u) → formTile u o (parseArr o.desc) tiles (elems 4 bb) (tileSpan (parseArr o.desc) o.written) [] none = (0, f, v) → opWrites (if o.partner.isSome then bump v (A.PAIR_TILES o.cluster) 1 else v) o 64 (tileWrites (parseArr o.desc) o.written f.out) = (0, w) → ∃ t, exec (.arrayTileDone op {}) s = .next t ∧
      (opOf t op).map (·.written) = some (o.written + 1) ∧ (opOf t op).map (·.checks) = some (o.checks ++ tileChecks s o.written f.checks) ∧ (opOf t op).map (·.stage) = some .running ∧ t.mem = w.mem) ∧
  (∀ (op : Nat) (o : Op) (s : State), s.power = .on → arrayRuns s op o → ((parseArr o.desc).outTiles ≤ o.written ∨ tilesFor o (parseArr o.desc) (o.written % (parseArr o.desc).nTiles) = none) → ∃ t, exec (.arrayTileDone op {}) s = .next t ∧
      t.ops = s.ops ∧ t.mem = s.mem ∧ (∀ a, rd t a = rd s a)) ∧
  (∀ (op : Nat) (o : Op) (k : TileCheck) (rest : List TileCheck) (s : State), s.power = .on → arrayRuns s op o → o.checks = k :: rest → k.row = none → k.col = none → s.ridge ≤ k.at_ + 5000 → ∃ t, exec (.abftVerdict op) s = .next t ∧
      opOf t op = some { o with checks := rest } ∧ rd t (A.ABFT_TILES o.cluster) = (rd s (A.ABFT_TILES o.cluster) + 1) % 4294967296 ∧ rd t (A.ABFT_LAT_MAX o.cluster) = max (rd s (A.ABFT_LAT_MAX o.cluster)) (s.ridge - k.at_) ∧ (∀ a, a ≠ A.ABFT_TILES o.cluster → a ≠ A.ABFT_LAT_MAX o.cluster → rd t a = rd s a)) ∧
  (∀ (op : Nat) (o : Op) (k : TileCheck) (rest : List TileCheck) (s : State), s.power = .on → arrayRuns s op o → o.checks = k :: rest → (k.row.isSome = true ∨ k.col.isSome = true) → s.ridge ≤ k.at_ + 5000 → retriesOn s o → noneQueued s o.cluster → ∃ t, exec (.abftVerdict op) s = .next t ∧
      opOf t op = some { o with stage := .failed St.ABFT_FAIL, tiles := [], scales := [], written := 0, checks := [] } ∧ rd t (A.ABFT_FAIL_COUNT o.cluster) = min (rd s (A.ABFT_FAIL_COUNT o.cluster) + 1) 0xFFFFFFFF ∧ bitN (evtFlags t (0x10D + 0x40 * o.cluster)) 0 = true ∧ t.insts = s.insts) ∧
  (∀ (op : Nat) (o : Op) (k : TileCheck) (rest : List TileCheck) (s : State), s.power = .on → arrayRuns s op o → o.checks = k :: rest → k.at_ + 5000 < s.ridge → retriesOn s o → noneQueued s o.cluster → ∃ t, exec (.abftLate op) s = .next t ∧
      opOf t op = some { o with stage := .failed St.ABFT_LATE, tiles := [], scales := [], written := 0, checks := [] } ∧ rd t (A.ABFT_FAIL_COUNT o.cluster) = min (rd s (A.ABFT_FAIL_COUNT o.cluster) + 1) 0xFFFFFFFF ∧ bitN (evtFlags t (0x10D + 0x40 * o.cluster)) 2 = true ∧ (t.fc.inbox.drop s.fc.inbox.length).map (fun r => (r.source, r.status, r.exhausted)) = [(opSource o, St.ABFT_LATE, false)] ∧ t.insts = s.insts) ∧
  (∀ (op : Nat) (o : Op) (fl : List Nat) (u v : State) (s : State), s.power = .on → arrayRuns s op o → o.written = (parseArr o.desc).outTiles → o.checks = [] → o.lostBank = false → opLive s o = true → noneQueued s o.cluster → arrFlags s o (parseArr o.desc) = (0, fl, u) → writeTagBlock u (opAgent o) (parseArr o.desc).outTag (parseTag o.outTag) fl o.cls (execEcho s o.exec) = (0, v) → ∃ t, exec (.arrayOperationDone op none) s = .next t ∧
      opOf t op = none ∧ t.mem = v.mem ∧ (findExec t o.exec).map (fun y => y.2.finished) = (findExec s o.exec).map (fun y => y.2.finished + 1) ∧ rd t (A.ARR_OPS o.cluster o.unit) = (rd s (A.ARR_OPS o.cluster o.unit) + 1) % 4294967296 ∧ rd t (A.ARR_TOKENS o.cluster o.unit) = (rd s (A.ARR_TOKENS o.cluster o.unit) + (parseArr o.desc).tokens) % 4294967296 ∧ { issue := o.issue, desc := o.desc, tiles := o.tiles } ∈ (arrUnit t o.cluster o.unit).resident) ∧
  (∀ (op : Nat) (o : Op) (s : State), s.power = .on → arrayRuns s op o → (o.written ≠ (parseArr o.desc).outTiles ∨ o.checks ≠ []) → ∃ t, exec (.arrayOperationDone op none) s = .next t ∧
      t.ops = s.ops ∧ t.mem = s.mem ∧ (∀ a, rd t a = rd s a))

/-- O45. Activity levels, fences and injections of arrays. After 5 µs of ballast it ends, its cycles are counted (how
many is free), and the level is to fall to 0, with no step before another 0.5 µs; before, nothing changes. 0.5 µs
after the last step the level moves by exactly one towards its target, as far as its caps allow, and stays where it
has reached it. ARR_FENCE fences or unfences the array and restarts its BIST time; ABFT_INJECT takes its fields, and
keeps the target where the written one is reserved. -/
def Obligations.ArrayLevels : Prop :=
  (∀ (c a : Fin 4) (w : Nat) (s : State), s.power = .on → (arrUnit s c.val a.val).ballastAt = some w → w + 5000 ≤ s.ridge → ∃ t, exec (.ballastEnd c a) s = .next t ∧
      arrUnit t c.val a.val = { arrUnit s c.val a.val with ballastAt := none, ballast := (arrUnit s c.val a.val).ballast + Config.freeValue s.freeCount, target := 0, stepAt := s.ridge } ∧ rdB t (A.ARR_STATUS c.val a.val) 1 = false ∧ arrLevel t c.val a.val = arrLevel s c.val a.val ∧ rd t (A.ARR_BUF_STATUS c.val a.val) = bufStatus s c.val a.val % 4294967296 ∧ ((∀ x, x ≠ A.ARR_STATUS c.val a.val → x ≠ A.ARR_BUF_STATUS c.val a.val → rd t x = rd s x))) ∧
  (∀ (c a : Fin 4) (s : State), s.power = .on → (∀ w, (arrUnit s c.val a.val).ballastAt = some w → s.ridge < w + 5000) → ∃ t, exec (.ballastEnd c a) s = .next t ∧
      t.arrays = s.arrays ∧ (∀ x, rd t x = rd s x)) ∧
  (∀ (c a : Fin 4) (s : State), s.power = .on → (arrUnit s c.val a.val).stepAt + 500 ≤ s.ridge → arrLevel s c.val a.val ≠ min (arrUnit s c.val a.val).target (levelCap s c.val a.val) → min (arrUnit s c.val a.val).target (levelCap s c.val a.val) ≤ 31 → ∃ t, exec (.activityLevelStep c a) s = .next t ∧
      arrLevel t c.val a.val = (if arrLevel s c.val a.val < min (arrUnit s c.val a.val).target (levelCap s c.val a.val) then arrLevel s c.val a.val + 1 else arrLevel s c.val a.val - 1) ∧ (arrUnit t c.val a.val).stepAt = s.ridge ∧ ((arrLevel s c.val a.val = 1 → arrLevel t c.val a.val = 0 → rd t (A.ARR_RAMPS c.val a.val) = min (rd s (A.ARR_RAMPS c.val a.val) + 1) 0xFFFFFFFF)) ∧ (∀ x, x ≠ A.ARR_STATUS c.val a.val → x ≠ A.ARR_BUF_STATUS c.val a.val → x ≠ A.ARR_RAMPS c.val a.val → ¬eventAddr (0x104 + 0x40 * c.val + a.val) x → rd t x = rd s x)) ∧
  (∀ (c a : Fin 4) (s : State), s.power = .on → (s.ridge < (arrUnit s c.val a.val).stepAt + 500 ∨ arrLevel s c.val a.val = min (arrUnit s c.val a.val).target (levelCap s c.val a.val)) → ∃ t, exec (.activityLevelStep c a) s = .next t ∧
      arrLevel t c.val a.val = arrLevel s c.val a.val ∧ (arrUnit t c.val a.val).stepAt = (arrUnit s c.val a.val).stepAt ∧ rd t (A.ARR_RAMPS c.val a.val) = rd s (A.ARR_RAMPS c.val a.val)) ∧
  (∀ (agent : Agent) (c a : Fin 4) (v : Word) (s : State), s.power = .on → takesEffect s agent (A.ARR_FENCE c.val a.val) v.toNat = true → ∃ t, exec (.arrFence agent c a v) s = .next t ∧
      unitFenced t c.val a.val = bitN v.toNat 0 ∧ smGet (fun _ => 0) t.bist.passAt (4 * c.val + a.val) = s.ridge ∧ rdF t (A.BIST_UNIT_STATUS (4 * c.val + a.val)) 9 8 = 0 ∧ ((bitN v.toNat 0 = true → bitN (evtFlags t (0x104 + 0x40 * c.val + a.val)) 4 = true))) ∧
  (∀ (agent : Agent) (c : Fin 4) (v : Word) (s : State), s.power = .on → takesEffect s agent (A.ABFT_INJECT c.val) v.toNat = true → ∃ t, exec (.abftInject agent c v) s = .next t ∧
      rdF t (A.ABFT_INJECT c.val) 1 0 = fldN v.toNat 1 0 ∧ rdB t (A.ABFT_INJECT c.val) 4 = bitN v.toNat 4 ∧ rdF t (A.ABFT_INJECT c.val) 3 2 = (if fldN v.toNat 3 2 = 3 then rdF s (A.ABFT_INJECT c.val) 3 2 else fldN v.toNat 3 2) ∧ (∀ x, x ≠ A.ABFT_INJECT c.val → rd t x = rd s x))

/-- O46. Work of a cluster engine. The next descriptor of a job that passes every check is issued and counts as issued:
behind a running operation it is queued; on a free engine an operation whose inputs carry the frame of the job,
without roll operands or a parameter block, runs, with the output tag formed from its inputs' tags; while eight are
queued nothing is issued. The last operation in an engine, whose outputs, flags and tag block are written, leaves
it, counted, and its descriptor counts as finished. An error that the engine cannot correct, a difference of its two
datapaths and an armed flip are counted, flagged and fail the operation, which is executed again while retries are
left. ENG_FENCE fences or unfences the engine and restarts its BIST time; ENG_INJECT arms or disarms its flip. -/
def Obligations.EngineWork : Prop :=
  (∀ (ex : BitVec 32) (e : Fin 4) (x : Instance) (j : JobRun) (k : Nat) (desc blk : List Byte) (s : State), s.power = .on → findExec s ex.toNat = some (x, j) → engineTaken s x j e.val k desc blk → (engRunning s j.cluster e.val).isSome = true → ∃ t, exec (.engineIssue ex e) s = .next t ∧
      t.ops = s.ops ++ [issuedEngOp s x j e.val k desc blk] ∧ (findExec t ex.toNat).map (fun y => y.2.issued) = some (j.issued ++ [k])) ∧
  (∀ (ex : BitVec 32) (e : Fin 4) (x : Instance) (j : JobRun) (k : Nat) (desc blk : List Byte) (tags : List Tag) (w : State) (s : State), s.power = .on → findExec s ex.toNat = some (x, j) → engineTaken s x j e.val k desc blk → engOps s j.cluster e.val = [] → (∀ o ∈ s.ops, o.id ≠ s.nextId) → unitFenced s j.cluster (4 + e.val) = false → bistBusy s (16 + 4 * j.cluster + e.val) = false → unitOn s (engPage j.cluster e.val) = true → checkInputs s (opAgent (issuedEngOp s x j e.val k desc blk)) x.frame x.cls x.seq (descAddr x j.entry 128 k) (engInputs (parseEng desc)) = (0, tags, w) → rollOperands desc (engOperands blk e.val desc) = [] → blockField (issuedEngOp s x j e.val k desc blk) = none → opBlocked s (issuedEngOp s x j e.val k desc blk) = false → opWaits s (issuedEngOp s x j e.val k desc blk) (engOperands blk e.val desc) = false → ∃ t, exec (.engineIssue ex e) s = .next t ∧
      opOf t s.nextId = some { issuedEngOp s x j e.val k desc blk with stage := .running, outTag := tagBits (outputTag x.frame x.tagCls (parseEng desc).stream tags), startedAt := s.ridge, sign := signWords s j.cluster (signSetOf (issuedEngOp s x j e.val k desc blk)) } ∧ (findExec t ex.toNat).map (fun y => y.2.issued) = some (j.issued ++ [k])) ∧
  (∀ (ex : BitVec 32) (e : Fin 4) (x : Instance) (j : JobRun) (s : State), s.power = .on → findExec s ex.toNat = some (x, j) → 8 ≤ (engOps s j.cluster e.val).countP (fun o => o.stage == .queued) → ∃ t, exec (.engineIssue ex e) s = .next t ∧
      t.ops = s.ops ∧ t.insts = s.insts ∧ (∀ a, rd t a = rd s a)) ∧
  (∀ (c e : Fin 4) (op : Op) (o : EngOut) (fl : List Nat) (u v w x : State) (s : State), s.power = .on → engineRuns s c.val e.val op → op.lostBank = false → opLive s op = true → s.ops.Pairwise (fun p q => p.id ≠ q.id) → runEngine s op = (o, u) → o.status = 0 → (rdB s (A.ENG_INJECT c.val e.val) 0 = false ∨ o.writes = []) → (∀ k ∈ o.counts, k.1 ≠ A.ENG_OPS c.val e.val) → engineWrites u op o = (0, v) → inheritRuns v (opAgent op) op.cls (execEcho s op.exec) 0 o.flags = (0, fl, w) → writeTagBlock w (opAgent op) (parseEng op.desc).outTag (parseTag op.outTag) fl op.cls (execEcho s op.exec) = (0, x) → ∃ t, exec (.engineOperationDone c e none none) s = .next t ∧
      opOf t op.id = none ∧ t.mem = x.mem ∧ (findExec t op.exec).map (fun y => y.2.finished) = (findExec s op.exec).map (fun y => y.2.finished + 1) ∧ rd t (A.ENG_OPS c.val e.val) = (rd s (A.ENG_OPS c.val e.val) + 1) % 4294967296) ∧
  (∀ (c e : Fin 4) (op : Op) (s : State), s.power = .on → engineRuns s c.val e.val op → retriesOn s op → ∃ t, exec (.engineOperationDone c e none (some .eccUncorrectable)) s = .next t ∧
      opOf t op.id = some { op with stage := .failed St.ENGINE_ECC_UNCORRECTABLE, tiles := [], scales := [], written := 0, checks := [] } ∧ t.mem = s.mem ∧ t.insts = s.insts ∧ rd t (A.ENG_ECC_UNCORR c.val e.val) = min (rd s (A.ENG_ECC_UNCORR c.val e.val) + 1) 0xFFFFFFFF ∧ bitN (evtFlags t (engPage c.val e.val)) 1 = true) ∧
  (∀ (c e : Fin 4) (op : Op) (o : EngOut) (u : State) (s : State), s.power = .on → engineRuns s c.val e.val op → retriesOn s op → runEngine s op = (o, u) → o.status = 0 → ∃ t, exec (.engineOperationDone c e none (some .mismatch)) s = .next t ∧
      opOf t op.id = some { op with stage := .failed St.ENGINE_MISMATCH, tiles := [], scales := [], written := 0, checks := [] } ∧ t.mem = s.mem ∧ t.insts = s.insts ∧ rd t (A.ENG_MISMATCH_COUNT c.val e.val) = min (rd s (A.ENG_MISMATCH_COUNT c.val e.val) + 1) 0xFFFFFFFF ∧ bitN (evtFlags t (engPage c.val e.val)) 0 = true) ∧
  (∀ (c e : Fin 4) (op : Op) (o : EngOut) (u : State) (s : State), s.power = .on → engineRuns s c.val e.val op → retriesOn s op → runEngine s op = (o, u) → o.status = 0 → rdB s (A.ENG_INJECT c.val e.val) 0 = true → o.writes ≠ [] → ∃ t, exec (.engineOperationDone c e none none) s = .next t ∧
      opOf t op.id = some { op with stage := .failed St.ENGINE_MISMATCH, tiles := [], scales := [], written := 0, checks := [] } ∧ t.mem = s.mem ∧ t.insts = s.insts ∧ rdB t (A.ENG_INJECT c.val e.val) 0 = false ∧ rd t (A.ENG_MISMATCH_COUNT c.val e.val) = min (rd s (A.ENG_MISMATCH_COUNT c.val e.val) + 1) 0xFFFFFFFF ∧ bitN (evtFlags t (engPage c.val e.val)) 4 = true) ∧
  (∀ (agent : Agent) (c e : Fin 4) (v : Word) (s : State), s.power = .on → takesEffect s agent (A.ENG_FENCE c.val e.val) v.toNat = true → bitN v.toNat 0 = true → ∃ t, exec (.engFence agent c e v) s = .next t ∧
      unitFenced t c.val (4 + e.val) = true ∧ smGet (fun _ => 0) t.bist.passAt (16 + 4 * c.val + e.val) = s.ridge ∧ bitN (evtFlags t (0x109 + 0x40 * c.val + e.val)) 3 = true ∧ t.ops = s.ops) ∧
  (∀ (agent : Agent) (c e : Fin 4) (v : Word) (s : State), s.power = .on → takesEffect s agent (A.ENG_FENCE c.val e.val) v.toNat = true → bitN v.toNat 0 = false → (engOps s c.val e.val = [] ∨ (engRunning s c.val e.val).isSome = true) → ∃ t, exec (.engFence agent c e v) s = .next t ∧
      unitFenced t c.val (4 + e.val) = false ∧ smGet (fun _ => 0) t.bist.passAt (16 + 4 * c.val + e.val) = s.ridge ∧ t.ops = s.ops) ∧
  (∀ (agent : Agent) (c e : Fin 4) (v : Word) (s : State), s.power = .on → takesEffect s agent (A.ENG_INJECT c.val e.val) v.toNat = true → ∃ t, exec (.engInject agent c e v) s = .next t ∧
      rdB t (A.ENG_INJECT c.val e.val) 0 = bitN v.toNat 0 ∧ (∀ a, a ≠ A.ENG_INJECT c.val e.val → rd t a = rd s a))

/-- O47. Scratch scrubbing and pegs. An enabled patrol scrubber reads its next unit: its pass advances, an error of one
symbol or bit is corrected, one of more that the code detects stays and is reported, the data stay, and the last
unit counts the pass; a disabled one, or one whose pass is complete, reads nothing. At the end of its period a pass
begins anew: one that is not finished is counted and flagged as SCRUB_LAG, one whose units are read by then counts
as a pass; before the end nothing happens. SCR_INJECT takes its fields. A write of PEG_COUNT sets the count, clears
saturated, and leaves the waits that were satisfied before it satisfied. PEG_INC adds with saturation to a
configured peg, and is discarded, counted and reported on an unconfigured one; while writes of the same agent to
other devices are under way it is held; 0 has no effect. -/
def Obligations.ScratchAndPegs : Prop :=
  (∀ (c : Fin 4) (s : State), s.power = .on → scrubOn s c.val = true → (scrubOf s c.val).started = true → (scrubOf s c.val).startAt + 1000000 * rdF s (A.SCR_SCRUB_CFG c.val) 15 0 ≤ s.ridge → ∃ t, exec (.scratchScrubPass c false) s = .next t ∧
      scrubOf t c.val = { started := true, startAt := s.ridge, done := 0 } ∧ rd t (A.SCR_SCRUB_LAG c.val) = (if (scrubOf s c.val).done < (scrubSpan c.val).2.2 then min (rd s (A.SCR_SCRUB_LAG c.val) + 1) 0xFFFFFFFF else rd s (A.SCR_SCRUB_LAG c.val)) ∧ (((scrubOf s c.val).done < (scrubSpan c.val).2.2 → bitN (evtFlags t (0x110 + 0x40 * c.val)) 3 = true)) ∧ (∀ a, a ≠ A.SCR_SCRUB_LAG c.val → ¬eventAddr (0x110 + 0x40 * c.val) a → rd t a = rd s a)) ∧
  (∀ (c : Fin 4) (s : State), s.power = .on → scrubOn s c.val = true → (scrubOf s c.val).started = true → (scrubOf s c.val).startAt + 1000000 * rdF s (A.SCR_SCRUB_CFG c.val) 15 0 ≤ s.ridge → ∃ t, exec (.scratchScrubPass c true) s = .next t ∧
      scrubOf t c.val = { started := true, startAt := s.ridge, done := 0 } ∧ rd t (A.SCR_SCRUB_LAG c.val) = rd s (A.SCR_SCRUB_LAG c.val) ∧ rd t (A.SCR_SCRUB_PASSES c.val) = (rd s (A.SCR_SCRUB_PASSES c.val) + (if (scrubOf s c.val).done < (scrubSpan c.val).2.2 then 1 else 0)) % 4294967296 ∧ t.mem = s.mem) ∧
  (∀ (c : Fin 4) (complete : Bool) (s : State), s.power = .on → (scrubOn s c.val = false ∨ (scrubOf s c.val).started = false ∨ s.ridge < (scrubOf s c.val).startAt + 1000000 * rdF s (A.SCR_SCRUB_CFG c.val) 15 0) → ∃ t, exec (.scratchScrubPass c complete) s = .next t ∧
      t.scrubs = s.scrubs ∧ (∀ a, rd t a = rd s a)) ∧
  (∀ (agent : Agent) (c : Fin 4) (v : Word) (s : State), s.power = .on → takesEffect s agent (A.SCR_INJECT c.val) v.toNat = true → ∃ t, exec (.scrInject agent c v) s = .next t ∧
      rd t (A.SCR_INJECT c.val) % 256 = v.toNat % 256 ∧ (∀ a, a ≠ A.SCR_INJECT c.val → rd t a = rd s a)) ∧
  (∀ (u : Fin 5) (s : State), s.power = .on → scrubOn s u.val = true → (scrubOf s u.val).done < (scrubSpan u.val).2.2 → ∃ t, exec (.patrolScrubRead u none) s = .next t ∧
      scrubOf t u.val = { started := true, startAt := (if (scrubOf s u.val).started then (scrubOf s u.val).startAt else s.ridge), done := (scrubOf s u.val).done + 1 } ∧ (∀ w, eccOf t w = (if w ∈ eccWords (scrubNext s u.val) (scrubSpan u.val).2.1 then (eccOf s w).filter (·.double) else eccOf s w)) ∧ t.mem = s.mem ∧ rd t (if u.val < 4 then A.SCR_SCRUB_PASSES u.val else A.MEM_SCRUB_PASSES) = (rd s (if u.val < 4 then A.SCR_SCRUB_PASSES u.val else A.MEM_SCRUB_PASSES) + (if (scrubOf s u.val).done + 1 = (scrubSpan u.val).2.2 then 1 else 0)) % 4294967296) ∧
  (∀ (u : Fin 5) (l : List (Fin 72)) (s : State), s.power = .on → scrubOn s u.val = true → (scrubOf s u.val).done < (scrubSpan u.val).2.2 → l ≠ [] → l.Nodup → l.length ≤ eccSure (scrubNext s u.val) → eccOf s (scrubNext s u.val) = none → ∃ t, exec (.patrolScrubRead u (some (.syms l))) s = .next t ∧
      scrubOf t u.val = { started := true, startAt := (if (scrubOf s u.val).started then (scrubOf s u.val).startAt else s.ridge), done := (scrubOf s u.val).done + 1 } ∧ (if l.length = 1 then eccOf t (scrubNext s u.val) = none else (eccOf t (scrubNext s u.val)).map (fun e => e.syms.length) = some l.length ∧ eccStatus (scrubNext s u.val) ∈ t.fc.inbox.map (·.status)) ∧ t.mem = s.mem) ∧
  (∀ (u : Fin 5) (upset : Option Upset) (s : State), s.power = .on → (scrubOn s u.val = false ∨ ((scrubSpan u.val).2.2 ≤ (scrubOf s u.val).done ∧ upset = none)) → ∃ t, exec (.patrolScrubRead u upset) s = .next t ∧
      t.scrubs = s.scrubs ∧ t.ecc = s.ecc ∧ t.mem = s.mem ∧ (∀ a, rd t a = rd s a)) ∧
  (∀ (agent : Agent) (peg : PegId) (v : Word) (s : State), s.power = .on → (agent = .host → hostUnauth s = false) → ∃ t, exec (.pegCount agent peg v) s = .next t ∧
      pegAt t (pegRef peg) = { pegAt s (pegRef peg) with count := v, saturated := false } ∧ ((∀ r, r ≠ pegRef peg → pegAt t r = pegAt s r)) ∧ (∀ no, (podAt t no).map (·.waitMet) = (podAt s no).map (fun p => p.waitMet || pegMet s p.hdr.waitPeg p.hdr.waitTarget none)) ∧ t.insts.map (fun x => x.jobs.map (·.met)) = s.insts.map (fun x => x.jobs.map (metWaits s x.frame)) ∧ (∀ a, rd t a = rd s a)) ∧
  (∀ (agent : Agent) (peg : PegId) (v : Word) (s : State), s.power = .on → (agent = .host → hostUnauth s = false) → (∀ w ∈ s.outWrites, w.agent ≠ agent) → v ≠ 0 → (pegMode (pegAt s (pegRef peg)) = 1 ∨ pegMode (pegAt s (pegRef peg)) = 2) → ∃ t, exec (.pegIncWrite agent peg v) s = .next t ∧
      (pegAt t (pegRef peg)).count.toNat = min ((pegAt s (pegRef peg)).count.toNat + v.toNat) 0xFFFFFFFF ∧ (pegAt t (pegRef peg)).discarded = (pegAt s (pegRef peg)).discarded ∧ (pegAt t (pegRef peg)).saturated = ((pegAt s (pegRef peg)).saturated || decide (4294967296 ≤ (pegAt s (pegRef peg)).count.toNat + v.toNat)) ∧ ((∀ r, r ≠ pegRef peg → pegAt t r = pegAt s r))) ∧
  (∀ (agent : Agent) (peg : PegId) (v : Word) (s : State), s.power = .on → (agent = .host → hostUnauth s = false) → (∀ w ∈ s.outWrites, w.agent ≠ agent) → v ≠ 0 → pegMode (pegAt s (pegRef peg)) = 0 → ∃ t, exec (.pegIncWrite agent peg v) s = .next t ∧
      (pegAt t (pegRef peg)).count = (pegAt s (pegRef peg)).count ∧ (pegAt t (pegRef peg)).discarded.toNat = min ((pegAt s (pegRef peg)).discarded.toNat + 1) 0xFFFF ∧ (pegSource (pegRef peg), St.PEG_INCREMENT_DISCARDED, pegRef peg) ∈ t.fc.inbox.map (fun r => (r.source, r.status, r.detail)) ∧ ((∀ r, r ≠ pegRef peg → pegAt t r = pegAt s r))) ∧
  (∀ (agent : Agent) (peg : PegId) (v : Word) (s : State), s.power = .on → (agent = .host → hostUnauth s = false) → v ≠ 0 → s.outWrites.any (fun w => w.agent == agent) = true → ∃ t, exec (.pegIncWrite agent peg v) s = .next t ∧
      t.pegs = s.pegs ∧ (t.heldIncs.drop s.heldIncs.length).map (fun h => (h.ref, h.amount, h.waits)) = [(pegRef peg, v.toNat, (s.outWrites.filter (fun w => w.agent == agent)).map (·.id))]) ∧
  (∀ (agent : Agent) (peg : PegId) (v : Word) (s : State), s.power = .on → v = 0 → ∃ t, exec (.pegIncWrite agent peg v) s = .next t ∧
      t.pegs = s.pegs ∧ (∀ a, rd t a = rd s a))

/-- O48. Writes of PEG_CFG. A write of PEG_CFG that sets mode 0b11, a non-zero reserved bit, or a phase not below the
modulus changes nothing and sets cfg_refused; any other takes effect at once, with waits pending or not, and clears
that flag. Nothing but the configuration and that flag of that peg changes, and the waits that were satisfied before
stay satisfied. -/
def Obligations.PegConfig : Prop :=
  (∀ (agent : Agent) (peg : PegId) (v : Word) (s : State), s.power = .on → (agent = .host → hostUnauth s = false) → ∃ t, exec (.pegCfg agent peg v) s = .next t ∧
      (pegAt t (pegRef peg) = (if fldN v.toNat 10 9 = 3 ∨ bitN v.toNat 19 = true ∨ fldN v.toNat 31 24 ≠ 0 ∨ fldN v.toNat 18 16 < fldN v.toNat 22 20 then { pegAt s (pegRef peg) with cfgRefused := true } else { pegAt s (pegRef peg) with cfg := v, cfgRefused := false })) ∧ ((∀ r, r ≠ pegRef peg → pegAt t r = pegAt s r)) ∧ ((if fldN v.toNat 10 9 = 3 ∨ bitN v.toNat 19 = true ∨ fldN v.toNat 31 24 ≠ 0 ∨ fldN v.toNat 18 16 < fldN v.toNat 22 20 then t.pods = s.pods ∧ t.insts = s.insts else (∀ no, (podAt t no).map (·.waitMet) = (podAt s no).map (fun p => p.waitMet || pegMet s p.hdr.waitPeg p.hdr.waitTarget none)) ∧ t.insts.map (fun x => x.jobs.map (·.met)) = s.insts.map (fun x => x.jobs.map (metWaits s x.frame)))) ∧ (∀ a, rd t a = rd s a))

/-- O49. Rolls. An enable of an idle roll with a valid configuration enables it and zeroes its positions; an invalid one
is ignored and sets CONFIG_REJECTED, and one of a roll in use changes nothing. The oldest waiting append takes its
span once there is room, and nothing moves before. Performed appends commit in reservation order and advance the
head by their bytes. An external commit advances the head by its bytes, and one beyond the size is ignored and sets
ROLL_OVERFLOW; an external release advances the tail by its bytes, and one beyond the head is ignored, counted and
sets ROLL_SPAN_ERROR; either does nothing on a roll that is off or not bound to that side. -/
def Obligations.Rolls : Prop :=
  (∀ (agent : Agent) (c : Fin 4) (r : Fin 64) (v : Word) (s : State), s.power = .on → takesEffect s agent (A.ROLL_CTL c.val (r.val / 32) (r.val % 32)) (v.toNat ||| 1) = true → rollIdle s c.val r.val = true → rollConfigOk s c.val r.val (v.toNat ||| 1) = true → ∃ t, exec (.rollEnable agent c r v) s = .next t ∧
      rollOn t c.val r.val = true ∧ rd t (A.ROLL_CTL c.val (r.val / 32) (r.val % 32)) = (v.toNat ||| 1) % 128 ∧ rollHead t c.val r.val = 0 ∧ rollTail t c.val r.val = 0 ∧ rollReserved t c.val r.val = 0 ∧ ((∀ a, a ≠ A.ROLL_CTL c.val (r.val / 32) (r.val % 32) → a ≠ A.ROLL_HEAD c.val (r.val / 32) (r.val % 32) → a ≠ A.ROLL_TAIL c.val (r.val / 32) (r.val % 32) → a ≠ A.ROLL_RESERVE c.val (r.val / 32) (r.val % 32) → rd t a = rd s a))) ∧
  (∀ (agent : Agent) (c : Fin 4) (r : Fin 64) (v : Word) (s : State), s.power = .on → takesEffect s agent (A.ROLL_CTL c.val (r.val / 32) (r.val % 32)) (v.toNat ||| 1) = true → rollIdle s c.val r.val = true → rollConfigOk s c.val r.val (v.toNat ||| 1) = false → ∃ t, exec (.rollEnable agent c r v) s = .next t ∧
      rollOn t c.val r.val = rollOn s c.val r.val ∧ bitN (evtFlags t (rollPage c.val r.val)) 2 = true ∧ rollHead t c.val r.val = rollHead s c.val r.val ∧ rollTail t c.val r.val = rollTail s c.val r.val ∧ rollReserved t c.val r.val = rollReserved s c.val r.val) ∧
  (∀ (agent : Agent) (c : Fin 4) (r : Fin 64) (v : Word) (s : State), s.power = .on → takesEffect s agent (A.ROLL_CTL c.val (r.val / 32) (r.val % 32)) (v.toNat ||| 1) = true → rollIdle s c.val r.val = false → ∃ t, exec (.rollEnable agent c r v) s = .next t ∧
      t.rolls = s.rolls ∧ (∀ a, rd t a = rd s a)) ∧
  (∀ (c : Fin 4) (r : Fin 64) (w : RollWait) (rest : List RollWait) (s : State), s.power = .on → (rollOf s c.val r.val).waiting = w :: rest → posDiff (rollReserved s c.val r.val) (rollTail s c.val r.val) + w.len ≤ rollSize s c.val r.val → ∃ t, exec (.rollAppendReserve c r) s = .next t ∧
      (rollOf t c.val r.val).waiting = rest ∧ (rollOf t c.val r.val).resv = (rollOf s c.val r.val).resv ++ [{ op := w.op, field := w.field, exec := w.exec, start := rollReserved s c.val r.val, len := w.len, frame := w.frame, cls := w.cls }] ∧ rollReserved t c.val r.val = (rollReserved s c.val r.val + w.len) % 4294967296 ∧ ((∀ a, a ≠ A.ROLL_RESERVE c.val (r.val / 32) (r.val % 32) → rd t a = rd s a))) ∧
  (∀ (c : Fin 4) (r : Fin 64) (s : State), s.power = .on → ((∀ w, (rollOf s c.val r.val).waiting.head? = some w → rollSize s c.val r.val < posDiff (rollReserved s c.val r.val) (rollTail s c.val r.val) + w.len)) → ∃ t, exec (.rollAppendReserve c r) s = .next t ∧
      t.rolls = s.rolls ∧ (∀ a, rd t a = rd s a)) ∧
  (∀ (c : Fin 4) (r : Fin 64) (s : State), s.power = .on → rollHead s c.val r.val < 4294967296 → ∃ t, exec (.rollAppendCommit c r) s = .next t ∧
      (rollOf t c.val r.val).resv = (rollOf s c.val r.val).resv.dropWhile (·.performed) ∧ rollHead t c.val r.val = (rollHead s c.val r.val + (((rollOf s c.val r.val).resv.takeWhile (·.performed)).map (·.len)).sum) % 4294967296 ∧ rollTail t c.val r.val = rollTail s c.val r.val ∧ rollReserved t c.val r.val = rollReserved s c.val r.val) ∧
  (∀ (agent : Agent) (c : Fin 4) (r : Fin 64) (v : Word) (s : State), s.power = .on → takesEffect s agent (A.ROLL_COMMIT c.val (r.val / 32) (r.val % 32)) v.toNat = true → rollOn s c.val r.val = true → rdB s (A.ROLL_CTL c.val (r.val / 32) (r.val % 32)) 5 = true → posDiff (rollHead s c.val r.val) (rollTail s c.val r.val) + v.toNat ≤ rollSize s c.val r.val → ∃ t, exec (.rollCommit agent c r v) s = .next t ∧
      rollHead t c.val r.val = (rollHead s c.val r.val + v.toNat) % 4294967296 ∧ rollTail t c.val r.val = rollTail s c.val r.val ∧ rollReserved t c.val r.val = rollReserved s c.val r.val ∧ t.rolls = s.rolls) ∧
  (∀ (agent : Agent) (c : Fin 4) (r : Fin 64) (v : Word) (s : State), s.power = .on → takesEffect s agent (A.ROLL_COMMIT c.val (r.val / 32) (r.val % 32)) v.toNat = true → rollOn s c.val r.val = true → rdB s (A.ROLL_CTL c.val (r.val / 32) (r.val % 32)) 5 = true → rollSize s c.val r.val < posDiff (rollHead s c.val r.val) (rollTail s c.val r.val) + v.toNat → ∃ t, exec (.rollCommit agent c r v) s = .next t ∧
      rollHead t c.val r.val = rollHead s c.val r.val ∧ rollTail t c.val r.val = rollTail s c.val r.val ∧ t.pegs = s.pegs ∧ t.rolls = s.rolls ∧ bitN (evtFlags t (rollPage c.val r.val)) 1 = true) ∧
  (∀ (agent : Agent) (c : Fin 4) (r : Fin 64) (v : Word) (s : State), s.power = .on → takesEffect s agent (A.ROLL_COMMIT c.val (r.val / 32) (r.val % 32)) v.toNat = true → (rollOn s c.val r.val = false ∨ rdB s (A.ROLL_CTL c.val (r.val / 32) (r.val % 32)) 5 = false) → ∃ t, exec (.rollCommit agent c r v) s = .next t ∧
      t.rolls = s.rolls ∧ t.pegs = s.pegs ∧ (∀ a, rd t a = rd s a)) ∧
  (∀ (agent : Agent) (c : Fin 4) (r : Fin 64) (v : Word) (s : State), s.power = .on → takesEffect s agent (A.ROLL_RELEASE c.val (r.val / 32) (r.val % 32)) v.toNat = true → rollOn s c.val r.val = true → rdB s (A.ROLL_CTL c.val (r.val / 32) (r.val % 32)) 6 = true → v.toNat ≤ posDiff (rollHead s c.val r.val) (rollTail s c.val r.val) → ∃ t, exec (.rollRelease agent c r v) s = .next t ∧
      rollTail t c.val r.val = (rollTail s c.val r.val + v.toNat) % 4294967296 ∧ ((∀ a, a ≠ A.ROLL_TAIL c.val (r.val / 32) (r.val % 32) → rd t a = rd s a))) ∧
  (∀ (agent : Agent) (c : Fin 4) (r : Fin 64) (v : Word) (s : State), s.power = .on → takesEffect s agent (A.ROLL_RELEASE c.val (r.val / 32) (r.val % 32)) v.toNat = true → rollOn s c.val r.val = true → rdB s (A.ROLL_CTL c.val (r.val / 32) (r.val % 32)) 6 = true → posDiff (rollHead s c.val r.val) (rollTail s c.val r.val) < v.toNat → ∃ t, exec (.rollRelease agent c r v) s = .next t ∧
      rollTail t c.val r.val = rollTail s c.val r.val ∧ rollHead t c.val r.val = rollHead s c.val r.val ∧ rd t (A.ROLL_SPAN_ERRORS c.val (r.val / 32) (r.val % 32)) = min (rd s (A.ROLL_SPAN_ERRORS c.val (r.val / 32) (r.val % 32)) + 1) 0xFFFFFFFF ∧ bitN (evtFlags t (rollPage c.val r.val)) 0 = true) ∧
  (∀ (agent : Agent) (c : Fin 4) (r : Fin 64) (v : Word) (s : State), s.power = .on → takesEffect s agent (A.ROLL_RELEASE c.val (r.val / 32) (r.val % 32)) v.toNat = true → (rollOn s c.val r.val = false ∨ rdB s (A.ROLL_CTL c.val (r.val / 32) (r.val % 32)) 6 = false) → ∃ t, exec (.rollRelease agent c r v) s = .next t ∧
      t.rolls = s.rolls ∧ (∀ a, rd t a = rd s a))

/-- O50. A reset of a roll. A write of 1 to ROLL_RESET while no operation references the roll sets head, tail and the
reservation pointer to zero and nothing else; while one references it, the write is ignored and sets ROLL_BUSY. -/
def Obligations.RollReset : Prop :=
  (∀ (agent : Agent) (c : Fin 4) (r : Fin 64) (s : State), s.power = .on → takesEffect s agent (A.ROLL_RESET c.val (r.val / 32) (r.val % 32)) 1 = true → (rollOf s c.val r.val).refs = [] → ∃ t, exec (.rollReset agent c r) s = .next t ∧
      rollHead t c.val r.val = 0 ∧ rollTail t c.val r.val = 0 ∧ rollReserved t c.val r.val = 0 ∧ ((∀ a, a ≠ A.ROLL_HEAD c.val (r.val / 32) (r.val % 32) → a ≠ A.ROLL_TAIL c.val (r.val / 32) (r.val % 32) → a ≠ A.ROLL_RESERVE c.val (r.val / 32) (r.val % 32) → rd t a = rd s a))) ∧
  (∀ (agent : Agent) (c : Fin 4) (r : Fin 64) (s : State), s.power = .on → takesEffect s agent (A.ROLL_RESET c.val (r.val / 32) (r.val % 32)) 1 = true → (rollOf s c.val r.val).refs ≠ [] → ∃ t, exec (.rollReset agent c r) s = .next t ∧
      t.rolls = s.rolls ∧ bitN (evtFlags t (rollPage c.val r.val)) 3 = true ∧ ((∀ a, ¬eventAddr (rollPage c.val r.val) a → rd t a = rd s a)))

/-- O51. Sequence commands. Of a command that passes validation and waits for nothing: OPEN allocates and zeroes the map
pages of its context, commits its class S pages, writes its entry, counts it and completes; CLOSE marks its context
closing and is accepted; the first APPEND of a group evicts its blocks, opens the group with its layer's pages and
is accepted, and a further one adds its layer's pages; STAGE of blocks that may be staged is accepted with the
blocks it selects and its view live, or waits while a view or an earlier waiting STAGE overlaps its frames; RELEASE
frees the view and completes; IMPORTANCE writes the new scores of its view's blocks and completes; RESTORE of a
block that is no longer dropped completes without a change, and of a dropped block is accepted with the pages of its
layer. -/
def Obligations.SeqCommands : Prop :=
  (∀ (src : SeqFrom) (c : SeqCmd) (e : SeqEntry) (v w : State) (s : State), s.power = .on → seqReady s src 1 (fun u d => ctxBusy u (cmdCtx d) || openWaits u d) = some (c, e, v) → makeRoom v e.mapCount e.cls (parseSeq c.bytes).frame = (0, w) → w.seq.used.length + e.mapCount ≤ poolPages w → (∀ p ∈ w.seq.held, p ∈ w.seq.used.map (·.1)) → ∃ t, exec (.seqOpen src) s = .next t ∧
      (openPages w (parseSeq c.bytes) e).1.length = e.mapCount ∧ (∀ p ∈ (openPages w (parseSeq c.bytes) e).1, p ∈ t.seq.used.map (·.1)) ∧ t.mem = (writeEntry (openPages w (parseSeq c.bytes) e).2 (parseSeq c.bytes).ctx (openedEntry e (openPages w (parseSeq c.bytes) e).1)).mem ∧ ((e.cls = clsS → smGet (fun _ => 0) t.seq.commits (parseSeq c.bytes).ctx = e.commitment)) ∧ ((e.recompute = true → (parseSeq c.bytes).ctx ∈ t.seq.index)) ∧ rd t A.SEQ_CONTEXTS = (rd s A.SEQ_CONTEXTS + 1) % 4294967296 ∧ SeqFinished w t c) ∧
  (∀ (src : SeqFrom) (c : SeqCmd) (e : SeqEntry) (v : State) (s : State), s.power = .on → seqReady s src 2 (fun _ _ => false) = some (c, e, v) → ∃ t, exec (.seqClose src) s = .next t ∧
      t.seq.cmds = s.seq.cmds ++ [c] ∧ rdF t A.SEQ_STATUS 8 4 = (s.seq.cmds.length + 1) % 32 ∧ t.mem = (writeEntry v (parseSeq c.bytes).ctx { e with state := 3 }).mem) ∧
  (∀ (src : SeqFrom) (c : SeqCmd) (e : SeqEntry) (v w y u : State) (bs ev : List (Nat × SeqSlot)) (ps : List Nat) (s : State), s.power = .on → seqReady s src 3 (fun u d => ctxBusy u (cmdCtx d) || appendWaits u d) = some (c, e, v) → (parseSeq c.bytes).layer = 0 → e.tokens + (parseSeq c.bytes).n ≤ 4294967232 → readSlots v e = (.ok bs, w) → evictions w (parseSeq c.bytes).ctx e (parseSeq c.bytes).frame (groupBlocks (parseSeq c.bytes).pos (parseSeq c.bytes).n) (if (parseSeq c.bytes).pos % 64 = 0 then none else some ((parseSeq c.bytes).pos / 64)) bs = .evict ev → makeRoom (openGroup w c (parseSeq c.bytes) ev) ((entryOf w (parseSeq c.bytes).ctx).ppb * (groupBlocks (parseSeq c.bytes).pos (parseSeq c.bytes).n).length) (entryOf w (parseSeq c.bytes).ctx).cls (parseSeq c.bytes).frame = (0, y) → allocPages y ((entryOf w (parseSeq c.bytes).ctx).ppb * (groupBlocks (parseSeq c.bytes).pos (parseSeq c.bytes).n).length) ((entryOf w (parseSeq c.bytes).ctx).cls == clsS) = (ps, u) → ∃ t, exec (.seqAppend src) s = .next t ∧
      t.seq.cmds = s.seq.cmds ++ [c] ∧ rdF t A.SEQ_STATUS 8 4 = (s.seq.cmds.length + 1) % 32 ∧ (groupOfCtx t (parseSeq c.bytes).ctx).map (fun g => (g.pos, g.n, g.layer, g.busy)) = some ((parseSeq c.bytes).pos, (parseSeq c.bytes).n, 0, true) ∧ (groupOfCtx t (parseSeq c.bytes).ctx).map (fun g => g.blocks.map (fun b => (b.pos, b.pages))) = some ((groupBlocks (parseSeq c.bytes).pos (parseSeq c.bytes).n).zipIdx.map (fun b => (b.1, ((ps.drop ((entryOf w (parseSeq c.bytes).ctx).ppb * b.2)).take (entryOf w (parseSeq c.bytes).ctx).ppb).map (· + 2147483648)))) ∧ t.mem = y.mem) ∧
  (∀ (src : SeqFrom) (c : SeqCmd) (e : SeqEntry) (v y u : State) (g : SeqGroup) (ps : List Nat) (s : State), s.power = .on → seqReady s src 3 (fun u d => ctxBusy u (cmdCtx d) || appendWaits u d) = some (c, e, v) → (parseSeq c.bytes).layer ≠ 0 → groupOfCtx s (parseSeq c.bytes).ctx = some g → makeRoom v (e.ppb * g.blocks.length) e.cls (parseSeq c.bytes).frame = (0, y) → allocPages y (e.ppb * g.blocks.length) (e.cls == clsS) = (ps, u) → ∃ t, exec (.seqAppend src) s = .next t ∧
      t.seq.cmds = s.seq.cmds ++ [c] ∧ rdF t A.SEQ_STATUS 8 4 = (s.seq.cmds.length + 1) % 32 ∧ (groupOfCtx t (parseSeq c.bytes).ctx).map (fun g => (g.pos, g.n, g.layer, g.busy)) = some (g.pos, g.n, g.layer, true) ∧ (groupOfCtx t (parseSeq c.bytes).ctx).map (fun h => h.blocks.map (fun b => (b.pos, b.pages))) = some (g.blocks.zipIdx.map (fun b => (b.1.pos, b.1.pages ++ ((ps.drop (e.ppb * b.2)).take e.ppb).map (· + 2147483648)))) ∧ t.mem = y.mem) ∧
  (∀ (src : SeqFrom) (c : SeqCmd) (e : SeqEntry) (v w : State) (bs : List (Nat × SeqSlot)) (s : State), s.power = .on → seqReady s src 4 (fun _ _ => false) = some (c, e, v) → (((parseSeq c.bytes).select = 3 → savedVersion v e (parseSeq c.bytes).layer = e.version)) → readSlots v e = (.ok bs, w) → (strict w = false ∨ (stageSelect w (parseSeq c.bytes) bs).1.any (fun x => x.state == 2) = false) → (∀ d ∈ s.seq.cmds, d.id < s.nextId) → stageBlocked (stageFresh (stageMark w (parseSeq c.bytes) e (stageSelect w (parseSeq c.bytes) bs).1) c) c.id (parseSeq c.bytes).frame0 (viewFrames e (parseSeq c.bytes).bMax) = false → ∃ t, exec (.seqStage src) s = .next t ∧
      t.seq.cmds = s.seq.cmds ++ [{ { c with picks := (stageSelect w (parseSeq c.bytes) bs).1, hadVoid := (stageSelect w (parseSeq c.bytes) bs).2.1, flags := if (stageSelect w (parseSeq c.bytes) bs).2.2 then jfTruncated else 0 } with stage := .copying }] ∧ rdF t A.SEQ_STATUS 8 4 = (s.seq.cmds.length + 1) % 32 ∧ t.seq.views = (stageFresh (stageMark w (parseSeq c.bytes) e (stageSelect w (parseSeq c.bytes) bs).1) c).seq.views ++ [stagedView ({ c with picks := (stageSelect w (parseSeq c.bytes) bs).1, hadVoid := (stageSelect w (parseSeq c.bytes) bs).2.1, flags := if (stageSelect w (parseSeq c.bytes) bs).2.2 then jfTruncated else 0 }) (entryOf (stageFresh (stageMark w (parseSeq c.bytes) e (stageSelect w (parseSeq c.bytes) bs).1) c) (parseSeq c.bytes).ctx)] ∧ t.seq.marks = (if (parseSeq c.bytes).mark then smPut s.seq.marks (64 * (parseSeq c.bytes).ctx + (parseSeq c.bytes).layer) ((stageSelect w (parseSeq c.bytes) bs).1.map (·.pos)) else s.seq.marks) ∧ t.mem = (stageFresh (stageMark w (parseSeq c.bytes) e (stageSelect w (parseSeq c.bytes) bs).1) c).mem) ∧
  (∀ (src : SeqFrom) (c : SeqCmd) (e : SeqEntry) (v w : State) (bs : List (Nat × SeqSlot)) (s : State), s.power = .on → seqReady s src 4 (fun _ _ => false) = some (c, e, v) → (((parseSeq c.bytes).select = 3 → savedVersion v e (parseSeq c.bytes).layer = e.version)) → readSlots v e = (.ok bs, w) → (strict w = false ∨ (stageSelect w (parseSeq c.bytes) bs).1.any (fun x => x.state == 2) = false) → stageBlocked (stageFresh (stageMark w (parseSeq c.bytes) e (stageSelect w (parseSeq c.bytes) bs).1) c) c.id (parseSeq c.bytes).frame0 (viewFrames e (parseSeq c.bytes).bMax) = true → ∃ t, exec (.seqStage src) s = .next t ∧
      t.seq.cmds = s.seq.cmds ++ [{ { c with picks := (stageSelect w (parseSeq c.bytes) bs).1, hadVoid := (stageSelect w (parseSeq c.bytes) bs).2.1, flags := if (stageSelect w (parseSeq c.bytes) bs).2.2 then jfTruncated else 0 } with stage := .blocked }] ∧ rdF t A.SEQ_STATUS 8 4 = (s.seq.cmds.length + 1) % 32 ∧ t.seq.views = (stageFresh (stageMark w (parseSeq c.bytes) e (stageSelect w (parseSeq c.bytes) bs).1) c).seq.views ∧ t.seq.marks = (if (parseSeq c.bytes).mark then smPut s.seq.marks (64 * (parseSeq c.bytes).ctx + (parseSeq c.bytes).layer) ((stageSelect w (parseSeq c.bytes) bs).1.map (·.pos)) else s.seq.marks) ∧ t.mem = (stageFresh (stageMark w (parseSeq c.bytes) e (stageSelect w (parseSeq c.bytes) bs).1) c).mem) ∧
  (∀ (src : SeqFrom) (c : SeqCmd) (e : SeqEntry) (v : State) (s : State), s.power = .on → seqReady s src 5 viewPending = some (c, e, v) → ∃ t, exec (.seqRelease src) s = .next t ∧
      t.seq.views = s.seq.views.filter (fun y => y.frame0 != (parseSeq c.bytes).frame0) ∧ t.mem = v.mem ∧ SeqFinished v t c) ∧
  (∀ (src : SeqFrom) (c : SeqCmd) (e : SeqEntry) (v w x : State) (y : SeqView) (b : List Byte) (ys : List SeqSlot) (s : State), s.power = .on → seqReady s src 6 (fun u d => ctxBusy u (cmdCtx d) || viewPending u d) = some (c, e, v) → viewAt v (parseSeq c.bytes).frame0 = some y → memRead v .sequence (parseSeq c.bytes).mass (4 * y.slots.length) c.cls (parseSeq c.bytes).ctx (seqEcho v c) = (0, b, w) → (∀ k < y.slots.length, fpFinite (f32v (leAt b (4 * k) 4)) = true) → slotsOf w e ((namedMasses y b).map (·.1)) = (.ok ys, x) → ∃ t, exec (.seqImportance src) s = .next t ∧
      t.seq.views = s.seq.views ∧ t.mem = (scoreBlocks x e (rdF w A.SEQ_IMP_CFG 3 0) (namedMasses y b) ys).mem ∧ SeqFinished v t c) ∧
  (∀ (src : SeqFrom) (c : SeqCmd) (e : SeqEntry) (v w : State) (o : Option SeqSlot) (s : State), s.power = .on → seqReady s src 7 (fun u d => ctxBusy u (cmdCtx d)) = some (c, e, v) → slotOfPos v e ((parseSeq c.bytes).pos / 64) = (.ok o, w) → ((∀ x, o = some x → x.state ≠ 2)) → ∃ t, exec (.seqRestore src) s = .next t ∧
      t.seq.restoring = s.seq.restoring ∧ t.mem = w.mem ∧ SeqFinished w t c) ∧
  (∀ (src : SeqFrom) (c : SeqCmd) (e : SeqEntry) (v w y u : State) (x : SeqSlot) (ps : List Nat) (s : State), s.power = .on → seqReady s src 7 (fun u d => ctxBusy u (cmdCtx d)) = some (c, e, v) → slotOfPos v e ((parseSeq c.bytes).pos / 64) = (.ok (some x), w) → x.state = 2 → makeRoom (if (parseSeq c.bytes).layer = 0 then restoreGone w (parseSeq c.bytes).ctx ((parseSeq c.bytes).pos / 64) else w) e.ppb e.cls (parseSeq c.bytes).frame = (0, y) → allocPages y e.ppb false = (ps, u) → ∃ t, exec (.seqRestore src) s = .next t ∧
      t.seq.cmds = s.seq.cmds ++ [c] ∧ rdF t A.SEQ_STATUS 8 4 = (s.seq.cmds.length + 1) % 32 ∧ (t.seq.restoring.find? (fun r => r.ctx == (parseSeq c.bytes).ctx && r.block.pos == (parseSeq c.bytes).pos / 64)).map (fun r => (r.layer, r.block.pages)) = some ((parseSeq c.bytes).layer, (((if (parseSeq c.bytes).layer = 0 then none else s.seq.restoring.find? (fun r => r.ctx == (parseSeq c.bytes).ctx && r.block.pos == (parseSeq c.bytes).pos / 64)).map (·.block.pages)).getD []) ++ ps.map (· + 2147483648)) ∧ t.mem = y.mem)

/-- O52. What ends in the sequence engine. A STAGE that waited for frames starts once nothing overlaps them, and stays
before. A STAGE whose blocks are there copies them, writes its view and completes; one whose blocks are not waits;
where the two datapaths differ it leaves the engine, counted and flagged, its pod done with SEQ_MISMATCH or its
job's command kept for a retry. Once nothing of its context is ahead of it, an APPEND writes its layer's pages and
advances its group, and the last layer commits it; a RESTORE writes its layer, and the last layer makes the block
live; a CLOSE frees its context's pages and commitment; each completes. STAGEs of pods that wait for a block past
the time of its recompute request end with RECOMPUTE_TIMEOUT, and the request with them. SEQ_CTL enables an engine
whose regions are apart, rejects one whose are not, and disables it only with no context open; SEQ_INJECT arms its
flip. -/
def Obligations.SeqEnds : Prop :=
  (∀ (id : Nat) (c : SeqCmd) (s : State), s.power = .on → s.seq.cmds.find? (fun d => d.id == id && d.stage == .blocked) = some c → stageBlocked s c.id (parseSeq c.bytes).frame0 (viewFrames (entryOf s (parseSeq c.bytes).ctx) (parseSeq c.bytes).bMax) = false → ∃ t, exec (.stageStart id) s = .next t ∧
      t.seq.cmds = s.seq.cmds.map (fun d => if d.id = id then { d with stage := .copying } else d) ∧ t.seq.views = s.seq.views ++ [stagedView c (entryOf s (parseSeq c.bytes).ctx)] ∧ t.mem = s.mem) ∧
  (∀ (id : Nat) (s : State), s.power = .on → ((∀ c, s.seq.cmds.find? (fun d => d.id == id && d.stage == .blocked) = some c → stageBlocked s c.id (parseSeq c.bytes).frame0 (viewFrames (entryOf s (parseSeq c.bytes).ctx) (parseSeq c.bytes).bMax) = true)) → ∃ t, exec (.stageStart id) s = .next t ∧
      t.seq = s.seq ∧ t.mem = s.mem ∧ (∀ a, rd t a = rd s a)) ∧
  (∀ (id : Nat) (c : SeqCmd) (e : SeqEntry) (u w x : State) (s : State), s.power = .on → s.seq.cmds.find? (fun d => d.id == id && d.stage == .copying) = some c → seqFills s = false → readEntry s (parseSeq c.bytes).ctx = (.ok e, u) → stageReady c = true → stageCopy u c (parseSeq c.bytes) e ((stageSlots c).filterMap (fun y => y)) = (0, w) → rdB w A.SEQ_INJECT 0 = false → memWrite w .sequence (cacheFrame (parseSeq c.bytes).frame0) (stageBytes w e c (stageSlots c)) c.cls (seqEcho w c) = (0, x) → ∃ t, exec (.stageCopyDone id false) s = .next t ∧
      t.mem = x.mem ∧ rd t A.SEQ_STAGE_BYTES = (rd s A.SEQ_STAGE_BYTES + (stageBytes w e c (stageSlots c)).length) % 4294967296 ∧ SeqFinished x t c) ∧
  (∀ (id : Nat) (c : SeqCmd) (e : SeqEntry) (u w : State) (s : State), s.power = .on → s.seq.cmds.find? (fun d => d.id == id && d.stage == .copying) = some c → seqFills s = false → readEntry s (parseSeq c.bytes).ctx = (.ok e, u) → stageReady c = true → stageCopy u c (parseSeq c.bytes) e ((stageSlots c).filterMap (fun y => y)) = (0, w) → ((∀ x k i j, c.issuer = .job x k i j → c.retries < retryLimit s)) → ∃ t, exec (.stageCopyDone id true) s = .next t ∧
      (∀ d ∈ t.seq.cmds, d.id ≠ c.id) ∧ rd t A.SEQ_MISMATCH_COUNT = min (rd s A.SEQ_MISMATCH_COUNT + 1) 0xFFFFFFFF ∧ bitN (evtFlags t 0x200) 4 = true ∧ ((∀ no, c.issuer = .pod no → PodDone t no St.SEQ_MISMATCH)) ∧ ((∀ x k i j, c.issuer = .job x k i j → t.seq.failed = s.seq.failed ++ [(c, St.SEQ_MISMATCH)])) ∧ t.mem = s.mem) ∧
  (∀ (id : Nat) (mismatch : Bool) (s : State), s.power = .on → ((∀ c, s.seq.cmds.find? (fun d => d.id == id && d.stage == .copying) = some c → seqFills s = true ∨ (stageReady c = false ∧ ∃ e, (readEntry s (parseSeq c.bytes).ctx).1 = .ok e))) → ∃ t, exec (.stageCopyDone id mismatch) s = .next t ∧
      t.seq = s.seq ∧ t.mem = s.mem) ∧
  (∀ (id : Nat) (c : SeqCmd) (g : SeqGroup) (e : SeqEntry) (ks vs : List (List Fr)) (bs : List SeqBlock) (sat fl : Nat) (u v w y : State) (s : State), s.power = .on → seqEnds s id c → cmdOp c = 3 → groupOfCtx s (parseSeq c.bytes).ctx = some g → readEntry s (parseSeq c.bytes).ctx = (.ok e, u) → seqRows u c.cls (seqEcho u c) (parseSeq c.bytes).fp16 (parseSeq c.bytes).kSrc (parseSeq c.bytes).stride e.kp (parseSeq c.bytes).n = (0, ks, v) → seqRows v c.cls (seqEcho v c) (parseSeq c.bytes).fp16 (parseSeq c.bytes).vSrc (parseSeq c.bytes).stride e.vp (parseSeq c.bytes).n = (0, vs, w) → rdB w A.SEQ_INJECT 0 = false → appendBlocks w c (parseSeq c.bytes) e g ks vs = (0, bs, sat, fl, y) → ∃ t, exec (.seqCommandComplete id false) s = .next t ∧
      t.mem = (appendedTo y (parseSeq c.bytes) e g bs sat fl).mem ∧ t.seq.groups = (appendedTo y (parseSeq c.bytes) e g bs sat fl).seq.groups ∧ rd t A.SEQ_KV_SAT = min (rd s A.SEQ_KV_SAT + sat) 0xFFFFFFFF ∧ rd t A.SEQ_V_FLUSH = min (rd s A.SEQ_V_FLUSH + fl) 0xFFFFFFFF ∧ SeqFinished y t c) ∧
  (∀ (id no : Nat) (c : SeqCmd) (g : SeqGroup) (e : SeqEntry) (ks vs : List (List Fr)) (u v w : State) (s : State), s.power = .on → seqEnds s id c → cmdOp c = 3 → c.issuer = .pod no → groupOfCtx s (parseSeq c.bytes).ctx = some g → readEntry s (parseSeq c.bytes).ctx = (.ok e, u) → seqRows u c.cls (seqEcho u c) (parseSeq c.bytes).fp16 (parseSeq c.bytes).kSrc (parseSeq c.bytes).stride e.kp (parseSeq c.bytes).n = (0, ks, v) → seqRows v c.cls (seqEcho v c) (parseSeq c.bytes).fp16 (parseSeq c.bytes).vSrc (parseSeq c.bytes).stride e.vp (parseSeq c.bytes).n = (0, vs, w) → ∃ t, exec (.seqCommandComplete id true) s = .next t ∧
      (∀ d ∈ t.seq.cmds, d.id ≠ c.id) ∧ rd t A.SEQ_MISMATCH_COUNT = min (rd s A.SEQ_MISMATCH_COUNT + 1) 0xFFFFFFFF ∧ bitN (evtFlags t 0x200) 4 = true ∧ PodDone t no St.SEQ_MISMATCH ∧ groupOfCtx t (parseSeq c.bytes).ctx = none) ∧
  (∀ (id : Nat) (c : SeqCmd) (e : SeqEntry) (r : SeqRestore) (x : SeqSlot) (ks vs : List (List Fr)) (sc : List Nat) (sat fl : Nat) (a u v w y : State) (s : State), s.power = .on → seqEnds s id c → cmdOp c = 7 → readEntry s (parseSeq c.bytes).ctx = (.ok e, a) → slotOfPos a e ((parseSeq c.bytes).pos / 64) = (.ok (some x), u) → x.state = 2 → u.seq.restoring.find? (fun r => r.ctx == (parseSeq c.bytes).ctx && r.block.pos == (parseSeq c.bytes).pos / 64) = some r → seqRows u c.cls (seqEcho u c) (parseSeq c.bytes).fp16 (parseSeq c.bytes).kSrc (parseSeq c.bytes).stride e.kp x.fill = (0, ks, v) → seqRows v c.cls (seqEcho v c) (parseSeq c.bytes).fp16 (parseSeq c.bytes).vSrc (parseSeq c.bytes).stride e.vp x.fill = (0, vs, w) → rdB w A.SEQ_INJECT 0 = false → writeBlockLayer w e (parseSeq c.bytes).layer 0 none (r.block.pages.drop (e.ppb * (parseSeq c.bytes).layer)) ks vs c.cls (seqEcho w c) = (0, sc, sat, fl, y) → ∃ t, exec (.seqCommandComplete id false) s = .next t ∧
      t.mem = (restoredTo y (parseSeq c.bytes) e r x sc sat fl).mem ∧ t.seq.restoring = (restoredTo y (parseSeq c.bytes) e r x sc sat fl).seq.restoring ∧ SeqFinished y t c) ∧
  (∀ (id : Nat) (mismatch : Bool) (c : SeqCmd) (e : SeqEntry) (bs : List (Nat × SeqSlot)) (u v : State) (s : State), s.power = .on → seqEnds s id c → cmdOp c ≠ 3 → cmdOp c ≠ 7 → ((∀ d ∈ s.seq.cmds, cmdCtx d = cmdCtx c → id ≤ d.id)) → readEntry (ungrouped s (cmdCtx c)) (cmdCtx c) = (.ok e, u) → readSlots u e = (.ok bs, v) → ∃ t, exec (.seqCommandComplete id mismatch) s = .next t ∧
      (∀ y ∈ t.seq.requests, y.ctx ≠ cmdCtx c) ∧ (∀ y ∈ t.seq.restoring, y.ctx ≠ cmdCtx c) ∧ t.seq.commits = smDel s.seq.commits (cmdCtx c) ∧ (∀ p ∈ bs.flatMap (fun b => validPages b.2.pages) ++ validPages e.map, p ∉ t.seq.used.map (·.1)) ∧ t.mem = (writeEntry (closePages v (cmdCtx c) e bs) (cmdCtx c) { e with state := 0, live := 0, dropped := 0, mapPages := 0, map := [0, 0, 0, 0, 0, 0] }).mem ∧ SeqFinished v t c) ∧
  (∀ (id : Nat) (mismatch : Bool) (s : State), s.power = .on → ((∀ c, s.seq.cmds.find? (fun d => d.id == id && d.stage == .running) = some c → seqWaits s c = true ∨ ∃ d ∈ s.seq.cmds, d.stage = .running ∧ cmdCtx d = cmdCtx c ∧ d.id < id)) → ∃ t, exec (.seqCommandComplete id mismatch) s = .next t ∧
      t.seq = s.seq ∧ t.mem = s.mem ∧ (∀ a, rd t a = rd s a)) ∧
  (∀ (ctx : BitVec 20) (pos : Nat) (r : SeqRequest) (s : State), s.power = .on → s.seq.requests.find? (fun r => r.ctx == ctx.toNat && r.pos == pos) = some r → r.at_ + 1000 * rdF s A.SEQ_RECOMP_TIMEOUT 19 0 < s.ridge → (∀ c ∈ stagesFor s ctx.toNat pos, ∃ no, c.issuer = .pod no) → ∃ t, exec (.recomputeTimeout ctx pos) s = .next t ∧
      (∀ c ∈ stagesFor s ctx.toNat pos, ∀ d ∈ t.seq.cmds, d.id ≠ c.id) ∧ ((∀ c ∈ stagesFor s ctx.toNat pos, ∀ no, c.issuer = .pod no → PodDone t no St.RECOMPUTE_TIMEOUT)) ∧ t.seq.requests.map (fun y => (y.ctx, y.pos)) = (s.seq.requests.filter (fun y => !(y.ctx == ctx.toNat && y.pos == pos))).map (fun y => (y.ctx, y.pos)) ∧ ((stagesFor s ctx.toNat pos ≠ [] → bitN (evtFlags t 0x200) 2 = true))) ∧
  (∀ (ctx : BitVec 20) (pos : Nat) (s : State), s.power = .on → ((∀ r, s.seq.requests.find? (fun r => r.ctx == ctx.toNat && r.pos == pos) = some r → s.ridge ≤ r.at_ + 1000 * rdF s A.SEQ_RECOMP_TIMEOUT 19 0)) → ∃ t, exec (.recomputeTimeout ctx pos) s = .next t ∧
      t.seq = s.seq ∧ t.mem = s.mem ∧ (∀ a, rd t a = rd s a)) ∧
  (∀ (agent : Agent) (v : Word) (s : State), s.power = .on → takesEffect s agent A.SEQ_CTL v.toNat = true → seqOn s = false → bitN v.toNat 0 = true → seqRegionsOk s = true → ∃ t, exec (.seqCtl agent v) s = .next t ∧
      seqOn t = true ∧ rdB t A.SEQ_STATUS 0 = true ∧ rdB t A.SEQ_CTL 1 = bitN v.toNat 1) ∧
  (∀ (agent : Agent) (v : Word) (s : State), s.power = .on → takesEffect s agent A.SEQ_CTL v.toNat = true → seqOn s = false → bitN v.toNat 0 = true → seqRegionsOk s = false → ∃ t, exec (.seqCtl agent v) s = .next t ∧
      seqOn t = false ∧ bitN (evtFlags t 0x200) 6 = true) ∧
  (∀ (agent : Agent) (v : Word) (s : State), s.power = .on → takesEffect s agent A.SEQ_CTL v.toNat = true → seqOn s = false → bitN v.toNat 0 = false → ∃ t, exec (.seqCtl agent v) s = .next t ∧
      seqOn t = false ∧ rdB t A.SEQ_CTL 1 = bitN v.toNat 1) ∧
  (∀ (agent : Agent) (v : Word) (s : State), s.power = .on → takesEffect s agent A.SEQ_CTL v.toNat = true → seqOn s = true → bitN v.toNat 0 = false → rd s A.SEQ_CONTEXTS = 0 → ∃ t, exec (.seqCtl agent v) s = .next t ∧
      seqOn t = false ∧ rdB t A.SEQ_STATUS 0 = false) ∧
  (∀ (agent : Agent) (v : Word) (s : State), s.power = .on → takesEffect s agent A.SEQ_CTL v.toNat = true → seqOn s = true → (bitN v.toNat 0 = true ∨ rd s A.SEQ_CONTEXTS ≠ 0) → ∃ t, exec (.seqCtl agent v) s = .next t ∧
      t.seq = s.seq ∧ (∀ a, rd t a = rd s a)) ∧
  (∀ (agent : Agent) (v : Word) (s : State), s.power = .on → takesEffect s agent A.SEQ_INJECT v.toNat = true → ∃ t, exec (.seqInject agent v) s = .next t ∧
      rdB t A.SEQ_INJECT 0 = bitN v.toNat 0 ∧ (∀ a, a ≠ A.SEQ_INJECT → rd t a = rd s a))

/-- O53. Graphs, instances and jobs. A GRAPH_LOAD of an image that passes its checks loads the graph into its free slot
and completes; a malformed one, or an image that fails a check, ends with the status and loads nothing. A
GRAPH_UNLOAD of an unused graph empties its slot and completes, of one whose instance is active waits for it, and of
one that is bound to an enabled frame group or to be unloaded already ends with GRAPH_SLOT_BUSY. The head of a free
slot's queue starts an instance once its parameters are written; nothing starts while the slot is taken or the
request waits. The next ready job fires with the next execution sequence; one that waits on an unconfigured peg ends
its instance instead. A firing whose last descriptor has completed, or whose result is formed, is done and its
completion peg counts; its instance completes with the last exit job; a completion of a retired firing, or after a
deadline, is discarded and counted. A firing past its timeout is counted and reported, waits for a retry while
retries are left, and otherwise its instance ends. -/
def Obligations.GraphsAndJobs : Prop :=
  (∀ (no : Nat) (p : RxPod) (g : Graph) (u v : State) (s : State), s.power = .on → takePod s no 4 (isControl 5 1) = some (p, u) → p.hdr.length = 3 → leAt p.body 1 7 = 0 → leNat (p.body.drop 20) = 0 → 64 ≤ leAt p.body 16 4 → dramRange (leAt p.body 8 8) (leAt p.body 16 4) = true → encWaits u (leAt p.body 8 8) (leAt p.body 16 4) = false → readGraph u (leAt p.body 0 1) (leAt p.body 8 8) (leAt p.body 16 4) p.hdr.cls p.hdr.sequence = (0, some g, v) → ∃ t, exec (.graphLoad no) s = .next t ∧
      graphOf t (leAt p.body 0 1) = some g ∧ g.addr = leAt p.body 8 8 ∧ g.len = leAt p.body 16 4 ∧ ((∀ k, k ≠ leAt p.body 0 1 → graphOf t k = graphOf s k)) ∧ PodDone t no 0) ∧
  (∀ (no st : Nat) (p : RxPod) (o : Option Graph) (u v : State) (s : State), s.power = .on → takePod s no 4 (isControl 5 1) = some (p, u) → p.hdr.length = 3 → leAt p.body 1 7 = 0 → leNat (p.body.drop 20) = 0 → 64 ≤ leAt p.body 16 4 → dramRange (leAt p.body 8 8) (leAt p.body 16 4) = true → encWaits u (leAt p.body 8 8) (leAt p.body 16 4) = false → readGraph u (leAt p.body 0 1) (leAt p.body 8 8) (leAt p.body 16 4) p.hdr.cls p.hdr.sequence = (st, o, v) → st ≠ 0 → ∃ t, exec (.graphLoad no) s = .next t ∧
      t.graphs = s.graphs ∧ PodDone t no st ∧ ((st = St.CLASS_UNAVAILABLE → bitN (evtFlags t 0x004) 0 = true))) ∧
  (∀ (no : Nat) (p : RxPod) (u : State) (s : State), s.power = .on → takePod s no 4 (isControl 5 1) = some (p, u) → (p.hdr.length ≠ 3 ∨ leAt p.body 1 7 ≠ 0 ∨ leNat (p.body.drop 20) ≠ 0 ∨ leAt p.body 16 4 < 64 ∨ dramRange (leAt p.body 8 8) (leAt p.body 16 4) = false) → ∃ t, exec (.graphLoad no) s = .next t ∧
      t.graphs = s.graphs ∧ PodDone t no St.GRAPH_INVALID) ∧
  (∀ (no : Nat) (p : RxPod) (g : Graph) (u : State) (s : State), s.power = .on → takePod s no 4 (isControl 5 2) = some (p, u) → p.hdr.length = 3 → leNat (p.body.drop 1) = 0 → graphOf s (leAt p.body 0 1) = some g → (g.bound && fgOn s g.fg) = false → g.unload = none → (activeInsts s).any (fun x => x.slot == (leAt p.body 0 1)) = false → ∃ t, exec (.graphUnload no) s = .next t ∧
      graphOf t (leAt p.body 0 1) = none ∧ ((∀ k, k ≠ leAt p.body 0 1 → graphOf t k = graphOf s k)) ∧ PodDone t no 0 ∧ t.insts = s.insts) ∧
  (∀ (no : Nat) (p : RxPod) (g : Graph) (u : State) (s : State), s.power = .on → takePod s no 4 (isControl 5 2) = some (p, u) → p.hdr.length = 3 → leNat (p.body.drop 1) = 0 → graphOf s (leAt p.body 0 1) = some g → (g.bound && fgOn s g.fg) = false → g.unload = none → (activeInsts s).any (fun x => x.slot == (leAt p.body 0 1)) = true → ∃ t, exec (.graphUnload no) s = .next t ∧
      graphOf t (leAt p.body 0 1) = some { g with unload := some no } ∧ ((∀ k, k ≠ leAt p.body 0 1 → graphOf t k = graphOf s k)) ∧ t.insts = s.insts) ∧
  (∀ (no : Nat) (p : RxPod) (g : Graph) (u : State) (s : State), s.power = .on → takePod s no 4 (isControl 5 2) = some (p, u) → p.hdr.length = 3 → leNat (p.body.drop 1) = 0 → graphOf s (leAt p.body 0 1) = some g → ((g.bound = true ∧ fgOn s g.fg = true) ∨ g.unload.isSome = true) → ∃ t, exec (.graphUnload no) s = .next t ∧
      t.graphs = s.graphs ∧ t.insts = s.insts ∧ PodDone t no St.GRAPH_SLOT_BUSY) ∧
  (∀ (no : Nat) (p : RxPod) (u : State) (s : State), s.power = .on → takePod s no 4 (isControl 5 2) = some (p, u) → (p.hdr.length ≠ 3 ∨ leNat (p.body.drop 1) ≠ 0) → ∃ t, exec (.graphUnload no) s = .next t ∧
      t.graphs = s.graphs ∧ t.insts = s.insts ∧ PodDone t no St.GRAPH_INVALID) ∧
  (∀ (slot : BitVec 8) (g : Graph) (q : StartReq) (rest : List StartReq) (w : State) (s : State), s.power = .on → graphOf (admitStarts s slot.toNat) slot.toNat = some g → g.queue = q :: rest → encWaits s g.paramAddr g.paramSize = false → g.bound = false → g.unload = none → queueReady s q = true → (activeInsts s).any (fun x => x.slot == slot.toNat) = false → writeParams (setGraph (admitStarts s slot.toNat) slot.toNat (some { g with queue := rest })) g q = (0, w) → ∃ t, exec (.instanceStart slot) s = .next t ∧
      t.insts = s.insts ++ [newInstance w slot.toNat g q.cause q.frame q.cls q.seq q.entry none] ∧ (graphOf t slot.toNat).map (·.queue) = some rest ∧ t.mem = w.mem) ∧
  (∀ (slot : BitVec 8) (s : State), s.power = .on → ((∀ g q rest, graphOf (admitStarts s slot.toNat) slot.toNat = some g → g.queue = q :: rest → encWaits s g.paramAddr g.paramSize = true ∨ g.bound = true ∨ g.unload.isSome = true ∨ queueReady s q = false ∨ (activeInsts s).any (fun x => x.slot == slot.toNat) = true)) → ∃ t, exec (.instanceStart slot) s = .next t ∧
      t.insts = s.insts ∧ t.graphs = (admitStarts s slot.toNat).graphs ∧ t.mem = s.mem) ∧
  (∀ (x : Instance) (j : JobRun) (s : State), s.power = .on → coreStalled s 2 = false → nextReady s = some (x, j) → badWait s x j = false → ∃ t, exec .jobFire s = .next t ∧
      t.insts = jobFired s s.insts x.id j.entry.index (firedJob s x j j.retries) ∧ t.nextExec = (s.nextExec + 1) % 4294967296 ∧ rd t A.DSP_FIRED = (rd s A.DSP_FIRED + 1) % 4294967296 ∧ ((∀ a, a ≠ A.DSP_FIRED → rd t a = rd s a))) ∧
  (∀ (x : Instance) (j : JobRun) (g : Graph) (s : State), s.power = .on → coreStalled s 2 = false → nextReady s = some (x, j) → badWait s x j = true → x.life = .active → s.insts.find? (fun y => y.id == x.id) = some x → graphOf s x.slot = some g → g.unload = none → ∃ t, exec .jobFire s = .next t ∧
      ((∀ y ∈ t.insts, y.id = x.id → y.life ≠ .active)) ∧ ((∀ no, x.cause = .pod no → PodDone t no St.PEG_UNCONFIGURED)) ∧ t.nextExec = s.nextExec) ∧
  (∀ (s : State), s.power = .on → (coreStalled s 2 = true ∨ nextReady s = none) → ∃ t, exec .jobFire s = .next t ∧
      t.insts = s.insts ∧ t.graphs = s.graphs ∧ (∀ a, rd t a = rd s a)) ∧
  (∀ (ex : BitVec 32) (x : Instance) (j : JobRun) (u : State) (s : State), s.power = .on → jobEnds s ex x j u → x.life = .active → exitsDone (doneJob x j.entry.index) = false → ∃ t, exec (.jobComplete ex) s = .next t ∧
      t.insts = jobChanged s.insts x.id j.entry.index (fun r => { r with stage := .done }) ∧ t.pegs = (pegInc u j.entry.peg .count 1 (some x.frame) x.cls x.seq).pegs ∧ t.graphs = s.graphs) ∧
  (∀ (ex : BitVec 32) (x : Instance) (j : JobRun) (g : Graph) (u : State) (s : State), s.power = .on → jobEnds s ex x j u → x.life = .active → exitsDone (doneJob x j.entry.index) = true → graphOf s x.slot = some g → g.unload = none → ∃ t, exec (.jobComplete ex) s = .next t ∧
      ((∀ y ∈ t.insts, y.id = x.id → y.life = .completed)) ∧ graphOf t x.slot = some { g with done := g.done + 1 } ∧ ((∀ no, x.cause = .pod no → PodDone t no x.status))) ∧
  (∀ (ex : BitVec 32) (x : Instance) (j : JobRun) (u : State) (s : State), s.power = .on → jobEnds s ex x j u → x.life ≠ .active → ∃ t, exec (.jobComplete ex) s = .next t ∧
      ((∀ y ∈ t.insts, y.id = x.id → ∀ r ∈ y.jobs, r.entry.index = j.entry.index → r.stage = .done)) ∧ t.pegs = (pegInc u j.entry.peg .count 1 (some x.frame) x.cls x.seq).pegs ∧ t.graphs = s.graphs) ∧
  (∀ (ex : BitVec 32) (s : State), s.power = .on → findExec s ex.toNat = none → ∃ t, exec (.jobComplete ex) s = .next t ∧
      rd t A.DSP_LATE_DISCARD = min (rd s A.DSP_LATE_DISCARD + 1) 0xFFFFFFFF ∧ t.insts = s.insts ∧ t.pegs = s.pegs) ∧
  (∀ (ex : BitVec 32) (x : Instance) (j : JobRun) (s : State), s.power = .on → findExec s ex.toNat = some (x, j) → jobAwake s j = true → x.life = .cut → (if j.entry.unit = 6 then encWaits s j.entry.result (64 + j.entry.descCount) = false else j.entry.descCount ≤ j.finished) → ∃ t, exec (.jobComplete ex) s = .next t ∧
      rd t A.DSP_LATE_DISCARD = min (rd s A.DSP_LATE_DISCARD + 1) 0xFFFFFFFF ∧ ((∀ y ∈ t.insts, y.id = x.id → ∀ r ∈ y.jobs, r.entry.index = j.entry.index → r.stage = .cancelled)) ∧ t.graphs = s.graphs) ∧
  (∀ (ex : BitVec 32) (x : Instance) (j : JobRun) (g : Graph) (s : State), s.power = .on → findExec s ex.toNat = some (x, j) → jobAwake s j = true → x.life = .active → j.entry.unit ≠ 6 → j.entry.descCount ≤ j.finished → pegUnconfigured s j.entry.peg = true → s.insts.find? (fun y => y.id == x.id) = some x → graphOf s x.slot = some g → g.unload = none → ∃ t, exec (.jobComplete ex) s = .next t ∧
      ((∀ y ∈ t.insts, y.id = x.id → y.life ≠ .active)) ∧ ((∀ no, x.cause = .pod no → PodDone t no St.PEG_UNCONFIGURED))) ∧
  (∀ (ex : BitVec 32) (x : Instance) (j : JobRun) (s : State), s.power = .on → findExec s ex.toNat = some (x, j) → (jobAwake s j = false ∨ (j.entry.unit = 6 ∧ encWaits s j.entry.result (64 + j.entry.descCount) = true) ∨ (j.entry.unit ≠ 6 ∧ j.finished < j.entry.descCount)) → ∃ t, exec (.jobComplete ex) s = .next t ∧
      t.insts = s.insts ∧ t.graphs = s.graphs ∧ (∀ a, rd t a = rd s a)) ∧
  (∀ (ex : BitVec 32) (x : Instance) (j : JobRun) (s : State), s.power = .on → findExec s ex.toNat = some (x, j) → jobAwake s j = true → j.firedAt + effTimeout j.entry ≤ s.ridge → j.retries < retryLimit s → (x.life = .active ∨ x.life = .completed) → ∃ t, exec (.jobTimeout ex) s = .next t ∧
      t.insts = jobChanged s.insts x.id j.entry.index (fun r => { r with stage := .retrying, issued := [], finished := 0 }) ∧ t.nextExec = s.nextExec ∧ rd t A.DSP_TIMEOUTS = min (rd s A.DSP_TIMEOUTS + 1) 0xFFFFFFFF ∧ bitN (evtFlags t 0x0E0) 1 = true ∧ (0x101, St.JOB_TIMEOUT) ∈ t.fc.inbox.map (fun r => (r.source, r.status))) ∧
  (∀ (ex : BitVec 32) (x : Instance) (j : JobRun) (g : Graph) (s : State), s.power = .on → findExec s ex.toNat = some (x, j) → jobAwake s j = true → j.firedAt + effTimeout j.entry ≤ s.ridge → retryLimit s ≤ j.retries → x.life = .active → s.insts.find? (fun y => y.id == x.id) = some x → graphOf s x.slot = some g → g.unload = none → ∃ t, exec (.jobTimeout ex) s = .next t ∧
      ((∀ y ∈ t.insts, y.id = x.id → y.life ≠ .active)) ∧ ((∀ no, x.cause = .pod no → PodDone t no St.JOB_TIMEOUT)) ∧ t.nextExec = s.nextExec ∧ rd t A.DSP_TIMEOUTS = min (rd s A.DSP_TIMEOUTS + 1) 0xFFFFFFFF ∧ bitN (evtFlags t 0x0E0) 1 = true) ∧
  (∀ (ex : BitVec 32) (x : Instance) (j : JobRun) (s : State), s.power = .on → findExec s ex.toNat = some (x, j) → jobAwake s j = true → j.firedAt + effTimeout j.entry ≤ s.ridge → (x.life = .failed ∨ x.life = .cut) → ∃ t, exec (.jobTimeout ex) s = .next t ∧
      ((∀ y ∈ t.insts, y.id = x.id → ∀ r ∈ y.jobs, r.entry.index = j.entry.index → r.stage = .cancelled)) ∧ rd t A.DSP_TIMEOUTS = min (rd s A.DSP_TIMEOUTS + 1) 0xFFFFFFFF ∧ bitN (evtFlags t 0x0E0) 1 = true) ∧
  (∀ (ex : BitVec 32) (s : State), s.power = .on → ((∀ x j, findExec s ex.toNat = some (x, j) → jobAwake s j = false ∨ s.ridge < j.firedAt + effTimeout j.entry)) → ∃ t, exec (.jobTimeout ex) s = .next t ∧
      t.insts = s.insts ∧ t.graphs = s.graphs ∧ (∀ a, rd t a = rd s a))

/-- O54. Frame groups, the recorder and re-execution. With ridge time locked an enable fixes a frame group's first
cycle, at least 1 ms ahead on its grid, or in a replay the recorded launches it follows; without it sets
RIDGE_UNLOCKED and leaves it off. A disable ends its cycles but those that run. A launch that is due makes its cycle
the current one and arms every graph bound to the group. A deadline ends the instances of the cycles it ends. The
recorder's modes take effect as R355 and R358 say. A replayed entry that is due takes effect by its kind and moves
the replay on, and the last one ends it. What failed is executed again: a job with a new execution sequence, an
array operation on the arrays R467 selects, an engine operation behind what its engine runs, a sequence command by
being issued again; what no longer counts is discarded, and a stalled core starts nothing. -/
def Obligations.FrameGroups : Prop :=
  (∀ (agent : Agent) (g : Fin 8) (n : Nat) (s : State), s.power = .on → takesEffect s agent (A.FG_CTL g.val) 1 = true → fgOn s g.val = false → ridgeLocked s = true → replaying s = false → n = ceilDiv (s.ridge + 1000000 - fgStart s g.val) (fgPeriod s g.val) → ∃ t, exec (.fgEnable agent g) s = .next t ∧
      fgOn t g.val = true ∧ fgOf t g.val = { first := n, cur := n, running := (fgOf s g.val).running } ∧ rd t (A.FG_FRAME g.val) = (rd s (A.FG_FRAME0 g.val) + n) % 4294967296 ∧ ((∀ a, a ≠ A.FG_CTL g.val → a ≠ A.FG_FRAME g.val → a ≠ A.COMP_STATUS → rd t a = rd s a))) ∧
  (∀ (agent : Agent) (g : Fin 8) (d : Int) (s : State), s.power = .on → takesEffect s agent (A.FG_CTL g.val) 1 = true → fgOn s g.val = false → ridgeLocked s = true → replaying s = true → s.rr.delta = some d → ∃ t, exec (.fgEnable agent g) s = .next t ∧
      fgOn t g.val = true ∧ fgOf t g.val = replayCycle (fgOf s g.val).running (recordedLaunches s d g.val (s.ridge + 1000000)) ∧ t.rr.delta = some d) ∧
  (∀ (agent : Agent) (g : Fin 8) (at_ kind aux : Nat) (b : List Byte) (s : State), s.power = .on → takesEffect s agent (A.FG_CTL g.val) 1 = true → fgOn s g.val = false → ridgeLocked s = true → replaying s = true → s.rr.delta = none → rrEntry s (rd s A.RR_START) = some (at_, kind, g.val, aux, b) → ∃ t, exec (.fgEnable agent g) s = .next t ∧
      fgOn t g.val = true ∧ t.rr.delta = some ((s.ridge : Int) + 1000000 - (at_ : Int)) ∧ fgOf t g.val = replayCycle (fgOf s g.val).running (recordedLaunches s ((s.ridge : Int) + 1000000 - (at_ : Int)) g.val (s.ridge + 1000000))) ∧
  (∀ (agent : Agent) (g : Fin 8) (s : State), s.power = .on → takesEffect s agent (A.FG_CTL g.val) 1 = true → fgOn s g.val = false → ridgeLocked s = false → ∃ t, exec (.fgEnable agent g) s = .next t ∧
      fgOn t g.val = false ∧ t.fgs = s.fgs ∧ bitN (evtFlags t 3) 0 = true) ∧
  (∀ (agent : Agent) (g : Fin 8) (s : State), s.power = .on → takesEffect s agent (A.FG_CTL g.val) 1 = true → fgOn s g.val = true → ∃ t, exec (.fgEnable agent g) s = .next t ∧
      t.fgs = s.fgs ∧ t.insts = s.insts ∧ (∀ a, rd t a = rd s a)) ∧
  (∀ (agent : Agent) (g : Fin 8) (s : State), s.power = .on → takesEffect s agent (A.FG_CTL g.val) 0 = true → fgOn s g.val = true → ∃ t, exec (.fgDisable agent g) s = .next t ∧
      fgOn t g.val = false ∧ fgOf t g.val = { running := (fgOf s g.val).running } ∧ rd t (A.FG_FRAME g.val) = 0 ∧ t.insts = s.insts) ∧
  (∀ (agent : Agent) (g : Fin 8) (s : State), s.power = .on → takesEffect s agent (A.FG_CTL g.val) 0 = true → fgOn s g.val = false → ∃ t, exec (.fgDisable agent g) s = .next t ∧
      t.fgs = s.fgs ∧ t.insts = s.insts ∧ (∀ a, rd t a = rd s a)) ∧
  (∀ (g : Fin 8) (l k : Nat) (s : State), s.power = .on → nextLaunch s g.val = some (l, k) → l ≤ s.ridge → ∃ t, exec (.cycleLaunch g) s = .next t ∧
      (fgOf t g.val).launched = true ∧ (fgOf t g.val).running.getLast? = some (l, k, (l + fgDeadline t g.val)) ∧ rd t (A.FG_FRAME g.val) = k % 4294967296 ∧ (t.insts.drop (t.insts.length - (boundGraphs t g.val).length)).map (fun x => (x.slot, x.frame)) = (boundGraphs t g.val).map (fun e => (e.1, k)) ∧ (t.insts.drop (t.insts.length - (boundGraphs t g.val).length)).map (fun x => (x.life, x.cycle, x.jobs)) = (boundGraphs t g.val).map (fun e => (.active, some (g.val, l, (l + fgDeadline t g.val)), e.2.jobs.map (fun d => { entry := d })))) ∧
  (∀ (g : Fin 8) (s : State), s.power = .on → nextLaunch s g.val = none → replayStops s g.val = true → ∃ t, exec (.cycleLaunch g) s = .next t ∧
      fgOn t g.val = false ∧ fgOf t g.val = { running := (fgOf s g.val).running } ∧ rd t (A.FG_FRAME g.val) = 0) ∧
  (∀ (g : Fin 8) (s : State), s.power = .on → ((∀ c, nextLaunch s g.val = some c → s.ridge < c.1)) → (nextLaunch s g.val = none → replayStops s g.val = false) → ∃ t, exec (.cycleLaunch g) s = .next t ∧
      t.fgs = s.fgs ∧ t.insts = s.insts ∧ (∀ a, rd t a = rd s a)) ∧
  (∀ (g : Fin 8) (s : State), s.power = .on → ∃ t, exec (.cycleDeadline g) s = .next t ∧
      (∀ c ∈ (fgOf t g.val).running, c ∈ (fgOf s g.val).running ∧ s.ridge < c.2.2) ∧ ((∀ r ∈ (fgOf s g.val).running, r.2.2 ≤ s.ridge → ∀ x ∈ t.insts, ∀ c, x.cycle = some c → c.1 = g.val → c.2.1 = r.1 → x.life ≠ .active))) ∧
  (∀ (g : Fin 8) (r : Nat × Nat × Nat) (s : State), s.power = .on → (fgOf s g.val).running.filter (fun c => decide (c.2.2 ≤ s.ridge)) = [r] → s.insts.any (fun x => x.life == .active && x.cycle.any (fun c => c.1 == g.val && c.2.1 == r.1)) = true → ∃ t, exec (.cycleDeadline g) s = .next t ∧
      rd t (A.FG_MISSED g.val) = min (rd s (A.FG_MISSED g.val) + 1) 0xFFFFFFFF ∧ bitN (evtFlags t 3) 1 = true ∧ bitN (evtFlags t 0x0E0) 2 = true) ∧
  (∀ (agent : Agent) (v : Word) (s : State), s.power = .on → takesEffect s agent A.RR_CTL (rrFields v.toNat + 1) = true → rrMode s ≠ 1 → ∃ t, exec (.rrRecord agent v) s = .next t ∧
      rrMode t = 1 ∧ t.rr = {} ∧ rd t A.RR_HEAD = 0 ∧ rd t A.RR_OLDEST = 0 ∧ t.mem = s.mem) ∧
  (∀ (agent : Agent) (v : Word) (s : State), s.power = .on → takesEffect s agent A.RR_CTL (rrFields v.toNat + 1) = true → rrMode s = 1 → ∃ t, exec (.rrRecord agent v) s = .next t ∧
      rrMode t = 1 ∧ t.rr.kept = s.rr.kept ∧ t.rr.nextSeq = s.rr.nextSeq ∧ rd t A.RR_HEAD = rd s A.RR_HEAD ∧ rd t A.RR_OLDEST = rd s A.RR_OLDEST ∧ t.mem = s.mem) ∧
  (∀ (agent : Agent) (v : Word) (s : State), s.power = .on → takesEffect s agent A.RR_CTL (rrFields v.toNat + 2) = true → ((rrEntry s (rd s A.RR_START)).map (fun e => e.2.1) = some 5 ∧ rd s A.RR_START < rrUnits s ∧ strict s = true ∧ ∀ g < 8, fgOn s g = false) → ∃ t, exec (.rrReplay agent v) s = .next t ∧
      rrMode t = 2 ∧ t.rr = { s.rr with delta := none, pos := rd s A.RR_START, ended := false, voids := [], post := none } ∧ t.fgs = s.fgs) ∧
  (∀ (agent : Agent) (v : Word) (s : State), s.power = .on → takesEffect s agent A.RR_CTL (rrFields v.toNat + 2) = true → ¬((rrEntry s (rd s A.RR_START)).map (fun e => e.2.1) = some 5 ∧ rd s A.RR_START < rrUnits s ∧ strict s = true ∧ ∀ g < 8, fgOn s g = false) → ∃ t, exec (.rrReplay agent v) s = .next t ∧
      rrMode t = rrMode s ∧ t.rr = s.rr ∧ bitN (evtFlags t 2) 5 = true ∧ t.fgs = s.fgs) ∧
  (∀ (agent : Agent) (v : Word) (s : State), s.power = .on → takesEffect s agent A.RR_CTL (rrFields v.toNat) = true → s.rr.delta = none → ∃ t, exec (.rrOff agent v) s = .next t ∧
      rrMode t = 0 ∧ t.rr = { s.rr with delta := none, ended := false, voids := [] } ∧ t.fgs = s.fgs ∧ t.mem = s.mem) ∧
  (∀ (agent : Agent) (v : Word) (d : Int) (s : State), s.power = .on → takesEffect s agent A.RR_CTL (rrFields v.toNat) = true → s.rr.delta = some d → ∃ t, exec (.rrOff agent v) s = .next t ∧
      rrMode t = 0 ∧ t.rr = { s.rr with delta := none, ended := false, voids := [] } ∧ ((∀ g < 8, fgOn s g = true → (fgOf t g).cycle = none ∧ (fgOf t g).running = (fgOf s g).running ∧ (fgOf t g).first = ceilDiv (s.ridge + 1000000 - fgStart s g) (fgPeriod s g))) ∧ t.mem = s.mem) ∧
  (∀ (d : Int) (at_ src aux : Nat) (b : List Byte) (s : State), s.power = .on → entryDue s d at_ 1 src aux b → ∃ t, exec .replayEntry s = .next t ∧
      t.rr.pos = entryNext s b ∧ t.streams = (tsfDeliver s src (moveEntry d 1 b)).streams ∧ t.sensors = (tsfDeliver s src (moveEntry d 1 b)).sensors) ∧
  (∀ (d : Int) (at_ src aux : Nat) (b : List Byte) (s : State), s.power = .on → entryDue s d at_ 2 src aux b → ∃ t, exec .replayEntry s = .next t ∧
      t.rr.pos = entryNext s b ∧ t.pods = (podAdmit s src (moveEntry d 2 b)).pods) ∧
  (∀ (d : Int) (at_ aux : Nat) (b : List Byte) (s : State), s.power = .on → entryDue s d at_ 3 0 aux b → ∃ t, exec .replayEntry s = .next t ∧
      t.rr.pos = entryNext s b ∧ t.mem = (busWrite s .host aux b).2.mem ∧ t.pegs = (busWrite s .host aux b).2.pegs) ∧
  (∀ (d : Int) (at_ src aux : Nat) (b : List Byte) (s : State), s.power = .on → entryDue s d at_ 4 src aux b → entryNext s b ≠ rd s A.RR_HEAD → ∃ t, exec .replayEntry s = .next t ∧
      t.rr.pos = entryNext s b ∧ t.rr.voids = s.rr.voids ++ [(src, aux % 256, aux / 4294967296)]) ∧
  (∀ (d : Int) (at_ src aux : Nat) (b : List Byte) (s : State), s.power = .on → entryDue s d at_ 4 src aux b → entryNext s b = rd s A.RR_HEAD → replaying s = true → (∀ g < 8, fgOn s g = false) → ∃ t, exec .replayEntry s = .next t ∧
      rrMode t = 0 ∧ t.rr.delta = none ∧ t.rr.voids = [] ∧ bitN (evtFlags t 2) 3 = true) ∧
  (∀ (d : Int) (g : Fin 8) (s : State), s.power = .on → s.rr.delta = some d → s.rr.ended = false → rrEntry s s.rr.pos = none → fgOn s g.val = true → ∃ t, exec .replayEntry s = .next t ∧
      t.rr.ended = true ∧ t.rr.pos = s.rr.pos ∧ t.rr.delta = some d) ∧
  (∀ (s : State), s.power = .on → ((∀ d, s.rr.delta = some d → s.rr.ended = true ∨ ∃ e, rrEntry s s.rr.pos = some e ∧ ((s.ridge : Int) < (e.1 : Int) + d ∨ (e.2.1 = 3 ∧ encWaits s e.2.2.2.1 e.2.2.2.2.length = true)))) → ∃ t, exec .replayEntry s = .next t ∧
      t.rr = s.rr ∧ t.mem = s.mem ∧ (∀ a, rd t a = rd s a)) ∧
  (∀ (inst job : Nat) (x : Instance) (j : JobRun) (s : State), s.power = .on → s.insts.find? (fun x => x.id == inst) = some x → x.jobs.find? (fun j => j.entry.index == job && j.stage == .retrying) = some j → coreStalled s 2 = false → ∃ t, exec (.reexecutionStart (.job inst job)) s = .next t ∧
      t.insts = jobFired s (s.insts.map (fun y => if y.id = inst then { y with flags := y.flags ||| 64 } else y)) inst job (firedJob s x j (j.retries + 1)) ∧ t.nextExec = (s.nextExec + 1) % 4294967296) ∧
  (∀ (id st : Nat) (op o2 : Op) (l : List Nat) (u v w : State) (s : State), s.power = .on → opOf s id = some op → op.stage = .failed st → coreStalled s (3 + op.cluster) = false → opLive s op = true → op.unit < 4 → (if op.partner.isSome then 2 else 1) ≤ (List.range 4).countP (fun a => !unitFenced s op.cluster a) → streamFits s op = true → reexecArrays s op (if op.partner.isSome then 2 else 1) = some l → o2 = { op with unit := l.getD 0 0, partner := if op.partner.isSome then l[1]? else none, stage := .waiting, issueUnits := op.issueUnits ++ l, retries := op.retries + 1, startedAt := s.ridge } → u = jobFlags (updOp s op.id (fun o => { o with unit := l.getD 0 0, partner := if op.partner.isSome then l[1]? else none, stage := .waiting, issueUnits := o.issueUnits ++ l, retries := o.retries + 1, startedAt := s.ridge })) op.exec 64 → opBlocked u o2 = false → opWaits u o2 (arrOperands (parseArr op.desc)) = false → opResolve u o2 (arrOperands (parseArr op.desc)) = (0, v) → startBlock v id = (0, w) → ∃ t, exec (.reexecutionStart (.op id)) s = .next t ∧
      (opOf t id).map (fun o => (o.unit, o.partner, o.retries)) = some (l.getD 0 0, (if op.partner.isSome then l[1]? else none), op.retries + 1) ∧ (opOf t id).map (fun o => (o.stage, o.desc)) = some (.running, op.desc) ∧ t.mem = w.mem) ∧
  (∀ (id st : Nat) (op : Op) (s : State), s.power = .on → opOf s id = some op → op.stage = .failed st → coreStalled s (3 + op.cluster) = false → opLive s op = true → 4 ≤ op.unit → unitFenced s op.cluster op.unit = false → (∃ o ∈ s.ops, o.id ≠ op.id ∧ o.cluster = op.cluster ∧ o.unit = op.unit ∧ o.stage ≠ .queued) → ∃ t, exec (.reexecutionStart (.op id)) s = .next t ∧
      t.ops = s.ops.map (fun o => if o.id = op.id then { o with stage := .queued, retries := o.retries + 1 } else o) ∧ t.mem = s.mem) ∧
  (∀ (id st : Nat) (op : Op) (s : State), s.power = .on → opOf s id = some op → op.stage = .failed st → coreStalled s (3 + op.cluster) = false → opLive s op = false → ∃ t, exec (.reexecutionStart (.op id)) s = .next t ∧
      opOf t id = none ∧ rd t A.DSP_LATE_DISCARD = min (rd s A.DSP_LATE_DISCARD + 1) 0xFFFFFFFF ∧ t.insts = s.insts ∧ t.mem = s.mem) ∧
  (∀ (id st : Nat) (c c1 : SeqCmd) (e : SeqEntry) (x k i j : Nat) (u v w : State) (s : State), s.power = .on → s.seq.failed.find? (fun c => c.1.id == id) = some (c, st) → c.issuer = .job x k i j → u = jobFlags (setSeq s (fun q => { q with failed := q.failed.filter (fun d => d.1.id != id) })) x 64 → c1 = { c with stage := .running, acceptedAt := s.ridge, retries := c.retries + 1, picks := [], flags := 0 } → seqValidate u c.bytes c.cls (seqEcho u c1) false = (0, e, v) → seqAct (cmdOp c) v c1 (parseSeq c.bytes) e = w → ∃ t, exec (.reexecutionStart (.seq id)) s = .next t ∧
      t.seq = w.seq ∧ t.mem = w.mem ∧ t.insts = w.insts ∧ t.pods = w.pods) ∧
  (∀ (r : Reexec) (s : State), s.power = .on → (match r with | .job inst job => coreStalled s 2 = true ∨ (∀ x, s.insts.find? (fun x => x.id == inst) = some x → x.jobs.find? (fun j => j.entry.index == job && j.stage == .retrying) = none) | .op id => (∀ op, opOf s id = some op → coreStalled s (3 + op.cluster) = true ∨ ∀ st, op.stage ≠ .failed st) | .seq id => s.seq.failed.find? (fun c => c.1.id == id) = none) → ∃ t, exec (.reexecutionStart r) s = .next t ∧
      t.ops = s.ops ∧ t.insts = s.insts ∧ t.seq = s.seq ∧ (∀ a, rd t a = rd s a))

/-- O55. DRAM beside its accesses. A refresh changes nothing; a temperature sample leaves every channel's temperatures,
its refresh rate and the hottest temperature, and its thresholds act as R385 says; a second of a channel ends its
count of corrections, and reports it beyond CH_CE_LIMIT only; at the end of a scrub period a pass begins anew, one
that is not finished is counted and flagged, one whose codewords are read by then counts as a pass, and before the
end nothing happens; CH_INJECT takes its field. Enabling a region whose ranges may be used draws a key and starts
its zero-fill, an unusable one sets CONFIG_REJECTED, and of an enabled region, or where no key can be drawn, it
changes nothing; the end of the fill leaves every byte of the region zero with write counters of zero and sets
ready; disabling a ready region leaves its ciphertext, and disabling any leaves what lies outside it as it was. What
memory holds is said for where no write waits for a fill. -/
def Obligations.DramCommands : Prop :=
  (∀ (ch : Fin 16) (s : State), s.power = .on → ∃ t, exec (.dramRefresh ch) s = .next t ∧
      t = { s with flagged := [] }) ∧
  (∀ (temps : Vector (BitVec 16) 20) (s : State), s.power = .on → ∃ t, exec (.dramTempSample temps) s = .next t ∧
      ((∀ ch, ch < 16 → rd t (A.CH_TEMP ch) = (temps.toList.map (·.toNat)).getD ch 0 + 65536 * (temps.toList.map (·.toNat)).getD (16 + ch / 4) 0)) ∧ ((∀ ch, ch < 16 → rdB t (A.CH_STATUS ch) 1 = (if 170 ≤ max (sgn 16 ((temps.toList.map (·.toNat)).getD ch 0)) (sgn 16 ((temps.toList.map (·.toNat)).getD (16 + ch / 4) 0)) then true else if max (sgn 16 ((temps.toList.map (·.toNat)).getD ch 0)) (sgn 16 ((temps.toList.map (·.toNat)).getD (16 + ch / 4) 0)) < 164 then false else rdB s (A.CH_STATUS ch) 1))) ∧ ((∀ i, i < 20 → sgn 16 ((temps.toList.map (·.toNat)).getD i 0) ≤ dramMax t)) ∧ sgn 16 ((temps.toList.map (·.toNat)).getD (rdF t A.MEM_TEMP_MAX 20 16) 0) = dramMax t ∧ ((dramMax s < dramHotAt s → dramHotAt s ≤ dramMax t → bitN (evtFlags t 0x260) 1 = true)) ∧ ((190 ≤ dramMax t → levelActive t 0x131 = true ∧ (dramMax s < 190 → bitN (evtFlags t 0x260) 2 = true) ∧ (levelActive s 0x131 = false → (0x131, St.DRAM_OVERTEMP) ∈ t.fc.inbox.map (fun r => (r.source, r.status))))) ∧ ((200 ≤ dramMax t → levelActive t 0x132 = true ∧ (dramMax s < 200 → bitN (evtFlags t 0x260) 3 = true) ∧ (levelActive s 0x132 = false → (0x132, St.DRAM_CRITICAL) ∈ t.fc.inbox.map (fun r => (r.source, r.status))))) ∧ ((dramMax t < 190 → t.fc = s.fc)) ∧ ((∀ a, (∀ ch, ch < 16 → a ≠ A.CH_TEMP ch ∧ a ≠ A.CH_STATUS ch ∧ ¬eventAddr (0x240 + ch) a) → a ≠ A.MEM_TEMP_MAX → ¬eventAddr 0x260 a → a ≠ A.FC_SRC_CFG 0x131 → a ≠ A.FC_SRC_CFG 0x132 → rd t a = rd s a))) ∧
  (∀ (ch : Fin 16) (s : State), s.power = .on → ∃ t, exec (.dramCeRate ch) s = .next t ∧
      smGet (fun _ => 0) t.corrections ch.val = 0 ∧ ((∀ k, k ≠ ch.val → smGet (fun _ => 0) t.corrections k = smGet (fun _ => 0) s.corrections k)) ∧ ((rdF s (A.CH_CE_LIMIT ch.val) 15 0 < smGet (fun _ => 0) s.corrections ch.val → levelActive t (0x120 + ch.val) = true ∧ bitN (evtFlags t (0x240 + ch.val)) 2 = true ∧ (0x120 + ch.val, St.DRAM_CE_RATE) ∈ t.fc.inbox.map (fun r => (r.source, r.status)) ∧ ∀ a, a ≠ A.FC_SRC_CFG (0x120 + ch.val) → ¬eventAddr (0x240 + ch.val) a → rd t a = rd s a)) ∧ ((smGet (fun _ => 0) s.corrections ch.val ≤ rdF s (A.CH_CE_LIMIT ch.val) 15 0 → t.fc = s.fc ∧ ∀ a, rd t a = rd s a))) ∧
  (∀ (s : State), s.power = .on → scrubOn s 4 = true → (scrubOf s 4).started = true → (scrubOf s 4).startAt + 3600000000000 * rdF s A.MEM_SCRUB_CFG 7 0 ≤ s.ridge → ∃ t, exec (.dramScrubPass false) s = .next t ∧
      scrubOf t 4 = { started := true, startAt := s.ridge, done := 0 } ∧ rd t A.MEM_SCRUB_LAG = (if (scrubOf s 4).done < (scrubSpan 4).2.2 then min (rd s A.MEM_SCRUB_LAG + 1) 0xFFFFFFFF else rd s A.MEM_SCRUB_LAG) ∧ (((scrubOf s 4).done < (scrubSpan 4).2.2 → bitN (evtFlags t 0x260) 0 = true)) ∧ (∀ a, a ≠ A.MEM_SCRUB_LAG → ¬eventAddr 0x260 a → rd t a = rd s a)) ∧
  (∀ (s : State), s.power = .on → scrubOn s 4 = true → (scrubOf s 4).started = true → (scrubOf s 4).startAt + 3600000000000 * rdF s A.MEM_SCRUB_CFG 7 0 ≤ s.ridge → ∃ t, exec (.dramScrubPass true) s = .next t ∧
      scrubOf t 4 = { started := true, startAt := s.ridge, done := 0 } ∧ rd t A.MEM_SCRUB_LAG = rd s A.MEM_SCRUB_LAG ∧ rd t A.MEM_SCRUB_PASSES = (rd s A.MEM_SCRUB_PASSES + (if (scrubOf s 4).done < (scrubSpan 4).2.2 then 1 else 0)) % 4294967296 ∧ t.mem = s.mem) ∧
  (∀ (complete : Bool) (s : State), s.power = .on → (scrubOn s 4 = false ∨ (scrubOf s 4).started = false ∨ s.ridge < (scrubOf s 4).startAt + 3600000000000 * rdF s A.MEM_SCRUB_CFG 7 0) → ∃ t, exec (.dramScrubPass complete) s = .next t ∧
      t.scrubs = s.scrubs ∧ (∀ a, rd t a = rd s a)) ∧
  (∀ (agent : Agent) (ch : Fin 16) (v : Word) (s : State), s.power = .on → takesEffect s agent (A.CH_INJECT ch.val) v.toNat = true → ∃ t, exec (.chInject agent ch v) s = .next t ∧
      rd t (A.CH_INJECT ch.val) % 4 = v.toNat % 4 ∧ (∀ a, a ≠ A.CH_INJECT ch.val → rd t a = rd s a)) ∧
  (∀ (agent : Agent) (r : Fin 16) (v : Word) (s : State), s.power = .on → takesEffect s agent (A.ENC_CTL r.val) (setFldN v.toNat 0 0 1) = true → encOn s r.val = false → trngFailed s = false → s.sec.keysStopped = false → encConfigOk s r.val = true → ∃ t, exec (.encRegionEnable agent r v) s = .next t ∧
      encOn t r.val = true ∧ rd t (A.ENC_STATUS r.val) = 2 ∧ (keySlot t (fldN v.toNat 4 1)).valid = true ∧ (keySlot t (fldN v.toNat 4 1)).imported = false ∧ ((∀ k, k ≠ fldN v.toNat 4 1 → keySlot t k = keySlot s k)) ∧ t.mem = s.mem ∧ (∀ a, a ≠ A.ENC_CTL r.val → a ≠ A.ENC_STATUS r.val → a ≠ A.SEC_KEY_SLOTS → ¬eventAddr 0x261 a → rd t a = rd s a)) ∧
  (∀ (agent : Agent) (r : Fin 16) (v : Word) (s : State), s.power = .on → takesEffect s agent (A.ENC_CTL r.val) (setFldN v.toNat 0 0 1) = true → encOn s r.val = false → trngFailed s = false → s.sec.keysStopped = false → encConfigOk s r.val = false → ∃ t, exec (.encRegionEnable agent r v) s = .next t ∧
      encOn t r.val = false ∧ rd t (A.ENC_STATUS r.val) = rd s (A.ENC_STATUS r.val) ∧ bitN (evtFlags t 0x261) 1 = true ∧ t.keySlots = s.keySlots ∧ t.mem = s.mem ∧ (∀ a, a ≠ A.ENC_CTL r.val → ¬eventAddr 0x261 a → rd t a = rd s a)) ∧
  (∀ (agent : Agent) (r : Fin 16) (v : Word) (s : State), s.power = .on → takesEffect s agent (A.ENC_CTL r.val) (setFldN v.toNat 0 0 1) = true → (encOn s r.val = true ∨ trngFailed s = true ∨ s.sec.keysStopped = true) → ∃ t, exec (.encRegionEnable agent r v) s = .next t ∧
      t.keySlots = s.keySlots ∧ t.mem = s.mem ∧ (∀ a, rd t a = rd s a)) ∧
  (∀ (r : Fin 16) (s : State), s.power = .on → encOn s r.val = true → rdB s (A.ENC_STATUS r.val) 1 = true → ∃ t, exec (.encRegionReady r) s = .next t ∧
      rd t (A.ENC_STATUS r.val) = 1 ∧ ((s.encQ = [] → encConfigOk s r.val = true → ∀ a, encBase s r.val ≤ a → a < encBase s r.val + encSize s r.val → memByte t a = 0)) ∧ ((s.encQ = [] → encConfigOk s r.val = true → ∀ i, i < encSize s r.val / 1024 → granuleCounter t r.val i = 0)) ∧ ((s.encQ = [] → ∀ a, (a < encBase s r.val ∨ encBase s r.val + encSize s r.val ≤ a) → (a < encMeta s r.val ∨ encMeta s r.val + encSize s r.val / 32 ≤ a) → memByte t a = memByte s a))) ∧
  (∀ (r : Fin 16) (s : State), s.power = .on → (encOn s r.val = false ∨ rdB s (A.ENC_STATUS r.val) 1 = false) → ∃ t, exec (.encRegionReady r) s = .next t ∧
      t.mem = s.mem ∧ (∀ a, rd t a = rd s a)) ∧
  (∀ (agent : Agent) (r : Fin 16) (v : Word) (s : State), s.power = .on → takesEffect s agent (A.ENC_CTL r.val) (setFldN v.toNat 0 0 0) = true → encOn s r.val = true → rdB s (A.ENC_STATUS r.val) 0 = true → ∃ t, exec (.encRegionDisable agent r v) s = .next t ∧
      encOn t r.val = false ∧ rd t (A.ENC_STATUS r.val) = 0 ∧ t.keySlots = s.keySlots ∧ ((s.encQ = [] → ∀ a, (a < encBase s r.val ∨ encBase s r.val + encSize s r.val ≤ a) → memByte t a = memByte s a)) ∧ ((s.encQ = [] → encConfigOk s r.val = true → ∀ i, i < encSize s r.val / 1024 → memBytes t (granuleAddr s r.val i) 1024 = padTo 1024 (Config.gcmCipher (encKey s r.val) (encIv r.val i (granuleCounter s r.val i)) (memBytes s (granuleAddr s r.val i) 1024))))) ∧
  (∀ (agent : Agent) (r : Fin 16) (v : Word) (s : State), s.power = .on → takesEffect s agent (A.ENC_CTL r.val) (setFldN v.toNat 0 0 0) = true → encOn s r.val = true → rdB s (A.ENC_STATUS r.val) 0 = false → ∃ t, exec (.encRegionDisable agent r v) s = .next t ∧
      encOn t r.val = false ∧ rd t (A.ENC_STATUS r.val) = 0 ∧ t.keySlots = s.keySlots ∧ ((s.encQ = [] → ∀ a, (a < encBase s r.val ∨ encBase s r.val + encSize s r.val ≤ a) → (a < encMeta s r.val ∨ encMeta s r.val + encSize s r.val / 32 ≤ a) → memByte t a = memByte s a))) ∧
  (∀ (agent : Agent) (r : Fin 16) (v : Word) (s : State), s.power = .on → takesEffect s agent (A.ENC_CTL r.val) (setFldN v.toNat 0 0 0) = true → encOn s r.val = false → ∃ t, exec (.encRegionDisable agent r v) s = .next t ∧
      encOn t r.val = false ∧ t.keySlots = s.keySlots ∧ t.mem = s.mem ∧ (∀ a, a ≠ A.ENC_CTL r.val → ¬eventAddr 0x261 a → rd t a = rd s a))

/-- O56. Links and lanes. A bad flit, or one ahead of a lost flit, is answered with a nak, once; an idle flit's ack, nak
and credit are taken; a data flit in order whose tag holds is counted and acknowledged, a whole packet in it is kept
for its command, forwarded, or discarded for its CRC, and one whose tag fails takes the link down; an older flit is
acknowledged again; flits at a link that is down do nothing. An ack timeout replays what is not acknowledged, up to
eight times; a retry failure takes the link down. A training that ends brings up a link to the expected, verified
peer, and refuses a peer that is not verified, not expected or has the device's own ring id. The next packet that
has credit is sent in flits, or discarded for its age; routes switch to their alternates and return. A lane without
light shuts its group and takes its link down; light on every lane of it ends that; a group in shutdown probes for 2
ms an interval; a laser fault cuts its lane until reset. Where a command finds nothing due, nothing happens. -/
def Obligations.Links : Prop :=
  (∀ (p : Fin 3) (b : List Byte) (bad : Bool) (jobs : List (BitVec 32)) (s : State), s.power = .on → glUp s p.val = true → (bad || b.length != 256 || crc32c (b.take 252) != leAt b 252 4) = true → (glOf s p.val).nak = false → ∃ t, exec (.guylineFlitReceive p b bad jobs) s = .next t ∧
      t.glOut = s.glOut ++ [(p.val, flitBytes s p.val (((glOf s p.val).txSeq + 4095) % 4096) 1 true (zeros 224))] ∧ (glOf t p.val) = { (glOf s p.val) with owed := (creditField (glOf s p.val).owed).2, nak := true } ∧ (∀ a, rd t a = rd s a)) ∧
  (∀ (p : Fin 3) (b : List Byte) (bad : Bool) (jobs : List (BitVec 32)) (s : State), s.power = .on → glUp s p.val = true → (bad || b.length != 256 || crc32c (b.take 252) != leAt b 252 4) = false → leAt b 0 2 / 4096 = 0 → ¬(leAt b 0 2 % 4096 = ((glOf s p.val).rxSeq + 1) % 4096) → 512 ≤ ((glOf s p.val).rxSeq + 4096 - leAt b 0 2 % 4096) % 4096 → (glOf s p.val).nak = false → ∃ t, exec (.guylineFlitReceive p b bad jobs) s = .next t ∧
      t.glOut = s.glOut ++ [(p.val, flitBytes s p.val (((glOf s p.val).txSeq + 4095) % 4096) 1 true (zeros 224))] ∧ (glOf t p.val) = { (glOf s p.val) with owed := (creditField (glOf s p.val).owed).2, nak := true } ∧ (∀ a, rd t a = rd s a)) ∧
  (∀ (p : Fin 3) (b : List Byte) (bad : Bool) (jobs : List (BitVec 32)) (s : State), s.power = .on → glUp s p.val = true → (bad || b.length != 256 || crc32c (b.take 252) != leAt b 252 4) = false → leAt b 0 2 / 4096 = 0 → ¬(leAt b 0 2 % 4096 = ((glOf s p.val).rxSeq + 1) % 4096) → ((glOf s p.val).rxSeq + 4096 - leAt b 0 2 % 4096) % 4096 < 512 → (glOf s p.val).rxSeq < 4096 → bitN (leAt b 6 1) 0 = false → (glOf s p.val).nak = false → ∃ t, exec (.guylineFlitReceive p b bad jobs) s = .next t ∧
      t.glOut.map (fun f : Nat × List Byte => (f.1, leAt f.2 2 2 % 4096)) = s.glOut.map (fun f : Nat × List Byte => (f.1, leAt f.2 2 2 % 4096)) ++ [(p.val, (glOf s p.val).rxSeq)] ∧ (glOf t p.val).rxSeq = (glOf s p.val).rxSeq ∧ (glOf t p.val).rxFlits = (glOf s p.val).rxFlits ∧ (glOf t p.val).rxq = (glOf s p.val).rxq ∧ (glOf t p.val).retry = (if ((glOf s p.val).retry.any (fun f => f.1 == leAt b 2 2 % 4096)) = true then (((glOf s p.val).retry.dropWhile (fun f => f.1 != leAt b 2 2 % 4096)).drop 1) else (glOf s p.val).retry) ∧ ((((glOf s p.val).retry.any (fun f => f.1 == leAt b 2 2 % 4096)) = true → (glOf t p.val).retries = 0 ∧ (glOf t p.val).failAt = none ∧ (glOf t p.val).ackAt = s.ridge)) ∧ t.outWrites = (if ((glOf s p.val).retry.any (fun f => f.1 == leAt b 2 2 % 4096)) = true then s.outWrites.filter (fun w => !(((glOf s p.val).ending.filter (fun e => !(((glOf s p.val).retry.dropWhile (fun f => f.1 != leAt b 2 2 % 4096)).drop 1).any (fun f => f.1 == e.1))).map (·.2)).contains w.id) else s.outWrites)) ∧
  (∀ (p : Fin 3) (b : List Byte) (bad : Bool) (jobs : List (BitVec 32)) (s : State), s.power = .on → (glUp s p.val = false ∨ ((bad || b.length != 256 || crc32c (b.take 252) != leAt b 252 4) = true ∧ (glOf s p.val).nak = true) ∨ ((bad || b.length != 256 || crc32c (b.take 252) != leAt b 252 4) = false ∧ 1 < leAt b 0 2 / 4096) ∨ ((bad || b.length != 256 || crc32c (b.take 252) != leAt b 252 4) = false ∧ leAt b 0 2 / 4096 = 0 ∧ ¬(leAt b 0 2 % 4096 = ((glOf s p.val).rxSeq + 1) % 4096) ∧ (glOf s p.val).nak = true)) → ∃ t, exec (.guylineFlitReceive p b bad jobs) s = .next t ∧
      t.gl = s.gl ∧ t.glOut = s.glOut ∧ (∀ a, rd t a = rd s a)) ∧
  (∀ (p : Fin 3) (b : List Byte) (bad : Bool) (jobs : List (BitVec 32)) (s : State), s.power = .on → glUp s p.val = true → (bad || b.length != 256 || crc32c (b.take 252) != leAt b 252 4) = false → leAt b 0 2 / 4096 = 1 → bitN (leAt b 6 1) 0 = false → ∃ t, exec (.guylineFlitReceive p b bad jobs) s = .next t ∧
      t.glOut = s.glOut ∧ (glOf t p.val).retry = (if ((glOf s p.val).retry.any (fun f => f.1 == leAt b 2 2 % 4096)) = true then (((glOf s p.val).retry.dropWhile (fun f => f.1 != leAt b 2 2 % 4096)).drop 1) else (glOf s p.val).retry) ∧ ((((glOf s p.val).retry.any (fun f => f.1 == leAt b 2 2 % 4096)) = true → (glOf t p.val).retries = 0 ∧ (glOf t p.val).failAt = none ∧ (glOf t p.val).ackAt = s.ridge)) ∧ t.outWrites = (if ((glOf s p.val).retry.any (fun f => f.1 == leAt b 2 2 % 4096)) = true then s.outWrites.filter (fun w => !(((glOf s p.val).ending.filter (fun e => !(((glOf s p.val).retry.dropWhile (fun f => f.1 != leAt b 2 2 % 4096)).drop 1).any (fun f => f.1 == e.1))).map (·.2)).contains w.id) else s.outWrites) ∧ (∀ c, creditOf t p.val c = if leAt b 4 2 % 8 = c ∧ c < 6 then creditOf s p.val c + fldN (leAt b 4 2) 15 3 else creditOf s p.val c) ∧ rdF t (A.GL_STATUS p.val) 7 4 = leAt b 2 2 / 4096) ∧
  (∀ (p : Fin 3) (b : List Byte) (bad : Bool) (jobs : List (BitVec 32)) (rest : List (Nat × List Byte)) (s : State), s.power = .on → glUp s p.val = true → (bad || b.length != 256 || crc32c (b.take 252) != leAt b 252 4) = false → leAt b 0 2 / 4096 = 1 → bitN (leAt b 6 1) 0 = true → rest = (if ((glOf s p.val).retry.any (fun f => f.1 == leAt b 2 2 % 4096)) = true then (((glOf s p.val).retry.dropWhile (fun f => f.1 != leAt b 2 2 % 4096)).drop 1) else (glOf s p.val).retry) → rest ≠ [] → (((glOf s p.val).retry.any (fun f => f.1 == leAt b 2 2 % 4096)) = true ∨ (glOf s p.val).retries < 8) → ∃ t, exec (.guylineFlitReceive p b bad jobs) s = .next t ∧
      t.glOut = s.glOut ++ rest.map (fun f => (p.val, f.2)) ∧ (glOf t p.val).retry = rest ∧ (glOf t p.val).retries = (if ((glOf s p.val).retry.any (fun f => f.1 == leAt b 2 2 % 4096)) = true then 0 else (glOf s p.val).retries) + 1 ∧ rd t (A.GL_RETRIES p.val) = (rd s (A.GL_RETRIES p.val) + 1) % 4294967296) ∧
  (∀ (p : Fin 3) (b : List Byte) (bad : Bool) (jobs : List (BitVec 32)) (s : State), s.power = .on → glUp s p.val = true → (bad || b.length != 256 || crc32c (b.take 252) != leAt b 252 4) = false → leAt b 0 2 / 4096 = 0 → leAt b 0 2 % 4096 = ((glOf s p.val).rxSeq + 1) % 4096 → flitHolds s p.val b = true → bitN (leAt b 6 1) 0 = false → ∃ t, exec (.guylineFlitReceive p b bad jobs) s = .next t ∧
      (glOf t p.val).rxSeq = leAt b 0 2 % 4096 ∧ (glOf t p.val).rxFlits = (glOf s p.val).rxFlits + 1 ∧ (glOf t p.val).nak = false ∧ t.glOut.map (fun f : Nat × List Byte => (f.1, leAt f.2 2 2 % 4096)) = s.glOut.map (fun f : Nat × List Byte => (f.1, leAt f.2 2 2 % 4096)) ++ [(p.val, leAt b 0 2 % 4096)] ∧ (glOf t p.val).retry = (if ((glOf s p.val).retry.any (fun f => f.1 == leAt b 2 2 % 4096)) = true then (((glOf s p.val).retry.dropWhile (fun f => f.1 != leAt b 2 2 % 4096)).drop 1) else (glOf s p.val).retry) ∧ ((((glOf s p.val).retry.any (fun f => f.1 == leAt b 2 2 % 4096)) = true → (glOf t p.val).retries = 0 ∧ (glOf t p.val).failAt = none ∧ (glOf t p.val).ackAt = s.ridge)) ∧ t.outWrites = (if ((glOf s p.val).retry.any (fun f => f.1 == leAt b 2 2 % 4096)) = true then s.outWrites.filter (fun w => !(((glOf s p.val).ending.filter (fun e => !(((glOf s p.val).retry.dropWhile (fun f => f.1 != leAt b 2 2 % 4096)).drop 1).any (fun f => f.1 == e.1))).map (·.2)).contains w.id) else s.outWrites)) ∧
  (∀ (p : Fin 3) (b : List Byte) (bad : Bool) (jobs : List (BitVec 32)) (y : List Byte) (k : Packet) (s : State), s.power = .on → glUp s p.val = true → (bad || b.length != 256 || crc32c (b.take 252) != leAt b 252 4) = false → leAt b 0 2 / 4096 = 0 → leAt b 0 2 % 4096 = ((glOf s p.val).rxSeq + 1) % 4096 → flitHolds s p.val b = true → (glOf s p.val).rxBytes = [] → y = flitPlain s p.val b → 1 ≤ leAt y 0 1 % 16 → leAt y 0 1 % 16 ≤ 8 → (48 + roundUp (payloadLen y) 16) ≤ 224 → y.drop (48 + roundUp (payloadLen y) 16) = zeros (224 - (48 + roundUp (payloadLen y) 16)) → k = parsePacket y ((y.drop 32).take (payloadLen y)) → k.dst = ringId s → packetCrc k = (leAt y ((48 + roundUp (payloadLen y) 16) - 16) 4) → ∃ t, exec (.guylineFlitReceive p b bad jobs) s = .next t ∧
      (glOf t p.val).rxq = (glOf s p.val).rxq ++ [k] ∧ (glOf t p.val).rxBytes = []) ∧
  (∀ (p : Fin 3) (b : List Byte) (bad : Bool) (jobs : List (BitVec 32)) (y : List Byte) (k : Packet) (q : Nat) (s : State), s.power = .on → glUp s p.val = true → (bad || b.length != 256 || crc32c (b.take 252) != leAt b 252 4) = false → leAt b 0 2 / 4096 = 0 → leAt b 0 2 % 4096 = ((glOf s p.val).rxSeq + 1) % 4096 → flitHolds s p.val b = true → (glOf s p.val).rxBytes = [] → y = flitPlain s p.val b → 1 ≤ leAt y 0 1 % 16 → leAt y 0 1 % 16 ≤ 8 → (48 + roundUp (payloadLen y) 16) ≤ 224 → y.drop (48 + roundUp (payloadLen y) 16) = zeros (224 - (48 + roundUp (payloadLen y) 16)) → k = parsePacket y ((y.drop 32).take (payloadLen y)) → k.dst ≠ ringId s → isTimeMsg k.kind = false → k.hops + 1 < 255 → routePort s k.dst = some q → ∃ t, exec (.guylineFlitReceive p b bad jobs) s = .next t ∧
      (glOf t q).txq = (glOf s q).txq ++ [{ k with hops := k.hops + 1, crc := some (leAt y ((48 + roundUp (payloadLen y) 16) - 16) 4), dateline := k.dateline || rdB s (A.GL_CFG q) 2 }] ∧ (glOf t p.val).rxq = (glOf s p.val).rxq ∧ (glOf t p.val).rxBytes = []) ∧
  (∀ (p : Fin 3) (b : List Byte) (bad : Bool) (jobs : List (BitVec 32)) (y : List Byte) (k : Packet) (s : State), s.power = .on → glUp s p.val = true → (bad || b.length != 256 || crc32c (b.take 252) != leAt b 252 4) = false → leAt b 0 2 / 4096 = 0 → leAt b 0 2 % 4096 = ((glOf s p.val).rxSeq + 1) % 4096 → flitHolds s p.val b = true → (glOf s p.val).rxBytes = [] → y = flitPlain s p.val b → 1 ≤ leAt y 0 1 % 16 → leAt y 0 1 % 16 ≤ 8 → (48 + roundUp (payloadLen y) 16) ≤ 224 → y.drop (48 + roundUp (payloadLen y) 16) = zeros (224 - (48 + roundUp (payloadLen y) 16)) → k = parsePacket y ((y.drop 32).take (payloadLen y)) → k.dst = ringId s → packetCrc k ≠ (leAt y ((48 + roundUp (payloadLen y) 16) - 16) 4) → ∃ t, exec (.guylineFlitReceive p b bad jobs) s = .next t ∧
      (glOf t p.val).rxq = (glOf s p.val).rxq ∧ (glOf t p.val).rxBytes = [] ∧ rd t (A.GL_E2E_CRC p.val) = min (rd s (A.GL_E2E_CRC p.val) + 1) 0xFFFFFFFF ∧ bitN (evtFlags t (glPage p.val)) 4 = true ∧ (0x139 + p.val, St.GUYLINE_E2E_CRC) ∈ t.fc.inbox.map (fun r => (r.source, r.status))) ∧
  (∀ (p : Fin 3) (b : List Byte) (bad : Bool) (jobs : List (BitVec 32)) (s : State), s.power = .on → glUp s p.val = true → (bad || b.length != 256 || crc32c (b.take 252) != leAt b 252 4) = false → leAt b 0 2 / 4096 = 0 → leAt b 0 2 % 4096 = ((glOf s p.val).rxSeq + 1) % 4096 → flitHolds s p.val b = false → ∃ t, exec (.guylineFlitReceive p b bad jobs) s = .next t ∧
      glUp t p.val = false ∧ rdB t (A.GL_STATUS p.val) 0 = false ∧ rd t (A.GL_ROOT_TAG p.val) = 4096 * (p.val + 1) + (smGet (fun _ => 0) s.linkDowns (p.val + 1) + 1) % 4096 ∧ (glOf t p.val).retry = [] ∧ (glOf t p.val).txq = [] ∧ (glOf t p.val).failoverAt = some (s.ridge + 101000) ∧ t.outWrites = s.outWrites.filter (fun w => !(portWrites (glOf s p.val)).contains w.id) ∧ bitN (evtFlags t (glPage p.val)) 0 = true ∧ bitN (evtFlags t (glPage p.val)) 2 = true ∧ (glOf t p.val).rxq = (glOf s p.val).rxq ∧ (0x139 + p.val, St.GUYLINE_AUTH_FAIL) ∈ t.fc.inbox.map (fun r => (r.source, r.status))) ∧
  (∀ (p : Fin 3) (s : State), s.power = .on → glUp s p.val = true → (glOf s p.val).ackAt + 250 ≤ s.ridge → (glOf s p.val).retry ≠ [] → (glOf s p.val).retries < 8 → ∃ t, exec (.flitAckTimeout p) s = .next t ∧
      t.glOut = s.glOut ++ (glOf s p.val).retry.map (fun f => (p.val, f.2)) ∧ (glOf t p.val) = { (glOf s p.val) with retries := (glOf s p.val).retries + 1, failAt := some ((glOf s p.val).failAt.getD s.ridge), ackAt := s.ridge } ∧ rd t (A.GL_RETRIES p.val) = (rd s (A.GL_RETRIES p.val) + 1) % 4294967296 ∧ ((∀ a, a ≠ A.GL_RETRIES p.val → rd t a = rd s a))) ∧
  (∀ (p : Fin 3) (s : State), s.power = .on → (glUp s p.val = false ∨ s.ridge < (glOf s p.val).ackAt + 250 ∨ (glOf s p.val).retry = [] ∨ 8 ≤ (glOf s p.val).retries) → ∃ t, exec (.flitAckTimeout p) s = .next t ∧
      t.gl = s.gl ∧ t.glOut = s.glOut ∧ (∀ a, rd t a = rd s a)) ∧
  (∀ (p : Fin 3) (jobs : List (BitVec 32)) (f : Nat) (s : State), s.power = .on → rdB s (A.GL_STATUS p.val) 0 = true → (glOf s p.val).failAt = some f → (f + 2000 ≤ s.ridge ∨ 8 ≤ (glOf s p.val).retries) → ∃ t, exec (.linkRetryFail p jobs) s = .next t ∧
      glUp t p.val = false ∧ rdB t (A.GL_STATUS p.val) 0 = false ∧ rd t (A.GL_ROOT_TAG p.val) = 4096 * (p.val + 1) + (smGet (fun _ => 0) s.linkDowns (p.val + 1) + 1) % 4096 ∧ (glOf t p.val).retry = [] ∧ (glOf t p.val).txq = [] ∧ (glOf t p.val).failoverAt = some (s.ridge + 101000) ∧ t.outWrites = s.outWrites.filter (fun w => !(portWrites (glOf s p.val)).contains w.id) ∧ bitN (evtFlags t (glPage p.val)) 0 = true ∧ rd t (A.GL_RETRY_FAILS p.val) = min (rd s (A.GL_RETRY_FAILS p.val) + 1) 0xFFFFFFFF ∧ bitN (evtFlags t (glPage p.val)) 1 = true ∧ (glOf t p.val).rxq = (glOf s p.val).rxq ∧ (0x139 + p.val, St.LINK_RETRY_FAIL) ∈ t.fc.inbox.map (fun r => (r.source, r.status))) ∧
  (∀ (p : Fin 3) (jobs : List (BitVec 32)) (s : State), s.power = .on → (rdB s (A.GL_STATUS p.val) 0 = false ∨ (glOf s p.val).failAt = none ∨ (∃ f, (glOf s p.val).failAt = some f ∧ s.ridge < f + 2000 ∧ (glOf s p.val).retries < 8)) → ∃ t, exec (.linkRetryFail p jobs) s = .next t ∧
      t.gl = s.gl ∧ t.glOut = s.glOut ∧ (∀ a, rd t a = rd s a)) ∧
  (∀ (p : Fin 3) (tr : GlTraining) (s : State), s.power = .on → rdB s (A.GL_STATUS p.val) 0 = false → rdB s (A.GL_CFG p.val) 0 = true → locked s (glPage p.val) = true → (glLanes p.val).all (laneFit s) = true → tr.ring.toNat ≠ ringId s → tr.ring.toNat = rdF s (A.GL_CFG p.val) 15 8 → rdB s A.SEC_TRNG_STATUS 1 = false → ∃ t, exec (.guylineTrainingDone p tr) s = .next t ∧
      rdF t (A.GL_STATUS p.val) 15 8 = tr.ring.toNat ∧ ((peerVerified s p.val tr = true → glUp t p.val = true ∧ levelActive t (0x139 + p.val) = false ∧ (glOf t p.val).rxq = (glOf s p.val).rxq ∧ (glOf t p.val).txq = [] ∧ (glOf t p.val).retry = [] ∧ (glOf t p.val).txSeq = 0 ∧ (glOf t p.val).txFlits = 0 ∧ (glOf t p.val).rxFlits = 0 ∧ (glOf t p.val).restoreAt = some (s.ridge + 101000) ∧ ∀ c, c < 6 → smGet (fun _ => 0) (glOf t p.val).owed c = (tr.buffers.toList.getD c 0).toNat)) ∧ ((peerVerified s p.val tr = false → rdB t (A.GL_STATUS p.val) 0 = false ∧ bitN (evtFlags t (glPage p.val)) 2 = true ∧ levelActive t (0x139 + p.val) = true ∧ t.gl = s.gl)) ∧ ((∀ a, a ≠ A.GL_STATUS p.val → a ≠ A.FC_SRC_CFG (0x139 + p.val) → ¬eventAddr (glPage p.val) a → rd t a = rd s a))) ∧
  (∀ (p : Fin 3) (tr : GlTraining) (s : State), s.power = .on → rdB s (A.GL_STATUS p.val) 0 = false → rdB s (A.GL_CFG p.val) 0 = true → locked s (glPage p.val) = true → (glLanes p.val).all (laneFit s) = true → (tr.ring.toNat = ringId s ∨ tr.ring.toNat ≠ rdF s (A.GL_CFG p.val) 15 8 ∨ rdB s A.SEC_TRNG_STATUS 1 = true) → ∃ t, exec (.guylineTrainingDone p tr) s = .next t ∧
      rdB t (A.GL_STATUS p.val) 0 = false ∧ rdF t (A.GL_STATUS p.val) 15 8 = tr.ring.toNat ∧ levelActive t (0x139 + p.val) = true ∧ (bitN (evtFlags t (glPage p.val)) 3 = (bitN (evtFlags s (glPage p.val)) 3 || (tr.ring.toNat != ringId s && tr.ring.toNat != rdF s (A.GL_CFG p.val) 15 8))) ∧ t.gl = s.gl) ∧
  (∀ (p : Fin 3) (tr : GlTraining) (s : State), s.power = .on → (rdB s (A.GL_STATUS p.val) 0 = true ∨ rdB s (A.GL_CFG p.val) 0 = false ∨ locked s (glPage p.val) = false ∨ (glLanes p.val).all (laneFit s) = false) → ∃ t, exec (.guylineTrainingDone p tr) s = .next t ∧
      t.gl = s.gl ∧ t.glOut = s.glOut ∧ (∀ a, rd t a = rd s a)) ∧
  (∀ (p : Fin 3) (k : Packet) (s : State), s.power = .on → nextPacket s p.val [] (glOf s p.val).txq = some k → glUp s p.val = true → (glOf s p.val).retry.length + ceilDiv (packetSlots k) 14 ≤ 512 → (glOf s p.val).txSeq < 4096 → (k.src = ringId s ∨ expired s k = false) → ∃ t, exec (.guylinePacketSend p) s = .next t ∧
      (glOf t p.val).txq = (glOf s p.val).txq.erase k ∧ (glOf t p.val).retry.length = (glOf s p.val).retry.length + ceilDiv (packetSlots k) 14 ∧ (glOf t p.val).txSeq = ((glOf s p.val).txSeq + ceilDiv (packetSlots k) 14) % 4096 ∧ (∀ c, creditOf t p.val c = creditOf s p.val c - (if c = bufferClass k then packetSlots k else 0)) ∧ t.glOut.length = s.glOut.length + ceilDiv (packetSlots k) 14 ∧ ((rdB s (A.GL_CFG p.val) 1 = false → ((t.glOut.drop s.glOut.length).flatMap (fun f => (f.2.drop 8).take 224)).take (16 * packetSlots k) = packetBytes (stampPacket s p.val k).1 ((stampPacket s p.val k).1.crc.getD (packetCrc (stampPacket s p.val k).1)))) ∧ (glOf t p.val).ending = (glOf s p.val).ending ++ (if k.wid = 0 then [] else [(((glOf t p.val).txSeq + 4095) % 4096, k.wid)]) ∧ (∀ a, rd t a = rd s a)) ∧
  (∀ (p : Fin 3) (k : Packet) (s : State), s.power = .on → nextPacket s p.val [] (glOf s p.val).txq = some k → glUp s p.val = true → (glOf s p.val).retry.length + ceilDiv (packetSlots k) 14 ≤ 512 → k.src ≠ ringId s → expired s k = true → ∃ t, exec (.guylinePacketSend p) s = .next t ∧
      (glOf t p.val) = { (glOf s p.val) with txq := (glOf s p.val).txq.erase k } ∧ t.glOut = s.glOut ∧ rd t (A.GL_EXPIRED p.val) = min (rd s (A.GL_EXPIRED p.val) + 1) 0xFFFFFFFF ∧ bitN (evtFlags t (glPage p.val)) 7 = true ∧ (0x139 + p.val, St.GUYLINE_EXPIRED) ∈ t.fc.inbox.map (fun r => (r.source, r.status))) ∧
  (∀ (p : Fin 3) (s : State), s.power = .on → (nextPacket s p.val [] (glOf s p.val).txq = none ∨ glUp s p.val = false) → ∃ t, exec (.guylinePacketSend p) s = .next t ∧
      t.gl = s.gl ∧ t.glOut = s.glOut ∧ (∀ a, rd t a = rd s a)) ∧
  (∀ (p : Fin 3) (f : Nat) (s : State), s.power = .on → (glOf s p.val).failoverAt = some f → f ≤ s.ridge → ∃ t, exec (.routeFailover p) s = .next t ∧
      (glOf t p.val) = { (glOf s p.val) with failoverAt := none } ∧ ((∀ i, i < 256 → rdB t (A.GL_ROUTE i) 8 = (rdB s (A.GL_ROUTE i) 8 || (rdF s (A.GL_ROUTE i) 2 0 == p.val + 1 && rdF s (A.GL_ROUTE i) 6 4 != 0)) ∧ rdF t (A.GL_ROUTE i) 7 0 = rdF s (A.GL_ROUTE i) 7 0)) ∧ (((∃ i, i < 256 ∧ ((rdF s (A.GL_ROUTE i) 2 0 == p.val + 1 && rdF s (A.GL_ROUTE i) 6 4 != 0) && !rdB s (A.GL_ROUTE i) 8) = true) → rdB t (A.GL_STATUS p.val) 2 = true ∧ rd t A.GL_FAILOVERS = min (rd s A.GL_FAILOVERS + 1) 0xFFFFFFFF)) ∧ (((∀ i, i < 256 → ((rdF s (A.GL_ROUTE i) 2 0 == p.val + 1 && rdF s (A.GL_ROUTE i) 6 4 != 0) && !rdB s (A.GL_ROUTE i) 8) = false) → ∀ a, rd t a = rd s a)) ∧ ((∀ a, (∀ i, i < 256 → a ≠ A.GL_ROUTE i) → a ≠ A.GL_STATUS p.val → a ≠ A.GL_FAILOVERS → rd t a = rd s a))) ∧
  (∀ (p : Fin 3) (s : State), s.power = .on → ((glOf s p.val).failoverAt = none ∨ (∃ f, (glOf s p.val).failoverAt = some f ∧ s.ridge < f)) → ∃ t, exec (.routeFailover p) s = .next t ∧
      t.gl = s.gl ∧ t.glOut = s.glOut ∧ (∀ a, rd t a = rd s a)) ∧
  (∀ (p : Fin 3) (f : Nat) (s : State), s.power = .on → (glOf s p.val).restoreAt = some f → f ≤ s.ridge → glUp s p.val = true → ∃ t, exec (.routeRestore p) s = .next t ∧
      (glOf t p.val) = { (glOf s p.val) with restoreAt := none } ∧ ((∀ i, i < 256 → rdB t (A.GL_ROUTE i) 8 = (rdB s (A.GL_ROUTE i) 8 && rdF s (A.GL_ROUTE i) 2 0 != p.val + 1) ∧ rdF t (A.GL_ROUTE i) 7 0 = rdF s (A.GL_ROUTE i) 7 0)) ∧ rdB t (A.GL_STATUS p.val) 2 = false ∧ ((∀ a, (∀ i, i < 256 → a ≠ A.GL_ROUTE i) → a ≠ A.GL_STATUS p.val → rd t a = rd s a))) ∧
  (∀ (p : Fin 3) (s : State), s.power = .on → (glUp s p.val = false ∨ (glOf s p.val).restoreAt = none ∨ (∃ f, (glOf s p.val).restoreAt = some f ∧ s.ridge < f)) → ∃ t, exec (.routeRestore p) s = .next t ∧
      t.gl = s.gl ∧ t.glOut = s.glOut ∧ (∀ a, rd t a = rd s a)) ∧
  (∀ (lane : Fin 49) (jobs : List (BitVec 32)) (g : Nat) (s : State), s.power = .on → laneGroup lane.val = some g → (lanesOf s g).shut = none → ∃ t, exec (.openFibre lane jobs) s = .next t ∧
      (lanesOf t g).shut = some s.ridge ∧ (∀ l ∈ groupLanes g, laneShut t l = true) ∧ rdB t (A.PH_LANE_STATUS lane.val) 0 = false ∧ rdB t A.PH_STATUS 0 = true ∧ bitN (evtFlags t 0x2A8) 0 = true ∧ ((g < 32 → rdB t (A.PORT_STATUS g) 0 = false ∧ rdB t (A.PORT_STATUS g) 2 = true)) ∧ ((32 ≤ g → g < 35 → glUp t (g - 32) = false)) ∧ ((g = 35 → rdB t A.U4_STATUS 0 = false)) ∧ ((g = 36 → rdB t A.MGT_STATUS 0 = false))) ∧
  (∀ (lane : Fin 49) (jobs : List (BitVec 32)) (g f : Nat) (s : State), s.power = .on → laneGroup lane.val = some g → (lanesOf s g).shut = some f → ∃ t, exec (.openFibre lane jobs) s = .next t ∧
      t.lanes = s.lanes ∧ rdB t (A.PH_LANE_STATUS lane.val) 0 = false ∧ ((∀ a, a ≠ A.PH_LANE_STATUS lane.val → a ≠ A.GL_STATUS 0 → a ≠ A.GL_STATUS 1 → a ≠ A.GL_STATUS 2 → rd t a = rd s a))) ∧
  (∀ (lane : Fin 49) (jobs : List (BitVec 32)) (s : State), s.power = .on → laneGroup lane.val = none → ∃ t, exec (.openFibre lane jobs) s = .next t ∧
      t.lanes = s.lanes ∧ (∀ a, rd t a = rd s a)) ∧
  (∀ (lane : Fin 49) (g f : Nat) (s : State), s.power = .on → laneGroup lane.val = some g → (lanesOf s g).shut = some f → ∃ t, exec (.lightReceived lane) s = .next t ∧
      rdB t (A.PH_LANE_STATUS lane.val) 0 = true ∧ (((∀ l ∈ groupLanes g, l = lane.val ∨ rdB s (A.PH_LANE_STATUS l) 0 = true) → lanesOf t g = {} ∧ (∀ l ∈ groupLanes g, laneShut t l = false) ∧ bitN (evtFlags t 0x2A8) 2 = true)) ∧ (((∃ l ∈ groupLanes g, l ≠ lane.val ∧ rdB s (A.PH_LANE_STATUS l) 0 = false) → t.lanes = s.lanes))) ∧
  (∀ (lane : Fin 49) (s : State), s.power = .on → (∀ g, laneGroup lane.val = some g → (lanesOf s g).shut = none) → ∃ t, exec (.lightReceived lane) s = .next t ∧
      t.lanes = s.lanes ∧ ((∀ g, laneGroup lane.val = some g → rdB t (A.PH_LANE_STATUS lane.val) 0 = true)) ∧ ((∀ a, a ≠ A.PH_LANE_STATUS lane.val → a ≠ A.GL_STATUS 0 → a ≠ A.GL_STATUS 1 → a ≠ A.GL_STATUS 2 → rd t a = rd s a)) ∧ ((laneGroup lane.val = none → ∀ a, rd t a = rd s a))) ∧
  (∀ (g : Fin 37) (f : Nat) (s : State), s.power = .on → (lanesOf s g.val).shut = some f → (lanesOf s g.val).probe = none → (lanesOf s g.val).probed.getD f + probeInterval s ≤ s.ridge → ∃ t, exec (.probeStart g) s = .next t ∧
      lanesOf t g.val = { lanesOf s g.val with probe := some s.ridge, probed := some s.ridge } ∧ ((∀ k, k ≠ g.val → lanesOf t k = lanesOf s k))) ∧
  (∀ (g : Fin 37) (s : State), s.power = .on → ((lanesOf s g.val).shut = none ∨ (lanesOf s g.val).probe ≠ none ∨ (∃ f, (lanesOf s g.val).shut = some f ∧ s.ridge < (lanesOf s g.val).probed.getD f + probeInterval s)) → ∃ t, exec (.probeStart g) s = .next t ∧
      t.lanes = s.lanes ∧ (∀ a, rd t a = rd s a)) ∧
  (∀ (g : Fin 37) (f : Nat) (s : State), s.power = .on → (lanesOf s g.val).probe = some f → f + 2000000 ≤ s.ridge → ∃ t, exec (.probeEnd g) s = .next t ∧
      lanesOf t g.val = { lanesOf s g.val with probe := none } ∧ ((∀ k, k ≠ g.val → lanesOf t k = lanesOf s k))) ∧
  (∀ (g : Fin 37) (s : State), s.power = .on → ((lanesOf s g.val).probe = none ∨ (∃ f, (lanesOf s g.val).probe = some f ∧ s.ridge < f + 2000000)) → ∃ t, exec (.probeEnd g) s = .next t ∧
      t.lanes = s.lanes ∧ (∀ a, rd t a = rd s a)) ∧
  (∀ (lane : Fin 49) (jobs : List (BitVec 32)) (s : State), s.power = .on → laserCut s lane.val = false → ∃ t, exec (.laserFault lane jobs) s = .next t ∧
      laserCut t lane.val = true ∧ rdB t A.PH_STATUS 1 = true ∧ bitN (evtFlags t 0x2A8) 1 = true ∧ ((32 ≤ lane.val → lane.val < 44 → glUp t ((lane.val - 32) / 4) = false)) ∧ ((lane.val < 32 → rdB t (A.PORT_STATUS lane.val) 0 = false ∧ (0x040 + lane.val, St.LASER_FAULT) ∈ t.fc.inbox.map (fun r => (r.source, r.status)))) ∧ ((44 ≤ lane.val → lane.val < 46 → rdB t A.U4_STATUS 0 = false)) ∧ ((lane.val = 46 → rdB t A.MGT_STATUS 0 = false)) ∧ ((47 ≤ lane.val → rdB t A.LANTERN_STATUS (lane.val - 47) = false))) ∧
  (∀ (lane : Fin 49) (jobs : List (BitVec 32)) (s : State), s.power = .on → laserCut s lane.val = true → ∃ t, exec (.laserFault lane jobs) s = .next t ∧
      t.lanes = s.lanes ∧ (∀ a, rd t a = rd s a))

/-- O57. Packets of the guyline and ridge time. The packet at the head of a port is taken by the command of its kind,
and its slots are owed to the peer. A WRITE that is performed stores its payload, and a byte-mode peg counts its
bytes, any other configured one counts one; a READ_REQ is answered by one READ_CPL, where a route back is up; a
READ_CPL of a waiting read completes it, and one of no read is dropped; POD packets are joined in order into a pod,
and one out of sequence ends the pod it breaks; PEG_INC adds its amount; SYNC at the upstream port keeps its times
and sends DELAY_REQ, which is answered with its arrival time; DELAY_RESP completes the exchange of R414 and corrects
ridge time. A packet older than 100 µs is discarded and counted instead. Where the head is of another kind, or
waits, nothing happens. SYNC goes out every 125 µs, and 1 ms without one unlocks ridge time. -/
def Obligations.LinkPackets : Prop :=
  (∀ (p : Fin 3) (lost : Bool) (k : Packet) (u v : State) (s : State), s.power = .on → headWaits s p.val (fun k => encWaits s k.addr k.payload.length) = false → takePacket s p.val 1 = some (k, u) → expired u k = false → busWrite u (packetAgent k) k.addr k.payload k.cls = (0, v) → ∃ t, exec (.glWrite p lost) s = .next t ∧
      t.gl = v.gl ∧ glOf u p.val = headTaken (glOf s p.val) k ∧ ((rrMode v ≠ 1 → t.mem = v.mem)) ∧ ((refNames k.peg = true → epochMet (pegAt v k.peg) (packetFrame k) = true → pegMode (pegAt v k.peg) = 1 → (pegAt t k.peg).count.toNat = min ((pegAt v k.peg).count.toNat + 1) 0xFFFFFFFF)) ∧ ((refNames k.peg = true → epochMet (pegAt v k.peg) (packetFrame k) = true → pegMode (pegAt v k.peg) = 2 → (pegAt t k.peg).count.toNat = min ((pegAt v k.peg).count.toNat + k.payload.length) 0xFFFFFFFF)) ∧ ((refNames k.peg = false → t.pegs = v.pegs))) ∧
  (∀ (p : Fin 3) (lost : Bool) (k : Packet) (u v : State) (st : Nat) (s : State), s.power = .on → headWaits s p.val (fun k => encWaits s k.addr k.payload.length) = false → takePacket s p.val 1 = some (k, u) → expired u k = false → busWrite u (packetAgent k) k.addr k.payload k.cls = (st, v) → st ≠ 0 → ∃ t, exec (.glWrite p lost) s = .next t ∧
      t.gl = v.gl ∧ glOf u p.val = headTaken (glOf s p.val) k ∧ t.mem = v.mem ∧ t.pegs = v.pegs) ∧
  (∀ (p : Fin 3) (k : Packet) (u v : State) (st q : Nat) (b : List Byte) (s : State), s.power = .on → headWaits s p.val (fun k => encWaits s k.addr k.len) = false → takePacket s p.val 2 = some (k, u) → expired u k = false → busRead u (packetAgent k) k.addr k.len k.cls = (st, b, v) → routePort v k.src = some q → ∃ t, exec (.glReadReq p) s = .next t ∧
      (glOf t q).txq = (glOf v q).txq ++ [readAnswer v q k st b] ∧ t.mem = v.mem) ∧
  (∀ (p : Fin 3) (k : Packet) (u v : State) (st : Nat) (b : List Byte) (s : State), s.power = .on → headWaits s p.val (fun k => encWaits s k.addr k.len) = false → takePacket s p.val 2 = some (k, u) → expired u k = false → busRead u (packetAgent k) k.addr k.len k.cls = (st, b, v) → routePort v k.src = none → ∃ t, exec (.glReadReq p) s = .next t ∧
      t.gl = v.gl ∧ t.mem = v.mem) ∧
  (∀ (p : Fin 3) (k : Packet) (u : State) (s : State), s.power = .on → takePacket s p.val 3 = some (k, u) → expired u k = false → s.remote.any (fun r => r.tag == k.readTag) = true → ∃ t, exec (.glReadCpl p) s = .next t ∧
      t.remote = s.remote.filter (fun r => r.tag != k.readTag) ∧ ((k.status = 0 → t.hostOut = s.hostOut ++ [.data k.payload])) ∧ ((k.status = St.ADDR_UNMAPPED → t.hostOut = s.hostOut ++ [.unsupportedRequest])) ∧ ((k.status ≠ 0 → k.status ≠ St.ADDR_UNMAPPED → t.hostOut = s.hostOut ++ [.completerAbort])) ∧ (glOf t p.val) = headTaken (glOf s p.val) k ∧ (∀ a, rd t a = rd s a)) ∧
  (∀ (p : Fin 3) (k : Packet) (u : State) (s : State), s.power = .on → takePacket s p.val 3 = some (k, u) → expired u k = false → s.remote.any (fun r => r.tag == k.readTag) = false → ∃ t, exec (.glReadCpl p) s = .next t ∧
      t.remote = s.remote ∧ t.hostOut = s.hostOut ∧ (glOf t p.val) = headTaken (glOf s p.val) k ∧ (∀ a, rd t a = rd s a)) ∧
  (∀ (p : Fin 3) (k : Packet) (u : State) (s : State), s.power = .on → headWaits s p.val (fun k => decide (creditNow s < assembledBytes s + k.payload.length)) = false → takePacket s p.val 4 = some (k, u) → expired u k = false → ∃ t, exec (.glPod p) s = .next t ∧
      ((k.first = true → (glOf t p.val).asm = (glOf s p.val).asm.filter (fun a => a.1 != (4 * k.src + k.vc)) ++ (if k.last = true then [] else [((4 * k.src + k.vc), k.payload)]) ∧ t.podsIn = s.podsIn ++ (if k.last = true then [(p.val + 1, k.payload)] else []))) ∧ ((∀ old, (glOf s p.val).asm.find? (fun a => a.1 == (4 * k.src + k.vc)) = some old → k.first = false → (glOf t p.val).asm = (glOf s p.val).asm.filter (fun a => a.1 != (4 * k.src + k.vc)) ++ (if k.last = true then [] else [((4 * k.src + k.vc), old.2 ++ k.payload)]) ∧ t.podsIn = s.podsIn ++ (if k.last = true then [(p.val + 1, old.2 ++ k.payload)] else []))) ∧ (((glOf s p.val).asm.find? (fun a => a.1 == (4 * k.src + k.vc)) = none → k.first = false → t.podsIn = s.podsIn ∧ (glOf t p.val).asm = (glOf s p.val).asm.filter (fun a => a.1 != (4 * k.src + k.vc)))) ∧ ((((glOf s p.val).asm.find? (fun a => a.1 == (4 * k.src + k.vc))).isSome = k.first → rd t (A.GL_E2E_CRC p.val) = min (rd s (A.GL_E2E_CRC p.val) + 1) 0xFFFFFFFF ∧ bitN (evtFlags t (glPage p.val)) 4 = true)) ∧ ((((glOf s p.val).asm.find? (fun a => a.1 == (4 * k.src + k.vc))).isSome ≠ k.first → ∀ a, rd t a = rd s a)) ∧ (glOf t p.val).rxq = (glOf s p.val).rxq.drop 1) ∧
  (∀ (p : Fin 3) (k : Packet) (u : State) (s : State), s.power = .on → takePacket s p.val 5 = some (k, u) → expired u k = false → ∃ t, exec (.glPegInc p) s = .next t ∧
      (glOf t p.val) = headTaken (glOf s p.val) k ∧ ((refNames k.peg = true → epochMet (pegAt s k.peg) (packetFrame k) = true → pegMode (pegAt s k.peg) = 1 ∨ pegMode (pegAt s k.peg) = 2 → (pegAt t k.peg).count.toNat = min ((pegAt s k.peg).count.toNat + k.addr % 4294967296) 0xFFFFFFFF ∧ (pegAt t k.peg).discarded = (pegAt s k.peg).discarded)) ∧ ((refNames k.peg = true → pegMode (pegAt s k.peg) = 0 ∨ epochMet (pegAt s k.peg) (packetFrame k) = false → (pegAt t k.peg).count = (pegAt s k.peg).count ∧ (pegAt t k.peg).discarded.toNat = min ((pegAt s k.peg).discarded.toNat + 1) 0xFFFF ∧ (pegSource k.peg, St.PEG_INCREMENT_DISCARDED, k.peg) ∈ t.fc.inbox.map (fun r => (r.source, r.status, r.detail)))) ∧ ((∀ r, r ≠ k.peg → pegAt t r = pegAt s r)) ∧ ((refNames k.peg = false → t.pegs = s.pegs)) ∧ t.mem = s.mem) ∧
  (∀ (p : Fin 3) (k : Packet) (u : State) (s : State), s.power = .on → takePacket s p.val 6 = some (k, u) → expired u k = false → upstreamPort s = some p.val → ∃ t, exec (.glSync p) s = .next t ∧
      (glOf t p.val) = { headTaken (glOf s p.val) k with t1 := some k.addr, t2 := some s.ridge, t3 := none, txq := (glOf s p.val).txq ++ [timePacket s p.val 7 0] } ∧ t.time = { s.time with lastSync := s.ridge } ∧ (∀ a, rd t a = rd s a)) ∧
  (∀ (p : Fin 3) (k : Packet) (u : State) (s : State), s.power = .on → takePacket s p.val 6 = some (k, u) → expired u k = false → upstreamPort s ≠ some p.val → ∃ t, exec (.glSync p) s = .next t ∧
      (glOf t p.val) = headTaken (glOf s p.val) k ∧ t.time = s.time ∧ (∀ a, rd t a = rd s a)) ∧
  (∀ (p : Fin 3) (k : Packet) (u : State) (s : State), s.power = .on → takePacket s p.val 7 = some (k, u) → expired u k = false → ∃ t, exec (.glDelayReq p) s = .next t ∧
      (glOf t p.val) = { headTaken (glOf s p.val) k with txq := (glOf s p.val).txq ++ [timePacket s p.val 8 s.ridge] } ∧ (∀ a, rd t a = rd s a)) ∧
  (∀ (p : Fin 3) (hops : BitVec 8) (epoch : BitVec 64) (k : Packet) (u : State) (t1 t2 t3 : Nat) (off : Int) (s : State), s.power = .on → takePacket s p.val 8 = some (k, u) → expired u k = false → upstreamPort s = some p.val → (glOf s p.val).t1 = some t1 → (glOf s p.val).t2 = some t2 → (glOf s p.val).t3 = some t3 → off = (((t2 : Int) - t1) - ((k.addr : Int) - t3)) / 2 → ∃ t, exec (.glDelayResp p hops epoch) s = .next t ∧
      rd t A.RIDGE_SKEW = unsgn 32 off ∧ (glOf t p.val) = { headTaken (glOf s p.val) k with t1 := none, t2 := none, t3 := none } ∧ (((ridgeLocked s && decide (3 ≤ (if beyondBound off hops.toNat then s.time.bad + 1 else 0))) = true → rdB t A.RIDGE_STATUS 1 = false ∧ bitN (evtFlags t 3) 2 = true ∧ levelActive t 0x13C = true ∧ t.ridge = s.ridge)) ∧ (((ridgeLocked s && decide (3 ≤ (if beyondBound off hops.toNat then s.time.bad + 1 else 0))) = false → t.time.good = (if off.natAbs ≤ 2 then s.time.good + 1 else 0) ∧ t.time.bad = (if beyondBound off hops.toNat then s.time.bad + 1 else 0) ∧ (noFrameGroup s = true → t.ridge = unsgn 64 ((s.ridge : Int) - off)) ∧ (noFrameGroup s = false → t.ridge = s.ridge ∧ t.time.slew = -off))) ∧ ((ridgeLocked s = false → 8 ≤ (if off.natAbs ≤ 2 then s.time.good + 1 else 0) → rdB t A.RIDGE_STATUS 1 = true ∧ levelActive t 0x13C = false ∧ (s.time.everLocked = false → rdWide t A.RIDGE_EPOCH_LO = epoch.toNat ∧ t.time.everLocked = true)))) ∧
  (∀ (p : Fin 3) (hops : BitVec 8) (epoch : BitVec 64) (k : Packet) (u : State) (s : State), s.power = .on → takePacket s p.val 8 = some (k, u) → expired u k = false → (upstreamPort s ≠ some p.val ∨ (glOf s p.val).t1 = none ∨ (glOf s p.val).t2 = none ∨ (glOf s p.val).t3 = none) → ∃ t, exec (.glDelayResp p hops epoch) s = .next t ∧
      (glOf t p.val) = headTaken (glOf s p.val) k ∧ t.ridge = s.ridge ∧ t.time = s.time ∧ (∀ a, rd t a = rd s a)) ∧
  (∀ (p : Fin 3) (lost : Bool) (s : State), s.power = .on → (takePacket s p.val 1 = none ∨ headWaits s p.val (fun k => encWaits s k.addr k.payload.length) = true) → ∃ t, exec (.glWrite p lost) s = .next t ∧
      t.gl = s.gl ∧ t.mem = s.mem ∧ t.pegs = s.pegs ∧ t.ridge = s.ridge ∧ (∀ a, rd t a = rd s a)) ∧
  (∀ (p : Fin 3) (lost : Bool) (k : Packet) (u : State) (s : State), s.power = .on → headWaits s p.val (fun k => encWaits s k.addr k.payload.length) = false → takePacket s p.val 1 = some (k, u) → expired u k = true → ∃ t, exec (.glWrite p lost) s = .next t ∧
      (glOf t p.val) = headTaken (glOf s p.val) k ∧ rd t (A.GL_EXPIRED p.val) = min (rd s (A.GL_EXPIRED p.val) + 1) 0xFFFFFFFF ∧ bitN (evtFlags t (glPage p.val)) 7 = true ∧ (0x139 + p.val, St.GUYLINE_EXPIRED) ∈ t.fc.inbox.map (fun r => (r.source, r.status)) ∧ t.mem = s.mem ∧ t.pegs = s.pegs ∧ t.podsIn = s.podsIn ∧ t.remote = s.remote) ∧
  (∀ (p : Fin 3) (s : State), s.power = .on → (takePacket s p.val 2 = none ∨ headWaits s p.val (fun k => encWaits s k.addr k.len) = true) → ∃ t, exec (.glReadReq p) s = .next t ∧
      t.gl = s.gl ∧ t.mem = s.mem ∧ t.pegs = s.pegs ∧ t.ridge = s.ridge ∧ (∀ a, rd t a = rd s a)) ∧
  (∀ (p : Fin 3) (k : Packet) (u : State) (s : State), s.power = .on → headWaits s p.val (fun k => encWaits s k.addr k.len) = false → takePacket s p.val 2 = some (k, u) → expired u k = true → ∃ t, exec (.glReadReq p) s = .next t ∧
      (glOf t p.val) = headTaken (glOf s p.val) k ∧ rd t (A.GL_EXPIRED p.val) = min (rd s (A.GL_EXPIRED p.val) + 1) 0xFFFFFFFF ∧ bitN (evtFlags t (glPage p.val)) 7 = true ∧ (0x139 + p.val, St.GUYLINE_EXPIRED) ∈ t.fc.inbox.map (fun r => (r.source, r.status)) ∧ t.mem = s.mem ∧ t.pegs = s.pegs ∧ t.podsIn = s.podsIn ∧ t.remote = s.remote) ∧
  (∀ (p : Fin 3) (s : State), s.power = .on → takePacket s p.val 3 = none → ∃ t, exec (.glReadCpl p) s = .next t ∧
      t.gl = s.gl ∧ t.mem = s.mem ∧ t.pegs = s.pegs ∧ t.ridge = s.ridge ∧ (∀ a, rd t a = rd s a)) ∧
  (∀ (p : Fin 3) (k : Packet) (u : State) (s : State), s.power = .on → takePacket s p.val 3 = some (k, u) → expired u k = true → ∃ t, exec (.glReadCpl p) s = .next t ∧
      (glOf t p.val) = headTaken (glOf s p.val) k ∧ rd t (A.GL_EXPIRED p.val) = min (rd s (A.GL_EXPIRED p.val) + 1) 0xFFFFFFFF ∧ bitN (evtFlags t (glPage p.val)) 7 = true ∧ (0x139 + p.val, St.GUYLINE_EXPIRED) ∈ t.fc.inbox.map (fun r => (r.source, r.status)) ∧ t.mem = s.mem ∧ t.pegs = s.pegs ∧ t.podsIn = s.podsIn ∧ t.remote = s.remote) ∧
  (∀ (p : Fin 3) (s : State), s.power = .on → (takePacket s p.val 4 = none ∨ headWaits s p.val (fun k => decide (creditNow s < assembledBytes s + k.payload.length)) = true) → ∃ t, exec (.glPod p) s = .next t ∧
      t.gl = s.gl ∧ t.mem = s.mem ∧ t.pegs = s.pegs ∧ t.ridge = s.ridge ∧ (∀ a, rd t a = rd s a)) ∧
  (∀ (p : Fin 3) (k : Packet) (u : State) (s : State), s.power = .on → headWaits s p.val (fun k => decide (creditNow s < assembledBytes s + k.payload.length)) = false → takePacket s p.val 4 = some (k, u) → expired u k = true → ∃ t, exec (.glPod p) s = .next t ∧
      (glOf t p.val) = headTaken (glOf s p.val) k ∧ rd t (A.GL_EXPIRED p.val) = min (rd s (A.GL_EXPIRED p.val) + 1) 0xFFFFFFFF ∧ bitN (evtFlags t (glPage p.val)) 7 = true ∧ (0x139 + p.val, St.GUYLINE_EXPIRED) ∈ t.fc.inbox.map (fun r => (r.source, r.status)) ∧ t.mem = s.mem ∧ t.pegs = s.pegs ∧ t.podsIn = s.podsIn ∧ t.remote = s.remote) ∧
  (∀ (p : Fin 3) (s : State), s.power = .on → takePacket s p.val 5 = none → ∃ t, exec (.glPegInc p) s = .next t ∧
      t.gl = s.gl ∧ t.mem = s.mem ∧ t.pegs = s.pegs ∧ t.ridge = s.ridge ∧ (∀ a, rd t a = rd s a)) ∧
  (∀ (p : Fin 3) (k : Packet) (u : State) (s : State), s.power = .on → takePacket s p.val 5 = some (k, u) → expired u k = true → ∃ t, exec (.glPegInc p) s = .next t ∧
      (glOf t p.val) = headTaken (glOf s p.val) k ∧ rd t (A.GL_EXPIRED p.val) = min (rd s (A.GL_EXPIRED p.val) + 1) 0xFFFFFFFF ∧ bitN (evtFlags t (glPage p.val)) 7 = true ∧ (0x139 + p.val, St.GUYLINE_EXPIRED) ∈ t.fc.inbox.map (fun r => (r.source, r.status)) ∧ t.mem = s.mem ∧ t.pegs = s.pegs ∧ t.podsIn = s.podsIn ∧ t.remote = s.remote) ∧
  (∀ (p : Fin 3) (s : State), s.power = .on → takePacket s p.val 6 = none → ∃ t, exec (.glSync p) s = .next t ∧
      t.gl = s.gl ∧ t.mem = s.mem ∧ t.pegs = s.pegs ∧ t.ridge = s.ridge ∧ (∀ a, rd t a = rd s a)) ∧
  (∀ (p : Fin 3) (k : Packet) (u : State) (s : State), s.power = .on → takePacket s p.val 6 = some (k, u) → expired u k = true → ∃ t, exec (.glSync p) s = .next t ∧
      (glOf t p.val) = headTaken (glOf s p.val) k ∧ rd t (A.GL_EXPIRED p.val) = min (rd s (A.GL_EXPIRED p.val) + 1) 0xFFFFFFFF ∧ bitN (evtFlags t (glPage p.val)) 7 = true ∧ (0x139 + p.val, St.GUYLINE_EXPIRED) ∈ t.fc.inbox.map (fun r => (r.source, r.status)) ∧ t.mem = s.mem ∧ t.pegs = s.pegs ∧ t.podsIn = s.podsIn ∧ t.remote = s.remote) ∧
  (∀ (p : Fin 3) (s : State), s.power = .on → takePacket s p.val 7 = none → ∃ t, exec (.glDelayReq p) s = .next t ∧
      t.gl = s.gl ∧ t.mem = s.mem ∧ t.pegs = s.pegs ∧ t.ridge = s.ridge ∧ (∀ a, rd t a = rd s a)) ∧
  (∀ (p : Fin 3) (k : Packet) (u : State) (s : State), s.power = .on → takePacket s p.val 7 = some (k, u) → expired u k = true → ∃ t, exec (.glDelayReq p) s = .next t ∧
      (glOf t p.val) = headTaken (glOf s p.val) k ∧ rd t (A.GL_EXPIRED p.val) = min (rd s (A.GL_EXPIRED p.val) + 1) 0xFFFFFFFF ∧ bitN (evtFlags t (glPage p.val)) 7 = true ∧ (0x139 + p.val, St.GUYLINE_EXPIRED) ∈ t.fc.inbox.map (fun r => (r.source, r.status)) ∧ t.mem = s.mem ∧ t.pegs = s.pegs ∧ t.podsIn = s.podsIn ∧ t.remote = s.remote) ∧
  (∀ (p : Fin 3) (hops : BitVec 8) (epoch : BitVec 64) (s : State), s.power = .on → takePacket s p.val 8 = none → ∃ t, exec (.glDelayResp p hops epoch) s = .next t ∧
      t.gl = s.gl ∧ t.mem = s.mem ∧ t.pegs = s.pegs ∧ t.ridge = s.ridge ∧ (∀ a, rd t a = rd s a)) ∧
  (∀ (p : Fin 3) (hops : BitVec 8) (epoch : BitVec 64) (k : Packet) (u : State) (s : State), s.power = .on → takePacket s p.val 8 = some (k, u) → expired u k = true → ∃ t, exec (.glDelayResp p hops epoch) s = .next t ∧
      (glOf t p.val) = headTaken (glOf s p.val) k ∧ rd t (A.GL_EXPIRED p.val) = min (rd s (A.GL_EXPIRED p.val) + 1) 0xFFFFFFFF ∧ bitN (evtFlags t (glPage p.val)) 7 = true ∧ (0x139 + p.val, St.GUYLINE_EXPIRED) ∈ t.fc.inbox.map (fun r => (r.source, r.status)) ∧ t.mem = s.mem ∧ t.pegs = s.pegs ∧ t.podsIn = s.podsIn ∧ t.remote = s.remote) ∧
  (∀ (p : Fin 3) (s : State), s.power = .on → glUp s p.val = true → ridgeLocked s = true → upstreamPort s ≠ some p.val → (∀ f, (glOf s p.val).t1 = some f → f + 125000 ≤ s.ridge) → (glOf s p.val).txq.any (fun k => k.kind == 6) = false → ∃ t, exec (.syncInterval p) s = .next t ∧
      (glOf t p.val) = { (glOf s p.val) with txq := (glOf s p.val).txq ++ [timePacket s p.val 6 0] } ∧ (∀ a, rd t a = rd s a)) ∧
  (∀ (p : Fin 3) (s : State), s.power = .on → (glUp s p.val = false ∨ ridgeLocked s = false ∨ upstreamPort s = some p.val ∨ (∃ f, (glOf s p.val).t1 = some f ∧ s.ridge < f + 125000) ∨ (glOf s p.val).txq.any (fun k => k.kind == 6) = true) → ∃ t, exec (.syncInterval p) s = .next t ∧
      t.gl = s.gl ∧ t.glOut = s.glOut ∧ (∀ a, rd t a = rd s a)) ∧
  (∀ (s : State), s.power = .on → ridgeMaster s = false → rdB s A.RIDGE_STATUS 1 = true → s.time.lastSync + 1000000 ≤ s.ridge → ∃ t, exec .syncTimeout s = .next t ∧
      rdB t A.RIDGE_STATUS 1 = false ∧ bitN (evtFlags t 3) 2 = true ∧ levelActive t 0x13C = true ∧ t.time = { s.time with good := 0, bad := 0, slew := 0 } ∧ t.ridge = s.ridge ∧ (∀ a, a ≠ A.RIDGE_STATUS → a ≠ A.FC_SRC_CFG 0x13C → ¬eventAddr 3 a → rd t a = rd s a)) ∧
  (∀ (s : State), s.power = .on → (ridgeMaster s = true ∨ rdB s A.RIDGE_STATUS 1 = false ∨ s.ridge < s.time.lastSync + 1000000) → ∃ t, exec .syncTimeout s = .next t ∧
      t.time = s.time ∧ t.ridge = s.ridge ∧ (∀ a, rd t a = rd s a))

/-- O58. Lanterns, sentry, comparator and lock-step. At a word boundary due lanterns light and every lit lantern begins
the word of Table 14.7; a lantern test darkens them for its length. The sentry starts its run once its taps are
written or the start limit has passed, and no self-test slice holds it; it writes its grid and releases its taps;
what is late at the cut-off is stopped. The comparator is enabled on a usable configuration only; agreement
releases, K disagreements in W cycles end in a report of COMP_SAFE, fewer release their results CONTESTED, and safe
state has no verdict. A pair that differs stops and is reported; halts and resumes act under a debug session only;
the injections are armed and strike as Tables 15.9 and 15.13 say. Where a command finds nothing due, nothing
happens. -/
def Obligations.SafetyChannels : Prop :=
  (∀ (s : State), s.power = .on → s.ridge % 32000 = 0 → ∃ t, exec .lanternWordBoundary s = .next t ∧
      ((s.lantern.due = true → rdF t A.LANTERN_STATUS 1 0 = litBits s ∧ t.lantern.due = false)) ∧ ((s.lantern.due = false → rdF t A.LANTERN_STATUS 1 0 = rdF s A.LANTERN_STATUS 1 0)) ∧ ((rdF t A.LANTERN_STATUS 1 0 ≠ 0 → fldN t.lantern.word.toNat 31 24 = 0xA5 ∧ fldN t.lantern.word.toNat 23 21 = lanternFg s ∧ bitN t.lantern.word.toNat 20 = afterTest t ∧ fldN t.lantern.word.toNat 7 0 = crc8 24 (t.lantern.word.toNat / 256) ∧ rdF t A.LANTERN_STATUS 15 8 = fldN t.lantern.word.toNat 15 8)) ∧ ((rdF t A.LANTERN_STATUS 1 0 ≠ 0 → ∀ e, lanternEpoch s = some e → fldN t.lantern.word.toNat 19 16 = 8 ∧ fldN t.lantern.word.toNat 15 8 = e)) ∧ ((rdF t A.LANTERN_STATUS 1 0 ≠ 0 → lanternEpoch s = none → fldN t.lantern.word.toNat 19 8 = 0x400)) ∧ ((rdF t A.LANTERN_STATUS 1 0 = 0 → t.lantern.word = s.lantern.word)) ∧ (∀ a, a ≠ A.LANTERN_STATUS → rd t a = rd s a)) ∧
  (∀ (s : State), s.power = .on → s.ridge % 32000 ≠ 0 → ∃ t, exec .lanternWordBoundary s = .next t ∧
      t.lantern = s.lantern ∧ (∀ a, rd t a = rd s a)) ∧
  (∀ (agent : Agent) (v : Word) (s : State), s.power = .on → takesEffectNow s agent A.LANTERN_TEST v.toNat = true → v.getLsbD 0 = true → s.lantern.test = none → safeState s = false → ∃ t, exec (.lanternTest agent v) s = .next t ∧
      t.lantern.test = some s.ridge ∧ rdF t A.LANTERN_STATUS 1 0 = 0 ∧ rdB t A.LANTERN_STATUS 2 = true ∧ rd t A.LANTERN_TESTS = (rd s A.LANTERN_TESTS + 1) % 4294967296 ∧ t.lantern.word = 0 ∧ t.lantern.due = false ∧ (∀ a, a ≠ A.LANTERN_STATUS → a ≠ A.LANTERN_TESTS → rd t a = rd s a)) ∧
  (∀ (agent : Agent) (v : Word) (s : State), s.power = .on → takesEffectNow s agent A.LANTERN_TEST v.toNat = true → (v.getLsbD 0 = false ∨ s.lantern.test ≠ none ∨ safeState s = true) → ∃ t, exec (.lanternTest agent v) s = .next t ∧
      t.lantern = s.lantern ∧ (∀ a, rd t a = rd s a)) ∧
  (∀ (f : Nat) (s : State), s.power = .on → s.lantern.test = some f → f + 1000 * rdF s A.LANTERN_TEST_LEN 16 0 ≤ s.ridge → ∃ t, exec .lanternTestEnd s = .next t ∧
      t.lantern.test = none ∧ t.lantern.tested = true ∧ rdB t A.LANTERN_STATUS 2 = false ∧ bitN (evtFlags t 0x2E0) 1 = true ∧ ((s.lantern.booted = true → s.lantern.clockLost = false → safeState s = false → rdF s A.LANTERN_STATUS 1 0 = 0 → t.lantern.due = true)) ∧ (∀ a, a ≠ A.LANTERN_STATUS → ¬eventAddr 0x2E0 a → rd t a = rd s a)) ∧
  (∀ (s : State), s.power = .on → (s.lantern.test = none ∨ (∃ f, s.lantern.test = some f ∧ s.ridge < f + 1000 * rdF s A.LANTERN_TEST_LEN 16 0)) → ∃ t, exec .lanternTestEnd s = .next t ∧
      t.lantern = s.lantern ∧ (∀ a, rd t a = rd s a)) ∧
  (∀ (agent : Agent) (v : Word) (s : State), s.power = .on → takesEffect s agent A.SNT_CTL v.toNat = true → ∃ t, exec (.sentryEnable agent v) s = .next t ∧
      ((bitN v.toNat 0 = true → sentryRegionsOk s = true → sentryOn t = true)) ∧ ((bitN v.toNat 0 = true → sentryRegionsOk s = false → sentryOn t = sentryOn s ∧ bitN (evtFlags t 0x2D0) 4 = true)) ∧ ((bitN v.toNat 0 = false → sentryOn t = false)) ∧ ((0x400 ≤ fldN v.toNat 27 16 → rdF t A.SNT_CTL 27 16 = fldN v.toNat 27 16)) ∧ ((fldN v.toNat 27 16 < 0x400 → rdF t A.SNT_CTL 27 16 = rdF s A.SNT_CTL 27 16 ∧ bitN (evtFlags t 0x2D0) 4 = true)) ∧ (∀ a, a ≠ A.SNT_CTL → ¬eventAddr 0x2D0 a → rd t a = rd s a)) ∧
  (∀ (k l : Nat) (s : State), s.power = .on → s.sentry.due = some (k, l) → bistBusy s 0x2A = false → (sentryMissing s k = [] ∨ l + 1000 * rdF s A.SNT_START_LIMIT 19 0 ≤ s.ridge) → ∃ t, exec .sentryRunStart s = .next t ∧
      t.sentry = { s.sentry with due := none, run := some (k, s.ridge, sentryMissing s k) } ∧ rdB t A.SNT_STATUS 0 = true ∧ ((∀ a, a ≠ A.SNT_STATUS → rd t a = rd s a))) ∧
  (∀ (s : State), s.power = .on → (s.sentry.due = none ∨ bistBusy s 0x2A = true ∨ (∃ k l, s.sentry.due = some (k, l) ∧ sentryMissing s k ≠ [] ∧ s.ridge < l + 1000 * rdF s A.SNT_START_LIMIT 19 0)) → ∃ t, exec .sentryRunStart s = .next t ∧
      t.sentry = s.sentry ∧ (∀ a, rd t a = rd s a)) ∧
  (∀ (cells : List (BitVec 2)) (corrected : Nat) (bad : Bool) (k f : Nat) (miss : List Nat) (s : State), s.power = .on → s.sentry.run = some (k, f, miss) → ∃ t, exec (.sentryRunEnd cells corrected bad) s = .next t ∧
      t.sentry.run = none ∧ t.sentry.due = none ∧ t.sentry.ended = some k ∧ t.sentry.last = some { frame := k, flags := (sentrySlots s).foldl (fun f n => f ||| (if miss.contains n then flVoid else (tapOf s n).flags)) 0, void := bad || (sentrySlots s).all (fun n => miss.contains n || (tapOf s n).void), at_ := s.ridge } ∧ t.sntMem = (sntPut s (gridBuffer k) (gridBytes (runCells s cells))).sntMem ∧ ((∀ n, (tapOf t n).held = true → (tapOf t n).frame ≠ some k)) ∧ rd t A.SNT_STATUS = 2 + 65536 * (k % 65536) ∧ rdB t A.SNT_INJECT 0 = false ∧ rd t A.SNT_LAST_TIME = (s.ridge - f) / 1000 % 4294967296 ∧ rd t A.SNT_ECC_CORR = min (rd s A.SNT_ECC_CORR + corrected) 0xFFFFFFFF ∧ ((bad = true → rd t A.SNT_ECC_UNCORR = min (rd s A.SNT_ECC_UNCORR + 1) 0xFFFFFFFF ∧ bitN (evtFlags t 0x2D0) 3 = true ∧ (0x142, St.SNT_ECC_UNCORRECTABLE) ∈ t.fc.inbox.map (fun r => (r.source, r.status)))) ∧ (((bad || (sentrySlots s).all (fun n => miss.contains n || (tapOf s n).void)) = true → rd t A.SNT_VOID_COUNT = min (rd s A.SNT_VOID_COUNT + 1) 0xFFFFFFFF ∧ bitN (evtFlags t 0x2D0) 1 = true))) ∧
  (∀ (cells : List (BitVec 2)) (corrected : Nat) (bad : Bool) (s : State), s.power = .on → s.sentry.run = none → ∃ t, exec (.sentryRunEnd cells corrected bad) s = .next t ∧
      t.sentry = s.sentry ∧ t.sntMem = s.sntMem ∧ (∀ a, rd t a = rd s a)) ∧
  (∀ (agent : Agent) (v : Word) (s : State), s.power = .on → takesEffect s agent A.SNT_INJECT v.toNat = true → ∃ t, exec (.sntInject agent v) s = .next t ∧
      rdB t A.SNT_INJECT 0 = bitN v.toNat 0 ∧ (∀ a, a ≠ A.SNT_INJECT → rd t a = rd s a)) ∧
  (∀ (agent : Agent) (v : Word) (s : State), s.power = .on → takesEffect s agent A.COMP_CTL v.toNat = true → (bitN v.toNat 0 = true → compConfigOk s = true) → ∃ t, exec (.compEnable agent v) s = .next t ∧
      (rd t A.COMP_CTL = setFldN (v.toNat % 0x100000) 15 4 (if fgOn s (coveredFg s) = true ∨ fldN v.toNat 9 4 < fldN v.toNat 15 10 then rdF s A.COMP_CTL 15 4 else fldN v.toNat 15 4)) ∧ ((bitN v.toNat 0 = true → t.comp = s.comp ∧ ∀ a, a ≠ A.COMP_CTL → ¬eventAddr 0x2D8 a → rd t a = rd s a)) ∧ ((bitN v.toNat 0 = false → t.comp.cycle = none ∧ t.comp.window = s.comp.window)) ∧ ((fgOn s (coveredFg s) = false → fldN v.toNat 9 4 < fldN v.toNat 15 10 → bitN (evtFlags t 0x2D8) 3 = true))) ∧
  (∀ (agent : Agent) (v : Word) (s : State), s.power = .on → takesEffect s agent A.COMP_CTL v.toNat = true → bitN v.toNat 0 = true → compConfigOk s = false → ∃ t, exec (.compEnable agent v) s = .next t ∧
      (rd t A.COMP_CTL = setFldN (setFldN (v.toNat % 0x100000) 0 0 (rdF s A.COMP_CTL 0 0)) 15 4 (if fgOn s (coveredFg s) = true ∨ fldN v.toNat 9 4 < fldN v.toNat 15 10 then rdF s A.COMP_CTL 15 4 else fldN v.toNat 15 4)) ∧ compOn t = compOn s ∧ bitN (evtFlags t 0x2D8) 3 = true) ∧
  (∀ (c : CompCycle) (s : State), s.power = .on → s.comp.cycle = some c → c.cut = false → cutOff c ≤ s.ridge → ∃ t, exec .judgementCutOff s = .next t ∧
      t.comp.cycle = some { c with cut := true } ∧ ((∀ i, i < 16 → bitN (c.snap.entries.getD i 0) 0 = true → rd t (A.COV_LAST i) = b2n (c.seen.contains (covStream (c.snap.entries.getD i 0))) + 65536 * (c.frame % 65536))) ∧ ((∀ i, i < 16 → bitN (c.snap.entries.getD i 0) 0 = false → rd t (A.COV_LAST i) = rd s (A.COV_LAST i)))) ∧
  (∀ (k j : Nat) (s : State), s.power = .on → s.sentry.cutAt = some (k, j) → j ≤ s.ridge → ∃ t, exec .judgementCutOff s = .next t ∧
      t.sentry.cutAt = none ∧ (((∀ g, s.sentry.last = some g → g.frame ≠ k ∨ j < g.at_) → t.sentry.run = none ∧ t.sentry.due = none ∧ t.sentry.ended = some k ∧ rd t A.SNT_STATUS = 65536 * (k % 65536) ∧ rd t A.SNT_LATE_COUNT = min (rd s A.SNT_LATE_COUNT + 1) 0xFFFFFFFF ∧ bitN (evtFlags t 0x2D0) 0 = true ∧ (∀ n, (tapOf t n).held = true → (tapOf t n).frame ≠ some k))) ∧ (((∃ g, s.sentry.last = some g ∧ g.frame = k ∧ g.at_ ≤ j) → t.sentry.run = s.sentry.run ∧ rd t A.SNT_LATE_COUNT = rd s A.SNT_LATE_COUNT))) ∧
  (∀ (s : State), s.power = .on → (s.sentry.cutAt = none ∨ (∃ k j, s.sentry.cutAt = some (k, j) ∧ s.ridge < j)) → (s.comp.cycle = none ∨ (∃ c, s.comp.cycle = some c ∧ (c.cut = true ∨ s.ridge < cutOff c))) → ∃ t, exec .judgementCutOff s = .next t ∧
      t.sentry = s.sentry ∧ t.comp = s.comp ∧ (∀ a, rd t a = rd s a)) ∧
  (∀ (rail : Bool) (c : CompCycle) (z1 : Nat × Nat × Nat) (s : State), s.power = .on → s.comp.cycle = some c → c.judged = false → (c.cut = true ∨ inputsComplete s c = true) → c.safe = false → safeState s = false → judge s c rail = ([], z1) → ∃ t, exec (.compVerdict rail) s = .next t ∧
      t.comp = { cycle := some { c with judged := true, results := [] }, window := (false :: s.comp.window).take (compW s) } ∧ rd t A.COMP_CYCLES = (rd s A.COMP_CYCLES + 1) % 4294967296 ∧ rdF t A.COMP_STATUS 31 16 = c.frame % 65536 ∧ rdF t A.COMP_STATUS 10 8 = 0 ∧ rd t A.COMP_DISAGREE = rd s A.COMP_DISAGREE ∧ ((∀ r ∈ inTime c, unwritable s r.ring (r.pod) = false → (r.pod) ∈ (ringOf t r.ring).queue.map (·.pod)))) ∧
  (∀ (rail : Bool) (c : CompCycle) (v : Nat) (r : List Nat) (z1 : Nat × Nat × Nat) (s : State), s.power = .on → s.comp.cycle = some c → c.judged = false → (c.cut = true ∨ inputsComplete s c = true) → c.safe = false → safeState s = false → judge s c rail = (v :: r, z1) → compK s ≤ ((true :: s.comp.window).take (compW s)).countP (· == true) → ∃ t, exec (.compVerdict rail) s = .next t ∧
      t.comp.window = (true :: s.comp.window).take (compW s) ∧ bitN (evtFlags t 0x2D8) 1 = true ∧ rd t A.COMP_SAFE_COUNT = min (rd s A.COMP_SAFE_COUNT + 1) 0xFFFFFFFF ∧ rdB t A.COMP_STATUS 11 = true ∧ ((4 ≤ rdF s (A.FC_SRC_CFG 0x140) 2 0 → safeState t = true)) ∧ (logAt t (rdF s A.FC_LOG_HEAD 7 0)).map (fun x => (x.source, x.status, x.merged, x.seq)) = some (0x140, St.COMP_SAFE, false, rdF s A.FC_LOG_HEAD 31 16) ∧ rd t A.COMP_CYCLES = (rd s A.COMP_CYCLES + 1) % 4294967296 ∧ rdF t A.COMP_STATUS 31 16 = c.frame % 65536 ∧ rd t A.COMP_DISAGREE = min (rd s A.COMP_DISAGREE + 1) 0xFFFFFFFF ∧ rdF t A.COMP_STATUS 10 8 = v ∧ ((v = 6 → bitN (evtFlags t 0x2D8) 2 = true ∧ (0x141, St.COMP_RAIL_FAULT) ∈ t.fc.inbox.map (fun r => (r.source, r.status))))) ∧
  (∀ (rail : Bool) (c : CompCycle) (v : Nat) (r : List Nat) (z1 : Nat × Nat × Nat) (s : State), s.power = .on → s.comp.cycle = some c → c.judged = false → (c.cut = true ∨ inputsComplete s c = true) → c.safe = false → safeState s = false → judge s c rail = (v :: r, z1) → ((true :: s.comp.window).take (compW s)).countP (· == true) < compK s → ∃ t, exec (.compVerdict rail) s = .next t ∧
      t.comp = { cycle := some { c with judged := true, results := [] }, window := (true :: s.comp.window).take (compW s) } ∧ bitN (evtFlags t 0x2D8) 0 = true ∧ rd t A.COMP_CYCLES = (rd s A.COMP_CYCLES + 1) % 4294967296 ∧ rdF t A.COMP_STATUS 31 16 = c.frame % 65536 ∧ rd t A.COMP_DISAGREE = min (rd s A.COMP_DISAGREE + 1) 0xFFFFFFFF ∧ rdF t A.COMP_STATUS 10 8 = v ∧ ((v = 6 → bitN (evtFlags t 0x2D8) 2 = true ∧ (0x141, St.COMP_RAIL_FAULT) ∈ t.fc.inbox.map (fun r => (r.source, r.status)))) ∧ ((∀ r ∈ inTime c, unwritable s r.ring (contestedPod r.pod) = false → (contestedPod r.pod) ∈ (ringOf t r.ring).queue.map (·.pod)))) ∧
  (∀ (rail : Bool) (c : CompCycle) (s : State), s.power = .on → s.comp.cycle = some c → c.judged = false → (c.cut = true ∨ inputsComplete s c = true) → (c.safe = true ∨ safeState s = true) → ∃ t, exec (.compVerdict rail) s = .next t ∧
      t.comp = { s.comp with cycle := some { c with judged := true, results := [] } } ∧ ((rail = true → bitN (evtFlags t 0x2D8) 2 = true ∧ (0x141, St.COMP_RAIL_FAULT) ∈ t.fc.inbox.map (fun r => (r.source, r.status)))) ∧ ((rail = false → t.fc = s.fc ∧ ∀ a, rd t a = rd s a))) ∧
  (∀ (rail : Bool) (s : State), s.power = .on → (s.comp.cycle = none ∨ (∃ c, s.comp.cycle = some c ∧ (c.judged = true ∨ (c.cut = false ∧ inputsComplete s c = false)))) → ∃ t, exec (.compVerdict rail) s = .next t ∧
      t.comp = s.comp ∧ t.fc = s.fc ∧ (∀ a, rd t a = rd s a)) ∧
  (∀ (p : Fin 5) (addr : Word) (s : State), s.power = .on → pairCompares s p.val = true → ∃ t, exec (.lockstepMismatch p addr) s = .next t ∧
      (coreAt t (pairCore p.val)).stopped = true ∧ rdB t A.LS_STATUS (8 + p.val) = true ∧ rd t A.LS_MISMATCH_COUNT = min (rd s A.LS_MISMATCH_COUNT + 1) 0xFFFFFFFF ∧ bitN (evtFlags t 0x2DB) 0 = true ∧ (0x0F0 + p.val, St.LOCKSTEP_MISMATCH, false) ∈ t.fc.inbox.map (fun r => (r.source, r.status, r.injected)) ∧ ((∀ k, k ≠ pairCore p.val → coreAt t k = coreAt s k))) ∧
  (∀ (p : Fin 5) (addr : Word) (s : State), s.power = .on → pairCompares s p.val = false → ∃ t, exec (.lockstepMismatch p addr) s = .next t ∧
      t.cores = s.cores ∧ t.fc = s.fc ∧ (∀ a, rd t a = rd s a)) ∧
  (∀ (agent : Agent) (mask : BitVec 5) (copy : Fin 2) (s : State), s.power = .on → takesEffect s agent A.LS_DEBUG mask.toNat = true → rdB s A.MGT_STATUS 2 = true → mask ≠ 0 → ∃ t, exec (.lsDebugHalt agent mask copy) s = .next t ∧
      ((split s = false → ∀ q, q < 5 → bitN mask.toNat q = true → (coreAt t (pairCore q)).halted0 = true ∧ (coreAt t (pairCore q)).halted1 = true)) ∧ ((split s = true → ∀ q, q < 5 → bitN mask.toNat q = true → (copy.val = 0 → (coreAt t (pairCore q)).halted0 = true) ∧ (copy.val = 1 → (coreAt t (pairCore q)).halted1 = true))) ∧ ((∀ q, q < 5 → bitN mask.toNat q = false → coreAt t (pairCore q) = coreAt s (pairCore q))) ∧ bitN (evtFlags t 0x2DB) 1 = true ∧ rd t A.LS_DEBUG = mask.toNat ∧ ((fgOn s (coveredFg s) = true → bitN (evtFlags t 0x2DB) 3 = true ∧ (logAt t (rdF s A.FC_LOG_HEAD 7 0)).map (fun x => (x.source, x.status, x.merged, x.seq)) = some (0x143, St.DEBUG_SAFE, false, rdF s A.FC_LOG_HEAD 31 16)))) ∧
  (∀ (agent : Agent) (mask : BitVec 5) (copy : Fin 2) (s : State), s.power = .on → takesEffect s agent A.LS_DEBUG mask.toNat = true → (rdB s A.MGT_STATUS 2 = false ∨ mask = 0) → ∃ t, exec (.lsDebugHalt agent mask copy) s = .next t ∧
      t.cores = s.cores ∧ t.fc = s.fc ∧ rd t A.LS_DEBUG = mask.toNat ∧ (∀ a, a ≠ A.LS_DEBUG → rd t a = rd s a)) ∧
  (∀ (agent : Agent) (s : State), s.power = .on → takesEffect s agent A.LS_DEBUG 0x100 = true → rdB s A.MGT_STATUS 2 = true → ∃ t, exec (.lsDebugResume agent) s = .next t ∧
      ((∀ q, q < 5 → (coreAt t (pairCore q)).halted0 = false ∧ (coreAt t (pairCore q)).halted1 = false ∧ (coreAt t (pairCore q)).running = (coreAt s (pairCore q)).running)) ∧ rd t A.LS_DEBUG = 0) ∧
  (∀ (agent : Agent) (s : State), s.power = .on → takesEffect s agent A.LS_DEBUG 0x100 = true → rdB s A.MGT_STATUS 2 = false → ∃ t, exec (.lsDebugResume agent) s = .next t ∧
      t.cores = s.cores ∧ t.fc = s.fc ∧ rd t A.LS_DEBUG = 0) ∧
  (∀ (agent : Agent) (v : Word) (s : State), s.power = .on → takesEffect s agent A.LS_INJECT v.toNat = true → fldN v.toNat 2 0 ≤ 4 → ∃ t, exec (.lsInject agent v) s = .next t ∧
      ((bitN v.toNat 3 = false → rdF t A.LS_INJECT 3 0 = fldN v.toNat 3 0 ∧ t.cores = s.cores)) ∧ ((bitN v.toNat 3 = true → pairCompares s (fldN v.toNat 2 0) = true → (coreAt t (pairCore (fldN v.toNat 2 0))).stopped = true ∧ rdB t A.LS_INJECT 3 = false ∧ bitN (evtFlags t 0x2DB) 2 = true ∧ (0x0F0 + fldN v.toNat 2 0, St.LOCKSTEP_MISMATCH, true) ∈ t.fc.inbox.map (fun r => (r.source, r.status, r.injected)))) ∧ ((bitN v.toNat 3 = true → pairCompares s (fldN v.toNat 2 0) = false → rdF t A.LS_INJECT 3 0 = fldN v.toNat 3 0 ∧ t.cores = s.cores))) ∧
  (∀ (agent : Agent) (v : Word) (s : State), s.power = .on → takesEffect s agent A.LS_INJECT v.toNat = true → 4 < fldN v.toNat 2 0 → ∃ t, exec (.lsInject agent v) s = .next t ∧
      rdF t A.LS_INJECT 2 0 = rdF s A.LS_INJECT 2 0 ∧ ((bitN v.toNat 3 = false → rdB t A.LS_INJECT 3 = false ∧ t.cores = s.cores)))

/-- O59. The fault collector and the self-test. A report that reaches the collector is recorded in the next log entry
with its class, and counted, or merged into the open record of its tag, and class C4 or C5 forces safe state; a
level condition that has ended leaves its source inactive; the quiet period's end leaves safe state, at once or at
the next covered launch, or into the latched fatal state at the recovery limit; FC_FORCE_SAFE and FC_KILL force safe
state; FC_INJECT raises an injected report. Commanded tests, slices and coverage lapses act as R477 to R480 say;
kicks and expiries of watchdogs as R505 says. Where a command finds nothing due, nothing happens. -/
def Obligations.FaultHandling : Prop :=
  (∀ (r : Report) (rest : List Report) (s : State), s.power = .on → s.fc.inbox = r :: rest → (r.tag != 0 && s.fc.openMerge.any (fun m => m.1 == r.tag)) = false → ∃ t, exec (.faultReport none) s = .next t ∧
      (logAt t (rdF s A.FC_LOG_HEAD 7 0)).map (fun x => (x.source, x.status, x.merged, x.seq)) = some (r.source, r.status, false, rdF s A.FC_LOG_HEAD 31 16) ∧ (logAt t (rdF s A.FC_LOG_HEAD 7 0)).map (fun x => (x.cls, x.detected, x.injected)) = some (classify s r false, r.detected, r.injected) ∧ ((detailDefined r.source = true → (logAt t (rdF s A.FC_LOG_HEAD 7 0)).map (·.detail) = some r.detail)) ∧ rd t A.FC_LOG_HEAD = ((rdF s A.FC_LOG_HEAD 7 0) + 1) % 256 + 65536 * ((rdF s A.FC_LOG_HEAD 31 16 + 1) % 65536) ∧ ((r.source < 0x200 → rd t (A.FC_SRC_COUNT r.source) = min (rd s (A.FC_SRC_COUNT r.source) + 1) 0xFFFFFFFF)) ∧ ((4 ≤ classify s r false → safeState t = true)) ∧ ((classify s r false = 5 → rdF t A.FC_STATUS 1 0 = 2))) ∧
  (∀ (r : Report) (rest : List Report) (m : Nat × Nat) (x : FaultRecord) (s : State), s.power = .on → s.fc.inbox = r :: rest → r.tag ≠ 0 → s.fc.openMerge.find? (fun m => m.1 == r.tag) = some m → logAt s m.2 = some x → ∃ t, exec (.faultReport none) s = .next t ∧
      logAt t m.2 = some { x with merged := true, mergedCount := (x.mergedCount + 1) % 65536, cls := max x.cls (classify s r true) } ∧ ((∀ i, i ≠ m.2 → logAt t i = logAt s i)) ∧ rd t A.FC_LOG_HEAD = rd s A.FC_LOG_HEAD ∧ ((4 ≤ classify s r true → safeState t = true))) ∧
  (∀ (s : State), s.power = .on → s.fc.inbox = [] → ∃ t, exec (.faultReport none) s = .next t ∧
      t.fc = s.fc ∧ (∀ a, rd t a = rd s a)) ∧
  (∀ (f : FaultIn) (s : State), s.power = .on → (sourceInfo f.source.toNat).isSome = true → (f.tag.toNat != 0 && s.fc.openMerge.any (fun m => m.1 == f.tag.toNat)) = false → ∃ t, exec (.faultReport (some f)) s = .next t ∧
      (logAt t (rdF s A.FC_LOG_HEAD 7 0)).map (fun x => (x.source, x.status, x.merged, x.seq)) = some (f.source.toNat, f.status.toNat, false, rdF s A.FC_LOG_HEAD 31 16) ∧ (logAt t (rdF s A.FC_LOG_HEAD 7 0)).map (·.detected) = some s.ridge ∧ ((isLevel f.source.toNat f.status.toNat = true → levelActive t f.source.toNat = true))) ∧
  (∀ (f : FaultIn) (m : Nat × Nat) (x : FaultRecord) (s : State), s.power = .on → (sourceInfo f.source.toNat).isSome = true → f.tag.toNat ≠ 0 → s.fc.openMerge.find? (fun m => m.1 == f.tag.toNat) = some m → logAt s m.2 = some x → ∃ t, exec (.faultReport (some f)) s = .next t ∧
      (logAt t m.2).map (fun y => (y.source, y.merged, y.mergedCount)) = some (x.source, true, (x.mergedCount + 1) % 65536) ∧ ((∀ i, i ≠ m.2 → logAt t i = logAt s i))) ∧
  (∀ (f : FaultIn) (s : State), s.power = .on → (sourceInfo f.source.toNat).isNone = true → ∃ t, exec (.faultReport (some f)) s = .next t ∧
      t.fc = s.fc ∧ (∀ a, rd t a = rd s a)) ∧
  (∀ (src : BitVec 9) (s : State), s.power = .on → levelActive s src.toNat = true → levelSources.contains src.toNat = true → levelHolds s src.toNat = false → ∃ t, exec (.faultLevelClear src) s = .next t ∧
      levelActive t src.toNat = false ∧ ((∀ i, i < 0x200 → i ≠ src.toNat → levelActive t i = levelActive s i))) ∧
  (∀ (src : BitVec 9) (s : State), s.power = .on → (levelActive s src.toNat = false ∨ levelSources.contains src.toNat = false ∨ levelHolds s src.toNat = true) → ∃ t, exec (.faultLevelClear src) s = .next t ∧
      t.fc = s.fc ∧ (∀ a, rd t a = rd s a)) ∧
  (∀ (f : Nat) (s : State), s.power = .on → s.fc.quietFrom = some f → f + 1000000 * rdF s A.FC_QUIET 13 0 ≤ s.ridge → ∃ t, exec .quietPeriodExpire s = .next t ∧
      ((fgOn s (coveredFg s) = true → t.fc = { s.fc with quietFrom := none, exitDue := true } ∧ ∀ a, rd t a = rd s a)) ∧ ((fgOn s (coveredFg s) = false → (recentExits s).length < rdF s A.FC_RECOVERY_CFG 3 0 → safeState t = false ∧ t.fc.exits = recentExits s ++ [s.ridge] ∧ t.fc.quietFrom = none ∧ t.fc.exitDue = false ∧ rd t A.FC_RECOVERIES = (rd s A.FC_RECOVERIES + 1) % 4294967296 ∧ t.comp.window = [])) ∧ ((fgOn s (coveredFg s) = false → rdF s A.FC_RECOVERY_CFG 3 0 ≤ (recentExits s).length → rdF t A.FC_STATUS 1 0 = 2 ∧ (logAt t (rdF s A.FC_LOG_HEAD 7 0)).map (fun x => (x.source, x.status, x.merged, x.seq)) = some (0x1F1, St.RECOVERY_LIMIT, false, rdF s A.FC_LOG_HEAD 31 16)))) ∧
  (∀ (s : State), s.power = .on → (s.fc.quietFrom = none ∨ (∃ f, s.fc.quietFrom = some f ∧ s.ridge < f + 1000000 * rdF s A.FC_QUIET 13 0)) → ∃ t, exec .quietPeriodExpire s = .next t ∧
      t.fc = s.fc ∧ (∀ a, rd t a = rd s a)) ∧
  (∀ (copies crcs : Bool) (s : State), s.power = .on → (copies && crcs) = false → levelActive s 0x1F0 = false → ∃ t, exec (.fcSelfFault copies crcs) s = .next t ∧
      rd t A.FC_SELF_STATUS = b2n copies + 2 * b2n crcs ∧ levelActive t 0x1F0 = true ∧ bitN (evtFlags t 0x2C0) 4 = true ∧ (logAt t (rdF s A.FC_LOG_HEAD 7 0)).map (fun x => (x.source, x.status, x.merged, x.seq)) = some (0x1F0, St.FC_SELF_FAULT, false, rdF s A.FC_LOG_HEAD 31 16) ∧ ((4 ≤ rdF s (A.FC_SRC_CFG 0x1F0) 2 0 → safeState t = true))) ∧
  (∀ (copies crcs : Bool) (s : State), s.power = .on → ((copies && crcs) = true ∨ levelActive s 0x1F0 = true) → ∃ t, exec (.fcSelfFault copies crcs) s = .next t ∧
      t.fc = s.fc ∧ rd t A.FC_SELF_STATUS = (if (copies && crcs) = true then rd s A.FC_SELF_STATUS else b2n copies + 2 * b2n crcs) ∧ (∀ a, a ≠ A.FC_SELF_STATUS → rd t a = rd s a)) ∧
  (∀ (agent : Agent) (v : Word) (s : State), s.power = .on → takesEffectNow s agent A.FC_FORCE_SAFE v.toNat = true → v.getLsbD 0 = true → ∃ t, exec (.fcForceSafe agent v) s = .next t ∧
      (logAt t (rdF s A.FC_LOG_HEAD 7 0)).map (fun x => (x.source, x.status, x.merged, x.seq)) = some (0x1FF, St.FC_FORCED, false, rdF s A.FC_LOG_HEAD 31 16) ∧ ((4 ≤ rdF s (A.FC_SRC_CFG 0x1FF) 2 0 → safeState t = true))) ∧
  (∀ (agent : Agent) (v : Word) (s : State), s.power = .on → takesEffectNow s agent A.FC_FORCE_SAFE v.toNat = true → v.getLsbD 0 = false → ∃ t, exec (.fcForceSafe agent v) s = .next t ∧
      t.fc = s.fc ∧ (∀ a, rd t a = rd s a)) ∧
  (∀ (agent : Agent) (v : Word) (s : State), s.power = .on → takesEffectNow s agent A.FC_KILL v.toNat = true → v.getLsbD 0 = true → ∃ t, exec (.fcKill agent v) s = .next t ∧
      (logAt t (rdF s A.FC_LOG_HEAD 7 0)).map (fun x => (x.source, x.status, x.merged, x.seq)) = some (0x1FE, St.FC_KILLED, false, rdF s A.FC_LOG_HEAD 31 16) ∧ ((rdF s (A.FC_SRC_CFG 0x1FE) 2 0 = 5 → rdF t A.FC_STATUS 1 0 = 2))) ∧
  (∀ (agent : Agent) (v : Word) (s : State), s.power = .on → takesEffectNow s agent A.FC_KILL v.toNat = true → v.getLsbD 0 = false → ∃ t, exec (.fcKill agent v) s = .next t ∧
      t.fc = s.fc ∧ (∀ a, rd t a = rd s a)) ∧
  (∀ (agent : Agent) (v : Word) (s : State), s.power = .on → takesEffect s agent A.FC_INJECT v.toNat = true → bitN v.toNat 12 = true → (sourceInfo (fldN v.toNat 8 0)).isSome = true → (fldN v.toNat 8 0) ≠ 0x1F0 → (fldN v.toNat 8 0) ≠ 0x1F1 → (fldN v.toNat 8 0) ≠ 0x1FE → (fldN v.toNat 8 0) ≠ 0x1FF → ∃ t, exec (.fcInject agent v) s = .next t ∧
      t.fc.inbox = s.fc.inbox ++ [{ source := (fldN v.toNat 8 0), status := (soleStatus (fldN v.toNat 8 0)).getD (Config.freeValue s.freeCount % 65536), injected := true, detected := s.ridge }] ∧ rd t A.FC_INJECT = (fldN v.toNat 8 0) ∧ ((∀ a, a ≠ A.FC_INJECT → rd t a = rd s a))) ∧
  (∀ (agent : Agent) (v : Word) (s : State), s.power = .on → takesEffect s agent A.FC_INJECT v.toNat = true → bitN v.toNat 12 = true → ((sourceInfo (fldN v.toNat 8 0)).isNone = true ∨ (fldN v.toNat 8 0) = 0x1F0 ∨ (fldN v.toNat 8 0) = 0x1F1 ∨ (fldN v.toNat 8 0) = 0x1FE ∨ (fldN v.toNat 8 0) = 0x1FF) → ∃ t, exec (.fcInject agent v) s = .next t ∧
      t.fc = s.fc ∧ bitN (evtFlags t 0x2C0) 6 = true ∧ rd t A.FC_INJECT = (fldN v.toNat 8 0)) ∧
  (∀ (agent : Agent) (v : Word) (s : State), s.power = .on → takesEffect s agent A.FC_INJECT v.toNat = true → bitN v.toNat 12 = false → ∃ t, exec (.fcInject agent v) s = .next t ∧
      t.fc = s.fc ∧ rd t A.FC_INJECT = (fldN v.toNat 8 0) ∧ ((∀ a, a ≠ A.FC_INJECT → rd t a = rd s a))) ∧
  (∀ (agent : Agent) (v : Word) (s : State), s.power = .on → takesEffect s agent A.BIST_CMD v.toNat = true → ∃ t, exec (.bistCmd agent v) s = .next t ∧
      ((bitN v.toNat 15 = true → bistMayRun s (fldN v.toNat 5 0) = true → t.bist = { s.bist with cmd := some (fldN v.toNat 5 0, bitN v.toNat 8) } ∧ rd t A.BIST_STATUS = 1 + 256 * fldN v.toNat 5 0)) ∧ ((bitN v.toNat 15 = true → bistMayRun s (fldN v.toNat 5 0) = false → t.bist = s.bist ∧ rdF t A.BIST_STATUS 17 16 = 2 ∧ rdB t A.BIST_STATUS 0 = rdB s A.BIST_STATUS 0)) ∧ ((bitN v.toNat 15 = false → t.bist = s.bist ∧ rd t A.BIST_STATUS = rd s A.BIST_STATUS)) ∧ rd t A.BIST_CMD = fldN v.toNat 5 0 + 256 * fldN v.toNat 8 8 ∧ (∀ a, a ≠ A.BIST_CMD → a ≠ A.BIST_STATUS → rd t a = rd s a)) ∧
  (∀ (sig : BitVec 128) (u : Nat) (mem : Bool) (s : State), s.power = .on → s.bist.cmd = some (u, mem) → u < 64 → ∃ t, exec (.bistResult sig) s = .next t ∧
      t.bist.cmd = none ∧ rdB t A.BIST_STATUS 0 = false ∧ rdB t A.BIST_STATUS 16 = !decide (leAt s.bist.expected (16 * (2 * u + b2n mem)) 16 = sig.toNat) ∧ bitN (evtFlags t 0x2E8) 0 = true ∧ (∀ k, smGet (fun _ => 0) t.bist.passAt k = if k = u ∧ mem = false ∧ leAt s.bist.expected (32 * u) 16 = sig.toNat then s.ridge else smGet (fun _ => 0) s.bist.passAt k)) ∧
  (∀ (sig : BitVec 128) (s : State), s.power = .on → s.bist.cmd = none → ∃ t, exec (.bistResult sig) s = .next t ∧
      t.bist = s.bist ∧ t.fc = s.fc ∧ (∀ a, rd t a = rd s a)) ∧
  (∀ (u : BitVec 6) (s : State), s.power = .on → (bistUnit u.toNat).isSome = true → rdB s A.BIST_CTL 0 = true → bistExempt s u.toNat = false → bistBusy s u.toNat = false → s.bist.slices.any (fun x => bistPlace x.1 == bistPlace u.toNat) = false → ∃ t, exec (.bistSliceStart u) s = .next t ∧
      (((bistIdle s u.toNat && (safeState s || !inReserved s s.ridge (sliceTicks u.toNat))) = true → t.bist = { s.bist with slices := s.bist.slices ++ [(u.toNat, s.ridge)] } ∧ (u.toNat < 0x10 → (arrUnit t (u.toNat / 4) (u.toNat % 4)).resident = []) ∧ ∀ a, rd t a = rd s a)) ∧ (((bistIdle s u.toNat && (safeState s || !inReserved s s.ridge (sliceTicks u.toNat))) = false → t.bist = s.bist ∧ rd t A.BIST_DEFERRALS = (rd s A.BIST_DEFERRALS + 1) % 4294967296 ∧ ∀ a, a ≠ A.BIST_DEFERRALS → rd t a = rd s a))) ∧
  (∀ (u : BitVec 6) (s : State), s.power = .on → ((bistUnit u.toNat).isNone = true ∨ rdB s A.BIST_CTL 0 = false ∨ bistExempt s u.toNat = true ∨ bistBusy s u.toNat = true ∨ s.bist.slices.any (fun x => bistPlace x.1 == bistPlace u.toNat) = true) → ∃ t, exec (.bistSliceStart u) s = .next t ∧
      t.bist = s.bist ∧ t.fc = s.fc ∧ (∀ a, rd t a = rd s a)) ∧
  (∀ (u : BitVec 6) (fail : Bool) (n f total l : Nat) (s : State), s.power = .on → s.bist.slices.find? (fun x => x.1 == u.toNat) = some (n, f) → f + sliceTicks u.toNat ≤ s.ridge → bistUnit u.toNat = some (total, l) → ∃ t, exec (.bistSliceEnd u fail) s = .next t ∧
      t.bist.slices = s.bist.slices.filter (fun x => x.1 != u.toNat) ∧ rdB t (A.BIST_UNIT_STATUS u.toNat) 10 = fail ∧ ((fail = false → rdF s (A.BIST_UNIT_STATUS u.toNat) 7 0 + 1 < total → rdF t (A.BIST_UNIT_STATUS u.toNat) 7 0 = rdF s (A.BIST_UNIT_STATUS u.toNat) 7 0 + 1)) ∧ ((fail = false → total ≤ rdF s (A.BIST_UNIT_STATUS u.toNat) 7 0 + 1 → rdF t (A.BIST_UNIT_STATUS u.toNat) 7 0 = 0 ∧ smGet (fun _ => 0) t.bist.passAt u.toNat = s.ridge ∧ rdF t (A.BIST_UNIT_STATUS u.toNat) 9 8 = 0)) ∧ ((fail = true → rd t A.BIST_FAILS = min (rd s A.BIST_FAILS + 1) 0xFFFFFFFF ∧ bitN (evtFlags t 0x2E8) 1 = true ∧ (0x14A, St.BIST_FAIL, u.toNat) ∈ t.fc.inbox.map (fun r => (r.source, r.status, r.detail))))) ∧
  (∀ (u : BitVec 6) (fail : Bool) (s : State), s.power = .on → (s.bist.slices.find? (fun x => x.1 == u.toNat) = none ∨ (∃ n f, s.bist.slices.find? (fun x => x.1 == u.toNat) = some (n, f) ∧ s.ridge < f + sliceTicks u.toNat)) → ∃ t, exec (.bistSliceEnd u fail) s = .next t ∧
      t.bist = s.bist ∧ t.fc = s.fc ∧ (∀ a, rd t a = rd s a)) ∧
  (∀ (u : BitVec 6) (s : State), s.power = .on → (bistUnit u.toNat).isSome = true → bistExempt s u.toNat = false → rdB s (A.BIST_UNIT_STATUS u.toNat) 8 = false → bistInterval s < sincePass s u.toNat → ∃ t, exec (.coverageLapse u) s = .next t ∧
      rdB t (A.BIST_UNIT_STATUS u.toNat) 8 = true ∧ bitN (evtFlags t 0x2E8) 2 = true ∧ levelActive t 0x148 = true ∧ ((levelActive s 0x148 = false → rd t A.BIST_LAPSES = min (rd s A.BIST_LAPSES + 1) 0xFFFFFFFF ∧ (0x148, St.COVERAGE_LAPSE, u.toNat) ∈ t.fc.inbox.map (fun r => (r.source, r.status, r.detail)))) ∧ ((levelActive s 0x148 = true → t.fc = s.fc))) ∧
  (∀ (u : BitVec 6) (s : State), s.power = .on → ((bistUnit u.toNat).isNone = true ∨ bistExempt s u.toNat = true ∨ rdB s (A.BIST_UNIT_STATUS u.toNat) 8 = true ∨ sincePass s u.toNat ≤ bistInterval s) → ∃ t, exec (.coverageLapse u) s = .next t ∧
      t.bist = s.bist ∧ t.fc = s.fc ∧ (∀ a, rd t a = rd s a)) ∧
  (∀ (u : BitVec 6) (s : State), s.power = .on → (bistUnit u.toNat).isSome = true → bistExempt s u.toNat = false → rdB s (A.BIST_UNIT_STATUS u.toNat) 9 = false → 2 * bistInterval s ≤ sincePass s u.toNat → ∃ t, exec (.coverageLapseDouble u) s = .next t ∧
      rdB t (A.BIST_UNIT_STATUS u.toNat) 9 = true ∧ levelActive t 0x149 = true ∧ ((levelActive s 0x149 = false → (0x149, St.COVERAGE_LAPSE_DOUBLE, u.toNat) ∈ t.fc.inbox.map (fun r => (r.source, r.status, r.detail)))) ∧ ((levelActive s 0x149 = true → t.fc = s.fc))) ∧
  (∀ (u : BitVec 6) (s : State), s.power = .on → ((bistUnit u.toNat).isNone = true ∨ bistExempt s u.toNat = true ∨ rdB s (A.BIST_UNIT_STATUS u.toNat) 9 = true ∨ sincePass s u.toNat < 2 * bistInterval s) → ∃ t, exec (.coverageLapseDouble u) s = .next t ∧
      t.bist = s.bist ∧ t.fc = s.fc ∧ (∀ a, rd t a = rd s a)) ∧
  (∀ (agent : Agent) (core : Fin 7) (token : BitVec 8) (s : State), s.power = .on → takesEffect s agent (A.WD_KICK core.val) token.toNat = true → agent = .firmware core → wdRunning s core.val = true → ∃ t, exec (.wdKick agent core token) s = .next t ∧
      (((10000 * rdF s (A.WD_CFG core.val) 15 0 ≤ s.ridge - (coreAt s core.val).kickAt ∧ s.ridge - (coreAt s core.val).kickAt < 10000 * rdF s (A.WD_CFG core.val) 31 16 ∧ token.toNat = (rdF s (A.WD_STATUS core.val) 7 0 + 1) % 256) → (coreAt t core.val).kickAt = s.ridge ∧ rdF t (A.WD_STATUS core.val) 7 0 = token.toNat ∧ rd t (A.WD_EXPIRIES core.val) = rd s (A.WD_EXPIRIES core.val) ∧ t.fc = s.fc)) ∧ ((¬(10000 * rdF s (A.WD_CFG core.val) 15 0 ≤ s.ridge - (coreAt s core.val).kickAt ∧ s.ridge - (coreAt s core.val).kickAt < 10000 * rdF s (A.WD_CFG core.val) 31 16 ∧ token.toNat = (rdF s (A.WD_STATUS core.val) 7 0 + 1) % 256) → rd t (A.WD_EXPIRIES core.val) = min (rd s (A.WD_EXPIRIES core.val) + 1) 0xFFFFFFFF ∧ rdB t (A.WD_STATUS core.val) 9 = true ∧ bitN (evtFlags t 0x039) 0 = true ∧ (0x0F5 + core.val, St.WATCHDOG_EXPIRED) ∈ t.fc.inbox.map (fun r => (r.source, r.status)) ∧ (2 ≤ core.val → (coreAt t core.val).kickAt = s.ridge)))) ∧
  (∀ (agent : Agent) (core : Fin 7) (token : BitVec 8) (s : State), s.power = .on → takesEffect s agent (A.WD_KICK core.val) token.toNat = true → (agent ≠ .firmware core ∨ wdRunning s core.val = false) → ∃ t, exec (.wdKick agent core token) s = .next t ∧
      t.cores = s.cores ∧ t.fc = s.fc ∧ (∀ a, rd t a = rd s a)) ∧
  (∀ (core : Fin 7) (s : State), s.power = .on → wdRunning s core.val = true → (coreAt s core.val).kickAt + 10000 * rdF s (A.WD_CFG core.val) 31 16 ≤ s.ridge → ∃ t, exec (.watchdogExpired core) s = .next t ∧
      rd t (A.WD_EXPIRIES core.val) = min (rd s (A.WD_EXPIRIES core.val) + 1) 0xFFFFFFFF ∧ rdB t (A.WD_STATUS core.val) 9 = true ∧ bitN (evtFlags t 0x039) 0 = true ∧ (0x0F5 + core.val, St.WATCHDOG_EXPIRED) ∈ t.fc.inbox.map (fun r => (r.source, r.status)) ∧ ((core.val ≤ 1 → (coreAt t core.val).running = false)) ∧ ((core.val = 0 → t.sec.keysStopped = true ∧ t.mgt.session = none)) ∧ ((2 ≤ core.val → (coreAt t core.val).kickAt = s.ridge))) ∧
  (∀ (core : Fin 7) (s : State), s.power = .on → (wdRunning s core.val = false ∨ s.ridge < (coreAt s core.val).kickAt + 10000 * rdF s (A.WD_CFG core.val) 31 16) → ∃ t, exec (.watchdogExpired core) s = .next t ∧
      t.cores = s.cores ∧ t.fc = s.fc ∧ (∀ a, rd t a = rd s a)) ∧
  (∀ (core : Fin 7) (s : State), s.power = .on → (coreAt s core.val).running = false → s.sec.fw ≠ none → (core.val = 0 → s.sec.keysStopped = false) → ∃ t, exec (.coreRestarted core) s = .next t ∧
      (coreAt t core.val).running = true ∧ (coreAt t core.val).kickAt = s.ridge ∧ (coreAt t core.val).halted0 = false ∧ (coreAt t core.val).halted1 = false ∧ rdF t (A.WD_STATUS core.val) 7 0 = 0 ∧ wdRunning t core.val = true) ∧
  (∀ (core : Fin 7) (s : State), s.power = .on → ((coreAt s core.val).running = true ∨ s.sec.fw = none ∨ (core.val = 0 ∧ s.sec.keysStopped = true)) → ∃ t, exec (.coreRestarted core) s = .next t ∧
      t.cores = s.cores ∧ t.fc = s.fc ∧ (∀ a, rd t a = rd s a))

/-- O60. The security core's commands. ATTEST is taken, one at a time, and its object's write completes its pod with the
status of the write; HOST_AUTH authenticates the host exactly on its proof and renews the challenge; KEY_IMPORT
installs the key of a good blob and refuses another, a busy slot, and any without entropy; MODEL_IMPORT is taken on
its conditions and completes with the status of its chunks, a failure leaving its destination zero; KEY_CLEAR
empties an imported slot; REGION_SET leaves the region as its entry says, and is refused where its page is locked or
the device is one of several; SEC_SVN_COMMIT raises the counter for an update session of the management port only; a
failed entropy source is flagged; an unauthenticated host writes no register. Where the spec names no status for a
request that breaks its conditions, the pod completes with a free one (log entry 96). Without a running pod of its
own a command does nothing, nor does any while the security core has stopped. -/
def Obligations.SecurityCommands : Prop :=
  (∀ (no : Nat) (p : RxPod) (u : State) (s : State), s.power = .on → s.sec.attest = none → s.sec.keysStopped = false → takePod s no 4 (isControl 10 1) = some (p, u) → ∃ t, exec (.attest no) s = .next t ∧
      t.sec = { s.sec with attest := some { no := no, what := leAt p.body 0 1, addr := addrLocal (leAt p.body 8 8), nonce := (p.body.drop 16).take 32 } } ∧ t.pods = u.pods ∧ (∀ a, rd t a = rd s a)) ∧
  (∀ (no : Nat) (s : State), s.power = .on → (s.sec.keysStopped = true ∨ takePod s no 4 (isControl 10 1) = none ∨ s.sec.attest ≠ none) → ∃ t, exec (.attest no) s = .next t ∧
      t.sec = s.sec ∧ t.pods = s.pods ∧ t.keySlots = s.keySlots ∧ t.mem = s.mem ∧ (∀ a, rd t a = rd s a)) ∧
  (∀ (a : Attest) (st : Nat) (u v : State) (s : State), s.power = .on → s.sec.attest = some a → encWaits s a.addr (attestLen a.what) = false → u = { s with sec := { s.sec with attest := none } } → memWrite u (.firmware 0) a.addr (attestObject u a.what a.nonce) (podCls u a.no) (podEcho u a.no) = (st, v) → ∃ t, exec .attestOutputWritten s = .next t ∧
      t.sec = { s.sec with attest := none } ∧ PodDone t a.no st ∧ t.mem = v.mem) ∧
  (∀ (s : State), s.power = .on → (s.sec.attest = none ∨ (∃ a, s.sec.attest = some a ∧ encWaits s a.addr (attestLen a.what) = true)) → ∃ t, exec .attestOutputWritten s = .next t ∧
      t.sec = s.sec ∧ t.pods = s.pods ∧ t.keySlots = s.keySlots ∧ t.mem = s.mem ∧ (∀ a, rd t a = rd s a)) ∧
  (∀ (no : Nat) (p : RxPod) (u : State) (s : State), s.power = .on → s.sec.keysStopped = false → takePod s no 4 (isControl 10 2) = some (p, u) → ∃ t, exec (.hostAuth no) s = .next t ∧
      ((hostProof u p = true → rdB t A.SEC_STATUS 1 = true ∧ bitN (evtFlags t 0x030) 1 = true ∧ PodDone t no 0)) ∧ ((hostProof u p = false → rdB t A.SEC_STATUS 1 = rdB s A.SEC_STATUS 1 ∧ bitN (evtFlags t 0x030) 0 = true ∧ rd t A.SEC_AUTH_FAILS = min (rd s A.SEC_AUTH_FAILS + 1) 0xFFFFFFFF ∧ PodDone t no St.HOST_AUTH_FAIL)) ∧ t.sec = { s.sec with challenge := Config.freeValue u.freeCount % 6277101735386680763835789423207666416102355444464034512896 }) ∧
  (∀ (no : Nat) (s : State), s.power = .on → (s.sec.keysStopped = true ∨ takePod s no 4 (isControl 10 2) = none) → ∃ t, exec (.hostAuth no) s = .next t ∧
      t.sec = s.sec ∧ t.pods = s.pods ∧ t.keySlots = s.keySlots ∧ t.mem = s.mem ∧ (∀ a, rd t a = rd s a)) ∧
  (∀ (no : Nat) (p : RxPod) (b : List Byte) (u v : State) (s : State), s.power = .on → s.sec.keysStopped = false → takePod s no 4 (isControl 10 4) = some (p, u) → trngFailed s = false → (leAt p.body 0 1) < 16 → (((keySlot s (leAt p.body 0 1)).valid && !(keySlot s (leAt p.body 0 1)).imported) || slotNamed s (leAt p.body 0 1)) = false → encWaits u (addrLocal (leAt p.body 8 8)) 1648 = false → memRead u (.firmware 0) (addrLocal (leAt p.body 8 8)) 1648 p.hdr.cls (echo := p.hdr.sequence) = (0, b, v) → ∃ t, exec (.keyImport no) s = .next t ∧
      ((∀ m key, openBlob v b = some (m, key) → keySlot t (leAt p.body 0 1) = { valid := true, imported := true, model := m, key := key } ∧ (∀ k, k ≠ (leAt p.body 0 1) → keySlot t k = keySlot s k) ∧ bitN (evtFlags t 0x030) 5 = true ∧ PodDone t no 0)) ∧ ((openBlob v b = none → t.keySlots = s.keySlots ∧ bitN (evtFlags t 0x030) 0 = true ∧ PodDone t no St.KEY_BLOB_INVALID))) ∧
  (∀ (no : Nat) (p : RxPod) (u : State) (s : State), s.power = .on → s.sec.keysStopped = false → takePod s no 4 (isControl 10 4) = some (p, u) → (trngFailed s = true ∨ 16 ≤ (leAt p.body 0 1) ∨ (((keySlot s (leAt p.body 0 1)).valid && !(keySlot s (leAt p.body 0 1)).imported) || slotNamed s (leAt p.body 0 1)) = true) → ∃ t, exec (.keyImport no) s = .next t ∧
      t.keySlots = s.keySlots ∧ PodDone t no (if trngFailed s = true then St.TRNG_FAILED else if 16 ≤ (leAt p.body 0 1) then (Config.freeValue u.freeCount % 65536) else St.KEY_SLOT_BUSY)) ∧
  (∀ (no st : Nat) (p : RxPod) (b : List Byte) (u v : State) (s : State), s.power = .on → s.sec.keysStopped = false → takePod s no 4 (isControl 10 4) = some (p, u) → trngFailed s = false → (leAt p.body 0 1) < 16 → (((keySlot s (leAt p.body 0 1)).valid && !(keySlot s (leAt p.body 0 1)).imported) || slotNamed s (leAt p.body 0 1)) = false → encWaits u (addrLocal (leAt p.body 8 8)) 1648 = false → st ≠ 0 → memRead u (.firmware 0) (addrLocal (leAt p.body 8 8)) 1648 p.hdr.cls (echo := p.hdr.sequence) = (st, b, v) → ∃ t, exec (.keyImport no) s = .next t ∧
      t.keySlots = s.keySlots ∧ PodDone t no st) ∧
  (∀ (no : Nat) (s : State), s.power = .on → (s.sec.keysStopped = true ∨ takePod s no 4 (isControl 10 4) = none) → ∃ t, exec (.keyImport no) s = .next t ∧
      t.sec = s.sec ∧ t.pods = s.pods ∧ t.keySlots = s.keySlots ∧ t.mem = s.mem ∧ (∀ a, rd t a = rd s a)) ∧
  (∀ (no : Nat) (p : RxPod) (u : State) (s : State), s.power = .on → s.sec.keysStopped = false → takePod s no 4 (isControl 10 4) = some (p, u) → trngFailed s = false → (leAt p.body 0 1) < 16 → (((keySlot s (leAt p.body 0 1)).valid && !(keySlot s (leAt p.body 0 1)).imported) || slotNamed s (leAt p.body 0 1)) = false → encWaits u (addrLocal (leAt p.body 8 8)) 1648 = true → ∃ t, exec (.keyImport no) s = .next t ∧
      t.sec = s.sec ∧ t.pods = s.pods ∧ t.keySlots = s.keySlots ∧ t.mem = s.mem ∧ (∀ a, rd t a = rd s a)) ∧
  (∀ (no : Nat) (p : RxPod) (u : State) (s : State), s.power = .on → s.sec.import_ = none → s.sec.keysStopped = false → takePod s no 4 (isControl 10 5) = some (p, u) → (leAt p.body 0 1) < 16 ∧ leAt p.body 1 1 < 16 ∧ leAt p.body 24 4 % 65536 = 0 ∧ leAt p.body 24 4 ≠ 0 ∧ (keySlot s (leAt p.body 0 1)).imported = true ∧ encOn s (leAt p.body 1 1) = true ∧ rdF s (A.ENC_CTL (leAt p.body 1 1)) 6 5 = 0 ∧ encBase s (leAt p.body 1 1) ≤ addrLocal (leAt p.body 16 8) ∧ addrLocal (leAt p.body 16 8) + leAt p.body 24 4 ≤ encBase s (leAt p.body 1 1) + encSize s (leAt p.body 1 1) → ∃ t, exec (.modelImport no) s = .next t ∧
      t.sec = { s.sec with import_ := some { no := no, slot := (leAt p.body 0 1), region := leAt p.body 1 1, src := addrLocal (leAt p.body 8 8), dst := addrLocal (leAt p.body 16 8), len := leAt p.body 24 4 } } ∧ t.pods = u.pods ∧ t.mem = s.mem) ∧
  (∀ (no : Nat) (p : RxPod) (u : State) (s : State), s.power = .on → s.sec.import_ = none → s.sec.keysStopped = false → takePod s no 4 (isControl 10 5) = some (p, u) → ¬((leAt p.body 0 1) < 16 ∧ leAt p.body 1 1 < 16 ∧ leAt p.body 24 4 % 65536 = 0 ∧ leAt p.body 24 4 ≠ 0 ∧ (keySlot s (leAt p.body 0 1)).imported = true ∧ encOn s (leAt p.body 1 1) = true ∧ rdF s (A.ENC_CTL (leAt p.body 1 1)) 6 5 = 0 ∧ encBase s (leAt p.body 1 1) ≤ addrLocal (leAt p.body 16 8) ∧ addrLocal (leAt p.body 16 8) + leAt p.body 24 4 ≤ encBase s (leAt p.body 1 1) + encSize s (leAt p.body 1 1)) → ∃ t, exec (.modelImport no) s = .next t ∧
      t.sec = s.sec ∧ t.mem = s.mem ∧ PodDone t no (Config.freeValue u.freeCount % 65536)) ∧
  (∀ (no : Nat) (s : State), s.power = .on → (s.sec.keysStopped = true ∨ takePod s no 4 (isControl 10 5) = none ∨ s.sec.import_ ≠ none) → ∃ t, exec (.modelImport no) s = .next t ∧
      t.sec = s.sec ∧ t.pods = s.pods ∧ t.keySlots = s.keySlots ∧ t.mem = s.mem ∧ (∀ a, rd t a = rd s a)) ∧
  (∀ (m : ModelImport) (st : Nat) (v : State) (s : State), s.power = .on → s.sec.import_ = some m → encWaits s m.dst m.len = false → encWaits s m.src (m.len + 16 * (m.len / 65536)) = false → importChunks m (m.len / 65536) 0 { s with sec := { s.sec with import_ := none } } = (st, v) → ∃ t, exec .modelImportDone s = .next t ∧
      t.sec.import_ = none ∧ ((st = 0 → t.mem = v.mem)) ∧ ((st ≠ 0 → t.mem = (memWrite v (.firmware 0) m.dst (zeros m.len) (podCls v m.no) (podEcho v m.no)).2.mem)) ∧ PodDone t m.no st) ∧
  (∀ (s : State), s.power = .on → (s.sec.import_ = none ∨ (∃ m, s.sec.import_ = some m ∧ (encWaits s m.dst m.len || encWaits s m.src (m.len + 16 * (m.len / 65536))) = true)) → ∃ t, exec .modelImportDone s = .next t ∧
      t.sec = s.sec ∧ t.pods = s.pods ∧ t.keySlots = s.keySlots ∧ t.mem = s.mem ∧ (∀ a, rd t a = rd s a)) ∧
  (∀ (no : Nat) (p : RxPod) (u : State) (s : State), s.power = .on → s.sec.keysStopped = false → takePod s no 4 (isControl 10 6) = some (p, u) → (leAt p.body 0 1) < 16 → (keySlot s (leAt p.body 0 1)).imported = true → ∃ t, exec (.keyClear no) s = .next t ∧
      keySlot t (leAt p.body 0 1) = {} ∧ ((∀ k, k ≠ (leAt p.body 0 1) → keySlot t k = keySlot s k)) ∧ PodDone t no 0) ∧
  (∀ (no : Nat) (p : RxPod) (u : State) (s : State), s.power = .on → s.sec.keysStopped = false → takePod s no 4 (isControl 10 6) = some (p, u) → (16 ≤ (leAt p.body 0 1) ∨ (keySlot s (leAt p.body 0 1)).imported = false) → ∃ t, exec (.keyClear no) s = .next t ∧
      t.keySlots = s.keySlots ∧ PodDone t no (Config.freeValue u.freeCount % 65536)) ∧
  (∀ (no : Nat) (s : State), s.power = .on → (s.sec.keysStopped = true ∨ takePod s no 4 (isControl 10 6) = none) → ∃ t, exec (.keyClear no) s = .next t ∧
      t.sec = s.sec ∧ t.pods = s.pods ∧ t.keySlots = s.keySlots ∧ t.mem = s.mem ∧ (∀ a, rd t a = rd s a)) ∧
  (∀ (no : Nat) (p : RxPod) (u : State) (s : State), s.power = .on → s.sec.keysStopped = false → takePod s no 4 (isControl 10 7) = some (p, u) → (multiDevice s || locked s 0x261) = false → (leAt p.body 0 1) < 16 → (trngFailed s && bitN (leAt ((p.body.drop 32).take 32) 20 4) 0) = false → p.body.length = 64 → encOn (regionWrite u (leAt p.body 0 1) ((p.body.drop 32).take 32)) (leAt p.body 0 1) = bitN (leAt ((p.body.drop 32).take 32) 20 4) 0 → ∃ t, exec (.regionSet no) s = .next t ∧
      encOn t (leAt p.body 0 1) = bitN (leAt ((p.body.drop 32).take 32) 20 4) 0 ∧ PodDone t no 0 ∧ ((encOn s (leAt p.body 0 1) = false → encBase t (leAt p.body 0 1) = leAt ((p.body.drop 32).take 32) 0 7 ∧ encMeta t (leAt p.body 0 1) = leAt ((p.body.drop 32).take 32) 12 7))) ∧
  (∀ (no : Nat) (p : RxPod) (u v : State) (s : State), s.power = .on → s.sec.keysStopped = false → takePod s no 4 (isControl 10 7) = some (p, u) → (multiDevice s || locked s 0x261) = false → (leAt p.body 0 1) < 16 → (trngFailed s && bitN (leAt ((p.body.drop 32).take 32) 20 4) 0) = false → p.body.length = 64 → v = regionWrite u (leAt p.body 0 1) ((p.body.drop 32).take 32) → encOn v (leAt p.body 0 1) = !bitN (leAt ((p.body.drop 32).take 32) 20 4) 0 → ∃ t, exec (.regionSet no) s = .next t ∧
      encOn t (leAt p.body 0 1) = !bitN (leAt ((p.body.drop 32).take 32) 20 4) 0 ∧ PodDone t no (Config.freeValue v.freeCount % 65536)) ∧
  (∀ (no : Nat) (p : RxPod) (u : State) (s : State), s.power = .on → s.sec.keysStopped = false → takePod s no 4 (isControl 10 7) = some (p, u) → ((multiDevice s || locked s 0x261) = true ∨ 16 ≤ (leAt p.body 0 1) ∨ (trngFailed s && bitN (leAt ((p.body.drop 32).take 32) 20 4) 0) = true) → ∃ t, exec (.regionSet no) s = .next t ∧
      t.keySlots = s.keySlots ∧ t.mem = s.mem ∧ (((multiDevice s || locked s 0x261) = true → bitN (evtFlags t 0x261) 14 = true)) ∧ (PodDone t no (if (multiDevice s || locked s 0x261) = true ∨ 16 ≤ (leAt p.body 0 1) then (Config.freeValue u.freeCount % 65536) else St.TRNG_FAILED))) ∧
  (∀ (no : Nat) (s : State), s.power = .on → (s.sec.keysStopped = true ∨ takePod s no 4 (isControl 10 7) = none) → ∃ t, exec (.regionSet no) s = .next t ∧
      t.sec = s.sec ∧ t.pods = s.pods ∧ t.keySlots = s.keySlots ∧ t.mem = s.mem ∧ (∀ a, rd t a = rd s a)) ∧
  (∀ (agent : Agent) (v : Word) (s : State), s.power = .on → takesEffect s agent A.SEC_SVN_COMMIT v.toNat = true → bitN v.toNat 0 = true → agent = .management → (∃ x, s.mgt.session = some x ∧ bitN x.privs 0 = true) → s.fuses.counter < fwSvn s → ∃ t, exec (.secSvnCommit agent v) s = .next t ∧
      t.fuses = { s.fuses with counter := fwSvn s } ∧ rdF t A.FW_SVN 14 8 = fwSvn s % 128 ∧ (∀ a, a ≠ A.FW_SVN → rd t a = rd s a)) ∧
  (∀ (agent : Agent) (v : Word) (s : State), s.power = .on → takesEffect s agent A.SEC_SVN_COMMIT v.toNat = true → (bitN v.toNat 0 = false ∨ agent ≠ .management ∨ ¬(∃ x, s.mgt.session = some x ∧ bitN x.privs 0 = true) ∨ fwSvn s ≤ s.fuses.counter) → ∃ t, exec (.secSvnCommit agent v) s = .next t ∧
      t.fuses = s.fuses ∧ (∀ a, rd t a = rd s a)) ∧
  (∀ (s : State), s.power = .on → trngFailed s = false → ∃ t, exec .trngFailed s = .next t ∧
      rd t A.SEC_TRNG_STATUS = 2 ∧ bitN (evtFlags t 0x030) 4 = true ∧ ((∀ a, ¬eventAddr 0x030 a → a ≠ A.SEC_TRNG_STATUS → rd t a = rd s a))) ∧
  (∀ (s : State), s.power = .on → trngFailed s = true → ∃ t, exec .trngFailed s = .next t ∧
      t.sec = s.sec ∧ (∀ a, rd t a = rd s a)) ∧
  (∀ (addr : BitVec 24) (b : List Byte) (s : State), s.power = .on → hostUnauth s = true → ∃ t, exec (.registerWrite .host addr b) s = .next t ∧
      t = { s with flagged := [] })
end

