-- ==== Sys2Proof/Laws/Map.lean ====
section
/-!
SUPPORT. Sparse maps: what a write changes, and that every operation keeps the canonical form.
-/

namespace Sys2Proof.Laws

open Sys2Proof.Machine

variable {α : Type} {d : Nat → α}

/-! ### Reading after writing -/

theorem smGet_smPut_same (m : List (Nat × α)) (k : Nat) (v : α) : smGet d (smPut m k v) k = v := by
  induction m with
  | nil => simp [smPut, smGet]
  | cons e t ih =>
    obtain ⟨a, w⟩ := e
    unfold smPut
    split
    · simp [smGet]
    · split
      · simp [smGet]
      · next h => simp [smGet, h, ih]

theorem smGet_smPut_ne (m : List (Nat × α)) {k j : Nat} (v : α) (h : j ≠ k) : smGet d (smPut m k v) j = smGet d m j := by
  induction m with
  | nil => simp [smPut, smGet, h.symm]
  | cons e t ih =>
    obtain ⟨a, w⟩ := e
    unfold smPut
    split
    · simp [smGet, h.symm]
    · split
      · next hk => subst hk; simp [smGet, h.symm]
      · simp [smGet, ih]

theorem smGet_smDel_same (m : List (Nat × α)) (k : Nat) : smGet d (smDel m k) k = d k := by
  induction m with
  | nil => rfl
  | cons e t ih =>
    obtain ⟨a, w⟩ := e
    unfold smDel
    split
    · exact ih
    · next h => simp [smGet, h, ih]

theorem smGet_smDel_ne (m : List (Nat × α)) {k j : Nat} (h : j ≠ k) : smGet d (smDel m k) j = smGet d m j := by
  induction m with
  | nil => rfl
  | cons e t ih =>
    obtain ⟨a, w⟩ := e
    unfold smDel
    split
    · next hk => subst hk; simp [smGet, h.symm, ih]
    · simp [smGet, ih]

@[simp] theorem smGet_smSet_same [DecidableEq α] (m : List (Nat × α)) (k : Nat) (v : α) :
    smGet d (smSet d m k v) k = v := by
  unfold smSet
  split
  · next h => rw [smGet_smDel_same, h]
  · exact smGet_smPut_same m k v

@[simp] theorem smGet_smSet_ne [DecidableEq α] (m : List (Nat × α)) {k j : Nat} (v : α) (h : j ≠ k) :
    smGet d (smSet d m k v) j = smGet d m j := by
  unfold smSet
  split
  · exact smGet_smDel_ne m h
  · exact smGet_smPut_ne m v h

/-- A read after one write. -/
theorem smGet_smSet [DecidableEq α] (m : List (Nat × α)) (k j : Nat) (v : α) :
    smGet d (smSet d m k v) j = if j = k then v else smGet d m j := by
  split
  · next h => subst h; simp
  · next h => simp [h]

/-! ### The canonical form -/

theorem smWfFrom_weaken [DecidableEq α] {a : Nat} {t : List (Nat × α)} {lo : Option Nat}
    (h : smWfFrom d (some a) t = true) (hl : ∀ l, lo = some l → l < a) : smWfFrom d lo t = true := by
  cases t with
  | nil => cases lo <;> rfl
  | cons e t =>
    obtain ⟨b, w⟩ := e
    simp only [smWfFrom, Bool.and_eq_true, decide_eq_true_eq] at h ⊢
    refine ⟨⟨?_, h.1.2⟩, h.2⟩
    cases lo with
    | none => rfl
    | some l => have := hl l rfl; simp; omega

theorem smWfFrom_tail [DecidableEq α] {e : Nat × α} {t : List (Nat × α)} {lo : Option Nat}
    (h : smWfFrom d lo (e :: t) = true) : smWfFrom d lo t = true := by
  obtain ⟨b, w⟩ := e
  simp only [smWfFrom, Bool.and_eq_true] at h
  refine smWfFrom_weaken h.2 ?_
  rintro l rfl
  simpa using h.1.1

theorem smWfFrom_smPut [DecidableEq α] (m : List (Nat × α)) (k : Nat) (v : α) (hv : v ≠ d k) :
    ∀ lo : Option Nat, (∀ l, lo = some l → l < k) → smWfFrom d lo m = true → smWfFrom d lo (smPut m k v) = true := by
  induction m with
  | nil =>
    intro lo hl _
    cases lo with
    | none => simp [smPut, smWfFrom, hv]
    | some l => have := hl l rfl; simp [smPut, smWfFrom, hv, this]
  | cons e t ih =>
    obtain ⟨a, w⟩ := e
    intro lo hl h
    simp only [smWfFrom, Bool.and_eq_true, decide_eq_true_eq] at h
    unfold smPut
    split
    · next hk =>
      simp only [smWfFrom, Bool.and_eq_true, decide_eq_true_eq]
      refine ⟨⟨?_, hv⟩, ⟨hk, h.1.2⟩, h.2⟩
      cases lo with
      | none => rfl
      | some l => simpa using hl l rfl
    · split
      · next hk =>
        subst hk
        simp only [smWfFrom, Bool.and_eq_true, decide_eq_true_eq]
        exact ⟨⟨h.1.1, hv⟩, h.2⟩
      · simp only [smWfFrom, Bool.and_eq_true, decide_eq_true_eq]
        refine ⟨h.1, ih (some a) ?_ h.2⟩
        rintro l ⟨⟩
        omega

theorem smWfFrom_filter [DecidableEq α] (p : Nat × α → Bool) (m : List (Nat × α)) :
    ∀ lo : Option Nat, smWfFrom d lo m = true → smWfFrom d lo (m.filter p) = true := by
  induction m with
  | nil => intro lo h; exact h
  | cons e t ih =>
    intro lo h
    rw [List.filter_cons]
    split
    · obtain ⟨a, w⟩ := e
      simp only [smWfFrom, Bool.and_eq_true, decide_eq_true_eq] at h ⊢
      exact ⟨h.1, ih _ h.2⟩
    · exact ih lo (smWfFrom_tail h)

theorem smDel_eq_filter (m : List (Nat × α)) (k : Nat) : smDel m k = m.filter (fun e => decide (e.1 ≠ k)) := by
  induction m with
  | nil => rfl
  | cons e t ih =>
    obtain ⟨a, w⟩ := e
    unfold smDel
    split
    · next h => simp [h, ih]
    · next h => simp [h, ih]

theorem smWf_filter [DecidableEq α] {m : List (Nat × α)} (h : smWf d m = true) (p : Nat × α → Bool) :
    smWf d (m.filter p) = true := smWfFrom_filter p m none h

theorem smWf_smDel [DecidableEq α] {m : List (Nat × α)} (h : smWf d m = true) (k : Nat) : smWf d (smDel m k) = true := by
  rw [smDel_eq_filter]; exact smWf_filter h _

theorem smWf_smDelRange [DecidableEq α] {m : List (Nat × α)} (h : smWf d m = true) (lo n : Nat) :
    smWf d (smDelRange m lo n) = true := smWf_filter h _

theorem smWf_smSet [DecidableEq α] {m : List (Nat × α)} (h : smWf d m = true) (k : Nat) (v : α) :
    smWf d (smSet d m k v) = true := by
  unfold smSet
  split
  · exact smWf_smDel h k
  · next hv => exact smWfFrom_smPut m k v hv none (by simp) h

theorem smWf_smSetAll [DecidableEq α] {m : List (Nat × α)} (h : smWf d m = true) (ks : List (Nat × α)) :
    smWf d (smSetAll d m ks) = true := by
  unfold smSetAll
  induction ks generalizing m with
  | nil => exact h
  | cons e t ih => exact ih (smWf_smSet h e.1 e.2)

/-! ### Bytes -/

theorem putBytes_wf {m : List Host.Cell} (h : Memory.wf m) (a : Nat) (bs : List Byte) : Memory.wf (putBytes m a bs) := by
  induction bs generalizing m a with
  | nil => exact h
  | cons b t ih => exact ih (smWf_smSet h a b) (a + 1)

/-- A store leaves every byte outside it. -/
theorem smGet_putBytes_out (m : List Host.Cell) (a : Nat) (bs : List Byte) (x : Nat) (h : x < a ∨ a + bs.length ≤ x) :
    smGet memDefault (putBytes m a bs) x = smGet memDefault m x := by
  induction bs generalizing m a with
  | nil => rfl
  | cons b t ih =>
    simp only [List.length_cons] at h
    simp only [putBytes]
    rw [ih _ _ (by omega), smGet_smSet_ne _ _ (by omega)]

/-- A stored byte reads back. -/
theorem smGet_putBytes_in (m : List Host.Cell) (a : Nat) (bs : List Byte) (i : Nat) (h : i < bs.length) :
    smGet memDefault (putBytes m a bs) (a + i) = bs[i] := by
  induction bs generalizing m a i with
  | nil => simp at h
  | cons b t ih =>
    simp only [putBytes]
    cases i with
    | zero => rw [smGet_putBytes_out _ _ _ _ (by omega)]; simp
    | succ i =>
      have := ih (smSet memDefault m a b) (a + 1) i (by simpa using h)
      simpa [Nat.add_assoc, Nat.add_comm 1 i] using this

end Sys2Proof.Laws
end

