-- ==== Sys2Proof/Laws/Fields.lean ====
section
/-!
SUPPORT. Bit fields: what a field of a word reads after another, or the same, field of it is set.
-/

namespace Sys2Proof.Laws

open Sys2Proof.Machine

/-- Bit `i` of a field. -/
theorem testBit_fldN (w hi lo i : Nat) : (fldN w hi lo).testBit i = (decide (i < hi + 1 - lo) && w.testBit (lo + i)) := by
  rw [fldN, Nat.testBit_mod_two_pow, Nat.testBit_shiftRight]

/-- Setting a field, as a sum: what is above it, the new field, what is below it. -/
theorem setFldN_eq (w hi lo v : Nat) (h : lo ≤ hi + 1) :
    setFldN w hi lo v = 2 ^ (hi + 1) * (w / 2 ^ (hi + 1)) + (2 ^ lo * (v % 2 ^ (hi + 1 - lo)) + w % 2 ^ lo) := by
  have hk : hi + 1 = lo + (hi + 1 - lo) := by omega
  have hw : w = 2 ^ lo * (w / 2 ^ lo) + w % 2 ^ lo := (Nat.div_add_mod w (2 ^ lo)).symm
  have hq : w / 2 ^ lo = 2 ^ (hi + 1 - lo) * (w / 2 ^ lo / 2 ^ (hi + 1 - lo)) + w / 2 ^ lo % 2 ^ (hi + 1 - lo) :=
    (Nat.div_add_mod (w / 2 ^ lo) _).symm
  have hd : w / 2 ^ (hi + 1) = w / 2 ^ lo / 2 ^ (hi + 1 - lo) := by rw [Nat.div_div_eq_div_mul, ← pow_add, ← hk]
  have hf : fldN w hi lo = w / 2 ^ lo % 2 ^ (hi + 1 - lo) := by rw [fldN, Nat.shiftRight_eq_div_pow]
  have hp : 2 ^ (hi + 1) = 2 ^ lo * 2 ^ (hi + 1 - lo) := by rw [← pow_add, ← hk]
  have hs : w = 2 ^ (hi + 1) * (w / 2 ^ (hi + 1)) + 2 ^ lo * fldN w hi lo + w % 2 ^ lo := by
    rw [hd, hf, hp, mul_assoc, ← mul_add, ← hq]
    exact hw
  have : w - 2 ^ lo * fldN w hi lo = 2 ^ (hi + 1) * (w / 2 ^ (hi + 1)) + w % 2 ^ lo := by omega
  rw [setFldN, this]
  omega

/-- Bit `i` of a word a field of which has been set. -/
theorem testBit_setFldN (w hi lo v i : Nat) (h : lo ≤ hi + 1) :
    (setFldN w hi lo v).testBit i = if lo ≤ i ∧ i ≤ hi then v.testBit (i - lo) else w.testBit i := by
  have hlow : 2 ^ lo * (v % 2 ^ (hi + 1 - lo)) + w % 2 ^ lo < 2 ^ (hi + 1) := by
    have a : w % 2 ^ lo < 2 ^ lo := Nat.mod_lt _ (by positivity)
    have b : v % 2 ^ (hi + 1 - lo) < 2 ^ (hi + 1 - lo) := Nat.mod_lt _ (by positivity)
    have c : 2 ^ (hi + 1) = 2 ^ lo * 2 ^ (hi + 1 - lo) := by rw [← pow_add]; congr 1; omega
    have d : 2 ^ lo * (v % 2 ^ (hi + 1 - lo)) + 2 ^ lo ≤ 2 ^ lo * 2 ^ (hi + 1 - lo) := by
      rw [← Nat.mul_succ]
      exact Nat.mul_le_mul_left _ b
    omega
  rw [setFldN_eq w hi lo v h, Nat.testBit_two_pow_mul_add _ hlow]
  by_cases hi1 : i < hi + 1
  · rw [if_pos hi1, Nat.testBit_two_pow_mul_add _ (Nat.mod_lt _ (by positivity)), Nat.testBit_mod_two_pow,
      Nat.testBit_mod_two_pow]
    by_cases hl : i < lo
    · rw [if_pos hl, if_neg (by omega)]
      simp [hl]
    · rw [if_neg hl, if_pos (by omega)]
      have : i - lo < hi + 1 - lo := by omega
      simp [this]
  · rw [if_neg hi1, if_neg (by omega), Nat.testBit_div_two_pow]
    congr 1
    omega

theorem bitN_eq_testBit (a i : Nat) : bitN a i = a.testBit i := by
  rw [Nat.testBit_eq_decide_div_mod_eq, bitN, Nat.shiftRight_eq_div_pow]
  rfl

/-- A bit of a word a field of which has been set. -/
theorem bitN_setFldN (w hi lo v i : Nat) (h : lo ≤ hi + 1) :
    bitN (setFldN w hi lo v) i = if lo ≤ i ∧ i ≤ hi then bitN v (i - lo) else bitN w i := by
  simp only [bitN_eq_testBit, testBit_setFldN w hi lo v i h]

/-- A field that has been set. -/
theorem fldN_setFldN_same (w hi lo v : Nat) (h : lo ≤ hi + 1) :
    fldN (setFldN w hi lo v) hi lo = v % 2 ^ (hi + 1 - lo) := by
  apply Nat.eq_of_testBit_eq
  intro i
  rw [testBit_fldN, testBit_setFldN _ _ _ _ _ h, Nat.testBit_mod_two_pow]
  by_cases hi1 : i < hi + 1 - lo
  · rw [if_pos (by omega)]
    simp
  · simp [hi1]

/-- A field beside the one that has been set. -/
theorem fldN_setFldN_ne (w hi lo v hi2 lo2 : Nat) (h : lo ≤ hi + 1) (hd : hi2 < lo ∨ hi < lo2) :
    fldN (setFldN w hi lo v) hi2 lo2 = fldN w hi2 lo2 := by
  apply Nat.eq_of_testBit_eq
  intro i
  rw [testBit_fldN, testBit_fldN, testBit_setFldN _ _ _ _ _ h]
  by_cases hi1 : i < hi2 + 1 - lo2
  · rw [if_neg (by omega)]
  · simp [hi1]

/-- Setting a field within 32 bits keeps a word within them. -/
theorem setFldN_lt (w hi lo v : Nat) (h : lo ≤ hi + 1) (hh : hi < 32) (hw : w < 2 ^ 32) :
    setFldN w hi lo v < 2 ^ 32 := by
  apply Nat.lt_pow_two_of_testBit
  intro i hi1
  rw [testBit_setFldN _ _ _ _ _ h, if_neg (by omega)]
  exact Nat.testBit_lt_two_pow (lt_of_lt_of_le hw (Nat.pow_le_pow_right (by omega) hi1))

theorem fldN_lt (w hi lo : Nat) : fldN w hi lo < 2 ^ (hi + 1 - lo) := Nat.mod_lt _ (by positivity)

/-- The bytes of a number spell it. -/
theorem leNat_leBytes (n v : Nat) : leNat (leBytes n v) = v % 256 ^ n := by
  induction n generalizing v with
  | zero => simp [leBytes, leNat, Nat.mod_one]
  | succ n ih =>
    have e : v % 256 ^ (n + 1) = v % 256 + 256 * (v / 256 % 256 ^ n) := by rw [Nat.pow_succ', Nat.mod_mul]
    rw [leBytes, leNat, ih, BitVec.toNat_ofNat, e]

theorem length_leBytes (n v : Nat) : (leBytes n v).length = n := by
  induction n generalizing v with
  | zero => rfl
  | succ n ih => simp [leBytes, ih]

end Sys2Proof.Laws
end

