-- ==== Sys2Proof/Laws/State.lean ====
section
/-!
SUPPORT. What the updates of the state leave of each field: one lemma for each field and update.
-/

namespace Sys2Proof.Laws

open Sys2Proof.Machine

@[simp] theorem wr_pending (s : State) (a v : Nat) : (wr s a v).pending = s.pending := rfl
@[simp] theorem wr_power (s : State) (a v : Nat) : (wr s a v).power = s.power := rfl
@[simp] theorem wr_ridge (s : State) (a v : Nat) : (wr s a v).ridge = s.ridge := rfl
@[simp] theorem wr_freeCount (s : State) (a v : Nat) : (wr s a v).freeCount = s.freeCount := rfl
@[simp] theorem wr_flagged (s : State) (a v : Nat) : (wr s a v).flagged = s.flagged := rfl
@[simp] theorem wr_pegs (s : State) (a v : Nat) : (wr s a v).pegs = s.pegs := rfl
@[simp] theorem wr_pods (s : State) (a v : Nat) : (wr s a v).pods = s.pods := rfl
@[simp] theorem wr_rings (s : State) (a v : Nat) : (wr s a v).rings = s.rings := rfl
@[simp] theorem wr_lostEvents (s : State) (a v : Nat) : (wr s a v).lostEvents = s.lostEvents := rfl
@[simp] theorem wr_msixOut (s : State) (a v : Nat) : (wr s a v).msixOut = s.msixOut := rfl
@[simp] theorem wr_hostMem (s : State) (a v : Nat) : (wr s a v).hostMem = s.hostMem := rfl
@[simp] theorem wr_mem (s : State) (a v : Nat) : (wr s a v).mem = s.mem := rfl
@[simp] theorem wr_ecc (s : State) (a v : Nat) : (wr s a v).ecc = s.ecc := rfl
@[simp] theorem wr_scrubs (s : State) (a v : Nat) : (wr s a v).scrubs = s.scrubs := rfl
@[simp] theorem wr_fc (s : State) (a v : Nat) : (wr s a v).fc = s.fc := rfl
@[simp] theorem wr_fgs (s : State) (a v : Nat) : (wr s a v).fgs = s.fgs := rfl
@[simp] theorem wr_rr (s : State) (a v : Nat) : (wr s a v).rr = s.rr := rfl
@[simp] theorem wr_streams (s : State) (a v : Nat) : (wr s a v).streams = s.streams := rfl
@[simp] theorem wr_sensors (s : State) (a v : Nat) : (wr s a v).sensors = s.sensors := rfl
@[simp] theorem wr_portSec (s : State) (a v : Nat) : (wr s a v).portSec = s.portSec := rfl
@[simp] theorem wr_portOut (s : State) (a v : Nat) : (wr s a v).portOut = s.portOut := rfl
@[simp] theorem wr_camPods (s : State) (a v : Nat) : (wr s a v).camPods = s.camPods := rfl
@[simp] theorem wr_decIn (s : State) (a v : Nat) : (wr s a v).decIn = s.decIn := rfl
@[simp] theorem wr_pipeIn (s : State) (a v : Nat) : (wr s a v).pipeIn = s.pipeIn := rfl
@[simp] theorem wr_pipeQ (s : State) (a v : Nat) : (wr s a v).pipeQ = s.pipeQ := rfl
@[simp] theorem wr_slots (s : State) (a v : Nat) : (wr s a v).slots = s.slots := rfl
@[simp] theorem wr_statQ (s : State) (a v : Nat) : (wr s a v).statQ = s.statQ := rfl
@[simp] theorem wr_pp (s : State) (a v : Nat) : (wr s a v).pp = s.pp := rfl
@[simp] theorem wr_decq (s : State) (a v : Nat) : (wr s a v).decq = s.decq := rfl
@[simp] theorem wr_sntMem (s : State) (a v : Nat) : (wr s a v).sntMem = s.sntMem := rfl
@[simp] theorem wr_rolls (s : State) (a v : Nat) : (wr s a v).rolls = s.rolls := rfl
@[simp] theorem wr_seq (s : State) (a v : Nat) : (wr s a v).seq = s.seq := rfl
@[simp] theorem wr_graphs (s : State) (a v : Nat) : (wr s a v).graphs = s.graphs := rfl
@[simp] theorem wr_insts (s : State) (a v : Nat) : (wr s a v).insts = s.insts := rfl
@[simp] theorem wr_starts (s : State) (a v : Nat) : (wr s a v).starts = s.starts := rfl
@[simp] theorem wr_nextId (s : State) (a v : Nat) : (wr s a v).nextId = s.nextId := rfl
@[simp] theorem wr_nextExec (s : State) (a v : Nat) : (wr s a v).nextExec = s.nextExec := rfl
@[simp] theorem wr_ops (s : State) (a v : Nat) : (wr s a v).ops = s.ops := rfl
@[simp] theorem wr_arrays (s : State) (a v : Nat) : (wr s a v).arrays = s.arrays := rfl
@[simp] theorem wr_engCycles (s : State) (a v : Nat) : (wr s a v).engCycles = s.engCycles := rfl
@[simp] theorem wr_records (s : State) (a v : Nat) : (wr s a v).records = s.records := rfl
@[simp] theorem wr_keySlots (s : State) (a v : Nat) : (wr s a v).keySlots = s.keySlots := rfl
@[simp] theorem wr_corrections (s : State) (a v : Nat) : (wr s a v).corrections = s.corrections := rfl
@[simp] theorem wr_gl (s : State) (a v : Nat) : (wr s a v).gl = s.gl := rfl
@[simp] theorem wr_glOut (s : State) (a v : Nat) : (wr s a v).glOut = s.glOut := rfl
@[simp] theorem wr_linkDowns (s : State) (a v : Nat) : (wr s a v).linkDowns = s.linkDowns := rfl
@[simp] theorem wr_time (s : State) (a v : Nat) : (wr s a v).time = s.time := rfl
@[simp] theorem wr_lanes (s : State) (a v : Nat) : (wr s a v).lanes = s.lanes := rfl
@[simp] theorem wr_media (s : State) (a v : Nat) : (wr s a v).media = s.media := rfl
@[simp] theorem wr_hostOut (s : State) (a v : Nat) : (wr s a v).hostOut = s.hostOut := rfl
@[simp] theorem wr_remote (s : State) (a v : Nat) : (wr s a v).remote = s.remote := rfl
@[simp] theorem wr_outWrites (s : State) (a v : Nat) : (wr s a v).outWrites = s.outWrites := rfl
@[simp] theorem wr_encQ (s : State) (a v : Nat) : (wr s a v).encQ = s.encQ := rfl
@[simp] theorem wr_heldIncs (s : State) (a v : Nat) : (wr s a v).heldIncs = s.heldIncs := rfl
@[simp] theorem wr_podsIn (s : State) (a v : Nat) : (wr s a v).podsIn = s.podsIn := rfl
@[simp] theorem wr_mgt (s : State) (a v : Nat) : (wr s a v).mgt = s.mgt := rfl
@[simp] theorem wr_mgtOut (s : State) (a v : Nat) : (wr s a v).mgtOut = s.mgtOut := rfl
@[simp] theorem wr_comp (s : State) (a v : Nat) : (wr s a v).comp = s.comp := rfl
@[simp] theorem wr_sentry (s : State) (a v : Nat) : (wr s a v).sentry = s.sentry := rfl
@[simp] theorem wr_taps (s : State) (a v : Nat) : (wr s a v).taps = s.taps := rfl
@[simp] theorem wr_lantern (s : State) (a v : Nat) : (wr s a v).lantern = s.lantern := rfl
@[simp] theorem wr_cores (s : State) (a v : Nat) : (wr s a v).cores = s.cores := rfl
@[simp] theorem wr_bist (s : State) (a v : Nat) : (wr s a v).bist = s.bist := rfl
@[simp] theorem wr_pm (s : State) (a v : Nat) : (wr s a v).pm = s.pm := rfl
@[simp] theorem wr_fuses (s : State) (a v : Nat) : (wr s a v).fuses = s.fuses := rfl
@[simp] theorem wr_sec (s : State) (a v : Nat) : (wr s a v).sec = s.sec := rfl

@[simp] theorem wrShadow_pending (s : State) (a v : Nat) : (wrShadow s a v).pending = s.pending := rfl
@[simp] theorem wrShadow_power (s : State) (a v : Nat) : (wrShadow s a v).power = s.power := rfl
@[simp] theorem wrShadow_ridge (s : State) (a v : Nat) : (wrShadow s a v).ridge = s.ridge := rfl
@[simp] theorem wrShadow_freeCount (s : State) (a v : Nat) : (wrShadow s a v).freeCount = s.freeCount := rfl
@[simp] theorem wrShadow_flagged (s : State) (a v : Nat) : (wrShadow s a v).flagged = s.flagged := rfl
@[simp] theorem wrShadow_pegs (s : State) (a v : Nat) : (wrShadow s a v).pegs = s.pegs := rfl
@[simp] theorem wrShadow_pods (s : State) (a v : Nat) : (wrShadow s a v).pods = s.pods := rfl
@[simp] theorem wrShadow_rings (s : State) (a v : Nat) : (wrShadow s a v).rings = s.rings := rfl
@[simp] theorem wrShadow_lostEvents (s : State) (a v : Nat) : (wrShadow s a v).lostEvents = s.lostEvents := rfl
@[simp] theorem wrShadow_msixOut (s : State) (a v : Nat) : (wrShadow s a v).msixOut = s.msixOut := rfl
@[simp] theorem wrShadow_hostMem (s : State) (a v : Nat) : (wrShadow s a v).hostMem = s.hostMem := rfl
@[simp] theorem wrShadow_mem (s : State) (a v : Nat) : (wrShadow s a v).mem = s.mem := rfl
@[simp] theorem wrShadow_ecc (s : State) (a v : Nat) : (wrShadow s a v).ecc = s.ecc := rfl
@[simp] theorem wrShadow_scrubs (s : State) (a v : Nat) : (wrShadow s a v).scrubs = s.scrubs := rfl
@[simp] theorem wrShadow_fc (s : State) (a v : Nat) : (wrShadow s a v).fc = s.fc := rfl
@[simp] theorem wrShadow_fgs (s : State) (a v : Nat) : (wrShadow s a v).fgs = s.fgs := rfl
@[simp] theorem wrShadow_rr (s : State) (a v : Nat) : (wrShadow s a v).rr = s.rr := rfl
@[simp] theorem wrShadow_streams (s : State) (a v : Nat) : (wrShadow s a v).streams = s.streams := rfl
@[simp] theorem wrShadow_sensors (s : State) (a v : Nat) : (wrShadow s a v).sensors = s.sensors := rfl
@[simp] theorem wrShadow_portSec (s : State) (a v : Nat) : (wrShadow s a v).portSec = s.portSec := rfl
@[simp] theorem wrShadow_portOut (s : State) (a v : Nat) : (wrShadow s a v).portOut = s.portOut := rfl
@[simp] theorem wrShadow_camPods (s : State) (a v : Nat) : (wrShadow s a v).camPods = s.camPods := rfl
@[simp] theorem wrShadow_decIn (s : State) (a v : Nat) : (wrShadow s a v).decIn = s.decIn := rfl
@[simp] theorem wrShadow_pipeIn (s : State) (a v : Nat) : (wrShadow s a v).pipeIn = s.pipeIn := rfl
@[simp] theorem wrShadow_pipeQ (s : State) (a v : Nat) : (wrShadow s a v).pipeQ = s.pipeQ := rfl
@[simp] theorem wrShadow_slots (s : State) (a v : Nat) : (wrShadow s a v).slots = s.slots := rfl
@[simp] theorem wrShadow_statQ (s : State) (a v : Nat) : (wrShadow s a v).statQ = s.statQ := rfl
@[simp] theorem wrShadow_pp (s : State) (a v : Nat) : (wrShadow s a v).pp = s.pp := rfl
@[simp] theorem wrShadow_decq (s : State) (a v : Nat) : (wrShadow s a v).decq = s.decq := rfl
@[simp] theorem wrShadow_sntMem (s : State) (a v : Nat) : (wrShadow s a v).sntMem = s.sntMem := rfl
@[simp] theorem wrShadow_rolls (s : State) (a v : Nat) : (wrShadow s a v).rolls = s.rolls := rfl
@[simp] theorem wrShadow_seq (s : State) (a v : Nat) : (wrShadow s a v).seq = s.seq := rfl
@[simp] theorem wrShadow_graphs (s : State) (a v : Nat) : (wrShadow s a v).graphs = s.graphs := rfl
@[simp] theorem wrShadow_insts (s : State) (a v : Nat) : (wrShadow s a v).insts = s.insts := rfl
@[simp] theorem wrShadow_starts (s : State) (a v : Nat) : (wrShadow s a v).starts = s.starts := rfl
@[simp] theorem wrShadow_nextId (s : State) (a v : Nat) : (wrShadow s a v).nextId = s.nextId := rfl
@[simp] theorem wrShadow_nextExec (s : State) (a v : Nat) : (wrShadow s a v).nextExec = s.nextExec := rfl
@[simp] theorem wrShadow_ops (s : State) (a v : Nat) : (wrShadow s a v).ops = s.ops := rfl
@[simp] theorem wrShadow_arrays (s : State) (a v : Nat) : (wrShadow s a v).arrays = s.arrays := rfl
@[simp] theorem wrShadow_engCycles (s : State) (a v : Nat) : (wrShadow s a v).engCycles = s.engCycles := rfl
@[simp] theorem wrShadow_records (s : State) (a v : Nat) : (wrShadow s a v).records = s.records := rfl
@[simp] theorem wrShadow_keySlots (s : State) (a v : Nat) : (wrShadow s a v).keySlots = s.keySlots := rfl
@[simp] theorem wrShadow_corrections (s : State) (a v : Nat) : (wrShadow s a v).corrections = s.corrections := rfl
@[simp] theorem wrShadow_gl (s : State) (a v : Nat) : (wrShadow s a v).gl = s.gl := rfl
@[simp] theorem wrShadow_glOut (s : State) (a v : Nat) : (wrShadow s a v).glOut = s.glOut := rfl
@[simp] theorem wrShadow_linkDowns (s : State) (a v : Nat) : (wrShadow s a v).linkDowns = s.linkDowns := rfl
@[simp] theorem wrShadow_time (s : State) (a v : Nat) : (wrShadow s a v).time = s.time := rfl
@[simp] theorem wrShadow_lanes (s : State) (a v : Nat) : (wrShadow s a v).lanes = s.lanes := rfl
@[simp] theorem wrShadow_media (s : State) (a v : Nat) : (wrShadow s a v).media = s.media := rfl
@[simp] theorem wrShadow_hostOut (s : State) (a v : Nat) : (wrShadow s a v).hostOut = s.hostOut := rfl
@[simp] theorem wrShadow_remote (s : State) (a v : Nat) : (wrShadow s a v).remote = s.remote := rfl
@[simp] theorem wrShadow_outWrites (s : State) (a v : Nat) : (wrShadow s a v).outWrites = s.outWrites := rfl
@[simp] theorem wrShadow_encQ (s : State) (a v : Nat) : (wrShadow s a v).encQ = s.encQ := rfl
@[simp] theorem wrShadow_heldIncs (s : State) (a v : Nat) : (wrShadow s a v).heldIncs = s.heldIncs := rfl
@[simp] theorem wrShadow_podsIn (s : State) (a v : Nat) : (wrShadow s a v).podsIn = s.podsIn := rfl
@[simp] theorem wrShadow_mgt (s : State) (a v : Nat) : (wrShadow s a v).mgt = s.mgt := rfl
@[simp] theorem wrShadow_mgtOut (s : State) (a v : Nat) : (wrShadow s a v).mgtOut = s.mgtOut := rfl
@[simp] theorem wrShadow_comp (s : State) (a v : Nat) : (wrShadow s a v).comp = s.comp := rfl
@[simp] theorem wrShadow_sentry (s : State) (a v : Nat) : (wrShadow s a v).sentry = s.sentry := rfl
@[simp] theorem wrShadow_taps (s : State) (a v : Nat) : (wrShadow s a v).taps = s.taps := rfl
@[simp] theorem wrShadow_lantern (s : State) (a v : Nat) : (wrShadow s a v).lantern = s.lantern := rfl
@[simp] theorem wrShadow_cores (s : State) (a v : Nat) : (wrShadow s a v).cores = s.cores := rfl
@[simp] theorem wrShadow_bist (s : State) (a v : Nat) : (wrShadow s a v).bist = s.bist := rfl
@[simp] theorem wrShadow_pm (s : State) (a v : Nat) : (wrShadow s a v).pm = s.pm := rfl
@[simp] theorem wrShadow_fuses (s : State) (a v : Nat) : (wrShadow s a v).fuses = s.fuses := rfl
@[simp] theorem wrShadow_sec (s : State) (a v : Nat) : (wrShadow s a v).sec = s.sec := rfl

@[simp] theorem wrF_pending (s : State) (a hi lo v : Nat) : (wrF s a hi lo v).pending = s.pending := rfl
@[simp] theorem wrF_power (s : State) (a hi lo v : Nat) : (wrF s a hi lo v).power = s.power := rfl
@[simp] theorem wrF_ridge (s : State) (a hi lo v : Nat) : (wrF s a hi lo v).ridge = s.ridge := rfl
@[simp] theorem wrF_freeCount (s : State) (a hi lo v : Nat) : (wrF s a hi lo v).freeCount = s.freeCount := rfl
@[simp] theorem wrF_flagged (s : State) (a hi lo v : Nat) : (wrF s a hi lo v).flagged = s.flagged := rfl
@[simp] theorem wrF_pegs (s : State) (a hi lo v : Nat) : (wrF s a hi lo v).pegs = s.pegs := rfl
@[simp] theorem wrF_pods (s : State) (a hi lo v : Nat) : (wrF s a hi lo v).pods = s.pods := rfl
@[simp] theorem wrF_rings (s : State) (a hi lo v : Nat) : (wrF s a hi lo v).rings = s.rings := rfl
@[simp] theorem wrF_lostEvents (s : State) (a hi lo v : Nat) : (wrF s a hi lo v).lostEvents = s.lostEvents := rfl
@[simp] theorem wrF_msixOut (s : State) (a hi lo v : Nat) : (wrF s a hi lo v).msixOut = s.msixOut := rfl
@[simp] theorem wrF_hostMem (s : State) (a hi lo v : Nat) : (wrF s a hi lo v).hostMem = s.hostMem := rfl
@[simp] theorem wrF_mem (s : State) (a hi lo v : Nat) : (wrF s a hi lo v).mem = s.mem := rfl
@[simp] theorem wrF_ecc (s : State) (a hi lo v : Nat) : (wrF s a hi lo v).ecc = s.ecc := rfl
@[simp] theorem wrF_scrubs (s : State) (a hi lo v : Nat) : (wrF s a hi lo v).scrubs = s.scrubs := rfl
@[simp] theorem wrF_fc (s : State) (a hi lo v : Nat) : (wrF s a hi lo v).fc = s.fc := rfl
@[simp] theorem wrF_fgs (s : State) (a hi lo v : Nat) : (wrF s a hi lo v).fgs = s.fgs := rfl
@[simp] theorem wrF_rr (s : State) (a hi lo v : Nat) : (wrF s a hi lo v).rr = s.rr := rfl
@[simp] theorem wrF_streams (s : State) (a hi lo v : Nat) : (wrF s a hi lo v).streams = s.streams := rfl
@[simp] theorem wrF_sensors (s : State) (a hi lo v : Nat) : (wrF s a hi lo v).sensors = s.sensors := rfl
@[simp] theorem wrF_portSec (s : State) (a hi lo v : Nat) : (wrF s a hi lo v).portSec = s.portSec := rfl
@[simp] theorem wrF_portOut (s : State) (a hi lo v : Nat) : (wrF s a hi lo v).portOut = s.portOut := rfl
@[simp] theorem wrF_camPods (s : State) (a hi lo v : Nat) : (wrF s a hi lo v).camPods = s.camPods := rfl
@[simp] theorem wrF_decIn (s : State) (a hi lo v : Nat) : (wrF s a hi lo v).decIn = s.decIn := rfl
@[simp] theorem wrF_pipeIn (s : State) (a hi lo v : Nat) : (wrF s a hi lo v).pipeIn = s.pipeIn := rfl
@[simp] theorem wrF_pipeQ (s : State) (a hi lo v : Nat) : (wrF s a hi lo v).pipeQ = s.pipeQ := rfl
@[simp] theorem wrF_slots (s : State) (a hi lo v : Nat) : (wrF s a hi lo v).slots = s.slots := rfl
@[simp] theorem wrF_statQ (s : State) (a hi lo v : Nat) : (wrF s a hi lo v).statQ = s.statQ := rfl
@[simp] theorem wrF_pp (s : State) (a hi lo v : Nat) : (wrF s a hi lo v).pp = s.pp := rfl
@[simp] theorem wrF_decq (s : State) (a hi lo v : Nat) : (wrF s a hi lo v).decq = s.decq := rfl
@[simp] theorem wrF_sntMem (s : State) (a hi lo v : Nat) : (wrF s a hi lo v).sntMem = s.sntMem := rfl
@[simp] theorem wrF_rolls (s : State) (a hi lo v : Nat) : (wrF s a hi lo v).rolls = s.rolls := rfl
@[simp] theorem wrF_seq (s : State) (a hi lo v : Nat) : (wrF s a hi lo v).seq = s.seq := rfl
@[simp] theorem wrF_graphs (s : State) (a hi lo v : Nat) : (wrF s a hi lo v).graphs = s.graphs := rfl
@[simp] theorem wrF_insts (s : State) (a hi lo v : Nat) : (wrF s a hi lo v).insts = s.insts := rfl
@[simp] theorem wrF_starts (s : State) (a hi lo v : Nat) : (wrF s a hi lo v).starts = s.starts := rfl
@[simp] theorem wrF_nextId (s : State) (a hi lo v : Nat) : (wrF s a hi lo v).nextId = s.nextId := rfl
@[simp] theorem wrF_nextExec (s : State) (a hi lo v : Nat) : (wrF s a hi lo v).nextExec = s.nextExec := rfl
@[simp] theorem wrF_ops (s : State) (a hi lo v : Nat) : (wrF s a hi lo v).ops = s.ops := rfl
@[simp] theorem wrF_arrays (s : State) (a hi lo v : Nat) : (wrF s a hi lo v).arrays = s.arrays := rfl
@[simp] theorem wrF_engCycles (s : State) (a hi lo v : Nat) : (wrF s a hi lo v).engCycles = s.engCycles := rfl
@[simp] theorem wrF_records (s : State) (a hi lo v : Nat) : (wrF s a hi lo v).records = s.records := rfl
@[simp] theorem wrF_keySlots (s : State) (a hi lo v : Nat) : (wrF s a hi lo v).keySlots = s.keySlots := rfl
@[simp] theorem wrF_corrections (s : State) (a hi lo v : Nat) : (wrF s a hi lo v).corrections = s.corrections := rfl
@[simp] theorem wrF_gl (s : State) (a hi lo v : Nat) : (wrF s a hi lo v).gl = s.gl := rfl
@[simp] theorem wrF_glOut (s : State) (a hi lo v : Nat) : (wrF s a hi lo v).glOut = s.glOut := rfl
@[simp] theorem wrF_linkDowns (s : State) (a hi lo v : Nat) : (wrF s a hi lo v).linkDowns = s.linkDowns := rfl
@[simp] theorem wrF_time (s : State) (a hi lo v : Nat) : (wrF s a hi lo v).time = s.time := rfl
@[simp] theorem wrF_lanes (s : State) (a hi lo v : Nat) : (wrF s a hi lo v).lanes = s.lanes := rfl
@[simp] theorem wrF_media (s : State) (a hi lo v : Nat) : (wrF s a hi lo v).media = s.media := rfl
@[simp] theorem wrF_hostOut (s : State) (a hi lo v : Nat) : (wrF s a hi lo v).hostOut = s.hostOut := rfl
@[simp] theorem wrF_remote (s : State) (a hi lo v : Nat) : (wrF s a hi lo v).remote = s.remote := rfl
@[simp] theorem wrF_outWrites (s : State) (a hi lo v : Nat) : (wrF s a hi lo v).outWrites = s.outWrites := rfl
@[simp] theorem wrF_encQ (s : State) (a hi lo v : Nat) : (wrF s a hi lo v).encQ = s.encQ := rfl
@[simp] theorem wrF_heldIncs (s : State) (a hi lo v : Nat) : (wrF s a hi lo v).heldIncs = s.heldIncs := rfl
@[simp] theorem wrF_podsIn (s : State) (a hi lo v : Nat) : (wrF s a hi lo v).podsIn = s.podsIn := rfl
@[simp] theorem wrF_mgt (s : State) (a hi lo v : Nat) : (wrF s a hi lo v).mgt = s.mgt := rfl
@[simp] theorem wrF_mgtOut (s : State) (a hi lo v : Nat) : (wrF s a hi lo v).mgtOut = s.mgtOut := rfl
@[simp] theorem wrF_comp (s : State) (a hi lo v : Nat) : (wrF s a hi lo v).comp = s.comp := rfl
@[simp] theorem wrF_sentry (s : State) (a hi lo v : Nat) : (wrF s a hi lo v).sentry = s.sentry := rfl
@[simp] theorem wrF_taps (s : State) (a hi lo v : Nat) : (wrF s a hi lo v).taps = s.taps := rfl
@[simp] theorem wrF_lantern (s : State) (a hi lo v : Nat) : (wrF s a hi lo v).lantern = s.lantern := rfl
@[simp] theorem wrF_cores (s : State) (a hi lo v : Nat) : (wrF s a hi lo v).cores = s.cores := rfl
@[simp] theorem wrF_bist (s : State) (a hi lo v : Nat) : (wrF s a hi lo v).bist = s.bist := rfl
@[simp] theorem wrF_pm (s : State) (a hi lo v : Nat) : (wrF s a hi lo v).pm = s.pm := rfl
@[simp] theorem wrF_fuses (s : State) (a hi lo v : Nat) : (wrF s a hi lo v).fuses = s.fuses := rfl
@[simp] theorem wrF_sec (s : State) (a hi lo v : Nat) : (wrF s a hi lo v).sec = s.sec := rfl

@[simp] theorem setRing_pending (s : State) (r : Nat) (x : Ring) : (setRing s r x).pending = s.pending := rfl
@[simp] theorem setRing_power (s : State) (r : Nat) (x : Ring) : (setRing s r x).power = s.power := rfl
@[simp] theorem setRing_ridge (s : State) (r : Nat) (x : Ring) : (setRing s r x).ridge = s.ridge := rfl
@[simp] theorem setRing_freeCount (s : State) (r : Nat) (x : Ring) : (setRing s r x).freeCount = s.freeCount := rfl
@[simp] theorem setRing_flagged (s : State) (r : Nat) (x : Ring) : (setRing s r x).flagged = s.flagged := rfl
@[simp] theorem setRing_rf (s : State) (r : Nat) (x : Ring) : (setRing s r x).rf = s.rf := rfl
@[simp] theorem setRing_pegs (s : State) (r : Nat) (x : Ring) : (setRing s r x).pegs = s.pegs := rfl
@[simp] theorem setRing_pods (s : State) (r : Nat) (x : Ring) : (setRing s r x).pods = s.pods := rfl
@[simp] theorem setRing_lostEvents (s : State) (r : Nat) (x : Ring) : (setRing s r x).lostEvents = s.lostEvents := rfl
@[simp] theorem setRing_msixOut (s : State) (r : Nat) (x : Ring) : (setRing s r x).msixOut = s.msixOut := rfl
@[simp] theorem setRing_hostMem (s : State) (r : Nat) (x : Ring) : (setRing s r x).hostMem = s.hostMem := rfl
@[simp] theorem setRing_mem (s : State) (r : Nat) (x : Ring) : (setRing s r x).mem = s.mem := rfl
@[simp] theorem setRing_ecc (s : State) (r : Nat) (x : Ring) : (setRing s r x).ecc = s.ecc := rfl
@[simp] theorem setRing_scrubs (s : State) (r : Nat) (x : Ring) : (setRing s r x).scrubs = s.scrubs := rfl
@[simp] theorem setRing_fc (s : State) (r : Nat) (x : Ring) : (setRing s r x).fc = s.fc := rfl
@[simp] theorem setRing_fgs (s : State) (r : Nat) (x : Ring) : (setRing s r x).fgs = s.fgs := rfl
@[simp] theorem setRing_rr (s : State) (r : Nat) (x : Ring) : (setRing s r x).rr = s.rr := rfl
@[simp] theorem setRing_streams (s : State) (r : Nat) (x : Ring) : (setRing s r x).streams = s.streams := rfl
@[simp] theorem setRing_sensors (s : State) (r : Nat) (x : Ring) : (setRing s r x).sensors = s.sensors := rfl
@[simp] theorem setRing_portSec (s : State) (r : Nat) (x : Ring) : (setRing s r x).portSec = s.portSec := rfl
@[simp] theorem setRing_portOut (s : State) (r : Nat) (x : Ring) : (setRing s r x).portOut = s.portOut := rfl
@[simp] theorem setRing_camPods (s : State) (r : Nat) (x : Ring) : (setRing s r x).camPods = s.camPods := rfl
@[simp] theorem setRing_decIn (s : State) (r : Nat) (x : Ring) : (setRing s r x).decIn = s.decIn := rfl
@[simp] theorem setRing_pipeIn (s : State) (r : Nat) (x : Ring) : (setRing s r x).pipeIn = s.pipeIn := rfl
@[simp] theorem setRing_pipeQ (s : State) (r : Nat) (x : Ring) : (setRing s r x).pipeQ = s.pipeQ := rfl
@[simp] theorem setRing_slots (s : State) (r : Nat) (x : Ring) : (setRing s r x).slots = s.slots := rfl
@[simp] theorem setRing_statQ (s : State) (r : Nat) (x : Ring) : (setRing s r x).statQ = s.statQ := rfl
@[simp] theorem setRing_pp (s : State) (r : Nat) (x : Ring) : (setRing s r x).pp = s.pp := rfl
@[simp] theorem setRing_decq (s : State) (r : Nat) (x : Ring) : (setRing s r x).decq = s.decq := rfl
@[simp] theorem setRing_sntMem (s : State) (r : Nat) (x : Ring) : (setRing s r x).sntMem = s.sntMem := rfl
@[simp] theorem setRing_rolls (s : State) (r : Nat) (x : Ring) : (setRing s r x).rolls = s.rolls := rfl
@[simp] theorem setRing_seq (s : State) (r : Nat) (x : Ring) : (setRing s r x).seq = s.seq := rfl
@[simp] theorem setRing_graphs (s : State) (r : Nat) (x : Ring) : (setRing s r x).graphs = s.graphs := rfl
@[simp] theorem setRing_insts (s : State) (r : Nat) (x : Ring) : (setRing s r x).insts = s.insts := rfl
@[simp] theorem setRing_starts (s : State) (r : Nat) (x : Ring) : (setRing s r x).starts = s.starts := rfl
@[simp] theorem setRing_nextId (s : State) (r : Nat) (x : Ring) : (setRing s r x).nextId = s.nextId := rfl
@[simp] theorem setRing_nextExec (s : State) (r : Nat) (x : Ring) : (setRing s r x).nextExec = s.nextExec := rfl
@[simp] theorem setRing_ops (s : State) (r : Nat) (x : Ring) : (setRing s r x).ops = s.ops := rfl
@[simp] theorem setRing_arrays (s : State) (r : Nat) (x : Ring) : (setRing s r x).arrays = s.arrays := rfl
@[simp] theorem setRing_engCycles (s : State) (r : Nat) (x : Ring) : (setRing s r x).engCycles = s.engCycles := rfl
@[simp] theorem setRing_records (s : State) (r : Nat) (x : Ring) : (setRing s r x).records = s.records := rfl
@[simp] theorem setRing_keySlots (s : State) (r : Nat) (x : Ring) : (setRing s r x).keySlots = s.keySlots := rfl
@[simp] theorem setRing_corrections (s : State) (r : Nat) (x : Ring) : (setRing s r x).corrections = s.corrections := rfl
@[simp] theorem setRing_gl (s : State) (r : Nat) (x : Ring) : (setRing s r x).gl = s.gl := rfl
@[simp] theorem setRing_glOut (s : State) (r : Nat) (x : Ring) : (setRing s r x).glOut = s.glOut := rfl
@[simp] theorem setRing_linkDowns (s : State) (r : Nat) (x : Ring) : (setRing s r x).linkDowns = s.linkDowns := rfl
@[simp] theorem setRing_time (s : State) (r : Nat) (x : Ring) : (setRing s r x).time = s.time := rfl
@[simp] theorem setRing_lanes (s : State) (r : Nat) (x : Ring) : (setRing s r x).lanes = s.lanes := rfl
@[simp] theorem setRing_media (s : State) (r : Nat) (x : Ring) : (setRing s r x).media = s.media := rfl
@[simp] theorem setRing_hostOut (s : State) (r : Nat) (x : Ring) : (setRing s r x).hostOut = s.hostOut := rfl
@[simp] theorem setRing_remote (s : State) (r : Nat) (x : Ring) : (setRing s r x).remote = s.remote := rfl
@[simp] theorem setRing_outWrites (s : State) (r : Nat) (x : Ring) : (setRing s r x).outWrites = s.outWrites := rfl
@[simp] theorem setRing_encQ (s : State) (r : Nat) (x : Ring) : (setRing s r x).encQ = s.encQ := rfl
@[simp] theorem setRing_heldIncs (s : State) (r : Nat) (x : Ring) : (setRing s r x).heldIncs = s.heldIncs := rfl
@[simp] theorem setRing_podsIn (s : State) (r : Nat) (x : Ring) : (setRing s r x).podsIn = s.podsIn := rfl
@[simp] theorem setRing_mgt (s : State) (r : Nat) (x : Ring) : (setRing s r x).mgt = s.mgt := rfl
@[simp] theorem setRing_mgtOut (s : State) (r : Nat) (x : Ring) : (setRing s r x).mgtOut = s.mgtOut := rfl
@[simp] theorem setRing_comp (s : State) (r : Nat) (x : Ring) : (setRing s r x).comp = s.comp := rfl
@[simp] theorem setRing_sentry (s : State) (r : Nat) (x : Ring) : (setRing s r x).sentry = s.sentry := rfl
@[simp] theorem setRing_taps (s : State) (r : Nat) (x : Ring) : (setRing s r x).taps = s.taps := rfl
@[simp] theorem setRing_lantern (s : State) (r : Nat) (x : Ring) : (setRing s r x).lantern = s.lantern := rfl
@[simp] theorem setRing_cores (s : State) (r : Nat) (x : Ring) : (setRing s r x).cores = s.cores := rfl
@[simp] theorem setRing_bist (s : State) (r : Nat) (x : Ring) : (setRing s r x).bist = s.bist := rfl
@[simp] theorem setRing_pm (s : State) (r : Nat) (x : Ring) : (setRing s r x).pm = s.pm := rfl
@[simp] theorem setRing_fuses (s : State) (r : Nat) (x : Ring) : (setRing s r x).fuses = s.fuses := rfl
@[simp] theorem setRing_sec (s : State) (r : Nat) (x : Ring) : (setRing s r x).sec = s.sec := rfl

@[simp] theorem withPending_power (s : State) (q : List Instr) : (s.withPending q).power = s.power := rfl
@[simp] theorem withPending_ridge (s : State) (q : List Instr) : (s.withPending q).ridge = s.ridge := rfl
@[simp] theorem withPending_freeCount (s : State) (q : List Instr) : (s.withPending q).freeCount = s.freeCount := rfl
@[simp] theorem withPending_flagged (s : State) (q : List Instr) : (s.withPending q).flagged = s.flagged := rfl
@[simp] theorem withPending_rf (s : State) (q : List Instr) : (s.withPending q).rf = s.rf := rfl
@[simp] theorem withPending_pegs (s : State) (q : List Instr) : (s.withPending q).pegs = s.pegs := rfl
@[simp] theorem withPending_pods (s : State) (q : List Instr) : (s.withPending q).pods = s.pods := rfl
@[simp] theorem withPending_rings (s : State) (q : List Instr) : (s.withPending q).rings = s.rings := rfl
@[simp] theorem withPending_lostEvents (s : State) (q : List Instr) : (s.withPending q).lostEvents = s.lostEvents := rfl
@[simp] theorem withPending_msixOut (s : State) (q : List Instr) : (s.withPending q).msixOut = s.msixOut := rfl
@[simp] theorem withPending_hostMem (s : State) (q : List Instr) : (s.withPending q).hostMem = s.hostMem := rfl
@[simp] theorem withPending_mem (s : State) (q : List Instr) : (s.withPending q).mem = s.mem := rfl
@[simp] theorem withPending_ecc (s : State) (q : List Instr) : (s.withPending q).ecc = s.ecc := rfl
@[simp] theorem withPending_scrubs (s : State) (q : List Instr) : (s.withPending q).scrubs = s.scrubs := rfl
@[simp] theorem withPending_fc (s : State) (q : List Instr) : (s.withPending q).fc = s.fc := rfl
@[simp] theorem withPending_fgs (s : State) (q : List Instr) : (s.withPending q).fgs = s.fgs := rfl
@[simp] theorem withPending_rr (s : State) (q : List Instr) : (s.withPending q).rr = s.rr := rfl
@[simp] theorem withPending_streams (s : State) (q : List Instr) : (s.withPending q).streams = s.streams := rfl
@[simp] theorem withPending_sensors (s : State) (q : List Instr) : (s.withPending q).sensors = s.sensors := rfl
@[simp] theorem withPending_portSec (s : State) (q : List Instr) : (s.withPending q).portSec = s.portSec := rfl
@[simp] theorem withPending_portOut (s : State) (q : List Instr) : (s.withPending q).portOut = s.portOut := rfl
@[simp] theorem withPending_camPods (s : State) (q : List Instr) : (s.withPending q).camPods = s.camPods := rfl
@[simp] theorem withPending_decIn (s : State) (q : List Instr) : (s.withPending q).decIn = s.decIn := rfl
@[simp] theorem withPending_pipeIn (s : State) (q : List Instr) : (s.withPending q).pipeIn = s.pipeIn := rfl
@[simp] theorem withPending_pipeQ (s : State) (q : List Instr) : (s.withPending q).pipeQ = s.pipeQ := rfl
@[simp] theorem withPending_slots (s : State) (q : List Instr) : (s.withPending q).slots = s.slots := rfl
@[simp] theorem withPending_statQ (s : State) (q : List Instr) : (s.withPending q).statQ = s.statQ := rfl
@[simp] theorem withPending_pp (s : State) (q : List Instr) : (s.withPending q).pp = s.pp := rfl
@[simp] theorem withPending_decq (s : State) (q : List Instr) : (s.withPending q).decq = s.decq := rfl
@[simp] theorem withPending_sntMem (s : State) (q : List Instr) : (s.withPending q).sntMem = s.sntMem := rfl
@[simp] theorem withPending_rolls (s : State) (q : List Instr) : (s.withPending q).rolls = s.rolls := rfl
@[simp] theorem withPending_seq (s : State) (q : List Instr) : (s.withPending q).seq = s.seq := rfl
@[simp] theorem withPending_graphs (s : State) (q : List Instr) : (s.withPending q).graphs = s.graphs := rfl
@[simp] theorem withPending_insts (s : State) (q : List Instr) : (s.withPending q).insts = s.insts := rfl
@[simp] theorem withPending_starts (s : State) (q : List Instr) : (s.withPending q).starts = s.starts := rfl
@[simp] theorem withPending_nextId (s : State) (q : List Instr) : (s.withPending q).nextId = s.nextId := rfl
@[simp] theorem withPending_nextExec (s : State) (q : List Instr) : (s.withPending q).nextExec = s.nextExec := rfl
@[simp] theorem withPending_ops (s : State) (q : List Instr) : (s.withPending q).ops = s.ops := rfl
@[simp] theorem withPending_arrays (s : State) (q : List Instr) : (s.withPending q).arrays = s.arrays := rfl
@[simp] theorem withPending_engCycles (s : State) (q : List Instr) : (s.withPending q).engCycles = s.engCycles := rfl
@[simp] theorem withPending_records (s : State) (q : List Instr) : (s.withPending q).records = s.records := rfl
@[simp] theorem withPending_keySlots (s : State) (q : List Instr) : (s.withPending q).keySlots = s.keySlots := rfl
@[simp] theorem withPending_corrections (s : State) (q : List Instr) : (s.withPending q).corrections = s.corrections := rfl
@[simp] theorem withPending_gl (s : State) (q : List Instr) : (s.withPending q).gl = s.gl := rfl
@[simp] theorem withPending_glOut (s : State) (q : List Instr) : (s.withPending q).glOut = s.glOut := rfl
@[simp] theorem withPending_linkDowns (s : State) (q : List Instr) : (s.withPending q).linkDowns = s.linkDowns := rfl
@[simp] theorem withPending_time (s : State) (q : List Instr) : (s.withPending q).time = s.time := rfl
@[simp] theorem withPending_lanes (s : State) (q : List Instr) : (s.withPending q).lanes = s.lanes := rfl
@[simp] theorem withPending_media (s : State) (q : List Instr) : (s.withPending q).media = s.media := rfl
@[simp] theorem withPending_hostOut (s : State) (q : List Instr) : (s.withPending q).hostOut = s.hostOut := rfl
@[simp] theorem withPending_remote (s : State) (q : List Instr) : (s.withPending q).remote = s.remote := rfl
@[simp] theorem withPending_outWrites (s : State) (q : List Instr) : (s.withPending q).outWrites = s.outWrites := rfl
@[simp] theorem withPending_encQ (s : State) (q : List Instr) : (s.withPending q).encQ = s.encQ := rfl
@[simp] theorem withPending_heldIncs (s : State) (q : List Instr) : (s.withPending q).heldIncs = s.heldIncs := rfl
@[simp] theorem withPending_podsIn (s : State) (q : List Instr) : (s.withPending q).podsIn = s.podsIn := rfl
@[simp] theorem withPending_mgt (s : State) (q : List Instr) : (s.withPending q).mgt = s.mgt := rfl
@[simp] theorem withPending_mgtOut (s : State) (q : List Instr) : (s.withPending q).mgtOut = s.mgtOut := rfl
@[simp] theorem withPending_comp (s : State) (q : List Instr) : (s.withPending q).comp = s.comp := rfl
@[simp] theorem withPending_sentry (s : State) (q : List Instr) : (s.withPending q).sentry = s.sentry := rfl
@[simp] theorem withPending_taps (s : State) (q : List Instr) : (s.withPending q).taps = s.taps := rfl
@[simp] theorem withPending_lantern (s : State) (q : List Instr) : (s.withPending q).lantern = s.lantern := rfl
@[simp] theorem withPending_cores (s : State) (q : List Instr) : (s.withPending q).cores = s.cores := rfl
@[simp] theorem withPending_bist (s : State) (q : List Instr) : (s.withPending q).bist = s.bist := rfl
@[simp] theorem withPending_pm (s : State) (q : List Instr) : (s.withPending q).pm = s.pm := rfl
@[simp] theorem withPending_fuses (s : State) (q : List Instr) : (s.withPending q).fuses = s.fuses := rfl
@[simp] theorem withPending_sec (s : State) (q : List Instr) : (s.withPending q).sec = s.sec := rfl

@[simp] theorem withPending_pending (s : State) (q : List Instr) : (s.withPending q).pending = q := rfl

end Sys2Proof.Laws
end

