-- ==== Sys2Proof/Laws/Registers.lean ====
section
/-!
SUPPORT. Reading a register after the shared operations: the writes of a register, event flags, messages, event pods and
fault reports, each with everything it can do.
-/

namespace Sys2Proof.Laws

open Sys2Proof.Machine

theorem rd_lt (s : State) (a : Nat) : rd s a < 2 ^ 32 := BitVec.isLt _

@[simp] theorem rd_wr_same (s : State) (a v : Nat) : rd (wr s a v) a = v % 2 ^ 32 := by
  simp [rd, wr]

@[simp] theorem rd_wr_ne (s : State) {a b : Nat} (v : Nat) (h : b ≠ a) : rd (wr s a v) b = rd s b := by
  simp [rd, wr, h]

theorem rd_wr (s : State) (a b v : Nat) : rd (wr s a v) b = if b = a then v % 2 ^ 32 else rd s b := by
  split
  · next h => rw [h, rd_wr_same]
  · next h => rw [rd_wr_ne s v h]

/-- Registers read alike where the register files are the same. -/
theorem rd_congr {s t : State} (h : t.rf = s.rf) (a : Nat) : rd t a = rd s a := by rw [rd, h, rd]

@[simp] theorem rd_setRing (s : State) (r : Nat) (x : Ring) (a : Nat) : rd (setRing s r x) a = rd s a := rfl
@[simp] theorem rd_withPending (s : State) (q : List Instr) (a : Nat) : rd (s.withPending q) a = rd s a := rfl
@[simp] theorem rd_wrShadow (s : State) (a v b : Nat) : rd (wrShadow s a v) b = rd s b := rfl

@[simp] theorem rd_wrF_ne (s : State) {a b : Nat} (hi lo v : Nat) (h : b ≠ a) : rd (wrF s a hi lo v) b = rd s b := by
  rw [wrF, rd_wr_ne s _ h]

theorem rd_wrF_same (s : State) (a hi lo v : Nat) (h : lo ≤ hi + 1) (hh : hi < 32) :
    rd (wrF s a hi lo v) a = setFldN (rd s a) hi lo v := by
  rw [wrF, rd_wr_same, Nat.mod_eq_of_lt (setFldN_lt _ _ _ _ h hh (rd_lt s a))]

theorem rdF_wrF_same (s : State) (a hi lo v : Nat) (h : lo ≤ hi + 1) (hh : hi < 32) :
    rdF (wrF s a hi lo v) a hi lo = v % 2 ^ (hi + 1 - lo) := by
  rw [rdF, rd_wrF_same s a hi lo v h hh, fldN_setFldN_same _ _ _ _ h]

theorem rdF_wrF_other (s : State) (a hi lo v hi2 lo2 : Nat) (h : lo ≤ hi + 1) (hh : hi < 32) (hd : hi2 < lo ∨ hi < lo2) :
    rdF (wrF s a hi lo v) a hi2 lo2 = rdF s a hi2 lo2 := by
  rw [rdF, rd_wrF_same s a hi lo v h hh, fldN_setFldN_ne _ _ _ _ _ _ h hd, rdF]

theorem rdB_wrF_same (s : State) (a hi lo v i : Nat) (h : lo ≤ hi + 1) (hh : hi < 32) :
    rdB (wrF s a hi lo v) a i = if lo ≤ i ∧ i ≤ hi then bitN v (i - lo) else rdB s a i := by
  rw [rdB, rd_wrF_same s a hi lo v h hh, bitN_setFldN _ _ _ _ _ h, rdB]

@[simp] theorem rd_bump_same (s : State) (a n : Nat) : rd (bump s a n) a = (rd s a + n) % 2 ^ 32 := by
  simp [bump]

@[simp] theorem rd_bump_ne (s : State) {a b : Nat} (n : Nat) (h : b ≠ a) : rd (bump s a n) b = rd s b := by
  simp [bump, h]

@[simp] theorem rd_bumpSat_same (s : State) (a n : Nat) : rd (bumpSat s a n) a = min (rd s a + n) 0xFFFFFFFF := by
  have : min (rd s a + n) 0xFFFFFFFF < 2 ^ 32 := by omega
  rw [bumpSat, rd_wr_same, Nat.mod_eq_of_lt this]

@[simp] theorem rd_bumpSat_ne (s : State) {a b : Nat} (n : Nat) (h : b ≠ a) : rd (bumpSat s a n) b = rd s b := by
  simp [bumpSat, h]

/-! ### Commands -/

/-- A command on a block that runs. -/
theorem whenOn_on {s : State} (f : State → State) (h : s.power = .on) : whenOn f s = .next (endCommand s (f s)) := by
  rw [whenOn, if_pos h]

/-- A command on a block that is held in reset or asleep. -/
theorem whenOn_off {s : State} (f : State → State) (h : s.power ≠ .on) : whenOn f s = .next s := by
  rw [whenOn, if_neg h]

end Sys2Proof.Laws
end

