-- ==== Sys2Proof/Laws/Ops.lean ====
section
/-!
SUPPORT. What the shared operations that set event flags, send event pods and report faults leave of the state: they
write the register file, the rings, the messages and the count of lost event pods, and a report the collector's inbox;
every other field is as it was.
-/

namespace Sys2Proof.Laws

open Sys2Proof.Machine

/-- The two states differ at most in the register file, the flagged pages, the rings, the messages sent and the lost
event pods. -/
def EventStep (s t : State) : Prop :=
  ∃ rf fl ri ms le, t = { s with rf := rf, flagged := fl, rings := ri, msixOut := ms, lostEvents := le }

theorem EventStep.refl (s : State) : EventStep s s := ⟨s.rf, s.flagged, s.rings, s.msixOut, s.lostEvents, rfl⟩

theorem EventStep.trans {s t u : State} (a : EventStep s t) (b : EventStep t u) : EventStep s u := by
  obtain ⟨_, _, _, _, _, rfl⟩ := a
  obtain ⟨_, _, _, _, _, rfl⟩ := b
  exact ⟨_, _, _, _, _, rfl⟩

theorem EventStep.ite {s a b : State} {c : Prop} [Decidable c] (ha : EventStep s a) (hb : EventStep s b) :
    EventStep s (if c then a else b) := by
  split
  · exact ha
  · exact hb

theorem wr_event (s : State) (a v : Nat) : EventStep s (wr s a v) := ⟨_, _, _, _, _, rfl⟩

theorem msixSignal_event (s : State) (v : Nat) : EventStep s (msixSignal s v) := by
  unfold msixSignal
  exact EventStep.ite (wr_event _ _ _) ⟨_, _, _, _, _, rfl⟩

theorem raise_event (s : State) (p m : Nat) : EventStep s (raise s p m) := ⟨_, _, _, _, _, rfl⟩

theorem enqueue_event (s : State) (r : Nat) (p : OutPod) : EventStep s (enqueue s r p) := ⟨_, _, _, _, _, rfl⟩

theorem loseEvent_event (s : State) : EventStep s (loseEvent s) := ⟨_, _, _, _, _, rfl⟩

theorem sendTo_event (s : State) (r : Nat) (p : OutPod) : EventStep s (sendTo s r p) := by
  unfold sendTo
  exact EventStep.ite (loseEvent_event s) (enqueue_event s r p)

theorem sendEvent_event (s : State) (op cls frame echo status : Nat) (body : List Byte) :
    EventStep s (sendEvent s op cls frame echo status body) := sendTo_event _ _ _

theorem notify_event (s : State) (p : Nat) : EventStep s (notify s p) := by
  unfold notify
  refine EventStep.ite ?_ (EventStep.refl s)
  have h : EventStep s (if bitN (routeOf s p) 6 then msixSignal s (fldN (routeOf s p) 5 0) else s) :=
    EventStep.ite (msixSignal_event _ _) (EventStep.refl s)
  have key (x : State) (e : EventStep s x) :
      EventStep s (if bitN (routeOf x p) 7 then sendTo x (eventRing x) (pageEventPod x p) else x) :=
    EventStep.ite (e.trans (sendTo_event _ _ _)) e
  exact key _ h

theorem notifyAll_event (l : List Nat) (s : State) :
    EventStep s (l.foldl (fun s p => if p = 0x0E0 then s else notify s p) s) := by
  induction l generalizing s with
  | nil => exact EventStep.refl s
  | cons p l ih => exact EventStep.trans (EventStep.ite (EventStep.refl s) (notify_event s p)) (ih _)

/-- What the end of a command does: it notifies, and forgets which pages the command has flagged. -/
theorem endCommand_event (s0 s : State) : EventStep s (endCommand s0 s) := by
  have h := notifyAll_event (incremented s0 s) s
  unfold endCommand
  have key (x : State) :
      EventStep x { (if (incremented s0 x).contains 0x0E0 then notify x 0x0E0 else x) with flagged := [] } :=
    EventStep.trans (EventStep.ite (notify_event _ 0x0E0) (EventStep.refl _)) ⟨_, _, _, _, _, rfl⟩
  exact h.trans (key _)

/-! ### The same, field by field -/

@[simp] theorem raise_pending (s : State) (p m : Nat) : (raise s p m).pending = s.pending := by
  obtain ⟨_, _, _, _, _, h⟩ := raise_event s p m; rw [h]
@[simp] theorem raise_power (s : State) (p m : Nat) : (raise s p m).power = s.power := by
  obtain ⟨_, _, _, _, _, h⟩ := raise_event s p m; rw [h]
@[simp] theorem raise_ridge (s : State) (p m : Nat) : (raise s p m).ridge = s.ridge := by
  obtain ⟨_, _, _, _, _, h⟩ := raise_event s p m; rw [h]
@[simp] theorem raise_freeCount (s : State) (p m : Nat) : (raise s p m).freeCount = s.freeCount := by
  obtain ⟨_, _, _, _, _, h⟩ := raise_event s p m; rw [h]
@[simp] theorem raise_pegs (s : State) (p m : Nat) : (raise s p m).pegs = s.pegs := by
  obtain ⟨_, _, _, _, _, h⟩ := raise_event s p m; rw [h]
@[simp] theorem raise_pods (s : State) (p m : Nat) : (raise s p m).pods = s.pods := by
  obtain ⟨_, _, _, _, _, h⟩ := raise_event s p m; rw [h]
@[simp] theorem raise_hostMem (s : State) (p m : Nat) : (raise s p m).hostMem = s.hostMem := by
  obtain ⟨_, _, _, _, _, h⟩ := raise_event s p m; rw [h]
@[simp] theorem raise_mem (s : State) (p m : Nat) : (raise s p m).mem = s.mem := by
  obtain ⟨_, _, _, _, _, h⟩ := raise_event s p m; rw [h]
@[simp] theorem raise_ecc (s : State) (p m : Nat) : (raise s p m).ecc = s.ecc := by
  obtain ⟨_, _, _, _, _, h⟩ := raise_event s p m; rw [h]
@[simp] theorem raise_scrubs (s : State) (p m : Nat) : (raise s p m).scrubs = s.scrubs := by
  obtain ⟨_, _, _, _, _, h⟩ := raise_event s p m; rw [h]
@[simp] theorem raise_fc (s : State) (p m : Nat) : (raise s p m).fc = s.fc := by
  obtain ⟨_, _, _, _, _, h⟩ := raise_event s p m; rw [h]
@[simp] theorem raise_fgs (s : State) (p m : Nat) : (raise s p m).fgs = s.fgs := by
  obtain ⟨_, _, _, _, _, h⟩ := raise_event s p m; rw [h]
@[simp] theorem raise_rr (s : State) (p m : Nat) : (raise s p m).rr = s.rr := by
  obtain ⟨_, _, _, _, _, h⟩ := raise_event s p m; rw [h]
@[simp] theorem raise_streams (s : State) (p m : Nat) : (raise s p m).streams = s.streams := by
  obtain ⟨_, _, _, _, _, h⟩ := raise_event s p m; rw [h]
@[simp] theorem raise_sensors (s : State) (p m : Nat) : (raise s p m).sensors = s.sensors := by
  obtain ⟨_, _, _, _, _, h⟩ := raise_event s p m; rw [h]
@[simp] theorem raise_portSec (s : State) (p m : Nat) : (raise s p m).portSec = s.portSec := by
  obtain ⟨_, _, _, _, _, h⟩ := raise_event s p m; rw [h]
@[simp] theorem raise_portOut (s : State) (p m : Nat) : (raise s p m).portOut = s.portOut := by
  obtain ⟨_, _, _, _, _, h⟩ := raise_event s p m; rw [h]
@[simp] theorem raise_camPods (s : State) (p m : Nat) : (raise s p m).camPods = s.camPods := by
  obtain ⟨_, _, _, _, _, h⟩ := raise_event s p m; rw [h]
@[simp] theorem raise_decIn (s : State) (p m : Nat) : (raise s p m).decIn = s.decIn := by
  obtain ⟨_, _, _, _, _, h⟩ := raise_event s p m; rw [h]
@[simp] theorem raise_pipeIn (s : State) (p m : Nat) : (raise s p m).pipeIn = s.pipeIn := by
  obtain ⟨_, _, _, _, _, h⟩ := raise_event s p m; rw [h]
@[simp] theorem raise_pipeQ (s : State) (p m : Nat) : (raise s p m).pipeQ = s.pipeQ := by
  obtain ⟨_, _, _, _, _, h⟩ := raise_event s p m; rw [h]
@[simp] theorem raise_slots (s : State) (p m : Nat) : (raise s p m).slots = s.slots := by
  obtain ⟨_, _, _, _, _, h⟩ := raise_event s p m; rw [h]
@[simp] theorem raise_statQ (s : State) (p m : Nat) : (raise s p m).statQ = s.statQ := by
  obtain ⟨_, _, _, _, _, h⟩ := raise_event s p m; rw [h]
@[simp] theorem raise_pp (s : State) (p m : Nat) : (raise s p m).pp = s.pp := by
  obtain ⟨_, _, _, _, _, h⟩ := raise_event s p m; rw [h]
@[simp] theorem raise_decq (s : State) (p m : Nat) : (raise s p m).decq = s.decq := by
  obtain ⟨_, _, _, _, _, h⟩ := raise_event s p m; rw [h]
@[simp] theorem raise_sntMem (s : State) (p m : Nat) : (raise s p m).sntMem = s.sntMem := by
  obtain ⟨_, _, _, _, _, h⟩ := raise_event s p m; rw [h]
@[simp] theorem raise_rolls (s : State) (p m : Nat) : (raise s p m).rolls = s.rolls := by
  obtain ⟨_, _, _, _, _, h⟩ := raise_event s p m; rw [h]
@[simp] theorem raise_seq (s : State) (p m : Nat) : (raise s p m).seq = s.seq := by
  obtain ⟨_, _, _, _, _, h⟩ := raise_event s p m; rw [h]
@[simp] theorem raise_graphs (s : State) (p m : Nat) : (raise s p m).graphs = s.graphs := by
  obtain ⟨_, _, _, _, _, h⟩ := raise_event s p m; rw [h]
@[simp] theorem raise_insts (s : State) (p m : Nat) : (raise s p m).insts = s.insts := by
  obtain ⟨_, _, _, _, _, h⟩ := raise_event s p m; rw [h]
@[simp] theorem raise_starts (s : State) (p m : Nat) : (raise s p m).starts = s.starts := by
  obtain ⟨_, _, _, _, _, h⟩ := raise_event s p m; rw [h]
@[simp] theorem raise_nextId (s : State) (p m : Nat) : (raise s p m).nextId = s.nextId := by
  obtain ⟨_, _, _, _, _, h⟩ := raise_event s p m; rw [h]
@[simp] theorem raise_nextExec (s : State) (p m : Nat) : (raise s p m).nextExec = s.nextExec := by
  obtain ⟨_, _, _, _, _, h⟩ := raise_event s p m; rw [h]
@[simp] theorem raise_ops (s : State) (p m : Nat) : (raise s p m).ops = s.ops := by
  obtain ⟨_, _, _, _, _, h⟩ := raise_event s p m; rw [h]
@[simp] theorem raise_arrays (s : State) (p m : Nat) : (raise s p m).arrays = s.arrays := by
  obtain ⟨_, _, _, _, _, h⟩ := raise_event s p m; rw [h]
@[simp] theorem raise_engCycles (s : State) (p m : Nat) : (raise s p m).engCycles = s.engCycles := by
  obtain ⟨_, _, _, _, _, h⟩ := raise_event s p m; rw [h]
@[simp] theorem raise_records (s : State) (p m : Nat) : (raise s p m).records = s.records := by
  obtain ⟨_, _, _, _, _, h⟩ := raise_event s p m; rw [h]
@[simp] theorem raise_keySlots (s : State) (p m : Nat) : (raise s p m).keySlots = s.keySlots := by
  obtain ⟨_, _, _, _, _, h⟩ := raise_event s p m; rw [h]
@[simp] theorem raise_corrections (s : State) (p m : Nat) : (raise s p m).corrections = s.corrections := by
  obtain ⟨_, _, _, _, _, h⟩ := raise_event s p m; rw [h]
@[simp] theorem raise_gl (s : State) (p m : Nat) : (raise s p m).gl = s.gl := by
  obtain ⟨_, _, _, _, _, h⟩ := raise_event s p m; rw [h]
@[simp] theorem raise_glOut (s : State) (p m : Nat) : (raise s p m).glOut = s.glOut := by
  obtain ⟨_, _, _, _, _, h⟩ := raise_event s p m; rw [h]
@[simp] theorem raise_linkDowns (s : State) (p m : Nat) : (raise s p m).linkDowns = s.linkDowns := by
  obtain ⟨_, _, _, _, _, h⟩ := raise_event s p m; rw [h]
@[simp] theorem raise_time (s : State) (p m : Nat) : (raise s p m).time = s.time := by
  obtain ⟨_, _, _, _, _, h⟩ := raise_event s p m; rw [h]
@[simp] theorem raise_lanes (s : State) (p m : Nat) : (raise s p m).lanes = s.lanes := by
  obtain ⟨_, _, _, _, _, h⟩ := raise_event s p m; rw [h]
@[simp] theorem raise_media (s : State) (p m : Nat) : (raise s p m).media = s.media := by
  obtain ⟨_, _, _, _, _, h⟩ := raise_event s p m; rw [h]
@[simp] theorem raise_hostOut (s : State) (p m : Nat) : (raise s p m).hostOut = s.hostOut := by
  obtain ⟨_, _, _, _, _, h⟩ := raise_event s p m; rw [h]
@[simp] theorem raise_remote (s : State) (p m : Nat) : (raise s p m).remote = s.remote := by
  obtain ⟨_, _, _, _, _, h⟩ := raise_event s p m; rw [h]
@[simp] theorem raise_outWrites (s : State) (p m : Nat) : (raise s p m).outWrites = s.outWrites := by
  obtain ⟨_, _, _, _, _, h⟩ := raise_event s p m; rw [h]
@[simp] theorem raise_encQ (s : State) (p m : Nat) : (raise s p m).encQ = s.encQ := by
  obtain ⟨_, _, _, _, _, h⟩ := raise_event s p m; rw [h]
@[simp] theorem raise_heldIncs (s : State) (p m : Nat) : (raise s p m).heldIncs = s.heldIncs := by
  obtain ⟨_, _, _, _, _, h⟩ := raise_event s p m; rw [h]
@[simp] theorem raise_podsIn (s : State) (p m : Nat) : (raise s p m).podsIn = s.podsIn := by
  obtain ⟨_, _, _, _, _, h⟩ := raise_event s p m; rw [h]
@[simp] theorem raise_mgt (s : State) (p m : Nat) : (raise s p m).mgt = s.mgt := by
  obtain ⟨_, _, _, _, _, h⟩ := raise_event s p m; rw [h]
@[simp] theorem raise_mgtOut (s : State) (p m : Nat) : (raise s p m).mgtOut = s.mgtOut := by
  obtain ⟨_, _, _, _, _, h⟩ := raise_event s p m; rw [h]
@[simp] theorem raise_comp (s : State) (p m : Nat) : (raise s p m).comp = s.comp := by
  obtain ⟨_, _, _, _, _, h⟩ := raise_event s p m; rw [h]
@[simp] theorem raise_sentry (s : State) (p m : Nat) : (raise s p m).sentry = s.sentry := by
  obtain ⟨_, _, _, _, _, h⟩ := raise_event s p m; rw [h]
@[simp] theorem raise_taps (s : State) (p m : Nat) : (raise s p m).taps = s.taps := by
  obtain ⟨_, _, _, _, _, h⟩ := raise_event s p m; rw [h]
@[simp] theorem raise_lantern (s : State) (p m : Nat) : (raise s p m).lantern = s.lantern := by
  obtain ⟨_, _, _, _, _, h⟩ := raise_event s p m; rw [h]
@[simp] theorem raise_cores (s : State) (p m : Nat) : (raise s p m).cores = s.cores := by
  obtain ⟨_, _, _, _, _, h⟩ := raise_event s p m; rw [h]
@[simp] theorem raise_bist (s : State) (p m : Nat) : (raise s p m).bist = s.bist := by
  obtain ⟨_, _, _, _, _, h⟩ := raise_event s p m; rw [h]
@[simp] theorem raise_pm (s : State) (p m : Nat) : (raise s p m).pm = s.pm := by
  obtain ⟨_, _, _, _, _, h⟩ := raise_event s p m; rw [h]
@[simp] theorem raise_fuses (s : State) (p m : Nat) : (raise s p m).fuses = s.fuses := by
  obtain ⟨_, _, _, _, _, h⟩ := raise_event s p m; rw [h]
@[simp] theorem raise_sec (s : State) (p m : Nat) : (raise s p m).sec = s.sec := by
  obtain ⟨_, _, _, _, _, h⟩ := raise_event s p m; rw [h]

@[simp] theorem endCommand_pending (s0 s : State) : (endCommand s0 s).pending = s.pending := by
  obtain ⟨_, _, _, _, _, h⟩ := endCommand_event s0 s; rw [h]
@[simp] theorem endCommand_power (s0 s : State) : (endCommand s0 s).power = s.power := by
  obtain ⟨_, _, _, _, _, h⟩ := endCommand_event s0 s; rw [h]
@[simp] theorem endCommand_ridge (s0 s : State) : (endCommand s0 s).ridge = s.ridge := by
  obtain ⟨_, _, _, _, _, h⟩ := endCommand_event s0 s; rw [h]
@[simp] theorem endCommand_freeCount (s0 s : State) : (endCommand s0 s).freeCount = s.freeCount := by
  obtain ⟨_, _, _, _, _, h⟩ := endCommand_event s0 s; rw [h]
@[simp] theorem endCommand_pegs (s0 s : State) : (endCommand s0 s).pegs = s.pegs := by
  obtain ⟨_, _, _, _, _, h⟩ := endCommand_event s0 s; rw [h]
@[simp] theorem endCommand_pods (s0 s : State) : (endCommand s0 s).pods = s.pods := by
  obtain ⟨_, _, _, _, _, h⟩ := endCommand_event s0 s; rw [h]
@[simp] theorem endCommand_hostMem (s0 s : State) : (endCommand s0 s).hostMem = s.hostMem := by
  obtain ⟨_, _, _, _, _, h⟩ := endCommand_event s0 s; rw [h]
@[simp] theorem endCommand_mem (s0 s : State) : (endCommand s0 s).mem = s.mem := by
  obtain ⟨_, _, _, _, _, h⟩ := endCommand_event s0 s; rw [h]
@[simp] theorem endCommand_ecc (s0 s : State) : (endCommand s0 s).ecc = s.ecc := by
  obtain ⟨_, _, _, _, _, h⟩ := endCommand_event s0 s; rw [h]
@[simp] theorem endCommand_scrubs (s0 s : State) : (endCommand s0 s).scrubs = s.scrubs := by
  obtain ⟨_, _, _, _, _, h⟩ := endCommand_event s0 s; rw [h]
@[simp] theorem endCommand_fc (s0 s : State) : (endCommand s0 s).fc = s.fc := by
  obtain ⟨_, _, _, _, _, h⟩ := endCommand_event s0 s; rw [h]
@[simp] theorem endCommand_fgs (s0 s : State) : (endCommand s0 s).fgs = s.fgs := by
  obtain ⟨_, _, _, _, _, h⟩ := endCommand_event s0 s; rw [h]
@[simp] theorem endCommand_rr (s0 s : State) : (endCommand s0 s).rr = s.rr := by
  obtain ⟨_, _, _, _, _, h⟩ := endCommand_event s0 s; rw [h]
@[simp] theorem endCommand_streams (s0 s : State) : (endCommand s0 s).streams = s.streams := by
  obtain ⟨_, _, _, _, _, h⟩ := endCommand_event s0 s; rw [h]
@[simp] theorem endCommand_sensors (s0 s : State) : (endCommand s0 s).sensors = s.sensors := by
  obtain ⟨_, _, _, _, _, h⟩ := endCommand_event s0 s; rw [h]
@[simp] theorem endCommand_portSec (s0 s : State) : (endCommand s0 s).portSec = s.portSec := by
  obtain ⟨_, _, _, _, _, h⟩ := endCommand_event s0 s; rw [h]
@[simp] theorem endCommand_portOut (s0 s : State) : (endCommand s0 s).portOut = s.portOut := by
  obtain ⟨_, _, _, _, _, h⟩ := endCommand_event s0 s; rw [h]
@[simp] theorem endCommand_camPods (s0 s : State) : (endCommand s0 s).camPods = s.camPods := by
  obtain ⟨_, _, _, _, _, h⟩ := endCommand_event s0 s; rw [h]
@[simp] theorem endCommand_decIn (s0 s : State) : (endCommand s0 s).decIn = s.decIn := by
  obtain ⟨_, _, _, _, _, h⟩ := endCommand_event s0 s; rw [h]
@[simp] theorem endCommand_pipeIn (s0 s : State) : (endCommand s0 s).pipeIn = s.pipeIn := by
  obtain ⟨_, _, _, _, _, h⟩ := endCommand_event s0 s; rw [h]
@[simp] theorem endCommand_pipeQ (s0 s : State) : (endCommand s0 s).pipeQ = s.pipeQ := by
  obtain ⟨_, _, _, _, _, h⟩ := endCommand_event s0 s; rw [h]
@[simp] theorem endCommand_slots (s0 s : State) : (endCommand s0 s).slots = s.slots := by
  obtain ⟨_, _, _, _, _, h⟩ := endCommand_event s0 s; rw [h]
@[simp] theorem endCommand_statQ (s0 s : State) : (endCommand s0 s).statQ = s.statQ := by
  obtain ⟨_, _, _, _, _, h⟩ := endCommand_event s0 s; rw [h]
@[simp] theorem endCommand_pp (s0 s : State) : (endCommand s0 s).pp = s.pp := by
  obtain ⟨_, _, _, _, _, h⟩ := endCommand_event s0 s; rw [h]
@[simp] theorem endCommand_decq (s0 s : State) : (endCommand s0 s).decq = s.decq := by
  obtain ⟨_, _, _, _, _, h⟩ := endCommand_event s0 s; rw [h]
@[simp] theorem endCommand_sntMem (s0 s : State) : (endCommand s0 s).sntMem = s.sntMem := by
  obtain ⟨_, _, _, _, _, h⟩ := endCommand_event s0 s; rw [h]
@[simp] theorem endCommand_rolls (s0 s : State) : (endCommand s0 s).rolls = s.rolls := by
  obtain ⟨_, _, _, _, _, h⟩ := endCommand_event s0 s; rw [h]
@[simp] theorem endCommand_seq (s0 s : State) : (endCommand s0 s).seq = s.seq := by
  obtain ⟨_, _, _, _, _, h⟩ := endCommand_event s0 s; rw [h]
@[simp] theorem endCommand_graphs (s0 s : State) : (endCommand s0 s).graphs = s.graphs := by
  obtain ⟨_, _, _, _, _, h⟩ := endCommand_event s0 s; rw [h]
@[simp] theorem endCommand_insts (s0 s : State) : (endCommand s0 s).insts = s.insts := by
  obtain ⟨_, _, _, _, _, h⟩ := endCommand_event s0 s; rw [h]
@[simp] theorem endCommand_starts (s0 s : State) : (endCommand s0 s).starts = s.starts := by
  obtain ⟨_, _, _, _, _, h⟩ := endCommand_event s0 s; rw [h]
@[simp] theorem endCommand_nextId (s0 s : State) : (endCommand s0 s).nextId = s.nextId := by
  obtain ⟨_, _, _, _, _, h⟩ := endCommand_event s0 s; rw [h]
@[simp] theorem endCommand_nextExec (s0 s : State) : (endCommand s0 s).nextExec = s.nextExec := by
  obtain ⟨_, _, _, _, _, h⟩ := endCommand_event s0 s; rw [h]
@[simp] theorem endCommand_ops (s0 s : State) : (endCommand s0 s).ops = s.ops := by
  obtain ⟨_, _, _, _, _, h⟩ := endCommand_event s0 s; rw [h]
@[simp] theorem endCommand_arrays (s0 s : State) : (endCommand s0 s).arrays = s.arrays := by
  obtain ⟨_, _, _, _, _, h⟩ := endCommand_event s0 s; rw [h]
@[simp] theorem endCommand_engCycles (s0 s : State) : (endCommand s0 s).engCycles = s.engCycles := by
  obtain ⟨_, _, _, _, _, h⟩ := endCommand_event s0 s; rw [h]
@[simp] theorem endCommand_records (s0 s : State) : (endCommand s0 s).records = s.records := by
  obtain ⟨_, _, _, _, _, h⟩ := endCommand_event s0 s; rw [h]
@[simp] theorem endCommand_keySlots (s0 s : State) : (endCommand s0 s).keySlots = s.keySlots := by
  obtain ⟨_, _, _, _, _, h⟩ := endCommand_event s0 s; rw [h]
@[simp] theorem endCommand_corrections (s0 s : State) : (endCommand s0 s).corrections = s.corrections := by
  obtain ⟨_, _, _, _, _, h⟩ := endCommand_event s0 s; rw [h]
@[simp] theorem endCommand_gl (s0 s : State) : (endCommand s0 s).gl = s.gl := by
  obtain ⟨_, _, _, _, _, h⟩ := endCommand_event s0 s; rw [h]
@[simp] theorem endCommand_glOut (s0 s : State) : (endCommand s0 s).glOut = s.glOut := by
  obtain ⟨_, _, _, _, _, h⟩ := endCommand_event s0 s; rw [h]
@[simp] theorem endCommand_linkDowns (s0 s : State) : (endCommand s0 s).linkDowns = s.linkDowns := by
  obtain ⟨_, _, _, _, _, h⟩ := endCommand_event s0 s; rw [h]
@[simp] theorem endCommand_time (s0 s : State) : (endCommand s0 s).time = s.time := by
  obtain ⟨_, _, _, _, _, h⟩ := endCommand_event s0 s; rw [h]
@[simp] theorem endCommand_lanes (s0 s : State) : (endCommand s0 s).lanes = s.lanes := by
  obtain ⟨_, _, _, _, _, h⟩ := endCommand_event s0 s; rw [h]
@[simp] theorem endCommand_media (s0 s : State) : (endCommand s0 s).media = s.media := by
  obtain ⟨_, _, _, _, _, h⟩ := endCommand_event s0 s; rw [h]
@[simp] theorem endCommand_hostOut (s0 s : State) : (endCommand s0 s).hostOut = s.hostOut := by
  obtain ⟨_, _, _, _, _, h⟩ := endCommand_event s0 s; rw [h]
@[simp] theorem endCommand_remote (s0 s : State) : (endCommand s0 s).remote = s.remote := by
  obtain ⟨_, _, _, _, _, h⟩ := endCommand_event s0 s; rw [h]
@[simp] theorem endCommand_outWrites (s0 s : State) : (endCommand s0 s).outWrites = s.outWrites := by
  obtain ⟨_, _, _, _, _, h⟩ := endCommand_event s0 s; rw [h]
@[simp] theorem endCommand_encQ (s0 s : State) : (endCommand s0 s).encQ = s.encQ := by
  obtain ⟨_, _, _, _, _, h⟩ := endCommand_event s0 s; rw [h]
@[simp] theorem endCommand_heldIncs (s0 s : State) : (endCommand s0 s).heldIncs = s.heldIncs := by
  obtain ⟨_, _, _, _, _, h⟩ := endCommand_event s0 s; rw [h]
@[simp] theorem endCommand_podsIn (s0 s : State) : (endCommand s0 s).podsIn = s.podsIn := by
  obtain ⟨_, _, _, _, _, h⟩ := endCommand_event s0 s; rw [h]
@[simp] theorem endCommand_mgt (s0 s : State) : (endCommand s0 s).mgt = s.mgt := by
  obtain ⟨_, _, _, _, _, h⟩ := endCommand_event s0 s; rw [h]
@[simp] theorem endCommand_mgtOut (s0 s : State) : (endCommand s0 s).mgtOut = s.mgtOut := by
  obtain ⟨_, _, _, _, _, h⟩ := endCommand_event s0 s; rw [h]
@[simp] theorem endCommand_comp (s0 s : State) : (endCommand s0 s).comp = s.comp := by
  obtain ⟨_, _, _, _, _, h⟩ := endCommand_event s0 s; rw [h]
@[simp] theorem endCommand_sentry (s0 s : State) : (endCommand s0 s).sentry = s.sentry := by
  obtain ⟨_, _, _, _, _, h⟩ := endCommand_event s0 s; rw [h]
@[simp] theorem endCommand_taps (s0 s : State) : (endCommand s0 s).taps = s.taps := by
  obtain ⟨_, _, _, _, _, h⟩ := endCommand_event s0 s; rw [h]
@[simp] theorem endCommand_lantern (s0 s : State) : (endCommand s0 s).lantern = s.lantern := by
  obtain ⟨_, _, _, _, _, h⟩ := endCommand_event s0 s; rw [h]
@[simp] theorem endCommand_cores (s0 s : State) : (endCommand s0 s).cores = s.cores := by
  obtain ⟨_, _, _, _, _, h⟩ := endCommand_event s0 s; rw [h]
@[simp] theorem endCommand_bist (s0 s : State) : (endCommand s0 s).bist = s.bist := by
  obtain ⟨_, _, _, _, _, h⟩ := endCommand_event s0 s; rw [h]
@[simp] theorem endCommand_pm (s0 s : State) : (endCommand s0 s).pm = s.pm := by
  obtain ⟨_, _, _, _, _, h⟩ := endCommand_event s0 s; rw [h]
@[simp] theorem endCommand_fuses (s0 s : State) : (endCommand s0 s).fuses = s.fuses := by
  obtain ⟨_, _, _, _, _, h⟩ := endCommand_event s0 s; rw [h]
@[simp] theorem endCommand_sec (s0 s : State) : (endCommand s0 s).sec = s.sec := by
  obtain ⟨_, _, _, _, _, h⟩ := endCommand_event s0 s; rw [h]

@[simp] theorem sendEvent_pending (s : State) (op cls frame echo status : Nat) (body : List Byte) :
    (sendEvent s op cls frame echo status body).pending = s.pending := by obtain ⟨_, _, _, _, _, h⟩ := sendEvent_event s op cls frame echo status body; rw [h]
@[simp] theorem sendEvent_power (s : State) (op cls frame echo status : Nat) (body : List Byte) :
    (sendEvent s op cls frame echo status body).power = s.power := by obtain ⟨_, _, _, _, _, h⟩ := sendEvent_event s op cls frame echo status body; rw [h]
@[simp] theorem sendEvent_ridge (s : State) (op cls frame echo status : Nat) (body : List Byte) :
    (sendEvent s op cls frame echo status body).ridge = s.ridge := by obtain ⟨_, _, _, _, _, h⟩ := sendEvent_event s op cls frame echo status body; rw [h]
@[simp] theorem sendEvent_freeCount (s : State) (op cls frame echo status : Nat) (body : List Byte) :
    (sendEvent s op cls frame echo status body).freeCount = s.freeCount := by obtain ⟨_, _, _, _, _, h⟩ := sendEvent_event s op cls frame echo status body; rw [h]
@[simp] theorem sendEvent_pegs (s : State) (op cls frame echo status : Nat) (body : List Byte) :
    (sendEvent s op cls frame echo status body).pegs = s.pegs := by obtain ⟨_, _, _, _, _, h⟩ := sendEvent_event s op cls frame echo status body; rw [h]
@[simp] theorem sendEvent_pods (s : State) (op cls frame echo status : Nat) (body : List Byte) :
    (sendEvent s op cls frame echo status body).pods = s.pods := by obtain ⟨_, _, _, _, _, h⟩ := sendEvent_event s op cls frame echo status body; rw [h]
@[simp] theorem sendEvent_hostMem (s : State) (op cls frame echo status : Nat) (body : List Byte) :
    (sendEvent s op cls frame echo status body).hostMem = s.hostMem := by obtain ⟨_, _, _, _, _, h⟩ := sendEvent_event s op cls frame echo status body; rw [h]
@[simp] theorem sendEvent_mem (s : State) (op cls frame echo status : Nat) (body : List Byte) :
    (sendEvent s op cls frame echo status body).mem = s.mem := by obtain ⟨_, _, _, _, _, h⟩ := sendEvent_event s op cls frame echo status body; rw [h]
@[simp] theorem sendEvent_ecc (s : State) (op cls frame echo status : Nat) (body : List Byte) :
    (sendEvent s op cls frame echo status body).ecc = s.ecc := by obtain ⟨_, _, _, _, _, h⟩ := sendEvent_event s op cls frame echo status body; rw [h]
@[simp] theorem sendEvent_scrubs (s : State) (op cls frame echo status : Nat) (body : List Byte) :
    (sendEvent s op cls frame echo status body).scrubs = s.scrubs := by obtain ⟨_, _, _, _, _, h⟩ := sendEvent_event s op cls frame echo status body; rw [h]
@[simp] theorem sendEvent_fc (s : State) (op cls frame echo status : Nat) (body : List Byte) :
    (sendEvent s op cls frame echo status body).fc = s.fc := by obtain ⟨_, _, _, _, _, h⟩ := sendEvent_event s op cls frame echo status body; rw [h]
@[simp] theorem sendEvent_fgs (s : State) (op cls frame echo status : Nat) (body : List Byte) :
    (sendEvent s op cls frame echo status body).fgs = s.fgs := by obtain ⟨_, _, _, _, _, h⟩ := sendEvent_event s op cls frame echo status body; rw [h]
@[simp] theorem sendEvent_rr (s : State) (op cls frame echo status : Nat) (body : List Byte) :
    (sendEvent s op cls frame echo status body).rr = s.rr := by obtain ⟨_, _, _, _, _, h⟩ := sendEvent_event s op cls frame echo status body; rw [h]
@[simp] theorem sendEvent_streams (s : State) (op cls frame echo status : Nat) (body : List Byte) :
    (sendEvent s op cls frame echo status body).streams = s.streams := by obtain ⟨_, _, _, _, _, h⟩ := sendEvent_event s op cls frame echo status body; rw [h]
@[simp] theorem sendEvent_sensors (s : State) (op cls frame echo status : Nat) (body : List Byte) :
    (sendEvent s op cls frame echo status body).sensors = s.sensors := by obtain ⟨_, _, _, _, _, h⟩ := sendEvent_event s op cls frame echo status body; rw [h]
@[simp] theorem sendEvent_portSec (s : State) (op cls frame echo status : Nat) (body : List Byte) :
    (sendEvent s op cls frame echo status body).portSec = s.portSec := by obtain ⟨_, _, _, _, _, h⟩ := sendEvent_event s op cls frame echo status body; rw [h]
@[simp] theorem sendEvent_portOut (s : State) (op cls frame echo status : Nat) (body : List Byte) :
    (sendEvent s op cls frame echo status body).portOut = s.portOut := by obtain ⟨_, _, _, _, _, h⟩ := sendEvent_event s op cls frame echo status body; rw [h]
@[simp] theorem sendEvent_camPods (s : State) (op cls frame echo status : Nat) (body : List Byte) :
    (sendEvent s op cls frame echo status body).camPods = s.camPods := by obtain ⟨_, _, _, _, _, h⟩ := sendEvent_event s op cls frame echo status body; rw [h]
@[simp] theorem sendEvent_decIn (s : State) (op cls frame echo status : Nat) (body : List Byte) :
    (sendEvent s op cls frame echo status body).decIn = s.decIn := by obtain ⟨_, _, _, _, _, h⟩ := sendEvent_event s op cls frame echo status body; rw [h]
@[simp] theorem sendEvent_pipeIn (s : State) (op cls frame echo status : Nat) (body : List Byte) :
    (sendEvent s op cls frame echo status body).pipeIn = s.pipeIn := by obtain ⟨_, _, _, _, _, h⟩ := sendEvent_event s op cls frame echo status body; rw [h]
@[simp] theorem sendEvent_pipeQ (s : State) (op cls frame echo status : Nat) (body : List Byte) :
    (sendEvent s op cls frame echo status body).pipeQ = s.pipeQ := by obtain ⟨_, _, _, _, _, h⟩ := sendEvent_event s op cls frame echo status body; rw [h]
@[simp] theorem sendEvent_slots (s : State) (op cls frame echo status : Nat) (body : List Byte) :
    (sendEvent s op cls frame echo status body).slots = s.slots := by obtain ⟨_, _, _, _, _, h⟩ := sendEvent_event s op cls frame echo status body; rw [h]
@[simp] theorem sendEvent_statQ (s : State) (op cls frame echo status : Nat) (body : List Byte) :
    (sendEvent s op cls frame echo status body).statQ = s.statQ := by obtain ⟨_, _, _, _, _, h⟩ := sendEvent_event s op cls frame echo status body; rw [h]
@[simp] theorem sendEvent_pp (s : State) (op cls frame echo status : Nat) (body : List Byte) :
    (sendEvent s op cls frame echo status body).pp = s.pp := by obtain ⟨_, _, _, _, _, h⟩ := sendEvent_event s op cls frame echo status body; rw [h]
@[simp] theorem sendEvent_decq (s : State) (op cls frame echo status : Nat) (body : List Byte) :
    (sendEvent s op cls frame echo status body).decq = s.decq := by obtain ⟨_, _, _, _, _, h⟩ := sendEvent_event s op cls frame echo status body; rw [h]
@[simp] theorem sendEvent_sntMem (s : State) (op cls frame echo status : Nat) (body : List Byte) :
    (sendEvent s op cls frame echo status body).sntMem = s.sntMem := by obtain ⟨_, _, _, _, _, h⟩ := sendEvent_event s op cls frame echo status body; rw [h]
@[simp] theorem sendEvent_rolls (s : State) (op cls frame echo status : Nat) (body : List Byte) :
    (sendEvent s op cls frame echo status body).rolls = s.rolls := by obtain ⟨_, _, _, _, _, h⟩ := sendEvent_event s op cls frame echo status body; rw [h]
@[simp] theorem sendEvent_seq (s : State) (op cls frame echo status : Nat) (body : List Byte) :
    (sendEvent s op cls frame echo status body).seq = s.seq := by obtain ⟨_, _, _, _, _, h⟩ := sendEvent_event s op cls frame echo status body; rw [h]
@[simp] theorem sendEvent_graphs (s : State) (op cls frame echo status : Nat) (body : List Byte) :
    (sendEvent s op cls frame echo status body).graphs = s.graphs := by obtain ⟨_, _, _, _, _, h⟩ := sendEvent_event s op cls frame echo status body; rw [h]
@[simp] theorem sendEvent_insts (s : State) (op cls frame echo status : Nat) (body : List Byte) :
    (sendEvent s op cls frame echo status body).insts = s.insts := by obtain ⟨_, _, _, _, _, h⟩ := sendEvent_event s op cls frame echo status body; rw [h]
@[simp] theorem sendEvent_starts (s : State) (op cls frame echo status : Nat) (body : List Byte) :
    (sendEvent s op cls frame echo status body).starts = s.starts := by obtain ⟨_, _, _, _, _, h⟩ := sendEvent_event s op cls frame echo status body; rw [h]
@[simp] theorem sendEvent_nextId (s : State) (op cls frame echo status : Nat) (body : List Byte) :
    (sendEvent s op cls frame echo status body).nextId = s.nextId := by obtain ⟨_, _, _, _, _, h⟩ := sendEvent_event s op cls frame echo status body; rw [h]
@[simp] theorem sendEvent_nextExec (s : State) (op cls frame echo status : Nat) (body : List Byte) :
    (sendEvent s op cls frame echo status body).nextExec = s.nextExec := by obtain ⟨_, _, _, _, _, h⟩ := sendEvent_event s op cls frame echo status body; rw [h]
@[simp] theorem sendEvent_ops (s : State) (op cls frame echo status : Nat) (body : List Byte) :
    (sendEvent s op cls frame echo status body).ops = s.ops := by obtain ⟨_, _, _, _, _, h⟩ := sendEvent_event s op cls frame echo status body; rw [h]
@[simp] theorem sendEvent_arrays (s : State) (op cls frame echo status : Nat) (body : List Byte) :
    (sendEvent s op cls frame echo status body).arrays = s.arrays := by obtain ⟨_, _, _, _, _, h⟩ := sendEvent_event s op cls frame echo status body; rw [h]
@[simp] theorem sendEvent_engCycles (s : State) (op cls frame echo status : Nat) (body : List Byte) :
    (sendEvent s op cls frame echo status body).engCycles = s.engCycles := by obtain ⟨_, _, _, _, _, h⟩ := sendEvent_event s op cls frame echo status body; rw [h]
@[simp] theorem sendEvent_records (s : State) (op cls frame echo status : Nat) (body : List Byte) :
    (sendEvent s op cls frame echo status body).records = s.records := by obtain ⟨_, _, _, _, _, h⟩ := sendEvent_event s op cls frame echo status body; rw [h]
@[simp] theorem sendEvent_keySlots (s : State) (op cls frame echo status : Nat) (body : List Byte) :
    (sendEvent s op cls frame echo status body).keySlots = s.keySlots := by obtain ⟨_, _, _, _, _, h⟩ := sendEvent_event s op cls frame echo status body; rw [h]
@[simp] theorem sendEvent_corrections (s : State) (op cls frame echo status : Nat) (body : List Byte) :
    (sendEvent s op cls frame echo status body).corrections = s.corrections := by obtain ⟨_, _, _, _, _, h⟩ := sendEvent_event s op cls frame echo status body; rw [h]
@[simp] theorem sendEvent_gl (s : State) (op cls frame echo status : Nat) (body : List Byte) :
    (sendEvent s op cls frame echo status body).gl = s.gl := by obtain ⟨_, _, _, _, _, h⟩ := sendEvent_event s op cls frame echo status body; rw [h]
@[simp] theorem sendEvent_glOut (s : State) (op cls frame echo status : Nat) (body : List Byte) :
    (sendEvent s op cls frame echo status body).glOut = s.glOut := by obtain ⟨_, _, _, _, _, h⟩ := sendEvent_event s op cls frame echo status body; rw [h]
@[simp] theorem sendEvent_linkDowns (s : State) (op cls frame echo status : Nat) (body : List Byte) :
    (sendEvent s op cls frame echo status body).linkDowns = s.linkDowns := by obtain ⟨_, _, _, _, _, h⟩ := sendEvent_event s op cls frame echo status body; rw [h]
@[simp] theorem sendEvent_time (s : State) (op cls frame echo status : Nat) (body : List Byte) :
    (sendEvent s op cls frame echo status body).time = s.time := by obtain ⟨_, _, _, _, _, h⟩ := sendEvent_event s op cls frame echo status body; rw [h]
@[simp] theorem sendEvent_lanes (s : State) (op cls frame echo status : Nat) (body : List Byte) :
    (sendEvent s op cls frame echo status body).lanes = s.lanes := by obtain ⟨_, _, _, _, _, h⟩ := sendEvent_event s op cls frame echo status body; rw [h]
@[simp] theorem sendEvent_media (s : State) (op cls frame echo status : Nat) (body : List Byte) :
    (sendEvent s op cls frame echo status body).media = s.media := by obtain ⟨_, _, _, _, _, h⟩ := sendEvent_event s op cls frame echo status body; rw [h]
@[simp] theorem sendEvent_hostOut (s : State) (op cls frame echo status : Nat) (body : List Byte) :
    (sendEvent s op cls frame echo status body).hostOut = s.hostOut := by obtain ⟨_, _, _, _, _, h⟩ := sendEvent_event s op cls frame echo status body; rw [h]
@[simp] theorem sendEvent_remote (s : State) (op cls frame echo status : Nat) (body : List Byte) :
    (sendEvent s op cls frame echo status body).remote = s.remote := by obtain ⟨_, _, _, _, _, h⟩ := sendEvent_event s op cls frame echo status body; rw [h]
@[simp] theorem sendEvent_outWrites (s : State) (op cls frame echo status : Nat) (body : List Byte) :
    (sendEvent s op cls frame echo status body).outWrites = s.outWrites := by obtain ⟨_, _, _, _, _, h⟩ := sendEvent_event s op cls frame echo status body; rw [h]
@[simp] theorem sendEvent_encQ (s : State) (op cls frame echo status : Nat) (body : List Byte) :
    (sendEvent s op cls frame echo status body).encQ = s.encQ := by obtain ⟨_, _, _, _, _, h⟩ := sendEvent_event s op cls frame echo status body; rw [h]
@[simp] theorem sendEvent_heldIncs (s : State) (op cls frame echo status : Nat) (body : List Byte) :
    (sendEvent s op cls frame echo status body).heldIncs = s.heldIncs := by obtain ⟨_, _, _, _, _, h⟩ := sendEvent_event s op cls frame echo status body; rw [h]
@[simp] theorem sendEvent_podsIn (s : State) (op cls frame echo status : Nat) (body : List Byte) :
    (sendEvent s op cls frame echo status body).podsIn = s.podsIn := by obtain ⟨_, _, _, _, _, h⟩ := sendEvent_event s op cls frame echo status body; rw [h]
@[simp] theorem sendEvent_mgt (s : State) (op cls frame echo status : Nat) (body : List Byte) :
    (sendEvent s op cls frame echo status body).mgt = s.mgt := by obtain ⟨_, _, _, _, _, h⟩ := sendEvent_event s op cls frame echo status body; rw [h]
@[simp] theorem sendEvent_mgtOut (s : State) (op cls frame echo status : Nat) (body : List Byte) :
    (sendEvent s op cls frame echo status body).mgtOut = s.mgtOut := by obtain ⟨_, _, _, _, _, h⟩ := sendEvent_event s op cls frame echo status body; rw [h]
@[simp] theorem sendEvent_comp (s : State) (op cls frame echo status : Nat) (body : List Byte) :
    (sendEvent s op cls frame echo status body).comp = s.comp := by obtain ⟨_, _, _, _, _, h⟩ := sendEvent_event s op cls frame echo status body; rw [h]
@[simp] theorem sendEvent_sentry (s : State) (op cls frame echo status : Nat) (body : List Byte) :
    (sendEvent s op cls frame echo status body).sentry = s.sentry := by obtain ⟨_, _, _, _, _, h⟩ := sendEvent_event s op cls frame echo status body; rw [h]
@[simp] theorem sendEvent_taps (s : State) (op cls frame echo status : Nat) (body : List Byte) :
    (sendEvent s op cls frame echo status body).taps = s.taps := by obtain ⟨_, _, _, _, _, h⟩ := sendEvent_event s op cls frame echo status body; rw [h]
@[simp] theorem sendEvent_lantern (s : State) (op cls frame echo status : Nat) (body : List Byte) :
    (sendEvent s op cls frame echo status body).lantern = s.lantern := by obtain ⟨_, _, _, _, _, h⟩ := sendEvent_event s op cls frame echo status body; rw [h]
@[simp] theorem sendEvent_cores (s : State) (op cls frame echo status : Nat) (body : List Byte) :
    (sendEvent s op cls frame echo status body).cores = s.cores := by obtain ⟨_, _, _, _, _, h⟩ := sendEvent_event s op cls frame echo status body; rw [h]
@[simp] theorem sendEvent_bist (s : State) (op cls frame echo status : Nat) (body : List Byte) :
    (sendEvent s op cls frame echo status body).bist = s.bist := by obtain ⟨_, _, _, _, _, h⟩ := sendEvent_event s op cls frame echo status body; rw [h]
@[simp] theorem sendEvent_pm (s : State) (op cls frame echo status : Nat) (body : List Byte) :
    (sendEvent s op cls frame echo status body).pm = s.pm := by obtain ⟨_, _, _, _, _, h⟩ := sendEvent_event s op cls frame echo status body; rw [h]
@[simp] theorem sendEvent_fuses (s : State) (op cls frame echo status : Nat) (body : List Byte) :
    (sendEvent s op cls frame echo status body).fuses = s.fuses := by obtain ⟨_, _, _, _, _, h⟩ := sendEvent_event s op cls frame echo status body; rw [h]
@[simp] theorem sendEvent_sec (s : State) (op cls frame echo status : Nat) (body : List Byte) :
    (sendEvent s op cls frame echo status body).sec = s.sec := by obtain ⟨_, _, _, _, _, h⟩ := sendEvent_event s op cls frame echo status body; rw [h]

/-! ### Event flags -/

/-- The flags of a page after some are set: the old ones and the new. -/
theorem bitN_raise (s : State) (p m k : Nat) (hk : k < 16) (hm : m < 2 ^ 16) :
    bitN (rd (raise s p m) (hdrAddr p 0x010)) k = (bitN (rd s (hdrAddr p 0x010)) k || bitN m k) := by
  have hor : fldN (rd s (hdrAddr p 0x010)) 15 0 ||| m < 2 ^ 16 := Nat.or_lt_two_pow (fldN_lt _ 15 0) hm
  rw [raise, rd_wr_same]
  simp only [bitN_eq_testBit]
  rw [Nat.testBit_mod_two_pow, Nat.testBit_two_pow_mul_add _ hor, if_pos hk, Nat.testBit_or, testBit_fldN]
  have a : k < 32 := by omega
  have b : k < 15 + 1 - 0 := by omega
  simp [a, b]

@[simp] theorem endCommand_flagged (s0 s : State) : (endCommand s0 s).flagged = [] := rfl

/-- Setting flags of a page writes no other register. -/
theorem rd_raise (s : State) {p a : Nat} (m : Nat) (h : a ≠ hdrAddr p 0x010) : rd (raise s p m) a = rd s a := by
  unfold raise
  rw [rd_wr_ne _ _ h]
  rfl

/-- The addresses that a notification, or the loss of an event pod, may write: the flags and the count of lost event pods
of the host page, and the pending bits of the messages. -/
def notifyAddr (a : Nat) : Prop :=
  a = hdrAddr 0x0E0 0x010 ∨ a = A.EVENTS_LOST ∨ a = A.MSIX_PBA 0 ∨ a = A.MSIX_PBA 1

theorem rd_msixSignal (s : State) {v a : Nat} (hv : v < 64) (h0 : a ≠ A.MSIX_PBA 0) (h1 : a ≠ A.MSIX_PBA 1) :
    rd (msixSignal s v) a = rd s a := by
  unfold msixSignal
  split
  · have : v / 32 = 0 ∨ v / 32 = 1 := by omega
    rcases this with e | e
    · rw [e]; exact rd_wr_ne _ _ h0
    · rw [e]; exact rd_wr_ne _ _ h1
  · rfl

@[simp] theorem rd_enqueue (s : State) (r : Nat) (p : OutPod) (a : Nat) : rd (enqueue s r p) a = rd s a := rfl

theorem rd_loseEvent (s : State) {a : Nat} (h : ¬notifyAddr a) : rd (loseEvent s) a = rd s a := by
  unfold notifyAddr at h
  rw [loseEvent, rd_raise _ _ (by tauto), rd_bumpSat_ne _ _ (by tauto)]
  rfl

/-- Sending a pod to a ring writes no register but the flags and the count of the host page. -/
theorem rd_sendTo (s : State) (r : Nat) (p : OutPod) {a : Nat} (h : ¬notifyAddr a) : rd (sendTo s r p) a = rd s a := by
  unfold sendTo
  split
  · exact rd_loseEvent s h
  · rfl

/-- Sending an event pod writes no register but the flags and the count of the host page. -/
theorem rd_sendEvent (s : State) (op cls frame echo status : Nat) (body : List Byte) {a : Nat} (h : ¬notifyAddr a) :
    rd (sendEvent s op cls frame echo status body) a = rd s a := rd_sendTo _ _ _ h

theorem rd_notify (s : State) (p : Nat) {a : Nat} (h : ¬notifyAddr a) : rd (notify s p) a = rd s a := by
  have e : rd (if bitN (routeOf s p) 6 then msixSignal s (fldN (routeOf s p) 5 0) else s) a = rd s a := by
    unfold notifyAddr at h
    split
    · exact rd_msixSignal s (fldN_lt _ 5 0) (by tauto) (by tauto)
    · rfl
  have key (x : State) (e : rd x a = rd s a) :
      rd (if bitN (routeOf x p) 7 then sendTo x (eventRing x) (pageEventPod x p) else x) a = rd s a := by
    split
    · rw [rd_sendTo _ _ _ h, e]
    · exact e
  unfold notify
  split
  · exact key _ e
  · rfl

theorem rd_notifyAll (l : List Nat) (s : State) {a : Nat} (h : ¬notifyAddr a) :
    rd (l.foldl (fun s p => if p = 0x0E0 then s else notify s p) s) a = rd s a := by
  induction l generalizing s with
  | nil => rfl
  | cons p l ih =>
    rw [List.foldl_cons, ih]
    split
    · rfl
    · exact rd_notify s p h

/-- The end of a command writes no register but those of `notifyAddr`. -/
theorem rd_endCommand (s0 s : State) {a : Nat} (h : ¬notifyAddr a) : rd (endCommand s0 s) a = rd s a := by
  have e := rd_notifyAll (incremented s0 s) s h
  have key (x : State) (e : rd x a = rd s a) :
      rd { (if (incremented s0 x).contains 0x0E0 then notify x 0x0E0 else x) with flagged := [] } a = rd s a := by
    have e2 : rd (if (incremented s0 x).contains 0x0E0 then notify x 0x0E0 else x) a = rd s a := by
      split
      · exact (rd_notify _ _ h).trans e
      · exact e
    exact e2
  exact key _ e

/-- A command that raises no flag notifies nobody. -/
theorem endCommand_quiet (s0 s : State) (h : s.flagged = s0.flagged) : endCommand s0 s = { s with flagged := [] } := by
  have e : incremented s0 s = [] := by simp [incremented, h]
  unfold endCommand
  simp only [e, List.foldl_nil]
  simp

/-- A command that raises no flag is its effect. -/
theorem whenOn_quiet {s : State} (f : State → State) (hp : s.power = .on) (h : (f s).flagged = s.flagged) :
    whenOn f s = .next { f s with flagged := [] } := by
  rw [whenOn, if_pos hp, endCommand_quiet _ _ h]

@[simp] theorem rd_withFlagged (s : State) (l : List Nat) (a : Nat) : rd { s with flagged := l } a = rd s a := rfl
@[simp] theorem wakeRequest_flagged (s : State) (d : Nat) : (wakeRequest s d).flagged = s.flagged := by
  unfold wakeRequest; split <;> rfl
@[simp] theorem rd_wakeRequest (s : State) (d a : Nat) : rd (wakeRequest s d) a = rd s a := by
  unfold wakeRequest; split <;> rfl
@[simp] theorem wakeRequest_pods (s : State) (d : Nat) : (wakeRequest s d).pods = s.pods := by
  unfold wakeRequest; split <;> rfl

/-- A command on a block that runs reads its registers as its effect leaves them. -/
theorem rdF_endCommand (s0 s : State) {a : Nat} (hi lo : Nat) (h : ¬notifyAddr a) :
    rdF (endCommand s0 s) a hi lo = rdF s a hi lo := by
  rw [rdF, rd_endCommand s0 s h, rdF]

/-- Flags that are set stay set while others are set. -/
theorem bitN_setFlags_grows (s : State) (p m q k : Nat) (hk : k < 16) (hm : m < 2 ^ 16)
    (h : bitN (rd s (hdrAddr q 0x010)) k = true) : bitN (rd (raise s p m) (hdrAddr q 0x010)) k = true := by
  by_cases e : q = p
  · rw [e] at h ⊢
    rw [bitN_raise s p m k hk hm, h, Bool.true_or]
  · rw [rd_raise s m (by unfold hdrAddr; omega)]
    exact h

/-- Raising flags sets them. -/
theorem bitN_raise_sets (s : State) (p m k : Nat) (hk : k < 16) (hm : m < 2 ^ 16) (h : bitN m k = true) :
    bitN (rd (raise s p m) (hdrAddr p 0x010)) k = true := by
  rw [bitN_raise s p m k hk hm, h, Bool.or_true]

/-- The loss of an event pod clears no flag. -/
theorem bitN_loseEvent_grows (s : State) (q k : Nat) (hk : k < 16) (h : bitN (rd s (hdrAddr q 0x010)) k = true) :
    bitN (rd (loseEvent s) (hdrAddr q 0x010)) k = true := by
  unfold loseEvent
  refine bitN_setFlags_grows _ _ _ _ _ hk (by decide) ?_
  rw [rd_bumpSat_ne _ _ (by unfold hdrAddr A.EVENTS_LOST; omega)]
  exact h

/-- Sending a pod to a ring clears no flag. -/
theorem bitN_sendTo_grows (s : State) (r : Nat) (p : OutPod) (q k : Nat) (hk : k < 16)
    (h : bitN (rd s (hdrAddr q 0x010)) k = true) : bitN (rd (sendTo s r p) (hdrAddr q 0x010)) k = true := by
  unfold sendTo
  split
  · exact bitN_loseEvent_grows s q k hk h
  · exact h

/-- A notification clears no flag. -/
theorem bitN_notify_grows (s : State) (p q k : Nat) (hk : k < 16) (h : bitN (rd s (hdrAddr q 0x010)) k = true) :
    bitN (rd (notify s p) (hdrAddr q 0x010)) k = true := by
  have e : bitN (rd (if bitN (routeOf s p) 6 then msixSignal s (fldN (routeOf s p) 5 0) else s) (hdrAddr q 0x010)) k
      = true := by
    split
    · rw [rd_msixSignal s (fldN_lt _ 5 0) (by unfold hdrAddr A.MSIX_PBA; omega) (by unfold hdrAddr A.MSIX_PBA; omega)]
      exact h
    · exact h
  have key (x : State) (e : bitN (rd x (hdrAddr q 0x010)) k = true) :
      bitN (rd (if bitN (routeOf x p) 7 then sendTo x (eventRing x) (pageEventPod x p) else x) (hdrAddr q 0x010)) k
        = true := by
    split
    · exact bitN_sendTo_grows _ _ _ q k hk e
    · exact e
  unfold notify
  split
  · exact key _ e
  · exact h

/-- The end of a command clears no flag. -/
theorem bitN_endCommand_grows (s0 s : State) (q k : Nat) (hk : k < 16) (h : bitN (rd s (hdrAddr q 0x010)) k = true) :
    bitN (rd (endCommand s0 s) (hdrAddr q 0x010)) k = true := by
  have all (l : List Nat) (s : State) (h : bitN (rd s (hdrAddr q 0x010)) k = true) :
      bitN (rd (l.foldl (fun s p => if p = 0x0E0 then s else notify s p) s) (hdrAddr q 0x010)) k = true := by
    induction l generalizing s with
    | nil => exact h
    | cons p l ih =>
      rw [List.foldl_cons]
      apply ih
      split
      · exact h
      · exact bitN_notify_grows s p q k hk h
  have e := all (incremented s0 s) s h
  have key (x : State) (e : bitN (rd x (hdrAddr q 0x010)) k = true) :
      bitN (rd { (if (incremented s0 x).contains 0x0E0 then notify x 0x0E0 else x) with flagged := [] } (hdrAddr q 0x010)) k
        = true := by
    have e2 : bitN (rd (if (incremented s0 x).contains 0x0E0 then notify x 0x0E0 else x) (hdrAddr q 0x010)) k = true := by
      split
      · exact bitN_notify_grows _ _ q k hk e
      · exact e
    exact e2
  exact key _ e

/-! ### Fault reports -/

@[simp] theorem rd_quietRestart (s : State) (a : Nat) : rd (quietRestart s) a = rd s a := rfl

@[simp] theorem rd_quietFollow (s : State) (a : Nat) : rd (quietFollow s) a = rd s a := by
  unfold quietFollow
  simp only
  split
  · rfl
  · rfl

@[simp] theorem quietFollow_inbox (s : State) : (quietFollow s).fc.inbox = s.fc.inbox := by
  unfold quietFollow
  simp only
  split
  · rfl
  · rfl

@[simp] theorem quietFollow_ridge (s : State) : (quietFollow s).ridge = s.ridge := by
  unfold quietFollow
  simp only
  split
  · rfl
  · rfl

/-- A report writes no register but its level source's. -/
theorem rd_report (s : State) (r : Report) {a : Nat} (h : a ≠ A.FC_SRC_CFG r.source) : rd (report s r) a = rd s a := by
  have e : rd (if isLevel r.source r.status then wrF s (A.FC_SRC_CFG r.source) 12 12 1 else s) a = rd s a := by
    split
    · exact rd_wrF_ne _ _ _ _ h
    · rfl
  exact (rd_quietFollow _ a).trans e

/-- A report reaches the collector's inbox, stamped. -/
theorem report_inbox (s : State) (r : Report) :
    (report s r).fc.inbox = s.fc.inbox ++ [{ r with detected := s.ridge }] := by
  unfold report
  by_cases h : isLevel r.source r.status = true
  · simp only [h, if_true, quietFollow_inbox, quietFollow_ridge, wrF_fc, wrF_ridge]
  · simp only [h, Bool.false_eq_true, if_false, quietFollow_inbox, quietFollow_ridge]

end Sys2Proof.Laws
end

