-- ==== Sys2Proof/Laws/Claims.lean ====
section
/-!
SUPPORT. What the terms of Claims.lean give: a write that takes effect is its effect, a management request that is taken is
answered, a control pod that runs is taken, a pod that completes is done, and a sequence command that is ready acts.
-/

namespace Sys2Proof.Laws

open Sys2Proof.Machine Sys2Proof.Safety

theorem dropUnlock_rd (s : State) (p : Nat) (ag : Agent) (a : Nat) : rd (dropUnlock s p ag) a = rd s a := rfl

theorem admitWrite_state (s : State) (ag : Agent) (a v : Nat) (h : (admitWrite s ag a v).1 = true) :
    (admitWrite s ag a v).2 = s ∨ (admitWrite s ag a v).2 = dropUnlock s (a / 0x1000) ag := by
  unfold admitWrite at *
  by_cases hb : pageBarred ag (a / 0x1000) = true
  · simp [hb] at h
  · cases hf : findReg a with
    | none => simp [hb]
    | some r =>
      simp only [hb, hf] at h ⊢
      obtain ⟨row, l⟩ := r
      simp only [Bool.false_eq_true, if_false] at h ⊢
      split_ifs at h ⊢ <;> simp_all

/-- A write that takes effect at once is its effect on a state that differs at most in an unlock it used up. -/
theorem namedWrite_effect (s : State) (ag : Agent) (a v : Nat) (eff : State → State) (h : takesEffect s ag a v = true) :
    namedWrite s ag a v eff = eff (admitWrite s ag a v).2 := by
  simp only [takesEffect, Bool.and_eq_true, Bool.not_eq_true'] at h
  obtain ⟨⟨h1, h2⟩, h3⟩ := h
  have hs := admitWrite_state s ag a v h2
  unfold namedWrite asAgent
  rw [if_neg (by simp [h1])]
  rcases hw : admitWrite s ag a v with ⟨b, u⟩
  rw [hw] at h2 hs
  simp only at h2 hs
  subst h2
  simp only [orderedWrite]
  have e : (isRws a || !isPosted (a / 0x1000) || ((postedOf u (a / 0x1000)).isEmpty && holdLevel u (pageDomain (a / 0x1000)) == 0)) = true := by
    rcases hs with rfl | rfl
    · exact h3
    · exact h3
  simp only [hw, if_pos e]

theorem immediateWrite_effect (s : State) (ag : Agent) (a v : Nat) (eff : State → State) (h : takesEffectNow s ag a v = true) :
    immediateWrite s ag a v eff = eff (admitWrite s ag a v).2 := by
  simp only [takesEffectNow, Bool.and_eq_true, Bool.not_eq_true'] at h
  obtain ⟨h1, h2⟩ := h
  unfold immediateWrite asAgent
  rw [if_neg (by simp [h1])]
  rcases hw : admitWrite s ag a v with ⟨b, u⟩
  rw [hw] at h2
  simp only at h2
  subst h2
  simp only [hw]

/-- A request that is taken is answered with what the operation makes of the state in which it is taken. -/
theorem mgtServe_taken (s u : State) (f : MgtFrame) (op : Nat) (need : MgtNeed) (h : State → Nat × List Byte × State)
    (ht : mgtTaken s f op need = some u) :
    mgtServe s f op need h = mgtAnswer f op (sessionOf u f).isSome (h u) := by
  unfold mgtTaken at ht
  unfold mgtServe
  extract_lets mine frame at ht
  extract_lets
  split_ifs at ht with h1
  rw [if_neg h1]
  rcases hm : macsecCheck s 32 (mgtMacCfg s) frame with _ | w
  · simp [hm] at ht
  · simp only [hm] at ht ⊢
    rcases hx : sessionOf w f with _ | x
    · simp only [hx] at ht ⊢
      split_ifs at ht with h2
      simp only [Option.some.injEq] at ht
      subst ht
      simp only [not_or] at h2
      simp only [mgtRequest, hx]
      have : List.find? (fun r => r.seq == f.seq.toNat) (keptFor w f) = none := by
        simpa using h2.2.1
      rw [this]
      simp only
      rw [if_neg h2.2.2.1, if_neg (by simpa [hx] using h2.2.2.2)]
    · simp only [hx] at ht ⊢
      split_ifs at ht with h2
      simp only [Option.some.injEq] at ht
      subst ht
      simp only [not_or] at h2
      have ht : f.tagOk = true := by simpa using h2.1
      rw [if_pos ht]
      simp only [mgtRequest]
      have : List.find? (fun r => r.seq == f.seq.toNat) (keptFor (mgtTagPass w x) f) = none := by
        simpa using h2.2.1
      rw [this]
      simp only
      rw [if_neg h2.2.2.1, if_neg (by simpa using h2.2.2.2)]

theorem takePod_running {s : State} {no sect op : Nat} {p : RxPod} (h : runningControl s no sect op = some p) :
    takePod s no 4 (isControl sect op) = some (p, updatePod s no (fun p => { p with taken := true })) := by
  unfold runningControl at h
  unfold takePod
  cases hp : podAt s no with
  | none => simp [hp] at h
  | some q =>
    simp only [hp] at h ⊢
    split_ifs at h with h1
    cases h
    rw [if_pos h1]

theorem podComplete_done (s : State) (no st : Nat) : PodDone (podComplete s no st) no st := by
  unfold podComplete releasePods
  extract_lets go r
  have key : ∀ (l : List RxPod) (acc : State × List RxPod × List Nat),
      (∀ p ∈ l, p.no = no → p.stage = .done st) → (∀ p ∈ acc.2.1, p.no = no → p.stage = .done st) →
      ∀ p ∈ (l.foldl go acc).2.1, p.no = no → p.stage = .done st := by
    intro l
    induction l with
    | nil => intro acc _ h; exact h
    | cons x t ih =>
      intro acc hl h
      refine ih _ (fun p hp => hl p (List.mem_cons_of_mem _ hp)) ?_
      intro p hp hn
      simp only [go] at hp
      split at hp
      · split_ifs at hp
        · rcases List.mem_append.mp hp with hp | hp
          · exact h p hp hn
          · exact hl p (by rw [List.mem_singleton.mp hp]; exact List.mem_cons_self) hn
        · exact h p hp hn
      · rcases List.mem_append.mp hp with hp | hp
        · exact h p hp hn
        · exact hl p (by rw [List.mem_singleton.mp hp]; exact List.mem_cons_self) hn
  refine key _ _ ?_ (by simp)
  intro p hp hn
  simp only [updatePod, List.mem_map] at hp
  obtain ⟨q, -, rfl⟩ := hp
  split_ifs at hn ⊢ with hq
  · rfl
  · exact absurd hn hq

/-- A write to a header register of a page that the agent may write. -/
theorem pageWrite_effect (s : State) (ag : Agent) (p : Nat) (eff : State → State) (h : takesPage s ag p = true) :
    pageWrite s ag p eff = eff s := by
  simp only [takesPage, Bool.and_eq_true, Bool.not_eq_true'] at h
  unfold pageWrite asAgent
  rw [if_neg (by simp [h.1])]
  simp [h.2]

/-- A header write that takes its turn at once is its effect. -/
theorem orderedWrite_effect (s : State) (ag : Agent) (p a v : Nat) (eff : State → State) (h : takesTurn s ag p a = true) :
    pageWrite s ag p (fun s => orderedWrite s ag a v eff) = eff s := by
  simp only [takesTurn, Bool.and_eq_true] at h
  rw [pageWrite_effect s ag p _ h.1]
  exact if_pos h.2

/-- A sequence command that is taken and validated acts. -/
theorem seqCommand_ready {s v : State} {src : SeqFrom} {op : Nat} {waits : State → SeqCmd → Bool} {c : SeqCmd} {e : SeqEntry}
    (act : State → SeqCmd → SeqFields → SeqEntry → State) (h : seqReady s src op waits = some (c, e, v)) :
    seqCommand s src op waits act = act v c (parseSeq c.bytes) e := by
  unfold seqReady at h
  unfold seqCommand
  cases ht : seqTake s src op with
  | stop u => simp [ht] at h
  | cmd d u =>
    simp only [ht] at h ⊢
    by_cases hb : bistBusy u 0x24 = true ∨ (seqWaits u d || waits u d) = true
    · rw [if_pos hb] at h
      cases h
    · rw [if_neg hb] at h
      rw [not_or] at hb
      rw [if_neg hb.1, if_neg hb.2]
      unfold seqRun
      split at h
      · rename_i hv
        obtain ⟨rfl, rfl, rfl⟩ := by simpa using h
        simp only [hv]
      · cases h

end Sys2Proof.Laws
end

