-- ==== Sys2Proof/Laws/Keeps.lean ====
section
/-!
SUPPORT. What no command does: change the queue, restore a fuse bit, or break the canonical form of a memory. Here the
relation and the rules by which it passes through a definition; Laws/Keeps1.lean and the files after it hold one lemma
for each function of the model.
-/

namespace Sys2Proof.Laws

open Sys2Proof.Machine Sys2Proof.Safety

theorem fusesGrow_refl (f : Fuses) : FusesGrow f f :=
  ⟨rfl, rfl, fun _ _ h => h, fun _ h => h, fun _ h => h, Nat.le_refl _, fun h => h, fun h => h⟩

theorem fusesGrow_trans {f g h : Fuses} (a : FusesGrow f g) (b : FusesGrow g h) : FusesGrow f h :=
  ⟨b.1.trans a.1, b.2.1.trans a.2.1, fun i x q => b.2.2.1 i x (a.2.2.1 i x q), fun i q => b.2.2.2.1 i (a.2.2.2.1 i q),
    fun i q => b.2.2.2.2.1 i (a.2.2.2.2.1 i q), a.2.2.2.2.2.1.trans b.2.2.2.2.2.1,
    fun q => b.2.2.2.2.2.2.1 (a.2.2.2.2.2.2.1 q), fun q => b.2.2.2.2.2.2.2 (a.2.2.2.2.2.2.2 q)⟩

/-- The number of a part. -/
def partBit : Part → Nat
  | .power => 0
  | .ridge => 1
  | .pegs => 2
  | .pods => 3
  | .hostMem => 4
  | .mem => 5
  | .ecc => 6
  | .scrubs => 7
  | .fc => 8
  | .fgs => 9
  | .rr => 10
  | .streams => 11
  | .sensors => 12
  | .portSec => 13
  | .portOut => 14
  | .camPods => 15
  | .decIn => 16
  | .pipeIn => 17
  | .pipeQ => 18
  | .slots => 19
  | .statQ => 20
  | .pp => 21
  | .decq => 22
  | .sntMem => 23
  | .rolls => 24
  | .seq => 25
  | .graphs => 26
  | .insts => 27
  | .starts => 28
  | .nextExec => 29
  | .ops => 30
  | .arrays => 31
  | .engCycles => 32
  | .records => 33
  | .keySlots => 34
  | .corrections => 35
  | .gl => 36
  | .glOut => 37
  | .linkDowns => 38
  | .time => 39
  | .lanes => 40
  | .media => 41
  | .hostOut => 42
  | .remote => 43
  | .outWrites => 44
  | .encQ => 45
  | .heldIncs => 46
  | .podsIn => 47
  | .mgt => 48
  | .mgtOut => 49
  | .comp => 50
  | .sentry => 51
  | .taps => 52
  | .lantern => 53
  | .cores => 54
  | .bist => 55
  | .pm => 56
  | .fuses => 57
  | .sec => 58

/-- From `s` to `t` the queue is the same, no fuse bit is restored, the memories stay canonical, and only the parts whose bits
are set in `m` may differ. -/
def Keeps (m : Nat) (s t : State) : Prop :=
  t.pending = s.pending ∧ FusesGrow s.fuses t.fuses ∧ (MemoryCanonical s → MemoryCanonical t) ∧
    ∀ p, m.testBit (partBit p) = false → p.Same s t

theorem Part.Same.refl (p : Part) (s : State) : p.Same s s := by cases p <;> rfl

theorem Part.Same.trans {p : Part} {s t u : State} (a : p.Same s t) (b : p.Same t u) : p.Same s u := by
  cases p <;> exact Eq.trans b a

theorem Keeps.refl (m : Nat) (s : State) : Keeps m s s := ⟨rfl, fusesGrow_refl _, fun h => h, fun p _ => Part.Same.refl p s⟩

theorem Keeps.trans {m : Nat} {s t u : State} (a : Keeps m s t) (b : Keeps m t u) : Keeps m s u :=
  ⟨b.1.trans a.1, fusesGrow_trans a.2.1 b.2.1, fun h => b.2.2.1 (a.2.2.1 h),
    fun p h => Part.Same.trans (a.2.2.2 p h) (b.2.2.2 p h)⟩

/-- The bits of a smaller set are there where those of a larger one are. -/
theorem sub {m a b : Nat} (w : m ||| b = m) (h : a ||| b = b) : m ||| a = m := by
  rw [← w, Nat.lor_assoc, Nat.lor_comm b a, h]

theorem bit_of {m a i : Nat} (w : m ||| a = m) (h : a.testBit i = true) : m.testBit i = true := by
  rw [← w, Nat.testBit_or, h, Bool.or_true]

variable {s0 : State} {α β γ δ : Type} {μ : Nat}

/-- A further state: what it changes is allowed. -/
theorem keeps_step {s t : State} (h : Keeps μ s0 s) (hp : t.pending = s.pending) (hf : FusesGrow s.fuses t.fuses)
    (hm : Memory.wf s.mem → Memory.wf t.mem) (hh : Memory.wf s.hostMem → Memory.wf t.hostMem)
    (hs : Memory.wf s.sntMem → Memory.wf t.sntMem) (hq : ∀ p, μ.testBit (partBit p) = false → p.Same s t) :
    Keeps μ s0 t :=
  ⟨hp.trans h.1, fusesGrow_trans h.2.1 hf, fun c => ⟨hm (h.2.2.1 c).1, hh (h.2.2.1 c).2.1, hs (h.2.2.1 c).2.2⟩,
    fun p q => Part.Same.trans (h.2.2.2 p q) (hq p q)⟩

theorem mk2_keeps {a : α} {t : State} (h : Keeps μ s0 t) : Keeps μ s0 (a, t).2 := h
theorem mk3_keeps {a : α} {b : β} {t : State} (h : Keeps μ s0 t) : Keeps μ s0 (a, b, t).2.2 := h
theorem mk4_keeps {a : α} {b : β} {c : γ} {t : State} (h : Keeps μ s0 t) : Keeps μ s0 (a, b, c, t).2.2.2 := h

theorem mk5_keeps {a : α} {b : β} {c : γ} {d : δ} {t : State} (h : Keeps μ s0 t) : Keeps μ s0 (a, b, c, d, t).2.2.2.2 := h

theorem mk2p_keeps {a : α} {t : β × State} (h : Keeps μ s0 t.2) : Keeps μ s0 (a, t).2.2 := h

theorem of2 {p : α × State} {a : α} {t : State} (h : p = (a, t)) (hp : Keeps μ s0 p.2) : Keeps μ s0 t := by subst h; exact hp
theorem of3 {p : α × β × State} {a : α} {b : β} {t : State} (h : p = (a, b, t)) (hp : Keeps μ s0 p.2.2) : Keeps μ s0 t := by
  subst h; exact hp
theorem of4 {p : α × β × γ × State} {a : α} {b : β} {c : γ} {t : State} (h : p = (a, b, c, t)) (hp : Keeps μ s0 p.2.2.2) :
    Keeps μ s0 t := by subst h; exact hp
theorem of5 {p : α × β × γ × δ × State} {a : α} {b : β} {c : γ} {d : δ} {t : State} (h : p = (a, b, c, d, t))
    (hp : Keeps μ s0 p.2.2.2.2) : Keeps μ s0 t := by subst h; exact hp
theorem ofSome {o : Option State} {t : State} (h : o = some t) (hp : ∀ r, o = some r → Keeps μ s0 r) : Keeps μ s0 t := hp t h
theorem ofSome2 {o : Option (α × State)} {a : α} {t : State} (h : o = some (a, t))
    (hp : ∀ r, o = some r → Keeps μ s0 r.2) : Keeps μ s0 t := hp _ h

theorem ofSome3 {o : Option (α × β × State)} {a : α} {b : β} {t : State} (h : o = some (a, b, t))
    (hp : ∀ r, o = some r → Keeps μ s0 r.2.2) : Keeps μ s0 t := hp _ h

theorem none_keeps {P : α → Prop} : ∀ r, (none : Option α) = some r → P r := by simp
theorem some_keeps {P : α → Prop} {a : α} (h : P a) : ∀ r, some a = some r → P r := by rintro r ⟨⟩; exact h

theorem ite_intro {P : α → Prop} {c : Prop} [Decidable c] {a b : α} (ha : c → P a) (hb : ¬c → P b) :
    P (if c then a else b) := by
  split
  · exact ha ‹_›
  · exact hb ‹_›

theorem ite2_keeps {c : Prop} [Decidable c] {a b : α × State} (ha : c → Keeps μ s0 a.2) (hb : ¬c → Keeps μ s0 b.2) :
    Keeps μ s0 (if c then a else b).2 := ite_intro (P := fun z : α × State => Keeps μ s0 z.2) ha hb
theorem ite3_keeps {c : Prop} [Decidable c] {a b : α × β × State} (ha : c → Keeps μ s0 a.2.2) (hb : ¬c → Keeps μ s0 b.2.2) :
    Keeps μ s0 (if c then a else b).2.2 := ite_intro (P := fun z : α × β × State => Keeps μ s0 z.2.2) ha hb
theorem ite4_keeps {c : Prop} [Decidable c] {a b : α × β × γ × State} (ha : c → Keeps μ s0 a.2.2.2)
    (hb : ¬c → Keeps μ s0 b.2.2.2) : Keeps μ s0 (if c then a else b).2.2.2 :=
  ite_intro (P := fun z : α × β × γ × State => Keeps μ s0 z.2.2.2) ha hb
theorem ite5_keeps {c : Prop} [Decidable c] {a b : α × β × γ × δ × State} (ha : c → Keeps μ s0 a.2.2.2.2)
    (hb : ¬c → Keeps μ s0 b.2.2.2.2) : Keeps μ s0 (if c then a else b).2.2.2.2 :=
  ite_intro (P := fun z : α × β × γ × δ × State => Keeps μ s0 z.2.2.2.2) ha hb

theorem iteO2_keeps {c : Prop} [Decidable c] {a b : Option (α × State)} (ha : c → ∀ r, a = some r → Keeps μ s0 r.2)
    (hb : ¬c → ∀ r, b = some r → Keeps μ s0 r.2) : ∀ r, (if c then a else b) = some r → Keeps μ s0 r.2 :=
  ite_intro (P := fun o : Option (α × State) => ∀ r, o = some r → Keeps μ s0 r.2) ha hb

theorem foldl_intro {P : α → Prop} {f : α → β → α} {i : α} {l : List β} (hi : P i) (hf : ∀ a b, P a → P (f a b)) :
    P (l.foldl f i) := by
  induction l generalizing i with
  | nil => exact hi
  | cons b t ih => exact ih (hf i b hi)

theorem foldl2_keeps {f : α × State → β → α × State} {i : α × State} {l : List β} (hi : Keeps μ s0 i.2)
    (hf : ∀ a b, Keeps μ s0 a.2 → Keeps μ s0 (f a b).2) : Keeps μ s0 (l.foldl f i).2 :=
  foldl_intro (P := fun z : α × State => Keeps μ s0 z.2) hi hf
theorem foldl3_keeps {f : α × γ × State → β → α × γ × State} {i : α × γ × State} {l : List β} (hi : Keeps μ s0 i.2.2)
    (hf : ∀ a b, Keeps μ s0 a.2.2 → Keeps μ s0 (f a b).2.2) : Keeps μ s0 (l.foldl f i).2.2 :=
  foldl_intro (P := fun z : α × γ × State => Keeps μ s0 z.2.2) hi hf
theorem foldl4_keeps {f : α × γ × δ × State → β → α × γ × δ × State} {i : α × γ × δ × State} {l : List β}
    (hi : Keeps μ s0 i.2.2.2) (hf : ∀ a b, Keeps μ s0 a.2.2.2 → Keeps μ s0 (f a b).2.2.2) : Keeps μ s0 (l.foldl f i).2.2.2 :=
  foldl_intro (P := fun z : α × γ × δ × State => Keeps μ s0 z.2.2.2) hi hf
theorem foldl5_keeps {ε : Type} {f : α × γ × δ × ε × State → β → α × γ × δ × ε × State} {i : α × γ × δ × ε × State}
    {l : List β} (hi : Keeps μ s0 i.2.2.2.2) (hf : ∀ a b, Keeps μ s0 a.2.2.2.2 → Keeps μ s0 (f a b).2.2.2.2) :
    Keeps μ s0 (l.foldl f i).2.2.2.2 := foldl_intro (P := fun z : α × γ × δ × ε × State => Keeps μ s0 z.2.2.2.2) hi hf

theorem elim_intro {P : α → Prop} {o : Option β} {d : α} {f : β → α} (hd : P d) (hf : ∀ b, P (f b)) : P (o.elim d f) := by
  cases o with
  | none => exact hd
  | some b => exact hf b

end Sys2Proof.Laws
end

