-- ==== Sys2Proof/Laws/KeepsUpd.lean ====
section
/-!
SUPPORT. Record updates of the state: what each leaves alone, and what it asks for where it writes a memory or the fuses.
-/

namespace Sys2Proof.Laws

open Sys2Proof.Machine Sys2Proof.Safety

variable {s0 : State} {μ : Nat}

theorem upd_keeps {s : State} {rf : RegFile} {flagged : List Nat} {rings : List (Nat × Ring)} {msixOut : List MsixMsg} {lostEvents : Nat} {freeCount : Nat} {nextId : Nat}
    (h : Keeps μ s0 s) :
    Keeps μ s0 { s with rf := rf, flagged := flagged, rings := rings, msixOut := msixOut, lostEvents := lostEvents, freeCount := freeCount, nextId := nextId } :=
  keeps_step h rfl (fusesGrow_refl _) id id id (fun p _ => by cases p <;> rfl)

theorem upd_arrays {s : State} {arrays : List (Nat × ArrayUnit)} {rf : RegFile} {flagged : List Nat} {rings : List (Nat × Ring)} {msixOut : List MsixMsg} {lostEvents : Nat} {freeCount : Nat} {nextId : Nat}
    (hw : μ ||| 2147483648 = μ) (h : Keeps μ s0 s) :
    Keeps μ s0 { s with arrays := arrays, rf := rf, flagged := flagged, rings := rings, msixOut := msixOut, lostEvents := lostEvents, freeCount := freeCount, nextId := nextId } :=
  keeps_step h rfl (fusesGrow_refl _) id id id (fun p q => by
    cases p <;> first
      | rfl
      | exact absurd (q.symm.trans (bit_of hw rfl)) Bool.false_ne_true)

theorem upd_bist {s : State} {bist : Bist} {rf : RegFile} {flagged : List Nat} {rings : List (Nat × Ring)} {msixOut : List MsixMsg} {lostEvents : Nat} {freeCount : Nat} {nextId : Nat}
    (hw : μ ||| 36028797018963968 = μ) (h : Keeps μ s0 s) :
    Keeps μ s0 { s with bist := bist, rf := rf, flagged := flagged, rings := rings, msixOut := msixOut, lostEvents := lostEvents, freeCount := freeCount, nextId := nextId } :=
  keeps_step h rfl (fusesGrow_refl _) id id id (fun p q => by
    cases p <;> first
      | rfl
      | exact absurd (q.symm.trans (bit_of hw rfl)) Bool.false_ne_true)

theorem upd_camPods {s : State} {camPods : List CamPod} {rf : RegFile} {flagged : List Nat} {rings : List (Nat × Ring)} {msixOut : List MsixMsg} {lostEvents : Nat} {freeCount : Nat} {nextId : Nat}
    (hw : μ ||| 32768 = μ) (h : Keeps μ s0 s) :
    Keeps μ s0 { s with camPods := camPods, rf := rf, flagged := flagged, rings := rings, msixOut := msixOut, lostEvents := lostEvents, freeCount := freeCount, nextId := nextId } :=
  keeps_step h rfl (fusesGrow_refl _) id id id (fun p q => by
    cases p <;> first
      | rfl
      | exact absurd (q.symm.trans (bit_of hw rfl)) Bool.false_ne_true)

theorem upd_comp {s : State} {comp : Comparator} {rf : RegFile} {flagged : List Nat} {rings : List (Nat × Ring)} {msixOut : List MsixMsg} {lostEvents : Nat} {freeCount : Nat} {nextId : Nat}
    (hw : μ ||| 1125899906842624 = μ) (h : Keeps μ s0 s) :
    Keeps μ s0 { s with comp := comp, rf := rf, flagged := flagged, rings := rings, msixOut := msixOut, lostEvents := lostEvents, freeCount := freeCount, nextId := nextId } :=
  keeps_step h rfl (fusesGrow_refl _) id id id (fun p q => by
    cases p <;> first
      | rfl
      | exact absurd (q.symm.trans (bit_of hw rfl)) Bool.false_ne_true)

theorem upd_cores {s : State} {cores : List (Nat × FwCore)} {rf : RegFile} {flagged : List Nat} {rings : List (Nat × Ring)} {msixOut : List MsixMsg} {lostEvents : Nat} {freeCount : Nat} {nextId : Nat}
    (hw : μ ||| 18014398509481984 = μ) (h : Keeps μ s0 s) :
    Keeps μ s0 { s with cores := cores, rf := rf, flagged := flagged, rings := rings, msixOut := msixOut, lostEvents := lostEvents, freeCount := freeCount, nextId := nextId } :=
  keeps_step h rfl (fusesGrow_refl _) id id id (fun p q => by
    cases p <;> first
      | rfl
      | exact absurd (q.symm.trans (bit_of hw rfl)) Bool.false_ne_true)

theorem upd_corrections {s : State} {corrections : List (Nat × Nat)} {rf : RegFile} {flagged : List Nat} {rings : List (Nat × Ring)} {msixOut : List MsixMsg} {lostEvents : Nat} {freeCount : Nat} {nextId : Nat}
    (hw : μ ||| 34359738368 = μ) (h : Keeps μ s0 s) :
    Keeps μ s0 { s with corrections := corrections, rf := rf, flagged := flagged, rings := rings, msixOut := msixOut, lostEvents := lostEvents, freeCount := freeCount, nextId := nextId } :=
  keeps_step h rfl (fusesGrow_refl _) id id id (fun p q => by
    cases p <;> first
      | rfl
      | exact absurd (q.symm.trans (bit_of hw rfl)) Bool.false_ne_true)

theorem upd_decIn {s : State} {decIn : List (Nat × Nat)} {rf : RegFile} {flagged : List Nat} {rings : List (Nat × Ring)} {msixOut : List MsixMsg} {lostEvents : Nat} {freeCount : Nat} {nextId : Nat}
    (hw : μ ||| 65536 = μ) (h : Keeps μ s0 s) :
    Keeps μ s0 { s with decIn := decIn, rf := rf, flagged := flagged, rings := rings, msixOut := msixOut, lostEvents := lostEvents, freeCount := freeCount, nextId := nextId } :=
  keeps_step h rfl (fusesGrow_refl _) id id id (fun p q => by
    cases p <;> first
      | rfl
      | exact absurd (q.symm.trans (bit_of hw rfl)) Bool.false_ne_true)

theorem upd_decq {s : State} {decq : List (Nat × DecQueue)} {rf : RegFile} {flagged : List Nat} {rings : List (Nat × Ring)} {msixOut : List MsixMsg} {lostEvents : Nat} {freeCount : Nat} {nextId : Nat}
    (hw : μ ||| 4194304 = μ) (h : Keeps μ s0 s) :
    Keeps μ s0 { s with decq := decq, rf := rf, flagged := flagged, rings := rings, msixOut := msixOut, lostEvents := lostEvents, freeCount := freeCount, nextId := nextId } :=
  keeps_step h rfl (fusesGrow_refl _) id id id (fun p q => by
    cases p <;> first
      | rfl
      | exact absurd (q.symm.trans (bit_of hw rfl)) Bool.false_ne_true)

theorem upd_ecc {s : State} {ecc : List (Nat × Option EccErr)} {rf : RegFile} {flagged : List Nat} {rings : List (Nat × Ring)} {msixOut : List MsixMsg} {lostEvents : Nat} {freeCount : Nat} {nextId : Nat}
    (hw : μ ||| 64 = μ) (h : Keeps μ s0 s) :
    Keeps μ s0 { s with ecc := ecc, rf := rf, flagged := flagged, rings := rings, msixOut := msixOut, lostEvents := lostEvents, freeCount := freeCount, nextId := nextId } :=
  keeps_step h rfl (fusesGrow_refl _) id id id (fun p q => by
    cases p <;> first
      | rfl
      | exact absurd (q.symm.trans (bit_of hw rfl)) Bool.false_ne_true)

theorem upd_encQ {s : State} {encQ : List WaitWrite} {rf : RegFile} {flagged : List Nat} {rings : List (Nat × Ring)} {msixOut : List MsixMsg} {lostEvents : Nat} {freeCount : Nat} {nextId : Nat}
    (hw : μ ||| 35184372088832 = μ) (h : Keeps μ s0 s) :
    Keeps μ s0 { s with encQ := encQ, rf := rf, flagged := flagged, rings := rings, msixOut := msixOut, lostEvents := lostEvents, freeCount := freeCount, nextId := nextId } :=
  keeps_step h rfl (fusesGrow_refl _) id id id (fun p q => by
    cases p <;> first
      | rfl
      | exact absurd (q.symm.trans (bit_of hw rfl)) Bool.false_ne_true)

theorem upd_engCycles {s : State} {engCycles : List (Nat × (Nat × Nat))} {rf : RegFile} {flagged : List Nat} {rings : List (Nat × Ring)} {msixOut : List MsixMsg} {lostEvents : Nat} {freeCount : Nat} {nextId : Nat}
    (hw : μ ||| 4294967296 = μ) (h : Keeps μ s0 s) :
    Keeps μ s0 { s with engCycles := engCycles, rf := rf, flagged := flagged, rings := rings, msixOut := msixOut, lostEvents := lostEvents, freeCount := freeCount, nextId := nextId } :=
  keeps_step h rfl (fusesGrow_refl _) id id id (fun p q => by
    cases p <;> first
      | rfl
      | exact absurd (q.symm.trans (bit_of hw rfl)) Bool.false_ne_true)

theorem upd_fc {s : State} {fc : Collector} {rf : RegFile} {flagged : List Nat} {rings : List (Nat × Ring)} {msixOut : List MsixMsg} {lostEvents : Nat} {freeCount : Nat} {nextId : Nat}
    (hw : μ ||| 256 = μ) (h : Keeps μ s0 s) :
    Keeps μ s0 { s with fc := fc, rf := rf, flagged := flagged, rings := rings, msixOut := msixOut, lostEvents := lostEvents, freeCount := freeCount, nextId := nextId } :=
  keeps_step h rfl (fusesGrow_refl _) id id id (fun p q => by
    cases p <;> first
      | rfl
      | exact absurd (q.symm.trans (bit_of hw rfl)) Bool.false_ne_true)

theorem upd_fgs {s : State} {fgs : List (Nat × FgCycle)} {rf : RegFile} {flagged : List Nat} {rings : List (Nat × Ring)} {msixOut : List MsixMsg} {lostEvents : Nat} {freeCount : Nat} {nextId : Nat}
    (hw : μ ||| 512 = μ) (h : Keeps μ s0 s) :
    Keeps μ s0 { s with fgs := fgs, rf := rf, flagged := flagged, rings := rings, msixOut := msixOut, lostEvents := lostEvents, freeCount := freeCount, nextId := nextId } :=
  keeps_step h rfl (fusesGrow_refl _) id id id (fun p q => by
    cases p <;> first
      | rfl
      | exact absurd (q.symm.trans (bit_of hw rfl)) Bool.false_ne_true)

theorem upd_fuses {s : State} {fuses : Fuses} {rf : RegFile} {flagged : List Nat} {rings : List (Nat × Ring)} {msixOut : List MsixMsg} {lostEvents : Nat} {freeCount : Nat} {nextId : Nat}
    (hw : μ ||| 144115188075855872 = μ) (h : Keeps μ s0 s) (hf : FusesGrow s.fuses fuses) :
    Keeps μ s0 { s with fuses := fuses, rf := rf, flagged := flagged, rings := rings, msixOut := msixOut, lostEvents := lostEvents, freeCount := freeCount, nextId := nextId } :=
  keeps_step h rfl hf id id id (fun p q => by
    cases p <;> first
      | rfl
      | exact absurd (q.symm.trans (bit_of hw rfl)) Bool.false_ne_true)

theorem upd_gl {s : State} {gl : List (Nat × GlPort)} {rf : RegFile} {flagged : List Nat} {rings : List (Nat × Ring)} {msixOut : List MsixMsg} {lostEvents : Nat} {freeCount : Nat} {nextId : Nat}
    (hw : μ ||| 68719476736 = μ) (h : Keeps μ s0 s) :
    Keeps μ s0 { s with gl := gl, rf := rf, flagged := flagged, rings := rings, msixOut := msixOut, lostEvents := lostEvents, freeCount := freeCount, nextId := nextId } :=
  keeps_step h rfl (fusesGrow_refl _) id id id (fun p q => by
    cases p <;> first
      | rfl
      | exact absurd (q.symm.trans (bit_of hw rfl)) Bool.false_ne_true)

theorem upd_glOut {s : State} {glOut : List (Nat × List Byte)} {rf : RegFile} {flagged : List Nat} {rings : List (Nat × Ring)} {msixOut : List MsixMsg} {lostEvents : Nat} {freeCount : Nat} {nextId : Nat}
    (hw : μ ||| 137438953472 = μ) (h : Keeps μ s0 s) :
    Keeps μ s0 { s with glOut := glOut, rf := rf, flagged := flagged, rings := rings, msixOut := msixOut, lostEvents := lostEvents, freeCount := freeCount, nextId := nextId } :=
  keeps_step h rfl (fusesGrow_refl _) id id id (fun p q => by
    cases p <;> first
      | rfl
      | exact absurd (q.symm.trans (bit_of hw rfl)) Bool.false_ne_true)

theorem upd_graphs {s : State} {graphs : List (Nat × Option Graph)} {rf : RegFile} {flagged : List Nat} {rings : List (Nat × Ring)} {msixOut : List MsixMsg} {lostEvents : Nat} {freeCount : Nat} {nextId : Nat}
    (hw : μ ||| 67108864 = μ) (h : Keeps μ s0 s) :
    Keeps μ s0 { s with graphs := graphs, rf := rf, flagged := flagged, rings := rings, msixOut := msixOut, lostEvents := lostEvents, freeCount := freeCount, nextId := nextId } :=
  keeps_step h rfl (fusesGrow_refl _) id id id (fun p q => by
    cases p <;> first
      | rfl
      | exact absurd (q.symm.trans (bit_of hw rfl)) Bool.false_ne_true)

theorem upd_heldIncs {s : State} {heldIncs : List HeldInc} {rf : RegFile} {flagged : List Nat} {rings : List (Nat × Ring)} {msixOut : List MsixMsg} {lostEvents : Nat} {freeCount : Nat} {nextId : Nat}
    (hw : μ ||| 70368744177664 = μ) (h : Keeps μ s0 s) :
    Keeps μ s0 { s with heldIncs := heldIncs, rf := rf, flagged := flagged, rings := rings, msixOut := msixOut, lostEvents := lostEvents, freeCount := freeCount, nextId := nextId } :=
  keeps_step h rfl (fusesGrow_refl _) id id id (fun p q => by
    cases p <;> first
      | rfl
      | exact absurd (q.symm.trans (bit_of hw rfl)) Bool.false_ne_true)

theorem upd_hostMem {s : State} {hostMem : List Host.Cell} {rf : RegFile} {flagged : List Nat} {rings : List (Nat × Ring)} {msixOut : List MsixMsg} {lostEvents : Nat} {freeCount : Nat} {nextId : Nat}
    (hw : μ ||| 16 = μ) (h : Keeps μ s0 s) (hhostMem : Memory.wf s.hostMem → Memory.wf hostMem) :
    Keeps μ s0 { s with hostMem := hostMem, rf := rf, flagged := flagged, rings := rings, msixOut := msixOut, lostEvents := lostEvents, freeCount := freeCount, nextId := nextId } :=
  keeps_step h rfl (fusesGrow_refl _) id hhostMem id (fun p q => by
    cases p <;> first
      | rfl
      | exact absurd (q.symm.trans (bit_of hw rfl)) Bool.false_ne_true)

theorem upd_hostOut {s : State} {hostOut : List HostCpl} {rf : RegFile} {flagged : List Nat} {rings : List (Nat × Ring)} {msixOut : List MsixMsg} {lostEvents : Nat} {freeCount : Nat} {nextId : Nat}
    (hw : μ ||| 4398046511104 = μ) (h : Keeps μ s0 s) :
    Keeps μ s0 { s with hostOut := hostOut, rf := rf, flagged := flagged, rings := rings, msixOut := msixOut, lostEvents := lostEvents, freeCount := freeCount, nextId := nextId } :=
  keeps_step h rfl (fusesGrow_refl _) id id id (fun p q => by
    cases p <;> first
      | rfl
      | exact absurd (q.symm.trans (bit_of hw rfl)) Bool.false_ne_true)

theorem upd_insts {s : State} {insts : List Instance} {rf : RegFile} {flagged : List Nat} {rings : List (Nat × Ring)} {msixOut : List MsixMsg} {lostEvents : Nat} {freeCount : Nat} {nextId : Nat}
    (hw : μ ||| 134217728 = μ) (h : Keeps μ s0 s) :
    Keeps μ s0 { s with insts := insts, rf := rf, flagged := flagged, rings := rings, msixOut := msixOut, lostEvents := lostEvents, freeCount := freeCount, nextId := nextId } :=
  keeps_step h rfl (fusesGrow_refl _) id id id (fun p q => by
    cases p <;> first
      | rfl
      | exact absurd (q.symm.trans (bit_of hw rfl)) Bool.false_ne_true)

theorem upd_keySlots {s : State} {keySlots : List (Nat × KeySlot)} {rf : RegFile} {flagged : List Nat} {rings : List (Nat × Ring)} {msixOut : List MsixMsg} {lostEvents : Nat} {freeCount : Nat} {nextId : Nat}
    (hw : μ ||| 17179869184 = μ) (h : Keeps μ s0 s) :
    Keeps μ s0 { s with keySlots := keySlots, rf := rf, flagged := flagged, rings := rings, msixOut := msixOut, lostEvents := lostEvents, freeCount := freeCount, nextId := nextId } :=
  keeps_step h rfl (fusesGrow_refl _) id id id (fun p q => by
    cases p <;> first
      | rfl
      | exact absurd (q.symm.trans (bit_of hw rfl)) Bool.false_ne_true)

theorem upd_lanes {s : State} {lanes : List (Nat × LaneGroup)} {rf : RegFile} {flagged : List Nat} {rings : List (Nat × Ring)} {msixOut : List MsixMsg} {lostEvents : Nat} {freeCount : Nat} {nextId : Nat}
    (hw : μ ||| 1099511627776 = μ) (h : Keeps μ s0 s) :
    Keeps μ s0 { s with lanes := lanes, rf := rf, flagged := flagged, rings := rings, msixOut := msixOut, lostEvents := lostEvents, freeCount := freeCount, nextId := nextId } :=
  keeps_step h rfl (fusesGrow_refl _) id id id (fun p q => by
    cases p <;> first
      | rfl
      | exact absurd (q.symm.trans (bit_of hw rfl)) Bool.false_ne_true)

theorem upd_lantern {s : State} {lantern : Lantern} {rf : RegFile} {flagged : List Nat} {rings : List (Nat × Ring)} {msixOut : List MsixMsg} {lostEvents : Nat} {freeCount : Nat} {nextId : Nat}
    (hw : μ ||| 9007199254740992 = μ) (h : Keeps μ s0 s) :
    Keeps μ s0 { s with lantern := lantern, rf := rf, flagged := flagged, rings := rings, msixOut := msixOut, lostEvents := lostEvents, freeCount := freeCount, nextId := nextId } :=
  keeps_step h rfl (fusesGrow_refl _) id id id (fun p q => by
    cases p <;> first
      | rfl
      | exact absurd (q.symm.trans (bit_of hw rfl)) Bool.false_ne_true)

theorem upd_linkDowns {s : State} {linkDowns : List (Nat × Nat)} {rf : RegFile} {flagged : List Nat} {rings : List (Nat × Ring)} {msixOut : List MsixMsg} {lostEvents : Nat} {freeCount : Nat} {nextId : Nat}
    (hw : μ ||| 274877906944 = μ) (h : Keeps μ s0 s) :
    Keeps μ s0 { s with linkDowns := linkDowns, rf := rf, flagged := flagged, rings := rings, msixOut := msixOut, lostEvents := lostEvents, freeCount := freeCount, nextId := nextId } :=
  keeps_step h rfl (fusesGrow_refl _) id id id (fun p q => by
    cases p <;> first
      | rfl
      | exact absurd (q.symm.trans (bit_of hw rfl)) Bool.false_ne_true)

theorem upd_media {s : State} {media : HostMedia} {rf : RegFile} {flagged : List Nat} {rings : List (Nat × Ring)} {msixOut : List MsixMsg} {lostEvents : Nat} {freeCount : Nat} {nextId : Nat}
    (hw : μ ||| 2199023255552 = μ) (h : Keeps μ s0 s) :
    Keeps μ s0 { s with media := media, rf := rf, flagged := flagged, rings := rings, msixOut := msixOut, lostEvents := lostEvents, freeCount := freeCount, nextId := nextId } :=
  keeps_step h rfl (fusesGrow_refl _) id id id (fun p q => by
    cases p <;> first
      | rfl
      | exact absurd (q.symm.trans (bit_of hw rfl)) Bool.false_ne_true)

theorem upd_media_remote {s : State} {media : HostMedia} {remote : List RemoteRead} {rf : RegFile} {flagged : List Nat} {rings : List (Nat × Ring)} {msixOut : List MsixMsg} {lostEvents : Nat} {freeCount : Nat} {nextId : Nat}
    (hw : μ ||| 10995116277760 = μ) (h : Keeps μ s0 s) :
    Keeps μ s0 { s with media := media, remote := remote, rf := rf, flagged := flagged, rings := rings, msixOut := msixOut, lostEvents := lostEvents, freeCount := freeCount, nextId := nextId } :=
  keeps_step h rfl (fusesGrow_refl _) id id id (fun p q => by
    cases p <;> first
      | rfl
      | exact absurd (q.symm.trans (bit_of hw rfl)) Bool.false_ne_true)

theorem upd_mem {s : State} {mem : List Host.Cell} {rf : RegFile} {flagged : List Nat} {rings : List (Nat × Ring)} {msixOut : List MsixMsg} {lostEvents : Nat} {freeCount : Nat} {nextId : Nat}
    (hw : μ ||| 32 = μ) (h : Keeps μ s0 s) (hmem : Memory.wf s.mem → Memory.wf mem) :
    Keeps μ s0 { s with mem := mem, rf := rf, flagged := flagged, rings := rings, msixOut := msixOut, lostEvents := lostEvents, freeCount := freeCount, nextId := nextId } :=
  keeps_step h rfl (fusesGrow_refl _) hmem id id (fun p q => by
    cases p <;> first
      | rfl
      | exact absurd (q.symm.trans (bit_of hw rfl)) Bool.false_ne_true)

theorem upd_mem_ecc_arrays {s : State} {mem : List Host.Cell} {ecc : List (Nat × Option EccErr)} {arrays : List (Nat × ArrayUnit)} {rf : RegFile} {flagged : List Nat} {rings : List (Nat × Ring)} {msixOut : List MsixMsg} {lostEvents : Nat} {freeCount : Nat} {nextId : Nat}
    (hw : μ ||| 2147483744 = μ) (h : Keeps μ s0 s) (hmem : Memory.wf s.mem → Memory.wf mem) :
    Keeps μ s0 { s with mem := mem, ecc := ecc, arrays := arrays, rf := rf, flagged := flagged, rings := rings, msixOut := msixOut, lostEvents := lostEvents, freeCount := freeCount, nextId := nextId } :=
  keeps_step h rfl (fusesGrow_refl _) hmem id id (fun p q => by
    cases p <;> first
      | rfl
      | exact absurd (q.symm.trans (bit_of hw rfl)) Bool.false_ne_true)

theorem upd_mem_ecc_sntMem {s : State} {mem : List Host.Cell} {ecc : List (Nat × Option EccErr)} {sntMem : List Host.Cell} {rf : RegFile} {flagged : List Nat} {rings : List (Nat × Ring)} {msixOut : List MsixMsg} {lostEvents : Nat} {freeCount : Nat} {nextId : Nat}
    (hw : μ ||| 8388704 = μ) (h : Keeps μ s0 s) (hmem : Memory.wf s.mem → Memory.wf mem) (hsntMem : Memory.wf s.sntMem → Memory.wf sntMem) :
    Keeps μ s0 { s with mem := mem, ecc := ecc, sntMem := sntMem, rf := rf, flagged := flagged, rings := rings, msixOut := msixOut, lostEvents := lostEvents, freeCount := freeCount, nextId := nextId } :=
  keeps_step h rfl (fusesGrow_refl _) hmem id hsntMem (fun p q => by
    cases p <;> first
      | rfl
      | exact absurd (q.symm.trans (bit_of hw rfl)) Bool.false_ne_true)

theorem upd_mem_sec {s : State} {mem : List Host.Cell} {sec : Security} {rf : RegFile} {flagged : List Nat} {rings : List (Nat × Ring)} {msixOut : List MsixMsg} {lostEvents : Nat} {freeCount : Nat} {nextId : Nat}
    (hw : μ ||| 288230376151711776 = μ) (h : Keeps μ s0 s) (hmem : Memory.wf s.mem → Memory.wf mem) :
    Keeps μ s0 { s with mem := mem, sec := sec, rf := rf, flagged := flagged, rings := rings, msixOut := msixOut, lostEvents := lostEvents, freeCount := freeCount, nextId := nextId } :=
  keeps_step h rfl (fusesGrow_refl _) hmem id id (fun p q => by
    cases p <;> first
      | rfl
      | exact absurd (q.symm.trans (bit_of hw rfl)) Bool.false_ne_true)

theorem upd_mgt {s : State} {mgt : MgtPort} {rf : RegFile} {flagged : List Nat} {rings : List (Nat × Ring)} {msixOut : List MsixMsg} {lostEvents : Nat} {freeCount : Nat} {nextId : Nat}
    (hw : μ ||| 281474976710656 = μ) (h : Keeps μ s0 s) :
    Keeps μ s0 { s with mgt := mgt, rf := rf, flagged := flagged, rings := rings, msixOut := msixOut, lostEvents := lostEvents, freeCount := freeCount, nextId := nextId } :=
  keeps_step h rfl (fusesGrow_refl _) id id id (fun p q => by
    cases p <;> first
      | rfl
      | exact absurd (q.symm.trans (bit_of hw rfl)) Bool.false_ne_true)

theorem upd_mgt_sec {s : State} {mgt : MgtPort} {sec : Security} {rf : RegFile} {flagged : List Nat} {rings : List (Nat × Ring)} {msixOut : List MsixMsg} {lostEvents : Nat} {freeCount : Nat} {nextId : Nat}
    (hw : μ ||| 288511851128422400 = μ) (h : Keeps μ s0 s) :
    Keeps μ s0 { s with mgt := mgt, sec := sec, rf := rf, flagged := flagged, rings := rings, msixOut := msixOut, lostEvents := lostEvents, freeCount := freeCount, nextId := nextId } :=
  keeps_step h rfl (fusesGrow_refl _) id id id (fun p q => by
    cases p <;> first
      | rfl
      | exact absurd (q.symm.trans (bit_of hw rfl)) Bool.false_ne_true)

theorem upd_mgtOut {s : State} {mgtOut : List MgtResp} {rf : RegFile} {flagged : List Nat} {rings : List (Nat × Ring)} {msixOut : List MsixMsg} {lostEvents : Nat} {freeCount : Nat} {nextId : Nat}
    (hw : μ ||| 562949953421312 = μ) (h : Keeps μ s0 s) :
    Keeps μ s0 { s with mgtOut := mgtOut, rf := rf, flagged := flagged, rings := rings, msixOut := msixOut, lostEvents := lostEvents, freeCount := freeCount, nextId := nextId } :=
  keeps_step h rfl (fusesGrow_refl _) id id id (fun p q => by
    cases p <;> first
      | rfl
      | exact absurd (q.symm.trans (bit_of hw rfl)) Bool.false_ne_true)

theorem upd_nextExec {s : State} {nextExec : Nat} {rf : RegFile} {flagged : List Nat} {rings : List (Nat × Ring)} {msixOut : List MsixMsg} {lostEvents : Nat} {freeCount : Nat} {nextId : Nat}
    (hw : μ ||| 536870912 = μ) (h : Keeps μ s0 s) :
    Keeps μ s0 { s with nextExec := nextExec, rf := rf, flagged := flagged, rings := rings, msixOut := msixOut, lostEvents := lostEvents, freeCount := freeCount, nextId := nextId } :=
  keeps_step h rfl (fusesGrow_refl _) id id id (fun p q => by
    cases p <;> first
      | rfl
      | exact absurd (q.symm.trans (bit_of hw rfl)) Bool.false_ne_true)

theorem upd_ops {s : State} {ops : List Op} {rf : RegFile} {flagged : List Nat} {rings : List (Nat × Ring)} {msixOut : List MsixMsg} {lostEvents : Nat} {freeCount : Nat} {nextId : Nat}
    (hw : μ ||| 1073741824 = μ) (h : Keeps μ s0 s) :
    Keeps μ s0 { s with ops := ops, rf := rf, flagged := flagged, rings := rings, msixOut := msixOut, lostEvents := lostEvents, freeCount := freeCount, nextId := nextId } :=
  keeps_step h rfl (fusesGrow_refl _) id id id (fun p q => by
    cases p <;> first
      | rfl
      | exact absurd (q.symm.trans (bit_of hw rfl)) Bool.false_ne_true)

theorem upd_outWrites {s : State} {outWrites : List RemoteWrite} {rf : RegFile} {flagged : List Nat} {rings : List (Nat × Ring)} {msixOut : List MsixMsg} {lostEvents : Nat} {freeCount : Nat} {nextId : Nat}
    (hw : μ ||| 17592186044416 = μ) (h : Keeps μ s0 s) :
    Keeps μ s0 { s with outWrites := outWrites, rf := rf, flagged := flagged, rings := rings, msixOut := msixOut, lostEvents := lostEvents, freeCount := freeCount, nextId := nextId } :=
  keeps_step h rfl (fusesGrow_refl _) id id id (fun p q => by
    cases p <;> first
      | rfl
      | exact absurd (q.symm.trans (bit_of hw rfl)) Bool.false_ne_true)

theorem upd_outWrites_heldIncs {s : State} {outWrites : List RemoteWrite} {heldIncs : List HeldInc} {rf : RegFile} {flagged : List Nat} {rings : List (Nat × Ring)} {msixOut : List MsixMsg} {lostEvents : Nat} {freeCount : Nat} {nextId : Nat}
    (hw : μ ||| 87960930222080 = μ) (h : Keeps μ s0 s) :
    Keeps μ s0 { s with outWrites := outWrites, heldIncs := heldIncs, rf := rf, flagged := flagged, rings := rings, msixOut := msixOut, lostEvents := lostEvents, freeCount := freeCount, nextId := nextId } :=
  keeps_step h rfl (fusesGrow_refl _) id id id (fun p q => by
    cases p <;> first
      | rfl
      | exact absurd (q.symm.trans (bit_of hw rfl)) Bool.false_ne_true)

theorem upd_pegs {s : State} {pegs : List (Nat × Peg)} {rf : RegFile} {flagged : List Nat} {rings : List (Nat × Ring)} {msixOut : List MsixMsg} {lostEvents : Nat} {freeCount : Nat} {nextId : Nat}
    (hw : μ ||| 4 = μ) (h : Keeps μ s0 s) :
    Keeps μ s0 { s with pegs := pegs, rf := rf, flagged := flagged, rings := rings, msixOut := msixOut, lostEvents := lostEvents, freeCount := freeCount, nextId := nextId } :=
  keeps_step h rfl (fusesGrow_refl _) id id id (fun p q => by
    cases p <;> first
      | rfl
      | exact absurd (q.symm.trans (bit_of hw rfl)) Bool.false_ne_true)

theorem upd_pipeIn {s : State} {pipeIn : List (Nat × List (Nat × Nat))} {rf : RegFile} {flagged : List Nat} {rings : List (Nat × Ring)} {msixOut : List MsixMsg} {lostEvents : Nat} {freeCount : Nat} {nextId : Nat}
    (hw : μ ||| 131072 = μ) (h : Keeps μ s0 s) :
    Keeps μ s0 { s with pipeIn := pipeIn, rf := rf, flagged := flagged, rings := rings, msixOut := msixOut, lostEvents := lostEvents, freeCount := freeCount, nextId := nextId } :=
  keeps_step h rfl (fusesGrow_refl _) id id id (fun p q => by
    cases p <;> first
      | rfl
      | exact absurd (q.symm.trans (bit_of hw rfl)) Bool.false_ne_true)

theorem upd_pipeQ {s : State} {pipeQ : List (Nat × List Line)} {rf : RegFile} {flagged : List Nat} {rings : List (Nat × Ring)} {msixOut : List MsixMsg} {lostEvents : Nat} {freeCount : Nat} {nextId : Nat}
    (hw : μ ||| 262144 = μ) (h : Keeps μ s0 s) :
    Keeps μ s0 { s with pipeQ := pipeQ, rf := rf, flagged := flagged, rings := rings, msixOut := msixOut, lostEvents := lostEvents, freeCount := freeCount, nextId := nextId } :=
  keeps_step h rfl (fusesGrow_refl _) id id id (fun p q => by
    cases p <;> first
      | rfl
      | exact absurd (q.symm.trans (bit_of hw rfl)) Bool.false_ne_true)

theorem upd_pm {s : State} {pm : PowerMgmt} {rf : RegFile} {flagged : List Nat} {rings : List (Nat × Ring)} {msixOut : List MsixMsg} {lostEvents : Nat} {freeCount : Nat} {nextId : Nat}
    (hw : μ ||| 72057594037927936 = μ) (h : Keeps μ s0 s) :
    Keeps μ s0 { s with pm := pm, rf := rf, flagged := flagged, rings := rings, msixOut := msixOut, lostEvents := lostEvents, freeCount := freeCount, nextId := nextId } :=
  keeps_step h rfl (fusesGrow_refl _) id id id (fun p q => by
    cases p <;> first
      | rfl
      | exact absurd (q.symm.trans (bit_of hw rfl)) Bool.false_ne_true)

theorem upd_pods {s : State} {pods : PodState} {rf : RegFile} {flagged : List Nat} {rings : List (Nat × Ring)} {msixOut : List MsixMsg} {lostEvents : Nat} {freeCount : Nat} {nextId : Nat}
    (hw : μ ||| 8 = μ) (h : Keeps μ s0 s) :
    Keeps μ s0 { s with pods := pods, rf := rf, flagged := flagged, rings := rings, msixOut := msixOut, lostEvents := lostEvents, freeCount := freeCount, nextId := nextId } :=
  keeps_step h rfl (fusesGrow_refl _) id id id (fun p q => by
    cases p <;> first
      | rfl
      | exact absurd (q.symm.trans (bit_of hw rfl)) Bool.false_ne_true)

theorem upd_pods_insts {s : State} {pods : PodState} {insts : List Instance} {rf : RegFile} {flagged : List Nat} {rings : List (Nat × Ring)} {msixOut : List MsixMsg} {lostEvents : Nat} {freeCount : Nat} {nextId : Nat}
    (hw : μ ||| 134217736 = μ) (h : Keeps μ s0 s) :
    Keeps μ s0 { s with pods := pods, insts := insts, rf := rf, flagged := flagged, rings := rings, msixOut := msixOut, lostEvents := lostEvents, freeCount := freeCount, nextId := nextId } :=
  keeps_step h rfl (fusesGrow_refl _) id id id (fun p q => by
    cases p <;> first
      | rfl
      | exact absurd (q.symm.trans (bit_of hw rfl)) Bool.false_ne_true)

theorem upd_podsIn {s : State} {podsIn : List (Nat × List Byte)} {rf : RegFile} {flagged : List Nat} {rings : List (Nat × Ring)} {msixOut : List MsixMsg} {lostEvents : Nat} {freeCount : Nat} {nextId : Nat}
    (hw : μ ||| 140737488355328 = μ) (h : Keeps μ s0 s) :
    Keeps μ s0 { s with podsIn := podsIn, rf := rf, flagged := flagged, rings := rings, msixOut := msixOut, lostEvents := lostEvents, freeCount := freeCount, nextId := nextId } :=
  keeps_step h rfl (fusesGrow_refl _) id id id (fun p q => by
    cases p <;> first
      | rfl
      | exact absurd (q.symm.trans (bit_of hw rfl)) Bool.false_ne_true)

theorem upd_portOut {s : State} {portOut : List PortOut} {rf : RegFile} {flagged : List Nat} {rings : List (Nat × Ring)} {msixOut : List MsixMsg} {lostEvents : Nat} {freeCount : Nat} {nextId : Nat}
    (hw : μ ||| 16384 = μ) (h : Keeps μ s0 s) :
    Keeps μ s0 { s with portOut := portOut, rf := rf, flagged := flagged, rings := rings, msixOut := msixOut, lostEvents := lostEvents, freeCount := freeCount, nextId := nextId } :=
  keeps_step h rfl (fusesGrow_refl _) id id id (fun p q => by
    cases p <;> first
      | rfl
      | exact absurd (q.symm.trans (bit_of hw rfl)) Bool.false_ne_true)

theorem upd_portSec {s : State} {portSec : List (Nat × PortSec)} {rf : RegFile} {flagged : List Nat} {rings : List (Nat × Ring)} {msixOut : List MsixMsg} {lostEvents : Nat} {freeCount : Nat} {nextId : Nat}
    (hw : μ ||| 8192 = μ) (h : Keeps μ s0 s) :
    Keeps μ s0 { s with portSec := portSec, rf := rf, flagged := flagged, rings := rings, msixOut := msixOut, lostEvents := lostEvents, freeCount := freeCount, nextId := nextId } :=
  keeps_step h rfl (fusesGrow_refl _) id id id (fun p q => by
    cases p <;> first
      | rfl
      | exact absurd (q.symm.trans (bit_of hw rfl)) Bool.false_ne_true)

theorem upd_power {s : State} {power : Power} {rf : RegFile} {flagged : List Nat} {rings : List (Nat × Ring)} {msixOut : List MsixMsg} {lostEvents : Nat} {freeCount : Nat} {nextId : Nat}
    (hw : μ ||| 1 = μ) (h : Keeps μ s0 s) :
    Keeps μ s0 { s with power := power, rf := rf, flagged := flagged, rings := rings, msixOut := msixOut, lostEvents := lostEvents, freeCount := freeCount, nextId := nextId } :=
  keeps_step h rfl (fusesGrow_refl _) id id id (fun p q => by
    cases p <;> first
      | rfl
      | exact absurd (q.symm.trans (bit_of hw rfl)) Bool.false_ne_true)

theorem upd_power_ridge_pegs_pods_hostMem_mem_ecc_scrubs_fc_fgs_rr_streams_sensors_portSec_portOut_camPods_decIn_pipeIn_pipeQ_slots_statQ_pp_decq_sntMem_rolls_seq_graphs_insts_starts_nextExec_ops_arrays_engCycles_records_keySlots_corrections_gl_glOut_linkDowns_time_lanes_media_hostOut_remote_outWrites_encQ_heldIncs_podsIn_mgt_mgtOut_comp_sentry_taps_lantern_cores_bist_pm_fuses_sec {s : State} {power : Power} {ridge : Nat} {pegs : List (Nat × Peg)} {pods : PodState} {hostMem : List Host.Cell} {mem : List Host.Cell} {ecc : List (Nat × Option EccErr)} {scrubs : List (Nat × Scrub)} {fc : Collector} {fgs : List (Nat × FgCycle)} {rr : Recorder} {streams : List (Nat × IngressStream)} {sensors : List (Nat × SensorPort)} {portSec : List (Nat × PortSec)} {portOut : List PortOut} {camPods : List CamPod} {decIn : List (Nat × Nat)} {pipeIn : List (Nat × List (Nat × Nat))} {pipeQ : List (Nat × List Line)} {slots : List (Nat × PipeSlot)} {statQ : List (Nat × OutPod)} {pp : PointPrep} {decq : List (Nat × DecQueue)} {sntMem : List Host.Cell} {rolls : List (Nat × Roll)} {seq : SeqEngine} {graphs : List (Nat × Option Graph)} {insts : List Instance} {starts : List (Nat × StartReq)} {nextExec : Nat} {ops : List Op} {arrays : List (Nat × ArrayUnit)} {engCycles : List (Nat × (Nat × Nat))} {records : List (Nat × List Nat)} {keySlots : List (Nat × KeySlot)} {corrections : List (Nat × Nat)} {gl : List (Nat × GlPort)} {glOut : List (Nat × List Byte)} {linkDowns : List (Nat × Nat)} {time : RidgeTime} {lanes : List (Nat × LaneGroup)} {media : HostMedia} {hostOut : List HostCpl} {remote : List RemoteRead} {outWrites : List RemoteWrite} {encQ : List WaitWrite} {heldIncs : List HeldInc} {podsIn : List (Nat × List Byte)} {mgt : MgtPort} {mgtOut : List MgtResp} {comp : Comparator} {sentry : Sentry} {taps : List (Nat × TapState)} {lantern : Lantern} {cores : List (Nat × FwCore)} {bist : Bist} {pm : PowerMgmt} {fuses : Fuses} {sec : Security} {rf : RegFile} {flagged : List Nat} {rings : List (Nat × Ring)} {msixOut : List MsixMsg} {lostEvents : Nat} {freeCount : Nat} {nextId : Nat}
    (hw : μ ||| 576460752303423487 = μ) (h : Keeps μ s0 s) (hf : FusesGrow s.fuses fuses) (hmem : Memory.wf s.mem → Memory.wf mem) (hhostMem : Memory.wf s.hostMem → Memory.wf hostMem) (hsntMem : Memory.wf s.sntMem → Memory.wf sntMem) :
    Keeps μ s0 { s with power := power, ridge := ridge, pegs := pegs, pods := pods, hostMem := hostMem, mem := mem, ecc := ecc, scrubs := scrubs, fc := fc, fgs := fgs, rr := rr, streams := streams, sensors := sensors, portSec := portSec, portOut := portOut, camPods := camPods, decIn := decIn, pipeIn := pipeIn, pipeQ := pipeQ, slots := slots, statQ := statQ, pp := pp, decq := decq, sntMem := sntMem, rolls := rolls, seq := seq, graphs := graphs, insts := insts, starts := starts, nextExec := nextExec, ops := ops, arrays := arrays, engCycles := engCycles, records := records, keySlots := keySlots, corrections := corrections, gl := gl, glOut := glOut, linkDowns := linkDowns, time := time, lanes := lanes, media := media, hostOut := hostOut, remote := remote, outWrites := outWrites, encQ := encQ, heldIncs := heldIncs, podsIn := podsIn, mgt := mgt, mgtOut := mgtOut, comp := comp, sentry := sentry, taps := taps, lantern := lantern, cores := cores, bist := bist, pm := pm, fuses := fuses, sec := sec, rf := rf, flagged := flagged, rings := rings, msixOut := msixOut, lostEvents := lostEvents, freeCount := freeCount, nextId := nextId } :=
  keeps_step h rfl hf hmem hhostMem hsntMem (fun p q => by
    cases p <;> first
      | rfl
      | exact absurd (q.symm.trans (bit_of hw rfl)) Bool.false_ne_true)

theorem upd_power_sec {s : State} {power : Power} {sec : Security} {rf : RegFile} {flagged : List Nat} {rings : List (Nat × Ring)} {msixOut : List MsixMsg} {lostEvents : Nat} {freeCount : Nat} {nextId : Nat}
    (hw : μ ||| 288230376151711745 = μ) (h : Keeps μ s0 s) :
    Keeps μ s0 { s with power := power, sec := sec, rf := rf, flagged := flagged, rings := rings, msixOut := msixOut, lostEvents := lostEvents, freeCount := freeCount, nextId := nextId } :=
  keeps_step h rfl (fusesGrow_refl _) id id id (fun p q => by
    cases p <;> first
      | rfl
      | exact absurd (q.symm.trans (bit_of hw rfl)) Bool.false_ne_true)

theorem upd_pp {s : State} {pp : PointPrep} {rf : RegFile} {flagged : List Nat} {rings : List (Nat × Ring)} {msixOut : List MsixMsg} {lostEvents : Nat} {freeCount : Nat} {nextId : Nat}
    (hw : μ ||| 2097152 = μ) (h : Keeps μ s0 s) :
    Keeps μ s0 { s with pp := pp, rf := rf, flagged := flagged, rings := rings, msixOut := msixOut, lostEvents := lostEvents, freeCount := freeCount, nextId := nextId } :=
  keeps_step h rfl (fusesGrow_refl _) id id id (fun p q => by
    cases p <;> first
      | rfl
      | exact absurd (q.symm.trans (bit_of hw rfl)) Bool.false_ne_true)

theorem upd_records {s : State} {records : List (Nat × List Nat)} {rf : RegFile} {flagged : List Nat} {rings : List (Nat × Ring)} {msixOut : List MsixMsg} {lostEvents : Nat} {freeCount : Nat} {nextId : Nat}
    (hw : μ ||| 8589934592 = μ) (h : Keeps μ s0 s) :
    Keeps μ s0 { s with records := records, rf := rf, flagged := flagged, rings := rings, msixOut := msixOut, lostEvents := lostEvents, freeCount := freeCount, nextId := nextId } :=
  keeps_step h rfl (fusesGrow_refl _) id id id (fun p q => by
    cases p <;> first
      | rfl
      | exact absurd (q.symm.trans (bit_of hw rfl)) Bool.false_ne_true)

theorem upd_remote {s : State} {remote : List RemoteRead} {rf : RegFile} {flagged : List Nat} {rings : List (Nat × Ring)} {msixOut : List MsixMsg} {lostEvents : Nat} {freeCount : Nat} {nextId : Nat}
    (hw : μ ||| 8796093022208 = μ) (h : Keeps μ s0 s) :
    Keeps μ s0 { s with remote := remote, rf := rf, flagged := flagged, rings := rings, msixOut := msixOut, lostEvents := lostEvents, freeCount := freeCount, nextId := nextId } :=
  keeps_step h rfl (fusesGrow_refl _) id id id (fun p q => by
    cases p <;> first
      | rfl
      | exact absurd (q.symm.trans (bit_of hw rfl)) Bool.false_ne_true)

theorem upd_ridge {s : State} {ridge : Nat} {rf : RegFile} {flagged : List Nat} {rings : List (Nat × Ring)} {msixOut : List MsixMsg} {lostEvents : Nat} {freeCount : Nat} {nextId : Nat}
    (hw : μ ||| 2 = μ) (h : Keeps μ s0 s) :
    Keeps μ s0 { s with ridge := ridge, rf := rf, flagged := flagged, rings := rings, msixOut := msixOut, lostEvents := lostEvents, freeCount := freeCount, nextId := nextId } :=
  keeps_step h rfl (fusesGrow_refl _) id id id (fun p q => by
    cases p <;> first
      | rfl
      | exact absurd (q.symm.trans (bit_of hw rfl)) Bool.false_ne_true)

theorem upd_ridge_time {s : State} {ridge : Nat} {time : RidgeTime} {rf : RegFile} {flagged : List Nat} {rings : List (Nat × Ring)} {msixOut : List MsixMsg} {lostEvents : Nat} {freeCount : Nat} {nextId : Nat}
    (hw : μ ||| 549755813890 = μ) (h : Keeps μ s0 s) :
    Keeps μ s0 { s with ridge := ridge, time := time, rf := rf, flagged := flagged, rings := rings, msixOut := msixOut, lostEvents := lostEvents, freeCount := freeCount, nextId := nextId } :=
  keeps_step h rfl (fusesGrow_refl _) id id id (fun p q => by
    cases p <;> first
      | rfl
      | exact absurd (q.symm.trans (bit_of hw rfl)) Bool.false_ne_true)

theorem upd_rolls {s : State} {rolls : List (Nat × Roll)} {rf : RegFile} {flagged : List Nat} {rings : List (Nat × Ring)} {msixOut : List MsixMsg} {lostEvents : Nat} {freeCount : Nat} {nextId : Nat}
    (hw : μ ||| 16777216 = μ) (h : Keeps μ s0 s) :
    Keeps μ s0 { s with rolls := rolls, rf := rf, flagged := flagged, rings := rings, msixOut := msixOut, lostEvents := lostEvents, freeCount := freeCount, nextId := nextId } :=
  keeps_step h rfl (fusesGrow_refl _) id id id (fun p q => by
    cases p <;> first
      | rfl
      | exact absurd (q.symm.trans (bit_of hw rfl)) Bool.false_ne_true)

theorem upd_rr {s : State} {rr : Recorder} {rf : RegFile} {flagged : List Nat} {rings : List (Nat × Ring)} {msixOut : List MsixMsg} {lostEvents : Nat} {freeCount : Nat} {nextId : Nat}
    (hw : μ ||| 1024 = μ) (h : Keeps μ s0 s) :
    Keeps μ s0 { s with rr := rr, rf := rf, flagged := flagged, rings := rings, msixOut := msixOut, lostEvents := lostEvents, freeCount := freeCount, nextId := nextId } :=
  keeps_step h rfl (fusesGrow_refl _) id id id (fun p q => by
    cases p <;> first
      | rfl
      | exact absurd (q.symm.trans (bit_of hw rfl)) Bool.false_ne_true)

theorem upd_scrubs {s : State} {scrubs : List (Nat × Scrub)} {rf : RegFile} {flagged : List Nat} {rings : List (Nat × Ring)} {msixOut : List MsixMsg} {lostEvents : Nat} {freeCount : Nat} {nextId : Nat}
    (hw : μ ||| 128 = μ) (h : Keeps μ s0 s) :
    Keeps μ s0 { s with scrubs := scrubs, rf := rf, flagged := flagged, rings := rings, msixOut := msixOut, lostEvents := lostEvents, freeCount := freeCount, nextId := nextId } :=
  keeps_step h rfl (fusesGrow_refl _) id id id (fun p q => by
    cases p <;> first
      | rfl
      | exact absurd (q.symm.trans (bit_of hw rfl)) Bool.false_ne_true)

theorem upd_sec {s : State} {sec : Security} {rf : RegFile} {flagged : List Nat} {rings : List (Nat × Ring)} {msixOut : List MsixMsg} {lostEvents : Nat} {freeCount : Nat} {nextId : Nat}
    (hw : μ ||| 288230376151711744 = μ) (h : Keeps μ s0 s) :
    Keeps μ s0 { s with sec := sec, rf := rf, flagged := flagged, rings := rings, msixOut := msixOut, lostEvents := lostEvents, freeCount := freeCount, nextId := nextId } :=
  keeps_step h rfl (fusesGrow_refl _) id id id (fun p q => by
    cases p <;> first
      | rfl
      | exact absurd (q.symm.trans (bit_of hw rfl)) Bool.false_ne_true)

theorem upd_sensors {s : State} {sensors : List (Nat × SensorPort)} {rf : RegFile} {flagged : List Nat} {rings : List (Nat × Ring)} {msixOut : List MsixMsg} {lostEvents : Nat} {freeCount : Nat} {nextId : Nat}
    (hw : μ ||| 4096 = μ) (h : Keeps μ s0 s) :
    Keeps μ s0 { s with sensors := sensors, rf := rf, flagged := flagged, rings := rings, msixOut := msixOut, lostEvents := lostEvents, freeCount := freeCount, nextId := nextId } :=
  keeps_step h rfl (fusesGrow_refl _) id id id (fun p q => by
    cases p <;> first
      | rfl
      | exact absurd (q.symm.trans (bit_of hw rfl)) Bool.false_ne_true)

theorem upd_sentry {s : State} {sentry : Sentry} {rf : RegFile} {flagged : List Nat} {rings : List (Nat × Ring)} {msixOut : List MsixMsg} {lostEvents : Nat} {freeCount : Nat} {nextId : Nat}
    (hw : μ ||| 2251799813685248 = μ) (h : Keeps μ s0 s) :
    Keeps μ s0 { s with sentry := sentry, rf := rf, flagged := flagged, rings := rings, msixOut := msixOut, lostEvents := lostEvents, freeCount := freeCount, nextId := nextId } :=
  keeps_step h rfl (fusesGrow_refl _) id id id (fun p q => by
    cases p <;> first
      | rfl
      | exact absurd (q.symm.trans (bit_of hw rfl)) Bool.false_ne_true)

theorem upd_seq {s : State} {seq : SeqEngine} {rf : RegFile} {flagged : List Nat} {rings : List (Nat × Ring)} {msixOut : List MsixMsg} {lostEvents : Nat} {freeCount : Nat} {nextId : Nat}
    (hw : μ ||| 33554432 = μ) (h : Keeps μ s0 s) :
    Keeps μ s0 { s with seq := seq, rf := rf, flagged := flagged, rings := rings, msixOut := msixOut, lostEvents := lostEvents, freeCount := freeCount, nextId := nextId } :=
  keeps_step h rfl (fusesGrow_refl _) id id id (fun p q => by
    cases p <;> first
      | rfl
      | exact absurd (q.symm.trans (bit_of hw rfl)) Bool.false_ne_true)

theorem upd_slots {s : State} {slots : List (Nat × PipeSlot)} {rf : RegFile} {flagged : List Nat} {rings : List (Nat × Ring)} {msixOut : List MsixMsg} {lostEvents : Nat} {freeCount : Nat} {nextId : Nat}
    (hw : μ ||| 524288 = μ) (h : Keeps μ s0 s) :
    Keeps μ s0 { s with slots := slots, rf := rf, flagged := flagged, rings := rings, msixOut := msixOut, lostEvents := lostEvents, freeCount := freeCount, nextId := nextId } :=
  keeps_step h rfl (fusesGrow_refl _) id id id (fun p q => by
    cases p <;> first
      | rfl
      | exact absurd (q.symm.trans (bit_of hw rfl)) Bool.false_ne_true)

theorem upd_sntMem {s : State} {sntMem : List Host.Cell} {rf : RegFile} {flagged : List Nat} {rings : List (Nat × Ring)} {msixOut : List MsixMsg} {lostEvents : Nat} {freeCount : Nat} {nextId : Nat}
    (hw : μ ||| 8388608 = μ) (h : Keeps μ s0 s) (hsntMem : Memory.wf s.sntMem → Memory.wf sntMem) :
    Keeps μ s0 { s with sntMem := sntMem, rf := rf, flagged := flagged, rings := rings, msixOut := msixOut, lostEvents := lostEvents, freeCount := freeCount, nextId := nextId } :=
  keeps_step h rfl (fusesGrow_refl _) id id hsntMem (fun p q => by
    cases p <;> first
      | rfl
      | exact absurd (q.symm.trans (bit_of hw rfl)) Bool.false_ne_true)

theorem upd_sntMem_sentry_bist_sec {s : State} {sntMem : List Host.Cell} {sentry : Sentry} {bist : Bist} {sec : Security} {rf : RegFile} {flagged : List Nat} {rings : List (Nat × Ring)} {msixOut : List MsixMsg} {lostEvents : Nat} {freeCount : Nat} {nextId : Nat}
    (hw : μ ||| 326510972992749568 = μ) (h : Keeps μ s0 s) (hsntMem : Memory.wf s.sntMem → Memory.wf sntMem) :
    Keeps μ s0 { s with sntMem := sntMem, sentry := sentry, bist := bist, sec := sec, rf := rf, flagged := flagged, rings := rings, msixOut := msixOut, lostEvents := lostEvents, freeCount := freeCount, nextId := nextId } :=
  keeps_step h rfl (fusesGrow_refl _) id id hsntMem (fun p q => by
    cases p <;> first
      | rfl
      | exact absurd (q.symm.trans (bit_of hw rfl)) Bool.false_ne_true)

theorem upd_starts {s : State} {starts : List (Nat × StartReq)} {rf : RegFile} {flagged : List Nat} {rings : List (Nat × Ring)} {msixOut : List MsixMsg} {lostEvents : Nat} {freeCount : Nat} {nextId : Nat}
    (hw : μ ||| 268435456 = μ) (h : Keeps μ s0 s) :
    Keeps μ s0 { s with starts := starts, rf := rf, flagged := flagged, rings := rings, msixOut := msixOut, lostEvents := lostEvents, freeCount := freeCount, nextId := nextId } :=
  keeps_step h rfl (fusesGrow_refl _) id id id (fun p q => by
    cases p <;> first
      | rfl
      | exact absurd (q.symm.trans (bit_of hw rfl)) Bool.false_ne_true)

theorem upd_statQ {s : State} {statQ : List (Nat × OutPod)} {rf : RegFile} {flagged : List Nat} {rings : List (Nat × Ring)} {msixOut : List MsixMsg} {lostEvents : Nat} {freeCount : Nat} {nextId : Nat}
    (hw : μ ||| 1048576 = μ) (h : Keeps μ s0 s) :
    Keeps μ s0 { s with statQ := statQ, rf := rf, flagged := flagged, rings := rings, msixOut := msixOut, lostEvents := lostEvents, freeCount := freeCount, nextId := nextId } :=
  keeps_step h rfl (fusesGrow_refl _) id id id (fun p q => by
    cases p <;> first
      | rfl
      | exact absurd (q.symm.trans (bit_of hw rfl)) Bool.false_ne_true)

theorem upd_streams {s : State} {streams : List (Nat × IngressStream)} {rf : RegFile} {flagged : List Nat} {rings : List (Nat × Ring)} {msixOut : List MsixMsg} {lostEvents : Nat} {freeCount : Nat} {nextId : Nat}
    (hw : μ ||| 2048 = μ) (h : Keeps μ s0 s) :
    Keeps μ s0 { s with streams := streams, rf := rf, flagged := flagged, rings := rings, msixOut := msixOut, lostEvents := lostEvents, freeCount := freeCount, nextId := nextId } :=
  keeps_step h rfl (fusesGrow_refl _) id id id (fun p q => by
    cases p <;> first
      | rfl
      | exact absurd (q.symm.trans (bit_of hw rfl)) Bool.false_ne_true)

theorem upd_taps {s : State} {taps : List (Nat × TapState)} {rf : RegFile} {flagged : List Nat} {rings : List (Nat × Ring)} {msixOut : List MsixMsg} {lostEvents : Nat} {freeCount : Nat} {nextId : Nat}
    (hw : μ ||| 4503599627370496 = μ) (h : Keeps μ s0 s) :
    Keeps μ s0 { s with taps := taps, rf := rf, flagged := flagged, rings := rings, msixOut := msixOut, lostEvents := lostEvents, freeCount := freeCount, nextId := nextId } :=
  keeps_step h rfl (fusesGrow_refl _) id id id (fun p q => by
    cases p <;> first
      | rfl
      | exact absurd (q.symm.trans (bit_of hw rfl)) Bool.false_ne_true)

theorem upd_time {s : State} {time : RidgeTime} {rf : RegFile} {flagged : List Nat} {rings : List (Nat × Ring)} {msixOut : List MsixMsg} {lostEvents : Nat} {freeCount : Nat} {nextId : Nat}
    (hw : μ ||| 549755813888 = μ) (h : Keeps μ s0 s) :
    Keeps μ s0 { s with time := time, rf := rf, flagged := flagged, rings := rings, msixOut := msixOut, lostEvents := lostEvents, freeCount := freeCount, nextId := nextId } :=
  keeps_step h rfl (fusesGrow_refl _) id id id (fun p q => by
    cases p <;> first
      | rfl
      | exact absurd (q.symm.trans (bit_of hw rfl)) Bool.false_ne_true)

/-! ### The writes of a memory -/

theorem memPut_keeps {s : State} {a : Nat} {bs : List Byte} (hw : μ ||| 32 = μ) (h : Keeps μ s0 s) :
    Keeps μ s0 (memPut s a bs) := upd_mem hw h (fun c => putBytes_wf c _ _)

theorem memZero_keeps {s : State} {a n : Nat} (hw : μ ||| 32 = μ) (h : Keeps μ s0 s) : Keeps μ s0 (memZero s a n) :=
  upd_mem hw h (fun c => smWf_smDelRange c _ _)

theorem hostPut_keeps {s : State} {a : Nat} {bs : List Byte} (hw : μ ||| 16 = μ) (h : Keeps μ s0 s) :
    Keeps μ s0 (hostPut s a bs) := upd_hostMem hw h (fun c => putBytes_wf c _ _)

theorem sntPut_keeps {s : State} {a : Nat} {bs : List Byte} (hw : μ ||| 8388608 = μ) (h : Keeps μ s0 s) :
    Keeps μ s0 (sntPut s a bs) := upd_sntMem hw h (fun c => putBytes_wf c _ _)

end Sys2Proof.Laws
end

