-- ==== Sys2Proof/Laws/Keeps1.lean ====
section
/-!
SUPPORT. The functions of the model keep the queue, the fuses and the canonical memories: part 1.
-/

namespace Sys2Proof.Laws

open Sys2Proof.Machine Sys2Proof.Safety

variable {s0 : State} {α β γ δ : Type} {μ : Nat}

theorem bit_all (p : Part) : Nat.testBit 576460752303423487 (partBit p) = true := by
  cases p <;> rfl

theorem resetDevice_keeps {s} (hw : μ ||| 576460752303423487 = μ) (h : Keeps μ s0 s) : Keeps μ s0 (resetDevice s) :=
  keeps_step h rfl (fusesGrow_refl _) (fun _ => (by decide : Memory.wf ([] : List Host.Cell))) id
    (fun _ => (by decide : Memory.wf ([] : List Host.Cell)))
    (fun p q => absurd (q.symm.trans (bit_of hw (bit_all p))) Bool.false_ne_true)

theorem wr_keeps {s a v} (h : Keeps μ s0 s) : Keeps μ s0 (wr s a v) := by
  unfold wr
  refine upd_keeps ?_
  exact h

theorem msixSignal_keeps {s v} (h : Keeps μ s0 s) : Keeps μ s0 (msixSignal s v) := by
  unfold msixSignal
  refine ite_intro (P := Keeps μ s0) (fun _ => ?_) (fun _ => ?_)
  · extract_lets x0
    clear_value x0
    refine wr_keeps ?_
    exact h
  · refine upd_keeps ?_
    exact h

theorem raise_keeps {s p mask} (h : Keeps μ s0 s) : Keeps μ s0 (raise s p mask) := by
  unfold raise
  extract_lets x0 x1 x2
  clear_value x0
  clear_value x1
  have h3 : Keeps μ s0 x2 := by
    unfold x2
    refine upd_keeps ?_
    exact h
  clear_value x2
  refine wr_keeps ?_
  exact h3

theorem bumpSat_keeps {s a n} (h : Keeps μ s0 s) : Keeps μ s0 (bumpSat s a n) := by
  unfold bumpSat
  refine wr_keeps ?_
  exact h

theorem loseEvent_keeps {s} (h : Keeps μ s0 s) : Keeps μ s0 (loseEvent s) := by
  unfold loseEvent
  refine raise_keeps ?_
  refine bumpSat_keeps ?_
  refine upd_keeps ?_
  exact h

theorem setRing_keeps {s r x} (h : Keeps μ s0 s) : Keeps μ s0 (setRing s r x) := by
  unfold setRing
  refine upd_keeps ?_
  exact h

theorem enqueue_keeps {s r p} (h : Keeps μ s0 s) : Keeps μ s0 (enqueue s r p) := by
  unfold enqueue
  extract_lets x0 x1
  clear_value x0
  clear_value x1
  refine setRing_keeps ?_
  exact h

theorem sendTo_keeps {s r p} (h : Keeps μ s0 s) : Keeps μ s0 (sendTo s r p) := by
  unfold sendTo
  refine ite_intro (P := Keeps μ s0) (fun _ => ?_) (fun _ => ?_)
  · refine loseEvent_keeps ?_
    exact h
  · refine enqueue_keeps ?_
    exact h

theorem notify_keeps {s p} (h : Keeps μ s0 s) : Keeps μ s0 (notify s p) := by
  unfold notify
  refine ite_intro (P := Keeps μ s0) (fun _ => ?_) (fun _ => ?_)
  · extract_lets x0
    have h1 : Keeps μ s0 x0 := by
      unfold x0
      refine ite_intro (P := Keeps μ s0) (fun _ => ?_) (fun _ => ?_)
      · refine msixSignal_keeps ?_
        exact h
      · exact h
    clear_value x0
    refine ite_intro (P := Keeps μ s0) (fun _ => ?_) (fun _ => ?_)
    · refine sendTo_keeps ?_
      exact h1
    · exact h1
  · exact h

theorem endCommand_keeps {v0 s} (h : Keeps μ s0 v0) (h2 : Keeps μ s0 s) : Keeps μ s0 (endCommand v0 s) := by
  unfold endCommand
  extract_lets x0 x1
  have h2 : Keeps μ s0 x0 := by
    unfold x0
    refine foldl_intro (P := Keeps μ s0) ?_ ?_
    · exact h2
    · intro x3 x4 h5
      refine ite_intro (P := Keeps μ s0) (fun _ => ?_) (fun _ => ?_)
      · exact h5
      · refine notify_keeps ?_
        exact h5
  clear_value x0
  have h6 : Keeps μ s0 x1 := by
    unfold x1
    refine ite_intro (P := Keeps μ s0) (fun _ => ?_) (fun _ => ?_)
    · refine notify_keeps ?_
      exact h2
    · exact h2
  clear_value x1
  refine upd_keeps ?_
  exact h6

theorem romClocks_keeps {s} (h : Keeps μ s0 s) : Keeps μ s0 (romClocks s) := by
  unfold romClocks
  refine ite_intro (P := Keeps μ s0) (fun _ => ?_) (fun _ => ?_)
  · exact h
  · refine foldl_intro (P := Keeps μ s0) ?_ ?_
    · exact h
    · intro x0 x1 h2
      refine wr_keeps ?_
      exact h2

theorem wrF_keeps {s a hi lo v} (h : Keeps μ s0 s) : Keeps μ s0 (wrF s a hi lo v) := by
  unfold wrF
  refine wr_keeps ?_
  exact h

theorem quietRestart_keeps {s} (hw : μ ||| 256 = μ) (h : Keeps μ s0 s) : Keeps μ s0 (quietRestart s) := by
  unfold quietRestart
  extract_lets x0 x1
  clear_value x0
  clear_value x1
  refine upd_fc (sub hw rfl) ?_
  exact h

theorem quietFollow_keeps {s} (hw : μ ||| 256 = μ) (h : Keeps μ s0 s) : Keeps μ s0 (quietFollow s) := by
  unfold quietFollow
  extract_lets x0
  clear_value x0
  refine ite_intro (P := Keeps μ s0) (fun _ => ?_) (fun _ => ?_)
  · exact h
  · refine quietRestart_keeps (sub hw rfl) ?_
    exact h

theorem report_keeps {s r} (hw : μ ||| 256 = μ) (h : Keeps μ s0 s) : Keeps μ s0 (report s r) := by
  unfold report
  extract_lets x0 x1 x2
  have h3 : Keeps μ s0 x0 := by
    unfold x0
    refine ite_intro (P := Keeps μ s0) (fun _ => ?_) (fun _ => ?_)
    · refine wrF_keeps ?_
      exact h
    · exact h
  clear_value x0
  have h4 : Keeps μ s0 x1 := by
    unfold x1
    refine quietFollow_keeps (sub hw rfl) ?_
    exact h3
  clear_value x1
  clear_value x2
  refine upd_fc (sub hw rfl) ?_
  exact h4

theorem levelReport_keeps {s src st} (hw : μ ||| 256 = μ) (h : Keeps μ s0 s) : Keeps μ s0 (levelReport s src st) := by
  unfold levelReport
  refine ite_intro (P := Keeps μ s0) (fun _ => ?_) (fun _ => ?_)
  · exact h
  · refine report_keeps (sub hw rfl) ?_
    exact h

theorem railFault_keeps {s r above} (hw : μ ||| 256 = μ) (h : Keeps μ s0 s) : Keeps μ s0 (railFault s r above) := by
  unfold railFault
  extract_lets x0
  clear_value x0
  refine levelReport_keeps (sub hw rfl) ?_
  refine raise_keeps ?_
  refine bumpSat_keeps ?_
  exact h

theorem countReport_keeps {s i cls} (hw : μ ||| 256 = μ) (h : Keeps μ s0 s) : Keeps μ s0 (countReport s i cls) := by
  unfold countReport
  extract_lets x0 x1 x2
  have h3 : Keeps μ s0 x0 := by
    unfold x0
    refine ite_intro (P := Keeps μ s0) (fun _ => ?_) (fun _ => ?_)
    · refine bumpSat_keeps ?_
      exact h
    · exact h
  clear_value x0
  clear_value x1
  clear_value x2
  refine upd_fc (sub hw rfl) ?_
  exact h3

theorem drawFree_keeps {s} (h : Keeps μ s0 s) : Keeps μ s0 (drawFree s).2 := by
  unfold drawFree
  refine mk2_keeps ?_
  refine upd_keeps ?_
  exact h

theorem setLog_keeps {s i x} (hw : μ ||| 256 = μ) (h : Keeps μ s0 s) : Keeps μ s0 (setLog s i x) := by
  unfold setLog
  refine upd_fc (sub hw rfl) ?_
  exact h

theorem sendEvent_keeps {s op cls frame echo status body} (h : Keeps μ s0 s) : Keeps μ s0 (sendEvent s op cls frame echo status body) := by
  unfold sendEvent
  refine sendTo_keeps ?_
  exact h

theorem newRecord_keeps {s r cls} (hw : μ ||| 256 = μ) (h : Keeps μ s0 s) : Keeps μ s0 (newRecord s r cls).2 := by
  unfold newRecord
  extract_lets x0 x1 x2 x3 x4 x5 x6 x7 x8 x9 x10
  clear_value x0
  clear_value x1
  have h11 : Keeps μ s0 (x2).2 := by
    unfold x2
    refine ite2_keeps (fun _ => ?_) (fun _ => ?_)
    · refine mk2_keeps ?_
      exact h
    · refine mk2_keeps ?_
      refine drawFree_keeps ?_
      exact h
  clear_value x2
  have h12 : Keeps μ s0 x3 := by
    unfold x3
    exact h11
  clear_value x3
  clear_value x4
  have h13 : Keeps μ s0 x5 := by
    unfold x5
    refine wr_keeps ?_
    refine setLog_keeps (sub hw rfl) ?_
    exact h12
  clear_value x5
  clear_value x6
  clear_value x7
  have h14 : Keeps μ s0 x8 := by
    unfold x8
    refine upd_fc (sub hw rfl) ?_
    exact h13
  clear_value x8
  have h15 : Keeps μ s0 x9 := by
    unfold x9
    refine raise_keeps ?_
    exact h14
  clear_value x9
  have h16 : Keeps μ s0 x10 := by
    unfold x10
    refine ite_intro (P := Keeps μ s0) (fun _ => ?_) (fun _ => ?_)
    · refine sendEvent_keeps ?_
      exact h15
    · exact h15
  clear_value x10
  refine mk2_keeps ?_
  exact h16

theorem mergeRecord_keeps {s r cls} (hw : μ ||| 256 = μ) (h : Keeps μ s0 s) : Keeps μ s0 (mergeRecord s r cls) := by
  unfold mergeRecord
  split
  · rename_i y0 e1
    exact h
  · rename_i y2 y3 e4
    split
    · rename_i y5 e6
      exact h
    · rename_i y7 y8 e9
      refine setLog_keeps (sub hw rfl) ?_
      exact h

theorem bump_keeps {s a n} (h : Keeps μ s0 s) : Keeps μ s0 (bump s a n) := by
  unfold bump
  refine wr_keeps ?_
  exact h

theorem lanternsOff_keeps {s} (hw : μ ||| 9007199254740992 = μ) (h : Keeps μ s0 s) : Keeps μ s0 (lanternsOff s) := by
  unfold lanternsOff
  refine wrF_keeps ?_
  refine upd_lantern (sub hw rfl) ?_
  exact h

theorem setSensor_keeps {s n x} (hw : μ ||| 4096 = μ) (h : Keeps μ s0 s) : Keeps μ s0 (setSensor s n x) := by
  unfold setSensor
  refine upd_sensors (sub hw rfl) ?_
  exact h

theorem setSec_keeps {s n x} (hw : μ ||| 8192 = μ) (h : Keeps μ s0 s) : Keeps μ s0 (setSec s n x) := by
  unfold setSec
  refine upd_portSec (sub hw rfl) ?_
  exact h

theorem portSend_keeps {s n f} (hw : μ ||| 24576 = μ) (h : Keeps μ s0 s) : Keeps μ s0 (portSend s n f) := by
  unfold portSend
  extract_lets x0 x1 x2
  clear_value x0
  clear_value x1
  have h3 : Keeps μ s0 x2 := by
    unfold x2
    refine setSec_keeps (sub hw rfl) ?_
    exact h
  clear_value x2
  refine ite_intro (P := Keeps μ s0) (fun _ => ?_) (fun _ => ?_)
  · refine upd_portOut (sub hw rfl) ?_
    exact h
  · split
    · rename_i y4 y5 y6 e7
      refine upd_portOut (sub hw rfl) ?_
      exact h3
    · rename_i y8 y9 e10
      refine ite_intro (P := Keeps μ s0) (fun _ => ?_) (fun _ => ?_)
      · exact h
      · refine upd_portOut (sub hw rfl) ?_
        exact h

theorem camSend_keeps {s n id op sid applyAt payload} (hw : μ ||| 28672 = μ) (h : Keeps μ s0 s) : Keeps μ s0 (camSend s n id op sid applyAt payload) := by
  unfold camSend
  extract_lets x0 x1 x2 x3 x4
  clear_value x0
  clear_value x1
  clear_value x2
  clear_value x3
  have h5 : Keeps μ s0 x4 := by
    unfold x4
    refine setSensor_keeps (sub hw rfl) ?_
    exact h
  clear_value x4
  refine bump_keeps ?_
  refine portSend_keeps (sub hw rfl) ?_
  exact h5

theorem dropResult_keeps {s r p never} (hw : μ ||| 256 = μ) (h : Keeps μ s0 s) : Keeps μ s0 (dropResult s r p never) := by
  unfold dropResult
  extract_lets x0 x1
  have h2 : Keeps μ s0 x0 := by
    unfold x0
    refine raise_keeps ?_
    refine ite_intro (P := Keeps μ s0) (fun _ => ?_) (fun _ => ?_)
    · refine bumpSat_keeps ?_
      exact h
    · exact h
  clear_value x0
  have h3 : Keeps μ s0 x1 := by
    unfold x1
    refine sendEvent_keeps ?_
    exact h2
  clear_value x1
  refine ite_intro (P := Keeps μ s0) (fun _ => ?_) (fun _ => ?_)
  · refine report_keeps (sub hw rfl) ?_
    exact h3
  · exact h3

theorem sendResult_keeps {s r p} (hw : μ ||| 256 = μ) (h : Keeps μ s0 s) : Keeps μ s0 (sendResult s r p) := by
  unfold sendResult
  refine ite_intro (P := Keeps μ s0) (fun _ => ?_) (fun _ => ?_)
  · refine dropResult_keeps (sub hw rfl) ?_
    exact h
  · refine enqueue_keeps ?_
    exact h

theorem sendRelease_keeps {s r p} (hw : μ ||| 256 = μ) (h : Keeps μ s0 s) : Keeps μ s0 (sendRelease s r p) := by
  unfold sendRelease
  refine sendResult_keeps (sub hw rfl) ?_
  exact h

theorem wakeRequest_keeps {s d} (h : Keeps μ s0 s) : Keeps μ s0 (wakeRequest s d) := by
  unfold wakeRequest
  refine ite_intro (P := Keeps μ s0) (fun _ => ?_) (fun _ => ?_)
  · exact h
  · refine upd_keeps ?_
    exact h

theorem setPeg_keeps {s r p} (hw : μ ||| 4 = μ) (h : Keeps μ s0 s) : Keeps μ s0 (setPeg s r p) := by
  unfold setPeg
  refine upd_pegs (sub hw rfl) ?_
  exact h

theorem pegReached_keeps {s r cls echo p} (h : Keeps μ s0 s) : Keeps μ s0 (pegReached s r cls echo p) := by
  unfold pegReached
  refine sendEvent_keeps ?_
  exact h

theorem pegInc_keeps {s r need amount frame cls echo} (hw : μ ||| 260 = μ) (h : Keeps μ s0 s) : Keeps μ s0 (pegInc s r need amount frame cls echo) := by
  unfold pegInc
  refine ite_intro (P := Keeps μ s0) (fun _ => ?_) (fun _ => ?_)
  · exact h
  · extract_lets x0 x1 x2 x3 x4
    have h5 : Keeps μ s0 x0 := by
      unfold x0
      refine wakeRequest_keeps ?_
      exact h
    clear_value x0
    clear_value x1
    clear_value x2
    have h6 : Keeps μ s0 x3 := by
      unfold x3
      refine setPeg_keeps (sub hw rfl) ?_
      exact h5
    clear_value x3
    have h7 : Keeps μ s0 x4 := by
      unfold x4
      refine ite_intro (P := Keeps μ s0) (fun _ => ?_) (fun _ => ?_)
      · exact h6
      · refine report_keeps (sub hw rfl) ?_
        exact h6
    clear_value x4
    refine ite_intro (P := Keeps μ s0) (fun _ => ?_) (fun _ => ?_)
    · refine ite_intro (P := Keeps μ s0) (fun _ => ?_) (fun _ => ?_)
      · refine pegReached_keeps ?_
        exact h7
      · exact h7
    · refine report_keeps (sub hw rfl) ?_
      refine setPeg_keeps (sub hw rfl) ?_
      exact h5

theorem releaseInc_keeps {s ag ref need amount frame cls echo} (hw : μ ||| 70368744177924 = μ) (h : Keeps μ s0 s) : Keeps μ s0 (releaseInc s ag ref need amount frame cls echo) := by
  unfold releaseInc
  extract_lets x0
  clear_value x0
  refine ite_intro (P := Keeps μ s0) (fun _ => ?_) (fun _ => ?_)
  · refine pegInc_keeps (sub hw rfl) ?_
    exact h
  · refine upd_heldIncs (sub hw rfl) ?_
    exact h

theorem setWindows_keeps {s ws} (hw : μ ||| 8 = μ) (h : Keeps μ s0 s) : Keeps μ s0 (setWindows s ws) := by
  unfold setWindows
  refine wr_keeps ?_
  refine upd_pods (sub hw rfl) ?_
  exact h

theorem updateWindow_keeps {s o f} (hw : μ ||| 8 = μ) (h : Keeps μ s0 s) : Keeps μ s0 (updateWindow s o f) := by
  unfold updateWindow
  refine setWindows_keeps (sub hw rfl) ?_
  exact h

theorem markState_keeps {s o q st} (hw : μ ||| 8 = μ) (h : Keeps μ s0 s) : Keeps μ s0 (markState s o q st) := by
  unfold markState
  refine updateWindow_keeps (sub hw rfl) ?_
  exact h

theorem releasePod_keeps {s p st} (hw : μ ||| 70368744177932 = μ) (h : Keeps μ s0 s) : Keeps μ s0 (releasePod s p st) := by
  unfold releasePod
  extract_lets x0 x1 x2 x3
  have h4 : Keeps μ s0 x0 := by
    unfold x0
    refine foldl_intro (P := Keeps μ s0) ?_ ?_
    · exact h
    · intro x5 x6 h7
      refine sendRelease_keeps (sub hw rfl) ?_
      exact h7
  clear_value x0
  clear_value x1
  have h8 : Keeps μ s0 x2 := by
    unfold x2
    refine ite_intro (P := Keeps μ s0) (fun _ => ?_) (fun _ => ?_)
    · exact h4
    · refine releaseInc_keeps (sub hw rfl) ?_
      exact h4
  clear_value x2
  have h9 : Keeps μ s0 x3 := by
    unfold x3
    refine markState_keeps (sub hw rfl) ?_
    exact h8
  clear_value x3
  refine updateWindow_keeps (sub hw rfl) ?_
  exact h9

theorem releasePods_keeps {s} (hw : μ ||| 70368744177932 = μ) (h : Keeps μ s0 s) : Keeps μ s0 (releasePods s) := by
  unfold releasePods
  extract_lets go r
  have hgo : ∀ a b, Keeps μ s0 a.1 → Keeps μ s0 (go a b).1 := by
    intro a b ha
    unfold go
    split
    · split
      · exact ha
      · exact releasePod_keeps (sub hw rfl) ha
    · exact ha
  have hr : Keeps μ s0 r.1 := foldl_intro (P := fun z : State × List RxPod × List Nat => Keeps μ s0 z.1) h hgo
  exact upd_pods (sub hw rfl) hr

theorem updatePod_keeps {s no f} (hw : μ ||| 8 = μ) (h : Keeps μ s0 s) : Keeps μ s0 (updatePod s no f) := by
  unfold updatePod
  refine upd_pods (sub hw rfl) ?_
  exact h

theorem podComplete_keeps {s no st} (hw : μ ||| 70368744177932 = μ) (h : Keeps μ s0 s) : Keeps μ s0 (podComplete s no st) := by
  unfold podComplete
  refine releasePods_keeps (sub hw rfl) ?_
  refine updatePod_keeps (sub hw rfl) ?_
  exact h

theorem camFreeze_keeps {s} (hw : μ ||| 70368744239372 = μ) (h : Keeps μ s0 s) : Keeps μ s0 (camFreeze s) := by
  unfold camFreeze
  extract_lets x0 x1 x2
  have h3 : Keeps μ s0 x0 := by
    unfold x0
    refine raise_keeps ?_
    refine wr_keeps ?_
    exact h
  clear_value x0
  have h4 : Keeps μ s0 x1 := by
    unfold x1
    refine foldl_intro (P := Keeps μ s0) ?_ ?_
    · exact h3
    · intro x5 x6 h7
      refine ite_intro (P := Keeps μ s0) (fun _ => ?_) (fun _ => ?_)
      · exact h7
      · extract_lets x8 x9
        clear_value x8
        have h10 : Keeps μ s0 x9 := by
          unfold x9
          refine setSensor_keeps (sub hw rfl) ?_
          exact h7
        clear_value x9
        refine camSend_keeps (sub hw rfl) ?_
        refine wrF_keeps ?_
        exact h10
  clear_value x1
  clear_value x2
  refine foldl_intro (P := Keeps μ s0) ?_ ?_
  · refine upd_camPods (sub hw rfl) ?_
    exact h4
  · intro x11 x12 h13
    refine podComplete_keeps (sub hw rfl) ?_
    exact h13

theorem safeTarps_keeps {s} (hw : μ ||| 1125899906842880 = μ) (h : Keeps μ s0 s) : Keeps μ s0 (safeTarps s) := by
  unfold safeTarps
  split
  · rename_i y0 e1
    exact h
  · rename_i y2 y3 e4
    extract_lets x5 x6
    clear_value x5
    have h7 : Keeps μ s0 x6 := by
      unfold x6
      refine upd_comp (sub hw rfl) ?_
      exact h
    clear_value x6
    refine foldl_intro (P := Keeps μ s0) ?_ ?_
    · exact h7
    · intro x8 x9 h10
      refine sendResult_keeps (sub hw rfl) ?_
      exact h10

theorem enterSafe_keeps {s source st rec} (hw : μ ||| 10203467905822988 = μ) (h : Keeps μ s0 s) : Keeps μ s0 (enterSafe s source st rec) := by
  unfold enterSafe
  extract_lets x0 x1 x2
  have h3 : Keeps μ s0 x0 := by
    unfold x0
    refine wr_keeps ?_
    refine bump_keeps ?_
    exact h
  clear_value x0
  have h4 : Keeps μ s0 x1 := by
    unfold x1
    refine wrF_keeps ?_
    refine lanternsOff_keeps (sub hw rfl) ?_
    exact h3
  clear_value x1
  have h5 : Keeps μ s0 x2 := by
    unfold x2
    refine camFreeze_keeps (sub hw rfl) ?_
    refine raise_keeps ?_
    refine raise_keeps ?_
    exact h4
  clear_value x2
  refine safeTarps_keeps (sub hw rfl) ?_
  refine sendEvent_keeps ?_
  exact h5

theorem latchFatal_keeps {s flags} (hw : μ ||| 256 = μ) (h : Keeps μ s0 s) : Keeps μ s0 (latchFatal s flags) := by
  unfold latchFatal
  refine raise_keeps ?_
  refine wrF_keeps ?_
  refine upd_fc (sub hw rfl) ?_
  exact h

theorem forceSafe_keeps {s cls source st rec} (hw : μ ||| 10203467905822988 = μ) (h : Keeps μ s0 s) : Keeps μ s0 (forceSafe s cls source st rec) := by
  unfold forceSafe
  refine ite_intro (P := Keeps μ s0) (fun _ => ?_) (fun _ => ?_)
  · exact h
  · extract_lets x0
    have h1 : Keeps μ s0 x0 := by
      unfold x0
      refine ite_intro (P := Keeps μ s0) (fun _ => ?_) (fun _ => ?_)
      · exact h
      · refine enterSafe_keeps (sub hw rfl) ?_
        exact h
    clear_value x0
    refine ite_intro (P := Keeps μ s0) (fun _ => ?_) (fun _ => ?_)
    · refine latchFatal_keeps (sub hw rfl) ?_
      exact h1
    · refine quietRestart_keeps (sub hw rfl) ?_
      exact h1

theorem levelClear_keeps {s i} (hw : μ ||| 256 = μ) (h : Keeps μ s0 s) : Keeps μ s0 (levelClear s i) := by
  unfold levelClear
  refine ite_intro (P := Keeps μ s0) (fun _ => ?_) (fun _ => ?_)
  · refine quietFollow_keeps (sub hw rfl) ?_
    refine wrF_keeps ?_
    exact h
  · exact h

theorem lapseClear_keeps {s u} (hw : μ ||| 256 = μ) (h : Keeps μ s0 s) : Keeps μ s0 (lapseClear s u) := by
  unfold lapseClear
  extract_lets x0 x1 x2
  have h3 : Keeps μ s0 x0 := by
    unfold x0
    refine wrF_keeps ?_
    exact h
  clear_value x0
  clear_value x1
  have h4 : Keeps μ s0 x2 := by
    unfold x2
    refine ite_intro (P := Keeps μ s0) (fun _ => ?_) (fun _ => ?_)
    · exact h3
    · refine levelClear_keeps (sub hw rfl) ?_
      exact h3
  clear_value x2
  refine ite_intro (P := Keeps μ s0) (fun _ => ?_) (fun _ => ?_)
  · exact h4
  · refine levelClear_keeps (sub hw rfl) ?_
    exact h4

theorem lapseRestart_keeps {s u} (hw : μ ||| 36028797018964224 = μ) (h : Keeps μ s0 s) : Keeps μ s0 (lapseRestart s u) := by
  unfold lapseRestart
  refine lapseClear_keeps (sub hw rfl) ?_
  refine upd_bist (sub hw rfl) ?_
  exact h

theorem configRejected_keeps {s p} (h : Keeps μ s0 s) : Keeps μ s0 (configRejected s p) := by
  unfold configRejected
  split
  · rename_i y0 y1 e2
    refine raise_keeps ?_
    exact h
  · rename_i y3 e4
    exact h

theorem wrShadow_keeps {s a v} (h : Keeps μ s0 s) : Keeps μ s0 (wrShadow s a v) := by
  unfold wrShadow
  refine upd_keeps ?_
  exact h

theorem applyPlain_keeps {s a v} (h : Keeps μ s0 s) : Keeps μ s0 (applyPlain s a v) := by
  unfold applyPlain
  split
  · rename_i y0 e1
    exact h
  · rename_i y2 y3 y4 e5
    refine ite_intro (P := Keeps μ s0) (fun _ => ?_) (fun _ => ?_)
    · exact h
    · refine ite_intro (P := Keeps μ s0) (fun _ => ?_) (fun _ => ?_)
      · refine configRejected_keeps ?_
        exact h
      · refine ite_intro (P := Keeps μ s0) (fun _ => ?_) (fun _ => ?_)
        · extract_lets x6 x7
          clear_value x6
          have h8 : Keeps μ s0 x7 := by
            unfold x7
            refine wrShadow_keeps ?_
            exact h
          clear_value x7
          refine ite_intro (P := Keeps μ s0) (fun _ => ?_) (fun _ => ?_)
          · refine configRejected_keeps ?_
            exact h8
          · exact h8
        · refine ite_intro (P := Keeps μ s0) (fun _ => ?_) (fun _ => ?_)
          · refine upd_keeps ?_
            exact h
          · extract_lets x9 x10 x11 x12
            clear_value x9
            have h13 : Keeps μ s0 x10 := by
              unfold x10
              refine wr_keeps ?_
              exact h
            clear_value x10
            clear_value x11
            have h14 : Keeps μ s0 x12 := by
              unfold x12
              refine ite_intro (P := Keeps μ s0) (fun _ => ?_) (fun _ => ?_)
              · split
                · rename_i y15 y16 y17 y18 y19 y20 y21 e22
                  refine wr_keeps ?_
                  refine upd_keeps ?_
                  exact h13
                · rename_i y23 y24 y25 y26 y27 y28 e29
                  exact h13
              · exact h13
            clear_value x12
            refine ite_intro (P := Keeps μ s0) (fun _ => ?_) (fun _ => ?_)
            · refine configRejected_keeps ?_
              exact h14
            · exact h14

theorem arrRegs_keeps {s c a} (h : Keeps μ s0 s) : Keeps μ s0 (arrRegs s c a) := by
  unfold arrRegs
  extract_lets x0 x1 x2 x3 x4
  clear_value x0
  clear_value x1
  clear_value x2
  clear_value x3
  have h5 : Keeps μ s0 x4 := by
    unfold x4
    refine wr_keeps ?_
    exact h
  clear_value x4
  refine wr_keeps ?_
  exact h5

theorem applyArrFence_keeps {s c a v} (hw : μ ||| 36028797018964224 = μ) (h : Keeps μ s0 s) : Keeps μ s0 (execArrFence.applyArrFence s c a v) := by
  unfold execArrFence.applyArrFence
  extract_lets x0
  have h1 : Keeps μ s0 x0 := by
    unfold x0
    refine lapseRestart_keeps (sub hw rfl) ?_
    refine applyPlain_keeps ?_
    exact h
  clear_value x0
  refine arrRegs_keeps ?_
  refine ite_intro (P := Keeps μ s0) (fun _ => ?_) (fun _ => ?_)
  · refine raise_keeps ?_
    exact h1
  · exact h1

theorem engRegs_keeps {s c e} (h : Keeps μ s0 s) : Keeps μ s0 (engRegs s c e) := by
  unfold engRegs
  extract_lets x0 x1
  clear_value x0
  clear_value x1
  refine wr_keeps ?_
  exact h

theorem setRec_keeps {s p sel ws} (hw : μ ||| 8589934592 = μ) (h : Keeps μ s0 s) : Keeps μ s0 (setRec s p sel ws) := by
  unfold setRec
  refine upd_records (sub hw rfl) ?_
  exact h

theorem noteRefusal_keeps {s ag a st cls echo} (hw : μ ||| 8589934592 = μ) (h : Keeps μ s0 s) : Keeps μ s0 (noteRefusal s ag a st cls echo) := by
  unfold noteRefusal
  refine ite_intro (P := Keeps μ s0) (fun _ => ?_) (fun _ => ?_)
  · extract_lets x0
    have h1 : Keeps μ s0 x0 := by
      unfold x0
      refine setRec_keeps (sub hw rfl) ?_
      refine bumpSat_keeps ?_
      exact h
    clear_value x0
    refine sendEvent_keeps ?_
    refine raise_keeps ?_
    exact h1
  · extract_lets x2 x3
    have h4 : Keeps μ s0 x2 := by
      unfold x2
      refine setRec_keeps (sub hw rfl) ?_
      refine bumpSat_keeps ?_
      exact h
    clear_value x2
    have h5 : Keeps μ s0 x3 := by
      unfold x3
      refine raise_keeps ?_
      exact h4
    clear_value x3
    refine ite_intro (P := Keeps μ s0) (fun _ => ?_) (fun _ => ?_)
    · refine raise_keeps ?_
      exact h5
    · exact h5

theorem eccUncorrectable_keeps {s w e scrub cls ctx echo} (hw : μ ||| 8589934848 = μ) (h : Keeps μ s0 s) : Keeps μ s0 (eccUncorrectable s w e scrub cls ctx echo) := by
  unfold eccUncorrectable
  split
  · rename_i y0 y1 e2
    extract_lets x3 x4 x5
    clear_value x3
    clear_value x4
    have h6 : Keeps μ s0 x5 := by
      unfold x5
      refine setRec_keeps (sub hw rfl) ?_
      refine bumpSat_keeps ?_
      exact h
    clear_value x5
    refine report_keeps (sub hw rfl) ?_
    refine raise_keeps ?_
    exact h6
  · rename_i y7 e8
    refine report_keeps (sub hw rfl) ?_
    refine raise_keeps ?_
    refine bumpSat_keeps ?_
    exact h
  · rename_i y9 e10
    extract_lets x11 x12 x13
    clear_value x11
    clear_value x12
    have h14 : Keeps μ s0 x13 := by
      unfold x13
      refine setRec_keeps (sub hw rfl) ?_
      refine bumpSat_keeps ?_
      exact h
    clear_value x13
    refine report_keeps (sub hw rfl) ?_
    refine raise_keeps ?_
    exact h14
  · rename_i y15 e16
    extract_lets x17 x18 x19
    clear_value x17
    clear_value x18
    have h20 : Keeps μ s0 x19 := by
      unfold x19
      refine setRec_keeps (sub hw rfl) ?_
      refine bumpSat_keeps ?_
      exact h
    clear_value x19
    refine report_keeps (sub hw rfl) ?_
    refine raise_keeps ?_
    exact h20
  · rename_i y21 e22 e23 e24 e25
    exact h

theorem setEcc_keeps {s w e} (hw : μ ||| 64 = μ) (h : Keeps μ s0 s) : Keeps μ s0 (setEcc s w e) := by
  unfold setEcc
  refine upd_ecc (sub hw rfl) ?_
  exact h

theorem eccCorrected_keeps {s w} (hw : μ ||| 34359738432 = μ) (h : Keeps μ s0 s) : Keeps μ s0 (eccCorrected s w) := by
  unfold eccCorrected
  extract_lets x0 x1 x2 x3
  have h4 : Keeps μ s0 x0 := by
    unfold x0
    refine setEcc_keeps (sub hw rfl) ?_
    exact h
  clear_value x0
  clear_value x1
  have h5 : Keeps μ s0 x2 := by
    unfold x2
    refine upd_corrections (sub hw rfl) ?_
    exact h4
  clear_value x2
  have h6 : Keeps μ s0 x3 := by
    unfold x3
    refine upd_corrections (sub hw rfl) ?_
    exact h4
  clear_value x3
  split
  · rename_i y7 y8 e9
    refine raise_keeps ?_
    refine bumpSat_keeps ?_
    exact h4
  · rename_i y10 e11
    refine bumpSat_keeps ?_
    exact h4
  · rename_i y12 e13
    refine raise_keeps ?_
    refine bumpSat_keeps ?_
    exact h5
  · rename_i y14 e15
    refine raise_keeps ?_
    refine bumpSat_keeps ?_
    exact h6
  · rename_i y16 e17 e18 e19 e20
    exact h4

theorem eccReadWord_keeps {scrub cls ctx echo st w} (hw : μ ||| 42949673280 = μ) (h : Keeps μ s0 st.2) : Keeps μ s0 (eccReadWord scrub cls ctx echo st w).2 := by
  unfold eccReadWord
  split
  · rename_i y0 e1
    exact h
  · rename_i y2 y3 e4
    refine ite2_keeps (fun _ => ?_) (fun _ => ?_)
    · refine mk2_keeps ?_
      refine eccUncorrectable_keeps (sub hw rfl) ?_
      exact h
    · refine mk2_keeps ?_
      refine eccCorrected_keeps (sub hw rfl) ?_
      exact h

theorem eccRead_keeps {s ws cls ctx echo} (hw : μ ||| 42949673280 = μ) (h : Keeps μ s0 s) : Keeps μ s0 (eccRead s ws cls ctx echo).2 := by
  unfold eccRead
  refine foldl2_keeps ?_ ?_
  · refine mk2_keeps ?_
    exact h
  · intro x0 x1 h2
    refine eccReadWord_keeps (sub hw rfl) ?_
    exact h2

theorem countWords_keeps {s write ws} (h : Keeps μ s0 s) : Keeps μ s0 (countWords s write ws) := by
  unfold countWords
  refine foldl_intro (P := Keeps μ s0) ?_ ?_
  · exact h
  · intro x0 x1 h2
    refine ite_intro (P := Keeps μ s0) (fun _ => ?_) (fun _ => ?_)
    · refine bump_keeps ?_
      exact h2
    · exact h2

theorem extWait_keeps {s ag a} (h : Keeps μ s0 s) : Keeps μ s0 (extWait s ag a) := by
  unfold extWait
  split
  · rename_i y0 y1 e2
    extract_lets x3
    clear_value x3
    refine ite_intro (P := Keeps μ s0) (fun _ => ?_) (fun _ => ?_)
    · exact h
    · refine bump_keeps ?_
      refine drawFree_keeps ?_
      exact h
  · rename_i y4 e5
    exact h

theorem encAuthFail_keeps {s r i cls echo} (hw : μ ||| 8589934848 = μ) (h : Keeps μ s0 s) : Keeps μ s0 (encAuthFail s r i cls echo) := by
  unfold encAuthFail
  extract_lets x0 x1
  clear_value x0
  have h2 : Keeps μ s0 x1 := by
    unfold x1
    refine setRec_keeps (sub hw rfl) ?_
    refine bumpSat_keeps ?_
    exact h
  clear_value x1
  refine report_keeps (sub hw rfl) ?_
  refine raise_keeps ?_
  exact h2

theorem encCheck_keeps {s gs cls echo} (hw : μ ||| 8589934848 = μ) (h : Keeps μ s0 s) : Keeps μ s0 (encCheck s gs cls echo).2 := by
  unfold encCheck
  split
  · rename_i y0 y1 e2
    refine mk2_keeps ?_
    refine encAuthFail_keeps (sub hw rfl) ?_
    exact h
  · rename_i y3 e4
    refine mk2_keeps ?_
    exact h

theorem memRead_keeps {s ag a n cls ctx echo} (hw : μ ||| 42949673280 = μ) (h : Keeps μ s0 s) : Keeps μ s0 (memRead s ag a n cls ctx echo).2.2 := by
  unfold memRead
  split
  · rename_i y0 y1 y2 e3
    refine mk3_keeps ?_
    refine noteRefusal_keeps (sub hw rfl) ?_
    exact h
  · rename_i y4 e5
    extract_lets x6
    clear_value x6
    split
    · rename_i y7 y8 e9
      have h10 : Keeps μ s0 y8 := by
        refine of2 e9 ?_
        refine eccRead_keeps (sub hw rfl) ?_
        refine countWords_keeps ?_
        refine extWait_keeps ?_
        exact h
      split
      · rename_i y11 y12 e13
        have h14 : Keeps μ s0 y12 := by
          refine of2 e13 ?_
          refine encCheck_keeps (sub hw rfl) ?_
          exact h10
        refine mk3_keeps ?_
        exact h14
      · rename_i y15 y16 y17 e18 e19
        have h20 : Keeps μ s0 y17 := by
          refine of2 e19 ?_
          refine encCheck_keeps (sub hw rfl) ?_
          exact h10
        refine mk3_keeps ?_
        exact h20
    · rename_i y21 y22 y23 e24 e25
      have h26 : Keeps μ s0 y23 := by
        refine of2 e25 ?_
        refine eccRead_keeps (sub hw rfl) ?_
        refine countWords_keeps ?_
        refine extWait_keeps ?_
        exact h
      refine mk3_keeps ?_
      exact h26

theorem readTag_keeps {s ag addr cls echo} (hw : μ ||| 42949673280 = μ) (h : Keeps μ s0 s) : Keeps μ s0 (readTag s ag addr cls echo).2.2 := by
  unfold readTag
  split
  rename_i y0 y1 y2 y3 e4
  have h5 : Keeps μ s0 y3 := by
    refine of3 e4 ?_
    refine memRead_keeps (sub hw rfl) ?_
    exact h
  refine mk3_keeps ?_
  exact h5

theorem checkInputs_keeps {s ag frame cls echo desc l} (hw : μ ||| 42949673280 = μ) (h : Keeps μ s0 s) : Keeps μ s0 (checkInputs s ag frame cls echo desc l).2.2 := by
  unfold checkInputs
  refine foldl3_keeps ?_ ?_
  · refine mk3_keeps ?_
    exact h
  · intro x0 x1 h2
    refine ite3_keeps (fun _ => ?_) (fun _ => ?_)
    · exact h2
    · split
      · rename_i y3 y4 y5 y6 e7
        have h8 : Keeps μ s0 y6 := by
          refine of3 e7 ?_
          refine readTag_keeps (sub hw rfl) ?_
          exact h2
        refine ite3_keeps (fun _ => ?_) (fun _ => ?_)
        · refine mk3_keeps ?_
          exact h8
        · refine mk3_keeps ?_
          refine report_keeps (sub hw rfl) ?_
          exact h8
      · rename_i y9 y10 y11 y12 y13 e14 e15
        have h16 : Keeps μ s0 y13 := by
          refine of3 e15 ?_
          refine readTag_keeps (sub hw rfl) ?_
          exact h2
        refine mk3_keeps ?_
        exact h16

theorem updOp_keeps {s id f} (hw : μ ||| 1073741824 = μ) (h : Keeps μ s0 s) : Keeps μ s0 (updOp s id f) := by
  unfold updOp
  refine upd_ops (sub hw rfl) ?_
  exact h

theorem setRoll_keeps {s c r x} (hw : μ ||| 16777216 = μ) (h : Keeps μ s0 s) : Keeps μ s0 (setRoll s c r x) := by
  unfold setRoll
  refine upd_rolls (sub hw rfl) ?_
  exact h

theorem rollConsumeStart_keeps {s c r op exec upTo} (hw : μ ||| 16777216 = μ) (h : Keeps μ s0 s) : Keeps μ s0 (rollConsumeStart s c r op exec upTo) := by
  unfold rollConsumeStart
  extract_lets x0
  clear_value x0
  refine setRoll_keeps (sub hw rfl) ?_
  exact h

theorem rollSpanError_keeps {s c r cls echo} (hw : μ ||| 256 = μ) (h : Keeps μ s0 s) : Keeps μ s0 (rollSpanError s c r cls echo) := by
  unfold rollSpanError
  extract_lets x0
  have h1 : Keeps μ s0 x0 := by
    unfold x0
    refine raise_keeps ?_
    refine bumpSat_keeps ?_
    exact h
  clear_value x0
  refine report_keeps (sub hw rfl) ?_
  exact h1

theorem opResolve_keeps {s op l} (hw : μ ||| 1090519296 = μ) (h : Keeps μ s0 s) : Keeps μ s0 (opResolve s op l).2 := by
  unfold opResolve
  refine foldl2_keeps ?_ ?_
  · refine mk2_keeps ?_
    exact h
  · intro x0 x1 h2
    refine ite2_keeps (fun _ => ?_) (fun _ => ?_)
    · exact h2
    · extract_lets x3 x4 x5 x6 x7 x8
      have h9 : Keeps μ s0 x3 := by
        unfold x3
        exact h2
      clear_value x3
      clear_value x4
      clear_value x5
      clear_value x6
      clear_value x7
      have h10 : Keeps μ s0 x8 := by
        unfold x8
        refine updOp_keeps (sub hw rfl) ?_
        exact h9
      clear_value x8
      refine ite2_keeps (fun _ => ?_) (fun _ => ?_)
      · refine mk2_keeps ?_
        refine updOp_keeps (sub hw rfl) ?_
        exact h9
      · refine ite2_keeps (fun _ => ?_) (fun _ => ?_)
        · refine mk2_keeps ?_
          refine ite_intro (P := Keeps μ s0) (fun _ => ?_) (fun _ => ?_)
          · refine rollConsumeStart_keeps (sub hw rfl) ?_
            exact h10
          · exact h10
        · refine mk2_keeps ?_
          refine rollSpanError_keeps (sub hw rfl) ?_
          exact h9

theorem opRead_keeps {s op off x n} (hw : μ ||| 42949673280 = μ) (h : Keeps μ s0 s) : Keeps μ s0 (opRead s op off x n).2.2 := by
  unfold opRead
  extract_lets x0
  clear_value x0
  split
  · rename_i y1 y2 y3 e4
    have h5 : Keeps μ s0 y3 := by
      refine of3 e4 ?_
      refine memRead_keeps (sub hw rfl) ?_
      exact h
    refine ite3_keeps (fun _ => ?_) (fun _ => ?_)
    · split
      rename_i y6 y7 y8 y9 y10 e11
      have h12 : Keeps μ s0 y10 := by
        refine of3 e11 ?_
        refine memRead_keeps (sub hw rfl) ?_
        exact h5
      refine mk3_keeps ?_
      exact h12
    · refine mk3_keeps ?_
      exact h5
  · rename_i y13 y14 y15 y16 e17 e18
    have h19 : Keeps μ s0 y16 := by
      refine of3 e18 ?_
      refine memRead_keeps (sub hw rfl) ?_
      exact h
    refine mk3_keeps ?_
    exact h19

theorem startBlock_keeps {s id} (hw : μ ||| 44023415104 = μ) (h : Keeps μ s0 s) : Keeps μ s0 (startBlock s id).2 := by
  unfold startBlock
  split
  · rename_i y0 e1
    refine mk2_keeps ?_
    exact h
  · rename_i y2 y3 e4
    split
    · rename_i y5 e6
      refine mk2_keeps ?_
      exact h
    · rename_i y7 y8 e9
      split
      · rename_i y10 y11 y12 e13
        have h14 : Keeps μ s0 y12 := by
          refine of3 e13 ?_
          refine opRead_keeps (sub hw rfl) ?_
          exact h
        refine mk2_keeps ?_
        refine updOp_keeps (sub hw rfl) ?_
        exact h14
      · rename_i y15 y16 y17 y18 e19 e20
        have h21 : Keeps μ s0 y18 := by
          refine of3 e20 ?_
          refine opRead_keeps (sub hw rfl) ?_
          exact h
        refine mk2_keeps ?_
        exact h21

theorem eccInject_keeps {s w} (hw : μ ||| 64 = μ) (h : Keeps μ s0 s) : Keeps μ s0 (eccInject s w) := by
  unfold eccInject
  split
  · rename_i y0 y1 e2
    extract_lets x3 x4
    clear_value x3
    have h5 : Keeps μ s0 (x4).2 := by
      unfold x4
      refine drawFree_keeps ?_
      refine wrF_keeps ?_
      exact h
    clear_value x4
    refine ite_intro (P := Keeps μ s0) (fun _ => ?_) (fun _ => ?_)
    · refine raise_keeps ?_
      refine setEcc_keeps (sub hw rfl) ?_
      exact h5
    · exact h
  · rename_i y6 e7
    extract_lets x8 x9 x10
    clear_value x8
    clear_value x9
    have h11 : Keeps μ s0 (x10).2 := by
      unfold x10
      refine drawFree_keeps ?_
      refine wrF_keeps ?_
      exact h
    clear_value x10
    refine ite_intro (P := Keeps μ s0) (fun _ => ?_) (fun _ => ?_)
    · refine raise_keeps ?_
      refine setEcc_keeps (sub hw rfl) ?_
      exact h11
    · exact h
  · rename_i y12 e13
    extract_lets x14 x15 x16
    clear_value x14
    clear_value x15
    have h17 : Keeps μ s0 (x16).2 := by
      unfold x16
      refine drawFree_keeps ?_
      refine wrF_keeps ?_
      exact h
    clear_value x16
    refine ite_intro (P := Keeps μ s0) (fun _ => ?_) (fun _ => ?_)
    · refine raise_keeps ?_
      refine setEcc_keeps (sub hw rfl) ?_
      exact h17
    · exact h
  · rename_i y18 e19 e20 e21
    exact h

theorem eccWrite_keeps {s ws} (hw : μ ||| 64 = μ) (h : Keeps μ s0 s) : Keeps μ s0 (eccWrite s ws) := by
  unfold eccWrite
  refine foldl_intro (P := Keeps μ s0) ?_ ?_
  · exact h
  · intro x0 x1 h2
    refine eccInject_keeps (sub hw rfl) ?_
    refine setEcc_keeps (sub hw rfl) ?_
    exact h2

theorem encRewrite_keeps {c s g} (hw : μ ||| 32 = μ) (h : Keeps μ s0 s) : Keeps μ s0 (encRewrite c s g) := by
  unfold encRewrite
  refine memPut_keeps (sub hw rfl) ?_
  exact h

theorem memStore_keeps {s ag a bs cls echo} (hw : μ ||| 42949673312 = μ) (h : Keeps μ s0 s) : Keeps μ s0 (memStore s ag a bs cls echo).2 := by
  unfold memStore
  extract_lets x0 x1
  clear_value x0
  clear_value x1
  split
  · rename_i y2 y3 e4
    have h5 : Keeps μ s0 y3 := by
      refine of2 e4 ?_
      refine eccRead_keeps (sub hw rfl) ?_
      refine countWords_keeps ?_
      refine extWait_keeps ?_
      exact h
    extract_lets x6
    clear_value x6
    refine ite2_keeps (fun _ => ?_) (fun _ => ?_)
    · refine mk2_keeps ?_
      exact h5
    · split
      · rename_i y7 y8 y9 e10
        have h11 : Keeps μ s0 y9 := by
          refine of2 e10 ?_
          refine encCheck_keeps (sub hw rfl) ?_
          exact h5
        extract_lets x12 x13
        clear_value x12
        have h14 : Keeps μ s0 x13 := by
          unfold x13
          refine memPut_keeps (sub hw rfl) ?_
          refine countWords_keeps ?_
          exact h11
        clear_value x13
        refine mk2_keeps ?_
        refine eccWrite_keeps (sub hw rfl) ?_
        refine foldl_intro (P := Keeps μ s0) ?_ ?_
        · exact h14
        · intro x15 x16 h17
          refine encRewrite_keeps (sub hw rfl) ?_
          exact h17
      · rename_i y18 y19 y20 y21 e22 e23
        have h24 : Keeps μ s0 y21 := by
          refine of2 e23 ?_
          refine encCheck_keeps (sub hw rfl) ?_
          exact h5
        refine mk2_keeps ?_
        exact h24
  · rename_i y25 y26 y27 e28 e29
    have h30 : Keeps μ s0 y27 := by
      refine of2 e29 ?_
      refine eccRead_keeps (sub hw rfl) ?_
      refine countWords_keeps ?_
      refine extWait_keeps ?_
      exact h
    refine mk2_keeps ?_
    exact h30

theorem memWrite_keeps {s ag a bs cls echo} (hw : μ ||| 35227321762144 = μ) (h : Keeps μ s0 s) : Keeps μ s0 (memWrite s ag a bs cls echo).2 := by
  unfold memWrite
  split
  · rename_i y0 y1 y2 e3
    refine mk2_keeps ?_
    refine noteRefusal_keeps (sub hw rfl) ?_
    exact h
  · rename_i y4 e5
    refine ite2_keeps (fun _ => ?_) (fun _ => ?_)
    · refine mk2_keeps ?_
      refine upd_encQ (sub hw rfl) ?_
      exact h
    · refine memStore_keeps (sub hw rfl) ?_
      exact h

theorem mapWrite_keeps {e v1 v2 v3 v4} (hw : μ ||| 35227321762144 = μ) (h : Keeps μ s0 v2) : Keeps μ s0 (mapWrite e v1 v2 v3 v4) := by
  induction v1 generalizing e v2 v3 v4
  · unfold mapWrite
    exact h
  · rename_i y10 y11
    unfold mapWrite
    refine ite_intro (P := Keeps μ s0) (fun _ => ?_) (fun _ => ?_)
    · exact h
    · extract_lets x12
      clear_value x12
      refine y11 ?_
      refine memWrite_keeps (sub hw rfl) ?_
      exact h

theorem writeSlot_keeps {s e i x} (hw : μ ||| 35227321762144 = μ) (h : Keeps μ s0 s) : Keeps μ s0 (writeSlot s e i x) := by
  unfold writeSlot
  refine mapWrite_keeps (sub hw rfl) ?_
  exact h

theorem mapRead_keeps {e v1 v2 v3 v4} (hw : μ ||| 42949673280 = μ) (h : Keeps μ s0 v2) : Keeps μ s0 (mapRead e v1 v2 v3 v4).2.2 := by
  induction v1 generalizing e v2 v3 v4
  · unfold mapRead
    refine mk3_keeps ?_
    exact h
  · rename_i y22 y23
    unfold mapRead
    refine ite3_keeps (fun _ => ?_) (fun _ => ?_)
    · refine mk3_keeps ?_
      exact h
    · extract_lets x24
      clear_value x24
      split
      · rename_i y25 y26 y27 y28 e29
        have h30 : Keeps μ s0 y28 := by
          refine of3 e29 ?_
          refine memRead_keeps (sub hw rfl) ?_
          exact h
        split
        rename_i y31 y32 y33 y34 e35
        have h36 : Keeps μ s0 y34 := by
          refine of3 e35 ?_
          refine y23 ?_
          exact h30
        refine mk3_keeps ?_
        exact h36
      · rename_i y37 y38 y39 y40 y41 e42 e43
        have h44 : Keeps μ s0 y41 := by
          refine of3 e43 ?_
          refine memRead_keeps (sub hw rfl) ?_
          exact h
        refine mk3_keeps ?_
        exact h44

theorem readSlot_keeps {s e i} (hw : μ ||| 42949673280 = μ) (h : Keeps μ s0 s) : Keeps μ s0 (readSlot s e i).2 := by
  unfold readSlot
  split
  · rename_i y0 y1 y2 e3
    have h4 : Keeps μ s0 y2 := by
      refine of3 e3 ?_
      refine mapRead_keeps (sub hw rfl) ?_
      exact h
    refine ite2_keeps (fun _ => ?_) (fun _ => ?_)
    · refine mk2_keeps ?_
      exact h4
    · refine mk2_keeps ?_
      exact h4
  · rename_i y5 y6 y7 y8 e9 e10
    have h11 : Keeps μ s0 y8 := by
      refine of3 e10 ?_
      refine mapRead_keeps (sub hw rfl) ?_
      exact h
    refine mk2_keeps ?_
    exact h11

theorem poolRegs_keeps {s} (h : Keeps μ s0 s) : Keeps μ s0 (poolRegs s) := by
  unfold poolRegs
  extract_lets x0 x1 x2 x3
  clear_value x0
  clear_value x1
  clear_value x2
  have h4 : Keeps μ s0 x3 := by
    unfold x3
    refine wr_keeps ?_
    refine wr_keeps ?_
    exact h
  clear_value x3
  refine ite_intro (P := Keeps μ s0) (fun _ => ?_) (fun _ => ?_)
  · refine raise_keeps ?_
    exact h4
  · exact h4

theorem setSeq_keeps {s f} (hw : μ ||| 33554432 = μ) (h : Keeps μ s0 s) : Keeps μ s0 (setSeq s f) := by
  unfold setSeq
  refine upd_seq (sub hw rfl) ?_
  exact h

theorem freePages_keeps {s ps} (hw : μ ||| 33554432 = μ) (h : Keeps μ s0 s) : Keeps μ s0 (freePages s ps) := by
  unfold freePages
  refine poolRegs_keeps ?_
  refine setSeq_keeps (sub hw rfl) ?_
  exact h

theorem discardGroup_keeps {s g} (hw : μ ||| 35227355316576 = μ) (h : Keeps μ s0 s) : Keeps μ s0 (discardGroup s g) := by
  unfold discardGroup
  extract_lets x0 x1 x2
  clear_value x0
  have h3 : Keeps μ s0 x1 := by
    unfold x1
    refine foldl_intro (P := Keeps μ s0) ?_ ?_
    · exact h
    · intro x4 x5 h6
      extract_lets x7
      clear_value x7
      refine ite_intro (P := Keeps μ s0) (fun _ => ?_) (fun _ => ?_)
      · refine writeSlot_keeps (sub hw rfl) ?_
        exact h6
      · split
        · rename_i y8 y9 y10 y11 e12
          have h13 : Keeps μ s0 y11 := by
            refine of2 e12 ?_
            refine readSlot_keeps (sub hw rfl) ?_
            exact h6
          refine ite_intro (P := Keeps μ s0) (fun _ => ?_) (fun _ => ?_)
          · refine writeSlot_keeps (sub hw rfl) ?_
            exact h13
          · exact h13
        · rename_i y14 y15 y16 y17 e18
          have h19 : Keeps μ s0 y17 := by
            refine of2 e18 ?_
            refine readSlot_keeps (sub hw rfl) ?_
            exact h6
          exact h19
  clear_value x1
  have h20 : Keeps μ s0 x2 := by
    unfold x2
    refine freePages_keeps (sub hw rfl) ?_
    exact h3
  clear_value x2
  refine setSeq_keeps (sub hw rfl) ?_
  exact h20

theorem sendRequests_keeps {v0 v1} (hw : μ ||| 301989888 = μ) (h : Keeps μ s0 v1) : Keeps μ s0 (sendRequests v0 v1) := by
  induction v0 generalizing v1
  · unfold sendRequests
    exact h
  · rename_i y12 y13
    unfold sendRequests
    split
    · rename_i y14 e15
      exact h
    · rename_i y16 y17 e18
      refine ite_intro (P := Keeps μ s0) (fun _ => ?_) (fun _ => ?_)
      · exact h
      · extract_lets x19
        have h20 : Keeps μ s0 x19 := by
          unfold x19
          refine setSeq_keeps (sub hw rfl) ?_
          exact h
        clear_value x19
        refine y13 ?_
        refine upd_starts (sub hw rfl) ?_
        exact h20

theorem releaseHeld_keeps {s} (hw : μ ||| 33554432 = μ) (h : Keeps μ s0 s) : Keeps μ s0 (releaseHeld s) := by
  unfold releaseHeld
  extract_lets x0 x1
  clear_value x0
  clear_value x1
  refine ite_intro (P := Keeps μ s0) (fun _ => ?_) (fun _ => ?_)
  · exact h
  · refine freePages_keeps (sub hw rfl) ?_
    refine setSeq_keeps (sub hw rfl) ?_
    exact h

theorem seqRegs_keeps {s} (hw : μ ||| 301989888 = μ) (h : Keeps μ s0 s) : Keeps μ s0 (seqRegs s) := by
  unfold seqRegs
  extract_lets x0
  have h1 : Keeps μ s0 x0 := by
    unfold x0
    refine sendRequests_keeps (sub hw rfl) ?_
    refine releaseHeld_keeps (sub hw rfl) ?_
    exact h
  clear_value x0
  refine wrF_keeps ?_
  refine wr_keeps ?_
  exact h1

theorem seqJobEnded_keeps {s exec} (hw : μ ||| 35227623752032 = μ) (h : Keeps μ s0 s) : Keeps μ s0 (seqJobEnded s exec) := by
  unfold seqJobEnded
  extract_lets x0
  have h1 : Keeps μ s0 x0 := by
    unfold x0
    refine foldl_intro (P := Keeps μ s0) ?_ ?_
    · exact h
    · intro x2 x3 h4
      refine discardGroup_keeps (sub hw rfl) ?_
      exact h4
  clear_value x0
  refine seqRegs_keeps (sub hw rfl) ?_
  refine setSeq_keeps (sub hw rfl) ?_
  exact h1

theorem rollZeroSpan_keeps {s c r start len} (hw : μ ||| 96 = μ) (h : Keeps μ s0 s) : Keeps μ s0 (rollZeroSpan s c r start len) := by
  unfold rollZeroSpan
  extract_lets x0 x1 x2
  clear_value x0
  have h3 : ∀ a0 a1 a2, Keeps μ s0 a0 → Keeps μ s0 (x1 a0 a1 a2) := by
    intro a0 a1 a2 h4
    unfold x1
    refine eccWrite_keeps (sub hw rfl) ?_
    refine memZero_keeps (sub hw rfl) ?_
    exact h4
  clear_value x1
  have h5 : Keeps μ s0 x2 := by
    unfold x2
    refine h3 _ _ _ ?_
    exact h
  clear_value x2
  refine ite_intro (P := Keeps μ s0) (fun _ => ?_) (fun _ => ?_)
  · refine h3 _ _ _ ?_
    exact h5
  · exact h5

theorem rollCommitOne_keeps {s c r v} (hw : μ ||| 260 = μ) (h : Keeps μ s0 s) : Keeps μ s0 (rollCommitOne s c r v) := by
  unfold rollCommitOne
  extract_lets x0 x1 x2
  have h3 : Keeps μ s0 x0 := by
    unfold x0
    refine wr_keeps ?_
    exact h
  clear_value x0
  have h4 : Keeps μ s0 x1 := by
    unfold x1
    refine pegInc_keeps (sub hw rfl) ?_
    exact h3
  clear_value x1
  have h5 : Keeps μ s0 x2 := by
    unfold x2
    refine raise_keeps ?_
    refine bumpSat_keeps ?_
    exact h4
  clear_value x2
  refine ite_intro (P := Keeps μ s0) (fun _ => ?_) (fun _ => ?_)
  · refine report_keeps (sub hw rfl) ?_
    exact h5
  · exact h4

theorem rollCommit_keeps {s c r} (hw : μ ||| 16777476 = μ) (h : Keeps μ s0 s) : Keeps μ s0 (rollCommit s c r) := by
  unfold rollCommit
  extract_lets x0 x1
  clear_value x0
  clear_value x1
  refine foldl_intro (P := Keeps μ s0) ?_ ?_
  · refine setRoll_keeps (sub hw rfl) ?_
    exact h
  · intro x2 x3 h4
    refine rollCommitOne_keeps (sub hw rfl) ?_
    exact h4

theorem rollVoid_keeps {s c r exec} (hw : μ ||| 16777572 = μ) (h : Keeps μ s0 s) : Keeps μ s0 (rollVoid s c r exec) := by
  unfold rollVoid
  extract_lets x0 x1 x2 x3
  clear_value x0
  clear_value x1
  have h4 : Keeps μ s0 x2 := by
    unfold x2
    refine foldl_intro (P := Keeps μ s0) ?_ ?_
    · exact h
    · intro x5 x6 h7
      refine rollZeroSpan_keeps (sub hw rfl) ?_
      exact h7
  clear_value x2
  have h8 : Keeps μ s0 x3 := by
    unfold x3
    refine setRoll_keeps (sub hw rfl) ?_
    exact h4
  clear_value x3
  refine ite_intro (P := Keeps μ s0) (fun _ => ?_) (fun _ => ?_)
  · refine rollCommit_keeps (sub hw rfl) ?_
    exact h8
  · exact h8

theorem rollVoidAll_keeps {s exec} (hw : μ ||| 16777572 = μ) (h : Keeps μ s0 s) : Keeps μ s0 (rollVoidAll s exec) := by
  unfold rollVoidAll
  refine foldl_intro (P := Keeps μ s0) ?_ ?_
  · exact h
  · intro x0 x1 h2
    refine rollVoid_keeps (sub hw rfl) ?_
    exact h2

theorem execLost_keeps {s exec} (hw : μ ||| 35227640529252 = μ) (h : Keeps μ s0 s) : Keeps μ s0 (execLost s exec) := by
  unfold execLost
  refine seqJobEnded_keeps (sub hw rfl) ?_
  refine rollVoidAll_keeps (sub hw rfl) ?_
  exact h

theorem updInst_keeps {s id f} (hw : μ ||| 134217728 = μ) (h : Keeps μ s0 s) : Keeps μ s0 (updInst s id f) := by
  unfold updInst
  refine upd_insts (sub hw rfl) ?_
  exact h

theorem updJob_keeps {s id j f} (hw : μ ||| 134217728 = μ) (h : Keeps μ s0 s) : Keeps μ s0 (updJob s id j f) := by
  unfold updJob
  refine updInst_keeps (sub hw rfl) ?_
  exact h

theorem dspRegs_keeps {s} (h : Keeps μ s0 s) : Keeps μ s0 (dspRegs s) := by
  unfold dspRegs
  extract_lets x0
  clear_value x0
  refine wr_keeps ?_
  refine wr_keeps ?_
  exact h

theorem seqInstGone_keeps {s inst} (hw : μ ||| 301989888 = μ) (h : Keeps μ s0 s) : Keeps μ s0 (seqInstGone s inst) := by
  unfold seqInstGone
  extract_lets x0 x1 x2
  clear_value x0
  have h3 : Keeps μ s0 x1 := by
    unfold x1
    refine freePages_keeps (sub hw rfl) ?_
    exact h
  clear_value x1
  have h4 : Keeps μ s0 x2 := by
    unfold x2
    refine setSeq_keeps (sub hw rfl) ?_
    exact h3
  clear_value x2
  refine seqRegs_keeps (sub hw rfl) ?_
  refine setSeq_keeps (sub hw rfl) ?_
  exact h4

theorem sweepInst_keeps {s id} (hw : μ ||| 436207616 = μ) (h : Keeps μ s0 s) : Keeps μ s0 (sweepInst s id) := by
  unfold sweepInst
  split
  · rename_i y0 e1
    exact h
  · rename_i y2 y3 e4
    refine ite_intro (P := Keeps μ s0) (fun _ => ?_) (fun _ => ?_)
    · exact h
    · refine seqInstGone_keeps (sub hw rfl) ?_
      refine upd_insts (sub hw rfl) ?_
      exact h

theorem viewRegs_keeps {s} (h : Keeps μ s0 s) : Keeps μ s0 (viewRegs s) := by
  unfold viewRegs
  refine wr_keeps ?_
  exact h

theorem dropViews_keeps {s q} (hw : μ ||| 33554432 = μ) (h : Keeps μ s0 s) : Keeps μ s0 (dropViews s q) := by
  unfold dropViews
  refine viewRegs_keeps ?_
  refine setSeq_keeps (sub hw rfl) ?_
  exact h

theorem seqInstEnded_keeps {s inst} (hw : μ ||| 301989888 = μ) (h : Keeps μ s0 s) : Keeps μ s0 (seqInstEnded s inst) := by
  unfold seqInstEnded
  extract_lets x0
  have h1 : Keeps μ s0 x0 := by
    unfold x0
    refine dropViews_keeps (sub hw rfl) ?_
    exact h
  clear_value x0
  refine seqRegs_keeps (sub hw rfl) ?_
  refine setSeq_keeps (sub hw rfl) ?_
  exact h1

theorem instLeave_keeps {s x life} (hw : μ ||| 35227774746980 = μ) (h : Keeps μ s0 s) : Keeps μ s0 (instLeave s x life) := by
  unfold instLeave
  extract_lets x0 x1
  clear_value x0
  have h2 : Keeps μ s0 x1 := by
    unfold x1
    refine updInst_keeps (sub hw rfl) ?_
    exact h
  clear_value x1
  refine ite_intro (P := Keeps μ s0) (fun _ => ?_) (fun _ => ?_)
  · refine foldl_intro (P := Keeps μ s0) ?_ ?_
    · exact h2
    · intro x3 x4 h5
      refine execLost_keeps (sub hw rfl) ?_
      exact h5
  · exact h2

theorem sendJobDone_keeps {s x} (h : Keeps μ s0 s) : Keeps μ s0 (sendJobDone s x) := by
  unfold sendJobDone
  refine sendEvent_keeps ?_
  exact h

theorem setGraph_keeps {s slot g} (hw : μ ||| 67108864 = μ) (h : Keeps μ s0 s) : Keeps μ s0 (setGraph s slot g) := by
  unfold setGraph
  refine upd_graphs (sub hw rfl) ?_
  exact h

theorem unloadGraph_keeps {s slot no} (hw : μ ||| 70368811286796 = μ) (h : Keeps μ s0 s) : Keeps μ s0 (unloadGraph s slot no) := by
  unfold unloadGraph
  split
  · rename_i y0 e1
    refine podComplete_keeps (sub hw rfl) ?_
    exact h
  · rename_i y2 y3 e4
    extract_lets x5 x6
    have h7 : Keeps μ s0 x5 := by
      unfold x5
      refine dspRegs_keeps ?_
      refine setGraph_keeps (sub hw rfl) ?_
      exact h
    clear_value x5
    have h8 : Keeps μ s0 x6 := by
      unfold x6
      refine foldl_intro (P := Keeps μ s0) ?_ ?_
      · exact h7
      · intro x9 x10 h11
        split
        · rename_i y12 y13 e14
          refine podComplete_keeps (sub hw rfl) ?_
          exact h11
        · rename_i y15 e16
          exact h11
    clear_value x6
    refine podComplete_keeps (sub hw rfl) ?_
    exact h8

theorem unloadPending_keeps {s slot} (hw : μ ||| 70368811286796 = μ) (h : Keeps μ s0 s) : Keeps μ s0 (unloadPending s slot) := by
  unfold unloadPending
  split
  · rename_i y0 e1
    exact h
  · rename_i y2 y3 e4
    split
    · rename_i y5 e6
      exact h
    · rename_i y7 y8 e9
      refine ite_intro (P := Keeps μ s0) (fun _ => ?_) (fun _ => ?_)
      · exact h
      · refine ite_intro (P := Keeps μ s0) (fun _ => ?_) (fun _ => ?_)
        · refine podComplete_keeps (sub hw rfl) ?_
          refine setGraph_keeps (sub hw rfl) ?_
          exact h
        · refine unloadGraph_keeps (sub hw rfl) ?_
          exact h

theorem instGone_keeps {s x life} (hw : μ ||| 105596586033516 = μ) (h : Keeps μ s0 s) : Keeps μ s0 (instGone s x life) := by
  unfold instGone
  extract_lets x0
  have h1 : Keeps μ s0 x0 := by
    unfold x0
    refine dspRegs_keeps ?_
    refine sweepInst_keeps (sub hw rfl) ?_
    refine seqInstEnded_keeps (sub hw rfl) ?_
    refine instLeave_keeps (sub hw rfl) ?_
    exact h
  clear_value x0
  split
  · rename_i y2 e3
    exact h1
  · rename_i y4 y5 e6
    extract_lets x7 x8 x9
    have h10 : Keeps μ s0 x7 := by
      unfold x7
      refine ite_intro (P := Keeps μ s0) (fun _ => ?_) (fun _ => ?_)
      · refine sendJobDone_keeps ?_
        exact h1
      · exact h1
    clear_value x7
    have h11 : Keeps μ s0 x8 := by
      unfold x8
      refine setGraph_keeps (sub hw rfl) ?_
      exact h10
    clear_value x8
    have h12 : Keeps μ s0 x9 := by
      unfold x9
      split
      · rename_i y13 y14 e15
        refine podComplete_keeps (sub hw rfl) ?_
        exact h11
      · rename_i y16 e17
        exact h11
    clear_value x9
    refine dspRegs_keeps ?_
    refine unloadPending_keeps (sub hw rfl) ?_
    exact h12

theorem seqDrop_keeps {s c} (hw : μ ||| 301989888 = μ) (h : Keeps μ s0 s) : Keeps μ s0 (seqDrop s c) := by
  unfold seqDrop
  extract_lets x0 x1
  have h2 : Keeps μ s0 x0 := by
    unfold x0
    refine setSeq_keeps (sub hw rfl) ?_
    exact h
  clear_value x0
  have h3 : Keeps μ s0 x1 := by
    unfold x1
    refine ite_intro (P := Keeps μ s0) (fun _ => ?_) (fun _ => ?_)
    · split
      · rename_i y4 y5 y6 y7 y8 y9 e10
        refine dropViews_keeps (sub hw rfl) ?_
        exact h2
      · rename_i y11 y12 y13 e14
        exact h2
    · exact h2
  clear_value x1
  refine seqRegs_keeps (sub hw rfl) ?_
  exact h3

theorem seqNoteFail_keeps {s c status injected} (hw : μ ||| 8589934592 = μ) (h : Keeps μ s0 s) : Keeps μ s0 (seqNoteFail s c status injected) := by
  unfold seqNoteFail
  refine setRec_keeps (sub hw rfl) ?_
  refine bumpSat_keeps ?_
  exact h

theorem instEnd_keeps {v0 v1 v2 v3 v4} (hw : μ ||| 105596586033516 = μ) (h : Keeps μ s0 v1) : Keeps μ s0 (instEnd v0 v1 v2 v3 v4) := by
  induction v0 generalizing v1 v2 v3 v4
  · unfold instEnd
    exact h
  · rename_i y37 y38
    unfold instEnd
    refine ite_intro (P := Keeps μ s0) (fun _ => ?_) (fun _ => ?_)
    · exact h
    · extract_lets x39 x40
      clear_value x39
      have h41 : Keeps μ s0 x40 := by
        unfold x40
        refine instGone_keeps (sub hw rfl) ?_
        exact h
      clear_value x40
      split
      · rename_i y42 y43 y44 y45 e46
        refine ite_intro (P := Keeps μ s0) (fun _ => ?_) (fun _ => ?_)
        · extract_lets x47 x48
          clear_value x47
          have h49 : Keeps μ s0 x48 := by
            unfold x48
            refine setSeq_keeps (sub hw rfl) ?_
            exact h41
          clear_value x48
          refine foldl_intro (P := Keeps μ s0) ?_ ?_
          · refine seqRegs_keeps (sub hw rfl) ?_
            exact h49
          · intro x50 x51 h52
            extract_lets x53
            have h54 : Keeps μ s0 x53 := by
              unfold x53
              refine seqDrop_keeps (sub hw rfl) ?_
              refine seqNoteFail_keeps (sub hw rfl) ?_
              exact h52
            clear_value x53
            split
            · rename_i y55 y56 y57 y58 y59 y60 e61
              split
              · rename_i y62 y63 e64
                refine y38 ?_
                exact h54
              · rename_i y65 e66
                exact h54
            · rename_i y67 y68 y69 e70
              refine podComplete_keeps (sub hw rfl) ?_
              exact h54
        · exact h41
      · rename_i y71 y72 e73
        exact h41

theorem endInst_keeps {s x st life} (hw : μ ||| 105596586033516 = μ) (h : Keeps μ s0 s) : Keeps μ s0 (endInst s x st life) := by
  unfold endInst
  refine instEnd_keeps (sub hw rfl) ?_
  exact h

theorem cancelJob_keeps {s x j} (hw : μ ||| 35227774746980 = μ) (h : Keeps μ s0 s) : Keeps μ s0 (cancelJob s x j) := by
  unfold cancelJob
  refine sweepInst_keeps (sub hw rfl) ?_
  refine updJob_keeps (sub hw rfl) ?_
  refine ite_intro (P := Keeps μ s0) (fun _ => ?_) (fun _ => ?_)
  · refine execLost_keeps (sub hw rfl) ?_
    exact h
  · exact h

theorem failJob_keeps {s x j st} (hw : μ ||| 105596586033516 = μ) (h : Keeps μ s0 s) : Keeps μ s0 (failJob s x j st) := by
  unfold failJob
  refine ite_intro (P := Keeps μ s0) (fun _ => ?_) (fun _ => ?_)
  · extract_lets x0 x1
    have h0 : Keeps μ s0 x0 := by
      unfold x0
      refine updJob_keeps (sub hw rfl) ?_
      exact h
    have h1 : Keeps μ s0 x1 := by
      unfold x1
      refine ite_intro (P := Keeps μ s0) (fun _ => ?_) (fun _ => ?_)
      · refine execLost_keeps (sub hw rfl) ?_
        exact h0
      · exact h0
    clear_value x1
    split
    · rename_i y2 y3 y4 e5
      refine endInst_keeps (sub hw rfl) ?_
      exact h1
    · rename_i y6 y7 e8
      exact h1
  · refine cancelJob_keeps (sub hw rfl) ?_
    exact h

theorem failExec_keeps {s exec st} (hw : μ ||| 105596586033516 = μ) (h : Keeps μ s0 s) : Keeps μ s0 (failExec s exec st) := by
  unfold failExec
  split
  · rename_i y0 y1 y2 e3
    refine failJob_keeps (sub hw rfl) ?_
    exact h
  · rename_i y4 e5
    exact h

theorem rollAdvance_keeps {s c r} (hw : μ ||| 16777216 = μ) (h : Keeps μ s0 s) : Keeps μ s0 (rollAdvance s c r) := by
  unfold rollAdvance
  extract_lets x0 x1
  clear_value x0
  have h2 : Keeps μ s0 x1 := by
    unfold x1
    refine setRoll_keeps (sub hw rfl) ?_
    exact h
  clear_value x1
  split
  · rename_i y3 y4 e5
    refine wr_keeps ?_
    exact h2
  · rename_i y6 e7
    exact h2

theorem rollRelease_keeps {s c op} (hw : μ ||| 16777216 = μ) (h : Keeps μ s0 s) : Keeps μ s0 (rollRelease s c op) := by
  unfold rollRelease
  refine foldl_intro (P := Keeps μ s0) ?_ ?_
  · exact h
  · intro x0 x1 h2
    extract_lets x3
    clear_value x3
    refine rollAdvance_keeps (sub hw rfl) ?_
    refine setRoll_keeps (sub hw rfl) ?_
    exact h2

theorem dropOp_keeps {s id} (hw : μ ||| 1073741824 = μ) (h : Keeps μ s0 s) : Keeps μ s0 (dropOp s id) := by
  unfold dropOp
  refine upd_ops (sub hw rfl) ?_
  exact h

theorem opGone_keeps {s op} (hw : μ ||| 1090519040 = μ) (h : Keeps μ s0 s) : Keeps μ s0 (opGone s op) := by
  unfold opGone
  refine rollRelease_keeps (sub hw rfl) ?_
  refine dropOp_keeps (sub hw rfl) ?_
  exact h

end Sys2Proof.Laws
end

