-- ==== Sys2Proof/Laws/Keeps2.lean ====
section
/-!
SUPPORT. The functions of the model keep the queue, the fuses and the canonical memories: part 2.
-/

namespace Sys2Proof.Laws

open Sys2Proof.Machine Sys2Proof.Safety

variable {s0 : State} {α β γ δ : Type} {μ : Nat}

theorem opFail_keeps {s op st injected} (hw : μ ||| 105597659775340 = μ) (h : Keeps μ s0 s) : Keeps μ s0 (opFail s op st injected) := by
  unfold opFail
  extract_lets x0 x1
  clear_value x0
  have h2 : Keeps μ s0 x1 := by
    unfold x1
    refine ite_intro (P := Keeps μ s0) (fun _ => ?_) (fun _ => ?_)
    · refine report_keeps (sub hw rfl) ?_
      exact h
    · refine ite_intro (P := Keeps μ s0) (fun _ => ?_) (fun _ => ?_)
      · refine report_keeps (sub hw rfl) ?_
        exact h
      · exact h
  clear_value x1
  refine ite_intro (P := Keeps μ s0) (fun _ => ?_) (fun _ => ?_)
  · refine updOp_keeps (sub hw rfl) ?_
    exact h2
  · refine failExec_keeps (sub hw rfl) ?_
    refine opGone_keeps (sub hw rfl) ?_
    exact h2

theorem opBegin_keeps {s op l} (hw : μ ||| 105597659775340 = μ) (h : Keeps μ s0 s) : Keeps μ s0 (opBegin s op l) := by
  unfold opBegin
  refine ite_intro (P := Keeps μ s0) (fun _ => ?_) (fun _ => ?_)
  · refine updOp_keeps (sub hw rfl) ?_
    exact h
  · split
    · rename_i y0 y1 y2 e3
      have h4 : Keeps μ s0 y2 := by
        refine of2 e3 ?_
        refine opResolve_keeps (sub hw rfl) ?_
        exact h
      split
      · rename_i y5 y6 e7
        have h8 : Keeps μ s0 y6 := by
          refine of2 e7 ?_
          refine startBlock_keeps (sub hw rfl) ?_
          exact h4
        refine updOp_keeps (sub hw rfl) ?_
        exact h8
      · rename_i y9 y10 y11 e12 e13
        have h14 : Keeps μ s0 y11 := by
          refine of2 e13 ?_
          refine startBlock_keeps (sub hw rfl) ?_
          exact h4
        refine opFail_keeps (sub hw rfl) ?_
        exact h14
    · rename_i y15 y16 y17 y18 e19 e20
      have h21 : Keeps μ s0 y18 := by
        refine of2 e20 ?_
        refine opResolve_keeps (sub hw rfl) ?_
        exact h
      refine opFail_keeps (sub hw rfl) ?_
      exact h21

theorem rollRefer_keeps {s c r op} (hw : μ ||| 16777216 = μ) (h : Keeps μ s0 s) : Keeps μ s0 (rollRefer s c r op) := by
  unfold rollRefer
  extract_lets x0
  clear_value x0
  refine ite_intro (P := Keeps μ s0) (fun _ => ?_) (fun _ => ?_)
  · exact h
  · refine setRoll_keeps (sub hw rfl) ?_
    exact h

theorem rollReserve_keeps {s c r op field exec len frame cls} (hw : μ ||| 16777216 = μ) (h : Keeps μ s0 s) : Keeps μ s0 (rollReserve s c r op field exec len frame cls) := by
  unfold rollReserve
  extract_lets x0 x1 x2
  clear_value x0
  clear_value x1
  have h3 : Keeps μ s0 x2 := by
    unfold x2
    refine setRoll_keeps (sub hw rfl) ?_
    exact h
  clear_value x2
  refine ite_intro (P := Keeps μ s0) (fun _ => ?_) (fun _ => ?_)
  · refine wr_keeps ?_
    exact h3
  · refine bumpSat_keeps ?_
    refine setRoll_keeps (sub hw rfl) ?_
    exact h

theorem opReserve_keeps {s op l} (hw : μ ||| 16777216 = μ) (h : Keeps μ s0 s) : Keeps μ s0 (opReserve s op l) := by
  unfold opReserve
  refine foldl_intro (P := Keeps μ s0) ?_ ?_
  · exact h
  · intro x0 x1 h2
    extract_lets x3
    have h4 : Keeps μ s0 x3 := by
      unfold x3
      refine rollRefer_keeps (sub hw rfl) ?_
      exact h2
    refine ite_intro (P := Keeps μ s0) (fun _ => ?_) (fun _ => ?_)
    · refine rollReserve_keeps (sub hw rfl) ?_
      exact h4
    · exact h4

theorem engStart_keeps {s op} (hw : μ ||| 105597659775340 = μ) (h : Keeps μ s0 s) : Keeps μ s0 (engStart s op) := by
  unfold engStart
  extract_lets x0 x1
  clear_value x0
  clear_value x1
  split
  · rename_i y2 y3 y4 e5
    have h6 : Keeps μ s0 y4 := by
      refine of3 e5 ?_
      refine checkInputs_keeps (sub hw rfl) ?_
      exact h
    extract_lets x7
    clear_value x7
    refine opBegin_keeps (sub hw rfl) ?_
    refine opReserve_keeps (sub hw rfl) ?_
    refine updOp_keeps (sub hw rfl) ?_
    exact h6
  · rename_i y8 y9 y10 y11 e12 e13
    have h14 : Keeps μ s0 y11 := by
      refine of3 e13 ?_
      refine checkInputs_keeps (sub hw rfl) ?_
      exact h
    refine failExec_keeps (sub hw rfl) ?_
    refine opGone_keeps (sub hw rfl) ?_
    exact h14

theorem engKick_keeps {v0 v1 v2 v3} (hw : μ ||| 105597659775340 = μ) (h : Keeps μ s0 v1) : Keeps μ s0 (engKick v0 v1 v2 v3) := by
  induction v0 generalizing v1 v2 v3
  · unfold engKick
    refine engRegs_keeps ?_
    exact h
  · rename_i y15 y16
    unfold engKick
    split
    · rename_i y17 y18 y19 y20 e21 e22
      refine ite_intro (P := Keeps μ s0) (fun _ => ?_) (fun _ => ?_)
      · refine engRegs_keeps ?_
        exact h
      · refine y16 ?_
        refine engStart_keeps (sub hw rfl) ?_
        exact h
    · rename_i y23 y24 e25
      refine engRegs_keeps ?_
      exact h

theorem engNext_keeps {s c e} (hw : μ ||| 105597659775340 = μ) (h : Keeps μ s0 s) : Keeps μ s0 (engNext s c e) := by
  unfold engNext
  refine engKick_keeps (sub hw rfl) ?_
  exact h

theorem applyEngFence_keeps {s c e v} (hw : μ ||| 36134394678739308 = μ) (h : Keeps μ s0 s) : Keeps μ s0 (applyEngFence s c e v) := by
  unfold applyEngFence
  extract_lets x0
  have h1 : Keeps μ s0 x0 := by
    unfold x0
    refine lapseRestart_keeps (sub hw rfl) ?_
    refine applyPlain_keeps ?_
    exact h
  clear_value x0
  refine engNext_keeps (sub hw rfl) ?_
  refine ite_intro (P := Keeps μ s0) (fun _ => ?_) (fun _ => ?_)
  · refine raise_keeps ?_
    exact h1
  · exact h1

theorem jobLost_keeps {s exec st} (hw : μ ||| 105596586033516 = μ) (h : Keeps μ s0 s) : Keeps μ s0 (jobLost s exec st) := by
  unfold jobLost
  split
  · rename_i y0 e1
    exact h
  · rename_i y2 y3 y4 e5
    refine ite_intro (P := Keeps μ s0) (fun _ => ?_) (fun _ => ?_)
    · extract_lets x6
      have h7 : Keeps μ s0 x6 := by
        unfold x6
        refine execLost_keeps (sub hw rfl) ?_
        exact h
      clear_value x6
      refine updJob_keeps (sub hw rfl) ?_
      exact h7
    · refine failExec_keeps (sub hw rfl) ?_
      exact h

theorem setCore_keeps {s k x} (hw : μ ||| 18014398509481984 = μ) (h : Keeps μ s0 s) : Keeps μ s0 (setCore s k x) := by
  unfold setCore
  extract_lets x0
  have h1 : Keeps μ s0 x0 := by
    unfold x0
    refine upd_cores (sub hw rfl) ?_
    exact h
  clear_value x0
  refine wrF_keeps ?_
  exact h1

theorem resetCore_keeps {s k st} (hw : μ ||| 18119995095515500 = μ) (h : Keeps μ s0 s) : Keeps μ s0 (resetCore s k st) := by
  unfold resetCore
  refine foldl_intro (P := Keeps μ s0) ?_ ?_
  · refine setCore_keeps (sub hw rfl) ?_
    exact h
  · intro x0 x1 h2
    refine jobLost_keeps (sub hw rfl) ?_
    exact h2

theorem degrade_keeps {s r} (hw : μ ||| 54148793188221292 = μ) (h : Keeps μ s0 s) : Keeps μ s0 (degrade s r) := by
  unfold degrade
  extract_lets x0 x1
  clear_value x0
  have h2 : ∀ a0, Keeps μ s0 (x1 a0) := by
    intro a0
    unfold x1
    refine ite_intro (P := Keeps μ s0) (fun _ => ?_) (fun _ => ?_)
    · refine applyArrFence_keeps (sub hw rfl) ?_
      exact h
    · refine applyEngFence_keeps (sub hw rfl) ?_
      exact h
  clear_value x1
  refine ite_intro (P := Keeps μ s0) (fun _ => ?_) (fun _ => ?_)
  · refine h2 _
  · refine ite_intro (P := Keeps μ s0) (fun _ => ?_) (fun _ => ?_)
    · refine h2 _
    · refine ite_intro (P := Keeps μ s0) (fun _ => ?_) (fun _ => ?_)
      · refine resetCore_keeps (sub hw rfl) ?_
        exact h
      · exact h

theorem collect_keeps {s r} (hw : μ ||| 64281892349866348 = μ) (h : Keeps μ s0 s) : Keeps μ s0 (collect s r) := by
  unfold collect
  extract_lets x0 x1 x2 x3 x4 x5 x6 x7
  clear_value x0
  clear_value x1
  clear_value x2
  have h8 : Keeps μ s0 x3 := by
    unfold x3
    refine ite_intro (P := Keeps μ s0) (fun _ => ?_) (fun _ => ?_)
    · refine upd_fc (sub hw rfl) ?_
      exact h
    · exact h
  clear_value x3
  have h9 : Keeps μ s0 x4 := by
    unfold x4
    refine countReport_keeps (sub hw rfl) ?_
    exact h8
  clear_value x4
  have h10 : Keeps μ s0 (x5).2 := by
    unfold x5
    refine newRecord_keeps (sub hw rfl) ?_
    exact h9
  clear_value x5
  have h11 : Keeps μ s0 x6 := by
    unfold x6
    refine ite_intro (P := Keeps μ s0) (fun _ => ?_) (fun _ => ?_)
    · refine mergeRecord_keeps (sub hw rfl) ?_
      exact h9
    · exact h10
  clear_value x6
  have h12 : Keeps μ s0 x7 := by
    unfold x7
    refine ite_intro (P := Keeps μ s0) (fun _ => ?_) (fun _ => ?_)
    · refine raise_keeps ?_
      exact h11
    · exact h11
  clear_value x7
  refine ite_intro (P := Keeps μ s0) (fun _ => ?_) (fun _ => ?_)
  · refine forceSafe_keeps (sub hw rfl) ?_
    exact h12
  · refine ite_intro (P := Keeps μ s0) (fun _ => ?_) (fun _ => ?_)
    · refine degrade_keeps (sub hw rfl) ?_
      exact h12
    · exact h12

theorem collectFrom_keeps {s r} (hw : μ ||| 64281892349866348 = μ) (h : Keeps μ s0 s) : Keeps μ s0 (collectFrom s r) := by
  unfold collectFrom
  refine ite_intro (P := Keeps μ s0) (fun _ => ?_) (fun _ => ?_)
  · exact h
  · extract_lets x0
    have h1 : Keeps μ s0 x0 := by
      unfold x0
      refine ite_intro (P := Keeps μ s0) (fun _ => ?_) (fun _ => ?_)
      · refine quietFollow_keeps (sub hw rfl) ?_
        refine wrF_keeps ?_
        exact h
      · exact h
    clear_value x0
    refine collect_keeps (sub hw rfl) ?_
    exact h1

theorem clockLost_keeps {s snt stopped} (hw : μ ||| 64281892349866348 = μ) (h : Keeps μ s0 s) : Keeps μ s0 (clockLost s snt stopped) := by
  unfold clockLost
  extract_lets x0 x1 x2 x3
  have h4 : Keeps μ s0 x0 := by
    unfold x0
    refine raise_keeps ?_
    exact h
  clear_value x0
  have h5 : Keeps μ s0 x1 := by
    unfold x1
    refine wrF_keeps ?_
    exact h4
  clear_value x1
  have h6 : Keeps μ s0 x2 := by
    unfold x2
    refine levelReport_keeps (sub hw rfl) ?_
    refine wrF_keeps ?_
    exact h4
  clear_value x2
  clear_value x3
  refine ite_intro (P := Keeps μ s0) (fun _ => ?_) (fun _ => ?_)
  · refine ite_intro (P := Keeps μ s0) (fun _ => ?_) (fun _ => ?_)
    · exact h5
    · refine collectFrom_keeps (sub hw rfl) ?_
      exact h5
  · refine ite_intro (P := Keeps μ s0) (fun _ => ?_) (fun _ => ?_)
    · refine lanternsOff_keeps (sub hw rfl) ?_
      refine upd_lantern (sub hw rfl) ?_
      exact h6
    · exact h6

theorem pllUnlocked_keeps {s d} (hw : μ ||| 256 = μ) (h : Keeps μ s0 s) : Keeps μ s0 (pllUnlocked s d) := by
  unfold pllUnlocked
  refine ite_intro (P := Keeps μ s0) (fun _ => ?_) (fun _ => ?_)
  · refine levelReport_keeps (sub hw rfl) ?_
    refine raise_keeps ?_
    refine wrF_keeps ?_
    refine wrF_keeps ?_
    exact h
  · exact h

theorem macsecTake_keeps {s n t} (hw : μ ||| 8192 = μ) (h : Keeps μ s0 s) : ∀ r, macsecTake s n t = some r → Keeps μ s0 r := by
  unfold macsecTake
  extract_lets x2
  clear_value x2
  split
  · rename_i e5
    exact none_keeps
  · rename_i e8
    split
    · rename_i y11 y12 e13
      split
      · rename_i e16
        refine some_keeps ?_
        refine setSec_keeps (sub hw rfl) ?_
        exact h
      · rename_i e19
        split
        · rename_i y22 y23 y24 e25
          split
          · rename_i e28
            refine some_keeps ?_
            refine setSec_keeps (sub hw rfl) ?_
            exact h
          · rename_i e31
            exact none_keeps
        · rename_i y34 e35
          exact none_keeps
    · rename_i y38 e39
      exact none_keeps

theorem macsecCheck_keeps {s n cfg f} (hw : μ ||| 8192 = μ) (h : Keeps μ s0 s) : ∀ r, macsecCheck s n cfg f = some r → Keeps μ s0 r := by
  unfold macsecCheck
  split
  · rename_i y2 y3 e4
    split
    · rename_i e7
      refine macsecTake_keeps (sub hw rfl) ?_
      exact h
    · rename_i e10
      exact none_keeps
  · rename_i y13 e14
    split
    · rename_i e17
      exact none_keeps
    · rename_i e20
      refine some_keeps ?_
      exact h

theorem mgtSend_keeps {s r keep} (hw : μ ||| 844424930131968 = μ) (h : Keeps μ s0 s) : Keeps μ s0 (mgtSend s r keep) := by
  unfold mgtSend
  extract_lets x0 x1 x2
  clear_value x0
  clear_value x1
  have h3 : Keeps μ s0 x2 := by
    unfold x2
    refine ite_intro (P := Keeps μ s0) (fun _ => ?_) (fun _ => ?_)
    · refine upd_mgt (sub hw rfl) ?_
      exact h
    · exact h
  clear_value x2
  refine upd_mgtOut (sub hw rfl) ?_
  exact h3

theorem mgtRefuse_keeps {s f op st keep} (hw : μ ||| 844424930131968 = μ) (h : Keeps μ s0 s) : Keeps μ s0 (mgtRefuse s f op st keep) := by
  unfold mgtRefuse
  extract_lets x0
  have h1 : Keeps μ s0 x0 := by
    unfold x0
    refine bumpSat_keeps ?_
    exact h
  clear_value x0
  refine mgtSend_keeps (sub hw rfl) ?_
  refine ite_intro (P := Keeps μ s0) (fun _ => ?_) (fun _ => ?_)
  · refine raise_keeps ?_
    exact h1
  · exact h1

theorem closeSession_keeps {s} (hw : μ ||| 281474976710656 = μ) (h : Keeps μ s0 s) : Keeps μ s0 (closeSession s) := by
  unfold closeSession
  extract_lets x0 x1 x2 x3
  clear_value x0
  clear_value x1
  have h4 : Keeps μ s0 x2 := by
    unfold x2
    refine upd_mgt (sub hw rfl) ?_
    exact h
  clear_value x2
  have h5 : Keeps μ s0 x3 := by
    unfold x3
    refine wrF_keeps ?_
    refine wrF_keeps ?_
    exact h4
  clear_value x3
  refine ite_intro (P := Keeps μ s0) (fun _ => ?_) (fun _ => ?_)
  · refine raise_keeps ?_
    exact h5
  · exact h5

theorem mgtAnswer_keeps {f op inSession r} (hw : μ ||| 844424930131968 = μ) (h : Keeps μ s0 r.2.2) : Keeps μ s0 (mgtAnswer f op inSession r) := by
  unfold mgtAnswer
  extract_lets x0
  have h1 : Keeps μ s0 x0 := by
    unfold x0
    refine ite_intro (P := Keeps μ s0) (fun _ => ?_) (fun _ => ?_)
    · refine mgtRefuse_keeps (sub hw rfl) ?_
      exact h
    · refine mgtSend_keeps (sub hw rfl) ?_
      refine bump_keeps ?_
      exact h
  clear_value x0
  refine ite_intro (P := Keeps μ s0) (fun _ => ?_) (fun _ => ?_)
  · refine closeSession_keeps (sub hw rfl) ?_
    exact h1
  · exact h1

theorem mgtRequest_keeps {s f op need v4} (hw : μ ||| 844424930131968 = μ) (h : Keeps μ s0 s) (hf5 : ∀ a0, Keeps μ s0 a0 → Keeps μ s0 (v4 a0).2.2) : Keeps μ s0 (mgtRequest s f op need v4) := by
  unfold mgtRequest
  extract_lets x0
  clear_value x0
  split
  · rename_i y1 y2 e3
    refine upd_mgtOut (sub hw rfl) ?_
    exact h
  · rename_i y4 e5
    refine ite_intro (P := Keeps μ s0) (fun _ => ?_) (fun _ => ?_)
    · refine mgtRefuse_keeps (sub hw rfl) ?_
      exact h
    · refine ite_intro (P := Keeps μ s0) (fun _ => ?_) (fun _ => ?_)
      · refine mgtRefuse_keeps (sub hw rfl) ?_
        exact h
      · refine mgtAnswer_keeps (sub hw rfl) ?_
        refine hf5 _ ?_
        exact h

theorem mgtTagPass_keeps {s x} (hw : μ ||| 281474976710656 = μ) (h : Keeps μ s0 s) : Keeps μ s0 (mgtTagPass s x) := by
  unfold mgtTagPass
  refine upd_mgt (sub hw rfl) ?_
  exact h

theorem authFail_keeps {s} (h : Keeps μ s0 s) : Keeps μ s0 (authFail s) := by
  unfold authFail
  refine raise_keeps ?_
  refine bumpSat_keeps ?_
  exact h

theorem mgtTagFail_keeps {s x} (hw : μ ||| 281474976710656 = μ) (h : Keeps μ s0 s) : Keeps μ s0 (mgtTagFail s x) := by
  unfold mgtTagFail
  extract_lets x0 x1
  clear_value x0
  have h2 : Keeps μ s0 x1 := by
    unfold x1
    refine authFail_keeps ?_
    refine upd_mgt (sub hw rfl) ?_
    exact h
  clear_value x1
  refine ite_intro (P := Keeps μ s0) (fun _ => ?_) (fun _ => ?_)
  · refine closeSession_keeps (sub hw rfl) ?_
    exact h2
  · exact h2

theorem mgtServe_keeps {s f op need v4} (hw : μ ||| 844424930140160 = μ) (h : Keeps μ s0 s) (hf5 : ∀ a0, Keeps μ s0 a0 → Keeps μ s0 (v4 a0).2.2) : Keeps μ s0 (mgtServe s f op need v4) := by
  unfold mgtServe
  extract_lets x0 x1
  clear_value x0
  clear_value x1
  refine ite_intro (P := Keeps μ s0) (fun _ => ?_) (fun _ => ?_)
  · exact h
  · split
    · rename_i y2 y3 e4
      exact h
    · rename_i y5 y6 y7 e8
      have h9 : Keeps μ s0 y7 := by
        refine ofSome e8 ?_
        refine macsecCheck_keeps (sub hw rfl) ?_
        exact h
      split
      · rename_i y12 y13 e14
        refine ite_intro (P := Keeps μ s0) (fun _ => ?_) (fun _ => ?_)
        · refine mgtRequest_keeps (sub hw rfl) ?_ ?_
          · refine mgtTagPass_keeps (sub hw rfl) ?_
            exact h9
          · intro x15 h16
            refine hf5 _ ?_
            exact h16
        · refine mgtTagFail_keeps (sub hw rfl) ?_
          exact h9
      · rename_i y17 e18
        refine mgtRequest_keeps (sub hw rfl) ?_ ?_
        · exact h9
        · intro x19 h20
          refine hf5 _ ?_
          exact h20

theorem freeRefusal_keeps {s} (h : Keeps μ s0 s) : Keeps μ s0 (freeRefusal s).2.2 := by
  unfold freeRefusal
  refine mk3_keeps ?_
  refine drawFree_keeps ?_
  exact h

theorem renewChallenge_keeps {s} (hw : μ ||| 288230376151711744 = μ) (h : Keeps μ s0 s) : Keeps μ s0 (renewChallenge s) := by
  unfold renewChallenge
  extract_lets x0 x1
  have h2 : Keeps μ s0 x0 := by
    unfold x0
    refine drawFree_keeps ?_
    exact h
  clear_value x0
  clear_value x1
  refine upd_sec (sub hw rfl) ?_
  exact h2

theorem lsRegs_keeps {s} (h : Keeps μ s0 s) : Keeps μ s0 (lsRegs s) := by
  unfold lsRegs
  extract_lets x0
  clear_value x0
  refine wr_keeps ?_
  exact h

theorem lsMismatch_keeps {s p addr injected} (hw : μ ||| 18014407099416832 = μ) (h : Keeps μ s0 s) : Keeps μ s0 (lsMismatch s p addr injected) := by
  unfold lsMismatch
  refine ite_intro (P := Keeps μ s0) (fun _ => ?_) (fun _ => ?_)
  · exact h
  · extract_lets x0 x1 x2 x3 x4
    clear_value x0
    clear_value x1
    have h5 : Keeps μ s0 x2 := by
      unfold x2
      refine lsRegs_keeps ?_
      refine setCore_keeps (sub hw rfl) ?_
      exact h
    clear_value x2
    have h6 : Keeps μ s0 x3 := by
      unfold x3
      refine setRec_keeps (sub hw rfl) ?_
      refine bumpSat_keeps ?_
      exact h5
    clear_value x3
    have h7 : Keeps μ s0 x4 := by
      unfold x4
      refine raise_keeps ?_
      exact h6
    clear_value x4
    refine report_keeps (sub hw rfl) ?_
    exact h7

theorem lsTry_keeps {s} (hw : μ ||| 18014407099416832 = μ) (h : Keeps μ s0 s) : Keeps μ s0 (lsTry s) := by
  unfold lsTry
  extract_lets x0
  clear_value x0
  refine ite_intro (P := Keeps μ s0) (fun _ => ?_) (fun _ => ?_)
  · refine lsMismatch_keeps (sub hw rfl) ?_
    refine drawFree_keeps ?_
    refine wrF_keeps ?_
    exact h
  · exact h

theorem startCore_keeps {s k} (hw : μ ||| 18014407099416832 = μ) (h : Keeps μ s0 s) : Keeps μ s0 (startCore s k) := by
  unfold startCore
  refine lsTry_keeps (sub hw rfl) ?_
  refine lsRegs_keeps ?_
  refine wrF_keeps ?_
  refine setCore_keeps (sub hw rfl) ?_
  exact h

theorem loadCores_keeps {s} (hw : μ ||| 344525380092166400 = μ) (h : Keeps μ s0 s) : Keeps μ s0 (loadCores s) := by
  unfold loadCores
  extract_lets x0 x1 x2 x3 x4 x5 x6 x7 x8 x9 x10
  clear_value x0
  have h11 : Keeps μ s0 x1 := by
    unfold x1
    refine foldl_intro (P := Keeps μ s0) ?_ ?_
    · exact h
    · intro x12 x13 h14
      refine wr_keeps ?_
      exact h14
  clear_value x1
  have h15 : Keeps μ s0 x2 := by
    unfold x2
    refine foldl_intro (P := Keeps μ s0) ?_ ?_
    · refine wr_keeps ?_
      exact h11
    · intro x16 x17 h18
      refine ite_intro (P := Keeps μ s0) (fun _ => ?_) (fun _ => ?_)
      · refine wr_keeps ?_
        exact h18
      · exact h18
  clear_value x2
  clear_value x3
  clear_value x4
  clear_value x5
  clear_value x6
  have h19 : Keeps μ s0 x7 := by
    unfold x7
    refine upd_sntMem_sentry_bist_sec (sub hw rfl) ?_ ?_
    · exact h15
    · exact fun c => putBytes_wf c _ _
  clear_value x7
  have h20 : Keeps μ s0 x8 := by
    unfold x8
    refine wrF_keeps ?_
    refine wr_keeps ?_
    exact h19
  clear_value x8
  clear_value x9
  have h21 : Keeps μ s0 x10 := by
    unfold x10
    refine renewChallenge_keeps (sub hw rfl) ?_
    refine wr_keeps ?_
    exact h20
  clear_value x10
  refine foldl_intro (P := Keeps μ s0) ?_ ?_
  · exact h21
  · intro x22 x23 h24
    refine startCore_keeps (sub hw rfl) ?_
    exact h24

theorem noConfig_keeps {s} (hw : μ ||| 344525380092166400 = μ) (h : Keeps μ s0 s) : Keeps μ s0 (noConfig s) := by
  unfold noConfig
  refine loadCores_keeps (sub hw rfl) ?_
  refine wrF_keeps ?_
  exact h

theorem imageBegin_keeps {f kind n s} (hw : μ ||| 344525380092166400 = μ) (h : Keeps μ s0 s) : Keeps μ s0 (imageBegin f kind n s).2.2 := by
  unfold imageBegin
  refine ite3_keeps (fun _ => ?_) (fun _ => ?_)
  · refine mk3_keeps ?_
    exact h
  · refine ite3_keeps (fun _ => ?_) (fun _ => ?_)
    · refine freeRefusal_keeps ?_
      exact h
    · refine ite3_keeps (fun _ => ?_) (fun _ => ?_)
      · refine mk3_keeps ?_
        refine noConfig_keeps (sub hw rfl) ?_
        exact h
      · refine ite3_keeps (fun _ => ?_) (fun _ => ?_)
        · refine mk3_keeps ?_
          refine upd_sec (sub hw rfl) ?_
          exact h
        · extract_lets x0 x1 x2
          clear_value x0
          have h3 : Keeps μ s0 x1 := by
            unfold x1
            refine romClocks_keeps ?_
            exact h
          clear_value x1
          clear_value x2
          refine mk3_keeps ?_
          refine upd_sec (sub hw rfl) ?_
          exact h3

theorem smSet_foldl_wf (l : List Nat) (k : Nat → Nat) (v : Nat → Byte) {m : List Host.Cell} (h : Memory.wf m) :
    Memory.wf (l.foldl (fun m i => smSet memDefault m (k i) (v i)) m) := by
  induction l generalizing m with
  | nil => exact h
  | cons i t ih => exact ih (smWf_smSet h _ _)

theorem imageChunk_keeps {f o d s} (hw : μ ||| 288230376151711776 = μ) (h : Keeps μ s0 s) : Keeps μ s0 (imageChunk f o d s).2.2 := by
  unfold imageChunk
  refine ite3_keeps (fun _ => mk3_keeps h) (fun _ => ?_)
  split
  · exact freeRefusal_keeps h
  · rename_i x hx
    extract_lets q s1 n fits m
    have h1 : Keeps μ s0 s1 := upd_sec (sub hw rfl) h
    refine ite3_keeps (fun _ => freeRefusal_keeps h1) (fun _ => ?_)
    refine mk3_keeps ?_
    exact upd_mem_sec (sub hw rfl) h1 (fun c => smSet_foldl_wf _ _ _ c)

theorem setImageStatus_keeps {s st} (h : Keeps μ s0 s) : Keeps μ s0 (setImageStatus s st) := by
  unfold setImageStatus
  refine wrF_keeps ?_
  exact h

theorem bitN_or (a b i : Nat) (h : bitN a i = true) : bitN (a ||| b) i = true := by
  rw [bitN_eq_testBit] at h
  rw [bitN_eq_testBit, Nat.testBit_or, h, Bool.true_or]

theorem fuseCommand_grows {f g : Fuses} {e hash : List Byte} (h : fuseCommand f e hash = some g) : FusesGrow f g := by
  unfold fuseCommand at h
  extract_lets slot privs op at h
  split at h
  · exact absurd h (by simp)
  split at h
  · split at h
    · split at h
      · rename_i hn
        cases h
        refine ⟨rfl, rfl, fun i x q => ?_, fun i q => bitN_or _ _ i q, fun _ q => q, Nat.le_refl _, fun q => q, fun q => q⟩
        have hne : i ≠ slot := by
          intro c
          rw [c, hn] at q
          cases q
        rw [smGet_smSet_ne _ _ hne]
        exact q
      · split at h
        · cases h
          exact fusesGrow_refl _
        · cases h
    · cases h
  split at h
  · split at h
    · cases h
      exact ⟨rfl, rfl, fun _ _ q => q, fun _ q => q, fun i q => bitN_or _ _ i q, Nat.le_refl _, fun q => q, fun q => q⟩
    · cases h
  split at h
  · cases h
    exact ⟨rfl, rfl, fun _ _ q => q, fun _ q => q, fun _ q => q, Nat.le_refl _, fun q => q, fun _ => rfl⟩
  split at h
  · cases h
    exact ⟨rfl, rfl, fun _ _ q => q, fun _ q => q, fun _ q => q, Nat.le_refl _, fun _ => rfl, fun q => q⟩
  · cases h

theorem fuseCommands_grow (n : Nat) (f : Fuses) (b : List Byte) : FusesGrow f (fuseCommands n f b).2 := by
  induction n generalizing f b with
  | zero => exact fusesGrow_refl _
  | succ n ih =>
    unfold fuseCommands
    split
    · exact fusesGrow_refl _
    · extract_lets long
      split
      · rename_i g e
        split
        · exact fusesGrow_refl _
        · exact fusesGrow_trans (fuseCommand_grows e) (ih g _)
      · exact fusesGrow_refl _

theorem runFuses_keeps {s b fails} (hw : μ ||| 144115188075855872 = μ) (h : Keeps μ s0 s) : Keeps μ s0 (runFuses s b fails).2 := by
  unfold runFuses
  split
  · exact mk2_keeps h
  · extract_lets r
    refine ite2_keeps (fun _ => mk2_keeps h) (fun _ => mk2_keeps ?_)
    exact upd_fuses (sub hw rfl) h (fuseCommands_grow _ _ _)

theorem bootStop_keeps {s st} (hw : μ ||| 288230376151711744 = μ) (h : Keeps μ s0 s) : Keeps μ s0 (bootStop s st) := by
  unfold bootStop
  extract_lets x0 x1
  have h2 : Keeps μ s0 x0 := by
    unfold x0
    refine setImageStatus_keeps ?_
    exact h
  clear_value x0
  clear_value x1
  refine upd_sec (sub hw rfl) ?_
  exact h2

theorem applyParameters_keeps {s p} (hw : μ ||| 288230376151711744 = μ) (h : Keeps μ s0 s) : Keeps μ s0 (applyParameters s p) := by
  unfold applyParameters
  extract_lets x0 x1 x2 x3 x4 x5
  clear_value x0
  clear_value x1
  have h6 : Keeps μ s0 x2 := by
    unfold x2
    refine wr_keeps ?_
    exact h
  clear_value x2
  clear_value x3
  have h7 : Keeps μ s0 x4 := by
    unfold x4
    refine wrF_keeps ?_
    exact h6
  clear_value x4
  clear_value x5
  refine upd_sec (sub hw rfl) ?_
  exact h7

theorem applySecrets_keeps {s w} (hw : μ ||| 8192 = μ) (h : Keeps μ s0 s) : Keeps μ s0 (applySecrets s w) := by
  unfold applySecrets
  extract_lets x0
  clear_value x0
  refine foldl_intro (P := Keeps μ s0) ?_ ?_
  · exact h
  · intro x1 x2 h3
    refine ite_intro (P := Keeps μ s0) (fun _ => ?_) (fun _ => ?_)
    · refine setSec_keeps (sub hw rfl) ?_
      exact h3
    · exact h3

theorem configAccepted_keeps {s b fails} (hw : μ ||| 488640568168030464 = μ) (h : Keeps μ s0 s) : Keeps μ s0 (configAccepted s b fails) := by
  unfold configAccepted
  split
  · rename_i y0 y1 e2
    have h3 : Keeps μ s0 y1 := by
      refine of2 e2 ?_
      refine runFuses_keeps (sub hw rfl) ?_
      exact h
    refine bootStop_keeps (sub hw rfl) ?_
    exact h3
  · rename_i y4 y5 e6
    have h7 : Keeps μ s0 y5 := by
      refine of2 e6 ?_
      refine runFuses_keeps (sub hw rfl) ?_
      exact h
    extract_lets x8 x9
    have h10 : Keeps μ s0 x8 := by
      unfold x8
      refine applyParameters_keeps (sub hw rfl) ?_
      exact h7
    clear_value x8
    have h11 : Keeps μ s0 x9 := by
      unfold x9
      split
      · rename_i y12 y13 e14
        refine applySecrets_keeps (sub hw rfl) ?_
        exact h10
      · rename_i y15 e16
        exact h10
    clear_value x9
    refine loadCores_keeps (sub hw rfl) ?_
    exact h11

theorem imageAccepted_keeps {s x b fails} (hw : μ ||| 488640568168030464 = μ) (h : Keeps μ s0 s) : Keeps μ s0 (imageAccepted s x b fails) := by
  unfold imageAccepted
  extract_lets x0 x1 x2 x3 x4
  clear_value x0
  have h5 : Keeps μ s0 x1 := by
    unfold x1
    refine setImageStatus_keeps ?_
    exact h
  clear_value x1
  have h6 : Keeps μ s0 x2 := by
    unfold x2
    refine wr_keeps ?_
    refine wr_keeps ?_
    exact h5
  clear_value x2
  clear_value x3
  clear_value x4
  refine ite_intro (P := Keeps μ s0) (fun _ => ?_) (fun _ => ?_)
  · refine wrF_keeps ?_
    refine upd_sec (sub hw rfl) ?_
    exact h6
  · refine configAccepted_keeps (sub hw rfl) ?_
    refine wr_keeps ?_
    refine upd_sec (sub hw rfl) ?_
    exact h5

theorem imageRefused_keeps {s st} (h : Keeps μ s0 s) : Keeps μ s0 (imageRefused s st) := by
  unfold imageRefused
  extract_lets x0
  have h1 : Keeps μ s0 x0 := by
    unfold x0
    refine setImageStatus_keeps ?_
    refine raise_keeps ?_
    exact h
  clear_value x0
  refine ite_intro (P := Keeps μ s0) (fun _ => ?_) (fun _ => ?_)
  · refine authFail_keeps ?_
    exact h1
  · exact h1

theorem imageEnd_keeps {f fails s} (hw : μ ||| 488640568168030464 = μ) (h : Keeps μ s0 s) : Keeps μ s0 (imageEnd f fails s).2.2 := by
  unfold imageEnd
  refine ite3_keeps (fun _ => ?_) (fun _ => ?_)
  · refine mk3_keeps ?_
    exact h
  · split
    · rename_i y0 y1 e2
      refine freeRefusal_keeps ?_
      exact h
    · rename_i y3 y4 y5 e6
      extract_lets x7 x8 x9 x10 x11 x12 x13
      clear_value x7
      clear_value x8
      clear_value x9
      have h14 : Keeps μ s0 x10 := by
        unfold x10
        refine upd_sec (sub hw rfl) ?_
        exact h
      clear_value x10
      clear_value x11
      clear_value x12
      have h15 : Keeps μ s0 x13 := by
        unfold x13
        refine bump_keeps ?_
        refine upd_sec (sub hw rfl) ?_
        exact h14
      clear_value x13
      refine ite3_keeps (fun _ => ?_) (fun _ => ?_)
      · refine mk3_keeps ?_
        refine ite_intro (P := Keeps μ s0) (fun _ => ?_) (fun _ => ?_)
        · refine imageAccepted_keeps (sub hw rfl) ?_
          exact h14
        · refine imageRefused_keeps ?_
          exact h14
      · refine mk3_keeps ?_
        refine raise_keeps ?_
        refine ite_intro (P := Keeps μ s0) (fun _ => ?_) (fun _ => ?_)
        · refine setImageStatus_keeps ?_
          exact h15
        · refine imageRefused_keeps ?_
          exact h15

theorem imageTimeout_keeps {s} (hw : μ ||| 288230376151711744 = μ) (h : Keeps μ s0 s) : Keeps μ s0 (imageTimeout s) := by
  unfold imageTimeout
  split
  · rename_i y0 y1 e2
    refine ite_intro (P := Keeps μ s0) (fun _ => ?_) (fun _ => ?_)
    · refine setImageStatus_keeps ?_
      refine upd_sec (sub hw rfl) ?_
      exact h
    · exact h
  · rename_i y3 e4
    exact h

theorem configTimeout_keeps {s} (hw : μ ||| 344525380092166400 = μ) (h : Keeps μ s0 s) : Keeps μ s0 (configTimeout s) := by
  unfold configTimeout
  split
  · rename_i y0 y1 e2
    refine ite_intro (P := Keeps μ s0) (fun _ => ?_) (fun _ => ?_)
    · refine noConfig_keeps (sub hw rfl) ?_
      exact h
    · exact h
  · rename_i y3 e4
    exact h

theorem copyImage_keeps {s kind a i} (hw : μ ||| 32 = μ) (h : Keeps μ s0 s) : Keeps μ s0 (copyImage s kind a i) := by
  unfold copyImage
  split
  · rename_i y0 y1
    refine memPut_keeps (sub hw rfl) ?_
    exact h
  · rename_i y2
    exact h

theorem trainingEnds_keeps {s failed} (hw : μ ||| 288230376151711776 = μ) (h : Keeps μ s0 s) : Keeps μ s0 (trainingEnds s failed) := by
  unfold trainingEnds
  refine ite_intro (P := Keeps μ s0) (fun _ => ?_) (fun _ => ?_)
  · exact h
  · extract_lets x0 x1
    have h2 : Keeps μ s0 x0 := by
      unfold x0
      refine foldl_intro (P := Keeps μ s0) ?_ ?_
      · exact h
      · intro x3 x4 h5
        refine wrF_keeps ?_
        exact h5
    clear_value x0
    have h6 : Keeps μ s0 x1 := by
      unfold x1
      refine wrF_keeps ?_
      exact h2
    clear_value x1
    refine ite_intro (P := Keeps μ s0) (fun _ => ?_) (fun _ => ?_)
    · refine wrF_keeps ?_
      refine copyImage_keeps (sub hw rfl) ?_
      refine copyImage_keeps (sub hw rfl) ?_
      exact h6
    · refine bootStop_keeps (sub hw rfl) ?_
      refine wrF_keeps ?_
      exact h6

theorem bistFound_keeps {s u} (hw : μ ||| 352512268501578092 = μ) (h : Keeps μ s0 s) : Keeps μ s0 (bistFound s u) := by
  unfold bistFound
  extract_lets x0 x1 x2 x3
  clear_value x0
  have h4 : Keeps μ s0 x1 := by
    unfold x1
    refine wrF_keeps ?_
    exact h
  clear_value x1
  clear_value x2
  have h5 : Keeps μ s0 (x3).2 := by
    unfold x3
    refine newRecord_keeps (sub hw rfl) ?_
    refine countReport_keeps (sub hw rfl) ?_
    exact h4
  clear_value x3
  refine ite_intro (P := Keeps μ s0) (fun _ => ?_) (fun _ => ?_)
  · refine collect_keeps (sub hw rfl) ?_
    refine upd_sec (sub hw rfl) ?_
    exact h4
  · refine forceSafe_keeps (sub hw rfl) ?_
    exact h5

theorem guardRefused_keeps {s p} (h : Keeps μ s0 s) : Keeps μ s0 (guardRefused s p) := by
  unfold guardRefused
  refine ite_intro (P := Keeps μ s0) (fun _ => ?_) (fun _ => ?_)
  · refine raise_keeps ?_
    exact h
  · exact h

theorem writePageCtl_keeps {s p v signed} (h : Keeps μ s0 s) : Keeps μ s0 (writePageCtl s p v signed) := by
  unfold writePageCtl
  extract_lets x0
  have h1 : Keeps μ s0 x0 := by
    unfold x0
    split
    · rename_i y2 y3 e4
      refine ite_intro (P := Keeps μ s0) (fun _ => ?_) (fun _ => ?_)
      · refine wrShadow_keeps ?_
        exact h
      · exact h
    · rename_i y5 e6
      exact h
  clear_value x0
  refine ite_intro (P := Keeps μ s0) (fun _ => ?_) (fun _ => ?_)
  · exact h1
  · refine ite_intro (P := Keeps μ s0) (fun _ => ?_) (fun _ => ?_)
    · refine guardRefused_keeps ?_
      exact h1
    · refine wrF_keeps ?_
      exact h1

theorem writeEvtAck_keeps {s p mask seq} (h : Keeps μ s0 s) : Keeps μ s0 (writeEvtAck s p mask seq) := by
  unfold writeEvtAck
  refine ite_intro (P := Keeps μ s0) (fun _ => ?_) (fun _ => ?_)
  · exact h
  · extract_lets x0 x1 x2
    clear_value x0
    clear_value x1
    have h3 : Keeps μ s0 x2 := by
      unfold x2
      refine wr_keeps ?_
      refine wr_keeps ?_
      exact h
    clear_value x2
    refine ite_intro (P := Keeps μ s0) (fun _ => ?_) (fun _ => ?_)
    · refine ite_intro (P := Keeps μ s0) (fun _ => ?_) (fun _ => ?_)
      · refine wrF_keeps ?_
        exact h3
      · exact h3
    · refine wr_keeps ?_
      exact h

theorem writeMbxSel_keeps {s p sel} (h : Keeps μ s0 s) : Keeps μ s0 (writeMbxSel s p sel) := by
  unfold writeMbxSel
  refine ite_intro (P := Keeps μ s0) (fun _ => ?_) (fun _ => ?_)
  · exact h
  · extract_lets x0 x1 x2 x3
    have h4 : Keeps μ s0 x0 := by
      unfold x0
      refine wr_keeps ?_
      exact h
    clear_value x0
    have h5 : Keeps μ s0 x1 := by
      unfold x1
      refine wrF_keeps ?_
      exact h4
    clear_value x1
    clear_value x2
    clear_value x3
    refine upd_keeps ?_
    exact h5

theorem dropUnlock_keeps {s p ag} (h : Keeps μ s0 s) : Keeps μ s0 (dropUnlock s p ag) := by
  unfold dropUnlock
  refine upd_keeps ?_
  exact h

theorem writeKey_keeps {s ag p v} (h : Keeps μ s0 s) : Keeps μ s0 (writeKey s ag p v) := by
  unfold writeKey
  refine ite_intro (P := Keeps μ s0) (fun _ => ?_) (fun _ => ?_)
  · exact h
  · refine ite_intro (P := Keeps μ s0) (fun _ => ?_) (fun _ => ?_)
    · refine guardRefused_keeps ?_
      exact h
    · extract_lets x0 x1
      have h2 : Keeps μ s0 x0 := by
        unfold x0
        refine dropUnlock_keeps ?_
        exact h
      clear_value x0
      clear_value x1
      refine ite_intro (P := Keeps μ s0) (fun _ => ?_) (fun _ => ?_)
      · refine upd_keeps ?_
        exact h2
      · refine guardRefused_keeps ?_
        exact h2

theorem writeLock_keeps {s p v} (h : Keeps μ s0 s) : Keeps μ s0 (writeLock s p v) := by
  unfold writeLock
  refine ite_intro (P := Keeps μ s0) (fun _ => ?_) (fun _ => ?_)
  · refine wr_keeps ?_
    exact h
  · exact h

theorem applyHeader_keeps {s ag a v} (h : Keeps μ s0 s) : Keeps μ s0 (applyHeader s ag a v) := by
  unfold applyHeader
  extract_lets x0 x1
  clear_value x0
  clear_value x1
  refine ite_intro (P := Keeps μ s0) (fun _ => ?_) (fun _ => ?_)
  · refine writePageCtl_keeps ?_
    exact h
  · refine ite_intro (P := Keeps μ s0) (fun _ => ?_) (fun _ => ?_)
    · refine writeEvtAck_keeps ?_
      exact h
    · refine ite_intro (P := Keeps μ s0) (fun _ => ?_) (fun _ => ?_)
      · refine wr_keeps ?_
        exact h
      · refine ite_intro (P := Keeps μ s0) (fun _ => ?_) (fun _ => ?_)
        · refine writeMbxSel_keeps ?_
          exact h
        · refine ite_intro (P := Keeps μ s0) (fun _ => ?_) (fun _ => ?_)
          · refine writeKey_keeps ?_
            exact h
          · refine ite_intro (P := Keeps μ s0) (fun _ => ?_) (fun _ => ?_)
            · refine writeLock_keeps ?_
              exact h
            · exact h

theorem copyShadow_keeps {s g} (h : Keeps μ s0 s) : Keeps μ s0 (copyShadow s g) := by
  unfold copyShadow
  extract_lets x0 x1 x2
  clear_value x0
  clear_value x1
  clear_value x2
  refine upd_keeps ?_
  exact h

theorem setGroup_keeps {s g x} (h : Keeps μ s0 s) : Keeps μ s0 (setGroup s g x) := by
  unfold setGroup
  refine wrF_keeps ?_
  refine upd_keeps ?_
  exact h

theorem strobeGroup_keeps {s g} (h : Keeps μ s0 s) : Keeps μ s0 (strobeGroup s g) := by
  unfold strobeGroup
  extract_lets x0 x1 x2 x3 x4
  clear_value x0
  have h5 : Keeps μ s0 x1 := by
    unfold x1
    refine copyShadow_keeps ?_
    exact h
  clear_value x1
  clear_value x2
  clear_value x3
  have h6 : Keeps μ s0 x4 := by
    unfold x4
    refine setGroup_keeps ?_
    exact h5
  clear_value x4
  refine ite_intro (P := Keeps μ s0) (fun _ => ?_) (fun _ => ?_)
  · refine raise_keeps ?_
    exact h6
  · exact h6

theorem writeStrobe_keeps {s mask} (h : Keeps μ s0 s) : Keeps μ s0 (writeStrobe s mask) := by
  unfold writeStrobe
  refine foldl_intro (P := Keeps μ s0) ?_ ?_
  · exact h
  · intro x0 x1 h2
    refine ite_intro (P := Keeps μ s0) (fun _ => ?_) (fun _ => ?_)
    · refine strobeGroup_keeps ?_
      exact h2
    · exact h2

theorem applyDetCtl_keeps {s v} (h : Keeps μ s0 s) : Keeps μ s0 (applyDetCtl s v) := by
  unfold applyDetCtl
  extract_lets x0
  clear_value x0
  refine ite_intro (P := Keeps μ s0) (fun _ => ?_) (fun _ => ?_)
  · exact h
  · refine ite_intro (P := Keeps μ s0) (fun _ => ?_) (fun _ => ?_)
    · refine raise_keeps ?_
      refine wrF_keeps ?_
      exact h
    · refine wr_keeps ?_
      refine wr_keeps ?_
      exact h

theorem setFg_keeps {s g x} (hw : μ ||| 512 = μ) (h : Keeps μ s0 s) : Keeps μ s0 (setFg s g x) := by
  unfold setFg
  refine upd_fgs (sub hw rfl) ?_
  exact h

theorem leaveReplay_keeps {s} (hw : μ ||| 1536 = μ) (h : Keeps μ s0 s) : Keeps μ s0 (leaveReplay s) := by
  unfold leaveReplay
  refine ite_intro (P := Keeps μ s0) (fun _ => ?_) (fun _ => ?_)
  · refine upd_rr (sub hw rfl) ?_
    exact h
  · extract_lets x0 x1
    clear_value x0
    have h2 : Keeps μ s0 x1 := by
      unfold x1
      refine upd_rr (sub hw rfl) ?_
      exact h
    clear_value x1
    refine foldl_intro (P := Keeps μ s0) ?_ ?_
    · exact h2
    · intro x3 x4 h5
      refine ite_intro (P := Keeps μ s0) (fun _ => ?_) (fun _ => ?_)
      · extract_lets x6
        clear_value x6
        refine wr_keeps ?_
        refine setFg_keeps (sub hw rfl) ?_
        exact h5
      · exact h5

theorem rrOff_keeps {s v} (hw : μ ||| 1536 = μ) (h : Keeps μ s0 s) : Keeps μ s0 (rrOff s v) := by
  unfold rrOff
  refine wr_keeps ?_
  refine leaveReplay_keeps (sub hw rfl) ?_
  exact h

theorem rrRecord_keeps {s v} (hw : μ ||| 1536 = μ) (h : Keeps μ s0 s) : Keeps μ s0 (rrRecord s v) := by
  unfold rrRecord
  extract_lets x0 x1
  clear_value x0
  have h2 : Keeps μ s0 x1 := by
    unfold x1
    refine wr_keeps ?_
    refine leaveReplay_keeps (sub hw rfl) ?_
    exact h
  clear_value x1
  refine ite_intro (P := Keeps μ s0) (fun _ => ?_) (fun _ => ?_)
  · exact h2
  · refine wr_keeps ?_
    refine wr_keeps ?_
    refine upd_rr (sub hw rfl) ?_
    exact h2

theorem rrReplay_keeps {s v} (hw : μ ||| 1024 = μ) (h : Keeps μ s0 s) : Keeps μ s0 (rrReplay s v) := by
  unfold rrReplay
  extract_lets x0 x1
  clear_value x0
  clear_value x1
  refine ite_intro (P := Keeps μ s0) (fun _ => ?_) (fun _ => ?_)
  · refine wr_keeps ?_
    refine upd_rr (sub hw rfl) ?_
    exact h
  · refine raise_keeps ?_
    exact h

theorem applyRrCtl_keeps {s v} (hw : μ ||| 1536 = μ) (h : Keeps μ s0 s) : Keeps μ s0 (applyRrCtl s v) := by
  unfold applyRrCtl
  split
  · rename_i y0 e1
    refine rrOff_keeps (sub hw rfl) ?_
    exact h
  · rename_i y2 e3
    refine rrRecord_keeps (sub hw rfl) ?_
    exact h
  · rename_i y4 e5
    refine rrReplay_keeps (sub hw rfl) ?_
    exact h
  · rename_i y6 e7 e8 e9
    refine wr_keeps ?_
    exact h

theorem replayGroup_keeps {s delta g t} (hw : μ ||| 512 = μ) (h : Keeps μ s0 s) : Keeps μ s0 (replayGroup s delta g t) := by
  unfold replayGroup
  extract_lets x0 x1
  clear_value x0
  clear_value x1
  refine wr_keeps ?_
  refine setFg_keeps (sub hw rfl) ?_
  exact h

theorem replayStart_keeps {s} (hw : μ ||| 1536 = μ) (h : Keeps μ s0 s) : Keeps μ s0 (replayStart s) := by
  unfold replayStart
  split
  · rename_i y0 y1 y2 y3 y4 y5 e6
    extract_lets x7 x8 x9
    clear_value x7
    clear_value x8
    have h10 : Keeps μ s0 x9 := by
      unfold x9
      refine upd_rr (sub hw rfl) ?_
      exact h
    clear_value x9
    refine foldl_intro (P := Keeps μ s0) ?_ ?_
    · exact h10
    · intro x11 x12 h13
      refine ite_intro (P := Keeps μ s0) (fun _ => ?_) (fun _ => ?_)
      · refine replayGroup_keeps (sub hw rfl) ?_
        exact h13
      · exact h13
  · rename_i y14 e15
    exact h

theorem fgEnable_keeps {s g} (hw : μ ||| 1125899906844160 = μ) (h : Keeps μ s0 s) : Keeps μ s0 (fgEnable s g) := by
  unfold fgEnable
  refine ite_intro (P := Keeps μ s0) (fun _ => ?_) (fun _ => ?_)
  · exact h
  · refine ite_intro (P := Keeps μ s0) (fun _ => ?_) (fun _ => ?_)
    · refine raise_keeps ?_
      exact h
    · extract_lets x0 x1 x2 x3 x4 x5 x6
      have h7 : Keeps μ s0 x0 := by
        unfold x0
        refine wr_keeps ?_
        exact h
      clear_value x0
      clear_value x1
      clear_value x2
      have h8 : Keeps μ s0 x3 := by
        unfold x3
        refine setFg_keeps (sub hw rfl) ?_
        exact h7
      clear_value x3
      have h9 : Keeps μ s0 x4 := by
        unfold x4
        refine wr_keeps ?_
        exact h8
      clear_value x4
      clear_value x5
      have h10 : Keeps μ s0 x6 := by
        unfold x6
        refine ite_intro (P := Keeps μ s0) (fun _ => ?_) (fun _ => ?_)
        · refine wrF_keeps ?_
          refine upd_comp (sub hw rfl) ?_
          exact h9
        · exact h9
      clear_value x6
      refine ite_intro (P := Keeps μ s0) (fun _ => ?_) (fun _ => ?_)
      · split
        · rename_i y11 y12 y13 y14 y15 e16
          refine replayGroup_keeps (sub hw rfl) ?_
          exact h10
        · rename_i y17 y18 y19 y20 e21
          refine ite_intro (P := Keeps μ s0) (fun _ => ?_) (fun _ => ?_)
          · refine replayStart_keeps (sub hw rfl) ?_
            exact h10
          · exact h10
      · exact h10

theorem camResume_keeps {s} (h : Keeps μ s0 s) : Keeps μ s0 (camResume s) := by
  unfold camResume
  refine wr_keeps ?_
  exact h

theorem lanternsDue_keeps {s} (hw : μ ||| 9007199254740992 = μ) (h : Keeps μ s0 s) : Keeps μ s0 (lanternsDue s) := by
  unfold lanternsDue
  extract_lets x0 x1
  clear_value x0
  clear_value x1
  refine ite_intro (P := Keeps μ s0) (fun _ => ?_) (fun _ => ?_)
  · refine upd_lantern (sub hw rfl) ?_
    exact h
  · exact h

theorem leaveSafe_keeps {s k} (hw : μ ||| 10133099161583872 = μ) (h : Keeps μ s0 s) : Keeps μ s0 (leaveSafe s k) := by
  unfold leaveSafe
  extract_lets x0 x1 x2 x3 x4 x5
  clear_value x0
  have h6 : Keeps μ s0 x1 := by
    unfold x1
    refine upd_fc (sub hw rfl) ?_
    exact h
  clear_value x1
  have h7 : Keeps μ s0 x2 := by
    unfold x2
    refine wrF_keeps ?_
    refine wrF_keeps ?_
    refine bump_keeps ?_
    exact h6
  clear_value x2
  have h8 : Keeps μ s0 x3 := by
    unfold x3
    refine camResume_keeps ?_
    refine lanternsDue_keeps (sub hw rfl) ?_
    refine raise_keeps ?_
    exact h7
  clear_value x3
  clear_value x4
  have h9 : Keeps μ s0 x5 := by
    unfold x5
    refine wrF_keeps ?_
    refine wrF_keeps ?_
    refine upd_comp (sub hw rfl) ?_
    exact h8
  clear_value x5
  refine sendEvent_keeps ?_
  exact h9

theorem exitSafe_keeps {s k} (hw : μ ||| 10133099161583872 = μ) (h : Keeps μ s0 s) : Keeps μ s0 (exitSafe s k) := by
  unfold exitSafe
  refine ite_intro (P := Keeps μ s0) (fun _ => ?_) (fun _ => ?_)
  · extract_lets x0 x1
    clear_value x0
    have h2 : Keeps μ s0 x1 := by
      unfold x1
      refine newRecord_keeps (sub hw rfl) ?_
      refine countReport_keeps (sub hw rfl) ?_
      exact h
    clear_value x1
    refine latchFatal_keeps (sub hw rfl) ?_
    exact h2
  · refine leaveSafe_keeps (sub hw rfl) ?_
    exact h

theorem exitAtDisable_keeps {s} (hw : μ ||| 10133099161583872 = μ) (h : Keeps μ s0 s) : Keeps μ s0 (exitAtDisable s) := by
  unfold exitAtDisable
  refine ite_intro (P := Keeps μ s0) (fun _ => ?_) (fun _ => ?_)
  · refine exitSafe_keeps (sub hw rfl) ?_
    exact h
  · exact h

theorem replayDone_keeps {s} (hw : μ ||| 1024 = μ) (h : Keeps μ s0 s) : Keeps μ s0 (replayDone s) := by
  unfold replayDone
  refine ite_intro (P := Keeps μ s0) (fun _ => ?_) (fun _ => ?_)
  · extract_lets x0 x1
    clear_value x0
    have h2 : Keeps μ s0 x1 := by
      unfold x1
      refine wrF_keeps ?_
      refine upd_rr (sub hw rfl) ?_
      exact h
    clear_value x1
    refine sendEvent_keeps ?_
    refine raise_keeps ?_
    exact h2
  · exact h

theorem releaseBoundary_keeps {s fg d} (h : Keeps μ s0 s) : Keeps μ s0 (releaseBoundary s fg d) := by
  unfold releaseBoundary
  refine foldl_intro (P := Keeps μ s0) ?_ ?_
  · exact h
  · intro x0 x1 h2
    extract_lets x3
    clear_value x3
    refine ite_intro (P := Keeps μ s0) (fun _ => ?_) (fun _ => ?_)
    · refine setGroup_keeps ?_
      exact h2
    · exact h2

theorem fgDisable_keeps {s g} (hw : μ ||| 10133099161585408 = μ) (h : Keeps μ s0 s) : Keeps μ s0 (fgDisable s g) := by
  unfold fgDisable
  refine ite_intro (P := Keeps μ s0) (fun _ => ?_) (fun _ => ?_)
  · extract_lets x0 x1
    have h2 : Keeps μ s0 x0 := by
      unfold x0
      refine wr_keeps ?_
      refine wr_keeps ?_
      exact h
    clear_value x0
    have h3 : Keeps μ s0 x1 := by
      unfold x1
      refine setFg_keeps (sub hw rfl) ?_
      exact h2
    clear_value x1
    refine exitAtDisable_keeps (sub hw rfl) ?_
    refine replayDone_keeps (sub hw rfl) ?_
    refine releaseBoundary_keeps ?_
    exact h3
  · exact h

theorem applyFgCtl_keeps {s g v} (hw : μ ||| 10133099161585408 = μ) (h : Keeps μ s0 s) : Keeps μ s0 (applyFgCtl s g v) := by
  unfold applyFgCtl
  refine ite_intro (P := Keeps μ s0) (fun _ => ?_) (fun _ => ?_)
  · refine fgEnable_keeps (sub hw rfl) ?_
    exact h
  · refine fgDisable_keeps (sub hw rfl) ?_
    exact h

theorem applyEpochHi_keeps {s v} (h : Keeps μ s0 s) : Keeps μ s0 (applyEpochHi s v) := by
  unfold applyEpochHi
  extract_lets x0
  have h1 : Keeps μ s0 x0 := by
    unfold x0
    refine applyPlain_keeps ?_
    exact h
  clear_value x0
  refine ite_intro (P := Keeps μ s0) (fun _ => ?_) (fun _ => ?_)
  · refine wrF_keeps ?_
    exact h1
  · exact h1

theorem applyCap_keeps {s v} (h : Keeps μ s0 s) : Keeps μ s0 (applyCap s v) := by
  unfold applyCap
  extract_lets x0 x1
  clear_value x0
  clear_value x1
  refine wrF_keeps ?_
  refine wr_keeps ?_
  exact h

theorem wakeDeep_keeps {s} (h : Keeps μ s0 s) : Keeps μ s0 (wakeDeep s) := by
  unfold wakeDeep
  refine foldl_intro (P := Keeps μ s0) ?_ ?_
  · exact h
  · intro x0 x1 h2
    refine ite_intro (P := Keeps μ s0) (fun _ => ?_) (fun _ => ?_)
    · refine wakeRequest_keeps ?_
      exact h2
    · exact h2

theorem applyPmWake_keeps {s a v} (h : Keeps μ s0 s) : Keeps μ s0 (applyPmWake s a v) := by
  unfold applyPmWake
  refine wakeDeep_keeps ?_
  refine applyPlain_keeps ?_
  exact h

theorem fusesGrow_counter (f : Fuses) {n : Nat} (h : f.counter < n) : FusesGrow f { f with counter := n } :=
  ⟨rfl, rfl, fun _ _ q => q, fun _ q => q, fun _ q => q, Nat.le_of_lt h, fun q => q, fun q => q⟩

theorem svnCommit_keeps {s ag v} (hw : μ ||| 144115188075855872 = μ) (h : Keeps μ s0 s) : Keeps μ s0 (svnCommit s ag v).2 := by
  unfold svnCommit
  extract_lets x0
  refine ite2_keeps (fun _ => mk2_keeps h) (fun _ => ?_)
  refine ite2_keeps (fun c => ?_) (fun _ => mk2_keeps h)
  refine mk2_keeps (wrF_keeps ?_)
  exact upd_fuses (sub hw rfl) h (fusesGrow_counter _ c.2.2)

theorem wdRestart_keeps {s k} (hw : μ ||| 18014398509481984 = μ) (h : Keeps μ s0 s) : Keeps μ s0 (wdRestart s k) := by
  unfold wdRestart
  refine setCore_keeps (sub hw rfl) ?_
  exact h

theorem wdExpire_keeps {s k} (hw : μ ||| 306526249637904640 = μ) (h : Keeps μ s0 s) : Keeps μ s0 (wdExpire s k) := by
  unfold wdExpire
  extract_lets x0 x1 x2
  have h3 : Keeps μ s0 x0 := by
    unfold x0
    refine wrF_keeps ?_
    refine bumpSat_keeps ?_
    exact h
  clear_value x0
  have h4 : Keeps μ s0 x1 := by
    unfold x1
    refine report_keeps (sub hw rfl) ?_
    refine raise_keeps ?_
    exact h3
  clear_value x1
  clear_value x2
  refine ite_intro (P := Keeps μ s0) (fun _ => ?_) (fun _ => ?_)
  · refine setCore_keeps (sub hw rfl) ?_
    refine closeSession_keeps (sub hw rfl) ?_
    refine upd_sec (sub hw rfl) ?_
    exact h4
  · refine ite_intro (P := Keeps μ s0) (fun _ => ?_) (fun _ => ?_)
    · refine setCore_keeps (sub hw rfl) ?_
      exact h4
    · exact h4

theorem wdKick_keeps {s ag k token} (hw : μ ||| 306526249637904640 = μ) (h : Keeps μ s0 s) : Keeps μ s0 (wdKick s ag k token) := by
  unfold wdKick
  extract_lets x0 x1 x2 x3 x4
  clear_value x0
  clear_value x1
  clear_value x2
  clear_value x3
  clear_value x4
  refine ite_intro (P := Keeps μ s0) (fun _ => ?_) (fun _ => ?_)
  · exact h
  · refine ite_intro (P := Keeps μ s0) (fun _ => ?_) (fun _ => ?_)
    · refine wdRestart_keeps (sub hw rfl) ?_
      refine wrF_keeps ?_
      exact h
    · refine wdExpire_keeps (sub hw rfl) ?_
      refine wdRestart_keeps (sub hw rfl) ?_
      exact h

theorem applyBase_keeps {s ag cls a v is} (hw : μ ||| 460774536875345664 = μ) (h : Keeps μ s0 s) : Keeps μ s0 (applyBase s ag cls a v is) := by
  unfold applyBase
  extract_lets x0
  clear_value x0
  refine ite_intro (P := Keeps μ s0) (fun _ => ?_) (fun _ => ?_)
  · refine writeStrobe_keeps ?_
    exact h
  · refine ite_intro (P := Keeps μ s0) (fun _ => ?_) (fun _ => ?_)
    · refine applyDetCtl_keeps ?_
      exact h
    · refine ite_intro (P := Keeps μ s0) (fun _ => ?_) (fun _ => ?_)
      · refine applyRrCtl_keeps (sub hw rfl) ?_
        exact h
      · refine ite_intro (P := Keeps μ s0) (fun _ => ?_) (fun _ => ?_)
        · refine applyFgCtl_keeps (sub hw rfl) ?_
          exact h
        · refine ite_intro (P := Keeps μ s0) (fun _ => ?_) (fun _ => ?_)
          · refine applyEpochHi_keeps ?_
            exact h
          · refine ite_intro (P := Keeps μ s0) (fun _ => ?_) (fun _ => ?_)
            · refine applyCap_keeps ?_
              exact h
            · refine ite_intro (P := Keeps μ s0) (fun _ => ?_) (fun _ => ?_)
              · refine applyPmWake_keeps ?_
                exact h
              · refine ite_intro (P := Keeps μ s0) (fun _ => ?_) (fun _ => ?_)
                · refine svnCommit_keeps (sub hw rfl) ?_
                  exact h
                · refine ite_intro (P := Keeps μ s0) (fun _ => ?_) (fun _ => ?_)
                  · refine wdKick_keeps (sub hw rfl) ?_
                    exact h
                  · refine applyPlain_keeps ?_
                    exact h

theorem applyPodRingCfg_keeps {s v} (h : Keeps μ s0 s) : Keeps μ s0 (applyPodRingCfg s v) := by
  unfold applyPodRingCfg
  refine ite_intro (P := Keeps μ s0) (fun _ => ?_) (fun _ => ?_)
  · refine applyPlain_keeps ?_
    exact h
  · exact h

theorem applyResync_keeps {s v} (hw : μ ||| 8 = μ) (h : Keeps μ s0 s) : Keeps μ s0 (applyResync s v) := by
  unfold applyResync
  refine ite_intro (P := Keeps μ s0) (fun _ => ?_) (fun _ => ?_)
  · refine wrF_keeps ?_
    refine wr_keeps ?_
    refine upd_pods (sub hw rfl) ?_
    exact h
  · exact h

theorem retainTrim_keeps {s} (hw : μ ||| 8 = μ) (h : Keeps μ s0 s) : Keeps μ s0 (retainTrim s) := by
  unfold retainTrim
  extract_lets x0 x1
  clear_value x0
  clear_value x1
  refine bumpSat_keeps ?_
  refine upd_pods (sub hw rfl) ?_
  exact h

theorem applyRetainCfg_keeps {s v} (hw : μ ||| 8 = μ) (h : Keeps μ s0 s) : Keeps μ s0 (applyRetainCfg s v) := by
  unfold applyRetainCfg
  refine retainTrim_keeps (sub hw rfl) ?_
  refine applyPlain_keeps ?_
  exact h

theorem readyToRing_keeps {s} (hw : μ ||| 288230376151711744 = μ) (h : Keeps μ s0 s) : Keeps μ s0 (readyToRing s) := by
  unfold readyToRing
  split
  · rename_i y0 y1 e2
    refine ite_intro (P := Keeps μ s0) (fun _ => ?_) (fun _ => ?_)
    · refine enqueue_keeps ?_
      refine upd_sec (sub hw rfl) ?_
      exact h
    · exact h
  · rename_i y3 e4
    exact h

theorem dropPod_keeps {s r p never} (hw : μ ||| 256 = μ) (h : Keeps μ s0 s) : Keeps μ s0 (dropPod s r p never) := by
  unfold dropPod
  refine ite_intro (P := Keeps μ s0) (fun _ => ?_) (fun _ => ?_)
  · refine dropResult_keeps (sub hw rfl) ?_
    exact h
  · refine loseEvent_keeps ?_
    exact h

theorem ringDisable_keeps {s r} (hw : μ ||| 288230376151712000 = μ) (h : Keeps μ s0 s) : Keeps μ s0 (ringDisable s r) := by
  unfold ringDisable
  extract_lets x0 x1 x2
  clear_value x0
  clear_value x1
  have h3 : Keeps μ s0 x2 := by
    unfold x2
    refine setRing_keeps ?_
    refine wrF_keeps ?_
    exact h
  clear_value x2
  refine foldl_intro (P := Keeps μ s0) ?_ ?_
  · exact h3
  · intro x4 x5 h6
    refine ite_intro (P := Keeps μ s0) (fun _ => ?_) (fun _ => ?_)
    · refine upd_sec (sub hw rfl) ?_
      exact h6
    · refine dropPod_keeps (sub hw rfl) ?_
      exact h6

theorem applyRingCfg_keeps {s r v} (hw : μ ||| 288230376151712000 = μ) (h : Keeps μ s0 s) : Keeps μ s0 (applyRingCfg s r v) := by
  unfold applyRingCfg
  refine ite_intro (P := Keeps μ s0) (fun _ => ?_) (fun _ => ?_)
  · refine ite_intro (P := Keeps μ s0) (fun _ => ?_) (fun _ => ?_)
    · exact h
    · refine ringDisable_keeps (sub hw rfl) ?_
      exact h
  · extract_lets x0
    have h1 : Keeps μ s0 x0 := by
      unfold x0
      refine applyPlain_keeps ?_
      exact h
    clear_value x0
    refine ite_intro (P := Keeps μ s0) (fun _ => ?_) (fun _ => ?_)
    · refine readyToRing_keeps (sub hw rfl) ?_
      exact h1
    · exact h1

theorem rollZero_keeps {s c r} (h : Keeps μ s0 s) : Keeps μ s0 (rollZero s c r) := by
  unfold rollZero
  refine wr_keeps ?_
  refine wr_keeps ?_
  refine wr_keeps ?_
  exact h

theorem applyRollCtl_keeps {s c r v} (h : Keeps μ s0 s) : Keeps μ s0 (applyRollCtl s c r v) := by
  unfold applyRollCtl
  refine ite_intro (P := Keeps μ s0) (fun _ => ?_) (fun _ => ?_)
  · exact h
  · refine ite_intro (P := Keeps μ s0) (fun _ => ?_) (fun _ => ?_)
    · refine ite_intro (P := Keeps μ s0) (fun _ => ?_) (fun _ => ?_)
      · refine rollZero_keeps ?_
        refine wr_keeps ?_
        exact h
      · refine ite_intro (P := Keeps μ s0) (fun _ => ?_) (fun _ => ?_)
        · refine configRejected_keeps ?_
          exact h
        · refine configRejected_keeps ?_
          refine wr_keeps ?_
          exact h
    · refine wr_keeps ?_
      exact h

theorem applyRollCommit_keeps {s c r v} (hw : μ ||| 260 = μ) (h : Keeps μ s0 s) : Keeps μ s0 (applyRollCommit s c r v) := by
  unfold applyRollCommit
  extract_lets x0 x1
  clear_value x0
  have h2 : Keeps μ s0 x1 := by
    unfold x1
    refine wr_keeps ?_
    exact h
  clear_value x1
  refine ite_intro (P := Keeps μ s0) (fun _ => ?_) (fun _ => ?_)
  · refine ite_intro (P := Keeps μ s0) (fun _ => ?_) (fun _ => ?_)
    · refine pegInc_keeps (sub hw rfl) ?_
      exact h2
    · refine raise_keeps ?_
      exact h
  · exact h

theorem applyRollRelease_keeps {s c r v} (h : Keeps μ s0 s) : Keeps μ s0 (applyRollRelease s c r v) := by
  unfold applyRollRelease
  extract_lets x0
  clear_value x0
  refine ite_intro (P := Keeps μ s0) (fun _ => ?_) (fun _ => ?_)
  · refine ite_intro (P := Keeps μ s0) (fun _ => ?_) (fun _ => ?_)
    · refine wr_keeps ?_
      exact h
    · refine raise_keeps ?_
      refine bumpSat_keeps ?_
      exact h
  · exact h

theorem applyRollReset_keeps {s c r v} (hw : μ ||| 16777216 = μ) (h : Keeps μ s0 s) : Keeps μ s0 (applyRollReset s c r v) := by
  unfold applyRollReset
  refine ite_intro (P := Keeps μ s0) (fun _ => ?_) (fun _ => ?_)
  · exact h
  · refine ite_intro (P := Keeps μ s0) (fun _ => ?_) (fun _ => ?_)
    · refine rollZero_keeps ?_
      refine setRoll_keeps (sub hw rfl) ?_
      exact h
    · refine raise_keeps ?_
      exact h

theorem applySeqCtl_keeps {s v} (h : Keeps μ s0 s) : Keeps μ s0 (applySeqCtl s v) := by
  unfold applySeqCtl
  refine ite_intro (P := Keeps μ s0) (fun _ => ?_) (fun _ => ?_)
  · refine ite_intro (P := Keeps μ s0) (fun _ => ?_) (fun _ => ?_)
    · exact h
    · refine poolRegs_keeps ?_
      refine wrF_keeps ?_
      refine wrF_keeps ?_
      exact h
  · refine ite_intro (P := Keeps μ s0) (fun _ => ?_) (fun _ => ?_)
    · refine applyPlain_keeps ?_
      exact h
    · refine ite_intro (P := Keeps μ s0) (fun _ => ?_) (fun _ => ?_)
      · refine poolRegs_keeps ?_
        refine wrF_keeps ?_
        refine applyPlain_keeps ?_
        exact h
      · refine configRejected_keeps ?_
        refine applyPlain_keeps ?_
        exact h

theorem applyWork_keeps {s cls a v is} (hw : μ ||| 324364770830451052 = μ) (h : Keeps μ s0 s) : Keeps μ s0 (applyWork s cls a v is) := by
  unfold applyWork
  extract_lets x0 x1 x2
  clear_value x0
  clear_value x1
  clear_value x2
  refine ite_intro (P := Keeps μ s0) (fun _ => ?_) (fun _ => ?_)
  · refine applyPodRingCfg_keeps ?_
    exact h
  · refine ite_intro (P := Keeps μ s0) (fun _ => ?_) (fun _ => ?_)
    · refine applyResync_keeps (sub hw rfl) ?_
      exact h
    · refine ite_intro (P := Keeps μ s0) (fun _ => ?_) (fun _ => ?_)
      · refine applyRetainCfg_keeps (sub hw rfl) ?_
        exact h
      · refine ite_intro (P := Keeps μ s0) (fun _ => ?_) (fun _ => ?_)
        · refine readyToRing_keeps (sub hw rfl) ?_
          refine applyPlain_keeps ?_
          exact h
        · refine ite_intro (P := Keeps μ s0) (fun _ => ?_) (fun _ => ?_)
          · refine applyRingCfg_keeps (sub hw rfl) ?_
            exact h
          · refine ite_intro (P := Keeps μ s0) (fun _ => ?_) (fun _ => ?_)
            · refine applyArrFence_keeps (sub hw rfl) ?_
              exact h
            · refine ite_intro (P := Keeps μ s0) (fun _ => ?_) (fun _ => ?_)
              · refine applyEngFence_keeps (sub hw rfl) ?_
                exact h
              · refine ite_intro (P := Keeps μ s0) (fun _ => ?_) (fun _ => ?_)
                · refine applyRollCtl_keeps ?_
                  exact h
                · refine ite_intro (P := Keeps μ s0) (fun _ => ?_) (fun _ => ?_)
                  · refine applyRollCommit_keeps (sub hw rfl) ?_
                    exact h
                  · refine ite_intro (P := Keeps μ s0) (fun _ => ?_) (fun _ => ?_)
                    · refine applyRollRelease_keeps ?_
                      exact h
                    · refine ite_intro (P := Keeps μ s0) (fun _ => ?_) (fun _ => ?_)
                      · refine applyRollReset_keeps (sub hw rfl) ?_
                        exact h
                      · refine ite_intro (P := Keeps μ s0) (fun _ => ?_) (fun _ => ?_)
                        · refine applySeqCtl_keeps ?_
                          exact h
                        · refine applyPlain_keeps ?_
                          exact h

end Sys2Proof.Laws
end

