-- ==== Sys2Proof/Laws/Keeps3.lean ====
section
/-!
SUPPORT. The functions of the model keep the queue, the fuses and the canonical memories: part 3.
-/

namespace Sys2Proof.Laws

open Sys2Proof.Machine Sys2Proof.Safety

variable {s0 : State} {α β γ δ : Type} {μ : Nat}

theorem applyStCtl_keeps {s st v} (h : Keeps μ s0 s) : Keeps μ s0 (applyStCtl s st v) := by
  unfold applyStCtl
  extract_lets x0 x1
  clear_value x0
  refine ite_intro (P := Keeps μ s0) (fun _ => ?_) (fun _ => ?_)
  · refine applyPlain_keeps ?_
    refine configRejected_keeps ?_
    exact h
  · refine applyPlain_keeps ?_
    exact h

theorem encFill_keeps {s r k} (hw : μ ||| 96 = μ) (h : Keeps μ s0 s) : Keeps μ s0 (encFill s r k) := by
  unfold encFill
  refine foldl_intro (P := Keeps μ s0) ?_ ?_
  · exact h
  · intro x0 x1 h2
    extract_lets x3 x4
    clear_value x3
    have h5 : Keeps μ s0 x4 := by
      unfold x4
      refine countWords_keeps ?_
      refine memZero_keeps (sub hw rfl) ?_
      exact h2
    clear_value x4
    refine eccWrite_keeps (sub hw rfl) ?_
    refine memPut_keeps (sub hw rfl) ?_
    exact h5

theorem encDrain_keeps {s} (hw : μ ||| 35227321762144 = μ) (h : Keeps μ s0 s) : Keeps μ s0 (encDrain s) := by
  unfold encDrain
  refine foldl_intro (P := Keeps μ s0) ?_ ?_
  · refine upd_encQ (sub hw rfl) ?_
    exact h
  · intro x0 x1 h2
    refine ite_intro (P := Keeps μ s0) (fun _ => ?_) (fun _ => ?_)
    · refine upd_encQ (sub hw rfl) ?_
      exact h2
    · refine memStore_keeps (sub hw rfl) ?_
      exact h2

theorem encSeal_keeps {s r k} (hw : μ ||| 32 = μ) (h : Keeps μ s0 s) : Keeps μ s0 (encSeal s r k) := by
  unfold encSeal
  refine foldl_intro (P := Keeps μ s0) ?_ ?_
  · exact h
  · intro x0 x1 h2
    extract_lets x3
    clear_value x3
    refine memPut_keeps (sub hw rfl) ?_
    exact h2

theorem encDisable_keeps {s r} (hw : μ ||| 35227321762144 = μ) (h : Keeps μ s0 s) : Keeps μ s0 (encDisable s r) := by
  unfold encDisable
  extract_lets x0 x1 x2 x3
  clear_value x0
  clear_value x1
  clear_value x2
  have h4 : Keeps μ s0 x3 := by
    unfold x3
    refine ite_intro (P := Keeps μ s0) (fun _ => ?_) (fun _ => ?_)
    · exact h
    · refine encFill_keeps (sub hw rfl) ?_
      refine drawFree_keeps ?_
      exact h
  clear_value x3
  refine encDrain_keeps (sub hw rfl) ?_
  refine wr_keeps ?_
  refine wrF_keeps ?_
  refine encSeal_keeps (sub hw rfl) ?_
  exact h4

theorem randomBytes_keeps {s n} (h : Keeps μ s0 s) : Keeps μ s0 (randomBytes s n).2 := by
  unfold randomBytes
  refine mk2_keeps ?_
  refine drawFree_keeps ?_
  exact h

theorem keyRegs_keeps {s} (h : Keeps μ s0 s) : Keeps μ s0 (keyRegs s) := by
  unfold keyRegs
  extract_lets x0
  clear_value x0
  refine wr_keeps ?_
  exact h

theorem setKeySlot_keeps {s k x} (hw : μ ||| 17179869184 = μ) (h : Keeps μ s0 s) : Keeps μ s0 (setKeySlot s k x) := by
  unfold setKeySlot
  refine keyRegs_keeps ?_
  refine upd_keySlots (sub hw rfl) ?_
  exact h

theorem drawRegionKey_keeps {s k} (hw : μ ||| 17179869184 = μ) (h : Keeps μ s0 s) : Keeps μ s0 (drawRegionKey s k) := by
  unfold drawRegionKey
  extract_lets x0
  have h1 : Keeps μ s0 (x0).2 := by
    unfold x0
    refine randomBytes_keeps ?_
    exact h
  clear_value x0
  refine setKeySlot_keeps (sub hw rfl) ?_
  exact h1

theorem encEnable_keeps {s r v} (hw : μ ||| 17179869184 = μ) (h : Keeps μ s0 s) : Keeps μ s0 (encEnable s r v) := by
  unfold encEnable
  extract_lets x0
  have h1 : Keeps μ s0 x0 := by
    unfold x0
    refine applyPlain_keeps ?_
    exact h
  clear_value x0
  refine ite_intro (P := Keeps μ s0) (fun _ => ?_) (fun _ => ?_)
  · exact h
  · refine ite_intro (P := Keeps μ s0) (fun _ => ?_) (fun _ => ?_)
    · refine configRejected_keeps ?_
      refine applyPlain_keeps ?_
      exact h
    · refine wr_keeps ?_
      refine drawRegionKey_keeps (sub hw rfl) ?_
      exact h1

theorem applyEncCtl_keeps {s r v} (hw : μ ||| 35244501631328 = μ) (h : Keeps μ s0 s) : Keeps μ s0 (applyEncCtl s r v) := by
  unfold applyEncCtl
  refine ite_intro (P := Keeps μ s0) (fun _ => ?_) (fun _ => ?_)
  · refine ite_intro (P := Keeps μ s0) (fun _ => ?_) (fun _ => ?_)
    · exact h
    · refine encDisable_keeps (sub hw rfl) ?_
      exact h
  · refine ite_intro (P := Keeps μ s0) (fun _ => ?_) (fun _ => ?_)
    · refine encEnable_keeps (sub hw rfl) ?_
      exact h
    · refine applyPlain_keeps ?_
      exact h

theorem applyMsixCtrl_keeps {s n v} (h : Keeps μ s0 s) : Keeps μ s0 (applyMsixCtrl s n v) := by
  unfold applyMsixCtrl
  extract_lets x0 x1
  have h2 : Keeps μ s0 x0 := by
    unfold x0
    refine applyPlain_keeps ?_
    exact h
  clear_value x0
  clear_value x1
  refine ite_intro (P := Keeps μ s0) (fun _ => ?_) (fun _ => ?_)
  · refine msixSignal_keeps ?_
    refine wrF_keeps ?_
    exact h2
  · exact h2

theorem applySntCtl_keeps {s v} (h : Keeps μ s0 s) : Keeps μ s0 (applySntCtl s v) := by
  unfold applySntCtl
  refine ite_intro (P := Keeps μ s0) (fun _ => ?_) (fun _ => ?_)
  · refine applyPlain_keeps ?_
    refine raise_keeps ?_
    exact h
  · refine applyPlain_keeps ?_
    exact h

theorem compDisabled_keeps {s} (hw : μ ||| 1125899906842880 = μ) (h : Keeps μ s0 s) : Keeps μ s0 (compDisabled s) := by
  unfold compDisabled
  split
  · rename_i y0 e1
    exact h
  · rename_i y2 y3 e4
    refine foldl_intro (P := Keeps μ s0) ?_ ?_
    · refine upd_comp (sub hw rfl) ?_
      exact h
    · intro x5 x6 h7
      refine sendResult_keeps (sub hw rfl) ?_
      exact h7

theorem applyCompCtl_keeps {s v} (hw : μ ||| 1125899906842880 = μ) (h : Keeps μ s0 s) : Keeps μ s0 (applyCompCtl s v) := by
  unfold applyCompCtl
  extract_lets x0 x1 x2 x3 x4 x5
  clear_value x0
  clear_value x1
  clear_value x2
  have h6 : Keeps μ s0 x3 := by
    unfold x3
    refine ite_intro (P := Keeps μ s0) (fun _ => ?_) (fun _ => ?_)
    · refine raise_keeps ?_
      exact h
    · exact h
  clear_value x3
  clear_value x4
  have h7 : Keeps μ s0 x5 := by
    unfold x5
    refine ite_intro (P := Keeps μ s0) (fun _ => ?_) (fun _ => ?_)
    · exact h6
    · refine compDisabled_keeps (sub hw rfl) ?_
      exact h6
  clear_value x5
  refine ite_intro (P := Keeps μ s0) (fun _ => ?_) (fun _ => ?_)
  · refine raise_keeps ?_
    refine wr_keeps ?_
    exact h7
  · refine wr_keeps ?_
    exact h7

theorem haltCore_keeps {s k copies} (hw : μ ||| 18014398509481984 = μ) (h : Keeps μ s0 s) : Keeps μ s0 (haltCore s k copies) := by
  unfold haltCore
  extract_lets x0 x1
  clear_value x0
  clear_value x1
  refine setCore_keeps (sub hw rfl) ?_
  exact h

theorem lsHalt_keeps {s mask copy} (hw : μ ||| 64281892349866348 = μ) (h : Keeps μ s0 s) : Keeps μ s0 (lsHalt s mask copy) := by
  unfold lsHalt
  refine ite_intro (P := Keeps μ s0) (fun _ => ?_) (fun _ => ?_)
  · exact h
  · extract_lets x0 x1
    have h2 : Keeps μ s0 x0 := by
      unfold x0
      refine ite_intro (P := Keeps μ s0) (fun _ => ?_) (fun _ => ?_)
      · refine raise_keeps ?_
        refine collect_keeps (sub hw rfl) ?_
        exact h
      · exact h
    clear_value x0
    have h3 : Keeps μ s0 x1 := by
      unfold x1
      refine foldl_intro (P := Keeps μ s0) ?_ ?_
      · exact h2
      · intro x4 x5 h6
        refine ite_intro (P := Keeps μ s0) (fun _ => ?_) (fun _ => ?_)
        · refine haltCore_keeps (sub hw rfl) ?_
          exact h6
        · exact h6
    clear_value x1
    refine raise_keeps ?_
    refine lsRegs_keeps ?_
    exact h3

theorem lsResume_keeps {s} (hw : μ ||| 18014407099416832 = μ) (h : Keeps μ s0 s) : Keeps μ s0 (lsResume s) := by
  unfold lsResume
  refine ite_intro (P := Keeps μ s0) (fun _ => ?_) (fun _ => ?_)
  · exact h
  · extract_lets x0
    have h1 : Keeps μ s0 x0 := by
      unfold x0
      refine foldl_intro (P := Keeps μ s0) ?_ ?_
      · exact h
      · intro x2 x3 h4
        extract_lets x5 x6
        clear_value x5
        clear_value x6
        refine ite_intro (P := Keeps μ s0) (fun _ => ?_) (fun _ => ?_)
        · refine setCore_keeps (sub hw rfl) ?_
          exact h4
        · exact h4
    clear_value x0
    refine lsTry_keeps (sub hw rfl) ?_
    refine lsRegs_keeps ?_
    exact h1

theorem applyLsDebug_keeps {s v copy} (hw : μ ||| 64281892349866348 = μ) (h : Keeps μ s0 s) : Keeps μ s0 (applyLsDebug s v copy) := by
  unfold applyLsDebug
  extract_lets x0 x1
  have h2 : Keeps μ s0 x0 := by
    unfold x0
    refine wr_keeps ?_
    exact h
  clear_value x0
  have h3 : Keeps μ s0 x1 := by
    unfold x1
    refine lsHalt_keeps (sub hw rfl) ?_
    exact h2
  clear_value x1
  refine ite_intro (P := Keeps μ s0) (fun _ => ?_) (fun _ => ?_)
  · refine wr_keeps ?_
    refine lsResume_keeps (sub hw rfl) ?_
    exact h3
  · exact h3

theorem applyLsInject_keeps {s v} (hw : μ ||| 18014407099416832 = μ) (h : Keeps μ s0 s) : Keeps μ s0 (applyLsInject s v) := by
  unfold applyLsInject
  refine lsTry_keeps (sub hw rfl) ?_
  refine applyPlain_keeps ?_
  exact h

theorem lanternTest_keeps {s} (hw : μ ||| 9007199254740992 = μ) (h : Keeps μ s0 s) : Keeps μ s0 (lanternTest s) := by
  unfold lanternTest
  refine ite_intro (P := Keeps μ s0) (fun _ => ?_) (fun _ => ?_)
  · exact h
  · extract_lets x0 x1
    have h2 : Keeps μ s0 x0 := by
      unfold x0
      refine lanternsOff_keeps (sub hw rfl) ?_
      refine bump_keeps ?_
      exact h
    clear_value x0
    clear_value x1
    refine wrF_keeps ?_
    refine upd_lantern (sub hw rfl) ?_
    exact h2

theorem forceFromHost_keeps {s} (hw : μ ||| 64281892349866348 = μ) (h : Keeps μ s0 s) : Keeps μ s0 (forceFromHost s) := by
  unfold forceFromHost
  refine collect_keeps (sub hw rfl) ?_
  exact h

theorem fcInject_keeps {s i} (hw : μ ||| 256 = μ) (h : Keeps μ s0 s) : Keeps μ s0 (fcInject s i) := by
  unfold fcInject
  refine ite_intro (P := Keeps μ s0) (fun _ => ?_) (fun _ => ?_)
  · refine raise_keeps ?_
    exact h
  · extract_lets x0 x1 x2 x3
    have h4 : Keeps μ s0 (x0).2 := by
      unfold x0
      split
      · rename_i y5 y6 y7 e8
        refine mk2_keeps ?_
        exact h
      · rename_i y9 y10 e11
        refine mk2_keeps ?_
        refine drawFree_keeps ?_
        exact h
    clear_value x0
    clear_value x1
    have h12 : Keeps μ s0 x2 := by
      unfold x2
      exact h4
    clear_value x2
    clear_value x3
    refine upd_fc (sub hw rfl) ?_
    exact h12

theorem applyFcInject_keeps {s v} (hw : μ ||| 256 = μ) (h : Keeps μ s0 s) : Keeps μ s0 (applyFcInject s v) := by
  unfold applyFcInject
  extract_lets x0
  have h1 : Keeps μ s0 x0 := by
    unfold x0
    refine wr_keeps ?_
    exact h
  clear_value x0
  refine ite_intro (P := Keeps μ s0) (fun _ => ?_) (fun _ => ?_)
  · refine fcInject_keeps (sub hw rfl) ?_
    exact h1
  · exact h1

theorem applySrcCfg_keeps {s i v} (hw : μ ||| 256 = μ) (h : Keeps μ s0 s) : Keeps μ s0 (applySrcCfg s i v) := by
  unfold applySrcCfg
  split
  · rename_i y0 e1
    exact h
  · rename_i y2 y3 e4
    extract_lets x5 x6
    clear_value x5
    clear_value x6
    refine ite_intro (P := Keeps μ s0) (fun _ => ?_) (fun _ => ?_)
    · refine configRejected_keeps ?_
      exact h
    · refine quietFollow_keeps (sub hw rfl) ?_
      refine applyPlain_keeps ?_
      exact h

theorem applyBistCmd_keeps {s v} (hw : μ ||| 36028797018963968 = μ) (h : Keeps μ s0 s) : Keeps μ s0 (applyBistCmd s v) := by
  unfold applyBistCmd
  extract_lets x0 x1 x2
  clear_value x0
  have h3 : Keeps μ s0 x1 := by
    unfold x1
    refine wr_keeps ?_
    exact h
  clear_value x1
  clear_value x2
  refine ite_intro (P := Keeps μ s0) (fun _ => ?_) (fun _ => ?_)
  · exact h3
  · refine ite_intro (P := Keeps μ s0) (fun _ => ?_) (fun _ => ?_)
    · refine wr_keeps ?_
      refine upd_bist (sub hw rfl) ?_
      exact h3
    · refine wr_keeps ?_
      exact h3

theorem applyOuter_keeps {s cls a v is} (hw : μ ||| 64281909529735532 = μ) (h : Keeps μ s0 s) : Keeps μ s0 (applyOuter s cls a v is) := by
  unfold applyOuter
  extract_lets x0 x1
  clear_value x0
  have h2 : Keeps μ s0 (x1).2 := by
    unfold x1
    refine ite2_keeps (fun _ => ?_) (fun _ => ?_)
    · refine drawFree_keeps ?_
      exact h
    · refine mk2_keeps ?_
      exact h
  clear_value x1
  refine ite_intro (P := Keeps μ s0) (fun _ => ?_) (fun _ => ?_)
  · refine applyStCtl_keeps ?_
    exact h
  · refine ite_intro (P := Keeps μ s0) (fun _ => ?_) (fun _ => ?_)
    · refine applyEncCtl_keeps (sub hw rfl) ?_
      exact h
    · refine ite_intro (P := Keeps μ s0) (fun _ => ?_) (fun _ => ?_)
      · refine applyMsixCtrl_keeps ?_
        exact h
      · refine ite_intro (P := Keeps μ s0) (fun _ => ?_) (fun _ => ?_)
        · refine applySntCtl_keeps ?_
          exact h
        · refine ite_intro (P := Keeps μ s0) (fun _ => ?_) (fun _ => ?_)
          · refine applyCompCtl_keeps (sub hw rfl) ?_
            exact h
          · refine ite_intro (P := Keeps μ s0) (fun _ => ?_) (fun _ => ?_)
            · refine applyLsDebug_keeps (sub hw rfl) ?_
              exact h2
            · refine ite_intro (P := Keeps μ s0) (fun _ => ?_) (fun _ => ?_)
              · refine applyLsInject_keeps (sub hw rfl) ?_
                exact h
              · refine ite_intro (P := Keeps μ s0) (fun _ => ?_) (fun _ => ?_)
                · refine ite_intro (P := Keeps μ s0) (fun _ => ?_) (fun _ => ?_)
                  · refine lanternTest_keeps (sub hw rfl) ?_
                    exact h
                  · exact h
                · refine ite_intro (P := Keeps μ s0) (fun _ => ?_) (fun _ => ?_)
                  · refine ite_intro (P := Keeps μ s0) (fun _ => ?_) (fun _ => ?_)
                    · refine forceFromHost_keeps (sub hw rfl) ?_
                      exact h
                    · exact h
                  · refine ite_intro (P := Keeps μ s0) (fun _ => ?_) (fun _ => ?_)
                    · refine ite_intro (P := Keeps μ s0) (fun _ => ?_) (fun _ => ?_)
                      · refine collect_keeps (sub hw rfl) ?_
                        exact h
                      · exact h
                    · refine ite_intro (P := Keeps μ s0) (fun _ => ?_) (fun _ => ?_)
                      · refine applyFcInject_keeps (sub hw rfl) ?_
                        exact h
                      · refine ite_intro (P := Keeps μ s0) (fun _ => ?_) (fun _ => ?_)
                        · refine applySrcCfg_keeps (sub hw rfl) ?_
                          exact h
                        · refine ite_intro (P := Keeps μ s0) (fun _ => ?_) (fun _ => ?_)
                          · refine applyBistCmd_keeps (sub hw rfl) ?_
                            exact h
                          · refine ite_intro (P := Keeps μ s0) (fun _ => ?_) (fun _ => ?_)
                            · refine lapseRestart_keeps (sub hw rfl) ?_
                              refine applyPlain_keeps ?_
                              exact h
                            · refine applyPlain_keeps ?_
                              exact h

theorem applyReg_keeps {s ag a v} (hw : μ ||| 496908948734015340 = μ) (h : Keeps μ s0 s) : Keeps μ s0 (applyReg s ag a v) := by
  unfold applyReg
  split
  · rename_i y0 e1
    exact h
  · rename_i y2 y3 e4
    refine ite_intro (P := Keeps μ s0) (fun _ => ?_) (fun _ => ?_)
    · refine applyHeader_keeps ?_
      exact h
    · refine ite_intro (P := Keeps μ s0) (fun _ => ?_) (fun _ => ?_)
      · exact h
      · split
        · rename_i y5 y6 y7 e8
          exact h
        · rename_i y9 y10 y11 y12 y13 e14
          refine ite_intro (P := Keeps μ s0) (fun _ => ?_) (fun _ => ?_)
          · refine applyBase_keeps (sub hw rfl) ?_
            exact h
          · refine ite_intro (P := Keeps μ s0) (fun _ => ?_) (fun _ => ?_)
            · refine applyWork_keeps (sub hw rfl) ?_
              exact h
            · refine applyOuter_keeps (sub hw rfl) ?_
              exact h

theorem writeList_keeps {i b s} (hw : μ ||| 496908948734015340 = μ) (h : Keeps μ s0 s) : Keeps μ s0 (writeList i b s).2 := by
  fun_induction writeList i b s with
  | case1 => exact h
  | case2 i b0 b1 b2 b3 v0 v1 v2 v3 t s w a v c s1 d =>
    exact ite_intro (P := Keeps μ s0) (fun _ => writePageCtl_keeps h) (fun _ => applyReg_keeps (sub hw rfl) h)
  | case3 i b0 b1 b2 b3 v0 v1 v2 v3 t s w a v c s1 d ih =>
    exact ih (ite_intro (P := Keeps μ s0) (fun _ => writePageCtl_keeps h) (fun _ => applyReg_keeps (sub hw rfl) h))
  | case4 => exact h
  | case5 => exact h

theorem lockAll_keeps {s} (h : Keeps μ s0 s) : Keeps μ s0 (lockAll s) := by
  unfold lockAll
  refine foldl_intro (P := Keeps μ s0) ?_ ?_
  · exact h
  · intro x0 x1 h2
    refine ite_intro (P := Keeps μ s0) (fun _ => ?_) (fun _ => ?_)
    · refine writeLock_keeps ?_
      exact h2
    · exact h2

theorem bistEnds_keeps {s failed} (hw : μ ||| 496908948742403948 = μ) (h : Keeps μ s0 s) : Keeps μ s0 (bistEnds s failed) := by
  unfold bistEnds
  refine ite_intro (P := Keeps μ s0) (fun _ => ?_) (fun _ => ?_)
  · exact h
  · extract_lets x0 x1 x2 x3
    have h4 : Keeps μ s0 x0 := by
      unfold x0
      refine upd_mem_ecc_sntMem (sub hw rfl) ?_ ?_ ?_
      · exact h
      · exact fun c => smWf_filter c _
      · exact fun c => smWf_filter c _
    clear_value x0
    have h5 : Keeps μ s0 x1 := by
      unfold x1
      refine foldl_intro (P := Keeps μ s0) ?_ ?_
      · exact h4
      · intro x6 x7 h8
        refine lapseRestart_keeps (sub hw rfl) ?_
        exact h8
    clear_value x1
    have h9 : Keeps μ s0 x2 := by
      unfold x2
      refine foldl_intro (P := Keeps μ s0) ?_ ?_
      · exact h5
      · intro x10 x11 h12
        refine bistFound_keeps (sub hw rfl) ?_
        exact h12
    clear_value x2
    clear_value x3
    split
    · rename_i y13 y14 y15 y16 e17
      have h18 : Keeps μ s0 y16 := by
        refine of2 e17 ?_
        refine writeList_keeps (sub hw rfl) ?_
        exact h9
      refine bootStop_keeps (sub hw rfl) ?_
      refine wrF_keeps ?_
      exact h18
    · rename_i y19 y20 y21 e22
      have h23 : Keeps μ s0 y21 := by
        refine of2 e22 ?_
        refine writeList_keeps (sub hw rfl) ?_
        exact h9
      extract_lets x24 x25
      have h26 : Keeps μ s0 x24 := by
        unfold x24
        refine ite_intro (P := Keeps μ s0) (fun _ => ?_) (fun _ => ?_)
        · refine lockAll_keeps ?_
          exact h23
        · exact h23
      clear_value x24
      clear_value x25
      refine upd_sec (sub hw rfl) ?_
      exact h26

theorem bootComplete_keeps {s} (hw : μ ||| 297237575406452736 = μ) (h : Keeps μ s0 s) : Keeps μ s0 (bootComplete s) := by
  unfold bootComplete
  refine ite_intro (P := Keeps μ s0) (fun _ => ?_) (fun _ => ?_)
  · exact h
  · extract_lets x0 x1 x2 x3
    have h4 : Keeps μ s0 x0 := by
      unfold x0
      refine raise_keeps ?_
      refine wrF_keeps ?_
      refine wrF_keeps ?_
      exact h
    clear_value x0
    clear_value x1
    have h5 : Keeps μ s0 x2 := by
      unfold x2
      refine lanternsDue_keeps (sub hw rfl) ?_
      refine upd_lantern (sub hw rfl) ?_
      exact h4
    clear_value x2
    clear_value x3
    refine readyToRing_keeps (sub hw rfl) ?_
    refine upd_sec (sub hw rfl) ?_
    exact h5

theorem asAgent_keeps {s ag f} (h : Keeps μ s0 s) (hf3 : ∀ a0, Keeps μ s0 a0 → Keeps μ s0 (f a0)) : Keeps μ s0 (asAgent s ag f) := by
  unfold asAgent
  refine ite_intro (P := Keeps μ s0) (fun _ => ?_) (fun _ => ?_)
  · exact h
  · refine hf3 _ ?_
    exact h

theorem latchWaits_keeps {s} (hw : μ ||| 134217736 = μ) (h : Keeps μ s0 s) : Keeps μ s0 (latchWaits s) := by
  unfold latchWaits
  refine upd_pods_insts (sub hw rfl) ?_
  exact h

theorem writePegCount_keeps {s r v} (hw : μ ||| 134217740 = μ) (h : Keeps μ s0 s) : Keeps μ s0 (writePegCount s r v) := by
  unfold writePegCount
  extract_lets x0 x1
  have h2 : Keeps μ s0 x0 := by
    unfold x0
    refine latchWaits_keeps (sub hw rfl) ?_
    exact h
  clear_value x0
  clear_value x1
  refine setPeg_keeps (sub hw rfl) ?_
  exact h2

theorem writePegTarget_keeps {s r v} (hw : μ ||| 134217740 = μ) (h : Keeps μ s0 s) : Keeps μ s0 (writePegTarget s r v) := by
  unfold writePegTarget
  extract_lets x0 x1
  have h2 : Keeps μ s0 x0 := by
    unfold x0
    refine latchWaits_keeps (sub hw rfl) ?_
    exact h
  clear_value x0
  clear_value x1
  refine setPeg_keeps (sub hw rfl) ?_
  exact h2

theorem writePegCfg_keeps {s r v} (hw : μ ||| 134217740 = μ) (h : Keeps μ s0 s) : Keeps μ s0 (writePegCfg s r v) := by
  unfold writePegCfg
  refine ite_intro (P := Keeps μ s0) (fun _ => ?_) (fun _ => ?_)
  · refine setPeg_keeps (sub hw rfl) ?_
    exact h
  · extract_lets x0 x1
    have h2 : Keeps μ s0 x0 := by
      unfold x0
      refine latchWaits_keeps (sub hw rfl) ?_
      exact h
    clear_value x0
    clear_value x1
    refine setPeg_keeps (sub hw rfl) ?_
    exact h2

theorem writePegInc_keeps {s ag r v} (hw : μ ||| 70368744177924 = μ) (h : Keeps μ s0 s) : Keeps μ s0 (writePegInc s ag r v) := by
  unfold writePegInc
  refine ite_intro (P := Keeps μ s0) (fun _ => ?_) (fun _ => ?_)
  · exact h
  · refine releaseInc_keeps (sub hw rfl) ?_
    exact h

theorem writePegWord_keeps {s ag a v} (hw : μ ||| 70368878395660 = μ) (h : Keeps μ s0 s) : Keeps μ s0 (writePegWord s ag a v) := by
  unfold writePegWord
  split
  · rename_i y0 y1 e2
    refine writePegCount_keeps (sub hw rfl) ?_
    exact h
  · rename_i y3 y4 e5
    refine writePegTarget_keeps (sub hw rfl) ?_
    exact h
  · rename_i y6 y7 e8
    refine writePegCfg_keeps (sub hw rfl) ?_
    exact h
  · rename_i y9 y10 y11 e12 e13 e14 e15
    refine writePegInc_keeps (sub hw rfl) ?_
    exact h

theorem setPosted_keeps {s p q} (h : Keeps μ s0 s) : Keeps μ s0 (setPosted s p q) := by
  unfold setPosted
  refine upd_keeps ?_
  exact h

theorem postWrite_keeps {s ag a v} (h : Keeps μ s0 s) : Keeps μ s0 (postWrite s ag a v) := by
  unfold postWrite
  extract_lets x0
  clear_value x0
  refine ite_intro (P := Keeps μ s0) (fun _ => ?_) (fun _ => ?_)
  · refine wakeRequest_keeps ?_
    refine setPosted_keeps ?_
    exact h
  · refine raise_keeps ?_
    refine wrF_keeps ?_
    exact h

theorem admitWrite_keeps {s ag a v} (h : Keeps μ s0 s) : Keeps μ s0 (admitWrite s ag a v).2 := by
  unfold admitWrite
  extract_lets x0
  clear_value x0
  refine ite2_keeps (fun _ => ?_) (fun _ => ?_)
  · refine mk2_keeps ?_
    refine guardRefused_keeps ?_
    exact h
  · split
    · rename_i y1 y2 e3
      refine mk2_keeps ?_
      exact h
    · rename_i y4 y5 y6 y7 e8
      extract_lets x9 x10
      clear_value x9
      have h11 : Keeps μ s0 (x10).2 := by
        unfold x10
        refine mk2_keeps ?_
        refine ite_intro (P := Keeps μ s0) (fun _ => ?_) (fun _ => ?_)
        · refine guardRefused_keeps ?_
          exact h
        · exact h
      clear_value x10
      refine ite2_keeps (fun _ => ?_) (fun _ => ?_)
      · refine ite2_keeps (fun _ => ?_) (fun _ => ?_)
        · exact h11
        · refine mk2_keeps ?_
          exact h
      · refine ite2_keeps (fun _ => ?_) (fun _ => ?_)
        · refine ite2_keeps (fun _ => ?_) (fun _ => ?_)
          · refine mk2_keeps ?_
            exact h
          · refine ite2_keeps (fun _ => ?_) (fun _ => ?_)
            · exact h11
            · refine ite2_keeps (fun _ => ?_) (fun _ => ?_)
              · refine mk2_keeps ?_
                refine dropUnlock_keeps ?_
                exact h
              · refine mk2_keeps ?_
                refine guardRefused_keeps ?_
                exact h
        · refine mk2_keeps ?_
          exact h

theorem writeWord_keeps {s ag a v} (hw : μ ||| 496908948734015340 = μ) (h : Keeps μ s0 s) : Keeps μ s0 (writeWord s ag a v) := by
  unfold writeWord
  extract_lets x0
  clear_value x0
  refine ite_intro (P := Keeps μ s0) (fun _ => ?_) (fun _ => ?_)
  · refine writePegWord_keeps (sub hw rfl) ?_
    exact h
  · refine ite_intro (P := Keeps μ s0) (fun _ => ?_) (fun _ => ?_)
    · exact h
    · refine ite_intro (P := Keeps μ s0) (fun _ => ?_) (fun _ => ?_)
      · refine guardRefused_keeps ?_
        exact h
      · refine ite_intro (P := Keeps μ s0) (fun _ => ?_) (fun _ => ?_)
        · refine ite_intro (P := Keeps μ s0) (fun _ => ?_) (fun _ => ?_)
          · refine applyHeader_keeps ?_
            exact h
          · refine ite_intro (P := Keeps μ s0) (fun _ => ?_) (fun _ => ?_)
            · refine postWrite_keeps ?_
              exact h
            · exact h
        · split
          · rename_i y1 y2 y3 y4 y5 e6
            exact h
          · rename_i y7 y8 y9 y10 y11 y12 y13 e14
            split
            · rename_i y15 y16 e17
              have h18 : Keeps μ s0 y16 := by
                refine of2 e17 ?_
                refine admitWrite_keeps ?_
                exact h
              exact h18
            · rename_i y19 y20 e21
              have h22 : Keeps μ s0 y20 := by
                refine of2 e21 ?_
                refine admitWrite_keeps ?_
                exact h
              refine ite_intro (P := Keeps μ s0) (fun _ => ?_) (fun _ => ?_)
              · refine applyReg_keeps (sub hw rfl) ?_
                exact h22
              · refine postWrite_keeps ?_
                exact h22

theorem accessError_keeps {s p} (h : Keeps μ s0 s) : Keeps μ s0 (accessError s p) := by
  unfold accessError
  refine ite_intro (P := Keeps μ s0) (fun _ => ?_) (fun _ => ?_)
  · refine raise_keeps ?_
    exact h
  · exact h

theorem regWrite_keeps {s ag a b} (hw : μ ||| 496908948734015340 = μ) (h : Keeps μ s0 s) : Keeps μ s0 (regWrite s ag a b) := by
  unfold regWrite
  refine ite_intro (P := Keeps μ s0) (fun _ => ?_) (fun _ => ?_)
  · refine writeWord_keeps (sub hw rfl) ?_
    exact h
  · refine ite_intro (P := Keeps μ s0) (fun _ => ?_) (fun _ => ?_)
    · refine writeWord_keeps (sub hw rfl) ?_
      refine writeWord_keeps (sub hw rfl) ?_
      exact h
    · refine accessError_keeps ?_
      exact h

theorem postedApply_keeps {s p} (hw : μ ||| 496908948734015340 = μ) (h : Keeps μ s0 s) : Keeps μ s0 (postedApply s p) := by
  unfold postedApply
  split
  · rename_i y0 e1
    exact h
  · rename_i y2 y3 y4 e5
    refine ite_intro (P := Keeps μ s0) (fun _ => ?_) (fun _ => ?_)
    · refine applyReg_keeps (sub hw rfl) ?_
      refine setPosted_keeps ?_
      exact h
    · exact h

theorem pageWrite_keeps {s ag p eff} (h : Keeps μ s0 s) (hf4 : ∀ a0, Keeps μ s0 a0 → Keeps μ s0 (eff a0)) : Keeps μ s0 (pageWrite s ag p eff) := by
  unfold pageWrite
  refine asAgent_keeps ?_ ?_
  · exact h
  · intro x0 h1
    refine ite_intro (P := Keeps μ s0) (fun _ => ?_) (fun _ => ?_)
    · refine guardRefused_keeps ?_
      exact h1
    · refine hf4 _ ?_
      exact h1

theorem orderedWrite_keeps {s ag a v eff} (h : Keeps μ s0 s) (hf5 : ∀ a0, Keeps μ s0 a0 → Keeps μ s0 (eff a0)) : Keeps μ s0 (orderedWrite s ag a v eff) := by
  unfold orderedWrite
  extract_lets x0
  clear_value x0
  refine ite_intro (P := Keeps μ s0) (fun _ => ?_) (fun _ => ?_)
  · refine hf5 _ ?_
    exact h
  · refine postWrite_keeps ?_
    exact h

theorem freeWords_keeps {v0 v1} (h : Keeps μ s0 v1) : Keeps μ s0 (freeWords v0 v1).2 := by
  induction v0 generalizing v1
  · unfold freeWords
    refine mk2_keeps ?_
    exact h
  · rename_i y7 y8
    unfold freeWords
    extract_lets x9
    have h10 : Keeps μ s0 (x9).2 := by
      unfold x9
      refine y8 ?_
      refine drawFree_keeps ?_
      exact h
    clear_value x9
    refine mk2_keeps ?_
    exact h10

theorem captureBase_keeps {s p sel} (h : Keeps μ s0 s) : ∀ r, captureBase s p sel = some r → Keeps μ s0 r.2 := by
  unfold captureBase
  refine iteO2_keeps (fun _ => ?_) (fun _ => ?_)
  · refine some_keeps ?_
    refine mk2_keeps ?_
    exact h
  · refine iteO2_keeps (fun _ => ?_) (fun _ => ?_)
    · extract_lets x8
      clear_value x8
      refine some_keeps ?_
      refine mk2_keeps ?_
      exact h
    · refine iteO2_keeps (fun _ => ?_) (fun _ => ?_)
      · refine some_keeps ?_
        refine mk2_keeps ?_
        exact h
      · refine iteO2_keeps (fun _ => ?_) (fun _ => ?_)
        · extract_lets x19 x20
          clear_value x19
          clear_value x20
          refine some_keeps ?_
          refine mk2_keeps ?_
          exact h
        · refine iteO2_keeps (fun _ => ?_) (fun _ => ?_)
          · split
            · rename_i y27 y28 y29 y30 y31 y32 y33 y34 e35
              extract_lets x38
              clear_value x38
              refine some_keeps ?_
              refine mk2_keeps ?_
              exact h
            · rename_i y41 y42 y43 y44 y45 y46 e47
              refine some_keeps ?_
              refine mk2_keeps ?_
              exact h
          · refine iteO2_keeps (fun _ => ?_) (fun _ => ?_)
            · split
              · rename_i y54 y55 y56 y57 y58 y59 y60 y61 e62
                refine some_keeps ?_
                refine mk2_keeps ?_
                exact h
              · rename_i y65 y66 y67 y68 y69 y70 y71 e72
                extract_lets x75
                have h76 : Keeps μ s0 (x75).2 := by
                  unfold x75
                  refine freeWords_keeps ?_
                  exact h
                clear_value x75
                refine some_keeps ?_
                refine mk2_keeps ?_
                exact h76
            · exact none_keeps

theorem captureWork_keeps {s p sel} (h : Keeps μ s0 s) : ∀ r, captureWork s p sel = some r → Keeps μ s0 r.2 := by
  unfold captureWork
  refine iteO2_keeps (fun _ => ?_) (fun _ => ?_)
  · refine some_keeps ?_
    refine mk2_keeps ?_
    exact h
  · refine iteO2_keeps (fun _ => ?_) (fun _ => ?_)
    · split
      · rename_i y8 y9 y10 y11 e12
        refine some_keeps ?_
        refine mk2_keeps ?_
        exact h
      · rename_i y15 y16 y17 e18
        refine some_keeps ?_
        refine mk2_keeps ?_
        exact h
    · refine iteO2_keeps (fun _ => ?_) (fun _ => ?_)
      · refine some_keeps ?_
        refine mk2_keeps ?_
        exact h
      · refine iteO2_keeps (fun _ => ?_) (fun _ => ?_)
        · refine some_keeps ?_
          refine mk2_keeps ?_
          exact h
        · exact none_keeps

theorem captureCluster_keeps {s p sel} (h : Keeps μ s0 s) : ∀ r, captureCluster s p sel = some r → Keeps μ s0 r.2 := by
  unfold captureCluster
  extract_lets x2 x3 x4 x5 x6 x7
  clear_value x2
  clear_value x3
  have h8 : Keeps μ s0 (x4).2 := by
    unfold x4
    refine freeWords_keeps ?_
    exact h
  clear_value x4
  clear_value x5
  have h9 : Keeps μ s0 (x6).2 := by
    unfold x6
    refine freeWords_keeps ?_
    exact h
  clear_value x6
  clear_value x7
  refine iteO2_keeps (fun _ => ?_) (fun _ => ?_)
  · exact none_keeps
  · refine iteO2_keeps (fun _ => ?_) (fun _ => ?_)
    · split
      · rename_i y18 y19 y20 y21 y22 e23
        extract_lets x26
        clear_value x26
        refine some_keeps ?_
        refine mk2_keeps ?_
        exact h
      · rename_i y29 y30 y31 e32
        refine some_keeps ?_
        refine mk2_keeps ?_
        exact h8
    · refine iteO2_keeps (fun _ => ?_) (fun _ => ?_)
      · refine some_keeps ?_
        refine mk2_keeps ?_
        exact h
      · refine iteO2_keeps (fun _ => ?_) (fun _ => ?_)
        · split
          · rename_i y43 y44 y45 y46 y47 y48 e49
            extract_lets x52
            clear_value x52
            refine some_keeps ?_
            refine mk2_keeps ?_
            exact h9
          · rename_i y55 y56 y57 y58 y59 e60
            refine some_keeps ?_
            refine mk2_keeps ?_
            exact h9
        · refine iteO2_keeps (fun _ => ?_) (fun _ => ?_)
          · refine some_keeps ?_
            refine mk2_keeps ?_
            exact h
          · refine iteO2_keeps (fun _ => ?_) (fun _ => ?_)
            · refine some_keeps ?_
              refine mk2_keeps ?_
              exact h
            · refine iteO2_keeps (fun _ => ?_) (fun _ => ?_)
              · refine some_keeps ?_
                refine mk2_keeps ?_
                exact h
              · refine iteO2_keeps (fun _ => ?_) (fun _ => ?_)
                · refine some_keeps ?_
                  refine mk2_keeps ?_
                  exact h
                · refine iteO2_keeps (fun _ => ?_) (fun _ => ?_)
                  · refine some_keeps ?_
                    refine mk2_keeps ?_
                    exact h
                  · refine iteO2_keeps (fun _ => ?_) (fun _ => ?_)
                    · refine some_keeps ?_
                      refine mk2_keeps ?_
                      exact h
                    · refine iteO2_keeps (fun _ => ?_) (fun _ => ?_)
                      · refine some_keeps ?_
                        refine mk2_keeps ?_
                        exact h
                      · exact none_keeps

theorem captureOuter_keeps {s p sel} (h : Keeps μ s0 s) : ∀ r, captureOuter s p sel = some r → Keeps μ s0 r.2 := by
  unfold captureOuter
  refine iteO2_keeps (fun _ => ?_) (fun _ => ?_)
  · refine iteO2_keeps (fun _ => ?_) (fun _ => ?_)
    · refine some_keeps ?_
      refine mk2_keeps ?_
      exact h
    · refine iteO2_keeps (fun _ => ?_) (fun _ => ?_)
      · refine some_keeps ?_
        refine mk2_keeps ?_
        exact h
      · refine iteO2_keeps (fun _ => ?_) (fun _ => ?_)
        · refine some_keeps ?_
          refine mk2_keeps ?_
          exact h
        · refine iteO2_keeps (fun _ => ?_) (fun _ => ?_)
          · refine some_keeps ?_
            refine mk2_keeps ?_
            exact h
          · exact none_keeps
  · refine iteO2_keeps (fun _ => ?_) (fun _ => ?_)
    · refine iteO2_keeps (fun _ => ?_) (fun _ => ?_)
      · refine some_keeps ?_
        refine mk2_keeps ?_
        exact h
      · refine iteO2_keeps (fun _ => ?_) (fun _ => ?_)
        · refine some_keeps ?_
          refine mk2_keeps ?_
          exact h
        · refine iteO2_keeps (fun _ => ?_) (fun _ => ?_)
          · refine some_keeps ?_
            refine mk2_keeps ?_
            exact h
          · exact none_keeps
    · refine iteO2_keeps (fun _ => ?_) (fun _ => ?_)
      · refine some_keeps ?_
        refine mk2_keeps ?_
        exact h
      · refine iteO2_keeps (fun _ => ?_) (fun _ => ?_)
        · refine some_keeps ?_
          refine mk2_keeps ?_
          exact h
        · refine iteO2_keeps (fun _ => ?_) (fun _ => ?_)
          · refine some_keeps ?_
            refine mk2_keeps ?_
            exact h
          · refine iteO2_keeps (fun _ => ?_) (fun _ => ?_)
            · refine some_keeps ?_
              refine mk2_keeps ?_
              exact h
            · exact none_keeps

theorem or_keeps {o q : Option (α × State)} (ho : ∀ r, o = some r → Keeps μ s0 r.2) (hq : ∀ r, q = some r → Keeps μ s0 r.2) :
    ∀ r, o.or q = some r → Keeps μ s0 r.2 := by
  intro r e
  cases o with
  | none => exact hq r e
  | some x => exact ho r e

theorem captureWords_keeps {s p sel} (h : Keeps μ s0 s) : ∀ r, captureWords s p sel = some r → Keeps μ s0 r.2 := by
  unfold captureWords
  exact or_keeps (captureBase_keeps h) (or_keeps (captureWork_keeps h) (or_keeps (captureCluster_keeps h)
    (captureOuter_keeps h)))

theorem captureDone_keeps {s p} (h : Keeps μ s0 s) : Keeps μ s0 (captureDone s p) := by
  unfold captureDone
  split
  · rename_i y0 e1
    exact h
  · rename_i y2 y3 y4 e5
    extract_lets x6 x7 x8
    clear_value x6
    have h9 : Keeps μ s0 x7 := by
      unfold x7
      refine upd_keeps ?_
      exact h
    clear_value x7
    clear_value x8
    split
    · rename_i y10 y11 y12 e13
      have h14 : Keeps μ s0 y12 := by
        refine ofSome2 e13 ?_
        refine captureWords_keeps ?_
        exact h9
      refine foldl_intro (P := Keeps μ s0) ?_ ?_
      · refine wr_keeps ?_
        exact h14
      · intro x17 x18 h19
        refine wr_keeps ?_
        exact h19
    · rename_i y20 e21
      refine foldl_intro (P := Keeps μ s0) ?_ ?_
      · refine wr_keeps ?_
        exact h9
      · intro x22 x23 h24
        refine wr_keeps ?_
        exact h24

theorem setStream_keeps {s st x} (hw : μ ||| 2048 = μ) (h : Keeps μ s0 s) : Keeps μ s0 (setStream s st x) := by
  unfold setStream
  refine upd_streams (sub hw rfl) ?_
  exact h

theorem pipeArrives_keeps {s q n} (hw : μ ||| 131072 = μ) (h : Keeps μ s0 s) : Keeps μ s0 (pipeArrives s q n) := by
  unfold pipeArrives
  extract_lets x0
  clear_value x0
  refine upd_pipeIn (sub hw rfl) ?_
  exact h

theorem setPipeQueue_keeps {s q l} (hw : μ ||| 262144 = μ) (h : Keeps μ s0 s) : Keeps μ s0 (setPipeQueue s q l) := by
  unfold setPipeQueue
  refine upd_pipeQ (sub hw rfl) ?_
  exact h

theorem pipeAccept_keeps {s q l} (hw : μ ||| 393472 = μ) (h : Keeps μ s0 s) : Keeps μ s0 (pipeAccept s q l) := by
  unfold pipeAccept
  extract_lets x0 x1 x2 x3
  have h4 : Keeps μ s0 x0 := by
    unfold x0
    refine pipeArrives_keeps (sub hw rfl) ?_
    exact h
  clear_value x0
  clear_value x1
  have h5 : Keeps μ s0 x2 := by
    unfold x2
    refine raise_keeps ?_
    refine bumpSat_keeps ?_
    exact h4
  clear_value x2
  have h6 : Keeps μ s0 x3 := by
    unfold x3
    refine report_keeps (sub hw rfl) ?_
    exact h5
  clear_value x3
  refine ite_intro (P := Keeps μ s0) (fun _ => ?_) (fun _ => ?_)
  · refine setPipeQueue_keeps (sub hw rfl) ?_
    exact h6
  · refine setPipeQueue_keeps (sub hw rfl) ?_
    exact h4

theorem emitLine_keeps {s c l} (hw : μ ||| 393472 = μ) (h : Keeps μ s0 s) : Keeps μ s0 (emitLine s c l) := by
  unfold emitLine
  refine ite_intro (P := Keeps μ s0) (fun _ => ?_) (fun _ => ?_)
  · refine pipeAccept_keeps (sub hw rfl) ?_
    exact h
  · exact h

theorem emitOrHold_keeps {s st l} (hw : μ ||| 395520 = μ) (h : Keeps μ s0 s) : Keeps μ s0 (emitOrHold s st l) := by
  unfold emitOrHold
  extract_lets x0 x1 x2
  clear_value x0
  have h3 : Keeps μ s0 x1 := by
    unfold x1
    refine setStream_keeps (sub hw rfl) ?_
    exact h
  clear_value x1
  clear_value x2
  refine ite_intro (P := Keeps μ s0) (fun _ => ?_) (fun _ => ?_)
  · refine setStream_keeps (sub hw rfl) ?_
    exact h3
  · refine emitLine_keeps (sub hw rfl) ?_
    exact h3

theorem emitPads_keeps {s st upTo extra} (hw : μ ||| 395520 = μ) (h : Keeps μ s0 s) : Keeps μ s0 (emitPads s st upTo extra) := by
  unfold emitPads
  extract_lets x0
  clear_value x0
  refine foldl_intro (P := Keeps μ s0) ?_ ?_
  · exact h
  · intro x1 x2 h3
    refine emitOrHold_keeps (sub hw rfl) ?_
    exact h3

theorem setDq_keeps {s q x} (hw : μ ||| 4194304 = μ) (h : Keeps μ s0 s) : Keeps μ s0 (setDq s q x) := by
  unfold setDq
  refine upd_decq (sub hw rfl) ?_
  exact h

theorem dqUpdate_keeps {s q} (hw : μ ||| 4194304 = μ) (h : Keeps μ s0 s) : Keeps μ s0 (dqUpdate s q) := by
  unfold dqUpdate
  extract_lets x0 x1 x2 x3 x4 x5 x6 x7 x8 x9
  clear_value x0
  clear_value x1
  clear_value x2
  clear_value x3
  clear_value x4
  clear_value x5
  clear_value x6
  have h10 : Keeps μ s0 x7 := by
    unfold x7
    refine wr_keeps ?_
    refine wr_keeps ?_
    refine wr_keeps ?_
    exact h
  clear_value x7
  clear_value x8
  have h11 : ∀ a0 a1, Keeps μ s0 a0 → Keeps μ s0 (x9 a0 a1) := by
    intro a0 a1 h12
    unfold x9
    extract_lets x13 x14
    clear_value x13
    have h15 : Keeps μ s0 x14 := by
      unfold x14
      refine setDq_keeps (sub hw rfl) ?_
      refine wrF_keeps ?_
      exact h12
    clear_value x14
    refine sendEvent_keeps ?_
    exact h15
  clear_value x9
  refine ite_intro (P := Keeps μ s0) (fun _ => ?_) (fun _ => ?_)
  · refine h11 _ _ ?_
    refine raise_keeps ?_
    exact h10
  · refine ite_intro (P := Keeps μ s0) (fun _ => ?_) (fun _ => ?_)
    · refine h11 _ _ ?_
      exact h10
    · exact h10

theorem dqCameraSample_keeps {s q x} (hw : μ ||| 4194304 = μ) (h : Keeps μ s0 s) : Keeps μ s0 (dqCameraSample s q x) := by
  unfold dqCameraSample
  refine ite_intro (P := Keeps μ s0) (fun _ => ?_) (fun _ => ?_)
  · refine dqUpdate_keeps (sub hw rfl) ?_
    refine setDq_keeps (sub hw rfl) ?_
    exact h
  · exact h

theorem decodeSample_keeps {s st flags stop} (hw : μ ||| 4194304 = μ) (h : Keeps μ s0 s) : Keeps μ s0 (decodeSample s st flags stop) := by
  unfold decodeSample
  extract_lets x0 x1 x2
  clear_value x0
  clear_value x1
  clear_value x2
  refine ite_intro (P := Keeps μ s0) (fun _ => ?_) (fun _ => ?_)
  · refine dqCameraSample_keeps (sub hw rfl) ?_
    exact h
  · exact h

theorem streamReport_keeps {s st base status} (hw : μ ||| 256 = μ) (h : Keeps μ s0 s) : Keeps μ s0 (streamReport s st base status) := by
  unfold streamReport
  refine report_keeps (sub hw rfl) ?_
  exact h

theorem emitTestLine_keeps {s st flags stop} (hw : μ ||| 393472 = μ) (h : Keeps μ s0 s) : Keeps μ s0 (emitTestLine s st flags stop) := by
  unfold emitTestLine
  extract_lets x0 x1 x2 x3
  clear_value x0
  clear_value x1
  clear_value x2
  clear_value x3
  refine ite_intro (P := Keeps μ s0) (fun _ => ?_) (fun _ => ?_)
  · refine emitLine_keeps (sub hw rfl) ?_
    exact h
  · exact h

theorem putStatus_keeps {s st} (h : Keeps μ s0 s) : Keeps μ s0 (putStatus s st) := by
  unfold putStatus
  extract_lets x0 x1
  clear_value x0
  clear_value x1
  refine wr_keeps ?_
  exact h

theorem closeFrame_keeps {s st timeout} (hw : μ ||| 8594524416 = μ) (h : Keeps μ s0 s) : Keeps μ s0 (closeFrame s st timeout) := by
  unfold closeFrame
  extract_lets x0 x1 x2 x3 x4 x5 x6 x7 x8 x9 x10 x11 x12 x13 x14 x15 x16 x17
  clear_value x0
  clear_value x1
  clear_value x2
  have h18 : Keeps μ s0 x3 := by
    unfold x3
    refine setStream_keeps (sub hw rfl) ?_
    exact h
  clear_value x3
  have h19 : Keeps μ s0 x4 := by
    unfold x4
    refine ite_intro (P := Keeps μ s0) (fun _ => ?_) (fun _ => ?_)
    · refine emitPads_keeps (sub hw rfl) ?_
      exact h18
    · exact h18
  clear_value x4
  clear_value x5
  clear_value x6
  have h20 : Keeps μ s0 x7 := by
    unfold x7
    split
    · rename_i y21 y22 e23
      refine emitLine_keeps (sub hw rfl) ?_
      exact h19
    · rename_i y24 e25
      exact h19
  clear_value x7
  clear_value x8
  clear_value x9
  have h26 : Keeps μ s0 x10 := by
    unfold x10
    refine setStream_keeps (sub hw rfl) ?_
    exact h20
  clear_value x10
  have h27 : Keeps μ s0 x11 := by
    unfold x11
    refine decodeSample_keeps (sub hw rfl) ?_
    exact h26
  clear_value x11
  clear_value x12
  clear_value x13
  have h28 : Keeps μ s0 x14 := by
    unfold x14
    refine bump_keeps ?_
    exact h27
  clear_value x14
  have h29 : Keeps μ s0 x15 := by
    unfold x15
    refine ite_intro (P := Keeps μ s0) (fun _ => ?_) (fun _ => ?_)
    · refine raise_keeps ?_
      refine bumpSat_keeps ?_
      exact h28
    · exact h28
  clear_value x15
  have h30 : Keeps μ s0 x16 := by
    unfold x16
    refine setRec_keeps (sub hw rfl) ?_
    exact h29
  clear_value x16
  have h31 : Keeps μ s0 x17 := by
    unfold x17
    refine ite_intro (P := Keeps μ s0) (fun _ => ?_) (fun _ => ?_)
    · refine streamReport_keeps (sub hw rfl) ?_
      exact h30
    · exact h30
  clear_value x17
  refine ite_intro (P := Keeps μ s0) (fun _ => ?_) (fun _ => ?_)
  · exact h
  · refine emitTestLine_keeps (sub hw rfl) ?_
    refine putStatus_keeps ?_
    exact h31

theorem streamDisable_keeps {s st} (hw : μ ||| 8594524416 = μ) (h : Keeps μ s0 s) : Keeps μ s0 (streamDisable s st) := by
  unfold streamDisable
  extract_lets x0 x1 x2 x3
  clear_value x0
  have h4 : Keeps μ s0 x1 := by
    unfold x1
    refine closeFrame_keeps (sub hw rfl) ?_
    exact h
  clear_value x1
  clear_value x2
  clear_value x3
  refine ite_intro (P := Keeps μ s0) (fun _ => ?_) (fun _ => ?_)
  · refine setStream_keeps (sub hw rfl) ?_
    exact h4
  · exact h

theorem restoreRegs_keeps {v0 s l} (h : Keeps μ s0 v0) (h2 : Keeps μ s0 s) : Keeps μ s0 (restoreRegs v0 s l) := by
  unfold restoreRegs
  refine foldl_intro (P := Keeps μ s0) ?_ ?_
  · exact h2
  · intro x0 x1 h2
    refine wr_keeps ?_
    exact h2

theorem slotApplied_keeps {v0 s q i} (h : Keeps μ s0 v0) (h2 : Keeps μ s0 s) : Keeps μ s0 (slotApplied v0 s q i) := by
  unfold slotApplied
  refine ite_intro (P := Keeps μ s0) (fun _ => ?_) (fun _ => ?_)
  · refine wrF_keeps ?_
    exact h2
  · refine raise_keeps ?_
    refine wrF_keeps ?_
    refine restoreRegs_keeps ?_ ?_
    · exact h
    · exact h2

theorem ppApplied_keeps {v0 s l} (h : Keeps μ s0 v0) (h2 : Keeps μ s0 s) : Keeps μ s0 (ppApplied v0 s l) := by
  unfold ppApplied
  refine ite_intro (P := Keeps μ s0) (fun _ => ?_) (fun _ => ?_)
  · exact h2
  · refine raise_keeps ?_
    refine restoreRegs_keeps ?_ ?_
    · exact h
    · exact h2

theorem appliedHooks_keeps {v0 s pages} (hw : μ ||| 105597664364908 = μ) (h : Keeps μ s0 v0) (h2 : Keeps μ s0 s) : Keeps μ s0 (appliedHooks v0 s pages) := by
  unfold appliedHooks
  extract_lets x0 x1 x2 x3 x4 x5
  clear_value x0
  clear_value x1
  have h6 : Keeps μ s0 x2 := by
    unfold x2
    refine foldl_intro (P := Keeps μ s0) ?_ ?_
    · exact h2
    · intro x7 x8 h9
      refine ite_intro (P := Keeps μ s0) (fun _ => ?_) (fun _ => ?_)
      · refine streamDisable_keeps (sub hw rfl) ?_
        exact h9
      · exact h9
  clear_value x2
  have h10 : Keeps μ s0 x3 := by
    unfold x3
    refine foldl_intro (P := Keeps μ s0) ?_ ?_
    · exact h6
    · intro x11 x12 h13
      extract_lets x14 x15
      clear_value x14
      clear_value x15
      refine ite_intro (P := Keeps μ s0) (fun _ => ?_) (fun _ => ?_)
      · refine slotApplied_keeps ?_ ?_
        · exact h
        · exact h13
      · exact h13
  clear_value x3
  have h16 : Keeps μ s0 x4 := by
    unfold x4
    refine ite_intro (P := Keeps μ s0) (fun _ => ?_) (fun _ => ?_)
    · refine restoreRegs_keeps ?_ ?_
      · exact h
      · exact h10
    · exact h10
  clear_value x4
  have h17 : Keeps μ s0 x5 := by
    unfold x5
    refine ite_intro (P := Keeps μ s0) (fun _ => ?_) (fun _ => ?_)
    · refine ppApplied_keeps ?_ ?_
      · exact h
      · exact h16
    · exact h16
  clear_value x5
  refine foldl_intro (P := Keeps μ s0) ?_ ?_
  · exact h17
  · intro x18 x19 h20
    split
    · rename_i y21 y22 y23 e24
      refine ite_intro (P := Keeps μ s0) (fun _ => ?_) (fun _ => ?_)
      · refine engNext_keeps (sub hw rfl) ?_
        exact h20
      · exact h20
    · rename_i y25 e26
      exact h20

theorem copyPending_keeps {s q} (h : Keeps μ s0 s) : Keeps μ s0 (copyPending s q) := by
  unfold copyPending
  extract_lets x0 x1 x2
  clear_value x0
  clear_value x1
  clear_value x2
  refine upd_keeps ?_
  exact h

theorem applyGroup_keeps {s g t} (h : Keeps μ s0 s) : Keeps μ s0 (applyGroup s g t) := by
  unfold applyGroup
  extract_lets x0 x1 x2 x3 x4 x5
  have h6 : Keeps μ s0 x0 := by
    unfold x0
    refine copyPending_keeps ?_
    exact h
  clear_value x0
  clear_value x1
  clear_value x2
  have h7 : Keeps μ s0 x3 := by
    unfold x3
    refine upd_keeps ?_
    exact h6
  clear_value x3
  clear_value x4
  have h8 : Keeps μ s0 x5 := by
    unfold x5
    refine setGroup_keeps ?_
    exact h7
  clear_value x5
  refine raise_keeps ?_
  exact h8

theorem groupApplies_keeps {s g t} (hw : μ ||| 105597664364908 = μ) (h : Keeps μ s0 s) : Keeps μ s0 (groupApplies s g t) := by
  unfold groupApplies
  refine appliedHooks_keeps (sub hw rfl) ?_ ?_
  · exact h
  · refine applyGroup_keeps ?_
    exact h

theorem streamLoss_keeps {s st pos flags cls echo} (hw : μ ||| 8 = μ) (h : Keeps μ s0 s) : Keeps μ s0 (streamLoss s st pos flags cls echo) := by
  unfold streamLoss
  extract_lets x0 x1 x2 x3
  clear_value x0
  have h4 : Keeps μ s0 x1 := by
    unfold x1
    refine wr_keeps ?_
    refine upd_pods (sub hw rfl) ?_
    exact h
  clear_value x1
  have h5 : Keeps μ s0 x2 := by
    unfold x2
    refine ite_intro (P := Keeps μ s0) (fun _ => ?_) (fun _ => ?_)
    · exact h4
    · refine raise_keeps ?_
      exact h4
  clear_value x2
  clear_value x3
  refine sendEvent_keeps ?_
  exact h5

theorem podPortWrite_keeps {s off bs} (hw : μ ||| 8 = μ) (h : Keeps μ s0 s) : Keeps μ s0 (podPortWrite s off bs) := by
  unfold podPortWrite
  refine ite_intro (P := Keeps μ s0) (fun _ => ?_) (fun _ => ?_)
  · exact h
  · refine ite_intro (P := Keeps μ s0) (fun _ => ?_) (fun _ => ?_)
    · refine streamLoss_keeps (sub hw rfl) ?_
      exact h
    · extract_lets x0 x1 x2
      have h3 : Keeps μ s0 x0 := by
        unfold x0
        refine wr_keeps ?_
        exact h
      clear_value x0
      clear_value x1
      clear_value x2
      refine wakeRequest_keeps ?_
      refine upd_pods (sub hw rfl) ?_
      exact h3

theorem namedWrite_keeps {s ag a v eff} (h : Keeps μ s0 s) (hf5 : ∀ a0, Keeps μ s0 a0 → Keeps μ s0 (eff a0)) : Keeps μ s0 (namedWrite s ag a v eff) := by
  unfold namedWrite
  refine asAgent_keeps ?_ ?_
  · exact h
  · intro x0 h1
    split
    · rename_i y2 y3 e4
      have h5 : Keeps μ s0 y3 := by
        refine of2 e4 ?_
        refine admitWrite_keeps ?_
        exact h1
      exact h5
    · rename_i y6 y7 e8
      have h9 : Keeps μ s0 y7 := by
        refine of2 e8 ?_
        refine admitWrite_keeps ?_
        exact h1
      refine orderedWrite_keeps ?_ ?_
      · exact h9
      · intro x10 h11
        refine hf5 _ ?_
        exact h11

theorem podReject_keeps {s hdr st flags} (h : Keeps μ s0 s) : Keeps μ s0 (podReject s hdr st flags) := by
  unfold podReject
  extract_lets x0 x1 x2
  clear_value x0
  have h3 : Keeps μ s0 x1 := by
    unfold x1
    refine raise_keeps ?_
    refine bumpSat_keeps ?_
    exact h
  clear_value x1
  have h4 : Keeps μ s0 x2 := by
    unfold x2
    refine ite_intro (P := Keeps μ s0) (fun _ => ?_) (fun _ => ?_)
    · refine raise_keeps ?_
      exact h3
    · exact h3
  clear_value x2
  refine sendEvent_keeps ?_
  exact h4

theorem streamSkip_keeps {s n} (hw : μ ||| 8 = μ) (h : Keeps μ s0 s) : Keeps μ s0 (streamSkip s n) := by
  unfold streamSkip
  refine upd_pods (sub hw rfl) ?_
  exact h

theorem rrFreeze_keeps {s} (hw : μ ||| 1024 = μ) (h : Keeps μ s0 s) : Keeps μ s0 (rrFreeze s) := by
  unfold rrFreeze
  refine raise_keeps ?_
  refine upd_rr (sub hw rfl) ?_
  exact h

theorem rrPut_keeps {s off bs} (hw : μ ||| 35227321762144 = μ) (h : Keeps μ s0 s) : Keeps μ s0 (rrPut s off bs) := by
  unfold rrPut
  extract_lets x0 x1
  clear_value x0
  have h2 : Keeps μ s0 x1 := by
    unfold x1
    refine memWrite_keeps (sub hw rfl) ?_
    exact h
  clear_value x1
  refine ite_intro (P := Keeps μ s0) (fun _ => ?_) (fun _ => ?_)
  · refine memWrite_keeps (sub hw rfl) ?_
    exact h2
  · exact h2

theorem rrWrite_keeps {s stamp kind src aux payload} (hw : μ ||| 35227321763168 = μ) (h : Keeps μ s0 s) : Keeps μ s0 (rrWrite s stamp kind src aux payload) := by
  unfold rrWrite
  refine ite_intro (P := Keeps μ s0) (fun _ => ?_) (fun _ => ?_)
  · exact h
  · extract_lets x0 x1 x2 x3 x4 x5 x6 x7 x8 x9
    clear_value x0
    clear_value x1
    clear_value x2
    clear_value x3
    clear_value x4
    clear_value x5
    have h10 : Keeps μ s0 x6 := by
      unfold x6
      refine rrPut_keeps (sub hw rfl) ?_
      exact h
    clear_value x6
    have h11 : Keeps μ s0 x7 := by
      unfold x7
      refine wr_keeps ?_
      refine wr_keeps ?_
      exact h10
    clear_value x7
    clear_value x8
    have h12 : Keeps μ s0 x9 := by
      unfold x9
      refine upd_rr (sub hw rfl) ?_
      exact h11
    clear_value x9
    refine ite_intro (P := Keeps μ s0) (fun _ => ?_) (fun _ => ?_)
    · refine rrFreeze_keeps (sub hw rfl) ?_
      exact h
    · refine ite_intro (P := Keeps μ s0) (fun _ => ?_) (fun _ => ?_)
      · refine rrFreeze_keeps (sub hw rfl) ?_
        exact h
      · refine ite_intro (P := Keeps μ s0) (fun _ => ?_) (fun _ => ?_)
        · exact h12
        · refine raise_keeps ?_
          exact h12

theorem record_keeps {s lost kind src aux payload stamp} (hw : μ ||| 35227321763168 = μ) (h : Keeps μ s0 s) : Keeps μ s0 (record s lost kind src aux payload stamp) := by
  unfold record
  refine ite_intro (P := Keeps μ s0) (fun _ => ?_) (fun _ => ?_)
  · exact h
  · refine ite_intro (P := Keeps μ s0) (fun _ => ?_) (fun _ => ?_)
    · extract_lets x0 x1
      clear_value x0
      clear_value x1
      refine upd_rr (sub hw rfl) ?_
      exact h
    · extract_lets x2 x3
      clear_value x2
      have h4 : Keeps μ s0 x3 := by
        unfold x3
        split
        · rename_i y5 y6 y7 y8 e9
          extract_lets x10
          have h11 : Keeps μ s0 x10 := by
            unfold x10
            refine rrWrite_keeps (sub hw rfl) ?_
            refine upd_rr (sub hw rfl) ?_
            exact h
          clear_value x10
          refine raise_keeps ?_
          refine bumpSat_keeps ?_
          exact h11
        · rename_i y12 y13 y14 e15
          exact h
      clear_value x3
      refine rrWrite_keeps (sub hw rfl) ?_
      exact h4

theorem markSeq_keeps {s o q st} (hw : μ ||| 8 = μ) (h : Keeps μ s0 s) : Keeps μ s0 (markSeq s o q st) := by
  unfold markSeq
  split
  · rename_i y0 e1
    refine setWindows_keeps (sub hw rfl) ?_
    exact h
  · rename_i y2 y3 e4
    extract_lets x5 x6 x7
    clear_value x5
    have h8 : Keeps μ s0 x6 := by
      unfold x6
      refine updateWindow_keeps (sub hw rfl) ?_
      exact h
    clear_value x6
    clear_value x7
    refine upd_pods (sub hw rfl) ?_
    exact h8

theorem setGl_keeps {s p x} (hw : μ ||| 68719476736 = μ) (h : Keeps μ s0 s) : Keeps μ s0 (setGl s p x) := by
  unfold setGl
  refine upd_gl (sub hw rfl) ?_
  exact h

theorem queuePacket_keeps {s p k} (hw : μ ||| 68719476736 = μ) (h : Keeps μ s0 s) : Keeps μ s0 (queuePacket s p k) := by
  unfold queuePacket
  extract_lets x0 x1
  clear_value x0
  clear_value x1
  refine setGl_keeps (sub hw rfl) ?_
  refine wakeRequest_keeps ?_
  exact h

theorem sendPacket_keeps {s k} (hw : μ ||| 68719476736 = μ) (h : Keeps μ s0 s) : Keeps μ s0 (sendPacket s k).2 := by
  unfold sendPacket
  split
  · rename_i y0 y1 e2
    refine mk2_keeps ?_
    refine queuePacket_keeps (sub hw rfl) ?_
    exact h
  · rename_i y3 e4
    refine mk2_keeps ?_
    exact h

theorem sendPackets_keeps {s l} (hw : μ ||| 68719476736 = μ) (h : Keeps μ s0 s) : Keeps μ s0 (sendPackets s l).2 := by
  unfold sendPackets
  refine foldl2_keeps ?_ ?_
  · refine mk2_keeps ?_
    exact h
  · intro x0 x1 h2
    refine ite2_keeps (fun _ => ?_) (fun _ => ?_)
    · refine sendPacket_keeps (sub hw rfl) ?_
      exact h2
    · exact h2

theorem noteOut_keeps {s ag pod} (hw : μ ||| 17592186044416 = μ) (h : Keeps μ s0 s) : Keeps μ s0 (noteOut s ag pod) := by
  unfold noteOut
  refine upd_outWrites (sub hw rfl) ?_
  exact h

theorem forwardPod_keeps {s dst cls ag no b} (hw : μ ||| 17660905521152 = μ) (h : Keeps μ s0 s) : Keeps μ s0 (forwardPod s dst cls ag no b).2 := by
  unfold forwardPod
  extract_lets x0 x1 x2
  clear_value x0
  clear_value x1
  have h3 : Keeps μ s0 (x2).2 := by
    unfold x2
    refine sendPackets_keeps (sub hw rfl) ?_
    exact h
  clear_value x2
  refine ite2_keeps (fun _ => ?_) (fun _ => ?_)
  · refine mk2_keeps ?_
    refine noteOut_keeps (sub hw rfl) ?_
    exact h3
  · refine mk2_keeps ?_
    exact h3

theorem podAccept_keeps {s p b} (hw : μ ||| 88029721002252 = μ) (h : Keeps μ s0 s) : Keeps μ s0 (podAccept s p b) := by
  unfold podAccept
  extract_lets x0 x1 x2 x3 x4 x5 x6 x7 x8 x9
  clear_value x0
  clear_value x1
  clear_value x2
  clear_value x3
  clear_value x4
  have h10 : Keeps μ s0 x5 := by
    unfold x5
    refine upd_pods (sub hw rfl) ?_
    exact h
  clear_value x5
  have h11 : Keeps μ s0 x6 := by
    unfold x6
    refine wakeRequest_keeps ?_
    refine bump_keeps ?_
    exact h10
  clear_value x6
  clear_value x7
  have h12 : Keeps μ s0 x8 := by
    unfold x8
    refine updatePod_keeps (sub hw rfl) ?_
    exact h11
  clear_value x8
  have h13 : Keeps μ s0 (x9).2 := by
    unfold x9
    refine forwardPod_keeps (sub hw rfl) ?_
    exact h12
  clear_value x9
  refine ite_intro (P := Keeps μ s0) (fun _ => ?_) (fun _ => ?_)
  · refine ite_intro (P := Keeps μ s0) (fun _ => ?_) (fun _ => ?_)
    · exact h13
    · refine podComplete_keeps (sub hw rfl) ?_
      exact h13
  · refine ite_intro (P := Keeps μ s0) (fun _ => ?_) (fun _ => ?_)
    · split
      · rename_i y14 y15 y16 y17 e18
        refine setGraph_keeps (sub hw rfl) ?_
        exact h11
      · rename_i y19 y20 y21 e22
        exact h11
    · refine ite_intro (P := Keeps μ s0) (fun _ => ?_) (fun _ => ?_)
      · refine dqUpdate_keeps (sub hw rfl) ?_
        exact h11
      · exact h11

theorem podValidate_keeps {s via v2 b} (hw : μ ||| 88029721002252 = μ) (h : Keeps μ s0 s) : Keeps μ s0 (podValidate s via v2 b) := by
  unfold podValidate
  extract_lets x0 x1 x2 x3 x4
  clear_value x0
  have h5 : Keeps μ s0 x1 := by
    unfold x1
    refine markSeq_keeps (sub hw rfl) ?_
    exact h
  clear_value x1
  clear_value x2
  clear_value x3
  have h6 : Keeps μ s0 x4 := by
    unfold x4
    refine ite_intro (P := Keeps μ s0) (fun _ => ?_) (fun _ => ?_)
    · refine raise_keeps ?_
      exact h5
    · exact h5
  clear_value x4
  refine ite_intro (P := Keeps μ s0) (fun _ => ?_) (fun _ => ?_)
  · refine podAccept_keeps (sub hw rfl) ?_
    exact h6
  · refine podReject_keeps ?_
    refine markState_keeps (sub hw rfl) ?_
    exact h6

theorem answerDuplicate_keeps {s o q cls r} (hw : μ ||| 256 = μ) (h : Keeps μ s0 s) : Keeps μ s0 (answerDuplicate s o q cls r) := by
  unfold answerDuplicate
  extract_lets x0 x1 x2
  have h3 : Keeps μ s0 x0 := by
    unfold x0
    refine raise_keeps ?_
    refine bumpSat_keeps ?_
    exact h
  clear_value x0
  clear_value x1
  have h4 : ∀ a0 a1, Keeps μ s0 (x2 a0 a1) := by
    intro a0 a1
    unfold x2
    refine sendEvent_keeps ?_
    exact h3
  clear_value x2
  split
  · rename_i y5 y6 y7 y8 e9
    refine foldl_intro (P := Keeps μ s0) ?_ ?_
    · exact h3
    · intro x10 x11 h12
      refine sendResult_keeps (sub hw rfl) ?_
      exact h12
  · rename_i y13 y14 y15 e16
    refine h4 _ _
  · rename_i y17 y18 y19 e20
    refine h4 _ _
  · rename_i y21 y22 y23 e24
    refine h4 _ _
  · rename_i y25 y26 y27 y28 e29
    refine h4 _ _

theorem podAdmit_keeps {s via b} (hw : μ ||| 88029721002252 = μ) (h : Keeps μ s0 s) : Keeps μ s0 (podAdmit s via b) := by
  unfold podAdmit
  extract_lets x0
  clear_value x0
  split
  · rename_i y1 e2
    refine ite_intro (P := Keeps μ s0) (fun _ => ?_) (fun _ => ?_)
    · refine podReject_keeps ?_
      refine raise_keeps ?_
      exact h
    · refine podValidate_keeps (sub hw rfl) ?_
      exact h
  · rename_i y3 y4 e5
    refine ite_intro (P := Keeps μ s0) (fun _ => ?_) (fun _ => ?_)
    · refine podValidate_keeps (sub hw rfl) ?_
      exact h
    · refine ite_intro (P := Keeps μ s0) (fun _ => ?_) (fun _ => ?_)
      · refine podReject_keeps ?_
        exact h
      · split
        · rename_i y6 y7 y8 y9 e10
          refine answerDuplicate_keeps (sub hw rfl) ?_
          exact h
        · rename_i y11 y12 y13 e14
          refine podValidate_keeps (sub hw rfl) ?_
          exact h

end Sys2Proof.Laws
end

