-- ==== Sys2Proof/Laws/Keeps4.lean ====
section
/-!
SUPPORT. The functions of the model keep the queue, the fuses and the canonical memories: part 4.
-/

namespace Sys2Proof.Laws

open Sys2Proof.Machine Sys2Proof.Safety

variable {s0 : State} {α β γ δ : Type} {μ : Nat}

theorem podFramed_keeps {s via rrLost b} (hw : μ ||| 123257042765164 = μ) (h : Keeps μ s0 s) : Keeps μ s0 (podFramed s via rrLost b) := by
  unfold podFramed
  extract_lets x0 x1 x2 x3
  clear_value x0
  clear_value x1
  have h4 : Keeps μ s0 x2 := by
    unfold x2
    refine ite_intro (P := Keeps μ s0) (fun _ => ?_) (fun _ => ?_)
    · refine upd_pods (sub hw rfl) ?_
      exact h
    · exact h
  clear_value x2
  have h5 : Keeps μ s0 x3 := by
    unfold x3
    refine record_keeps (sub hw rfl) ?_
    exact h4
  clear_value x3
  refine ite_intro (P := Keeps μ s0) (fun _ => ?_) (fun _ => ?_)
  · refine podReject_keeps ?_
    exact h5
  · refine podAdmit_keeps (sub hw rfl) ?_
    exact h5

theorem receiveStream_keeps {s rrLost} (hw : μ ||| 123257042765164 = μ) (h : Keeps μ s0 s) : Keeps μ s0 (receiveStream s rrLost) := by
  unfold receiveStream
  extract_lets x0 x1 x2 x3 x4
  clear_value x0
  clear_value x1
  clear_value x2
  clear_value x3
  clear_value x4
  refine ite_intro (P := Keeps μ s0) (fun _ => ?_) (fun _ => ?_)
  · exact h
  · refine ite_intro (P := Keeps μ s0) (fun _ => ?_) (fun _ => ?_)
    · refine ite_intro (P := Keeps μ s0) (fun _ => ?_) (fun _ => ?_)
      · refine streamLoss_keeps (sub hw rfl) ?_
        refine podReject_keeps ?_
        exact h
      · refine streamSkip_keeps (sub hw rfl) ?_
        refine podReject_keeps ?_
        exact h
    · refine ite_intro (P := Keeps μ s0) (fun _ => ?_) (fun _ => ?_)
      · refine streamLoss_keeps (sub hw rfl) ?_
        exact h
      · refine ite_intro (P := Keeps μ s0) (fun _ => ?_) (fun _ => ?_)
        · exact h
        · refine ite_intro (P := Keeps μ s0) (fun _ => ?_) (fun _ => ?_)
          · refine streamLoss_keeps (sub hw rfl) ?_
            refine podReject_keeps ?_
            exact h
          · refine podFramed_keeps (sub hw rfl) ?_
            refine streamSkip_keeps (sub hw rfl) ?_
            exact h

theorem receiveGuyline_keeps {s via rrLost} (hw : μ ||| 263994531120492 = μ) (h : Keeps μ s0 s) : Keeps μ s0 (receiveGuyline s via rrLost) := by
  unfold receiveGuyline
  split
  · rename_i y0 e1
    exact h
  · rename_i y2 y3 y4 e5
    extract_lets x6 x7 x8 x9
    clear_value x6
    clear_value x7
    clear_value x8
    have h10 : Keeps μ s0 x9 := by
      unfold x9
      refine upd_podsIn (sub hw rfl) ?_
      exact h
    clear_value x9
    refine ite_intro (P := Keeps μ s0) (fun _ => ?_) (fun _ => ?_)
    · refine podReject_keeps ?_
      exact h10
    · refine ite_intro (P := Keeps μ s0) (fun _ => ?_) (fun _ => ?_)
      · refine podReject_keeps ?_
        exact h10
      · refine ite_intro (P := Keeps μ s0) (fun _ => ?_) (fun _ => ?_)
        · exact h
        · refine ite_intro (P := Keeps μ s0) (fun _ => ?_) (fun _ => ?_)
          · refine podReject_keeps ?_
            exact h10
          · refine podFramed_keeps (sub hw rfl) ?_
            exact h10

theorem leaveQueue_keeps {s p} (hw : μ ||| 67108864 = μ) (h : Keeps μ s0 s) : Keeps μ s0 (leaveQueue s p) := by
  unfold leaveQueue
  extract_lets x0
  clear_value x0
  split
  · rename_i y1 y2 e3
    refine ite_intro (P := Keeps μ s0) (fun _ => ?_) (fun _ => ?_)
    · refine setGraph_keeps (sub hw rfl) ?_
      exact h
    · exact h
  · rename_i y4 e5
    exact h

theorem busWrite_keeps {s ag a b cls echo} (hw : μ ||| 496908948734015340 = μ) (h : Keeps μ s0 s) : Keeps μ s0 (busWrite s ag a b cls echo).2 := by
  unfold busWrite
  split
  · rename_i y0 y1 y2 e3
    refine mk2_keeps ?_
    refine noteRefusal_keeps (sub hw rfl) ?_
    exact h
  · rename_i y4 e5
    refine ite2_keeps (fun _ => ?_) (fun _ => ?_)
    · refine mk2_keeps ?_
      refine regWrite_keeps (sub hw rfl) ?_
      exact h
    · refine memStore_keeps (sub hw rfl) ?_
      exact h

theorem remoteWrite_keeps {s a b cls ag pod} (hw : μ ||| 17660905521152 = μ) (h : Keeps μ s0 s) : Keeps μ s0 (remoteWrite s a b cls ag pod).2 := by
  unfold remoteWrite
  extract_lets x0 x1 x2
  clear_value x0
  clear_value x1
  have h3 : Keeps μ s0 (x2).2 := by
    unfold x2
    refine sendPackets_keeps (sub hw rfl) ?_
    exact h
  clear_value x2
  refine ite2_keeps (fun _ => ?_) (fun _ => ?_)
  · refine mk2_keeps ?_
    refine noteOut_keeps (sub hw rfl) ?_
    exact h3
  · refine mk2_keeps ?_
    exact h3

theorem dataWrite_keeps {s p} (hw : μ ||| 496926609639536492 = μ) (h : Keeps μ s0 s) : Keeps μ s0 (dataWrite s p).2 := by
  unfold dataWrite
  extract_lets x0 x1
  clear_value x0
  clear_value x1
  refine ite2_keeps (fun _ => ?_) (fun _ => ?_)
  · refine busWrite_keeps (sub hw rfl) ?_
    exact h
  · refine remoteWrite_keeps (sub hw rfl) ?_
    exact h

theorem podStart_keeps {s no} (hw : μ ||| 496926609639536492 = μ) (h : Keeps μ s0 s) : Keeps μ s0 (podStart s no) := by
  unfold podStart
  split
  · rename_i y0 e1
    exact h
  · rename_i y2 y3 e4
    extract_lets x5 x6 x7 x8
    clear_value x5
    have h9 : Keeps μ s0 x6 := by
      unfold x6
      refine updatePod_keeps (sub hw rfl) ?_
      exact h
    clear_value x6
    have h10 : Keeps μ s0 x7 := by
      unfold x7
      refine ite_intro (P := Keeps μ s0) (fun _ => ?_) (fun _ => ?_)
      · exact h9
      · refine markState_keeps (sub hw rfl) ?_
        exact h9
    clear_value x7
    have h11 : Keeps μ s0 (x8).2 := by
      unfold x8
      refine dataWrite_keeps (sub hw rfl) ?_
      exact h10
    clear_value x8
    refine ite_intro (P := Keeps μ s0) (fun _ => ?_) (fun _ => ?_)
    · exact h
    · refine ite_intro (P := Keeps μ s0) (fun _ => ?_) (fun _ => ?_)
      · refine podComplete_keeps (sub hw rfl) ?_
        refine leaveQueue_keeps (sub hw rfl) ?_
        exact h
      · refine ite_intro (P := Keeps μ s0) (fun _ => ?_) (fun _ => ?_)
        · exact h
        · refine ite_intro (P := Keeps μ s0) (fun _ => ?_) (fun _ => ?_)
          · exact h
          · refine ite_intro (P := Keeps μ s0) (fun _ => ?_) (fun _ => ?_)
            · refine ite_intro (P := Keeps μ s0) (fun _ => ?_) (fun _ => ?_)
              · exact h11
              · refine podComplete_keeps (sub hw rfl) ?_
                exact h11
            · exact h10

theorem takePod_keeps {s no kind q} (hw : μ ||| 8 = μ) (h : Keeps μ s0 s) : ∀ r, takePod s no kind q = some r → Keeps μ s0 r.2 := by
  unfold takePod
  split
  · rename_i y2 y3 e4
    refine iteO2_keeps (fun _ => ?_) (fun _ => ?_)
    · refine some_keeps ?_
      refine mk2_keeps ?_
      refine updatePod_keeps (sub hw rfl) ?_
      exact h
    · exact none_keeps
  · rename_i y11 e12
    exact none_keeps

theorem originClose_keeps {s no} (hw : μ ||| 8 = μ) (h : Keeps μ s0 s) : Keeps μ s0 (originClose s no) := by
  unfold originClose
  split
  · rename_i y0 y1 y2 e3
    have h4 : Keeps μ s0 y2 := by
      refine ofSome2 e3 ?_
      refine takePod_keeps (sub hw rfl) ?_
      exact h
    exact h4
  · rename_i y7 e8
    exact h

theorem originWindowClose_keeps {s o} (hw : μ ||| 70368744177932 = μ) (h : Keeps μ s0 s) : Keeps μ s0 (originWindowClose s o) := by
  unfold originWindowClose
  split
  · rename_i y0 e1
    exact h
  · rename_i y2 y3 e4
    extract_lets x5 x6 x7
    have h8 : Keeps μ s0 x5 := by
      unfold x5
      refine podComplete_keeps (sub hw rfl) ?_
      exact h
    clear_value x5
    have h9 : Keeps μ s0 x6 := by
      unfold x6
      refine setWindows_keeps (sub hw rfl) ?_
      exact h8
    clear_value x6
    clear_value x7
    refine upd_pods (sub hw rfl) ?_
    exact h9

theorem hostReply_keeps {s c} (hw : μ ||| 4398046511104 = μ) (h : Keeps μ s0 s) : Keeps μ s0 (hostReply s c) := by
  unfold hostReply
  refine upd_hostOut (sub hw rfl) ?_
  exact h

theorem readWord_keeps {s a} (h : Keeps μ s0 s) : Keeps μ s0 (readWord s a).2 := by
  unfold readWord
  extract_lets x0
  clear_value x0
  refine ite2_keeps (fun _ => ?_) (fun _ => ?_)
  · refine mk2_keeps ?_
    exact h
  · split
    · rename_i y1 y2 e3
      refine mk2_keeps ?_
      exact h
    · rename_i y4 y5 y6 e7
      refine ite2_keeps (fun _ => ?_) (fun _ => ?_)
      · refine mk2_keeps ?_
        exact h
      · split
        · rename_i y8 y9 e10
          refine mk2_keeps ?_
          exact h
        · rename_i y11 y12 y13 y14 e15
          split
          · rename_i y16 y17 e18
            refine mk2_keeps ?_
            exact h
          · rename_i y19 e20
            refine ite2_keeps (fun _ => ?_) (fun _ => ?_)
            · refine mk2_keeps ?_
              exact h
            · refine ite2_keeps (fun _ => ?_) (fun _ => ?_)
              · refine mk2_keeps ?_
                exact h
              · split
                · rename_i y21 y22 y23 y24 e25
                  refine mk2_keeps ?_
                  refine drawFree_keeps ?_
                  exact h
                · rename_i y26 y27 y28 e29
                  refine mk2_keeps ?_
                  exact h

theorem regRead_keeps {s ag a n} (h : Keeps μ s0 s) : Keeps μ s0 (regRead s ag a n).2 := by
  unfold regRead
  refine ite2_keeps (fun _ => ?_) (fun _ => ?_)
  · refine mk2_keeps ?_
    refine readWord_keeps ?_
    exact h
  · refine ite2_keeps (fun _ => ?_) (fun _ => ?_)
    · extract_lets x0 x1
      have h2 : Keeps μ s0 (x0).2 := by
        unfold x0
        refine readWord_keeps ?_
        exact h
      clear_value x0
      have h3 : Keeps μ s0 (x1).2 := by
        unfold x1
        refine readWord_keeps ?_
        exact h2
      clear_value x1
      refine mk2_keeps ?_
      exact h3
    · refine mk2_keeps ?_
      refine accessError_keeps ?_
      exact h

theorem busRead_keeps {s ag a n cls echo} (hw : μ ||| 42949673280 = μ) (h : Keeps μ s0 s) : Keeps μ s0 (busRead s ag a n cls echo).2.2 := by
  unfold busRead
  split
  · rename_i y0 y1 y2 e3
    refine mk3_keeps ?_
    refine noteRefusal_keeps (sub hw rfl) ?_
    exact h
  · rename_i y4 e5
    refine ite3_keeps (fun _ => ?_) (fun _ => ?_)
    · refine mk2p_keeps ?_
      refine regRead_keeps ?_
      exact h
    · refine ite3_keeps (fun _ => ?_) (fun _ => ?_)
      · refine mk3_keeps ?_
        exact h
      · refine memRead_keeps (sub hw rfl) ?_
        exact h

theorem hostRefused_keeps {s st} (hw : μ ||| 4398046511104 = μ) (h : Keeps μ s0 s) : Keeps μ s0 (hostRefused s st) := by
  unfold hostRefused
  refine hostReply_keeps (sub hw rfl) ?_
  exact h

theorem bar2Read_keeps {s a n} (hw : μ ||| 13305808683328 = μ) (h : Keeps μ s0 s) : Keeps μ s0 (bar2Read s a n) := by
  unfold bar2Read
  refine ite_intro (P := Keeps μ s0) (fun _ => ?_) (fun _ => ?_)
  · refine ite_intro (P := Keeps μ s0) (fun _ => ?_) (fun _ => ?_)
    · exact h
    · split
      · rename_i y0 y1 y2 y3 y4 e5
        have h6 : Keeps μ s0 y4 := by
          refine of3 e5 ?_
          refine busRead_keeps (sub hw rfl) ?_
          exact h
        refine hostReply_keeps (sub hw rfl) ?_
        exact h6
      · rename_i y7 y8 y9 y10 y11 y12 e13 e14
        have h15 : Keeps μ s0 y12 := by
          refine of3 e14 ?_
          refine busRead_keeps (sub hw rfl) ?_
          exact h
        refine hostRefused_keeps (sub hw rfl) ?_
        exact h15
  · extract_lets x16
    clear_value x16
    split
    · rename_i y17 y18 y19 e20
      have h21 : Keeps μ s0 y19 := by
        refine of2 e20 ?_
        refine sendPacket_keeps (sub hw rfl) ?_
        exact h
      refine upd_remote (sub hw rfl) ?_
      exact h21
    · rename_i y22 y23 y24 e25
      have h26 : Keeps μ s0 y24 := by
        refine of2 e25 ?_
        refine sendPacket_keeps (sub hw rfl) ?_
        exact h
      refine hostRefused_keeps (sub hw rfl) ?_
      exact h26

theorem recordWrite_keeps {s lost src a bs} (hw : μ ||| 35227321763168 = μ) (h : Keeps μ s0 s) : Keeps μ s0 (recordWrite s lost src a bs) := by
  unfold recordWrite
  extract_lets x0
  clear_value x0
  refine ite_intro (P := Keeps μ s0) (fun _ => ?_) (fun _ => ?_)
  · refine record_keeps (sub hw rfl) ?_
    exact h
  · exact h

theorem bar2Write_keeps {s a b rrLost} (hw : μ ||| 496931007686047596 = μ) (h : Keeps μ s0 s) : Keeps μ s0 (bar2Write s a b rrLost) := by
  unfold bar2Write
  refine ite_intro (P := Keeps μ s0) (fun _ => ?_) (fun _ => ?_)
  · refine ite_intro (P := Keeps μ s0) (fun _ => ?_) (fun _ => ?_)
    · exact h
    · split
      · rename_i y0 y1 y2 y3 e4
        have h5 : Keeps μ s0 y3 := by
          refine of2 e4 ?_
          refine busWrite_keeps (sub hw rfl) ?_
          exact h
        refine hostReply_keeps (sub hw rfl) ?_
        refine recordWrite_keeps (sub hw rfl) ?_
        exact h5
      · rename_i y6 y7 y8 y9 y10 e11 e12
        have h13 : Keeps μ s0 y10 := by
          refine of2 e12 ?_
          refine busWrite_keeps (sub hw rfl) ?_
          exact h
        refine hostRefused_keeps (sub hw rfl) ?_
        exact h13
  · split
    · rename_i y14 y15 y16 e17
      have h18 : Keeps μ s0 y16 := by
        refine of2 e17 ?_
        refine remoteWrite_keeps (sub hw rfl) ?_
        exact h
      refine hostReply_keeps (sub hw rfl) ?_
      exact h18
    · rename_i y19 y20 y21 y22 e23 e24
      have h25 : Keeps μ s0 y22 := by
        refine of2 e24 ?_
        refine remoteWrite_keeps (sub hw rfl) ?_
        exact h
      refine hostRefused_keeps (sub hw rfl) ?_
      exact h25

theorem bar2Access_keeps {s off acc rrLost} (hw : μ ||| 496939803779069804 = μ) (h : Keeps μ s0 s) : Keeps μ s0 (bar2Access s off acc rrLost) := by
  unfold bar2Access
  extract_lets x0 x1
  clear_value x0
  clear_value x1
  refine ite_intro (P := Keeps μ s0) (fun _ => ?_) (fun _ => ?_)
  · exact h
  · refine ite_intro (P := Keeps μ s0) (fun _ => ?_) (fun _ => ?_)
    · refine hostReply_keeps (sub hw rfl) ?_
      exact h
    · split
      · rename_i y2 y3 y4 y5
        refine bar2Read_keeps (sub hw rfl) ?_
        exact h
      · rename_i y6 y7 y8 y9
        refine bar2Write_keeps (sub hw rfl) ?_
        exact h

theorem remoteTimeout_keeps {s} (hw : μ ||| 13194139533312 = μ) (h : Keeps μ s0 s) : Keeps μ s0 (remoteTimeout s) := by
  unfold remoteTimeout
  split
  · rename_i y0 y1 y2 e3
    refine ite_intro (P := Keeps μ s0) (fun _ => ?_) (fun _ => ?_)
    · refine hostReply_keeps (sub hw rfl) ?_
      refine upd_remote (sub hw rfl) ?_
      exact h
    · exact h
  · rename_i y4 e5
    exact h

theorem hostReset_keeps {s} (h : Keeps μ s0 s) : Keeps μ s0 (hostReset s) := by
  unfold hostReset
  refine ite_intro (P := Keeps μ s0) (fun _ => ?_) (fun _ => ?_)
  · refine wrF_keeps ?_
    exact h
  · exact h

theorem functionReset_keeps {s} (hw : μ ||| 8796093022208 = μ) (h : Keeps μ s0 s) : Keeps μ s0 (functionReset s) := by
  unfold functionReset
  refine ite_intro (P := Keeps μ s0) (fun _ => ?_) (fun _ => ?_)
  · exact h
  · extract_lets x0 x1
    have h2 : Keeps μ s0 x0 := by
      unfold x0
      refine foldl_intro (P := Keeps μ s0) ?_ ?_
      · exact h
      · intro x3 x4 h5
        refine foldl_intro (P := Keeps μ s0) ?_ ?_
        · exact h5
        · intro x6 x7 h8
          refine wr_keeps ?_
          exact h8
    clear_value x0
    have h9 : Keeps μ s0 x1 := by
      unfold x1
      refine foldl_intro (P := Keeps μ s0) ?_ ?_
      · exact h2
      · intro x10 x11 h12
        refine wr_keeps ?_
        exact h12
    clear_value x1
    refine hostReset_keeps ?_
    refine upd_remote (sub hw rfl) ?_
    exact h9

theorem linkTag_keeps {s link} (hw : μ ||| 274877906944 = μ) (h : Keeps μ s0 s) : Keeps μ s0 (linkTag s link).2 := by
  unfold linkTag
  extract_lets x0
  clear_value x0
  refine mk2_keeps ?_
  refine upd_linkDowns (sub hw rfl) ?_
  exact h

theorem tagJobs_keeps {s execs tag} (hw : μ ||| 134217728 = μ) (h : Keeps μ s0 s) : Keeps μ s0 (tagJobs s execs tag) := by
  unfold tagJobs
  refine upd_insts (sub hw rfl) ?_
  exact h

theorem hostDown_keeps {s jobs} (hw : μ ||| 11270128402696 = μ) (h : Keeps μ s0 s) : Keeps μ s0 (hostDown s jobs) := by
  unfold hostDown
  refine ite_intro (P := Keeps μ s0) (fun _ => ?_) (fun _ => ?_)
  · exact h
  · extract_lets x0 x1 x2 x3 x4
    have h5 : Keeps μ s0 (x0).2 := by
      unfold x0
      refine linkTag_keeps (sub hw rfl) ?_
      exact h
    clear_value x0
    have h6 : Keeps μ s0 x1 := by
      unfold x1
      refine wr_keeps ?_
      refine bumpSat_keeps ?_
      exact h5
    clear_value x1
    have h7 : Keeps μ s0 x2 := by
      unfold x2
      refine wr_keeps ?_
      exact h6
    clear_value x2
    have h8 : Keeps μ s0 x3 := by
      unfold x3
      refine report_keeps (sub hw rfl) ?_
      refine raise_keeps ?_
      exact h7
    clear_value x3
    have h9 : Keeps μ s0 x4 := by
      unfold x4
      refine ite_intro (P := Keeps μ s0) (fun _ => ?_) (fun _ => ?_)
      · exact h8
      · refine streamLoss_keeps (sub hw rfl) ?_
        exact h8
    clear_value x4
    refine tagJobs_keeps (sub hw rfl) ?_
    refine upd_media_remote (sub hw rfl) ?_
    exact h9

theorem mediaBlock_keeps {s seq ok jobs} (hw : μ ||| 11270128402696 = μ) (h : Keeps μ s0 s) : Keeps μ s0 (mediaBlock s seq ok jobs) := by
  unfold mediaBlock
  extract_lets x0 x1 x2 x3 x4
  clear_value x0
  clear_value x1
  clear_value x2
  clear_value x3
  have h5 : Keeps μ s0 x4 := by
    unfold x4
    refine ite_intro (P := Keeps μ s0) (fun _ => ?_) (fun _ => ?_)
    · refine bump_keeps ?_
      exact h
    · exact h
  clear_value x4
  refine ite_intro (P := Keeps μ s0) (fun _ => ?_) (fun _ => ?_)
  · exact h
  · refine ite_intro (P := Keeps μ s0) (fun _ => ?_) (fun _ => ?_)
    · refine upd_media (sub hw rfl) ?_
      exact h
    · refine ite_intro (P := Keeps μ s0) (fun _ => ?_) (fun _ => ?_)
      · refine hostDown_keeps (sub hw rfl) ?_
        refine raise_keeps ?_
        exact h
      · refine upd_media (sub hw rfl) ?_
        exact h5

theorem closeMerge_keeps {s link} (hw : μ ||| 256 = μ) (h : Keeps μ s0 s) : Keeps μ s0 (closeMerge s link) := by
  unfold closeMerge
  refine upd_fc (sub hw rfl) ?_
  exact h

theorem hostLinkUp_keeps {s gen4} (hw : μ ||| 2199023255808 = μ) (h : Keeps μ s0 s) : Keeps μ s0 (hostLinkUp s gen4) := by
  unfold hostLinkUp
  extract_lets x0 x1 x2
  clear_value x0
  clear_value x1
  have h3 : Keeps μ s0 x2 := by
    unfold x2
    refine raise_keeps ?_
    refine wr_keeps ?_
    exact h
  clear_value x2
  refine ite_intro (P := Keeps μ s0) (fun _ => ?_) (fun _ => ?_)
  · exact h
  · refine closeMerge_keeps (sub hw rfl) ?_
    refine levelClear_keeps (sub hw rfl) ?_
    refine hostReset_keeps ?_
    refine upd_media (sub hw rfl) ?_
    exact h3

theorem portFail_keeps {s n k flag} (h : Keeps μ s0 s) : Keeps μ s0 (portFail s n k flag) := by
  unfold portFail
  extract_lets x0
  have h1 : Keeps μ s0 x0 := by
    unfold x0
    refine bumpSat_keeps ?_
    exact h
  clear_value x0
  refine ite_intro (P := Keeps μ s0) (fun _ => ?_) (fun _ => ?_)
  · exact h1
  · refine raise_keeps ?_
    exact h1

theorem patternFail_keeps {s st status flag} (hw : μ ||| 256 = μ) (h : Keeps μ s0 s) : Keeps μ s0 (patternFail s st status flag) := by
  unfold patternFail
  extract_lets x0
  have h1 : Keeps μ s0 x0 := by
    unfold x0
    refine raise_keeps ?_
    refine bumpSat_keeps ?_
    exact h
  clear_value x0
  refine streamReport_keeps (sub hw rfl) ?_
  exact h1

theorem openFrame_keeps {s st} (hw : μ ||| 2048 = μ) (h : Keeps μ s0 s) : Keeps μ s0 (openFrame s st) := by
  unfold openFrame
  refine putStatus_keeps ?_
  refine setStream_keeps (sub hw rfl) ?_
  exact h

theorem frameStart_keeps {s st n} (hw : μ ||| 2304 = μ) (h : Keeps μ s0 s) : Keeps μ s0 (frameStart s st n) := by
  unfold frameStart
  extract_lets x0 x1 x2 x3 x4 x5 x6
  clear_value x0
  clear_value x1
  have h7 : Keeps μ s0 x2 := by
    unfold x2
    refine putStatus_keeps ?_
    refine setStream_keeps (sub hw rfl) ?_
    exact h
  clear_value x2
  clear_value x3
  have h8 : Keeps μ s0 x4 := by
    unfold x4
    refine ite_intro (P := Keeps μ s0) (fun _ => ?_) (fun _ => ?_)
    · refine patternFail_keeps (sub hw rfl) ?_
      exact h7
    · exact h7
  clear_value x4
  clear_value x5
  have h9 : Keeps μ s0 x6 := by
    unfold x6
    refine setStream_keeps (sub hw rfl) ?_
    exact h8
  clear_value x6
  split
  · rename_i y10 e11
    exact h7
  · rename_i y12 y13 e14
    split
    · rename_i y15 e16
      refine openFrame_keeps (sub hw rfl) ?_
      exact h8
    · rename_i y17 e18
      refine ite_intro (P := Keeps μ s0) (fun _ => ?_) (fun _ => ?_)
      · exact h9
      · refine streamReport_keeps (sub hw rfl) ?_
        refine raise_keeps ?_
        exact h9
    · rename_i y19 e20
      refine ite_intro (P := Keeps μ s0) (fun _ => ?_) (fun _ => ?_)
      · exact h9
      · refine streamReport_keeps (sub hw rfl) ?_
        refine raise_keeps ?_
        exact h9

theorem frameEnd_keeps {s st} (hw : μ ||| 8594524416 = μ) (h : Keeps μ s0 s) : Keeps μ s0 (frameEnd s st) := by
  unfold frameEnd
  extract_lets x0
  clear_value x0
  refine ite_intro (P := Keeps μ s0) (fun _ => ?_) (fun _ => ?_)
  · refine setStream_keeps (sub hw rfl) ?_
    exact h
  · refine closeFrame_keeps (sub hw rfl) ?_
    exact h

theorem lineLost_keeps {s st status} (hw : μ ||| 2048 = μ) (h : Keeps μ s0 s) : Keeps μ s0 (lineLost s st status) := by
  unfold lineLost
  extract_lets x0
  clear_value x0
  refine ite_intro (P := Keeps μ s0) (fun _ => ?_) (fun _ => ?_)
  · refine setStream_keeps (sub hw rfl) ?_
    exact h
  · exact h

theorem patternPacket_keeps {s st p} (hw : μ ||| 2304 = μ) (h : Keeps μ s0 s) : Keeps μ s0 (patternPacket s st p) := by
  unfold patternPacket
  extract_lets x0 x1
  clear_value x0
  have h2 : Keeps μ s0 x1 := by
    unfold x1
    refine setStream_keeps (sub hw rfl) ?_
    exact h
  clear_value x1
  refine ite_intro (P := Keeps μ s0) (fun _ => ?_) (fun _ => ?_)
  · refine ite_intro (P := Keeps μ s0) (fun _ => ?_) (fun _ => ?_)
    · exact h2
    · refine patternFail_keeps (sub hw rfl) ?_
      exact h2
  · exact h

theorem embeddedLine_keeps {s st idx p} (hw : μ ||| 395520 = μ) (h : Keeps μ s0 s) : Keeps μ s0 (embeddedLine s st idx p) := by
  unfold embeddedLine
  extract_lets x0 x1 x2 x3 x4 x5 x6
  clear_value x0
  clear_value x1
  clear_value x2
  clear_value x3
  have h7 : Keeps μ s0 x4 := by
    unfold x4
    refine ite_intro (P := Keeps μ s0) (fun _ => ?_) (fun _ => ?_)
    · refine wrF_keeps ?_
      refine wrF_keeps ?_
      exact h
    · exact h
  clear_value x4
  have h8 : Keeps μ s0 x5 := by
    unfold x5
    refine ite_intro (P := Keeps μ s0) (fun _ => ?_) (fun _ => ?_)
    · refine setStream_keeps (sub hw rfl) ?_
      exact h7
    · exact h7
  clear_value x5
  clear_value x6
  refine ite_intro (P := Keeps μ s0) (fun _ => ?_) (fun _ => ?_)
  · refine emitLine_keeps (sub hw rfl) ?_
    exact h8
  · exact h8

theorem takeLine_keeps {s st idx p} (hw : μ ||| 395520 = μ) (h : Keeps μ s0 s) : Keeps μ s0 (takeLine s st idx p) := by
  unfold takeLine
  extract_lets x0 x1 x2 x3 x4 x5 x6
  clear_value x0
  clear_value x1
  have h7 : Keeps μ s0 x2 := by
    unfold x2
    refine emitPads_keeps (sub hw rfl) ?_
    refine setStream_keeps (sub hw rfl) ?_
    exact h
  clear_value x2
  clear_value x3
  clear_value x4
  clear_value x5
  clear_value x6
  refine ite_intro (P := Keeps μ s0) (fun _ => ?_) (fun _ => ?_)
  · refine setStream_keeps (sub hw rfl) ?_
    exact h
  · refine ite_intro (P := Keeps μ s0) (fun _ => ?_) (fun _ => ?_)
    · exact h
    · refine emitOrHold_keeps (sub hw rfl) ?_
      exact h7

theorem imagePacket_keeps {s st idx p} (hw : μ ||| 395520 = μ) (h : Keeps μ s0 s) : Keeps μ s0 (imagePacket s st idx p) := by
  unfold imagePacket
  extract_lets x0 x1 x2 x3 x4
  clear_value x0
  have h5 : Keeps μ s0 x1 := by
    unfold x1
    refine ite_intro (P := Keeps μ s0) (fun _ => ?_) (fun _ => ?_)
    · refine openFrame_keeps (sub hw rfl) ?_
      refine setStream_keeps (sub hw rfl) ?_
      exact h
    · exact h
  clear_value x1
  clear_value x2
  have h6 : Keeps μ s0 x3 := by
    unfold x3
    refine setStream_keeps (sub hw rfl) ?_
    exact h5
  clear_value x3
  clear_value x4
  split
  · rename_i y7 e8
    refine bumpSat_keeps ?_
    exact h
  · rename_i y9 y10 e11
    refine ite_intro (P := Keeps μ s0) (fun _ => ?_) (fun _ => ?_)
    · exact h
    · refine ite_intro (P := Keeps μ s0) (fun _ => ?_) (fun _ => ?_)
      · exact h5
      · refine ite_intro (P := Keeps μ s0) (fun _ => ?_) (fun _ => ?_)
        · refine setStream_keeps (sub hw rfl) ?_
          exact h6
        · refine takeLine_keeps (sub hw rfl) ?_
          exact h6

theorem packetEnd_keeps {s port asm} (hw : μ ||| 8594524416 = μ) (h : Keeps μ s0 s) : Keeps μ s0 (packetEnd s port asm) := by
  unfold packetEnd
  refine ite_intro (P := Keeps μ s0) (fun _ => ?_) (fun _ => ?_)
  · exact h
  · split
    · rename_i y0 y1 e2
      exact h
    · rename_i y3 y4 y5 y6 e7
      extract_lets x8 x9 x10 x11 x12 x13 x14
      clear_value x8
      clear_value x9
      clear_value x10
      have h15 : Keeps μ s0 x11 := by
        unfold x11
        refine ite_intro (P := Keeps μ s0) (fun _ => ?_) (fun _ => ?_)
        · refine portFail_keeps ?_
          exact h
        · refine ite_intro (P := Keeps μ s0) (fun _ => ?_) (fun _ => ?_)
          · refine portFail_keeps ?_
            exact h
          · exact h
      clear_value x11
      clear_value x12
      clear_value x13
      clear_value x14
      refine ite_intro (P := Keeps μ s0) (fun _ => ?_) (fun _ => ?_)
      · refine ite_intro (P := Keeps μ s0) (fun _ => ?_) (fun _ => ?_)
        · refine frameStart_keeps (sub hw rfl) ?_
          exact h
        · refine ite_intro (P := Keeps μ s0) (fun _ => ?_) (fun _ => ?_)
          · refine frameEnd_keeps (sub hw rfl) ?_
            exact h
          · exact h
      · refine ite_intro (P := Keeps μ s0) (fun _ => ?_) (fun _ => ?_)
        · refine lineLost_keeps (sub hw rfl) ?_
          refine portFail_keeps ?_
          exact h
        · refine ite_intro (P := Keeps μ s0) (fun _ => ?_) (fun _ => ?_)
          · refine lineLost_keeps (sub hw rfl) ?_
            refine portFail_keeps ?_
            exact h15
          · refine ite_intro (P := Keeps μ s0) (fun _ => ?_) (fun _ => ?_)
            · refine patternPacket_keeps (sub hw rfl) ?_
              exact h15
            · refine ite_intro (P := Keeps μ s0) (fun _ => ?_) (fun _ => ?_)
              · refine embeddedLine_keeps (sub hw rfl) ?_
                exact h15
              · refine imagePacket_keeps (sub hw rfl) ?_
                exact h15

theorem loseSegment_keeps {s port} (hw : μ ||| 6144 = μ) (h : Keeps μ s0 s) : Keeps μ s0 (loseSegment s port) := by
  unfold loseSegment
  extract_lets x0 x1 x2 x3
  clear_value x0
  have h4 : Keeps μ s0 x1 := by
    unfold x1
    refine portFail_keeps ?_
    exact h
  clear_value x1
  have h5 : Keeps μ s0 x2 := by
    unfold x2
    split
    · rename_i y6 y7 e8
      refine lineLost_keeps (sub hw rfl) ?_
      exact h4
    · rename_i y9 e10
      exact h4
  clear_value x2
  clear_value x3
  refine setSensor_keeps (sub hw rfl) ?_
  exact h5

theorem tpDeadline_keeps {s st} (hw : μ ||| 2304 = μ) (h : Keeps μ s0 s) : Keeps μ s0 (tpDeadline s st) := by
  unfold tpDeadline
  extract_lets x0
  clear_value x0
  split
  · rename_i y1 y2 e3
    refine ite_intro (P := Keeps μ s0) (fun _ => ?_) (fun _ => ?_)
    · refine patternFail_keeps (sub hw rfl) ?_
      refine setStream_keeps (sub hw rfl) ?_
      exact h
    · exact h
  · rename_i y4 e5
    exact h

theorem feDeadline_keeps {s st} (hw : μ ||| 8594524416 = μ) (h : Keeps μ s0 s) : Keeps μ s0 (feDeadline s st) := by
  unfold feDeadline
  extract_lets x0
  clear_value x0
  split
  · rename_i y1 y2 e3
    refine ite_intro (P := Keeps μ s0) (fun _ => ?_) (fun _ => ?_)
    · refine closeFrame_keeps (sub hw rfl) ?_
      exact h
    · exact h
  · rename_i y4 e5
    exact h

theorem voidFrame_keeps {s st} (hw : μ ||| 4589824 = μ) (h : Keeps μ s0 s) : Keeps μ s0 (voidFrame s st) := by
  unfold voidFrame
  extract_lets x0 x1 x2 x3 x4 x5 x6 x7 x8 x9 x10 x11 x12
  clear_value x0
  have h13 : Keeps μ s0 x1 := by
    unfold x1
    refine setStream_keeps (sub hw rfl) ?_
    exact h
  clear_value x1
  have h14 : Keeps μ s0 x2 := by
    unfold x2
    refine ite_intro (P := Keeps μ s0) (fun _ => ?_) (fun _ => ?_)
    · refine emitPads_keeps (sub hw rfl) ?_
      exact h13
    · exact h13
  clear_value x2
  clear_value x3
  have h15 : Keeps μ s0 x4 := by
    unfold x4
    split
    · rename_i y16 y17 e18
      refine emitLine_keeps (sub hw rfl) ?_
      exact h14
    · rename_i y19 e20
      exact h14
  clear_value x4
  clear_value x5
  have h21 : Keeps μ s0 x6 := by
    unfold x6
    refine setStream_keeps (sub hw rfl) ?_
    exact h15
  clear_value x6
  have h22 : Keeps μ s0 x7 := by
    unfold x7
    refine decodeSample_keeps (sub hw rfl) ?_
    exact h21
  clear_value x7
  clear_value x8
  clear_value x9
  have h23 : Keeps μ s0 x10 := by
    unfold x10
    refine raise_keeps ?_
    refine bumpSat_keeps ?_
    exact h22
  clear_value x10
  have h24 : Keeps μ s0 x11 := by
    unfold x11
    refine bumpSat_keeps ?_
    exact h23
  clear_value x11
  have h25 : Keeps μ s0 x12 := by
    unfold x12
    refine streamReport_keeps (sub hw rfl) ?_
    exact h24
  clear_value x12
  refine emitTestLine_keeps (sub hw rfl) ?_
  exact h25

theorem fsDeadline_keeps {s st} (hw : μ ||| 4589824 = μ) (h : Keeps μ s0 s) : Keeps μ s0 (fsDeadline s st) := by
  unfold fsDeadline
  extract_lets x0
  clear_value x0
  split
  · rename_i y1 y2 e3
    refine ite_intro (P := Keeps μ s0) (fun _ => ?_) (fun _ => ?_)
    · refine voidFrame_keeps (sub hw rfl) ?_
      exact h
    · exact h
  · rename_i y4 e5
    exact h

theorem deadlines_keeps {s st} (hw : μ ||| 8594524416 = μ) (h : Keeps μ s0 s) : Keeps μ s0 (deadlines s st) := by
  unfold deadlines
  refine tpDeadline_keeps (sub hw rfl) ?_
  refine feDeadline_keeps (sub hw rfl) ?_
  refine fsDeadline_keeps (sub hw rfl) ?_
  exact h

theorem takeWindow_keeps {s st w} (hw : μ ||| 2048 = μ) (h : Keeps μ s0 s) : Keeps μ s0 (takeWindow s st w) := by
  unfold takeWindow
  extract_lets x0 x1 x2
  clear_value x0
  have h3 : Keeps μ s0 x1 := by
    unfold x1
    refine ite_intro (P := Keeps μ s0) (fun _ => ?_) (fun _ => ?_)
    · exact h
    · refine configRejected_keeps ?_
      exact h
  clear_value x1
  clear_value x2
  refine setStream_keeps (sub hw rfl) ?_
  exact h3

theorem windowStart_keeps {s st} (hw : μ ||| 8594524416 = μ) (h : Keeps μ s0 s) : Keeps μ s0 (windowStart s st) := by
  unfold windowStart
  extract_lets x0 x1 x2 x3
  clear_value x0
  clear_value x1
  have h4 : Keeps μ s0 x2 := by
    unfold x2
    refine deadlines_keeps (sub hw rfl) ?_
    exact h
  clear_value x2
  clear_value x3
  refine ite_intro (P := Keeps μ s0) (fun _ => ?_) (fun _ => ?_)
  · exact h
  · split
    · rename_i y5 y6 e7
      refine ite_intro (P := Keeps μ s0) (fun _ => ?_) (fun _ => ?_)
      · exact h4
      · refine setStream_keeps (sub hw rfl) ?_
        exact h4
    · rename_i y8 y9 y10 e11
      refine ite_intro (P := Keeps μ s0) (fun _ => ?_) (fun _ => ?_)
      · exact h4
      · refine takeWindow_keeps (sub hw rfl) ?_
        exact h4

theorem catchUp_keeps {s st} (hw : μ ||| 8594524416 = μ) (h : Keeps μ s0 s) : Keeps μ s0 (catchUp s st) := by
  unfold catchUp
  refine deadlines_keeps (sub hw rfl) ?_
  refine windowStart_keeps (sub hw rfl) ?_
  exact h

theorem packetStart_keeps {s port data line} (hw : μ ||| 8594524416 = μ) (h : Keeps μ s0 s) : Keeps μ s0 (packetStart s port data line).2 := by
  unfold packetStart
  extract_lets x0 x1
  clear_value x0
  clear_value x1
  split
  · rename_i y2 e3
    refine mk2_keeps ?_
    refine lineLost_keeps (sub hw rfl) ?_
    refine portFail_keeps ?_
    exact h
  · rename_i y4 y5 y6 e7
    extract_lets x8 x9 x10
    clear_value x8
    have h11 : Keeps μ s0 x9 := by
      unfold x9
      refine catchUp_keeps (sub hw rfl) ?_
      refine ite_intro (P := Keeps μ s0) (fun _ => ?_) (fun _ => ?_)
      · refine bumpSat_keeps ?_
        exact h
      · exact h
    clear_value x9
    clear_value x10
    refine ite2_keeps (fun _ => ?_) (fun _ => ?_)
    · refine mk2_keeps ?_
      refine portFail_keeps ?_
      exact h11
    · refine ite2_keeps (fun _ => ?_) (fun _ => ?_)
      · refine mk2_keeps ?_
        refine portFail_keeps ?_
        exact h11
      · refine mk2_keeps ?_
        exact h11

theorem csiSegment_keeps {s port first last off line data} (hw : μ ||| 8594528512 = μ) (h : Keeps μ s0 s) : Keeps μ s0 (csiSegment s port first last off line data) := by
  unfold csiSegment
  extract_lets x0 x1 x2 x3
  clear_value x0
  have h4 : ∀ a0 a1, Keeps μ s0 a0 → Keeps μ s0 (x1 a0 a1) := by
    intro a0 a1 h5
    unfold x1
    refine ite_intro (P := Keeps μ s0) (fun _ => ?_) (fun _ => ?_)
    · refine packetEnd_keeps (sub hw rfl) ?_
      refine setSensor_keeps (sub hw rfl) ?_
      exact h5
    · refine setSensor_keeps (sub hw rfl) ?_
      exact h5
  clear_value x1
  have h6 : Keeps μ s0 x2 := by
    unfold x2
    refine ite_intro (P := Keeps μ s0) (fun _ => ?_) (fun _ => ?_)
    · refine loseSegment_keeps (sub hw rfl) ?_
      exact h
    · refine ite_intro (P := Keeps μ s0) (fun _ => ?_) (fun _ => ?_)
      · refine portFail_keeps ?_
        exact h
      · exact h
  clear_value x2
  have h7 : Keeps μ s0 (x3).2 := by
    unfold x3
    refine packetStart_keeps (sub hw rfl) ?_
    exact h6
  clear_value x3
  refine ite_intro (P := Keeps μ s0) (fun _ => ?_) (fun _ => ?_)
  · refine ite_intro (P := Keeps μ s0) (fun _ => ?_) (fun _ => ?_)
    · exact h6
    · refine h4 _ _ ?_
      exact h7
  · split
    · rename_i y8 y9 y10 e11
      refine ite_intro (P := Keeps μ s0) (fun _ => ?_) (fun _ => ?_)
      · refine loseSegment_keeps (sub hw rfl) ?_
        exact h
      · refine h4 _ _ ?_
        exact h
    · rename_i y12 y13 e14
      refine portFail_keeps ?_
      exact h

theorem bufferPoint_keeps {s p} (hw : μ ||| 35227323859296 = μ) (h : Keeps μ s0 s) : Keeps μ s0 (bufferPoint s p) := by
  unfold bufferPoint
  extract_lets x0 x1 x2 x3 x4 x5
  clear_value x0
  have h6 : Keeps μ s0 x1 := by
    unfold x1
    refine ite_intro (P := Keeps μ s0) (fun _ => ?_) (fun _ => ?_)
    · exact h
    · refine raise_keeps ?_
      exact h
  clear_value x1
  clear_value x2
  have h7 : Keeps μ s0 (x3).2 := by
    unfold x3
    refine drawFree_keeps ?_
    exact h
  clear_value x3
  have h8 : Keeps μ s0 x4 := by
    unfold x4
    refine memWrite_keeps (sub hw rfl) ?_
    exact h7
  clear_value x4
  clear_value x5
  refine ite_intro (P := Keeps μ s0) (fun _ => ?_) (fun _ => ?_)
  · refine upd_pp (sub hw rfl) ?_
    exact h6
  · refine upd_pp (sub hw rfl) ?_
    exact h8

theorem pointPacket_keeps {s port b} (hw : μ ||| 35227323859296 = μ) (h : Keeps μ s0 s) : Keeps μ s0 (pointPacket s port b) := by
  unfold pointPacket
  refine ite_intro (P := Keeps μ s0) (fun _ => ?_) (fun _ => ?_)
  · exact h
  · extract_lets x0 x1 x2 x3
    clear_value x0
    clear_value x1
    clear_value x2
    clear_value x3
    refine ite_intro (P := Keeps μ s0) (fun _ => ?_) (fun _ => ?_)
    · exact h
    · split
      · rename_i y4 y5 y6 y7 y8 e9
        refine ite_intro (P := Keeps μ s0) (fun _ => ?_) (fun _ => ?_)
        · exact h
        · refine foldl_intro (P := Keeps μ s0) ?_ ?_
          · exact h
          · intro x10 x11 h12
            extract_lets x13 x14 x15 x16 x17
            clear_value x13
            clear_value x14
            clear_value x15
            have h18 : Keeps μ s0 x16 := by
              unfold x16
              refine bumpSat_keeps ?_
              exact h12
            clear_value x16
            clear_value x17
            refine ite_intro (P := Keeps μ s0) (fun _ => ?_) (fun _ => ?_)
            · refine raise_keeps ?_
              refine upd_pp (sub hw rfl) ?_
              exact h18
            · refine ite_intro (P := Keeps μ s0) (fun _ => ?_) (fun _ => ?_)
              · exact h12
              · refine bufferPoint_keeps (sub hw rfl) ?_
                exact h12
      · rename_i y19 y20 y21 e22
        refine bumpSat_keeps ?_
        exact h

theorem tsfDeliver_keeps {s n b} (hw : μ ||| 35227328452960 = μ) (h : Keeps μ s0 s) : Keeps μ s0 (tsfDeliver s n b) := by
  unfold tsfDeliver
  extract_lets x0 x1 x2
  clear_value x0
  clear_value x1
  clear_value x2
  refine ite_intro (P := Keeps μ s0) (fun _ => ?_) (fun _ => ?_)
  · refine csiSegment_keeps (sub hw rfl) ?_
    exact h
  · refine ite_intro (P := Keeps μ s0) (fun _ => ?_) (fun _ => ?_)
    · refine pointPacket_keeps (sub hw rfl) ?_
      exact h
    · refine setSensor_keeps (sub hw rfl) ?_
      exact h

theorem tsfReceive_keeps {s n b rrLost} (hw : μ ||| 35227328453984 = μ) (h : Keeps μ s0 s) : Keeps μ s0 (tsfReceive s n b rrLost) := by
  unfold tsfReceive
  extract_lets x0 x1 x2 x3 x4 x5
  clear_value x0
  clear_value x1
  clear_value x2
  clear_value x3
  have h6 : Keeps μ s0 x4 := by
    unfold x4
    refine ite_intro (P := Keeps μ s0) (fun _ => ?_) (fun _ => ?_)
    · refine bumpSat_keeps ?_
      exact h
    · exact h
  clear_value x4
  have h7 : Keeps μ s0 x5 := by
    unfold x5
    refine setSensor_keeps (sub hw rfl) ?_
    exact h6
  clear_value x5
  refine ite_intro (P := Keeps μ s0) (fun _ => ?_) (fun _ => ?_)
  · refine portFail_keeps ?_
    exact h
  · refine ite_intro (P := Keeps μ s0) (fun _ => ?_) (fun _ => ?_)
    · refine portFail_keeps ?_
      exact h
    · refine ite_intro (P := Keeps μ s0) (fun _ => ?_) (fun _ => ?_)
      · refine portFail_keeps ?_
        exact h
      · refine ite_intro (P := Keeps μ s0) (fun _ => ?_) (fun _ => ?_)
        · refine portFail_keeps ?_
          exact h
        · refine ite_intro (P := Keeps μ s0) (fun _ => ?_) (fun _ => ?_)
          · refine bumpSat_keeps ?_
            exact h7
          · refine tsfDeliver_keeps (sub hw rfl) ?_
            refine record_keeps (sub hw rfl) ?_
            exact h7

theorem frameReceive_keeps {s n f rrLost} (hw : μ ||| 35227328462176 = μ) (h : Keeps μ s0 s) : Keeps μ s0 (frameReceive s n f rrLost) := by
  unfold frameReceive
  refine ite_intro (P := Keeps μ s0) (fun _ => ?_) (fun _ => ?_)
  · exact h
  · refine ite_intro (P := Keeps μ s0) (fun _ => ?_) (fun _ => ?_)
    · refine portFail_keeps ?_
      exact h
    · refine ite_intro (P := Keeps μ s0) (fun _ => ?_) (fun _ => ?_)
      · refine portFail_keeps ?_
        exact h
      · refine ite_intro (P := Keeps μ s0) (fun _ => ?_) (fun _ => ?_)
        · refine portFail_keeps ?_
          exact h
        · split
          · rename_i y0 y1 y2 y3 y4 e5
            refine portFail_keeps ?_
            exact h
          · rename_i y6 y7 y8 y9 y10 y11 e12
            have h13 : Keeps μ s0 y11 := by
              refine ofSome e12 ?_
              refine macsecCheck_keeps (sub hw rfl) ?_
              exact h
            refine ite_intro (P := Keeps μ s0) (fun _ => ?_) (fun _ => ?_)
            · refine tsfReceive_keeps (sub hw rfl) ?_
              exact h13
            · refine ite_intro (P := Keeps μ s0) (fun _ => ?_) (fun _ => ?_)
              · exact h13
              · refine portFail_keeps ?_
                exact h13

theorem camExpire_keeps {s n} (hw : μ ||| 4096 = μ) (h : Keeps μ s0 s) : Keeps μ s0 (camExpire s n) := by
  unfold camExpire
  extract_lets x0 x1
  clear_value x0
  clear_value x1
  refine wrF_keeps ?_
  refine setSensor_keeps (sub hw rfl) ?_
  exact h

theorem camAccept_keeps {p s n} (hw : μ ||| 28672 = μ) (h : Keeps μ s0 s) : Keeps μ s0 (camAccept p s n) := by
  unfold camAccept
  extract_lets x0 x1 x2 x3 x4 x5 x6
  clear_value x0
  clear_value x1
  clear_value x2
  have h7 : Keeps μ s0 x3 := by
    unfold x3
    refine camExpire_keeps (sub hw rfl) ?_
    exact h
  clear_value x3
  clear_value x4
  have h8 : Keeps μ s0 x5 := by
    unfold x5
    refine setSensor_keeps (sub hw rfl) ?_
    exact h7
  clear_value x5
  have h9 : Keeps μ s0 x6 := by
    unfold x6
    refine wrF_keeps ?_
    refine wrF_keeps ?_
    exact h8
  clear_value x6
  refine camSend_keeps (sub hw rfl) ?_
  exact h9

theorem camSettings_keeps {s p} (hw : μ ||| 70368744239372 = μ) (h : Keeps μ s0 s) : Keeps μ s0 (camSettings s p) := by
  unfold camSettings
  extract_lets x0 x1 x2
  clear_value x0
  clear_value x1
  have h3 : Keeps μ s0 x2 := by
    unfold x2
    refine upd_camPods (sub hw rfl) ?_
    exact h
  clear_value x2
  refine ite_intro (P := Keeps μ s0) (fun _ => ?_) (fun _ => ?_)
  · refine podComplete_keeps (sub hw rfl) ?_
    refine raise_keeps ?_
    exact h
  · refine foldl_intro (P := Keeps μ s0) ?_ ?_
    · exact h3
    · intro x4 x5 h6
      refine camAccept_keeps (sub hw rfl) ?_
      exact h6

theorem camOutcome_keeps {s n no outcome} (hw : μ ||| 70368744210700 = μ) (h : Keeps μ s0 s) : Keeps μ s0 (camOutcome s n no outcome) := by
  unfold camOutcome
  extract_lets x0 x1 x2 x3
  have h4 : Keeps μ s0 x0 := by
    unfold x0
    refine wrF_keeps ?_
    exact h
  clear_value x0
  have h5 : Keeps μ s0 x1 := by
    unfold x1
    refine ite_intro (P := Keeps μ s0) (fun _ => ?_) (fun _ => ?_)
    · refine raise_keeps ?_
      refine bumpSat_keeps ?_
      exact h4
    · exact h4
  clear_value x1
  clear_value x2
  clear_value x3
  split
  · rename_i y6 y7 e8
    refine ite_intro (P := Keeps μ s0) (fun _ => ?_) (fun _ => ?_)
    · extract_lets x9
      clear_value x9
      refine podComplete_keeps (sub hw rfl) ?_
      refine upd_camPods (sub hw rfl) ?_
      exact h5
    · refine upd_camPods (sub hw rfl) ?_
      exact h5
  · rename_i y10 e11
    refine upd_camPods (sub hw rfl) ?_
    exact h5

theorem controlResponse_keeps {s n} (hw : μ ||| 70368744214796 = μ) (h : Keeps μ s0 s) : Keeps μ s0 (controlResponse s n) := by
  unfold controlResponse
  extract_lets x0
  clear_value x0
  split
  · rename_i y1 e2
    exact h
  · rename_i y3 y4 y5 y6 e7
    extract_lets x8 x9 x10
    have h11 : Keeps μ s0 x8 := by
      unfold x8
      refine setSensor_keeps (sub hw rfl) ?_
      exact h
    clear_value x8
    clear_value x9
    have h12 : Keeps μ s0 x10 := by
      unfold x10
      refine setSensor_keeps (sub hw rfl) ?_
      exact h11
    clear_value x10
    split
    · rename_i y13 e14
      exact h11
    · rename_i y15 y16 e17
      refine ite_intro (P := Keeps μ s0) (fun _ => ?_) (fun _ => ?_)
      · exact h11
      · extract_lets x18
        have h19 : Keeps μ s0 x18 := by
          unfold x18
          refine ite_intro (P := Keeps μ s0) (fun _ => ?_) (fun _ => ?_)
          · refine wrF_keeps ?_
            exact h12
          · exact h12
        clear_value x18
        refine camOutcome_keeps (sub hw rfl) ?_
        exact h19

theorem ackTimeout_keeps {s n} (hw : μ ||| 70368744239372 = μ) (h : Keeps μ s0 s) : Keeps μ s0 (ackTimeout s n) := by
  unfold ackTimeout
  extract_lets x0 x1
  clear_value x0
  clear_value x1
  split
  · rename_i y2 e3
    exact h
  · rename_i y4 y5 e6
    refine ite_intro (P := Keeps μ s0) (fun _ => ?_) (fun _ => ?_)
    · extract_lets x7
      have h8 : Keeps μ s0 x7 := by
        unfold x7
        refine setSensor_keeps (sub hw rfl) ?_
        exact h
      clear_value x7
      refine camSend_keeps (sub hw rfl) ?_
      exact h8
    · refine camOutcome_keeps (sub hw rfl) ?_
      refine setSensor_keeps (sub hw rfl) ?_
      exact h

theorem sensorDown_keeps {s n cause} (hw : μ ||| 12544 = μ) (h : Keeps μ s0 s) : Keeps μ s0 (sensorDown s n cause) := by
  unfold sensorDown
  refine ite_intro (P := Keeps μ s0) (fun _ => ?_) (fun _ => ?_)
  · exact h
  · extract_lets x0 x1 x2 x3 x4
    clear_value x0
    have h5 : Keeps μ s0 x1 := by
      unfold x1
      refine setSensor_keeps (sub hw rfl) ?_
      exact h
    clear_value x1
    clear_value x2
    have h6 : Keeps μ s0 x3 := by
      unfold x3
      refine setSec_keeps (sub hw rfl) ?_
      exact h5
    clear_value x3
    have h7 : Keeps μ s0 x4 := by
      unfold x4
      refine raise_keeps ?_
      refine wr_keeps ?_
      exact h6
    clear_value x4
    split
    · rename_i y8 y9
      refine report_keeps (sub hw rfl) ?_
      exact h7
    · rename_i y10 y11
      refine report_keeps (sub hw rfl) ?_
      exact h7
    · rename_i y12 y13
      refine report_keeps (sub hw rfl) ?_
      refine drawFree_keeps ?_
      exact h7

theorem newSak_keeps {s n} (hw : μ ||| 24576 = μ) (h : Keeps μ s0 s) : Keeps μ s0 (newSak s n) := by
  unfold newSak
  extract_lets x0 x1 x2 x3 x4
  clear_value x0
  clear_value x1
  have h5 : Keeps μ s0 x2 := by
    unfold x2
    refine setSec_keeps (sub hw rfl) ?_
    exact h
  clear_value x2
  have h6 : Keeps μ s0 x3 := by
    unfold x3
    refine ite_intro (P := Keeps μ s0) (fun _ => ?_) (fun _ => ?_)
    · refine wrF_keeps ?_
      exact h5
    · exact h5
  clear_value x3
  have h7 : Keeps μ s0 x4 := by
    unfold x4
    refine drawFree_keeps ?_
    exact h6
  clear_value x4
  refine upd_portOut (sub hw rfl) ?_
  exact h7

theorem mkaFrame_keeps {s n icvOk} (hw : μ ||| 24576 = μ) (h : Keeps μ s0 s) : Keeps μ s0 (mkaFrame s n icvOk) := by
  unfold mkaFrame
  refine ite_intro (P := Keeps μ s0) (fun _ => ?_) (fun _ => ?_)
  · refine newSak_keeps (sub hw rfl) ?_
    exact h
  · exact h

theorem macRekey_keeps {s n} (hw : μ ||| 24576 = μ) (h : Keeps μ s0 s) : Keeps μ s0 (macRekey s n) := by
  unfold macRekey
  split
  · rename_i y0 y1 e2
    extract_lets x3
    clear_value x3
    refine ite_intro (P := Keeps μ s0) (fun _ => ?_) (fun _ => ?_)
    · refine newSak_keeps (sub hw rfl) ?_
      exact h
    · exact h
  · rename_i y4 e5
    exact h

theorem oldSaGone_keeps {s n} (hw : μ ||| 8192 = μ) (h : Keeps μ s0 s) : Keeps μ s0 (oldSaGone s n) := by
  unfold oldSaGone
  split
  · rename_i y0 y1 y2 e3
    refine ite_intro (P := Keeps μ s0) (fun _ => ?_) (fun _ => ?_)
    · refine setSec_keeps (sub hw rfl) ?_
      exact h
    · exact h
  · rename_i y4 e5
    exact h

theorem testLine_keeps {s q i l mainErr tapErr} (hw : μ ||| 8589934848 = μ) (h : Keeps μ s0 s) : Keeps μ s0 (testLine s q i l mainErr tapErr) := by
  unfold testLine
  extract_lets x0 x1 x2 x3 x4 x5 x6
  clear_value x0
  clear_value x1
  clear_value x2
  clear_value x3
  have h7 : Keeps μ s0 x4 := by
    unfold x4
    refine setRec_keeps (sub hw rfl) ?_
    exact h
  clear_value x4
  have h8 : ∀ a0 a1 a2, Keeps μ s0 a0 → Keeps μ s0 (x5 a0 a1 a2) := by
    intro a0 a1 a2 h9
    unfold x5
    refine report_keeps (sub hw rfl) ?_
    refine raise_keeps ?_
    refine bumpSat_keeps ?_
    exact h9
  clear_value x5
  have h10 : Keeps μ s0 x6 := by
    unfold x6
    refine ite_intro (P := Keeps μ s0) (fun _ => ?_) (fun _ => ?_)
    · exact h7
    · refine h8 _ _ _ ?_
      exact h7
  clear_value x6
  refine ite_intro (P := Keeps μ s0) (fun _ => ?_) (fun _ => ?_)
  · exact h10
  · refine h8 _ _ _ ?_
    exact h10

theorem setSlot_keeps {s q i x} (hw : μ ||| 524288 = μ) (h : Keeps μ s0 s) : Keeps μ s0 (setSlot s q i x) := by
  unfold setSlot
  refine upd_slots (sub hw rfl) ?_
  exact h

theorem slotStart_keeps {s q i l} (hw : μ ||| 524544 = μ) (h : Keeps μ s0 s) : Keeps μ s0 (slotStart s q i l) := by
  unfold slotStart
  extract_lets x0 x1 x2 x3 x4
  clear_value x0
  clear_value x1
  have h5 : Keeps μ s0 x2 := by
    unfold x2
    refine setSlot_keeps (sub hw rfl) ?_
    exact h
  clear_value x2
  have h6 : Keeps μ s0 x3 := by
    unfold x3
    refine wrF_keeps ?_
    exact h5
  clear_value x3
  have h7 : Keeps μ s0 x4 := by
    unfold x4
    refine raise_keeps ?_
    refine bumpSat_keeps ?_
    exact h6
  clear_value x4
  refine ite_intro (P := Keeps μ s0) (fun _ => ?_) (fun _ => ?_)
  · refine report_keeps (sub hw rfl) ?_
    exact h7
  · exact h6

theorem writeRow_keeps {s q c rows l r} (hw : μ ||| 35227321762148 = μ) (h : Keeps μ s0 s) : Keeps μ s0 (writeRow s q c rows l r) := by
  unfold writeRow
  extract_lets x0 x1 x2 x3 x4 x5 x6 x7 x8
  clear_value x0
  clear_value x1
  clear_value x2
  clear_value x3
  have h9 : ∀ a0 a1 a2, Keeps μ s0 a0 → Keeps μ s0 (x4 a0 a1 a2) := by
    intro a0 a1 a2 h10
    unfold x4
    refine memWrite_keeps (sub hw rfl) ?_
    exact h10
  clear_value x4
  have h11 : Keeps μ s0 x5 := by
    unfold x5
    refine ite_intro (P := Keeps μ s0) (fun _ => ?_) (fun _ => ?_)
    · refine foldl_intro (P := Keeps μ s0) ?_ ?_
      · exact h
      · intro x12 x13 h14
        refine h9 _ _ _ ?_
        exact h14
    · refine h9 _ _ _ ?_
      exact h
  clear_value x5
  have h15 : Keeps μ s0 x6 := by
    unfold x6
    refine h9 _ _ _ ?_
    exact h11
  clear_value x6
  clear_value x7
  have h16 : Keeps μ s0 x8 := by
    unfold x8
    refine ite_intro (P := Keeps μ s0) (fun _ => ?_) (fun _ => ?_)
    · refine h9 _ _ _ ?_
      exact h15
    · exact h15
  clear_value x8
  refine pegInc_keeps (sub hw rfl) ?_
  exact h16

theorem setTap_keeps {s n x} (hw : μ ||| 4503599627370496 = μ) (h : Keeps μ s0 s) : Keeps μ s0 (setTap s n x) := by
  unfold setTap
  refine upd_taps (sub hw rfl) ?_
  exact h

theorem tapWritten_keeps {s n k flags} (hw : μ ||| 4503599627370496 = μ) (h : Keeps μ s0 s) : Keeps μ s0 (tapWritten s n k flags) := by
  unfold tapWritten
  refine setTap_keeps (sub hw rfl) ?_
  exact h

theorem slotClose_keeps {s q i l} (hw : μ ||| 4503599637331968 = μ) (h : Keeps μ s0 s) : Keeps μ s0 (slotClose s q i l) := by
  unfold slotClose
  extract_lets x0 x1 x2 x3 x4
  clear_value x0
  have h5 : Keeps μ s0 x1 := by
    unfold x1
    refine ite_intro (P := Keeps μ s0) (fun _ => ?_) (fun _ => ?_)
    · refine tapWritten_keeps (sub hw rfl) ?_
      refine sntPut_keeps (sub hw rfl) ?_
      exact h
    · exact h
  clear_value x1
  have h6 : Keeps μ s0 x2 := by
    unfold x2
    refine ite_intro (P := Keeps μ s0) (fun _ => ?_) (fun _ => ?_)
    · refine upd_statQ (sub hw rfl) ?_
      exact h5
    · exact h5
  clear_value x2
  have h7 : Keeps μ s0 x3 := by
    unfold x3
    refine setSlot_keeps (sub hw rfl) ?_
    exact h6
  clear_value x3
  have h8 : Keeps μ s0 x4 := by
    unfold x4
    refine wr_keeps ?_
    exact h7
  clear_value x4
  refine bump_keeps ?_
  exact h8

theorem slotLine_keeps {s q i l} (hw : μ ||| 4538826959094116 = μ) (h : Keeps μ s0 s) : Keeps μ s0 (slotLine s q i l) := by
  unfold slotLine
  extract_lets x0 x1 x2 x3 x4 x5
  have h6 : Keeps μ s0 x0 := by
    unfold x0
    refine ite_intro (P := Keeps μ s0) (fun _ => ?_) (fun _ => ?_)
    · refine slotStart_keeps (sub hw rfl) ?_
      exact h
    · exact h
  clear_value x0
  clear_value x1
  clear_value x2
  have h7 : Keeps μ s0 x3 := by
    unfold x3
    refine setSlot_keeps (sub hw rfl) ?_
    exact h6
  clear_value x3
  clear_value x4
  have h8 : Keeps μ s0 x5 := by
    unfold x5
    refine foldl_intro (P := Keeps μ s0) ?_ ?_
    · exact h7
    · intro x9 x10 h11
      refine writeRow_keeps (sub hw rfl) ?_
      exact h11
  clear_value x5
  refine ite_intro (P := Keeps μ s0) (fun _ => ?_) (fun _ => ?_)
  · refine slotClose_keeps (sub hw rfl) ?_
    exact h8
  · exact h8

theorem pipeLine_keeps {s q mainErr tapErr} (hw : μ ||| 4538826959356260 = μ) (h : Keeps μ s0 s) : Keeps μ s0 (pipeLine s q mainErr tapErr) := by
  unfold pipeLine
  split
  · rename_i y0 e1
    exact h
  · rename_i y2 y3 y4 e5
    refine ite_intro (P := Keeps μ s0) (fun _ => ?_) (fun _ => ?_)
    · exact h
    · extract_lets x6 x7
      have h8 : Keeps μ s0 x6 := by
        unfold x6
        refine setPipeQueue_keeps (sub hw rfl) ?_
        exact h
      clear_value x6
      clear_value x7
      refine ite_intro (P := Keeps μ s0) (fun _ => ?_) (fun _ => ?_)
      · exact h8
      · split
        · rename_i y9 y10 y11 y12 e13
          refine ite_intro (P := Keeps μ s0) (fun _ => ?_) (fun _ => ?_)
          · refine testLine_keeps (sub hw rfl) ?_
            exact h8
          · refine slotLine_keeps (sub hw rfl) ?_
            exact h8
        · rename_i y14 y15 y16 e17
          refine raise_keeps ?_
          refine bumpSat_keeps ?_
          exact h8

theorem ppFinish_keeps {s l frame sorted} (hw : μ ||| 35227323859300 = μ) (h : Keeps μ s0 s) : Keeps μ s0 (ppFinish s l frame sorted) := by
  unfold ppFinish
  extract_lets x0 x1 x2 x3 x4 x5 x6 x7 x8 x9 x10 x11 x12 x13 x14 x15 x16 x17 x18 x19 x20 x21 x22 x23 x24 x25 x26 x27 x28 x29 x30 x31 x32 x33 x34 x35 x36
  clear_value x0
  clear_value x1
  clear_value x2
  clear_value x3
  clear_value x4
  clear_value x5
  clear_value x6
  clear_value x7
  clear_value x8
  clear_value x9
  clear_value x10
  clear_value x11
  clear_value x12
  clear_value x13
  clear_value x14
  clear_value x15
  clear_value x16
  clear_value x17
  clear_value x18
  clear_value x19
  clear_value x20
  clear_value x21
  clear_value x22
  clear_value x23
  clear_value x24
  have h37 : Keeps μ s0 x25 := by
    unfold x25
    refine memWrite_keeps (sub hw rfl) ?_
    exact h
  clear_value x25
  have h38 : Keeps μ s0 x26 := by
    unfold x26
    refine bumpSat_keeps ?_
    refine wr_keeps ?_
    refine wr_keeps ?_
    exact h37
  clear_value x26
  clear_value x27
  clear_value x28
  clear_value x29
  clear_value x30
  have h39 : Keeps μ s0 x31 := by
    unfold x31
    refine upd_pp (sub hw rfl) ?_
    exact h38
  clear_value x31
  have h40 : Keeps μ s0 x32 := by
    unfold x32
    refine pegInc_keeps (sub hw rfl) ?_
    exact h39
  clear_value x32
  have h41 : ∀ a0 a1 a2 a3, Keeps μ s0 a0 → Keeps μ s0 (x33 a0 a1 a2 a3) := by
    intro a0 a1 a2 a3 h42
    unfold x33
    refine ite_intro (P := Keeps μ s0) (fun _ => ?_) (fun _ => ?_)
    · refine report_keeps (sub hw rfl) ?_
      refine raise_keeps ?_
      exact h42
    · exact h42
  clear_value x33
  have h43 : Keeps μ s0 x34 := by
    unfold x34
    refine ite_intro (P := Keeps μ s0) (fun _ => ?_) (fun _ => ?_)
    · refine report_keeps (sub hw rfl) ?_
      exact h40
    · exact h40
  clear_value x34
  have h44 : Keeps μ s0 x35 := by
    unfold x35
    refine h41 _ _ _ _ ?_
    exact h43
  clear_value x35
  have h45 : Keeps μ s0 x36 := by
    unfold x36
    refine h41 _ _ _ _ ?_
    exact h44
  clear_value x36
  refine raise_keeps ?_
  refine wrF_keeps ?_
  exact h45

theorem dqApply_keeps {s q} (hw : μ ||| 4194304 = μ) (h : Keeps μ s0 s) : Keeps μ s0 (dqApply s q) := by
  unfold dqApply
  extract_lets x0 x1 x2 x3 x4 x5 x6
  clear_value x0
  clear_value x1
  clear_value x2
  clear_value x3
  clear_value x4
  have h7 : Keeps μ s0 x5 := by
    unfold x5
    refine setDq_keeps (sub hw rfl) ?_
    exact h
  clear_value x5
  have h8 : Keeps μ s0 x6 := by
    unfold x6
    refine foldl_intro (P := Keeps μ s0) ?_ ?_
    · exact h
    · intro x9 x10 h11
      refine wr_keeps ?_
      exact h11
  clear_value x6
  refine ite_intro (P := Keeps μ s0) (fun _ => ?_) (fun _ => ?_)
  · exact h
  · refine ite_intro (P := Keeps μ s0) (fun _ => ?_) (fun _ => ?_)
    · refine wrF_keeps ?_
      refine wrF_keeps ?_
      refine wr_keeps ?_
      exact h7
    · refine raise_keeps ?_
      refine wrF_keeps ?_
      exact h8

theorem decoded_keeps {s n} (hw : μ ||| 65536 = μ) (h : Keeps μ s0 s) : Keeps μ s0 (decoded s n) := by
  unfold decoded
  refine upd_decIn (sub hw rfl) ?_
  exact h

theorem dqFinish_keeps {s q x status data rap lumaSize} (hw : μ ||| 105596070200684 = μ) (h : Keeps μ s0 s) : Keeps μ s0 (dqFinish s q x status data rap lumaSize) := by
  unfold dqFinish
  extract_lets x0 x1 x2 x3 x4 x5 x6 x7 x8 x9 x10 x11 x12 x13 x14 x15 x16 x17 x18 x19 x20 x21 x22 x23 x24 x25
  clear_value x0
  clear_value x1
  clear_value x2
  clear_value x3
  clear_value x4
  clear_value x5
  clear_value x6
  clear_value x7
  clear_value x8
  have h26 : Keeps μ s0 x9 := by
    unfold x9
    refine memWrite_keeps (sub hw rfl) ?_
    exact h
  clear_value x9
  have h27 : Keeps μ s0 x10 := by
    unfold x10
    refine memWrite_keeps (sub hw rfl) ?_
    exact h26
  clear_value x10
  have h28 : Keeps μ s0 x11 := by
    unfold x11
    refine pegInc_keeps (sub hw rfl) ?_
    exact h27
  clear_value x11
  clear_value x12
  clear_value x13
  clear_value x14
  have h29 : Keeps μ s0 x15 := by
    unfold x15
    refine setDq_keeps (sub hw rfl) ?_
    exact h28
  clear_value x15
  have h30 : Keeps μ s0 x16 := by
    unfold x16
    refine ite_intro (P := Keeps μ s0) (fun _ => ?_) (fun _ => ?_)
    · refine decoded_keeps (sub hw rfl) ?_
      exact h29
    · exact h29
  clear_value x16
  have h31 : Keeps μ s0 x17 := by
    unfold x17
    refine wrF_keeps ?_
    refine wrF_keeps ?_
    refine wr_keeps ?_
    exact h30
  clear_value x17
  have h32 : Keeps μ s0 x18 := by
    unfold x18
    refine setRec_keeps (sub hw rfl) ?_
    refine bumpSat_keeps ?_
    exact h31
  clear_value x18
  have h33 : Keeps μ s0 x19 := by
    unfold x19
    refine ite_intro (P := Keeps μ s0) (fun _ => ?_) (fun _ => ?_)
    · refine bumpSat_keeps ?_
      exact h32
    · exact h32
  clear_value x19
  clear_value x20
  have h34 : Keeps μ s0 x21 := by
    unfold x21
    refine upd_rr (sub hw rfl) ?_
    exact h33
  clear_value x21
  have h35 : Keeps μ s0 x22 := by
    unfold x22
    refine ite_intro (P := Keeps μ s0) (fun _ => ?_) (fun _ => ?_)
    · refine record_keeps (sub hw rfl) ?_
      exact h34
    · exact h34
  clear_value x22
  have h36 : Keeps μ s0 x23 := by
    unfold x23
    refine sendEvent_keeps ?_
    refine raise_keeps ?_
    exact h35
  clear_value x23
  have h37 : Keeps μ s0 x24 := by
    unfold x24
    refine ite_intro (P := Keeps μ s0) (fun _ => ?_) (fun _ => ?_)
    · refine ite_intro (P := Keeps μ s0) (fun _ => ?_) (fun _ => ?_)
      · refine report_keeps (sub hw rfl) ?_
        exact h36
      · exact h36
    · exact h31
  clear_value x24
  have h38 : Keeps μ s0 x25 := by
    unfold x25
    refine ite_intro (P := Keeps μ s0) (fun _ => ?_) (fun _ => ?_)
    · refine podComplete_keeps (sub hw rfl) ?_
      exact h37
    · exact h37
  clear_value x25
  refine dqUpdate_keeps (sub hw rfl) ?_
  exact h38

end Sys2Proof.Laws
end

