-- ==== Sys2Proof/Laws/Keeps5.lean ====
section
/-!
SUPPORT. The functions of the model keep the queue, the fuses and the canonical memories: part 5.
-/

namespace Sys2Proof.Laws

open Sys2Proof.Machine Sys2Proof.Safety

variable {s0 : State} {α β γ δ : Type} {μ : Nat}

theorem dqStart_keeps {s q v2} (hw : μ ||| 105596070200684 = μ) (h : Keeps μ s0 s) : Keeps μ s0 (dqStart s q v2) := by
  unfold dqStart
  extract_lets x0 x1 x2 x3 x4 x5
  have h6 : Keeps μ s0 x0 := by
    unfold x0
    refine dqApply_keeps (sub hw rfl) ?_
    exact h
  clear_value x0
  clear_value x1
  clear_value x2
  have h7 : Keeps μ s0 x3 := by
    unfold x3
    refine setDq_keeps (sub hw rfl) ?_
    exact h6
  clear_value x3
  clear_value x4
  clear_value x5
  split
  · rename_i y8 e9
    exact h6
  · rename_i y10 y11 y12 e13
    refine ite_intro (P := Keeps μ s0) (fun _ => ?_) (fun _ => ?_)
    · exact h6
    · extract_lets x14 x15 x16 x17 x18 x19
      have h20 : ∀ a0 a1, Keeps μ s0 a0 → Keeps μ s0 (x14 a0 a1) := by
        intro a0 a1 h21
        unfold x14
        refine dqFinish_keeps (sub hw rfl) ?_
        exact h21
      clear_value x14
      clear_value x15
      clear_value x16
      have h22 : Keeps μ s0 x17 := by
        unfold x17
        refine ite_intro (P := Keeps μ s0) (fun _ => ?_) (fun _ => ?_)
        · refine setDq_keeps (sub hw rfl) ?_
          exact h7
        · exact h7
      clear_value x17
      clear_value x18
      have h23 : Keeps μ s0 x19 := by
        unfold x19
        refine setDq_keeps (sub hw rfl) ?_
        exact h22
      clear_value x19
      refine ite_intro (P := Keeps μ s0) (fun _ => ?_) (fun _ => ?_)
      · refine h20 _ _ ?_
        exact h6
      · refine ite_intro (P := Keeps μ s0) (fun _ => ?_) (fun _ => ?_)
        · refine h20 _ _ ?_
          exact h6
        · refine ite_intro (P := Keeps μ s0) (fun _ => ?_) (fun _ => ?_)
          · refine h20 _ _ ?_
            exact h6
          · refine ite_intro (P := Keeps μ s0) (fun _ => ?_) (fun _ => ?_)
            · refine h20 _ _ ?_
              refine memRead_keeps (sub hw rfl) ?_
              exact h7
            · refine ite_intro (P := Keeps μ s0) (fun _ => ?_) (fun _ => ?_)
              · refine dqFinish_keeps (sub hw rfl) ?_
                exact h22
              · refine wr_keeps ?_
                exact h23

theorem dqDone_keeps {s q pic} (hw : μ ||| 105596070200684 = μ) (h : Keeps μ s0 s) : Keeps μ s0 (dqDone s q pic) := by
  unfold dqDone
  extract_lets x0 x1
  clear_value x0
  clear_value x1
  split
  · rename_i y2 y3 y4 y5 y6 e7 e8
    extract_lets x9 x10
    clear_value x9
    have h11 : Keeps μ s0 (x10).2.2 := by
      unfold x10
      refine memRead_keeps (sub hw rfl) ?_
      exact h
    clear_value x10
    refine ite_intro (P := Keeps μ s0) (fun _ => ?_) (fun _ => ?_)
    · refine dqFinish_keeps (sub hw rfl) ?_
      exact h
    · refine ite_intro (P := Keeps μ s0) (fun _ => ?_) (fun _ => ?_)
      · refine dqFinish_keeps (sub hw rfl) ?_
        exact h11
      · split
        · rename_i y12 y13 y14 y15
          refine dqFinish_keeps (sub hw rfl) ?_
          exact h
        · rename_i y16 y17 y18
          refine dqFinish_keeps (sub hw rfl) ?_
          exact h
  · rename_i y19 y20 e21
    exact h

theorem dqTimeout_keeps {s q} (hw : μ ||| 105596070200684 = μ) (h : Keeps μ s0 s) : Keeps μ s0 (dqTimeout s q) := by
  unfold dqTimeout
  split
  · rename_i y0 y1 y2 e3
    refine ite_intro (P := Keeps μ s0) (fun _ => ?_) (fun _ => ?_)
    · refine dqFinish_keeps (sub hw rfl) ?_
      exact h
    · exact h
  · rename_i y4 e5
    exact h

theorem readDescs_keeps {s c as n cls echo} (hw : μ ||| 42949673280 = μ) (h : Keeps μ s0 s) : Keeps μ s0 (readDescs s c as n cls echo).2.2 := by
  unfold readDescs
  refine foldl3_keeps ?_ ?_
  · refine mk3_keeps ?_
    exact h
  · intro x0 x1 h2
    refine ite3_keeps (fun _ => ?_) (fun _ => ?_)
    · exact h2
    · split
      rename_i y3 y4 y5 y6 y7 e8
      have h9 : Keeps μ s0 y7 := by
        refine of3 e8 ?_
        refine memRead_keeps (sub hw rfl) ?_
        exact h2
      refine mk3_keeps ?_
      exact h9

theorem readRuns_keeps {s ag cls echo l} (hw : μ ||| 42949673280 = μ) (h : Keeps μ s0 s) : Keeps μ s0 (readRuns s ag cls echo l).2.2 := by
  unfold readRuns
  refine foldl3_keeps ?_ ?_
  · refine mk3_keeps ?_
    exact h
  · intro x0 x1 h2
    refine ite3_keeps (fun _ => ?_) (fun _ => ?_)
    · exact h2
    · split
      rename_i y3 y4 y5 y6 y7 e8
      have h9 : Keeps μ s0 y7 := by
        refine of3 e8 ?_
        refine memRead_keeps (sub hw rfl) ?_
        exact h2
      refine mk3_keeps ?_
      exact h9

theorem peekBlock_keeps {s c cls echo v} (hw : μ ||| 42949673280 = μ) (h : Keeps μ s0 s) : Keeps μ s0 (peekBlock s c cls echo v).2.2 := by
  unfold peekBlock
  refine ite3_keeps (fun _ => ?_) (fun _ => ?_)
  · refine mk3_keeps ?_
    exact h
  · extract_lets x0 x1 x2 x3
    clear_value x0
    clear_value x1
    clear_value x2
    clear_value x3
    refine readRuns_keeps (sub hw rfl) ?_
    exact h

theorem readBlocks_keeps {s c descs cls echo} (hw : μ ||| 42949673280 = μ) (h : Keeps μ s0 s) : Keeps μ s0 (readBlocks s c descs cls echo).2.2 := by
  unfold readBlocks
  refine foldl3_keeps ?_ ?_
  · refine mk3_keeps ?_
    exact h
  · intro x0 x1 h2
    refine ite3_keeps (fun _ => ?_) (fun _ => ?_)
    · exact h2
    · refine ite3_keeps (fun _ => ?_) (fun _ => ?_)
      · split
        rename_i y3 y4 y5 y6 y7 y8 e9
        have h10 : Keeps μ s0 y8 := by
          refine of3 e9 ?_
          refine peekBlock_keeps (sub hw rfl) ?_
          exact h2
        refine mk3_keeps ?_
        exact h10
      · refine mk3_keeps ?_
        exact h2

theorem rotRegs_keeps {s c} (h : Keeps μ s0 s) : Keeps μ s0 (rotRegs s c) := by
  unfold rotRegs
  split
  · rename_i y0 y1 e2
    extract_lets x3
    clear_value x3
    refine wr_keeps ?_
    exact h
  · rename_i y4 e5
    refine wr_keeps ?_
    exact h

theorem issueInputs_keeps {s ops} (hw : μ ||| 42949673280 = μ) (h : Keeps μ s0 s) : Keeps μ s0 (issueInputs s ops).2.2 := by
  unfold issueInputs
  refine foldl3_keeps ?_ ?_
  · refine mk3_keeps ?_
    exact h
  · intro x0 x1 h2
    refine ite3_keeps (fun _ => ?_) (fun _ => ?_)
    · exact h2
    · split
      rename_i y3 y4 y5 y6 y7 e8
      have h9 : Keeps μ s0 y7 := by
        refine of3 e8 ?_
        refine checkInputs_keeps (sub hw rfl) ?_
        exact h2
      refine mk3_keeps ?_
      exact h9

theorem putTile_keeps {s id t} (hw : μ ||| 1073741824 = μ) (h : Keeps μ s0 s) : Keeps μ s0 (putTile s id t) := by
  unfold putTile
  refine updOp_keeps (sub hw rfl) ?_
  exact h

theorem setArr_keeps {s c a x} (hw : μ ||| 2147483648 = μ) (h : Keeps μ s0 s) : Keeps μ s0 (setArr s c a x) := by
  unfold setArr
  refine upd_arrays (sub hw rfl) ?_
  exact h

theorem ballastEnds_keeps {s c a} (hw : μ ||| 2147483648 = μ) (h : Keeps μ s0 s) : Keeps μ s0 (ballastEnds s c a) := by
  unfold ballastEnds
  extract_lets x0
  clear_value x0
  refine ite_intro (P := Keeps μ s0) (fun _ => ?_) (fun _ => ?_)
  · refine setArr_keeps (sub hw rfl) ?_
    refine drawFree_keeps ?_
    exact h
  · exact h

theorem capNote_keeps {s c a} (hw : μ ||| 2147483648 = μ) (h : Keeps μ s0 s) : Keeps μ s0 (capNote s c a) := by
  unfold capNote
  extract_lets x0 x1 x2
  clear_value x0
  clear_value x1
  have h3 : Keeps μ s0 x2 := by
    unfold x2
    refine ite_intro (P := Keeps μ s0) (fun _ => ?_) (fun _ => ?_)
    · refine raise_keeps ?_
      exact h
    · exact h
  clear_value x2
  refine setArr_keeps (sub hw rfl) ?_
  exact h3

theorem arrStart_keeps {s c a d} (hw : μ ||| 2147483648 = μ) (h : Keeps μ s0 s) : Keeps μ s0 (arrStart s c a d) := by
  unfold arrStart
  extract_lets x0 x1 x2 x3 x4 x5
  have h6 : Keeps μ s0 x0 := by
    unfold x0
    refine ballastEnds_keeps (sub hw rfl) ?_
    exact h
  clear_value x0
  clear_value x1
  clear_value x2
  have h7 : Keeps μ s0 x3 := by
    unfold x3
    refine ite_intro (P := Keeps μ s0) (fun _ => ?_) (fun _ => ?_)
    · refine wrF_keeps ?_
      exact h6
    · exact h6
  clear_value x3
  clear_value x4
  clear_value x5
  refine arrRegs_keeps ?_
  refine capNote_keeps (sub hw rfl) ?_
  refine setArr_keeps (sub hw rfl) ?_
  exact h7

theorem startOp_keeps {s op tags} (hw : μ ||| 105599807258988 = μ) (h : Keeps μ s0 s) : Keeps μ s0 (startOp s op tags) := by
  unfold startOp
  extract_lets x0 x1 x2 x3 x4
  clear_value x0
  clear_value x1
  have h5 : Keeps μ s0 x2 := by
    unfold x2
    refine updOp_keeps (sub hw rfl) ?_
    exact h
  clear_value x2
  have h6 : Keeps μ s0 x3 := by
    unfold x3
    refine foldl_intro (P := Keeps μ s0) ?_ ?_
    · exact h5
    · intro x7 x8 h9
      refine putTile_keeps (sub hw rfl) ?_
      exact h9
  clear_value x3
  have h10 : Keeps μ s0 x4 := by
    unfold x4
    refine opBegin_keeps (sub hw rfl) ?_
    refine opReserve_keeps (sub hw rfl) ?_
    exact h6
  clear_value x4
  refine ite_intro (P := Keeps μ s0) (fun _ => ?_) (fun _ => ?_)
  · refine foldl_intro (P := Keeps μ s0) ?_ ?_
    · exact h10
    · intro x11 x12 h13
      refine arrStart_keeps (sub hw rfl) ?_
      exact h13
  · exact h10

theorem startIssue_keeps {s issue} (hw : μ ||| 105599807258988 = μ) (h : Keeps μ s0 s) : Keeps μ s0 (startIssue s issue) := by
  unfold startIssue
  extract_lets x0
  clear_value x0
  refine ite_intro (P := Keeps μ s0) (fun _ => ?_) (fun _ => ?_)
  · refine foldl_intro (P := Keeps μ s0) ?_ ?_
    · exact h
    · intro x1 x2 h3
      refine opGone_keeps (sub hw rfl) ?_
      exact h3
  · refine ite_intro (P := Keeps μ s0) (fun _ => ?_) (fun _ => ?_)
    · exact h
    · split
      · rename_i y4 y5 y6 y7 y8 e9
        have h10 : Keeps μ s0 y8 := by
          refine of3 e9 ?_
          refine issueInputs_keeps (sub hw rfl) ?_
          exact h
        refine foldl_intro (P := Keeps μ s0) ?_ ?_
        · exact h10
        · intro x11 x12 h13
          refine ite_intro (P := Keeps μ s0) (fun _ => ?_) (fun _ => ?_)
          · refine startOp_keeps (sub hw rfl) ?_
            exact h13
          · refine opGone_keeps (sub hw rfl) ?_
            exact h13
      · rename_i y14 y15 y16 y17 y18 y19 e20 e21
        have h22 : Keeps μ s0 y19 := by
          refine of3 e21 ?_
          refine issueInputs_keeps (sub hw rfl) ?_
          exact h
        split
        · rename_i y23 y24 y25
          refine failExec_keeps (sub hw rfl) ?_
          refine foldl_intro (P := Keeps μ s0) ?_ ?_
          · exact h22
          · intro x26 x27 h28
            refine opGone_keeps (sub hw rfl) ?_
            exact h28
        · rename_i y29
          exact h22

theorem promote_keeps {s c} (hw : μ ||| 105599807258988 = μ) (h : Keeps μ s0 s) : Keeps μ s0 (promote s c) := by
  unfold promote
  extract_lets x0
  clear_value x0
  refine rotRegs_keeps ?_
  refine foldl_intro (P := Keeps μ s0) ?_ ?_
  · exact h
  · intro x1 x2 h3
    refine startIssue_keeps (sub hw rfl) ?_
    exact h3

theorem enterIssue_keeps {s x j ds map} (hw : μ ||| 1207959552 = μ) (h : Keeps μ s0 s) : Keeps μ s0 (enterIssue s x j ds map) := by
  unfold enterIssue
  extract_lets x0 x1 x2
  clear_value x0
  clear_value x1
  clear_value x2
  refine foldl_intro (P := Keeps μ s0) ?_ ?_
  · refine upd_keeps ?_
    exact h
  · intro x3 x4 h5
    extract_lets x6 x7 x8
    clear_value x6
    clear_value x7
    have h9 : Keeps μ s0 x8 := by
      unfold x8
      refine upd_ops (sub hw rfl) ?_
      exact h5
    clear_value x8
    refine updJob_keeps (sub hw rfl) ?_
    exact h9

theorem countSliceWaits_keeps {s c cls map ds} (h : Keeps μ s0 s) : Keeps μ s0 (countSliceWaits s c cls map ds) := by
  unfold countSliceWaits
  extract_lets x0
  clear_value x0
  refine ite_intro (P := Keeps μ s0) (fun _ => ?_) (fun _ => ?_)
  · refine bumpSat_keeps ?_
    exact h
  · exact h

theorem arrayIssue_keeps {s exec n} (hw : μ ||| 105599807258988 = μ) (h : Keeps μ s0 s) : Keeps μ s0 (arrayIssue s exec n) := by
  unfold arrayIssue
  split
  · rename_i y0 e1
    exact h
  · rename_i y2 y3 y4 e5
    refine ite_intro (P := Keeps μ s0) (fun _ => ?_) (fun _ => ?_)
    · exact h
    · extract_lets x6 x7 x8
      clear_value x6
      clear_value x7
      have h9 : Keeps μ s0 x8 := by
        unfold x8
        exact h
      clear_value x8
      refine ite_intro (P := Keeps μ s0) (fun _ => ?_) (fun _ => ?_)
      · exact h
      · refine ite_intro (P := Keeps μ s0) (fun _ => ?_) (fun _ => ?_)
        · exact h
        · split
          · rename_i y10 y11 y12 y13 y14 y15 e16
            have h17 : Keeps μ s0 y15 := by
              refine of3 e16 ?_
              refine readDescs_keeps (sub hw rfl) ?_
              exact h
            split
            · rename_i y18 y19 y20 e21
              have h22 : Keeps μ s0 y20 := by
                refine of3 e21 ?_
                refine readBlocks_keeps (sub hw rfl) ?_
                exact h17
              extract_lets x23 x24 x25
              clear_value x23
              clear_value x24
              clear_value x25
              refine ite_intro (P := Keeps μ s0) (fun _ => ?_) (fun _ => ?_)
              · refine failExec_keeps (sub hw rfl) ?_
                exact h22
              · split
                · rename_i y26 y27 e28
                  refine failExec_keeps (sub hw rfl) ?_
                  exact h22
                · rename_i y29 y30 y31 e32
                  refine ite_intro (P := Keeps μ s0) (fun _ => ?_) (fun _ => ?_)
                  · exact h9
                  · refine promote_keeps (sub hw rfl) ?_
                    refine enterIssue_keeps (sub hw rfl) ?_
                    refine countSliceWaits_keeps ?_
                    exact h22
            · rename_i y33 y34 y35 y36 e37 e38
              have h39 : Keeps μ s0 y36 := by
                refine of3 e38 ?_
                refine readBlocks_keeps (sub hw rfl) ?_
                exact h17
              refine failExec_keeps (sub hw rfl) ?_
              exact h39
          · rename_i y40 y41 y42 y43 y44 y45 y46 e47 e48
            have h49 : Keeps μ s0 y46 := by
              refine of3 e48 ?_
              refine readDescs_keeps (sub hw rfl) ?_
              exact h
            refine failExec_keeps (sub hw rfl) ?_
            exact h49

theorem opReady_keeps {s id} (hw : μ ||| 105599807258988 = μ) (h : Keeps μ s0 s) : Keeps μ s0 (opReady s id).2 := by
  unfold opReady
  extract_lets x0
  clear_value x0
  split
  · rename_i y1 e2
    refine mk2_keeps ?_
    exact h
  · rename_i y3 y4 e5
    split
    · rename_i y6 e7
      refine mk2_keeps ?_
      exact h
    · rename_i y8 e9
      refine ite2_keeps (fun _ => ?_) (fun _ => ?_)
      · extract_lets x10
        have h11 : Keeps μ s0 x10 := by
          unfold x10
          refine rotRegs_keeps ?_
          refine opBegin_keeps (sub hw rfl) ?_
          exact h
        clear_value x10
        refine mk2_keeps ?_
        exact h11
      · refine mk2_keeps ?_
        exact h
    · rename_i y12 e13
      refine ite2_keeps (fun _ => ?_) (fun _ => ?_)
      · extract_lets x14
        have h15 : Keeps μ s0 x14 := by
          unfold x14
          refine promote_keeps (sub hw rfl) ?_
          exact h
        clear_value x14
        refine mk2_keeps ?_
        exact h15
      · refine mk2_keeps ?_
        exact h
    · rename_i y16 y17 e18
      refine mk2_keeps ?_
      exact h

theorem onLoadingOp_keeps {s id f} (hw : μ ||| 105599807258988 = μ) (h : Keeps μ s0 s) (hf3 : ∀ a0 a1, Keeps μ s0 a0 → Keeps μ s0 (f a0 a1)) : Keeps μ s0 (onLoadingOp s id f) := by
  unfold onLoadingOp
  split
  · rename_i y0 y1 y2 e3
    have h4 : Keeps μ s0 y2 := by
      refine of2 e3 ?_
      refine opReady_keeps (sub hw rfl) ?_
      exact h
    refine ite_intro (P := Keeps μ s0) (fun _ => ?_) (fun _ => ?_)
    · refine hf3 _ _ ?_
      exact h4
    · exact h4
  · rename_i y5 y6 e7
    have h8 : Keeps μ s0 y6 := by
      refine of2 e7 ?_
      refine opReady_keeps (sub hw rfl) ?_
      exact h
    split
    · rename_i y9 y10 e11
      refine ite_intro (P := Keeps μ s0) (fun _ => ?_) (fun _ => ?_)
      · refine hf3 _ _ ?_
        exact h8
      · exact h8
    · rename_i y12 e13
      exact h8

theorem loseBank_keeps {s op l} (hw : μ ||| 9797894400 = μ) (h : Keeps μ s0 s) : Keeps μ s0 (loseBank s op l) := by
  unfold loseBank
  split
  · rename_i y0
    exact h
  · rename_i y1 y2
    refine ite_intro (P := Keeps μ s0) (fun _ => ?_) (fun _ => ?_)
    · exact h
    · extract_lets x3 x4
      have h5 : Keeps μ s0 x3 := by
        unfold x3
        refine bump_keeps ?_
        exact h
      clear_value x3
      clear_value x4
      split
      · rename_i y6 y7 e8
        exact h5
      · rename_i y9 y10 y11 y12 e13
        extract_lets x14 x15 x16
        have h17 : Keeps μ s0 x14 := by
          unfold x14
          refine updInst_keeps (sub hw rfl) ?_
          exact h5
        clear_value x14
        have h18 : Keeps μ s0 x15 := by
          unfold x15
          refine setRec_keeps (sub hw rfl) ?_
          refine bumpSat_keeps ?_
          exact h17
        clear_value x15
        have h19 : Keeps μ s0 x16 := by
          unfold x16
          refine updOp_keeps (sub hw rfl) ?_
          refine raise_keeps ?_
          exact h18
        clear_value x16
        refine ite_intro (P := Keeps μ s0) (fun _ => ?_) (fun _ => ?_)
        · refine ite_intro (P := Keeps μ s0) (fun _ => ?_) (fun _ => ?_)
          · refine report_keeps (sub hw rfl) ?_
            exact h19
          · exact h19
        · exact h17

theorem arrRest_keeps {s c a} (hw : μ ||| 2147483648 = μ) (h : Keeps μ s0 s) : Keeps μ s0 (arrRest s c a) := by
  unfold arrRest
  refine ite_intro (P := Keeps μ s0) (fun _ => ?_) (fun _ => ?_)
  · refine arrRegs_keeps ?_
    refine setArr_keeps (sub hw rfl) ?_
    exact h
  · refine arrRegs_keeps ?_
    exact h

theorem opRest_keeps {s op} (hw : μ ||| 2147483648 = μ) (h : Keeps μ s0 s) : Keeps μ s0 (opRest s op) := by
  unfold opRest
  refine foldl_intro (P := Keeps μ s0) ?_ ?_
  · exact h
  · intro x0 x1 h2
    refine arrRest_keeps (sub hw rfl) ?_
    exact h2

theorem arrFail_keeps {s op st injected} (hw : μ ||| 105599807258988 = μ) (h : Keeps μ s0 s) : Keeps μ s0 (arrFail s op st injected) := by
  unfold arrFail
  extract_lets x0
  have h1 : Keeps μ s0 x0 := by
    unfold x0
    refine ite_intro (P := Keeps μ s0) (fun _ => ?_) (fun _ => ?_)
    · refine raise_keeps ?_
      refine bumpSat_keeps ?_
      exact h
    · exact h
  clear_value x0
  refine promote_keeps (sub hw rfl) ?_
  refine opRest_keeps (sub hw rfl) ?_
  refine opFail_keeps (sub hw rfl) ?_
  exact h1

theorem abftRecord_keeps {s op kind tok col injected} (hw : μ ||| 8589934592 = μ) (h : Keeps μ s0 s) : Keeps μ s0 (abftRecord s op kind tok col injected) := by
  unfold abftRecord
  extract_lets x0 x1
  have h2 : Keeps μ s0 (x0).2 := by
    unfold x0
    refine drawFree_keeps ?_
    exact h
  clear_value x0
  have h3 : Keeps μ s0 (x1).2 := by
    unfold x1
    refine drawFree_keeps ?_
    exact h2
  clear_value x1
  refine setRec_keeps (sub hw rfl) ?_
  exact h3

theorem rowCodes_keeps {s op d r e0 n} (hw : μ ||| 42949673280 = μ) (h : Keeps μ s0 s) : Keeps μ s0 (rowCodes s op d r e0 n).2.2 := by
  unfold rowCodes
  refine ite3_keeps (fun _ => ?_) (fun _ => ?_)
  · split
    rename_i y0 y1 y2 y3 y4 e5
    have h6 : Keeps μ s0 y4 := by
      refine of3 e5 ?_
      refine opRead_keeps (sub hw rfl) ?_
      exact h
    refine mk3_keeps ?_
    exact h6
  · refine ite3_keeps (fun _ => ?_) (fun _ => ?_)
    · split
      rename_i y7 y8 y9 y10 y11 y12 e13
      have h14 : Keeps μ s0 y12 := by
        refine of3 e13 ?_
        refine opRead_keeps (sub hw rfl) ?_
        exact h
      refine mk3_keeps ?_
      exact h14
    · split
      rename_i y15 y16 y17 y18 y19 y20 e21
      have h22 : Keeps μ s0 y20 := by
        refine of3 e21 ?_
        refine opRead_keeps (sub hw rfl) ?_
        exact h
      refine mk3_keeps ?_
      exact h22

theorem rowMax_keeps {s op d r} (hw : μ ||| 42949673280 = μ) (h : Keeps μ s0 s) : Keeps μ s0 (rowMax s op d r).2.2 := by
  unfold rowMax
  refine ite3_keeps (fun _ => ?_) (fun _ => ?_)
  · split
    rename_i y0 y1 y2 y3 y4 e5
    have h6 : Keeps μ s0 y4 := by
      refine of3 e5 ?_
      refine opRead_keeps (sub hw rfl) ?_
      exact h
    extract_lets x7
    clear_value x7
    refine mk3_keeps ?_
    exact h6
  · split
    rename_i y8 y9 y10 y11 y12 e13
    have h14 : Keeps μ s0 y12 := by
      refine of3 e13 ?_
      refine rowCodes_keeps (sub hw rfl) ?_
      exact h
    refine mk3_keeps ?_
    exact h14

theorem rowScale_keeps {s op d r} (hw : μ ||| 42949673280 = μ) (h : Keeps μ s0 s) : Keeps μ s0 (rowScale s op d r).2.2 := by
  unfold rowScale
  split
  · rename_i y0 y1 e2
    refine mk3_keeps ?_
    exact h
  · rename_i y3 e4
    split
    rename_i y5 y6 y7 y8 e9
    have h10 : Keeps μ s0 y8 := by
      refine of3 e9 ?_
      refine rowMax_keeps (sub hw rfl) ?_
      exact h
    refine mk3_keeps ?_
    exact h10

theorem loadRow_keeps {s op d r e0 n} (hw : μ ||| 42949673280 = μ) (h : Keeps μ s0 s) : Keeps μ s0 (loadRow s op d r e0 n).2.2 := by
  unfold loadRow
  split
  · rename_i y0 y1 y2 e3
    have h4 : Keeps μ s0 y2 := by
      refine of3 e3 ?_
      refine rowCodes_keeps (sub hw rfl) ?_
      exact h
    refine ite3_keeps (fun _ => ?_) (fun _ => ?_)
    · split
      · rename_i y5 y6 y7 y8 e9
        have h10 : Keeps μ s0 y8 := by
          refine of3 e9 ?_
          refine rowScale_keeps (sub hw rfl) ?_
          exact h4
        split
        · rename_i y11 y12 e13
          extract_lets x14
          clear_value x14
          refine mk3_keeps ?_
          exact h10
        · rename_i y15 e16
          refine mk3_keeps ?_
          exact h10
      · rename_i y17 y18 y19 e20
        have h21 : Keeps μ s0 y19 := by
          refine of3 e20 ?_
          refine rowScale_keeps (sub hw rfl) ?_
          exact h4
        refine mk3_keeps ?_
        exact h21
      · rename_i y22 y23 y24 y25 y26 e27 e28 e29
        have h30 : Keeps μ s0 y26 := by
          refine of3 e29 ?_
          refine rowScale_keeps (sub hw rfl) ?_
          exact h4
        refine mk3_keeps ?_
        exact h30
    · refine ite3_keeps (fun _ => ?_) (fun _ => ?_)
      · split
        · rename_i y31 y32 y33 y34 y35 e36
          have h37 : Keeps μ s0 y35 := by
            refine of3 e36 ?_
            refine opRead_keeps (sub hw rfl) ?_
            exact h4
          refine ite3_keeps (fun _ => ?_) (fun _ => ?_)
          · refine mk3_keeps ?_
            exact h37
          · refine mk3_keeps ?_
            exact h37
        · rename_i y38 y39 y40 y41 y42 y43 e44 e45
          have h46 : Keeps μ s0 y43 := by
            refine of3 e45 ?_
            refine opRead_keeps (sub hw rfl) ?_
            exact h4
          refine mk3_keeps ?_
          exact h46
      · refine mk3_keeps ?_
        exact h4
  · rename_i y47 y48 y49 y50 e51 e52
    have h53 : Keeps μ s0 y50 := by
      refine of3 e52 ?_
      refine rowCodes_keeps (sub hw rfl) ?_
      exact h
    refine mk3_keeps ?_
    exact h53

theorem loadRows_keeps {s op d rs e0 n} (hw : μ ||| 42949673280 = μ) (h : Keeps μ s0 s) : Keeps μ s0 (loadRows s op d rs e0 n).2.2 := by
  unfold loadRows
  refine foldl3_keeps ?_ ?_
  · refine mk3_keeps ?_
    exact h
  · intro x0 x1 h2
    refine ite3_keeps (fun _ => ?_) (fun _ => ?_)
    · exact h2
    · split
      rename_i y3 y4 y5 y6 y7 e8
      have h9 : Keeps μ s0 y7 := by
        refine of3 e8 ?_
        refine loadRow_keeps (sub hw rfl) ?_
        exact h2
      refine mk3_keeps ?_
      exact h9

theorem loadTile_keeps {s op d kt nt} (hw : μ ||| 42949673280 = μ) (h : Keeps μ s0 s) : Keeps μ s0 (loadTile s op d kt nt).2.2.2 := by
  unfold loadTile
  extract_lets x0 x1 x2 x3 x4 x5
  clear_value x0
  clear_value x1
  clear_value x2
  clear_value x3
  clear_value x4
  have h6 : ∀ a0 a1 a2, Keeps μ s0 a2 → Keeps μ s0 (x5 a0 a1 a2).2.2.2 := by
    intro a0 a1 a2 h7
    unfold x5
    extract_lets x8
    clear_value x8
    refine mk4_keeps ?_
    exact h7
  clear_value x5
  refine ite4_keeps (fun _ => ?_) (fun _ => ?_)
  · split
    · rename_i y9 y10 y11 y12 e13
      have h14 : Keeps μ s0 y12 := by
        refine of3 e13 ?_
        refine loadRows_keeps (sub hw rfl) ?_
        exact h
      refine h6 _ _ _ ?_
      exact h14
    · rename_i y15 y16 y17 y18 y19 e20 e21
      have h22 : Keeps μ s0 y19 := by
        refine of3 e21 ?_
        refine loadRows_keeps (sub hw rfl) ?_
        exact h
      refine mk4_keeps ?_
      exact h22
  · split
    · rename_i y23 y24 y25 y26 e27
      have h28 : Keeps μ s0 y26 := by
        refine of3 e27 ?_
        refine loadRows_keeps (sub hw rfl) ?_
        exact h
      refine h6 _ _ _ ?_
      exact h28
    · rename_i y29 y30 y31 y32 y33 e34 e35
      have h36 : Keeps μ s0 y33 := by
        refine of3 e35 ?_
        refine loadRows_keeps (sub hw rfl) ?_
        exact h
      refine mk4_keeps ?_
      exact h36

theorem weightTileLoad_keeps {s op kt nt fault loss} (hw : μ ||| 105599807258988 = μ) (h : Keeps μ s0 s) : Keeps μ s0 (weightTileLoad s op kt nt fault loss) := by
  unfold weightTileLoad
  extract_lets x0 x1 x2 x3
  clear_value x0
  clear_value x1
  have h4 : Keeps μ s0 x2 := by
    unfold x2
    refine loseBank_keeps (sub hw rfl) ?_
    exact h
  clear_value x2
  have h5 : Keeps μ s0 x3 := by
    unfold x3
    refine ite_intro (P := Keeps μ s0) (fun _ => ?_) (fun _ => ?_)
    · refine bumpSat_keeps ?_
      exact h4
    · exact h4
  clear_value x3
  refine ite_intro (P := Keeps μ s0) (fun _ => ?_) (fun _ => ?_)
  · exact h
  · refine ite_intro (P := Keeps μ s0) (fun _ => ?_) (fun _ => ?_)
    · refine arrFail_keeps (sub hw rfl) ?_
      refine abftRecord_keeps (sub hw rfl) ?_
      refine raise_keeps ?_
      exact h4
    · refine ite_intro (P := Keeps μ s0) (fun _ => ?_) (fun _ => ?_)
      · refine arrFail_keeps (sub hw rfl) ?_
        refine raise_keeps ?_
        refine bumpSat_keeps ?_
        exact h4
      · split
        · rename_i y6 y7 y8 y9 y10 y11 y12 e13
          have h14 : Keeps μ s0 y12 := by
            refine of4 e13 ?_
            refine loadTile_keeps (sub hw rfl) ?_
            exact h5
          extract_lets x15 x16 x17
          have h18 : Keeps μ s0 x15 := by
            unfold x15
            refine ite_intro (P := Keeps μ s0) (fun _ => ?_) (fun _ => ?_)
            · exact h14
            · refine updOp_keeps (sub hw rfl) ?_
              exact h14
          clear_value x15
          clear_value x16
          have h19 : Keeps μ s0 x17 := by
            unfold x17
            refine foldl_intro (P := Keeps μ s0) ?_ ?_
            · exact h18
            · intro x20 x21 h22
              refine putTile_keeps (sub hw rfl) ?_
              exact h22
          clear_value x17
          refine foldl_intro (P := Keeps μ s0) ?_ ?_
          · exact h19
          · intro x23 x24 h25
            refine arrRegs_keeps ?_
            exact h25
        · rename_i y26 y27 y28 y29 y30 y31 y32 y33 e34 e35
          have h36 : Keeps μ s0 y33 := by
            refine of4 e35 ?_
            refine loadTile_keeps (sub hw rfl) ?_
            exact h5
          refine arrFail_keeps (sub hw rfl) ?_
          exact h36

theorem onArrayOp_keeps {s id f} (hw : μ ||| 105599807258988 = μ) (h : Keeps μ s0 s) (hf3 : ∀ a0 a1, Keeps μ s0 a0 → Keeps μ s0 (f a0 a1)) : Keeps μ s0 (onArrayOp s id f) := by
  unfold onArrayOp
  split
  · rename_i y0 y1 y2 e3
    have h4 : Keeps μ s0 y2 := by
      refine of2 e3 ?_
      refine opReady_keeps (sub hw rfl) ?_
      exact h
    refine ite_intro (P := Keeps μ s0) (fun _ => ?_) (fun _ => ?_)
    · refine hf3 _ _ ?_
      exact h4
    · exact h4
  · rename_i y5 y6 e7
    have h8 : Keeps μ s0 y6 := by
      refine of2 e7 ?_
      refine opReady_keeps (sub hw rfl) ?_
      exact h
    exact h8

theorem injectUsed_keeps {s c} (h : Keeps μ s0 s) : Keeps μ s0 (injectUsed s c) := by
  unfold injectUsed
  refine raise_keeps ?_
  refine wrF_keeps ?_
  exact h

theorem tileCycles_keeps {s c a} (hw : μ ||| 2147483648 = μ) (h : Keeps μ s0 s) : Keeps μ s0 (tileCycles s c a) := by
  unfold tileCycles
  extract_lets x0 x1 x2
  have h3 : Keeps μ s0 (x0).2 := by
    unfold x0
    refine drawFree_keeps ?_
    exact h
  clear_value x0
  have h4 : Keeps μ s0 (x1).2 := by
    unfold x1
    refine drawFree_keeps ?_
    exact h3
  clear_value x1
  clear_value x2
  refine setArr_keeps (sub hw rfl) ?_
  refine bumpSat_keeps ?_
  exact h4

theorem tileFlips_keeps {s d sp inj fault} (h : Keeps μ s0 s) : Keeps μ s0 (tileFlips s d sp inj fault).2 := by
  unfold tileFlips
  refine ite2_keeps (fun _ => ?_) (fun _ => ?_)
  · extract_lets x0
    clear_value x0
    refine mk2_keeps ?_
    refine drawFree_keeps ?_
    exact h
  · split
    · rename_i y1 y2 y3
      refine mk2_keeps ?_
      exact h
    · rename_i y4 y5 e6
      refine mk2_keeps ?_
      exact h

theorem actCodes_keeps {s op d blk t} (hw : μ ||| 42949673280 = μ) (h : Keeps μ s0 s) : Keeps μ s0 (actCodes s op d blk t).2.2 := by
  unfold actCodes
  split
  · rename_i y0
    split
    rename_i y1 y2 y3 y4 e5
    have h6 : Keeps μ s0 y4 := by
      refine of3 e5 ?_
      refine opRead_keeps (sub hw rfl) ?_
      exact h
    refine mk3_keeps ?_
    exact h6
  · rename_i y7 y8
    refine foldl3_keeps ?_ ?_
    · refine mk3_keeps ?_
      exact h
    · intro x9 x10 h11
      refine ite3_keeps (fun _ => ?_) (fun _ => ?_)
      · exact h11
      · split
        · rename_i y12 y13 e14
          refine mk3_keeps ?_
          exact h11
        · rename_i y15 y16 y17 e18
          split
          rename_i y19 y20 y21 y22 e23
          have h24 : Keeps μ s0 y22 := by
            refine of3 e23 ?_
            refine memRead_keeps (sub hw rfl) ?_
            exact h11
          refine mk3_keeps ?_
          exact h24

theorem tileCodes_keeps {s op d sp} (hw : μ ||| 42949673280 = μ) (h : Keeps μ s0 s) : Keeps μ s0 (tileCodes s op d sp).2.2 := by
  unfold tileCodes
  extract_lets x0
  clear_value x0
  refine foldl3_keeps ?_ ?_
  · refine mk3_keeps ?_
    exact h
  · intro x1 x2 h3
    refine ite3_keeps (fun _ => ?_) (fun _ => ?_)
    · exact h3
    · split
      rename_i y4 y5 y6 y7 y8 e9
      have h10 : Keeps μ s0 y8 := by
        refine of3 e9 ?_
        refine actCodes_keeps (sub hw rfl) ?_
        exact h3
      refine mk3_keeps ?_
      exact h10

theorem countGroups_keeps {s op l} (hw : μ ||| 8589934592 = μ) (h : Keeps μ s0 s) : Keeps μ s0 (countGroups s op l) := by
  unfold countGroups
  extract_lets x0 x1 x2 x3 x4 x5 x6 x7
  clear_value x0
  clear_value x1
  have h8 : Keeps μ s0 x2 := by
    unfold x2
    refine bump_keeps ?_
    exact h
  clear_value x2
  have h9 : Keeps μ s0 x3 := by
    unfold x3
    refine bumpSat_keeps ?_
    exact h8
  clear_value x3
  have h10 : Keeps μ s0 x4 := by
    unfold x4
    refine bumpSat_keeps ?_
    exact h9
  clear_value x4
  clear_value x5
  have h11 : Keeps μ s0 x6 := by
    unfold x6
    refine bumpSat_keeps ?_
    exact h10
  clear_value x6
  have h12 : Keeps μ s0 x7 := by
    unfold x7
    refine ite_intro (P := Keeps μ s0) (fun _ => ?_) (fun _ => ?_)
    · refine raise_keeps ?_
      exact h11
    · exact h11
  clear_value x7
  split
  · rename_i y13 e14
    exact h12
  · rename_i y15 y16 y17 e18
    extract_lets x19 x20
    clear_value x19
    clear_value x20
    refine setRec_keeps (sub hw rfl) ?_
    exact h12

theorem opReads_keeps {s op off l} (hw : μ ||| 42949673280 = μ) (h : Keeps μ s0 s) : Keeps μ s0 (opReads s op off l).2.2 := by
  unfold opReads
  refine foldl3_keeps ?_ ?_
  · refine mk3_keeps ?_
    exact h
  · intro x0 x1 h2
    refine ite3_keeps (fun _ => ?_) (fun _ => ?_)
    · split
      rename_i y3 y4 y5 y6 y7 e8
      have h9 : Keeps μ s0 y7 := by
        refine of3 e8 ?_
        refine opRead_keeps (sub hw rfl) ?_
        exact h2
      refine mk3_keeps ?_
      exact h9
    · exact h2

theorem formTile_keeps {s op d tiles bias sp flips weight} (hw : μ ||| 42949673280 = μ) (h : Keeps μ s0 s) : Keeps μ s0 (formTile s op d tiles bias sp flips weight).2.2 := by
  unfold formTile
  split
  · rename_i y0 y1 y2 e3
    have h4 : Keeps μ s0 y2 := by
      refine of3 e3 ?_
      refine tileCodes_keeps (sub hw rfl) ?_
      exact h
    extract_lets x5 x6 x7 x8 x9 x10 x11 x12 x13 x14 x15 x16 x17
    clear_value x5
    clear_value x6
    clear_value x7
    clear_value x8
    have h18 : Keeps μ s0 x9 := by
      unfold x9
      refine countGroups_keeps (sub hw rfl) ?_
      exact h4
    clear_value x9
    clear_value x10
    clear_value x11
    clear_value x12
    clear_value x13
    clear_value x14
    clear_value x15
    clear_value x16
    clear_value x17
    refine ite3_keeps (fun _ => ?_) (fun _ => ?_)
    · refine mk3_keeps ?_
      exact h18
    · split
      · rename_i y19 y20 y21 y22 e23
        have h24 : Keeps μ s0 y22 := by
          refine of3 e23 ?_
          refine ite3_keeps (fun _ => ?_) (fun _ => ?_)
          · refine opReads_keeps (sub hw rfl) ?_
            exact h18
          · refine mk3_keeps ?_
            exact h18
        extract_lets x25
        clear_value x25
        refine mk3_keeps ?_
        exact h24
      · rename_i y26 y27 y28 y29 y30 e31 e32
        have h33 : Keeps μ s0 y30 := by
          refine of3 e32 ?_
          refine ite3_keeps (fun _ => ?_) (fun _ => ?_)
          · refine opReads_keeps (sub hw rfl) ?_
            exact h18
          · refine mk3_keeps ?_
            exact h18
        refine mk3_keeps ?_
        exact h33
  · rename_i y34 y35 y36 y37 e38 e39
    have h40 : Keeps μ s0 y37 := by
      refine of3 e39 ?_
      refine tileCodes_keeps (sub hw rfl) ?_
      exact h
    refine mk3_keeps ?_
    exact h40

theorem tileFails_keeps {s op sp x} (hw : μ ||| 105599807258988 = μ) (h : Keeps μ s0 s) : Keeps μ s0 (tileFails s op sp x) := by
  unfold tileFails
  extract_lets x0 x1 x2 x3
  clear_value x0
  clear_value x1
  have h4 : Keeps μ s0 x2 := by
    unfold x2
    refine ite_intro (P := Keeps μ s0) (fun _ => ?_) (fun _ => ?_)
    · refine raise_keeps ?_
      refine bumpSat_keeps ?_
      exact h
    · refine ite_intro (P := Keeps μ s0) (fun _ => ?_) (fun _ => ?_)
      · refine raise_keeps ?_
        refine bumpSat_keeps ?_
        exact h
      · refine ite_intro (P := Keeps μ s0) (fun _ => ?_) (fun _ => ?_)
        · refine raise_keeps ?_
          exact h
        · refine ite_intro (P := Keeps μ s0) (fun _ => ?_) (fun _ => ?_)
          · refine raise_keeps ?_
            refine bumpSat_keeps ?_
            exact h
          · refine raise_keeps ?_
            refine bumpSat_keeps ?_
            exact h
  clear_value x2
  have h5 : Keeps μ s0 x3 := by
    unfold x3
    refine ite_intro (P := Keeps μ s0) (fun _ => ?_) (fun _ => ?_)
    · exact h4
    · refine abftRecord_keeps (sub hw rfl) ?_
      exact h4
  clear_value x3
  refine arrFail_keeps (sub hw rfl) ?_
  exact h5

theorem opWrite_keeps {s op off x bs} (hw : μ ||| 35227321762144 = μ) (h : Keeps μ s0 s) : Keeps μ s0 (opWrite s op off x bs).2 := by
  unfold opWrite
  extract_lets x0
  clear_value x0
  split
  · rename_i y1 y2 e3
    have h4 : Keeps μ s0 y2 := by
      refine of2 e3 ?_
      refine memWrite_keeps (sub hw rfl) ?_
      exact h
    refine ite2_keeps (fun _ => ?_) (fun _ => ?_)
    · refine memWrite_keeps (sub hw rfl) ?_
      exact h4
    · refine mk2_keeps ?_
      exact h4
  · rename_i y5 y6 y7 e8 e9
    have h10 : Keeps μ s0 y7 := by
      refine of2 e9 ?_
      refine memWrite_keeps (sub hw rfl) ?_
      exact h
    refine mk2_keeps ?_
    exact h10

theorem opWrites_keeps {s op off l} (hw : μ ||| 35227321762144 = μ) (h : Keeps μ s0 s) : Keeps μ s0 (opWrites s op off l).2 := by
  unfold opWrites
  refine foldl2_keeps ?_ ?_
  · refine mk2_keeps ?_
    exact h
  · intro x0 x1 h2
    refine ite2_keeps (fun _ => ?_) (fun _ => ?_)
    · refine opWrite_keeps (sub hw rfl) ?_
      exact h2
    · exact h2

theorem tileWork_keeps {s op tiles fault loss} (hw : μ ||| 105599807258988 = μ) (h : Keeps μ s0 s) : Keeps μ s0 (tileWork s op tiles fault loss) := by
  unfold tileWork
  extract_lets x0 x1 x2 x3 x4 x5 x7 x8 x9
  clear_value x0
  clear_value x1
  clear_value x2
  clear_value x3
  clear_value x4
  have h11 : Keeps μ s0 x5 := by
    unfold x5
    refine loseBank_keeps (sub hw rfl) ?_
    refine ite_intro (P := Keeps μ s0) (fun _ => ?_) (fun _ => ?_)
    · refine injectUsed_keeps ?_
      exact h
    · exact h
  clear_value x5
  have h16 : Keeps μ s0 (x7).2 := by
    unfold x7
    refine tileFlips_keeps ?_
    exact h11
  clear_value x7
  have h17 : Keeps μ s0 x8 := by
    unfold x8
    exact h16
  clear_value x8
  clear_value x9
  split
  · rename_i y23 y24 y25 e26
    have h27 : Keeps μ s0 y25 := by
      refine of3 e26 ?_
      refine ite3_keeps (fun _ => ?_) (fun _ => ?_)
      · refine opRead_keeps (sub hw rfl) ?_
        exact h17
      · refine mk3_keeps ?_
        exact h17
    split
    · rename_i y28 y29 y30 e31
      have h32 : Keeps μ s0 y30 := by
        refine of3 e31 ?_
        refine formTile_keeps (sub hw rfl) ?_
        exact h27
      extract_lets x33 x34
      have h35 : Keeps μ s0 x33 := by
        unfold x33
        refine ite_intro (P := Keeps μ s0) (fun _ => ?_) (fun _ => ?_)
        · refine bump_keeps ?_
          exact h32
        · exact h32
      clear_value x33
      clear_value x34
      split
      · rename_i y36 y37 e38
        refine tileFails_keeps (sub hw rfl) ?_
        exact h35
      · rename_i y39 e40
        split
        · rename_i y41 y42 e43
          have h44 : Keeps μ s0 y42 := by
            refine of2 e43 ?_
            refine opWrites_keeps (sub hw rfl) ?_
            exact h35
          extract_lets x45
          clear_value x45
          refine updOp_keeps (sub hw rfl) ?_
          exact h44
        · rename_i y46 y47 y48 e49 e50
          have h51 : Keeps μ s0 y48 := by
            refine of2 e50 ?_
            refine opWrites_keeps (sub hw rfl) ?_
            exact h35
          refine arrFail_keeps (sub hw rfl) ?_
          exact h51
    · rename_i y52 y53 y54 y55 e56 e57
      have h58 : Keeps μ s0 y55 := by
        refine of3 e57 ?_
        refine formTile_keeps (sub hw rfl) ?_
        exact h27
      refine arrFail_keeps (sub hw rfl) ?_
      exact h58
  · rename_i y59 y60 y61 y62 e63 e64
    have h65 : Keeps μ s0 y62 := by
      refine of3 e64 ?_
      refine ite3_keeps (fun _ => ?_) (fun _ => ?_)
      · refine opRead_keeps (sub hw rfl) ?_
        exact h17
      · refine mk3_keeps ?_
        exact h17
    refine arrFail_keeps (sub hw rfl) ?_
    exact h65

theorem arrayTile_keeps {s op fault loss} (hw : μ ||| 105599807258988 = μ) (h : Keeps μ s0 s) : Keeps μ s0 (arrayTile s op fault loss) := by
  unfold arrayTile
  extract_lets x0
  clear_value x0
  split
  · exact h
  · refine foldl_intro (P := Keeps μ s0) ?_ ?_
    · refine tileWork_keeps (sub hw rfl) ?_
      exact h
    · intro x1 x2 h3
      refine tileCycles_keeps (sub hw rfl) ?_
      exact h3

theorem abftVerdict_keeps {s op} (hw : μ ||| 105599807258988 = μ) (h : Keeps μ s0 s) : Keeps μ s0 (abftVerdict s op) := by
  unfold abftVerdict
  split
  · rename_i y0 e1
    exact h
  · rename_i y2 y3 y4 e5
    extract_lets x6 x7 x8 x9 x10 x11 x12
    clear_value x6
    clear_value x7
    have h13 : Keeps μ s0 x8 := by
      unfold x8
      refine bump_keeps ?_
      exact h
    clear_value x8
    have h14 : Keeps μ s0 x9 := by
      unfold x9
      refine wr_keeps ?_
      exact h13
    clear_value x9
    clear_value x10
    clear_value x11
    have h15 : Keeps μ s0 x12 := by
      unfold x12
      refine raise_keeps ?_
      refine bumpSat_keeps ?_
      exact h14
    clear_value x12
    refine ite_intro (P := Keeps μ s0) (fun _ => ?_) (fun _ => ?_)
    · exact h
    · refine ite_intro (P := Keeps μ s0) (fun _ => ?_) (fun _ => ?_)
      · refine updOp_keeps (sub hw rfl) ?_
        exact h14
      · refine arrFail_keeps (sub hw rfl) ?_
        refine abftRecord_keeps (sub hw rfl) ?_
        exact h15

theorem abftLate_keeps {s op} (hw : μ ||| 105599807258988 = μ) (h : Keeps μ s0 s) : Keeps μ s0 (abftLate s op) := by
  unfold abftLate
  split
  · rename_i y0 e1
    exact h
  · rename_i y2 y3 y4 e5
    refine ite_intro (P := Keeps μ s0) (fun _ => ?_) (fun _ => ?_)
    · exact h
    · extract_lets x6
      have h7 : Keeps μ s0 x6 := by
        unfold x6
        refine raise_keeps ?_
        refine bumpSat_keeps ?_
        exact h
      clear_value x6
      refine arrFail_keeps (sub hw rfl) ?_
      refine abftRecord_keeps (sub hw rfl) ?_
      exact h7

theorem inheritRuns_keeps {s ag cls echo extra l} (hw : μ ||| 42949673280 = μ) (h : Keeps μ s0 s) : Keeps μ s0 (inheritRuns s ag cls echo extra l).2.2 := by
  unfold inheritRuns
  refine foldl3_keeps ?_ ?_
  · refine mk3_keeps ?_
    exact h
  · intro x0 x1 h2
    refine ite3_keeps (fun _ => ?_) (fun _ => ?_)
    · exact h2
    · split
      rename_i y3 y4 y5 y6 y7 e8
      have h9 : Keeps μ s0 y7 := by
        refine of3 e8 ?_
        refine readRuns_keeps (sub hw rfl) ?_
        exact h2
      refine mk3_keeps ?_
      exact h9

theorem arrFlags_keeps {s op d} (hw : μ ||| 42949673280 = μ) (h : Keeps μ s0 s) : Keeps μ s0 (arrFlags s op d).2.2 := by
  unfold arrFlags
  extract_lets x0 x1
  clear_value x0
  clear_value x1
  refine ite3_keeps (fun _ => ?_) (fun _ => ?_)
  · split
    · rename_i y2 y3 y4 y5 e6
      have h7 : Keeps μ s0 y5 := by
        refine of3 e6 ?_
        refine readTag_keeps (sub hw rfl) ?_
        exact h
      refine inheritRuns_keeps (sub hw rfl) ?_
      exact h7
    · rename_i y8 y9 y10 y11 y12 e13 e14
      have h15 : Keeps μ s0 y12 := by
        refine of3 e14 ?_
        refine readTag_keeps (sub hw rfl) ?_
        exact h
      refine mk3_keeps ?_
      exact h15
  · refine inheritRuns_keeps (sub hw rfl) ?_
    exact h

theorem writeTagBlock_keeps {s ag addr t flags cls echo} (hw : μ ||| 35227321762144 = μ) (h : Keeps μ s0 s) : Keeps μ s0 (writeTagBlock s ag addr t flags cls echo).2 := by
  unfold writeTagBlock
  split
  · rename_i y0 y1 e2
    have h3 : Keeps μ s0 y1 := by
      refine of2 e2 ?_
      refine memWrite_keeps (sub hw rfl) ?_
      exact h
    refine memWrite_keeps (sub hw rfl) ?_
    exact h3
  · rename_i y4 y5 y6 e7 e8
    have h9 : Keeps μ s0 y6 := by
      refine of2 e8 ?_
      refine memWrite_keeps (sub hw rfl) ?_
      exact h
    refine mk2_keeps ?_
    exact h9

theorem leaveTiles_keeps {s op} (hw : μ ||| 2147483648 = μ) (h : Keeps μ s0 s) : Keeps μ s0 (leaveTiles s op) := by
  unfold leaveTiles
  refine foldl_intro (P := Keeps μ s0) ?_ ?_
  · exact h
  · intro x0 x1 h2
    extract_lets x3
    clear_value x3
    refine setArr_keeps (sub hw rfl) ?_
    exact h2

theorem lateDiscard_keeps {s} (h : Keeps μ s0 s) : Keeps μ s0 (lateDiscard s) := by
  unfold lateDiscard
  refine bumpSat_keeps ?_
  exact h

theorem descDone_keeps {s exec} (hw : μ ||| 134217728 = μ) (h : Keeps μ s0 s) : Keeps μ s0 (descDone s exec) := by
  unfold descDone
  extract_lets x0
  have h1 : Keeps μ s0 x0 := by
    unfold x0
    refine ite_intro (P := Keeps μ s0) (fun _ => ?_) (fun _ => ?_)
    · exact h
    · refine lateDiscard_keeps ?_
      exact h
  clear_value x0
  split
  · rename_i y2 y3 y4 e5
    refine updJob_keeps (sub hw rfl) ?_
    exact h1
  · rename_i y6 e7
    exact h1

theorem rollPerformed_keeps {s c r op} (hw : μ ||| 16777216 = μ) (h : Keeps μ s0 s) : Keeps μ s0 (rollPerformed s c r op) := by
  unfold rollPerformed
  extract_lets x0
  clear_value x0
  refine setRoll_keeps (sub hw rfl) ?_
  exact h

theorem rollConsumed_keeps {s c r op} (hw : μ ||| 16777216 = μ) (h : Keeps μ s0 s) : Keeps μ s0 (rollConsumed s c r op) := by
  unfold rollConsumed
  extract_lets x0
  clear_value x0
  refine rollAdvance_keeps (sub hw rfl) ?_
  refine setRoll_keeps (sub hw rfl) ?_
  exact h

theorem opRollsDone_keeps {s op} (hw : μ ||| 16777476 = μ) (h : Keeps μ s0 s) : Keeps μ s0 (opRollsDone s op) := by
  unfold opRollsDone
  extract_lets x0
  have h1 : Keeps μ s0 x0 := by
    unfold x0
    refine foldl_intro (P := Keeps μ s0) ?_ ?_
    · exact h
    · intro x2 x3 h4
      extract_lets x5 x6
      clear_value x5
      have h7 : Keeps μ s0 x6 := by
        unfold x6
        refine ite_intro (P := Keeps μ s0) (fun _ => ?_) (fun _ => ?_)
        · refine rollCommit_keeps (sub hw rfl) ?_
          refine rollPerformed_keeps (sub hw rfl) ?_
          exact h4
        · exact h4
      clear_value x6
      refine ite_intro (P := Keeps μ s0) (fun _ => ?_) (fun _ => ?_)
      · refine rollConsumed_keeps (sub hw rfl) ?_
        exact h7
      · exact h7
  clear_value x0
  refine rollRelease_keeps (sub hw rfl) ?_
  exact h1

theorem jobFlags_keeps {s exec f} (hw : μ ||| 134217728 = μ) (h : Keeps μ s0 s) : Keeps μ s0 (jobFlags s exec f) := by
  unfold jobFlags
  split
  · rename_i y0 y1 y2 e3
    refine updInst_keeps (sub hw rfl) ?_
    exact h
  · rename_i y4 e5
    exact h

theorem opDone_keeps {s op peg} (hw : μ ||| 105597659775340 = μ) (h : Keeps μ s0 s) : Keeps μ s0 (opDone s op peg) := by
  unfold opDone
  refine ite_intro (P := Keeps μ s0) (fun _ => ?_) (fun _ => ?_)
  · refine descDone_keeps (sub hw rfl) ?_
    refine opGone_keeps (sub hw rfl) ?_
    exact h
  · split
    · rename_i y0 y1 y2 e3
      extract_lets x4 x5
      have h6 : Keeps μ s0 x4 := by
        unfold x4
        refine opRollsDone_keeps (sub hw rfl) ?_
        refine jobFlags_keeps (sub hw rfl) ?_
        exact h
      clear_value x4
      have h7 : Keeps μ s0 x5 := by
        unfold x5
        refine pegInc_keeps (sub hw rfl) ?_
        exact h6
      clear_value x5
      refine ite_intro (P := Keeps μ s0) (fun _ => ?_) (fun _ => ?_)
      · refine failExec_keeps (sub hw rfl) ?_
        refine dropOp_keeps (sub hw rfl) ?_
        exact h6
      · refine descDone_keeps (sub hw rfl) ?_
        refine dropOp_keeps (sub hw rfl) ?_
        exact h7
    · rename_i y8 y9 e10
      exact h

theorem arrayDone_keeps {s op loss} (hw : μ ||| 105599807258988 = μ) (h : Keeps μ s0 s) : Keeps μ s0 (arrayDone s op loss) := by
  unfold arrayDone
  extract_lets x0
  clear_value x0
  refine ite_intro (P := Keeps μ s0) (fun _ => ?_) (fun _ => ?_)
  · exact h
  · split
    · rename_i y1 y2 y3 y4 e5
      have h6 : Keeps μ s0 y4 := by
        refine of3 e5 ?_
        refine arrFlags_keeps (sub hw rfl) ?_
        refine loseBank_keeps (sub hw rfl) ?_
        exact h
      split
      · rename_i y7 y8 e9
        have h10 : Keeps μ s0 y8 := by
          refine of2 e9 ?_
          refine writeTagBlock_keeps (sub hw rfl) ?_
          exact h6
        extract_lets x11 x12
        have h13 : Keeps μ s0 x11 := by
          unfold x11
          refine bump_keeps ?_
          refine bump_keeps ?_
          exact h10
        clear_value x11
        have h14 : Keeps μ s0 x12 := by
          unfold x12
          refine ite_intro (P := Keeps μ s0) (fun _ => ?_) (fun _ => ?_)
          · refine bump_keeps ?_
            exact h13
          · exact h13
        clear_value x12
        refine promote_keeps (sub hw rfl) ?_
        refine opRest_keeps (sub hw rfl) ?_
        refine leaveTiles_keeps (sub hw rfl) ?_
        refine opDone_keeps (sub hw rfl) ?_
        exact h14
      · rename_i y15 y16 y17 e18 e19
        have h20 : Keeps μ s0 y17 := by
          refine of2 e19 ?_
          refine writeTagBlock_keeps (sub hw rfl) ?_
          exact h6
        refine arrFail_keeps (sub hw rfl) ?_
        exact h20
    · rename_i y21 y22 y23 y24 y25 e26 e27
      have h28 : Keeps μ s0 y25 := by
        refine of3 e27 ?_
        refine arrFlags_keeps (sub hw rfl) ?_
        refine loseBank_keeps (sub hw rfl) ?_
        exact h
      refine arrFail_keeps (sub hw rfl) ?_
      exact h28

theorem engineIssue_keeps {s exec e} (hw : μ ||| 105597659775340 = μ) (h : Keeps μ s0 s) : Keeps μ s0 (engineIssue s exec e) := by
  unfold engineIssue
  split
  · rename_i y0 e1
    exact h
  · rename_i y2 y3 y4 e5
    refine ite_intro (P := Keeps μ s0) (fun _ => ?_) (fun _ => ?_)
    · exact h
    · extract_lets x6 x7 x8
      clear_value x6
      clear_value x7
      clear_value x8
      split
      · rename_i y9 y10
        exact h
      · rename_i y11 y12 y13 y14
        refine ite_intro (P := Keeps μ s0) (fun _ => ?_) (fun _ => ?_)
        · exact h
        · split
          · rename_i y15 y16 y17 y18 y19 e20
            have h21 : Keeps μ s0 y19 := by
              refine of3 e20 ?_
              refine readDescs_keeps (sub hw rfl) ?_
              exact h
            extract_lets x22
            clear_value x22
            split
            rename_i y23 y24 y25 y26 e27
            have h28 : Keeps μ s0 y26 := by
              refine of3 e27 ?_
              refine ite3_keeps (fun _ => ?_) (fun _ => ?_)
              · refine peekBlock_keeps (sub hw rfl) ?_
                exact h21
              · refine mk3_keeps ?_
                exact h21
            extract_lets x29 x30 x31 x32 x33
            clear_value x29
            have h34 : Keeps μ s0 x30 := by
              unfold x30
              refine ite_intro (P := Keeps μ s0) (fun _ => ?_) (fun _ => ?_)
              · refine bumpSat_keeps ?_
                exact h28
              · exact h28
            clear_value x30
            clear_value x31
            have h35 : Keeps μ s0 x32 := by
              unfold x32
              refine upd_ops (sub hw rfl) ?_
              exact h34
            clear_value x32
            have h36 : Keeps μ s0 x33 := by
              unfold x33
              refine updJob_keeps (sub hw rfl) ?_
              exact h35
            clear_value x33
            refine ite_intro (P := Keeps μ s0) (fun _ => ?_) (fun _ => ?_)
            · refine failExec_keeps (sub hw rfl) ?_
              exact h28
            · refine engNext_keeps (sub hw rfl) ?_
              exact h36
          · rename_i y37 y38 y39 y40 y41 e42 e43
            have h44 : Keeps μ s0 y41 := by
              refine of3 e43 ?_
              refine readDescs_keeps (sub hw rfl) ?_
              exact h
            refine failExec_keeps (sub hw rfl) ?_
            exact h44

theorem engReady_keeps {s c e} (hw : μ ||| 105597659775340 = μ) (h : Keeps μ s0 s) : Keeps μ s0 (engReady s c e).2 := by
  unfold engReady
  split
  · rename_i y0 e1
    refine mk2_keeps ?_
    exact h
  · rename_i y2 y3 e4
    refine ite2_keeps (fun _ => ?_) (fun _ => ?_)
    · refine mk2_keeps ?_
      exact h
    · extract_lets x5
      have h6 : Keeps μ s0 x5 := by
        unfold x5
        refine opBegin_keeps (sub hw rfl) ?_
        exact h
      clear_value x5
      refine mk2_keeps ?_
      exact h6

theorem engCycles_keeps {s c e} (hw : μ ||| 4294967296 = μ) (h : Keeps μ s0 s) : Keeps μ s0 (engCycles s c e) := by
  unfold engCycles
  extract_lets x0 x1 x2 x3
  have h4 : Keeps μ s0 (x0).2 := by
    unfold x0
    refine drawFree_keeps ?_
    exact h
  clear_value x0
  have h5 : Keeps μ s0 (x1).2 := by
    unfold x1
    refine drawFree_keeps ?_
    exact h4
  clear_value x1
  clear_value x2
  have h6 : Keeps μ s0 x3 := by
    unfold x3
    exact h5
  clear_value x3
  refine upd_engCycles (sub hw rfl) ?_
  exact h6

theorem engRecord_keeps {s op injected} (hw : μ ||| 8589934592 = μ) (h : Keeps μ s0 s) : Keeps μ s0 (engRecord s op injected) := by
  unfold engRecord
  refine setRec_keeps (sub hw rfl) ?_
  exact h

theorem engFail_keeps {s op st injected} (hw : μ ||| 105597659775340 = μ) (h : Keeps μ s0 s) : Keeps μ s0 (engFail s op st injected) := by
  unfold engFail
  extract_lets x0 x1 x2 x3 x4
  clear_value x0
  clear_value x1
  clear_value x2
  have h5 : Keeps μ s0 x3 := by
    unfold x3
    refine ite_intro (P := Keeps μ s0) (fun _ => ?_) (fun _ => ?_)
    · refine raise_keeps ?_
      refine bumpSat_keeps ?_
      exact h
    · refine ite_intro (P := Keeps μ s0) (fun _ => ?_) (fun _ => ?_)
      · refine raise_keeps ?_
        refine bumpSat_keeps ?_
        exact h
      · refine ite_intro (P := Keeps μ s0) (fun _ => ?_) (fun _ => ?_)
        · refine raise_keeps ?_
          refine bumpSat_keeps ?_
          exact h
        · refine ite_intro (P := Keeps μ s0) (fun _ => ?_) (fun _ => ?_)
          · refine raise_keeps ?_
            refine bumpSat_keeps ?_
            exact h
          · exact h
  clear_value x3
  have h6 : Keeps μ s0 x4 := by
    unfold x4
    refine ite_intro (P := Keeps μ s0) (fun _ => ?_) (fun _ => ?_)
    · refine raise_keeps ?_
      exact h5
    · exact h5
  clear_value x4
  refine engRegs_keeps ?_
  refine opFail_keeps (sub hw rfl) ?_
  refine engRecord_keeps (sub hw rfl) ?_
  exact h6

theorem fpReads_keeps {s op off f l} (hw : μ ||| 42949673280 = μ) (h : Keeps μ s0 s) : Keeps μ s0 (fpReads s op off f l).2.2 := by
  unfold fpReads
  split
  · rename_i y0 y1 y2 e3
    have h4 : Keeps μ s0 y2 := by
      refine of3 e3 ?_
      refine opReads_keeps (sub hw rfl) ?_
      exact h
    extract_lets x5
    clear_value x5
    refine ite3_keeps (fun _ => ?_) (fun _ => ?_)
    · refine mk3_keeps ?_
      exact h4
    · refine mk3_keeps ?_
      exact h4
  · rename_i y6 y7 y8 y9 e10 e11
    have h12 : Keeps μ s0 y9 := by
      refine of3 e11 ?_
      refine opReads_keeps (sub hw rfl) ?_
      exact h
    refine mk3_keeps ?_
    exact h12

theorem runTransform_keeps {s op v2} (hw : μ ||| 42949673280 = μ) (h : Keeps μ s0 s) : Keeps μ s0 (runTransform s op v2).2 := by
  unfold runTransform
  extract_lets x0 x1 x2 x3 x4 x5 x6
  clear_value x0
  clear_value x1
  clear_value x2
  clear_value x3
  clear_value x4
  clear_value x5
  clear_value x6
  split
  · rename_i y7 y8 y9 e10
    have h11 : Keeps μ s0 y9 := by
      refine of3 e10 ?_
      refine fpReads_keeps (sub hw rfl) ?_
      exact h
    extract_lets x12 x13
    clear_value x12
    clear_value x13
    refine mk2_keeps ?_
    exact h11
  · rename_i y14 y15 y16 y17 e18 e19
    have h20 : Keeps μ s0 y17 := by
      refine of3 e19 ?_
      refine fpReads_keeps (sub hw rfl) ?_
      exact h
    refine mk2_keeps ?_
    exact h20

theorem runSpectral_keeps {s op v2} (hw : μ ||| 42949673280 = μ) (h : Keeps μ s0 s) : Keeps μ s0 (runSpectral s op v2).2 := by
  unfold runSpectral
  extract_lets x0 x1 x2 x3 x4 x5
  clear_value x0
  clear_value x1
  clear_value x2
  clear_value x3
  clear_value x4
  clear_value x5
  split
  · rename_i y6 y7 y8 e9
    have h10 : Keeps μ s0 y8 := by
      refine of3 e9 ?_
      refine fpReads_keeps (sub hw rfl) ?_
      exact h
    split
    · rename_i y11 y12 y13 e14
      have h15 : Keeps μ s0 y13 := by
        refine of3 e14 ?_
        refine fpReads_keeps (sub hw rfl) ?_
        exact h10
      extract_lets x16 x17 x18
      clear_value x16
      clear_value x17
      clear_value x18
      refine mk2_keeps ?_
      exact h15
    · rename_i y19 y20 y21 y22 e23 e24
      have h25 : Keeps μ s0 y22 := by
        refine of3 e24 ?_
        refine fpReads_keeps (sub hw rfl) ?_
        exact h10
      refine mk2_keeps ?_
      exact h25
  · rename_i y26 y27 y28 y29 e30 e31
    have h32 : Keeps μ s0 y29 := by
      refine of3 e31 ?_
      refine fpReads_keeps (sub hw rfl) ?_
      exact h
    refine mk2_keeps ?_
    exact h32

end Sys2Proof.Laws
end

