-- ==== Sys2Proof/Laws/Keeps6.lean ====
section
/-!
SUPPORT. The functions of the model keep the queue, the fuses and the canonical memories: part 6.
-/

namespace Sys2Proof.Laws

open Sys2Proof.Machine Sys2Proof.Safety

variable {s0 : State} {α β γ δ : Type} {μ : Nat}

theorem runWindow_keeps {s op v2} (hw : μ ||| 42949673280 = μ) (h : Keeps μ s0 s) : Keeps μ s0 (runWindow s op v2).2 := by
  unfold runWindow
  extract_lets x0 x1 x2 x3 x4 x5 x6
  clear_value x0
  clear_value x1
  clear_value x2
  clear_value x3
  clear_value x4
  clear_value x5
  clear_value x6
  split
  · rename_i y7 y8 y9 e10
    have h11 : Keeps μ s0 y9 := by
      refine of3 e10 ?_
      refine ite3_keeps (fun _ => ?_) (fun _ => ?_)
      · refine fpReads_keeps (sub hw rfl) ?_
        exact h
      · refine mk3_keeps ?_
        exact h
    split
    · rename_i y12 y13 y14 e15
      have h16 : Keeps μ s0 y14 := by
        refine of3 e15 ?_
        refine ite3_keeps (fun _ => ?_) (fun _ => ?_)
        · refine fpReads_keeps (sub hw rfl) ?_
          exact h11
        · refine mk3_keeps ?_
          exact h11
      split
      · rename_i y17 y18 e19
        have h20 : Keeps μ s0 y18 := by
          refine of2 e19 ?_
          refine foldl2_keeps ?_ ?_
          · refine mk2_keeps ?_
            exact h16
          · intro x21 x22 h23
            refine ite2_keeps (fun _ => ?_) (fun _ => ?_)
            · exact h23
            · split
              · rename_i y24 y25 y26 y27 e28
                have h29 : Keeps μ s0 y27 := by
                  refine of3 e28 ?_
                  refine memRead_keeps (sub hw rfl) ?_
                  exact h23
                refine mk2_keeps ?_
                exact h29
              · rename_i y30 y31 y32 y33 y34 e35 e36
                have h37 : Keeps μ s0 y34 := by
                  refine of3 e36 ?_
                  refine memRead_keeps (sub hw rfl) ?_
                  exact h23
                refine mk2_keeps ?_
                exact h37
        extract_lets x38 x39 x40
        clear_value x38
        clear_value x39
        clear_value x40
        refine mk2_keeps ?_
        exact h20
      · rename_i y41 y42 y43 e44 e45
        have h46 : Keeps μ s0 y43 := by
          refine of2 e45 ?_
          refine foldl2_keeps ?_ ?_
          · refine mk2_keeps ?_
            exact h16
          · intro x47 x48 h49
            refine ite2_keeps (fun _ => ?_) (fun _ => ?_)
            · exact h49
            · split
              · rename_i y50 y51 y52 y53 e54
                have h55 : Keeps μ s0 y53 := by
                  refine of3 e54 ?_
                  refine memRead_keeps (sub hw rfl) ?_
                  exact h49
                refine mk2_keeps ?_
                exact h55
              · rename_i y56 y57 y58 y59 y60 e61 e62
                have h63 : Keeps μ s0 y60 := by
                  refine of3 e62 ?_
                  refine memRead_keeps (sub hw rfl) ?_
                  exact h49
                refine mk2_keeps ?_
                exact h63
        refine mk2_keeps ?_
        exact h46
    · rename_i y64 y65 y66 y67 e68 e69
      have h70 : Keeps μ s0 y67 := by
        refine of3 e69 ?_
        refine ite3_keeps (fun _ => ?_) (fun _ => ?_)
        · refine fpReads_keeps (sub hw rfl) ?_
          exact h11
        · refine mk3_keeps ?_
          exact h11
      refine mk2_keeps ?_
      exact h70
  · rename_i y71 y72 y73 y74 e75 e76
    have h77 : Keeps μ s0 y74 := by
      refine of3 e76 ?_
      refine ite3_keeps (fun _ => ?_) (fun _ => ?_)
      · refine fpReads_keeps (sub hw rfl) ?_
        exact h
      · refine mk3_keeps ?_
        exact h
    refine mk2_keeps ?_
    exact h77

theorem runCompress_keeps {s op v2} (hw : μ ||| 42949673280 = μ) (h : Keeps μ s0 s) : Keeps μ s0 (runCompress s op v2).2 := by
  unfold runCompress
  extract_lets x0 x1 x2 x3 x4 x5 x6 x7
  clear_value x0
  clear_value x1
  clear_value x2
  clear_value x3
  clear_value x4
  clear_value x5
  clear_value x6
  clear_value x7
  refine ite2_keeps (fun _ => ?_) (fun _ => ?_)
  · split
    · rename_i y8 y9 y10 y11 e12
      have h13 : Keeps μ s0 y11 := by
        refine of3 e12 ?_
        refine fpReads_keeps (sub hw rfl) ?_
        exact h
      extract_lets x14 x15 x16 x17
      clear_value x14
      clear_value x15
      clear_value x16
      clear_value x17
      refine mk2_keeps ?_
      exact h13
    · rename_i y18 y19 y20 y21 y22 e23 e24
      have h25 : Keeps μ s0 y22 := by
        refine of3 e24 ?_
        refine fpReads_keeps (sub hw rfl) ?_
        exact h
      refine mk2_keeps ?_
      exact h25
  · split
    · rename_i y26 y27 y28 y29 e30
      have h31 : Keeps μ s0 y29 := by
        refine of3 e30 ?_
        refine opReads_keeps (sub hw rfl) ?_
        exact h
      extract_lets x32
      clear_value x32
      refine mk2_keeps ?_
      exact h31
    · rename_i y33 y34 y35 y36 y37 e38 e39
      have h40 : Keeps μ s0 y37 := by
        refine of3 e39 ?_
        refine opReads_keeps (sub hw rfl) ?_
        exact h
      refine mk2_keeps ?_
      exact h40

theorem runSort_keeps {s op v2} (hw : μ ||| 42949673280 = μ) (h : Keeps μ s0 s) : Keeps μ s0 (runSort s op v2).2 := by
  unfold runSort
  extract_lets x0 x1 x2
  clear_value x0
  clear_value x1
  clear_value x2
  split
  · rename_i y3 y4 y5 e6
    have h7 : Keeps μ s0 y5 := by
      refine of3 e6 ?_
      refine opRead_keeps (sub hw rfl) ?_
      exact h
    split
    · rename_i y8 y9 y10 e11
      have h12 : Keeps μ s0 y10 := by
        refine of3 e11 ?_
        refine ite3_keeps (fun _ => ?_) (fun _ => ?_)
        · refine mk3_keeps ?_
          exact h7
        · refine opRead_keeps (sub hw rfl) ?_
          exact h7
      split
      · rename_i y13 y14 y15 e16
        have h17 : Keeps μ s0 y15 := by
          refine of3 e16 ?_
          refine ite3_keeps (fun _ => ?_) (fun _ => ?_)
          · refine mk3_keeps ?_
            exact h12
          · refine opRead_keeps (sub hw rfl) ?_
            exact h12
        extract_lets x18 x19 x20
        clear_value x18
        clear_value x19
        clear_value x20
        split
        · rename_i y21 e22
          refine mk2_keeps ?_
          exact h17
        · rename_i y23 y24 e25
          refine ite2_keeps (fun _ => ?_) (fun _ => ?_)
          · refine mk2_keeps ?_
            exact h17
          · extract_lets x26 x27 x28 x29 x30 x31
            clear_value x26
            clear_value x27
            clear_value x28
            clear_value x29
            clear_value x30
            clear_value x31
            refine mk2_keeps ?_
            exact h17
      · rename_i y32 y33 y34 y35 e36 e37
        have h38 : Keeps μ s0 y35 := by
          refine of3 e37 ?_
          refine ite3_keeps (fun _ => ?_) (fun _ => ?_)
          · refine mk3_keeps ?_
            exact h12
          · refine opRead_keeps (sub hw rfl) ?_
            exact h12
        refine mk2_keeps ?_
        exact h38
    · rename_i y39 y40 y41 y42 e43 e44
      have h45 : Keeps μ s0 y42 := by
        refine of3 e44 ?_
        refine ite3_keeps (fun _ => ?_) (fun _ => ?_)
        · refine mk3_keeps ?_
          exact h7
        · refine opRead_keeps (sub hw rfl) ?_
          exact h7
      refine mk2_keeps ?_
      exact h45
  · rename_i y46 y47 y48 y49 e50 e51
    have h52 : Keeps μ s0 y49 := by
      refine of3 e51 ?_
      refine opRead_keeps (sub hw rfl) ?_
      exact h
    refine mk2_keeps ?_
    exact h52

theorem vecB_keeps {s op v2 v} (hw : μ ||| 42949673280 = μ) (h : Keeps μ s0 s) : Keeps μ s0 (vecB s op v2 v).2.2 := by
  unfold vecB
  extract_lets x0
  clear_value x0
  refine ite3_keeps (fun _ => ?_) (fun _ => ?_)
  · refine mk3_keeps ?_
    exact h
  · refine ite3_keeps (fun _ => ?_) (fun _ => ?_)
    · split
      rename_i y1 y2 y3 y4 y5 y6 e7
      have h8 : Keeps μ s0 y6 := by
        refine of3 e7 ?_
        refine fpReads_keeps (sub hw rfl) ?_
        exact h
      refine mk3_keeps ?_
      exact h8
    · refine ite3_keeps (fun _ => ?_) (fun _ => ?_)
      · split
        rename_i y9 y10 y11 y12 y13 y14 y15 e16
        have h17 : Keeps μ s0 y15 := by
          refine of3 e16 ?_
          refine fpReads_keeps (sub hw rfl) ?_
          exact h
        refine mk3_keeps ?_
        exact h17
      · refine ite3_keeps (fun _ => ?_) (fun _ => ?_)
        · split
          rename_i y18 y19 y20 y21 y22 y23 y24 y25 e26
          have h27 : Keeps μ s0 y25 := by
            refine of3 e26 ?_
            refine fpReads_keeps (sub hw rfl) ?_
            exact h
          refine mk3_keeps ?_
          exact h27
        · split
          rename_i y28 y29 y30 y31 y32 y33 y34 y35 e36
          have h37 : Keeps μ s0 y35 := by
            refine of3 e36 ?_
            refine fpReads_keeps (sub hw rfl) ?_
            exact h
          refine mk3_keeps ?_
          exact h37

theorem runVector_keeps {s op v2} (hw : μ ||| 42949673280 = μ) (h : Keeps μ s0 s) : Keeps μ s0 (runVector s op v2).2 := by
  unfold runVector
  extract_lets x0 x1 x2
  clear_value x0
  clear_value x1
  clear_value x2
  split
  · rename_i y3 y4 y5 e6
    have h7 : Keeps μ s0 y5 := by
      refine of3 e6 ?_
      refine fpReads_keeps (sub hw rfl) ?_
      exact h
    split
    · rename_i y8 y9 y10 e11
      have h12 : Keeps μ s0 y10 := by
        refine of3 e11 ?_
        refine vecB_keeps (sub hw rfl) ?_
        exact h7
      split
      · rename_i y13 y14 y15 e16
        have h17 : Keeps μ s0 y15 := by
          refine of3 e16 ?_
          refine ite3_keeps (fun _ => ?_) (fun _ => ?_)
          · refine fpReads_keeps (sub hw rfl) ?_
            exact h12
          · refine mk3_keeps ?_
            exact h12
        extract_lets x18 x19 x20 x21 x22
        clear_value x18
        clear_value x19
        clear_value x20
        clear_value x21
        clear_value x22
        refine mk2_keeps ?_
        exact h17
      · rename_i y23 y24 y25 y26 e27 e28
        have h29 : Keeps μ s0 y26 := by
          refine of3 e28 ?_
          refine ite3_keeps (fun _ => ?_) (fun _ => ?_)
          · refine fpReads_keeps (sub hw rfl) ?_
            exact h12
          · refine mk3_keeps ?_
            exact h12
        refine mk2_keeps ?_
        exact h29
    · rename_i y30 y31 y32 y33 e34 e35
      have h36 : Keeps μ s0 y33 := by
        refine of3 e35 ?_
        refine vecB_keeps (sub hw rfl) ?_
        exact h7
      refine mk2_keeps ?_
      exact h36
  · rename_i y37 y38 y39 y40 e41 e42
    have h43 : Keeps μ s0 y40 := by
      refine of3 e42 ?_
      refine fpReads_keeps (sub hw rfl) ?_
      exact h
    refine mk2_keeps ?_
    exact h43

theorem runEngine_keeps {s op} (hw : μ ||| 42949673280 = μ) (h : Keeps μ s0 s) : Keeps μ s0 (runEngine s op).2 := by
  unfold runEngine
  extract_lets x0
  clear_value x0
  refine ite2_keeps (fun _ => ?_) (fun _ => ?_)
  · refine runTransform_keeps (sub hw rfl) ?_
    exact h
  · refine ite2_keeps (fun _ => ?_) (fun _ => ?_)
    · refine ite2_keeps (fun _ => ?_) (fun _ => ?_)
      · refine runSpectral_keeps (sub hw rfl) ?_
        exact h
      · refine ite2_keeps (fun _ => ?_) (fun _ => ?_)
        · refine runWindow_keeps (sub hw rfl) ?_
          exact h
        · refine runCompress_keeps (sub hw rfl) ?_
          exact h
    · refine ite2_keeps (fun _ => ?_) (fun _ => ?_)
      · refine runSort_keeps (sub hw rfl) ?_
        exact h
      · refine runVector_keeps (sub hw rfl) ?_
        exact h

theorem engCounts_keeps {s l} (h : Keeps μ s0 s) : Keeps μ s0 (engCounts s l) := by
  unfold engCounts
  refine foldl_intro (P := Keeps μ s0) ?_ ?_
  · exact h
  · intro x0 x1 h2
    refine ite_intro (P := Keeps μ s0) (fun _ => ?_) (fun _ => ?_)
    · refine bump_keeps ?_
      exact h2
    · refine bumpSat_keeps ?_
      exact h2

theorem engFinish_keeps {s op o} (hw : μ ||| 105597659775340 = μ) (h : Keeps μ s0 s) : Keeps μ s0 (engFinish s op o) := by
  unfold engFinish
  extract_lets x0 x1 x2
  clear_value x0
  clear_value x1
  have h3 : Keeps μ s0 (x2).2 := by
    unfold x2
    refine foldl2_keeps ?_ ?_
    · refine mk2_keeps ?_
      exact h
    · intro x4 x5 h6
      refine ite2_keeps (fun _ => ?_) (fun _ => ?_)
      · refine opWrite_keeps (sub hw rfl) ?_
        exact h6
      · exact h6
  clear_value x2
  split
  · rename_i y7 y8
    split
    · rename_i y9 y10 y11 e12
      have h13 : Keeps μ s0 y11 := by
        refine of3 e12 ?_
        refine inheritRuns_keeps (sub hw rfl) ?_
        exact h3
      split
      · rename_i y14 y15 e16
        have h17 : Keeps μ s0 y15 := by
          refine of2 e16 ?_
          refine writeTagBlock_keeps (sub hw rfl) ?_
          exact h13
        extract_lets x18 x19 x20
        have h21 : Keeps μ s0 x18 := by
          unfold x18
          refine engCounts_keeps ?_
          refine bump_keeps ?_
          exact h17
        clear_value x18
        have h22 : Keeps μ s0 x19 := by
          unfold x19
          refine ite_intro (P := Keeps μ s0) (fun _ => ?_) (fun _ => ?_)
          · exact h21
          · refine raise_keeps ?_
            exact h21
        clear_value x19
        have h23 : Keeps μ s0 x20 := by
          unfold x20
          refine updOp_keeps (sub hw rfl) ?_
          exact h22
        clear_value x20
        refine opDone_keeps (sub hw rfl) ?_
        exact h23
      · rename_i y24 y25 y26 e27 e28
        have h29 : Keeps μ s0 y26 := by
          refine of2 e28 ?_
          refine writeTagBlock_keeps (sub hw rfl) ?_
          exact h13
        refine engFail_keeps (sub hw rfl) ?_
        exact h29
    · rename_i y30 y31 y32 y33 e34 e35
      have h36 : Keeps μ s0 y33 := by
        refine of3 e35 ?_
        refine inheritRuns_keeps (sub hw rfl) ?_
        exact h3
      refine engFail_keeps (sub hw rfl) ?_
      exact h36
  · rename_i y37 y38 y39 e40
    refine engFail_keeps (sub hw rfl) ?_
    exact h3

theorem engineDone_keeps {s op loss fault} (hw : μ ||| 105601954742636 = μ) (h : Keeps μ s0 s) : Keeps μ s0 (engineDone s op loss fault) := by
  unfold engineDone
  extract_lets x0 x1 x2 x3
  clear_value x0
  clear_value x1
  have h4 : Keeps μ s0 x2 := by
    unfold x2
    refine loseBank_keeps (sub hw rfl) ?_
    exact h
  clear_value x2
  have h5 : Keeps μ s0 x3 := by
    unfold x3
    refine ite_intro (P := Keeps μ s0) (fun _ => ?_) (fun _ => ?_)
    · refine bumpSat_keeps ?_
      exact h4
    · exact h4
  clear_value x3
  refine ite_intro (P := Keeps μ s0) (fun _ => ?_) (fun _ => ?_)
  · refine engFail_keeps (sub hw rfl) ?_
    exact h4
  · split
    rename_i y6 y7 y8 y9 e10
    have h11 : Keeps μ s0 y9 := by
      refine of2 e10 ?_
      refine runEngine_keeps (sub hw rfl) ?_
      exact h5
    refine ite_intro (P := Keeps μ s0) (fun _ => ?_) (fun _ => ?_)
    · refine engFail_keeps (sub hw rfl) ?_
      exact h11
    · refine ite_intro (P := Keeps μ s0) (fun _ => ?_) (fun _ => ?_)
      · refine engFail_keeps (sub hw rfl) ?_
        refine wrF_keeps ?_
        exact h11
      · refine ite_intro (P := Keeps μ s0) (fun _ => ?_) (fun _ => ?_)
        · refine engFail_keeps (sub hw rfl) ?_
          exact h11
        · refine engFinish_keeps (sub hw rfl) ?_
          exact h11

theorem setScrub_keeps {s u x} (hw : μ ||| 128 = μ) (h : Keeps μ s0 s) : Keeps μ s0 (setScrub s u x) := by
  unfold setScrub
  refine upd_scrubs (sub hw rfl) ?_
  exact h

theorem rollGrant_keeps {s c r} (hw : μ ||| 16777216 = μ) (h : Keeps μ s0 s) : Keeps μ s0 (rollGrant s c r) := by
  unfold rollGrant
  extract_lets x0 x1
  clear_value x0
  clear_value x1
  split
  · rename_i y2 e3
    exact h
  · rename_i y4 y5 y6 e7
    refine ite_intro (P := Keeps μ s0) (fun _ => ?_) (fun _ => ?_)
    · extract_lets x8
      have h9 : Keeps μ s0 x8 := by
        unfold x8
        refine setRoll_keeps (sub hw rfl) ?_
        exact h
      clear_value x8
      refine wr_keeps ?_
      exact h9
    · exact h

/-- The state that a taken command leaves. -/
def takenState : SeqTake → State
  | .cmd _ s => s
  | .stop s => s

theorem seqTake_keeps {s src op} (hw : μ ||| 105596586033516 = μ) (h : Keeps μ s0 s) : Keeps μ s0 (takenState (seqTake s src op)) := by
  unfold seqTake
  refine ite_intro (P := fun z => Keeps μ s0 (takenState z)) (fun _ => h) (fun _ => ?_)
  split
  · split
    · exact h
    · split
      · exact h
      · refine ite_intro (P := fun z => Keeps μ s0 (takenState z)) (fun _ => h) (fun _ => ?_)
        split
        · rename_i b s1 e
          have h1 : Keeps μ s0 s1 := of3 e (memRead_keeps (sub hw rfl) h)
          extract_lets o s2
          refine ite_intro (P := fun z => Keeps μ s0 (takenState z)) (fun _ => h) (fun _ => ?_)
          exact upd_keeps (updJob_keeps (sub hw rfl) h1)
        · rename_i b s1 x e
          exact failExec_keeps (sub hw rfl) (of3 e (memRead_keeps (sub hw rfl) h))
  · split
    · exact h
    · rename_i p s1 e
      have h1 : Keeps μ s0 s1 := ofSome2 e (takePod_keeps (sub hw rfl) h)
      extract_lets b
      refine ite_intro (P := fun z => Keeps μ s0 (takenState z)) (fun _ => podComplete_keeps (sub hw rfl) h1) (fun _ => ?_)
      exact upd_keeps h1

theorem sliceHolds_keeps {s c} (hw : μ ||| 36028797018963968 = μ) (h : Keeps μ s0 s) : Keeps μ s0 (sliceHolds s c) := by
  unfold sliceHolds
  refine ite_intro (P := Keeps μ s0) (fun _ => ?_) (fun _ => ?_)
  · exact h
  · extract_lets x0 x1
    have h2 : Keeps μ s0 x0 := by
      unfold x0
      refine bumpSat_keeps ?_
      exact h
    clear_value x0
    clear_value x1
    refine upd_bist (sub hw rfl) ?_
    exact h2

theorem readEntry_keeps {s i} (hw : μ ||| 42949673280 = μ) (h : Keeps μ s0 s) : Keeps μ s0 (readEntry s i).2 := by
  unfold readEntry
  split
  · rename_i y0 y1 y2 e3
    have h4 : Keeps μ s0 y2 := by
      refine of3 e3 ?_
      refine memRead_keeps (sub hw rfl) ?_
      exact h
    refine ite2_keeps (fun _ => ?_) (fun _ => ?_)
    · refine mk2_keeps ?_
      exact h4
    · refine mk2_keeps ?_
      exact h4
  · rename_i y5 y6 y7 y8 e9 e10
    have h11 : Keeps μ s0 y8 := by
      refine of3 e10 ?_
      refine memRead_keeps (sub hw rfl) ?_
      exact h
    refine mk2_keeps ?_
    exact h11

theorem slotOfPos_keeps {s e pos} (hw : μ ||| 42949673280 = μ) (h : Keeps μ s0 s) : Keeps μ s0 (slotOfPos s e pos).2 := by
  unfold slotOfPos
  split
  · rename_i y0 y1 y2 e3
    have h4 : Keeps μ s0 y2 := by
      refine of2 e3 ?_
      refine readSlot_keeps (sub hw rfl) ?_
      exact h
    refine mk2_keeps ?_
    exact h4
  · rename_i y5 y6 y7 e8
    have h9 : Keeps μ s0 y7 := by
      refine of2 e8 ?_
      refine readSlot_keeps (sub hw rfl) ?_
      exact h
    refine mk2_keeps ?_
    exact h9

theorem restoreOrder_keeps {s f e} (hw : μ ||| 42949673280 = μ) (h : Keeps μ s0 s) : Keeps μ s0 (restoreOrder s f e).2 := by
  unfold restoreOrder
  refine ite2_keeps (fun _ => ?_) (fun _ => ?_)
  · refine mk2_keeps ?_
    exact h
  · split
    · rename_i y0 y1 y2 y3 e4
      have h5 : Keeps μ s0 y3 := by
        refine of2 e4 ?_
        refine slotOfPos_keeps (sub hw rfl) ?_
        exact h
      refine mk2_keeps ?_
      exact h5
    · rename_i y6 y7 y8 e9
      have h10 : Keeps μ s0 y8 := by
        refine of2 e9 ?_
        refine slotOfPos_keeps (sub hw rfl) ?_
        exact h
      refine mk2_keeps ?_
      exact h10
    · rename_i y11 y12 y13 y14 e15
      have h16 : Keeps μ s0 y14 := by
        refine of2 e15 ?_
        refine slotOfPos_keeps (sub hw rfl) ?_
        exact h
      extract_lets x17
      clear_value x17
      refine ite2_keeps (fun _ => ?_) (fun _ => ?_)
      · refine mk2_keeps ?_
        exact h16
      · refine ite2_keeps (fun _ => ?_) (fun _ => ?_)
        · refine mk2_keeps ?_
          exact h16
        · refine mk2_keeps ?_
          exact h16

theorem seqOrder_keeps {s f e} (hw : μ ||| 42949673280 = μ) (h : Keeps μ s0 s) : Keeps μ s0 (seqOrder s f e).2 := by
  unfold seqOrder
  refine ite2_keeps (fun _ => ?_) (fun _ => ?_)
  · refine mk2_keeps ?_
    exact h
  · refine ite2_keeps (fun _ => ?_) (fun _ => ?_)
    · refine restoreOrder_keeps (sub hw rfl) ?_
      exact h
    · refine mk2_keeps ?_
      exact h

theorem seqSource_keeps {s f e cls echo} (hw : μ ||| 42949673280 = μ) (h : Keeps μ s0 s) : Keeps μ s0 (seqSource s f e cls echo).2 := by
  unfold seqSource
  split
  · rename_i y0 y1 e2
    have h3 : Keeps μ s0 y1 := by
      refine of2 e2 ?_
      refine seqOrder_keeps (sub hw rfl) ?_
      exact h
    refine ite2_keeps (fun _ => ?_) (fun _ => ?_)
    · split
      rename_i y4 y5 y6 y7 y8 e9
      have h10 : Keeps μ s0 y8 := by
        refine of3 e9 ?_
        refine checkInputs_keeps (sub hw rfl) ?_
        exact h3
      refine mk2_keeps ?_
      exact h10
    · refine mk2_keeps ?_
      exact h3
  · rename_i y11 e12
    refine seqOrder_keeps (sub hw rfl) ?_
    exact h

theorem seqValidate_keeps {s b cls echo host} (hw : μ ||| 42949673280 = μ) (h : Keeps μ s0 s) : Keeps μ s0 (seqValidate s b cls echo host).2.2 := by
  unfold seqValidate
  extract_lets x0 x1
  clear_value x0
  clear_value x1
  refine ite3_keeps (fun _ => ?_) (fun _ => ?_)
  · refine mk3_keeps ?_
    exact h
  · refine ite3_keeps (fun _ => ?_) (fun _ => ?_)
    · refine mk3_keeps ?_
      exact h
    · split
      · rename_i y2 y3 y4 y5 y6 e7
        have h8 : Keeps μ s0 y6 := by
          refine of2 e7 ?_
          refine readEntry_keeps (sub hw rfl) ?_
          exact h
        refine mk3_keeps ?_
        exact h8
      · rename_i y9 y10 y11 y12 y13 e14
        have h15 : Keeps μ s0 y13 := by
          refine of2 e14 ?_
          refine readEntry_keeps (sub hw rfl) ?_
          exact h
        refine ite3_keeps (fun _ => ?_) (fun _ => ?_)
        · refine mk3_keeps ?_
          exact h15
        · refine ite3_keeps (fun _ => ?_) (fun _ => ?_)
          · refine mk3_keeps ?_
            exact h15
          · extract_lets x16
            clear_value x16
            refine ite3_keeps (fun _ => ?_) (fun _ => ?_)
            · refine mk3_keeps ?_
              exact h15
            · refine ite3_keeps (fun _ => ?_) (fun _ => ?_)
              · refine mk3_keeps ?_
                exact h15
              · refine ite3_keeps (fun _ => ?_) (fun _ => ?_)
                · refine mk3_keeps ?_
                  exact h15
                · split
                  · rename_i y17 y18 y19 y20 y21 y22 y23 e24
                    have h25 : Keeps μ s0 y23 := by
                      refine of2 e24 ?_
                      refine seqSource_keeps (sub hw rfl) ?_
                      exact h15
                    refine mk3_keeps ?_
                    exact h25
                  · rename_i y26 y27 y28 y29 y30 y31 y32 y33 e34 e35
                    have h36 : Keeps μ s0 y33 := by
                      refine of2 e35 ?_
                      refine seqSource_keeps (sub hw rfl) ?_
                      exact h15
                    refine mk3_keeps ?_
                    exact h36

theorem seqDone_keeps {s c} (hw : μ ||| 70369180385548 = μ) (h : Keeps μ s0 s) : Keeps μ s0 (seqDone s c) := by
  unfold seqDone
  extract_lets x0 x1
  clear_value x0
  have h2 : Keeps μ s0 x1 := by
    unfold x1
    refine bump_keeps ?_
    refine seqRegs_keeps (sub hw rfl) ?_
    refine setSeq_keeps (sub hw rfl) ?_
    exact h
  clear_value x1
  split
  · rename_i y3 y4 y5 y6 y7 e8
    extract_lets x9
    have h10 : Keeps μ s0 x9 := by
      unfold x9
      refine jobFlags_keeps (sub hw rfl) ?_
      exact h2
    clear_value x9
    refine descDone_keeps (sub hw rfl) ?_
    refine ite_intro (P := Keeps μ s0) (fun _ => ?_) (fun _ => ?_)
    · refine pegInc_keeps (sub hw rfl) ?_
      exact h10
    · exact h10
  · rename_i y11 y12 e13
    refine podComplete_keeps (sub hw rfl) ?_
    refine pegInc_keeps (sub hw rfl) ?_
    exact h2

theorem seqFailFlags_keeps {s st injected} (h : Keeps μ s0 s) : Keeps μ s0 (seqFailFlags s st injected) := by
  unfold seqFailFlags
  extract_lets x0
  have h1 : Keeps μ s0 x0 := by
    unfold x0
    refine ite_intro (P := Keeps μ s0) (fun _ => ?_) (fun _ => ?_)
    · refine raise_keeps ?_
      exact h
    · exact h
  clear_value x0
  refine ite_intro (P := Keeps μ s0) (fun _ => ?_) (fun _ => ?_)
  · refine raise_keeps ?_
    refine bumpSat_keeps ?_
    exact h1
  · refine ite_intro (P := Keeps μ s0) (fun _ => ?_) (fun _ => ?_)
    · refine raise_keeps ?_
      refine bumpSat_keeps ?_
      exact h1
    · refine ite_intro (P := Keeps μ s0) (fun _ => ?_) (fun _ => ?_)
      · refine raise_keeps ?_
        exact h1
      · exact h1

theorem seqFail_keeps {s c st injected} (hw : μ ||| 105596586033516 = μ) (h : Keeps μ s0 s) : Keeps μ s0 (seqFail s c st injected) := by
  unfold seqFail
  extract_lets x0 x1 x2 x3
  have h4 : Keeps μ s0 x0 := by
    unfold x0
    refine seqFailFlags_keeps ?_
    refine seqNoteFail_keeps (sub hw rfl) ?_
    exact h
  clear_value x0
  clear_value x1
  have h5 : Keeps μ s0 x2 := by
    unfold x2
    refine ite_intro (P := Keeps μ s0) (fun _ => ?_) (fun _ => ?_)
    · refine report_keeps (sub hw rfl) ?_
      exact h4
    · exact h4
  clear_value x2
  have h6 : Keeps μ s0 x3 := by
    unfold x3
    refine seqDrop_keeps (sub hw rfl) ?_
    exact h5
  clear_value x3
  refine ite_intro (P := Keeps μ s0) (fun _ => ?_) (fun _ => ?_)
  · refine setSeq_keeps (sub hw rfl) ?_
    exact h6
  · split
    · rename_i y7 y8 y9 y10 y11 y12 e13
      refine failExec_keeps (sub hw rfl) ?_
      exact h6
    · rename_i y14 y15 y16 e17
      refine podComplete_keeps (sub hw rfl) ?_
      exact h6

theorem seqRun_keeps {s c act} (hw : μ ||| 105596586033516 = μ) (h : Keeps μ s0 s) (hf3 : ∀ a0 a1 a2 a3, Keeps μ s0 a0 → Keeps μ s0 (act a0 a1 a2 a3)) : Keeps μ s0 (seqRun s c act) := by
  unfold seqRun
  split
  · rename_i y0 y1 y2 e3
    have h4 : Keeps μ s0 y2 := by
      refine of3 e3 ?_
      refine seqValidate_keeps (sub hw rfl) ?_
      exact h
    refine hf3 _ _ _ _ ?_
    exact h4
  · rename_i y5 y6 y7 y8 e9 e10
    have h11 : Keeps μ s0 y8 := by
      refine of3 e10 ?_
      refine seqValidate_keeps (sub hw rfl) ?_
      exact h
    refine ite_intro (P := Keeps μ s0) (fun _ => ?_) (fun _ => ?_)
    · refine seqDone_keeps (sub hw rfl) ?_
      exact h11
    · refine seqFail_keeps (sub hw rfl) ?_
      exact h11

theorem seqCommand_keeps {s src op waits act} (hw : μ ||| 36134393604997484 = μ) (h : Keeps μ s0 s)
    (hf : ∀ a0 a1 a2 a3, Keeps μ s0 a0 → Keeps μ s0 (act a0 a1 a2 a3)) : Keeps μ s0 (seqCommand s src op waits act) := by
  unfold seqCommand
  have h1 : Keeps μ s0 (takenState (seqTake s src op)) := seqTake_keeps (sub hw rfl) h
  split
  · rename_i s1 e
    rw [e] at h1
    exact h1
  · rename_i c s1 e
    rw [e] at h1
    exact ite_intro (P := Keeps μ s0) (fun _ => sliceHolds_keeps (sub hw rfl) h)
      (fun _ => ite_intro (P := Keeps μ s0) (fun _ => h) (fun _ => seqRun_keeps (sub hw rfl) h1 hf))

theorem readSlots_keeps {s e} (hw : μ ||| 42949673280 = μ) (h : Keeps μ s0 s) : Keeps μ s0 (readSlots s e).2 := by
  unfold readSlots
  refine foldl2_keeps ?_ ?_
  · refine mk2_keeps ?_
    exact h
  · intro x0 x1 h2
    split
    · rename_i y3 y4 y5
      split
      · rename_i y6 y7 y8 e9
        have h10 : Keeps μ s0 y8 := by
          refine of2 e9 ?_
          refine readSlot_keeps (sub hw rfl) ?_
          exact h2
        refine mk2_keeps ?_
        exact h10
      · rename_i y11 y12 y13 e14
        have h15 : Keeps μ s0 y13 := by
          refine of2 e14 ?_
          refine readSlot_keeps (sub hw rfl) ?_
          exact h2
        refine mk2_keeps ?_
        exact h15
    · rename_i y16 y17 y18
      refine mk2_keeps ?_
      exact h2

theorem droppable_keeps {s v1} (hw : μ ||| 42949673280 = μ) (h : Keeps μ s0 s) : Keeps μ s0 (droppable s v1).2 := by
  induction v1 generalizing s
  · unfold droppable
    refine mk2_keeps ?_
    exact h
  · rename_i y29 y30 y31
    unfold droppable
    split
    · rename_i y32 y33 y34 e35
      have h36 : Keeps μ s0 y34 := by
        refine of2 e35 ?_
        refine readEntry_keeps (sub hw rfl) ?_
        exact h
      refine mk2_keeps ?_
      exact h36
    · rename_i y37 y38 y39 e40
      have h41 : Keeps μ s0 y39 := by
        refine of2 e40 ?_
        refine readEntry_keeps (sub hw rfl) ?_
        exact h
      split
      · rename_i y42 y43 y44 e45
        have h46 : Keeps μ s0 y44 := by
          refine of2 e45 ?_
          refine readSlots_keeps (sub hw rfl) ?_
          exact h41
        refine mk2_keeps ?_
        exact h46
      · rename_i y47 y48 y49 e50
        have h51 : Keeps μ s0 y49 := by
          refine of2 e50 ?_
          refine readSlots_keeps (sub hw rfl) ?_
          exact h41
        split
        · rename_i y52 y53 y54 e55
          have h56 : Keeps μ s0 y54 := by
            refine of2 e55 ?_
            refine y31 ?_
            exact h51
          refine mk2_keeps ?_
          exact h56
        · rename_i y57 y58 y59 e60
          have h61 : Keeps μ s0 y59 := by
            refine of2 e60 ?_
            refine y31 ?_
            exact h51
          refine mk2_keeps ?_
          exact h61

theorem writeEntry_keeps {s i e} (hw : μ ||| 35227321762144 = μ) (h : Keeps μ s0 s) : Keeps μ s0 (writeEntry s i e) := by
  unfold writeEntry
  refine memWrite_keeps (sub hw rfl) ?_
  exact h

theorem dropBlock_keeps {s x} (hw : μ ||| 35227355316576 = μ) (h : Keeps μ s0 s) : Keeps μ s0 (dropBlock s x) := by
  unfold dropBlock
  extract_lets x0 x1 x2 x3 x4
  clear_value x0
  have h5 : Keeps μ s0 x1 := by
    unfold x1
    refine freePages_keeps (sub hw rfl) ?_
    exact h
  clear_value x1
  clear_value x2
  have h6 : Keeps μ s0 x3 := by
    unfold x3
    refine writeSlot_keeps (sub hw rfl) ?_
    exact h5
  clear_value x3
  have h7 : Keeps μ s0 x4 := by
    unfold x4
    refine writeEntry_keeps (sub hw rfl) ?_
    exact h6
  clear_value x4
  refine raise_keeps ?_
  refine bump_keeps ?_
  exact h7

theorem makeRoom_keeps {s n cls frame} (hw : μ ||| 35227355316576 = μ) (h : Keeps μ s0 s) : Keeps μ s0 (makeRoom s n cls frame).2 := by
  unfold makeRoom
  refine ite2_keeps (fun _ => ?_) (fun _ => ?_)
  · refine mk2_keeps ?_
    exact h
  · refine ite2_keeps (fun _ => ?_) (fun _ => ?_)
    · refine mk2_keeps ?_
      exact h
    · refine ite2_keeps (fun _ => ?_) (fun _ => ?_)
      · refine mk2_keeps ?_
        exact h
      · split
        · rename_i y0 y1 y2 y3 y4 y5 e6
          have h7 : Keeps μ s0 y5 := by
            refine of2 e6 ?_
            refine droppable_keeps (sub hw rfl) ?_
            exact h
          refine mk2_keeps ?_
          exact h7
        · rename_i y8 y9 y10 y11 y12 y13 e14
          have h15 : Keeps μ s0 y13 := by
            refine of2 e14 ?_
            refine droppable_keeps (sub hw rfl) ?_
            exact h
          split
          · rename_i y16 e17
            refine mk2_keeps ?_
            exact h15
          · rename_i y18 y19 e20
            refine mk2_keeps ?_
            refine foldl_intro (P := Keeps μ s0) ?_ ?_
            · exact h15
            · intro x21 x22 h23
              refine dropBlock_keeps (sub hw rfl) ?_
              exact h23

theorem pickPages_keeps {v0 v1 v2} (hw : μ ||| 33554432 = μ) (h : Keeps μ s0 v1) : Keeps μ s0 (pickPages v0 v1 v2).2 := by
  induction v0 generalizing v1 v2
  · unfold pickPages
    refine mk2_keeps ?_
    exact h
  · rename_i y24 y25
    unfold pickPages
    split
    rename_i y26 y27 y28 e29
    have h30 : Keeps μ s0 y28 := by
      refine of2 e29 ?_
      refine drawFree_keeps ?_
      exact h
    extract_lets x31 x32
    clear_value x31
    clear_value x32
    split
    · rename_i y33 e34
      refine mk2_keeps ?_
      exact h30
    · rename_i y35 y36 e37
      split
      rename_i y38 y39 y40 e41
      have h42 : Keeps μ s0 y40 := by
        refine of2 e41 ?_
        refine y25 ?_
        refine setSeq_keeps (sub hw rfl) ?_
        exact h30
      refine mk2_keeps ?_
      exact h42

theorem allocPages_keeps {s n shareS} (hw : μ ||| 33554432 = μ) (h : Keeps μ s0 s) : Keeps μ s0 (allocPages s n shareS).2 := by
  unfold allocPages
  split
  rename_i y0 y1 y2 e3
  have h4 : Keeps μ s0 y2 := by
    refine of2 e3 ?_
    refine pickPages_keeps (sub hw rfl) ?_
    exact h
  refine mk2_keeps ?_
  refine poolRegs_keeps ?_
  exact h4

theorem countContexts_keeps {s d} (h : Keeps μ s0 s) : Keeps μ s0 (countContexts s d) := by
  unfold countContexts
  refine wr_keeps ?_
  exact h

theorem seqOpenAct_keeps {s c f e} (hw : μ ||| 105596586033516 = μ) (h : Keeps μ s0 s) : Keeps μ s0 (seqOpenAct s c f e) := by
  unfold seqOpenAct
  extract_lets x0
  clear_value x0
  split
  · rename_i y1 y2 e3
    have h4 : Keeps μ s0 y2 := by
      refine of2 e3 ?_
      refine makeRoom_keeps (sub hw rfl) ?_
      exact h
    split
    rename_i y5 y6 y7 e8
    have h9 : Keeps μ s0 y7 := by
      refine of2 e8 ?_
      refine allocPages_keeps (sub hw rfl) ?_
      exact h4
    extract_lets x10 x11 x12 x13 x14
    have h15 : Keeps μ s0 x10 := by
      unfold x10
      refine foldl_intro (P := Keeps μ s0) ?_ ?_
      · exact h9
      · intro x16 x17 h18
        refine memWrite_keeps (sub hw rfl) ?_
        exact h18
    clear_value x10
    have h19 : Keeps μ s0 x11 := by
      unfold x11
      refine ite_intro (P := Keeps μ s0) (fun _ => ?_) (fun _ => ?_)
      · refine poolRegs_keeps ?_
        refine setSeq_keeps (sub hw rfl) ?_
        exact h15
      · exact h15
    clear_value x11
    clear_value x12
    have h20 : Keeps μ s0 x13 := by
      unfold x13
      refine writeEntry_keeps (sub hw rfl) ?_
      exact h19
    clear_value x13
    have h21 : Keeps μ s0 x14 := by
      unfold x14
      refine ite_intro (P := Keeps μ s0) (fun _ => ?_) (fun _ => ?_)
      · refine setSeq_keeps (sub hw rfl) ?_
        exact h20
      · exact h20
    clear_value x14
    refine seqDone_keeps (sub hw rfl) ?_
    refine countContexts_keeps ?_
    exact h21
  · rename_i y22 y23 y24 e25 e26
    have h27 : Keeps μ s0 y24 := by
      refine of2 e26 ?_
      refine makeRoom_keeps (sub hw rfl) ?_
      exact h
    refine seqFail_keeps (sub hw rfl) ?_
    exact h27

theorem seqAccept_keeps {s c} (hw : μ ||| 301989888 = μ) (h : Keeps μ s0 s) : Keeps μ s0 (seqAccept s c) := by
  unfold seqAccept
  refine seqRegs_keeps (sub hw rfl) ?_
  refine setSeq_keeps (sub hw rfl) ?_
  exact h

theorem seqCloseAct_keeps {s c f e} (hw : μ ||| 35227623752032 = μ) (h : Keeps μ s0 s) : Keeps μ s0 (seqCloseAct s c f e) := by
  unfold seqCloseAct
  refine seqAccept_keeps (sub hw rfl) ?_
  refine writeEntry_keeps (sub hw rfl) ?_
  exact h

theorem appendLayer_keeps {s c f e} (hw : μ ||| 105596586033516 = μ) (h : Keeps μ s0 s) : Keeps μ s0 (appendLayer s c f e) := by
  unfold appendLayer
  split
  · rename_i y0 e1
    exact h
  · rename_i y2 y3 e4
    split
    · rename_i y5 y6 e7
      have h8 : Keeps μ s0 y6 := by
        refine of2 e7 ?_
        refine makeRoom_keeps (sub hw rfl) ?_
        exact h
      split
      rename_i y9 y10 y11 e12
      have h13 : Keeps μ s0 y11 := by
        refine of2 e12 ?_
        refine allocPages_keeps (sub hw rfl) ?_
        exact h8
      extract_lets x14 x15
      clear_value x14
      have h16 : Keeps μ s0 x15 := by
        unfold x15
        refine setSeq_keeps (sub hw rfl) ?_
        exact h13
      clear_value x15
      refine seqAccept_keeps (sub hw rfl) ?_
      exact h16
    · rename_i y17 y18 y19 e20 e21
      have h22 : Keeps μ s0 y19 := by
        refine of2 e21 ?_
        refine makeRoom_keeps (sub hw rfl) ?_
        exact h
      refine seqFail_keeps (sub hw rfl) ?_
      refine discardGroup_keeps (sub hw rfl) ?_
      exact h22

theorem evictBlock_keeps {ctx s b} (hw : μ ||| 35227355316576 = μ) (h : Keeps μ s0 s) : Keeps μ s0 (evictBlock ctx s b) := by
  unfold evictBlock
  extract_lets x0 x1 x2 x3
  clear_value x0
  have h4 : Keeps μ s0 x1 := by
    unfold x1
    refine freePages_keeps (sub hw rfl) ?_
    exact h
  clear_value x1
  have h5 : Keeps μ s0 x2 := by
    unfold x2
    refine writeSlot_keeps (sub hw rfl) ?_
    exact h4
  clear_value x2
  have h6 : Keeps μ s0 x3 := by
    unfold x3
    refine writeEntry_keeps (sub hw rfl) ?_
    exact h5
  clear_value x3
  refine bump_keeps ?_
  exact h6

theorem openGroup_keeps {s c f ev} (hw : μ ||| 35227355316576 = μ) (h : Keeps μ s0 s) : Keeps μ s0 (openGroup s c f ev) := by
  unfold openGroup
  extract_lets x0 x1 x2 x3 x4 x5
  have h6 : Keeps μ s0 x0 := by
    unfold x0
    refine foldl_intro (P := Keeps μ s0) ?_ ?_
    · exact h
    · intro x7 x8 h9
      refine evictBlock_keeps (sub hw rfl) ?_
      exact h9
  clear_value x0
  clear_value x1
  clear_value x2
  have h10 : Keeps μ s0 x3 := by
    unfold x3
    refine foldl_intro (P := Keeps μ s0) ?_ ?_
    · exact h6
    · intro x11 x12 h13
      split
      · rename_i y14 y15 y16 e17
        have h18 : Keeps μ s0 y16 := by
          refine of2 e17 ?_
          refine readSlot_keeps (sub hw rfl) ?_
          exact h13
        refine ite_intro (P := Keeps μ s0) (fun _ => ?_) (fun _ => ?_)
        · exact h18
        · refine writeSlot_keeps (sub hw rfl) ?_
          exact h18
      · rename_i y19 y20 y21 e22
        have h23 : Keeps μ s0 y21 := by
          refine of2 e22 ?_
          refine readSlot_keeps (sub hw rfl) ?_
          exact h13
        exact h23
  clear_value x3
  clear_value x4
  clear_value x5
  refine setSeq_keeps (sub hw rfl) ?_
  exact h10

theorem seqAppendAct_keeps {s c f e} (hw : μ ||| 105596586033516 = μ) (h : Keeps μ s0 s) : Keeps μ s0 (seqAppendAct s c f e) := by
  unfold seqAppendAct
  refine ite_intro (P := Keeps μ s0) (fun _ => ?_) (fun _ => ?_)
  · refine appendLayer_keeps (sub hw rfl) ?_
    exact h
  · refine ite_intro (P := Keeps μ s0) (fun _ => ?_) (fun _ => ?_)
    · refine seqFail_keeps (sub hw rfl) ?_
      exact h
    · split
      · rename_i y0 y1 y2 y3 y4 e5
        have h6 : Keeps μ s0 y4 := by
          refine of2 e5 ?_
          refine readSlots_keeps (sub hw rfl) ?_
          exact h
        refine seqFail_keeps (sub hw rfl) ?_
        exact h6
      · rename_i y7 y8 y9 y10 y11 e12
        have h13 : Keeps μ s0 y11 := by
          refine of2 e12 ?_
          refine readSlots_keeps (sub hw rfl) ?_
          exact h
        extract_lets x14
        clear_value x14
        split
        · rename_i y15 y16 e17
          refine seqFail_keeps (sub hw rfl) ?_
          refine foldl_intro (P := Keeps μ s0) ?_ ?_
          · exact h13
          · intro x18 x19 h20
            refine evictBlock_keeps (sub hw rfl) ?_
            exact h20
        · rename_i y21 e22
          exact h13
        · rename_i y23 y24 e25
          refine appendLayer_keeps (sub hw rfl) ?_
          refine openGroup_keeps (sub hw rfl) ?_
          exact h13

theorem updCmd_keeps {s id f} (hw : μ ||| 33554432 = μ) (h : Keeps μ s0 s) : Keeps μ s0 (updCmd s id f) := by
  unfold updCmd
  refine setSeq_keeps (sub hw rfl) ?_
  exact h

theorem askRecompute_keeps {f e s x} (hw : μ ||| 33554432 = μ) (h : Keeps μ s0 s) : Keeps μ s0 (askRecompute f e s x) := by
  unfold askRecompute
  refine ite_intro (P := Keeps μ s0) (fun _ => ?_) (fun _ => ?_)
  · extract_lets x0 x1
    clear_value x0
    clear_value x1
    refine setSeq_keeps (sub hw rfl) ?_
    exact h
  · exact h

theorem stageProceed_keeps {s c} (hw : μ ||| 301989888 = μ) (h : Keeps μ s0 s) : Keeps μ s0 (stageProceed s c) := by
  unfold stageProceed
  extract_lets x0 x1 x2 x3 x4 x5
  clear_value x0
  clear_value x1
  clear_value x2
  clear_value x3
  have h6 : Keeps μ s0 x4 := by
    unfold x4
    refine viewRegs_keeps ?_
    refine setSeq_keeps (sub hw rfl) ?_
    exact h
  clear_value x4
  have h7 : Keeps μ s0 x5 := by
    unfold x5
    refine updCmd_keeps (sub hw rfl) ?_
    exact h6
  clear_value x5
  refine seqRegs_keeps (sub hw rfl) ?_
  refine foldl_intro (P := Keeps μ s0) ?_ ?_
  · exact h7
  · intro x8 x9 h10
    refine askRecompute_keeps (sub hw rfl) ?_
    exact h10

theorem seqStageAct_keeps {s c f e} (hw : μ ||| 105596586033516 = μ) (h : Keeps μ s0 s) : Keeps μ s0 (seqStageAct s c f e) := by
  unfold seqStageAct
  refine ite_intro (P := Keeps μ s0) (fun _ => ?_) (fun _ => ?_)
  · refine seqFail_keeps (sub hw rfl) ?_
    exact h
  · split
    · rename_i y0 y1 y2 y3 e4
      have h5 : Keeps μ s0 y3 := by
        refine of2 e4 ?_
        refine readSlots_keeps (sub hw rfl) ?_
        exact h
      refine seqFail_keeps (sub hw rfl) ?_
      exact h5
    · rename_i y6 y7 y8 y9 e10
      have h11 : Keeps μ s0 y9 := by
        refine of2 e10 ?_
        refine readSlots_keeps (sub hw rfl) ?_
        exact h
      extract_lets x12 x13 x14 x15
      clear_value x12
      have h16 : Keeps μ s0 x13 := by
        unfold x13
        refine ite_intro (P := Keeps μ s0) (fun _ => ?_) (fun _ => ?_)
        · refine setSeq_keeps (sub hw rfl) ?_
          refine mapWrite_keeps (sub hw rfl) ?_
          exact h11
        · exact h11
      clear_value x13
      clear_value x14
      have h17 : Keeps μ s0 x15 := by
        unfold x15
        split
        · rename_i y18 y19 y20 y21 y22 e23
          refine dropViews_keeps (sub hw rfl) ?_
          exact h16
        · rename_i y24 y25 e26
          exact h16
      clear_value x15
      refine ite_intro (P := Keeps μ s0) (fun _ => ?_) (fun _ => ?_)
      · refine seqFail_keeps (sub hw rfl) ?_
        exact h11
      · refine ite_intro (P := Keeps μ s0) (fun _ => ?_) (fun _ => ?_)
        · refine seqAccept_keeps (sub hw rfl) ?_
          exact h17
        · refine stageProceed_keeps (sub hw rfl) ?_
          refine seqAccept_keeps (sub hw rfl) ?_
          exact h17

theorem seqMismatch_keeps {s mismatch} (h : Keeps μ s0 s) : Keeps μ s0 (seqMismatch s mismatch).2 := by
  unfold seqMismatch
  refine ite2_keeps (fun _ => ?_) (fun _ => ?_)
  · refine mk2_keeps ?_
    refine wrF_keeps ?_
    exact h
  · refine mk2_keeps ?_
    exact h

theorem stageCopy_keeps {s c f e used} (hw : μ ||| 105596586033516 = μ) (h : Keeps μ s0 s) :
    Keeps μ s0 (stageCopy s c f e used).2 := by
  unfold stageCopy
  refine foldl2_keeps ?_ ?_
  · refine mk2_keeps ?_
    exact h
  · intro x20 x21 h22
    refine foldl2_keeps ?_ ?_
    · exact h22
    · intro x23 x24 h25
      refine ite2_keeps (fun _ => ?_) (fun _ => ?_)
      · exact h25
      · split
        rename_i y28 y29 y31 e32
        have h33 : Keeps μ s0 y31 := by
          refine of3 e32 ?_
          refine memRead_keeps (sub hw rfl) ?_
          exact h25
        refine mk2_keeps ?_
        exact h33

theorem seqStageEnd_keeps {s c mismatch} (hw : μ ||| 105596586033516 = μ) (h : Keeps μ s0 s) : Keeps μ s0 (seqStageEnd s c mismatch) := by
  unfold seqStageEnd
  extract_lets x0 x1 x2 x3 x4 x5
  clear_value x0
  clear_value x1
  clear_value x2
  clear_value x3
  clear_value x4
  clear_value x5
  split
  · rename_i y6 y7 y8 e9
    have h10 : Keeps μ s0 y8 := by
      refine of2 e9 ?_
      refine readEntry_keeps (sub hw rfl) ?_
      exact h
    refine seqFail_keeps (sub hw rfl) ?_
    exact h10
  · rename_i y11 y12 y13 e14
    have h15 : Keeps μ s0 y13 := by
      refine of2 e14 ?_
      refine readEntry_keeps (sub hw rfl) ?_
      exact h
    refine ite_intro (P := Keeps μ s0) (fun _ => ?_) (fun _ => ?_)
    · exact h15
    · extract_lets x17 x18
      clear_value x17
      clear_value x18
      split
      · rename_i y34 y36 e36
        have h19 : Keeps μ s0 y36 := by
          refine of2 e36 ?_
          refine stageCopy_keeps (sub hw rfl) ?_
          exact h15
        split
        · rename_i y37 y38 y39 e40
          have h41 : Keeps μ s0 y39 := by
            refine of2 e40 ?_
            refine seqMismatch_keeps ?_
            exact h19
          refine seqFail_keeps (sub hw rfl) ?_
          exact h41
        · rename_i y42 y43 e44
          have h45 : Keeps μ s0 y43 := by
            refine of2 e44 ?_
            refine seqMismatch_keeps ?_
            exact h19
          extract_lets x46
          clear_value x46
          split
          · rename_i y47 y48 e49
            have h50 : Keeps μ s0 y48 := by
              refine of2 e49 ?_
              refine memWrite_keeps (sub hw rfl) ?_
              exact h45
            refine seqDone_keeps (sub hw rfl) ?_
            refine bump_keeps ?_
            exact h50
          · rename_i y51 y52 y53 e54 e55
            have h56 : Keeps μ s0 y53 := by
              refine of2 e55 ?_
              refine memWrite_keeps (sub hw rfl) ?_
              exact h45
            refine seqFail_keeps (sub hw rfl) ?_
            exact h56
      · rename_i y59 y60 e60 e61
        have h19 : Keeps μ s0 y60 := by
          refine of2 e61 ?_
          refine stageCopy_keeps (sub hw rfl) ?_
          exact h15
        refine seqFail_keeps (sub hw rfl) ?_
        exact h19

theorem seqReleaseAct_keeps {s c f v3} (hw : μ ||| 70369180385548 = μ) (h : Keeps μ s0 s) : Keeps μ s0 (seqReleaseAct s c f v3) := by
  unfold seqReleaseAct
  refine seqDone_keeps (sub hw rfl) ?_
  refine dropViews_keeps (sub hw rfl) ?_
  exact h

theorem slotsOf_keeps {s e ps} (hw : μ ||| 42949673280 = μ) (h : Keeps μ s0 s) : Keeps μ s0 (slotsOf s e ps).2 := by
  unfold slotsOf
  refine foldl2_keeps ?_ ?_
  · refine mk2_keeps ?_
    exact h
  · intro x0 x1 h2
    split
    · rename_i y3 y4 y5
      split
      · rename_i y6 y7 y8 e9
        have h10 : Keeps μ s0 y8 := by
          refine of2 e9 ?_
          refine slotOfPos_keeps (sub hw rfl) ?_
          exact h2
        refine mk2_keeps ?_
        exact h10
      · rename_i y11 y12 y13 e14
        have h15 : Keeps μ s0 y13 := by
          refine of2 e14 ?_
          refine slotOfPos_keeps (sub hw rfl) ?_
          exact h2
        refine mk2_keeps ?_
        exact h15
    · rename_i y16 y17 y18
      refine mk2_keeps ?_
      exact h2

theorem seqImportanceAct_keeps {s c f e} (hw : μ ||| 105596586033516 = μ) (h : Keeps μ s0 s) : Keeps μ s0 (seqImportanceAct s c f e) := by
  unfold seqImportanceAct
  split
  · rename_i y0 e1
    refine seqFail_keeps (sub hw rfl) ?_
    exact h
  · rename_i y2 y3 e4
    split
    · rename_i y5 y6 y7 e8
      have h9 : Keeps μ s0 y7 := by
        refine of3 e8 ?_
        refine memRead_keeps (sub hw rfl) ?_
        exact h
      extract_lets x10 x11 x12
      clear_value x10
      clear_value x11
      clear_value x12
      refine ite_intro (P := Keeps μ s0) (fun _ => ?_) (fun _ => ?_)
      · refine seqFail_keeps (sub hw rfl) ?_
        exact h9
      · split
        · rename_i y13 y14 y15 y16 e17
          have h18 : Keeps μ s0 y16 := by
            refine of2 e17 ?_
            refine slotsOf_keeps (sub hw rfl) ?_
            exact h9
          refine seqFail_keeps (sub hw rfl) ?_
          exact h18
        · rename_i y19 y20 y21 y22 e23
          have h24 : Keeps μ s0 y22 := by
            refine of2 e23 ?_
            refine slotsOf_keeps (sub hw rfl) ?_
            exact h9
          refine seqDone_keeps (sub hw rfl) ?_
          refine foldl_intro (P := Keeps μ s0) ?_ ?_
          · exact h24
          · intro x25 x26 h27
            split
            · rename_i y28 y29 e30
              refine writeSlot_keeps (sub hw rfl) ?_
              exact h27
            · rename_i y31 e32
              exact h27
    · rename_i y33 y34 y35 y36 e37 e38
      have h39 : Keeps μ s0 y36 := by
        refine of3 e38 ?_
        refine memRead_keeps (sub hw rfl) ?_
        exact h
      refine seqFail_keeps (sub hw rfl) ?_
      exact h39

theorem restoreGone_keeps {s ctx pos} (hw : μ ||| 33554432 = μ) (h : Keeps μ s0 s) : Keeps μ s0 (restoreGone s ctx pos) := by
  unfold restoreGone
  extract_lets x0 x1
  clear_value x0
  have h2 : Keeps μ s0 x1 := by
    unfold x1
    refine freePages_keeps (sub hw rfl) ?_
    exact h
  clear_value x1
  refine setSeq_keeps (sub hw rfl) ?_
  exact h2

theorem seqRestoreAct_keeps {s c f e} (hw : μ ||| 105596586033516 = μ) (h : Keeps μ s0 s) : Keeps μ s0 (seqRestoreAct s c f e) := by
  unfold seqRestoreAct
  extract_lets x0 x1
  clear_value x0
  clear_value x1
  split
  · rename_i y2 y3 y4 e5
    have h6 : Keeps μ s0 y4 := by
      refine of2 e5 ?_
      refine slotOfPos_keeps (sub hw rfl) ?_
      exact h
    refine seqFail_keeps (sub hw rfl) ?_
    exact h6
  · rename_i y7 y8 e9
    have h10 : Keeps μ s0 y8 := by
      refine of2 e9 ?_
      refine slotOfPos_keeps (sub hw rfl) ?_
      exact h
    refine seqDone_keeps (sub hw rfl) ?_
    exact h10
  · rename_i y11 y12 y13 e14
    have h15 : Keeps μ s0 y13 := by
      refine of2 e14 ?_
      refine slotOfPos_keeps (sub hw rfl) ?_
      exact h
    refine ite_intro (P := Keeps μ s0) (fun _ => ?_) (fun _ => ?_)
    · refine seqDone_keeps (sub hw rfl) ?_
      exact h15
    · extract_lets x16
      have h17 : Keeps μ s0 x16 := by
        unfold x16
        refine ite_intro (P := Keeps μ s0) (fun _ => ?_) (fun _ => ?_)
        · refine restoreGone_keeps (sub hw rfl) ?_
          exact h15
        · exact h15
      clear_value x16
      split
      · rename_i y18 y19 y20 e21
        have h22 : Keeps μ s0 y20 := by
          refine of2 e21 ?_
          refine makeRoom_keeps (sub hw rfl) ?_
          exact h17
        split
        rename_i y23 y24 y25 e26
        have h27 : Keeps μ s0 y25 := by
          refine of2 e26 ?_
          refine allocPages_keeps (sub hw rfl) ?_
          exact h22
        extract_lets x28 x29 x30 x31
        clear_value x28
        clear_value x29
        clear_value x30
        have h32 : Keeps μ s0 x31 := by
          unfold x31
          refine setSeq_keeps (sub hw rfl) ?_
          exact h27
        clear_value x31
        refine seqAccept_keeps (sub hw rfl) ?_
        exact h32
      · rename_i y33 y34 y35 y36 e37 e38
        have h39 : Keeps μ s0 y36 := by
          refine of2 e38 ?_
          refine makeRoom_keeps (sub hw rfl) ?_
          exact h17
        refine seqFail_keeps (sub hw rfl) ?_
        exact h39

theorem readGraph_keeps {s slot addr len cls echo} (hw : μ ||| 42949673280 = μ) (h : Keeps μ s0 s) : Keeps μ s0 (readGraph s slot addr len cls echo).2.2 := by
  unfold readGraph
  refine ite3_keeps (fun _ => ?_) (fun _ => ?_)
  · refine mk3_keeps ?_
    exact h
  · split
    · rename_i y0 y1 y2 y3 e4
      have h5 : Keeps μ s0 y3 := by
        refine of3 e4 ?_
        refine memRead_keeps (sub hw rfl) ?_
        exact h
      refine ite3_keeps (fun _ => ?_) (fun _ => ?_)
      · refine mk3_keeps ?_
        exact h5
      · extract_lets x6
        clear_value x6
        split
        · rename_i y7 y8 y9 y10 e11
          have h12 : Keeps μ s0 y10 := by
            refine of3 e11 ?_
            refine memRead_keeps (sub hw rfl) ?_
            exact h5
          extract_lets x13 x14
          clear_value x13
          clear_value x14
          refine ite3_keeps (fun _ => ?_) (fun _ => ?_)
          · refine mk3_keeps ?_
            exact h12
          · refine mk3_keeps ?_
            exact h12
        · rename_i y15 y16 y17 y18 y19 e20 e21
          have h22 : Keeps μ s0 y19 := by
            refine of3 e21 ?_
            refine memRead_keeps (sub hw rfl) ?_
            exact h5
          refine mk3_keeps ?_
          exact h22
    · rename_i y23 y24 y25 y26 y27 e28 e29
      have h30 : Keeps μ s0 y27 := by
        refine of3 e29 ?_
        refine memRead_keeps (sub hw rfl) ?_
        exact h
      refine mk3_keeps ?_
      exact h30

theorem graphLoad_keeps {s no} (hw : μ ||| 70411760959820 = μ) (h : Keeps μ s0 s) : Keeps μ s0 (graphLoad s no) := by
  unfold graphLoad
  extract_lets x0
  have h1 : Keeps μ s0 x0 := by
    unfold x0
    exact h
  clear_value x0
  split
  · rename_i y2 e3
    exact h
  · rename_i y4 y5 y6 e7
    have h8 : Keeps μ s0 y6 := by
      refine ofSome2 e7 ?_
      refine takePod_keeps (sub hw rfl) ?_
      exact h
    extract_lets x11 x12 x13
    clear_value x11
    clear_value x12
    clear_value x13
    refine ite_intro (P := Keeps μ s0) (fun _ => ?_) (fun _ => ?_)
    · refine podComplete_keeps (sub hw rfl) ?_
      exact h8
    · refine ite_intro (P := Keeps μ s0) (fun _ => ?_) (fun _ => ?_)
      · exact h1
      · split
        · rename_i y14 y15 y16 y17 y18 e19
          have h20 : Keeps μ s0 y18 := by
            refine of3 e19 ?_
            refine readGraph_keeps (sub hw rfl) ?_
            exact h8
          refine podComplete_keeps (sub hw rfl) ?_
          refine dspRegs_keeps ?_
          refine setGraph_keeps (sub hw rfl) ?_
          exact h20
        · rename_i y21 y22 y23 y24 y25 y26 e27 e28
          have h29 : Keeps μ s0 y26 := by
            refine of3 e28 ?_
            refine readGraph_keeps (sub hw rfl) ?_
            exact h8
          refine podComplete_keeps (sub hw rfl) ?_
          refine ite_intro (P := Keeps μ s0) (fun _ => ?_) (fun _ => ?_)
          · refine raise_keeps ?_
            exact h29
          · exact h29

theorem graphUnload_keeps {s no} (hw : μ ||| 70368811286796 = μ) (h : Keeps μ s0 s) : Keeps μ s0 (graphUnload s no) := by
  unfold graphUnload
  split
  · rename_i y0 e1
    exact h
  · rename_i y2 y3 y4 e5
    have h6 : Keeps μ s0 y4 := by
      refine ofSome2 e5 ?_
      refine takePod_keeps (sub hw rfl) ?_
      exact h
    extract_lets x9
    clear_value x9
    refine ite_intro (P := Keeps μ s0) (fun _ => ?_) (fun _ => ?_)
    · refine podComplete_keeps (sub hw rfl) ?_
      exact h6
    · split
      · rename_i y10 y11 e12
        refine podComplete_keeps (sub hw rfl) ?_
        refine drawFree_keeps ?_
        exact h6
      · rename_i y13 y14 y15 e16
        refine ite_intro (P := Keeps μ s0) (fun _ => ?_) (fun _ => ?_)
        · refine podComplete_keeps (sub hw rfl) ?_
          exact h6
        · refine ite_intro (P := Keeps μ s0) (fun _ => ?_) (fun _ => ?_)
          · refine setGraph_keeps (sub hw rfl) ?_
            exact h6
          · refine unloadGraph_keeps (sub hw rfl) ?_
            exact h6

theorem admitStarts_keeps {s slot} (hw : μ ||| 335544320 = μ) (h : Keeps μ s0 s) : Keeps μ s0 (admitStarts s slot) := by
  unfold admitStarts
  split
  · rename_i y0 e1
    exact h
  · rename_i y2 y3 e4
    extract_lets x5 x6 x7
    clear_value x5
    clear_value x6
    clear_value x7
    refine setGraph_keeps (sub hw rfl) ?_
    refine upd_starts (sub hw rfl) ?_
    exact h

theorem writeParams_keeps {s g q} (hw : μ ||| 35227321762144 = μ) (h : Keeps μ s0 s) : Keeps μ s0 (writeParams s g q).2 := by
  unfold writeParams
  refine ite2_keeps (fun _ => ?_) (fun _ => ?_)
  · refine mk2_keeps ?_
    exact h
  · refine memWrite_keeps (sub hw rfl) ?_
    exact h

theorem addInstance_keeps {s x} (hw : μ ||| 134217728 = μ) (h : Keeps μ s0 s) : Keeps μ s0 (addInstance s x) := by
  unfold addInstance
  refine dspRegs_keeps ?_
  refine upd_insts (sub hw rfl) ?_
  exact h

theorem instanceStart_keeps {s slot} (hw : μ ||| 105596586033516 = μ) (h : Keeps μ s0 s) : Keeps μ s0 (instanceStart s slot) := by
  unfold instanceStart
  extract_lets x0
  have h1 : Keeps μ s0 x0 := by
    unfold x0
    refine admitStarts_keeps (sub hw rfl) ?_
    exact h
  clear_value x0
  split
  · rename_i y2 e3
    exact h1
  · rename_i y4 y5 e6
    split
    · rename_i y7 e8
      exact h1
    · rename_i y9 y10 y11 e12
      refine ite_intro (P := Keeps μ s0) (fun _ => ?_) (fun _ => ?_)
      · exact h1
      · extract_lets x13
        have h14 : Keeps μ s0 x13 := by
          unfold x13
          refine setGraph_keeps (sub hw rfl) ?_
          exact h1
        clear_value x13
        split
        rename_i y15 y16 y17 y18 e19
        have h20 : Keeps μ s0 y18 := by
          refine of2 e19 ?_
          refine writeParams_keeps (sub hw rfl) ?_
          exact h14
        extract_lets x21 x22 x23
        have h24 : Keeps μ s0 x21 := by
          unfold x21
          split
          · rename_i y25 y26 e27
            refine elim_intro (P := Keeps μ s0) ?_ (fun _ => ?_)
            · exact h20
            · refine markState_keeps (sub hw rfl) ?_
              exact h20
          · rename_i y28 e29
            exact h20
        clear_value x21
        clear_value x22
        have h30 : Keeps μ s0 x23 := by
          unfold x23
          refine addInstance_keeps (sub hw rfl) ?_
          exact h24
        clear_value x23
        refine ite_intro (P := Keeps μ s0) (fun _ => ?_) (fun _ => ?_)
        · exact h30
        · refine endInst_keeps (sub hw rfl) ?_
          exact h30

theorem launchGroups_keeps {s fg l} (hw : μ ||| 105597664364908 = μ) (h : Keeps μ s0 s) : Keeps μ s0 (launchGroups s fg l) := by
  unfold launchGroups
  refine foldl_intro (P := Keeps μ s0) ?_ ?_
  · exact h
  · intro x0 x1 h2
    extract_lets x3
    clear_value x3
    refine ite_intro (P := Keeps μ s0) (fun _ => ?_) (fun _ => ?_)
    · refine groupApplies_keeps (sub hw rfl) ?_
      exact h2
    · exact h2

theorem sendIncomplete_keeps {s g x n} (h : Keeps μ s0 s) : Keeps μ s0 (sendIncomplete s g x n) := by
  unfold sendIncomplete
  refine sendEvent_keeps ?_
  exact h

end Sys2Proof.Laws
end

