-- ==== Sys2Proof/Laws/Keeps7.lean ====
section
/-!
SUPPORT. The functions of the model keep the queue, the fuses and the canonical memories: part 7.
-/

namespace Sys2Proof.Laws

open Sys2Proof.Machine Sys2Proof.Safety

variable {s0 : State} {α β γ δ : Type} {μ : Nat}

theorem cycleDeadline_keeps {s g l} (hw : μ ||| 105596586034028 = μ) (h : Keeps μ s0 s) : Keeps μ s0 (cycleDeadline s g l) := by
  unfold cycleDeadline
  extract_lets x0 x1 x2 x3 x4 x5
  clear_value x0
  have h6 : Keeps μ s0 x1 := by
    unfold x1
    refine setFg_keeps (sub hw rfl) ?_
    exact h
  clear_value x1
  clear_value x2
  have h7 : Keeps μ s0 x3 := by
    unfold x3
    refine foldl_intro (P := Keeps μ s0) ?_ ?_
    · exact h6
    · intro x8 x9 h10
      refine sweepInst_keeps (sub hw rfl) ?_
      refine instLeave_keeps (sub hw rfl) ?_
      exact h10
  clear_value x3
  clear_value x4
  have h11 : Keeps μ s0 x5 := by
    unfold x5
    refine raise_keeps ?_
    refine raise_keeps ?_
    refine bumpSat_keeps ?_
    exact h7
  clear_value x5
  refine ite_intro (P := Keeps μ s0) (fun _ => ?_) (fun _ => ?_)
  · exact h7
  · refine foldl_intro (P := Keeps μ s0) ?_ ?_
    · exact h11
    · intro x12 x13 h14
      split
      · rename_i y15 y16 e17
        exact h14
      · rename_i y18 y19 y20 e21
        extract_lets x22 x23
        have h24 : Keeps μ s0 x22 := by
          unfold x22
          refine sendIncomplete_keeps ?_
          exact h14
        clear_value x22
        have h25 : Keeps μ s0 x23 := by
          unfold x23
          refine ite_intro (P := Keeps μ s0) (fun _ => ?_) (fun _ => ?_)
          · refine report_keeps (sub hw rfl) ?_
            exact h24
          · exact h24
        clear_value x23
        refine endInst_keeps (sub hw rfl) ?_
        exact h25

theorem deadlinesUpTo_keeps {s g t} (hw : μ ||| 105596586034028 = μ) (h : Keeps μ s0 s) : Keeps μ s0 (deadlinesUpTo s g t) := by
  unfold deadlinesUpTo
  refine foldl_intro (P := Keeps μ s0) ?_ ?_
  · exact h
  · intro x0 x1 h2
    refine cycleDeadline_keeps (sub hw rfl) ?_
    exact h2

theorem rearmPegs_keeps {s g k} (hw : μ ||| 4 = μ) (h : Keeps μ s0 s) : Keeps μ s0 (rearmPegs s g k) := by
  unfold rearmPegs
  extract_lets x0
  clear_value x0
  refine upd_pegs (sub hw rfl) ?_
  exact h

theorem advanceCycle_keeps {s g l k} (hw : μ ||| 512 = μ) (h : Keeps μ s0 s) : Keeps μ s0 (advanceCycle s g l k) := by
  unfold advanceCycle
  extract_lets x0 x1 x2
  clear_value x0
  clear_value x1
  clear_value x2
  refine wr_keeps ?_
  refine setFg_keeps (sub hw rfl) ?_
  exact h

theorem rrContestFreeze_keeps {s frame} (hw : μ ||| 1024 = μ) (h : Keeps μ s0 s) : Keeps μ s0 (rrContestFreeze s frame) := by
  unfold rrContestFreeze
  refine sendEvent_keeps ?_
  refine rrFreeze_keeps (sub hw rfl) ?_
  refine upd_rr (sub hw rfl) ?_
  exact h

theorem rrLaunched_keeps {s g} (hw : μ ||| 1024 = μ) (h : Keeps μ s0 s) : Keeps μ s0 (rrLaunched s g) := by
  unfold rrLaunched
  split
  · rename_i y0 y1 y2 e3
    refine ite_intro (P := Keeps μ s0) (fun _ => ?_) (fun _ => ?_)
    · exact h
    · refine ite_intro (P := Keeps μ s0) (fun _ => ?_) (fun _ => ?_)
      · refine rrContestFreeze_keeps (sub hw rfl) ?_
        exact h
      · refine upd_rr (sub hw rfl) ?_
        exact h
  · rename_i y4 e5
    exact h

theorem setClockStep_keeps {s n} (h : Keeps μ s0 s) : Keeps μ s0 (setClockStep s n) := by
  unfold setClockStep
  refine foldl_intro (P := Keeps μ s0) ?_ ?_
  · refine wrF_keeps ?_
    exact h
  · intro x0 x1 h2
    refine wr_keeps ?_
    exact h2

theorem clockAtLaunch_keeps {s g} (hw : μ ||| 72057594037927936 = μ) (h : Keeps μ s0 s) : Keeps μ s0 (clockAtLaunch s g) := by
  unfold clockAtLaunch
  split
  · rename_i y0 y1 e2
    refine ite_intro (P := Keeps μ s0) (fun _ => ?_) (fun _ => ?_)
    · refine setClockStep_keeps ?_
      refine upd_pm (sub hw rfl) ?_
      exact h
    · exact h
  · rename_i y3 e4
    exact h

theorem lanternLaunched_keeps {s g} (hw : μ ||| 9007199254740992 = μ) (h : Keeps μ s0 s) : Keeps μ s0 (lanternLaunched s g) := by
  unfold lanternLaunched
  refine ite_intro (P := Keeps μ s0) (fun _ => ?_) (fun _ => ?_)
  · refine upd_lantern (sub hw rfl) ?_
    exact h
  · exact h

theorem exitAtLaunch_keeps {s g k} (hw : μ ||| 10133099161583872 = μ) (h : Keeps μ s0 s) : Keeps μ s0 (exitAtLaunch s g k) := by
  unfold exitAtLaunch
  refine ite_intro (P := Keeps μ s0) (fun _ => ?_) (fun _ => ?_)
  · refine exitSafe_keeps (sub hw rfl) ?_
    exact h
  · exact h

theorem coveredLaunch_keeps {s k l} (hw : μ ||| 3377699720527872 = μ) (h : Keeps μ s0 s) : Keeps μ s0 (coveredLaunch s k l) := by
  unfold coveredLaunch
  extract_lets x0 x1 x2 x3 x4
  clear_value x0
  clear_value x1
  have h5 : Keeps μ s0 x2 := by
    unfold x2
    refine ite_intro (P := Keeps μ s0) (fun _ => ?_) (fun _ => ?_)
    · refine upd_sentry (sub hw rfl) ?_
      exact h
    · exact h
  clear_value x2
  clear_value x3
  clear_value x4
  refine upd_comp (sub hw rfl) ?_
  exact h5

theorem setCycle_keeps {s c} (hw : μ ||| 1125899906842624 = μ) (h : Keeps μ s0 s) : Keeps μ s0 (setCycle s c) := by
  unfold setCycle
  refine upd_comp (sub hw rfl) ?_
  exact h

theorem launchCovered_keeps {s g l k} (hw : μ ||| 3377699720527872 = μ) (h : Keeps μ s0 s) : Keeps μ s0 (launchCovered s g l k) := by
  unfold launchCovered
  refine ite_intro (P := Keeps μ s0) (fun _ => ?_) (fun _ => ?_)
  · exact h
  · extract_lets x0
    have h1 : Keeps μ s0 x0 := by
      unfold x0
      refine coveredLaunch_keeps (sub hw rfl) ?_
      exact h
    clear_value x0
    split
    · rename_i y2 y3 y4 e5
      refine setCycle_keeps (sub hw rfl) ?_
      exact h1
    · rename_i y6 y7 e8
      exact h1

theorem armCycle_keeps {s g l k} (hw : μ ||| 134217728 = μ) (h : Keeps μ s0 s) : Keeps μ s0 (armCycle s g l k) := by
  unfold armCycle
  refine foldl_intro (P := Keeps μ s0) ?_ ?_
  · exact h
  · intro x0 x1 h2
    split
    · rename_i y3 y4 e5
      refine ite_intro (P := Keeps μ s0) (fun _ => ?_) (fun _ => ?_)
      · refine addInstance_keeps (sub hw rfl) ?_
        exact h2
      · exact h2
    · rename_i y6 e7
      exact h2

theorem launch_keeps {s g l k} (hw : μ ||| 84548090677563244 = μ) (h : Keeps μ s0 s) : Keeps μ s0 (launch s g l k) := by
  unfold launch
  extract_lets x0 x1 x2 x3 x4
  have h5 : Keeps μ s0 x0 := by
    unfold x0
    refine launchGroups_keeps (sub hw rfl) ?_
    refine deadlinesUpTo_keeps (sub hw rfl) ?_
    exact h
  clear_value x0
  have h6 : Keeps μ s0 x1 := by
    unfold x1
    refine rearmPegs_keeps (sub hw rfl) ?_
    refine latchWaits_keeps (sub hw rfl) ?_
    exact h5
  clear_value x1
  have h7 : Keeps μ s0 x2 := by
    unfold x2
    refine advanceCycle_keeps (sub hw rfl) ?_
    exact h6
  clear_value x2
  have h8 : Keeps μ s0 x3 := by
    unfold x3
    refine rrLaunched_keeps (sub hw rfl) ?_
    refine record_keeps (sub hw rfl) ?_
    exact h7
  clear_value x3
  have h9 : Keeps μ s0 x4 := by
    unfold x4
    refine clockAtLaunch_keeps (sub hw rfl) ?_
    refine lanternLaunched_keeps (sub hw rfl) ?_
    refine exitAtLaunch_keeps (sub hw rfl) ?_
    exact h8
  clear_value x4
  refine launchCovered_keeps (sub hw rfl) ?_
  refine armCycle_keeps (sub hw rfl) ?_
  exact h9

theorem cycleLaunch_keeps {s g} (hw : μ ||| 84548090677563244 = μ) (h : Keeps μ s0 s) : Keeps μ s0 (cycleLaunch s g) := by
  unfold cycleLaunch
  split
  · rename_i y0 y1 y2 e3
    refine ite_intro (P := Keeps μ s0) (fun _ => ?_) (fun _ => ?_)
    · refine launch_keeps (sub hw rfl) ?_
      exact h
    · exact h
  · rename_i y4 e5
    refine ite_intro (P := Keeps μ s0) (fun _ => ?_) (fun _ => ?_)
    · refine fgDisable_keeps (sub hw rfl) ?_
      exact h
    · exact h

theorem fireJob_keeps {s x j retries} (hw : μ ||| 671088640 = μ) (h : Keeps μ s0 s) : Keeps μ s0 (fireJob s x j retries) := by
  unfold fireJob
  extract_lets x0 x1 x2 x3
  clear_value x0
  have h4 : Keeps μ s0 x1 := by
    unfold x1
    refine bump_keeps ?_
    refine upd_nextExec (sub hw rfl) ?_
    exact h
  clear_value x1
  have h5 : Keeps μ s0 x2 := by
    unfold x2
    refine updJob_keeps (sub hw rfl) ?_
    exact h4
  clear_value x2
  have h6 : Keeps μ s0 x3 := by
    unfold x3
    refine updInst_keeps (sub hw rfl) ?_
    exact h5
  clear_value x3
  refine foldl_intro (P := Keeps μ s0) ?_ ?_
  · exact h6
  · intro x7 x8 h9
    refine wakeRequest_keeps ?_
    exact h9

theorem jobFire_keeps {s} (hw : μ ||| 105597122904428 = μ) (h : Keeps μ s0 s) : Keeps μ s0 (jobFire s) := by
  unfold jobFire
  refine ite_intro (P := Keeps μ s0) (fun _ => ?_) (fun _ => ?_)
  · exact h
  · split
    · rename_i y0 y1 e2
      exact h
    · rename_i y3 y4 y5 y6 e7
      refine ite_intro (P := Keeps μ s0) (fun _ => ?_) (fun _ => ?_)
      · refine failJob_keeps (sub hw rfl) ?_
        exact h
      · refine fireJob_keeps (sub hw rfl) ?_
        exact h

theorem retainPod_keeps {s o q ring p} (hw : μ ||| 8 = μ) (h : Keeps μ s0 s) : Keeps μ s0 (retainPod s o q ring p) := by
  unfold retainPod
  extract_lets x0 x1 x2 x3 x4
  clear_value x0
  clear_value x1
  clear_value x2
  have h5 : Keeps μ s0 x3 := by
    unfold x3
    refine updateWindow_keeps (sub hw rfl) ?_
    exact h
  clear_value x3
  clear_value x4
  refine ite_intro (P := Keeps μ s0) (fun _ => ?_) (fun _ => ?_)
  · refine retainTrim_keeps (sub hw rfl) ?_
    refine upd_pods (sub hw rfl) ?_
    exact h
  · refine ite_intro (P := Keeps μ s0) (fun _ => ?_) (fun _ => ?_)
    · exact h
    · refine retainTrim_keeps (sub hw rfl) ?_
      refine upd_pods (sub hw rfl) ?_
      exact h5

theorem emitFor_keeps {s no r p} (hw : μ ||| 264 = μ) (h : Keeps μ s0 s) : Keeps μ s0 (emitFor s no r p) := by
  unfold emitFor
  split
  · rename_i y0 e1
    refine sendResult_keeps (sub hw rfl) ?_
    exact h
  · rename_i y2 y3 e4
    extract_lets x5 x6
    clear_value x5
    have h7 : Keeps μ s0 x6 := by
      unfold x6
      refine ite_intro (P := Keeps μ s0) (fun _ => ?_) (fun _ => ?_)
      · refine retainPod_keeps (sub hw rfl) ?_
        refine upd_keeps ?_
        exact h
      · exact h
    clear_value x6
    refine ite_intro (P := Keeps μ s0) (fun _ => ?_) (fun _ => ?_)
    · refine updatePod_keeps (sub hw rfl) ?_
      exact h7
    · refine sendResult_keeps (sub hw rfl) ?_
      exact h7

theorem releaseResult_keeps {s x ring p} (hw : μ ||| 264 = μ) (h : Keeps μ s0 s) : Keeps μ s0 (releaseResult s x ring p) := by
  unfold releaseResult
  refine emitFor_keeps (sub hw rfl) ?_
  exact h

theorem emitResult_keeps {s x e t content} (hw : μ ||| 1125899906842888 = μ) (h : Keeps μ s0 s) : Keeps μ s0 (emitResult s x e t content) := by
  unfold emitResult
  extract_lets x0 x1 x2
  clear_value x0
  clear_value x1
  clear_value x2
  refine ite_intro (P := Keeps μ s0) (fun _ => ?_) (fun _ => ?_)
  · refine releaseResult_keeps (sub hw rfl) ?_
    exact h
  · split
    · rename_i y3 y4 y5 e6
      refine ite_intro (P := Keeps μ s0) (fun _ => ?_) (fun _ => ?_)
      · exact h
      · extract_lets x7 x8 x9 x10
        clear_value x7
        have h11 : Keeps μ s0 x8 := by
          unfold x8
          refine upd_comp (sub hw rfl) ?_
          exact h
        clear_value x8
        clear_value x9
        clear_value x10
        refine ite_intro (P := Keeps μ s0) (fun _ => ?_) (fun _ => ?_)
        · refine releaseResult_keeps (sub hw rfl) ?_
          exact h11
        · refine upd_comp (sub hw rfl) ?_
          exact h11
    · rename_i y12 y13 e14
      refine releaseResult_keeps (sub hw rfl) ?_
      exact h

theorem runEmitter_keeps {s x j} (hw : μ ||| 1125942856515912 = μ) (h : Keeps μ s0 s) : Keeps μ s0 (runEmitter s x j).2 := by
  unfold runEmitter
  split
  · rename_i y0 y1 y2 e3
    have h4 : Keeps μ s0 y2 := by
      refine of3 e3 ?_
      refine memRead_keeps (sub hw rfl) ?_
      exact h
    split
    · rename_i y5 y6 y7 e8
      have h9 : Keeps μ s0 y7 := by
        refine of3 e8 ?_
        refine memRead_keeps (sub hw rfl) ?_
        exact h4
      refine mk2_keeps ?_
      refine emitResult_keeps (sub hw rfl) ?_
      exact h9
    · rename_i y10 y11 y12 y13 e14 e15
      have h16 : Keeps μ s0 y13 := by
        refine of3 e15 ?_
        refine memRead_keeps (sub hw rfl) ?_
        exact h4
      refine mk2_keeps ?_
      exact h16
  · rename_i y17 y18 y19 y20 e21 e22
    have h23 : Keeps μ s0 y20 := by
      refine of3 e22 ?_
      refine memRead_keeps (sub hw rfl) ?_
      exact h
    refine mk2_keeps ?_
    exact h23

theorem settleInst_keeps {s id} (hw : μ ||| 105596586033516 = μ) (h : Keeps μ s0 s) : Keeps μ s0 (settleInst s id) := by
  unfold settleInst
  split
  · rename_i y0 y1 e2
    refine ite_intro (P := Keeps μ s0) (fun _ => ?_) (fun _ => ?_)
    · refine sweepInst_keeps (sub hw rfl) ?_
      exact h
    · refine ite_intro (P := Keeps μ s0) (fun _ => ?_) (fun _ => ?_)
      · refine endInst_keeps (sub hw rfl) ?_
        exact h
      · exact h
  · rename_i y3 e4
    exact h

theorem jobDone_keeps {s x j} (hw : μ ||| 105596586033516 = μ) (h : Keeps μ s0 s) : Keeps μ s0 (jobDone s x j) := by
  unfold jobDone
  refine ite_intro (P := Keeps μ s0) (fun _ => ?_) (fun _ => ?_)
  · refine failExec_keeps (sub hw rfl) ?_
    exact h
  · extract_lets x0
    have h1 : Keeps μ s0 x0 := by
      unfold x0
      refine seqJobEnded_keeps (sub hw rfl) ?_
      refine pegInc_keeps (sub hw rfl) ?_
      exact h
    clear_value x0
    refine settleInst_keeps (sub hw rfl) ?_
    refine updJob_keeps (sub hw rfl) ?_
    exact h1

theorem jobComplete_keeps {s exec} (hw : μ ||| 1231496492876140 = μ) (h : Keeps μ s0 s) : Keeps μ s0 (jobComplete s exec) := by
  unfold jobComplete
  split
  · rename_i y0 e1
    refine lateDiscard_keeps ?_
    exact h
  · rename_i y2 y3 y4 e5
    refine ite_intro (P := Keeps μ s0) (fun _ => ?_) (fun _ => ?_)
    · exact h
    · refine ite_intro (P := Keeps μ s0) (fun _ => ?_) (fun _ => ?_)
      · refine ite_intro (P := Keeps μ s0) (fun _ => ?_) (fun _ => ?_)
        · exact h
        · refine cancelJob_keeps (sub hw rfl) ?_
          refine lateDiscard_keeps ?_
          exact h
      · refine ite_intro (P := Keeps μ s0) (fun _ => ?_) (fun _ => ?_)
        · split
          · rename_i y6 y7 y8 y9 y10 e11
            have h12 : Keeps μ s0 y10 := by
              refine of2 e11 ?_
              refine runEmitter_keeps (sub hw rfl) ?_
              exact h
            split
            · rename_i y13 y14 y15 e16
              refine jobDone_keeps (sub hw rfl) ?_
              exact h12
            · rename_i y17 e18
              exact h12
          · rename_i y19 y20 y21 y22 y23 y24 e25 e26
            have h27 : Keeps μ s0 y24 := by
              refine of2 e26 ?_
              refine runEmitter_keeps (sub hw rfl) ?_
              exact h
            refine failExec_keeps (sub hw rfl) ?_
            exact h27
        · refine ite_intro (P := Keeps μ s0) (fun _ => ?_) (fun _ => ?_)
          · exact h
          · refine jobDone_keeps (sub hw rfl) ?_
            exact h

theorem jobTimeout_keeps {s exec} (hw : μ ||| 105596586033516 = μ) (h : Keeps μ s0 s) : Keeps μ s0 (jobTimeout s exec) := by
  unfold jobTimeout
  split
  · rename_i y0 e1
    exact h
  · rename_i y2 y3 y4 e5
    refine ite_intro (P := Keeps μ s0) (fun _ => ?_) (fun _ => ?_)
    · exact h
    · extract_lets x6 x7
      have h8 : Keeps μ s0 x6 := by
        unfold x6
        refine raise_keeps ?_
        refine bumpSat_keeps ?_
        exact h
      clear_value x6
      have h9 : Keeps μ s0 x7 := by
        unfold x7
        refine report_keeps (sub hw rfl) ?_
        exact h8
      clear_value x7
      refine jobLost_keeps (sub hw rfl) ?_
      exact h9

theorem replayEffect_keeps {s kind src aux b} (hw : μ ||| 496926609646223212 = μ) (h : Keeps μ s0 s) : Keeps μ s0 (replayEffect s kind src aux b) := by
  unfold replayEffect
  refine ite_intro (P := Keeps μ s0) (fun _ => ?_) (fun _ => ?_)
  · refine tsfDeliver_keeps (sub hw rfl) ?_
    exact h
  · refine ite_intro (P := Keeps μ s0) (fun _ => ?_) (fun _ => ?_)
    · refine podAdmit_keeps (sub hw rfl) ?_
      exact h
    · refine ite_intro (P := Keeps μ s0) (fun _ => ?_) (fun _ => ?_)
      · extract_lets x0
        have h1 : Keeps μ s0 (x0).2 := by
          unfold x0
          refine ite2_keeps (fun _ => ?_) (fun _ => ?_)
          · refine mk2_keeps ?_
            exact h
          · refine drawFree_keeps ?_
            exact h
        clear_value x0
        refine busWrite_keeps (sub hw rfl) ?_
        exact h1
      · refine ite_intro (P := Keeps μ s0) (fun _ => ?_) (fun _ => ?_)
        · refine upd_rr (sub hw rfl) ?_
          exact h
        · exact h

theorem replayEntry_keeps {s} (hw : μ ||| 496926609646223212 = μ) (h : Keeps μ s0 s) : Keeps μ s0 (replayEntry s) := by
  unfold replayEntry
  split
  · rename_i y0 e1
    exact h
  · rename_i y2 y3 e4
    refine ite_intro (P := Keeps μ s0) (fun _ => ?_) (fun _ => ?_)
    · exact h
    · split
      · rename_i y5 y6 e7
        refine replayDone_keeps (sub hw rfl) ?_
        refine upd_rr (sub hw rfl) ?_
        exact h
      · rename_i y8 y9 y10 y11 y12 y13 y14 e15
        refine ite_intro (P := Keeps μ s0) (fun _ => ?_) (fun _ => ?_)
        · exact h
        · refine ite_intro (P := Keeps μ s0) (fun _ => ?_) (fun _ => ?_)
          · exact h
          · extract_lets x16 x17 x18 x19
            clear_value x16
            clear_value x17
            have h20 : Keeps μ s0 x18 := by
              unfold x18
              refine replayEffect_keeps (sub hw rfl) ?_
              exact h
            clear_value x18
            clear_value x19
            refine replayDone_keeps (sub hw rfl) ?_
            refine upd_rr (sub hw rfl) ?_
            exact h20

theorem nameSeq_keeps {s u q} (hw : μ ||| 8 = μ) (h : Keeps μ s0 s) : Keeps μ s0 (nameSeq s u q) := by
  unfold nameSeq
  refine ite_intro (P := Keeps μ s0) (fun _ => ?_) (fun _ => ?_)
  · exact h
  · refine upd_pods (sub hw rfl) ?_
    exact h

theorem ringSignal_keeps {s r} (h : Keeps μ s0 s) : Keeps μ s0 (ringSignal s r) := by
  unfold ringSignal
  refine ite_intro (P := Keeps μ s0) (fun _ => ?_) (fun _ => ?_)
  · exact h
  · extract_lets x0 x1
    clear_value x0
    clear_value x1
    split
    · rename_i y2 y3 y4 e5
      refine ite_intro (P := Keeps μ s0) (fun _ => ?_) (fun _ => ?_)
      · refine setRing_keeps ?_
        exact h
      · refine setRing_keeps ?_
        refine msixSignal_keeps ?_
        exact h
    · rename_i y6 y7 e8
      refine setRing_keeps ?_
      refine msixSignal_keeps ?_
      exact h

theorem ringPut_keeps {s r p} (hw : μ ||| 24 = μ) (h : Keeps μ s0 s) : Keeps μ s0 (ringPut s r p) := by
  unfold ringPut
  extract_lets x0 x1 x2 x3 x4 x5 x6 x7 x8 x9 x10 x11 x12
  clear_value x0
  clear_value x1
  clear_value x2
  clear_value x3
  clear_value x4
  clear_value x5
  have h13 : Keeps μ s0 x6 := by
    unfold x6
    refine ite_intro (P := Keeps μ s0) (fun _ => ?_) (fun _ => ?_)
    · refine setRing_keeps ?_
      exact h
    · exact h
  clear_value x6
  have h14 : Keeps μ s0 x7 := by
    unfold x7
    refine nameSeq_keeps (sub hw rfl) ?_
    exact h13
  clear_value x7
  clear_value x8
  have h15 : Keeps μ s0 x9 := by
    unfold x9
    refine ite_intro (P := Keeps μ s0) (fun _ => ?_) (fun _ => ?_)
    · refine hostPut_keeps (sub hw rfl) ?_
      exact h14
    · exact h14
  clear_value x9
  have h16 : Keeps μ s0 x10 := by
    unfold x10
    refine hostPut_keeps (sub hw rfl) ?_
    exact h15
  clear_value x10
  clear_value x11
  have h17 : Keeps μ s0 x12 := by
    unfold x12
    refine hostPut_keeps (sub hw rfl) ?_
    refine wr_keeps ?_
    exact h16
  clear_value x12
  refine ringSignal_keeps ?_
  exact h17

theorem ringPop_keeps {s r} (h : Keeps μ s0 s) : Keeps μ s0 (ringPop s r) := by
  unfold ringPop
  extract_lets x0
  clear_value x0
  refine setRing_keeps ?_
  exact h

theorem ringWrite_keeps {s r} (hw : μ ||| 24 = μ) (h : Keeps μ s0 s) : Keeps μ s0 (ringWrite s r) := by
  unfold ringWrite
  split
  · rename_i y0 e1
    exact h
  · rename_i y2 y3 y4 e5
    refine ite_intro (P := Keeps μ s0) (fun _ => ?_) (fun _ => ?_)
    · extract_lets x6
      have h7 : Keeps μ s0 x6 := by
        unfold x6
        refine foldl_intro (P := Keeps μ s0) ?_ ?_
        · refine ringPop_keeps ?_
          exact h
        · intro x8 x9 h10
          refine ringPut_keeps (sub hw rfl) ?_
          exact h10
      clear_value x6
      refine ite_intro (P := Keeps μ s0) (fun _ => ?_) (fun _ => ?_)
      · refine upd_keeps ?_
        exact h7
      · exact h7
    · exact h

theorem ringExpire_keeps {s r} (hw : μ ||| 256 = μ) (h : Keeps μ s0 s) : Keeps μ s0 (ringExpire s r) := by
  unfold ringExpire
  split
  · rename_i y0 e1
    exact h
  · rename_i y2 y3 y4 e5
    extract_lets x6
    clear_value x6
    refine ite_intro (P := Keeps μ s0) (fun _ => ?_) (fun _ => ?_)
    · refine dropPod_keeps (sub hw rfl) ?_
      refine ringPop_keeps ?_
      exact h
    · exact h

theorem coalesceEnd_keeps {s r} (h : Keeps μ s0 s) : Keeps μ s0 (coalesceEnd s r) := by
  unfold coalesceEnd
  extract_lets x0
  clear_value x0
  split
  · rename_i y1 y2 e3
    refine ite_intro (P := Keeps μ s0) (fun _ => ?_) (fun _ => ?_)
    · refine setRing_keeps ?_
      refine msixSignal_keeps ?_
      exact h
    · exact h
  · rename_i y4 e5
    exact h

theorem channelTemp_keeps {t s ch} (h : Keeps μ s0 s) : Keeps μ s0 (channelTemp t s ch) := by
  unfold channelTemp
  extract_lets x0 x1 x2 x3 x4 x5
  clear_value x0
  clear_value x1
  clear_value x2
  clear_value x3
  clear_value x4
  have h6 : Keeps μ s0 x5 := by
    unfold x5
    refine wr_keeps ?_
    exact h
  clear_value x5
  refine ite_intro (P := Keeps μ s0) (fun _ => ?_) (fun _ => ?_)
  · refine raise_keeps ?_
    refine wrF_keeps ?_
    exact h6
  · refine ite_intro (P := Keeps μ s0) (fun _ => ?_) (fun _ => ?_)
    · refine wrF_keeps ?_
      exact h6
    · exact h6

theorem tempSample_keeps {s t} (hw : μ ||| 72057602627862784 = μ) (h : Keeps μ s0 s) : Keeps μ s0 (tempSample s t) := by
  unfold tempSample
  extract_lets x0 x1 x2 x3 x4 x5 x6 x7 x8 x9
  clear_value x0
  clear_value x1
  have h10 : Keeps μ s0 x2 := by
    unfold x2
    refine foldl_intro (P := Keeps μ s0) ?_ ?_
    · exact h
    · intro x11 x12 h13
      refine channelTemp_keeps ?_
      exact h13
  clear_value x2
  have h14 : Keeps μ s0 x3 := by
    unfold x3
    refine wr_keeps ?_
    exact h10
  clear_value x3
  have h15 : Keeps μ s0 x4 := by
    unfold x4
    refine setRec_keeps (sub hw rfl) ?_
    refine setRec_keeps (sub hw rfl) ?_
    exact h14
  clear_value x4
  have h16 : Keeps μ s0 x5 := by
    unfold x5
    refine ite_intro (P := Keeps μ s0) (fun _ => ?_) (fun _ => ?_)
    · refine raise_keeps ?_
      exact h15
    · exact h15
  clear_value x5
  have h17 : Keeps μ s0 x6 := by
    unfold x6
    refine ite_intro (P := Keeps μ s0) (fun _ => ?_) (fun _ => ?_)
    · refine levelReport_keeps (sub hw rfl) ?_
      refine ite_intro (P := Keeps μ s0) (fun _ => ?_) (fun _ => ?_)
      · refine raise_keeps ?_
        exact h16
      · exact h16
    · exact h16
  clear_value x6
  have h18 : Keeps μ s0 x7 := by
    unfold x7
    refine ite_intro (P := Keeps μ s0) (fun _ => ?_) (fun _ => ?_)
    · refine levelReport_keeps (sub hw rfl) ?_
      refine ite_intro (P := Keeps μ s0) (fun _ => ?_) (fun _ => ?_)
      · refine raise_keeps ?_
        exact h17
      · exact h17
    · exact h17
  clear_value x7
  clear_value x8
  clear_value x9
  refine upd_pm (sub hw rfl) ?_
  exact h18

theorem encReady_keeps {s r} (hw : μ ||| 35227321762144 = μ) (h : Keeps μ s0 s) : Keeps μ s0 (encReady s r) := by
  unfold encReady
  refine ite_intro (P := Keeps μ s0) (fun _ => ?_) (fun _ => ?_)
  · refine encDrain_keeps (sub hw rfl) ?_
    refine wr_keeps ?_
    refine encFill_keeps (sub hw rfl) ?_
    exact h
  · exact h

theorem flitOut_keeps {s p b} (hw : μ ||| 137438953472 = μ) (h : Keeps μ s0 s) : Keeps μ s0 (flitOut s p b) := by
  unfold flitOut
  refine upd_glOut (sub hw rfl) ?_
  exact h

theorem sendIdle_keeps {s p nak} (hw : μ ||| 206158430208 = μ) (h : Keeps μ s0 s) : Keeps μ s0 (sendIdle s p nak) := by
  unfold sendIdle
  extract_lets x0 x1
  clear_value x0
  clear_value x1
  refine setGl_keeps (sub hw rfl) ?_
  refine flitOut_keeps (sub hw rfl) ?_
  exact h

theorem flitBad_keeps {s p} (hw : μ ||| 206158430208 = μ) (h : Keeps μ s0 s) : Keeps μ s0 (flitBad s p) := by
  unfold flitBad
  refine ite_intro (P := Keeps μ s0) (fun _ => ?_) (fun _ => ?_)
  · exact h
  · refine sendIdle_keeps (sub hw rfl) ?_
    exact h

theorem setCredit_keeps {s p cls n} (hw : μ ||| 68719476736 = μ) (h : Keeps μ s0 s) : Keeps μ s0 (setCredit s p cls n) := by
  unfold setCredit
  extract_lets x0
  clear_value x0
  refine setGl_keeps (sub hw rfl) ?_
  exact h

theorem takeCredit_keeps {s p w} (hw : μ ||| 68719476736 = μ) (h : Keeps μ s0 s) : Keeps μ s0 (takeCredit s p w) := by
  unfold takeCredit
  refine ite_intro (P := Keeps μ s0) (fun _ => ?_) (fun _ => ?_)
  · refine setCredit_keeps (sub hw rfl) ?_
    exact h
  · exact h

theorem incsDue_keeps {s} (hw : μ ||| 70368744177924 = μ) (h : Keeps μ s0 s) : Keeps μ s0 (incsDue s) := by
  unfold incsDue
  extract_lets x0
  clear_value x0
  refine foldl_intro (P := Keeps μ s0) ?_ ?_
  · refine upd_heldIncs (sub hw rfl) ?_
    exact h
  · intro x1 x2 h3
    refine pegInc_keeps (sub hw rfl) ?_
    exact h3

theorem writesEnd_keeps {s ids st} (hw : μ ||| 87960930222348 = μ) (h : Keeps μ s0 s) : Keeps μ s0 (writesEnd s ids st) := by
  unfold writesEnd
  extract_lets x0 x1 x2
  clear_value x0
  have h3 : Keeps μ s0 x1 := by
    unfold x1
    refine upd_outWrites_heldIncs (sub hw rfl) ?_
    exact h
  clear_value x1
  clear_value x2
  refine incsDue_keeps (sub hw rfl) ?_
  refine foldl_intro (P := Keeps μ s0) ?_ ?_
  · exact h3
  · intro x4 x5 h6
    refine podComplete_keeps (sub hw rfl) ?_
    exact h6

theorem takeAck_keeps {s p ack} (hw : μ ||| 88029649699084 = μ) (h : Keeps μ s0 s) : Keeps μ s0 (takeAck s p ack) := by
  unfold takeAck
  extract_lets x0 x1 x2 x3
  clear_value x0
  clear_value x1
  clear_value x2
  have h4 : Keeps μ s0 x3 := by
    unfold x3
    refine setGl_keeps (sub hw rfl) ?_
    exact h
  clear_value x3
  refine ite_intro (P := Keeps μ s0) (fun _ => ?_) (fun _ => ?_)
  · refine writesEnd_keeps (sub hw rfl) ?_
    exact h4
  · exact h

theorem takeNodeState_keeps {s p node} (h : Keeps μ s0 s) : Keeps μ s0 (takeNodeState s p node) := by
  unfold takeNodeState
  refine ite_intro (P := Keeps μ s0) (fun _ => ?_) (fun _ => ?_)
  · exact h
  · refine raise_keeps ?_
    refine wrF_keeps ?_
    exact h

theorem replayFlits_keeps {s p} (hw : μ ||| 206158430208 = μ) (h : Keeps μ s0 s) : Keeps μ s0 (replayFlits s p) := by
  unfold replayFlits
  extract_lets x0 x1 x2
  clear_value x0
  have h3 : Keeps μ s0 x1 := by
    unfold x1
    refine bump_keeps ?_
    exact h
  clear_value x1
  have h4 : Keeps μ s0 x2 := by
    unfold x2
    refine setGl_keeps (sub hw rfl) ?_
    exact h3
  clear_value x2
  refine ite_intro (P := Keeps μ s0) (fun _ => ?_) (fun _ => ?_)
  · exact h
  · refine foldl_intro (P := Keeps μ s0) ?_ ?_
    · exact h4
    · intro x5 x6 h7
      refine flitOut_keeps (sub hw rfl) ?_
      exact h7

theorem takeHeader_keeps {s p b} (hw : μ ||| 88167088652556 = μ) (h : Keeps μ s0 s) : Keeps μ s0 (takeHeader s p b) := by
  unfold takeHeader
  extract_lets x0
  have h1 : Keeps μ s0 x0 := by
    unfold x0
    refine takeAck_keeps (sub hw rfl) ?_
    refine takeNodeState_keeps ?_
    exact h
  clear_value x0
  refine ite_intro (P := Keeps μ s0) (fun _ => ?_) (fun _ => ?_)
  · refine replayFlits_keeps (sub hw rfl) ?_
    exact h1
  · exact h1

theorem glDown_keeps {s p status flags jobs} (hw : μ ||| 88304661823756 = μ) (h : Keeps μ s0 s) : Keeps μ s0 (glDown s p status flags jobs) := by
  unfold glDown
  refine ite_intro (P := Keeps μ s0) (fun _ => ?_) (fun _ => ?_)
  · exact h
  · extract_lets x0 x1 x2 x3 x4
    have h5 : Keeps μ s0 (x0).2 := by
      unfold x0
      refine linkTag_keeps (sub hw rfl) ?_
      exact h
    clear_value x0
    have h6 : Keeps μ s0 x1 := by
      unfold x1
      refine wrF_keeps ?_
      refine wr_keeps ?_
      exact h5
    clear_value x1
    clear_value x2
    have h7 : Keeps μ s0 x3 := by
      unfold x3
      refine setGl_keeps (sub hw rfl) ?_
      exact h6
    clear_value x3
    have h8 : Keeps μ s0 x4 := by
      unfold x4
      refine report_keeps (sub hw rfl) ?_
      refine raise_keeps ?_
      exact h7
    clear_value x4
    refine writesEnd_keeps (sub hw rfl) ?_
    refine tagJobs_keeps (sub hw rfl) ?_
    exact h8

theorem forwardPacket_keeps {s p k} (hw : μ ||| 68719476992 = μ) (h : Keeps μ s0 s) : Keeps μ s0 (forwardPacket s p k) := by
  unfold forwardPacket
  refine ite_intro (P := Keeps μ s0) (fun _ => ?_) (fun _ => ?_)
  · exact h
  · refine ite_intro (P := Keeps μ s0) (fun _ => ?_) (fun _ => ?_)
    · refine report_keeps (sub hw rfl) ?_
      refine raise_keeps ?_
      exact h
    · split
      · rename_i y0 y1 y2 y3 e4
        refine queuePacket_keeps (sub hw rfl) ?_
        exact h
      · rename_i y5 y6 y7 e8
        exact h

theorem oweSlots_keeps {s p cls n} (hw : μ ||| 68719476736 = μ) (h : Keeps μ s0 s) : Keeps μ s0 (oweSlots s p cls n) := by
  unfold oweSlots
  extract_lets x0
  clear_value x0
  refine setGl_keeps (sub hw rfl) ?_
  exact h

theorem packetArrive_keeps {s p k crc} (hw : μ ||| 68719476992 = μ) (h : Keeps μ s0 s) : Keeps μ s0 (packetArrive s p k crc) := by
  unfold packetArrive
  refine ite_intro (P := Keeps μ s0) (fun _ => ?_) (fun _ => ?_)
  · refine forwardPacket_keeps (sub hw rfl) ?_
    refine oweSlots_keeps (sub hw rfl) ?_
    exact h
  · refine ite_intro (P := Keeps μ s0) (fun _ => ?_) (fun _ => ?_)
    · refine report_keeps (sub hw rfl) ?_
      refine raise_keeps ?_
      refine bumpSat_keeps ?_
      refine oweSlots_keeps (sub hw rfl) ?_
      exact h
    · extract_lets x0
      clear_value x0
      refine setGl_keeps (sub hw rfl) ?_
      exact h

theorem takePackets_keeps {v0 v1 v2} (hw : μ ||| 68719476992 = μ) (h : Keeps μ s0 v1) : Keeps μ s0 (takePackets v0 v1 v2) := by
  induction v0 generalizing v1 v2
  · unfold takePackets
    exact h
  · rename_i y15 y16
    unfold takePackets
    extract_lets x17 x18 x19 x20 x21 x22 x23
    clear_value x17
    clear_value x18
    clear_value x19
    clear_value x20
    clear_value x21
    clear_value x22
    have h24 : Keeps μ s0 x23 := by
      unfold x23
      refine setGl_keeps (sub hw rfl) ?_
      exact h
    clear_value x23
    refine ite_intro (P := Keeps μ s0) (fun _ => ?_) (fun _ => ?_)
    · exact h
    · refine ite_intro (P := Keeps μ s0) (fun _ => ?_) (fun _ => ?_)
      · refine y16 ?_
        refine setGl_keeps (sub hw rfl) ?_
        exact h
      · refine ite_intro (P := Keeps μ s0) (fun _ => ?_) (fun _ => ?_)
        · exact h
        · refine y16 ?_
          refine packetArrive_keeps (sub hw rfl) ?_
          exact h24

theorem takeData_keeps {s p b jobs} (hw : μ ||| 88442100777228 = μ) (h : Keeps μ s0 s) : Keeps μ s0 (takeData s p b jobs) := by
  unfold takeData
  extract_lets x0 x1 x2 x3 x4 x5 x6
  clear_value x0
  clear_value x1
  clear_value x2
  clear_value x3
  clear_value x4
  have h7 : Keeps μ s0 x5 := by
    unfold x5
    refine setGl_keeps (sub hw rfl) ?_
    exact h
  clear_value x5
  have h8 : Keeps μ s0 x6 := by
    unfold x6
    refine takeCredit_keeps (sub hw rfl) ?_
    refine takeHeader_keeps (sub hw rfl) ?_
    exact h7
  clear_value x6
  refine ite_intro (P := Keeps μ s0) (fun _ => ?_) (fun _ => ?_)
  · refine glDown_keeps (sub hw rfl) ?_
    exact h
  · refine sendIdle_keeps (sub hw rfl) ?_
    refine takePackets_keeps (sub hw rfl) ?_
    exact h8

theorem flitReceive_keeps {s p b bad jobs} (hw : μ ||| 88442100777228 = μ) (h : Keeps μ s0 s) : Keeps μ s0 (flitReceive s p b bad jobs) := by
  unfold flitReceive
  refine ite_intro (P := Keeps μ s0) (fun _ => ?_) (fun _ => ?_)
  · exact h
  · refine ite_intro (P := Keeps μ s0) (fun _ => ?_) (fun _ => ?_)
    · refine flitBad_keeps (sub hw rfl) ?_
      exact h
    · extract_lets x0 x1 x2
      clear_value x0
      clear_value x1
      clear_value x2
      refine ite_intro (P := Keeps μ s0) (fun _ => ?_) (fun _ => ?_)
      · refine takeCredit_keeps (sub hw rfl) ?_
        refine takeHeader_keeps (sub hw rfl) ?_
        exact h
      · refine ite_intro (P := Keeps μ s0) (fun _ => ?_) (fun _ => ?_)
        · exact h
        · refine ite_intro (P := Keeps μ s0) (fun _ => ?_) (fun _ => ?_)
          · refine takeData_keeps (sub hw rfl) ?_
            exact h
          · refine ite_intro (P := Keeps μ s0) (fun _ => ?_) (fun _ => ?_)
            · exact h
            · refine ite_intro (P := Keeps μ s0) (fun _ => ?_) (fun _ => ?_)
              · refine sendIdle_keeps (sub hw rfl) ?_
                refine takeHeader_keeps (sub hw rfl) ?_
                exact h
              · refine flitBad_keeps (sub hw rfl) ?_
                exact h

theorem glRefuse_keeps {s p status flags} (hw : μ ||| 256 = μ) (h : Keeps μ s0 s) : Keeps μ s0 (glRefuse s p status flags) := by
  unfold glRefuse
  refine levelReport_keeps (sub hw rfl) ?_
  refine ite_intro (P := Keeps μ s0) (fun _ => ?_) (fun _ => ?_)
  · exact h
  · refine raise_keeps ?_
    exact h

theorem linkKey_keeps {s t} (h : Keeps μ s0 s) : Keeps μ s0 (linkKey s t).2 := by
  unfold linkKey
  extract_lets x0 x1 x2 x3
  have h4 : Keeps μ s0 (x0).2 := by
    unfold x0
    refine drawFree_keeps ?_
    exact h
  clear_value x0
  clear_value x1
  clear_value x2
  clear_value x3
  refine ite2_keeps (fun _ => ?_) (fun _ => ?_)
  · refine mk2_keeps ?_
    exact h4
  · refine mk2_keeps ?_
    exact h4

theorem trainingDone_keeps {s p t} (hw : μ ||| 68719476992 = μ) (h : Keeps μ s0 s) : Keeps μ s0 (trainingDone s p t) := by
  unfold trainingDone
  extract_lets x0 x1 x2 x3 x4 x5 x6 x7
  clear_value x0
  clear_value x1
  have h8 : Keeps μ s0 x2 := by
    unfold x2
    refine wrF_keeps ?_
    exact h
  clear_value x2
  have h9 : Keeps μ s0 (x3).2 := by
    unfold x3
    refine linkKey_keeps ?_
    exact h8
  clear_value x3
  have h10 : Keeps μ s0 x4 := by
    unfold x4
    refine wrF_keeps ?_
    refine wrF_keeps ?_
    exact h9
  clear_value x4
  clear_value x5
  clear_value x6
  have h11 : Keeps μ s0 x7 := by
    unfold x7
    refine setGl_keeps (sub hw rfl) ?_
    exact h10
  clear_value x7
  refine ite_intro (P := Keeps μ s0) (fun _ => ?_) (fun _ => ?_)
  · exact h
  · refine ite_intro (P := Keeps μ s0) (fun _ => ?_) (fun _ => ?_)
    · refine glRefuse_keeps (sub hw rfl) ?_
      exact h8
    · refine ite_intro (P := Keeps μ s0) (fun _ => ?_) (fun _ => ?_)
      · refine glRefuse_keeps (sub hw rfl) ?_
        exact h8
      · refine ite_intro (P := Keeps μ s0) (fun _ => ?_) (fun _ => ?_)
        · refine glRefuse_keeps (sub hw rfl) ?_
          exact h8
        · refine ite_intro (P := Keeps μ s0) (fun _ => ?_) (fun _ => ?_)
          · refine glRefuse_keeps (sub hw rfl) ?_
            exact h8
          · refine closeMerge_keeps (sub hw rfl) ?_
            refine levelClear_keeps (sub hw rfl) ?_
            exact h11

theorem expirePacket_keeps {s p k} (hw : μ ||| 256 = μ) (h : Keeps μ s0 s) : Keeps μ s0 (expirePacket s p k) := by
  unfold expirePacket
  refine report_keeps (sub hw rfl) ?_
  refine raise_keeps ?_
  refine bumpSat_keeps ?_
  exact h

theorem stampPacket_keeps {s p k} (hw : μ ||| 68719476736 = μ) (h : Keeps μ s0 s) : Keeps μ s0 (stampPacket s p k).2 := by
  unfold stampPacket
  refine ite2_keeps (fun _ => ?_) (fun _ => ?_)
  · refine mk2_keeps ?_
    exact h
  · refine ite2_keeps (fun _ => ?_) (fun _ => ?_)
    · refine mk2_keeps ?_
      refine setGl_keeps (sub hw rfl) ?_
      exact h
    · refine ite2_keeps (fun _ => ?_) (fun _ => ?_)
      · refine mk2_keeps ?_
        refine setGl_keeps (sub hw rfl) ?_
        exact h
      · refine ite2_keeps (fun _ => ?_) (fun _ => ?_)
        · refine mk2_keeps ?_
          exact h
        · refine mk2_keeps ?_
          exact h

theorem sendData_keeps {s p payload} (hw : μ ||| 206158430208 = μ) (h : Keeps μ s0 s) : Keeps μ s0 (sendData s p payload) := by
  unfold sendData
  extract_lets x0 x1
  clear_value x0
  clear_value x1
  refine setGl_keeps (sub hw rfl) ?_
  refine flitOut_keeps (sub hw rfl) ?_
  exact h

theorem sendPacketFlits_keeps {s p b} (hw : μ ||| 206158430208 = μ) (h : Keeps μ s0 s) : Keeps μ s0 (sendPacketFlits s p b) := by
  unfold sendPacketFlits
  refine foldl_intro (P := Keeps μ s0) ?_ ?_
  · exact h
  · intro x0 x1 h2
    refine sendData_keeps (sub hw rfl) ?_
    exact h2

theorem packetSend_keeps {s p} (hw : μ ||| 206158430464 = μ) (h : Keeps μ s0 s) : Keeps μ s0 (packetSend s p) := by
  unfold packetSend
  extract_lets x0
  clear_value x0
  split
  · rename_i y1 e2
    exact h
  · rename_i y3 y4 e5
    extract_lets x6 x7 x8 x9 x10 x11
    clear_value x6
    have h12 : Keeps μ s0 x7 := by
      unfold x7
      refine setGl_keeps (sub hw rfl) ?_
      exact h
    clear_value x7
    have h13 : Keeps μ s0 (x8).2 := by
      unfold x8
      refine stampPacket_keeps (sub hw rfl) ?_
      exact h12
    clear_value x8
    have h14 : Keeps μ s0 x9 := by
      unfold x9
      refine setCredit_keeps (sub hw rfl) ?_
      exact h13
    clear_value x9
    have h15 : Keeps μ s0 x10 := by
      unfold x10
      refine sendPacketFlits_keeps (sub hw rfl) ?_
      exact h14
    clear_value x10
    clear_value x11
    refine ite_intro (P := Keeps μ s0) (fun _ => ?_) (fun _ => ?_)
    · exact h
    · refine ite_intro (P := Keeps μ s0) (fun _ => ?_) (fun _ => ?_)
      · refine expirePacket_keeps (sub hw rfl) ?_
        exact h12
      · refine ite_intro (P := Keeps μ s0) (fun _ => ?_) (fun _ => ?_)
        · exact h15
        · refine setGl_keeps (sub hw rfl) ?_
          exact h15

theorem takePacket_keeps {s p kind} (hw : μ ||| 68719476736 = μ) (h : Keeps μ s0 s) : ∀ r, takePacket s p kind = some r → Keeps μ s0 r.2 := by
  unfold takePacket
  extract_lets x2
  clear_value x2
  split
  · rename_i y5 y6 y7 e8
    refine iteO2_keeps (fun _ => ?_) (fun _ => ?_)
    · refine some_keeps ?_
      refine mk2_keeps ?_
      refine oweSlots_keeps (sub hw rfl) ?_
      refine setGl_keeps (sub hw rfl) ?_
      exact h
    · exact none_keeps
  · rename_i y15 e16
    exact none_keeps

theorem deliver_keeps {s p kind f} (hw : μ ||| 68719476992 = μ) (h : Keeps μ s0 s) (hf4 : ∀ a0 a1, Keeps μ s0 a0 → Keeps μ s0 (f a0 a1)) : Keeps μ s0 (deliver s p kind f) := by
  unfold deliver
  split
  · rename_i y0 y1 y2 e3
    have h4 : Keeps μ s0 y2 := by
      refine ofSome2 e3 ?_
      refine takePacket_keeps (sub hw rfl) ?_
      exact h
    refine ite_intro (P := Keeps μ s0) (fun _ => ?_) (fun _ => ?_)
    · refine expirePacket_keeps (sub hw rfl) ?_
      exact h4
    · refine hf4 _ _ ?_
      exact h4
  · rename_i y7 e8
    exact h

theorem packetWrite_keeps {p rrLost s k} (hw : μ ||| 496908948734015340 = μ) (h : Keeps μ s0 s) : Keeps μ s0 (packetWrite p rrLost s k) := by
  unfold packetWrite
  split
  · rename_i y0 y1 e2
    have h3 : Keeps μ s0 y1 := by
      refine of2 e2 ?_
      refine busWrite_keeps (sub hw rfl) ?_
      exact h
    extract_lets x4 x5
    have h6 : Keeps μ s0 x4 := by
      unfold x4
      refine recordWrite_keeps (sub hw rfl) ?_
      exact h3
    clear_value x4
    clear_value x5
    refine pegInc_keeps (sub hw rfl) ?_
    exact h6
  · rename_i y7 y8 y9 e10 e11
    have h12 : Keeps μ s0 y9 := by
      refine of2 e11 ?_
      refine busWrite_keeps (sub hw rfl) ?_
      exact h
    exact h12

theorem packetRead_keeps {s k} (hw : μ ||| 111669150016 = μ) (h : Keeps μ s0 s) : Keeps μ s0 (packetRead s k) := by
  unfold packetRead
  split
  rename_i y0 y1 y2 y3 e4
  have h5 : Keeps μ s0 y3 := by
    refine of3 e4 ?_
    refine busRead_keeps (sub hw rfl) ?_
    exact h
  refine sendPacket_keeps (sub hw rfl) ?_
  exact h5

theorem packetCompletion_keeps {s k} (hw : μ ||| 13194139533312 = μ) (h : Keeps μ s0 s) : Keeps μ s0 (packetCompletion s k) := by
  unfold packetCompletion
  split
  · rename_i y0 e1
    exact h
  · rename_i y2 y3 e4
    extract_lets x5
    have h6 : Keeps μ s0 x5 := by
      unfold x5
      refine upd_remote (sub hw rfl) ?_
      exact h
    clear_value x5
    refine ite_intro (P := Keeps μ s0) (fun _ => ?_) (fun _ => ?_)
    · refine hostReply_keeps (sub hw rfl) ?_
      exact h6
    · refine hostRefused_keeps (sub hw rfl) ?_
      exact h6

theorem packetPod_keeps {p s k} (hw : μ ||| 140806207832064 = μ) (h : Keeps μ s0 s) : Keeps μ s0 (packetPod p s k) := by
  unfold packetPod
  extract_lets x0 x1 x2 x3 x4 x5 x6 x7 x8
  clear_value x0
  clear_value x1
  clear_value x2
  clear_value x3
  clear_value x4
  have h9 : Keeps μ s0 x5 := by
    unfold x5
    refine ite_intro (P := Keeps μ s0) (fun _ => ?_) (fun _ => ?_)
    · refine raise_keeps ?_
      refine bumpSat_keeps ?_
      exact h
    · exact h
  clear_value x5
  clear_value x6
  clear_value x7
  have h10 : Keeps μ s0 x8 := by
    unfold x8
    refine setGl_keeps (sub hw rfl) ?_
    exact h9
  clear_value x8
  refine ite_intro (P := Keeps μ s0) (fun _ => ?_) (fun _ => ?_)
  · refine setGl_keeps (sub hw rfl) ?_
    exact h9
  · refine ite_intro (P := Keeps μ s0) (fun _ => ?_) (fun _ => ?_)
    · refine upd_podsIn (sub hw rfl) ?_
      exact h10
    · refine setGl_keeps (sub hw rfl) ?_
      exact h9

theorem timeMessage_keeps {s p kind v} (hw : μ ||| 68719476736 = μ) (h : Keeps μ s0 s) : Keeps μ s0 (timeMessage s p kind v) := by
  unfold timeMessage
  refine queuePacket_keeps (sub hw rfl) ?_
  exact h

theorem syncArrive_keeps {p s k} (hw : μ ||| 618475290624 = μ) (h : Keeps μ s0 s) : Keeps μ s0 (syncArrive p s k) := by
  unfold syncArrive
  refine ite_intro (P := Keeps μ s0) (fun _ => ?_) (fun _ => ?_)
  · extract_lets x0 x1 x2
    clear_value x0
    have h3 : Keeps μ s0 x1 := by
      unfold x1
      refine setGl_keeps (sub hw rfl) ?_
      exact h
    clear_value x1
    clear_value x2
    refine timeMessage_keeps (sub hw rfl) ?_
    refine upd_time (sub hw rfl) ?_
    exact h3
  · exact h

theorem delayReqArrive_keeps {p s v2} (hw : μ ||| 68719476736 = μ) (h : Keeps μ s0 s) : Keeps μ s0 (delayReqArrive p s v2) := by
  unfold delayReqArrive
  refine timeMessage_keeps (sub hw rfl) ?_
  exact h

theorem ridgeUnlock_keeps {s} (hw : μ ||| 549755814144 = μ) (h : Keeps μ s0 s) : Keeps μ s0 (ridgeUnlock s) := by
  unfold ridgeUnlock
  extract_lets x0 x1
  clear_value x0
  have h2 : Keeps μ s0 x1 := by
    unfold x1
    refine wrF_keeps ?_
    refine upd_time (sub hw rfl) ?_
    exact h
  clear_value x1
  refine levelReport_keeps (sub hw rfl) ?_
  refine raise_keeps ?_
  exact h2

theorem correctRidge_keeps {s off} (hw : μ ||| 549755813890 = μ) (h : Keeps μ s0 s) : Keeps μ s0 (correctRidge s off) := by
  unfold correctRidge
  refine ite_intro (P := Keeps μ s0) (fun _ => ?_) (fun _ => ?_)
  · refine upd_ridge_time (sub hw rfl) ?_
    exact h
  · refine upd_time (sub hw rfl) ?_
    exact h

theorem ridgeLock_keeps {s epoch} (hw : μ ||| 549755814144 = μ) (h : Keeps μ s0 s) : Keeps μ s0 (ridgeLock s epoch) := by
  unfold ridgeLock
  extract_lets x0 x1
  have h2 : Keeps μ s0 x0 := by
    unfold x0
    refine levelClear_keeps (sub hw rfl) ?_
    refine wrF_keeps ?_
    exact h
  clear_value x0
  clear_value x1
  refine ite_intro (P := Keeps μ s0) (fun _ => ?_) (fun _ => ?_)
  · exact h2
  · refine wrF_keeps ?_
    refine wr_keeps ?_
    refine wr_keeps ?_
    refine upd_time (sub hw rfl) ?_
    exact h2

theorem exchangeDone_keeps {s off v2 epoch} (hw : μ ||| 549755814146 = μ) (h : Keeps μ s0 s) : Keeps μ s0 (exchangeDone s off v2 epoch) := by
  unfold exchangeDone
  extract_lets x0 x1 x2 x3 x4 x5
  have h6 : Keeps μ s0 x0 := by
    unfold x0
    refine wr_keeps ?_
    exact h
  clear_value x0
  clear_value x1
  clear_value x2
  clear_value x3
  have h7 : Keeps μ s0 x4 := by
    unfold x4
    refine upd_time (sub hw rfl) ?_
    exact h6
  clear_value x4
  have h8 : Keeps μ s0 x5 := by
    unfold x5
    refine correctRidge_keeps (sub hw rfl) ?_
    exact h7
  clear_value x5
  refine ite_intro (P := Keeps μ s0) (fun _ => ?_) (fun _ => ?_)
  · refine ridgeUnlock_keeps (sub hw rfl) ?_
    exact h7
  · refine ite_intro (P := Keeps μ s0) (fun _ => ?_) (fun _ => ?_)
    · refine ridgeLock_keeps (sub hw rfl) ?_
      exact h8
    · exact h8

theorem delayRespArrive_keeps {p v1 epoch s k} (hw : μ ||| 618475290882 = μ) (h : Keeps μ s0 s) : Keeps μ s0 (delayRespArrive p v1 epoch s k) := by
  unfold delayRespArrive
  extract_lets x0
  clear_value x0
  split
  · rename_i y1 y2 y3 y4 y5 y6 e7 e8 e9
    refine ite_intro (P := Keeps μ s0) (fun _ => ?_) (fun _ => ?_)
    · extract_lets x10
      clear_value x10
      refine exchangeDone_keeps (sub hw rfl) ?_
      refine setGl_keeps (sub hw rfl) ?_
      exact h
    · exact h
  · rename_i y11 y12 y13 e14
    exact h

theorem syncInterval_keeps {s p} (hw : μ ||| 68719476736 = μ) (h : Keeps μ s0 s) : Keeps μ s0 (syncInterval s p) := by
  unfold syncInterval
  extract_lets x0
  clear_value x0
  refine ite_intro (P := Keeps μ s0) (fun _ => ?_) (fun _ => ?_)
  · refine timeMessage_keeps (sub hw rfl) ?_
    exact h
  · exact h

theorem syncTimeout_keeps {s} (hw : μ ||| 549755814144 = μ) (h : Keeps μ s0 s) : Keeps μ s0 (syncTimeout s) := by
  unfold syncTimeout
  refine ite_intro (P := Keeps μ s0) (fun _ => ?_) (fun _ => ?_)
  · refine ridgeUnlock_keeps (sub hw rfl) ?_
    exact h
  · exact h

theorem routeFailover_keeps {s p} (hw : μ ||| 68719476736 = μ) (h : Keeps μ s0 s) : Keeps μ s0 (routeFailover s p) := by
  unfold routeFailover
  extract_lets x0 x1 x2 x3 x4
  clear_value x0
  clear_value x1
  have h5 : Keeps μ s0 x2 := by
    unfold x2
    refine setGl_keeps (sub hw rfl) ?_
    exact h
  clear_value x2
  clear_value x3
  have h6 : Keeps μ s0 x4 := by
    unfold x4
    refine foldl_intro (P := Keeps μ s0) ?_ ?_
    · exact h5
    · intro x7 x8 h9
      refine wrF_keeps ?_
      exact h9
  clear_value x4
  refine ite_intro (P := Keeps μ s0) (fun _ => ?_) (fun _ => ?_)
  · exact h
  · refine ite_intro (P := Keeps μ s0) (fun _ => ?_) (fun _ => ?_)
    · exact h5
    · refine bumpSat_keeps ?_
      refine wrF_keeps ?_
      exact h6

theorem routeRestore_keeps {s p} (hw : μ ||| 68719476736 = μ) (h : Keeps μ s0 s) : Keeps μ s0 (routeRestore s p) := by
  unfold routeRestore
  extract_lets x0 x1 x2 x3
  clear_value x0
  clear_value x1
  have h4 : Keeps μ s0 x2 := by
    unfold x2
    refine setGl_keeps (sub hw rfl) ?_
    exact h
  clear_value x2
  clear_value x3
  refine ite_intro (P := Keeps μ s0) (fun _ => ?_) (fun _ => ?_)
  · exact h
  · refine wrF_keeps ?_
    refine foldl_intro (P := Keeps μ s0) ?_ ?_
    · exact h4
    · intro x5 x6 h7
      refine wrF_keeps ?_
      exact h7

theorem setLight_keeps {s lane on} (h : Keeps μ s0 s) : Keeps μ s0 (setLight s lane on) := by
  unfold setLight
  extract_lets x0 x1
  have h2 : Keeps μ s0 x0 := by
    unfold x0
    refine wrF_keeps ?_
    exact h
  clear_value x0
  clear_value x1
  refine ite_intro (P := Keeps μ s0) (fun _ => ?_) (fun _ => ?_)
  · refine wrF_keeps ?_
    exact h2
  · exact h2

theorem setLanes_keeps {s g x} (hw : μ ||| 1099511627776 = μ) (h : Keeps μ s0 s) : Keeps μ s0 (setLanes s g x) := by
  unfold setLanes
  extract_lets x0
  have h1 : Keeps μ s0 x0 := by
    unfold x0
    refine upd_lanes (sub hw rfl) ?_
    exact h
  clear_value x0
  refine wrF_keeps ?_
  exact h1

theorem mgtDown_keeps {s} (hw : μ ||| 8192 = μ) (h : Keeps μ s0 s) : Keeps μ s0 (mgtDown s) := by
  unfold mgtDown
  refine ite_intro (P := Keeps μ s0) (fun _ => ?_) (fun _ => ?_)
  · exact h
  · refine raise_keeps ?_
    refine setSec_keeps (sub hw rfl) ?_
    refine wrF_keeps ?_
    exact h

theorem groupDown_keeps {s g cause jobs} (hw : μ ||| 99299778113804 = μ) (h : Keeps μ s0 s) : Keeps μ s0 (groupDown s g cause jobs) := by
  unfold groupDown
  refine ite_intro (P := Keeps μ s0) (fun _ => ?_) (fun _ => ?_)
  · refine sensorDown_keeps (sub hw rfl) ?_
    exact h
  · refine ite_intro (P := Keeps μ s0) (fun _ => ?_) (fun _ => ?_)
    · refine glDown_keeps (sub hw rfl) ?_
      exact h
    · refine ite_intro (P := Keeps μ s0) (fun _ => ?_) (fun _ => ?_)
      · refine hostDown_keeps (sub hw rfl) ?_
        exact h
      · refine mgtDown_keeps (sub hw rfl) ?_
        exact h

theorem shutDown_keeps {s g jobs} (hw : μ ||| 100399289741580 = μ) (h : Keeps μ s0 s) : Keeps μ s0 (shutDown s g jobs) := by
  unfold shutDown
  extract_lets x0 x1 x2 x3
  clear_value x0
  have h4 : Keeps μ s0 x1 := by
    unfold x1
    refine setLanes_keeps (sub hw rfl) ?_
    exact h
  clear_value x1
  have h5 : Keeps μ s0 x2 := by
    unfold x2
    refine foldl_intro (P := Keeps μ s0) ?_ ?_
    · exact h4
    · intro x6 x7 h8
      refine wrF_keeps ?_
      exact h8
  clear_value x2
  have h9 : Keeps μ s0 x3 := by
    unfold x3
    refine groupDown_keeps (sub hw rfl) ?_
    refine raise_keeps ?_
    exact h5
  clear_value x3
  refine ite_intro (P := Keeps μ s0) (fun _ => ?_) (fun _ => ?_)
  · refine wrF_keeps ?_
    exact h9
  · exact h9

theorem openFibre_keeps {s lane jobs} (hw : μ ||| 100399289741580 = μ) (h : Keeps μ s0 s) : Keeps μ s0 (openFibre s lane jobs) := by
  unfold openFibre
  split
  · rename_i y0 e1
    exact h
  · rename_i y2 y3 e4
    extract_lets x5
    have h6 : Keeps μ s0 x5 := by
      unfold x5
      refine setLight_keeps ?_
      exact h
    clear_value x5
    refine ite_intro (P := Keeps μ s0) (fun _ => ?_) (fun _ => ?_)
    · exact h6
    · refine shutDown_keeps (sub hw rfl) ?_
      exact h6

theorem lightReceived_keeps {s lane} (hw : μ ||| 1099511627776 = μ) (h : Keeps μ s0 s) : Keeps μ s0 (lightReceived s lane) := by
  unfold lightReceived
  split
  · rename_i y0 e1
    exact h
  · rename_i y2 y3 e4
    extract_lets x5 x6 x7
    have h8 : Keeps μ s0 x5 := by
      unfold x5
      refine setLight_keeps ?_
      exact h
    clear_value x5
    have h9 : Keeps μ s0 x6 := by
      unfold x6
      refine foldl_intro (P := Keeps μ s0) ?_ ?_
      · refine setLanes_keeps (sub hw rfl) ?_
        exact h8
      · intro x10 x11 h12
        refine wrF_keeps ?_
        exact h12
    clear_value x6
    have h13 : Keeps μ s0 x7 := by
      unfold x7
      refine ite_intro (P := Keeps μ s0) (fun _ => ?_) (fun _ => ?_)
      · refine wrF_keeps ?_
        exact h9
      · exact h9
    clear_value x7
    refine ite_intro (P := Keeps μ s0) (fun _ => ?_) (fun _ => ?_)
    · refine raise_keeps ?_
      exact h13
    · exact h8

theorem probeStart_keeps {s g} (hw : μ ||| 1099511627776 = μ) (h : Keeps μ s0 s) : Keeps μ s0 (probeStart s g) := by
  unfold probeStart
  extract_lets x0
  clear_value x0
  split
  · rename_i y1 e2
    exact h
  · rename_i y3 y4 e5
    refine ite_intro (P := Keeps μ s0) (fun _ => ?_) (fun _ => ?_)
    · refine setLanes_keeps (sub hw rfl) ?_
      exact h
    · exact h

theorem probeEnd_keeps {s g} (hw : μ ||| 1099511627776 = μ) (h : Keeps μ s0 s) : Keeps μ s0 (probeEnd s g) := by
  unfold probeEnd
  extract_lets x0
  clear_value x0
  split
  · rename_i y1 y2 e3
    refine ite_intro (P := Keeps μ s0) (fun _ => ?_) (fun _ => ?_)
    · refine setLanes_keeps (sub hw rfl) ?_
      exact h
    · exact h
  · rename_i y4 e5
    exact h

theorem laserFault_keeps {s lane jobs} (hw : μ ||| 99299778113804 = μ) (h : Keeps μ s0 s) : Keeps μ s0 (laserFault s lane jobs) := by
  unfold laserFault
  refine ite_intro (P := Keeps μ s0) (fun _ => ?_) (fun _ => ?_)
  · exact h
  · extract_lets x0 x1
    have h2 : Keeps μ s0 x0 := by
      unfold x0
      refine wrF_keeps ?_
      refine wrF_keeps ?_
      exact h
    clear_value x0
    have h3 : Keeps μ s0 x1 := by
      unfold x1
      refine raise_keeps ?_
      exact h2
    clear_value x1
    split
    · rename_i y4 y5 y6 e7
      refine ite_intro (P := Keeps μ s0) (fun _ => ?_) (fun _ => ?_)
      · refine report_keeps (sub hw rfl) ?_
        exact h3
      · refine groupDown_keeps (sub hw rfl) ?_
        exact h3
    · rename_i y8 y9 e10
      refine wrF_keeps ?_
      exact h3

theorem startShake_keeps {f slot privs nonce s} (hw : μ ||| 281474976710656 = μ) (h : Keeps μ s0 s) : Keeps μ s0 (startShake f slot privs nonce s).2.2 := by
  unfold startShake
  extract_lets x0 x1 x2 x3 x4 x5 x6 x7
  clear_value x0
  have h8 : Keeps μ s0 (x1).2 := by
    unfold x1
    refine drawFree_keeps ?_
    exact h
  clear_value x1
  have h9 : Keeps μ s0 (x2).2 := by
    unfold x2
    refine drawFree_keeps ?_
    exact h8
  clear_value x2
  have h10 : Keeps μ s0 (x3).2 := by
    unfold x3
    refine drawFree_keeps ?_
    exact h9
  clear_value x3
  clear_value x4
  clear_value x5
  have h11 : Keeps μ s0 x6 := by
    unfold x6
    exact h10
  clear_value x6
  clear_value x7
  refine ite3_keeps (fun _ => ?_) (fun _ => ?_)
  · refine mk3_keeps ?_
    exact h
  · refine mk3_keeps ?_
    refine upd_mgt (sub hw rfl) ?_
    exact h11

theorem getObject_keeps {f obj off s} (h : Keeps μ s0 s) : Keeps μ s0 (getObject f obj off s).2.2 := by
  unfold getObject
  extract_lets x0
  have h1 : ∀ a0, Keeps μ s0 (x0 a0).2.2 := by
    intro a0
    unfold x0
    refine mk3_keeps ?_
    exact h
  clear_value x0
  refine ite3_keeps (fun _ => ?_) (fun _ => ?_)
  · refine h1 _
  · refine ite3_keeps (fun _ => ?_) (fun _ => ?_)
    · refine h1 _
    · split
      · rename_i y2 y3 y4 y5 e6
        refine ite3_keeps (fun _ => ?_) (fun _ => ?_)
        · refine h1 _
        · refine freeRefusal_keeps ?_
          exact h
      · rename_i y7 y8 y9 e10
        refine freeRefusal_keeps ?_
        exact h

theorem putObject_keeps {f n off d set s} (hw : μ ||| 281474976710656 = μ) (h : Keeps μ s0 s) : Keeps μ s0 (putObject f n off d set s).2.2 := by
  unfold putObject
  split
  · rename_i y0 y1 e2
    refine ite3_keeps (fun _ => ?_) (fun _ => ?_)
    · refine mk3_keeps ?_
      refine upd_mgt (sub hw rfl) ?_
      exact h
    · refine freeRefusal_keeps ?_
      exact h
  · rename_i y3 e4
    refine freeRefusal_keeps ?_
    exact h

theorem finishShake_keeps {f sig s} (hw : μ ||| 288511851128422400 = μ) (h : Keeps μ s0 s) : Keeps μ s0 (finishShake f sig s).2.2 := by
  unfold finishShake
  split
  · rename_i y0 e1
    refine freeRefusal_keeps ?_
    exact h
  · rename_i y2 y3 e4
    extract_lets x5 x6 x7 x8 x9 x10 x11 x12 x13 x14
    clear_value x5
    clear_value x6
    clear_value x7
    have h15 : Keeps μ s0 x8 := by
      unfold x8
      refine upd_mgt (sub hw rfl) ?_
      exact h
    clear_value x8
    clear_value x9
    clear_value x10
    clear_value x11
    clear_value x12
    have h16 : Keeps μ s0 x13 := by
      unfold x13
      refine upd_mgt_sec (sub hw rfl) ?_
      exact h15
    clear_value x13
    have h17 : Keeps μ s0 x14 := by
      unfold x14
      refine wrF_keeps ?_
      refine wrF_keeps ?_
      exact h16
    clear_value x14
    refine ite3_keeps (fun _ => ?_) (fun _ => ?_)
    · refine mk3_keeps ?_
      refine raise_keeps ?_
      exact h17
    · refine mk3_keeps ?_
      refine authFail_keeps ?_
      exact h15

theorem sessionIdle_keeps {s} (hw : μ ||| 281474976710656 = μ) (h : Keeps μ s0 s) : Keeps μ s0 (sessionIdle s) := by
  unfold sessionIdle
  split
  · rename_i y0 y1 e2
    refine ite_intro (P := Keeps μ s0) (fun _ => ?_) (fun _ => ?_)
    · refine closeSession_keeps (sub hw rfl) ?_
      exact h
    · exact h
  · rename_i y3 e4
    exact h

theorem mgtRegRead_keeps {a s} (h : Keeps μ s0 s) : Keeps μ s0 (mgtRegRead a s).2.2 := by
  unfold mgtRegRead
  refine ite3_keeps (fun _ => ?_) (fun _ => ?_)
  · refine mk3_keeps ?_
    exact h
  · refine ite3_keeps (fun _ => ?_) (fun _ => ?_)
    · refine mk2p_keeps ?_
      refine regRead_keeps ?_
      exact h
    · refine freeRefusal_keeps ?_
      exact h

theorem mgtRegWrite_keeps {a v s} (hw : μ ||| 496908948734015340 = μ) (h : Keeps μ s0 s) : Keeps μ s0 (mgtRegWrite a v s).2.2 := by
  unfold mgtRegWrite
  refine ite3_keeps (fun _ => ?_) (fun _ => ?_)
  · refine mk3_keeps ?_
    exact h
  · refine ite3_keeps (fun _ => ?_) (fun _ => ?_)
    · extract_lets x0
      clear_value x0
      refine mk3_keeps ?_
      refine regWrite_keeps (sub hw rfl) ?_
      exact h
    · refine freeRefusal_keeps ?_
      exact h

theorem mgtMemRead_keeps {a n s} (hw : μ ||| 42949673280 = μ) (h : Keeps μ s0 s) : Keeps μ s0 (mgtMemRead a n s).2.2 := by
  unfold mgtMemRead
  refine ite3_keeps (fun _ => ?_) (fun _ => ?_)
  · refine mk3_keeps ?_
    exact h
  · extract_lets x0
    have h1 : Keeps μ s0 (x0).2.2 := by
      unfold x0
      refine busRead_keeps (sub hw rfl) ?_
      exact h
    clear_value x0
    refine mk3_keeps ?_
    exact h1

theorem mgtMemWrite_keeps {a b s} (hw : μ ||| 496908948734015340 = μ) (h : Keeps μ s0 s) : Keeps μ s0 (mgtMemWrite a b s).2.2 := by
  unfold mgtMemWrite
  refine ite3_keeps (fun _ => ?_) (fun _ => ?_)
  · refine mk3_keeps ?_
    exact h
  · extract_lets x0
    have h1 : Keeps μ s0 (x0).2 := by
      unfold x0
      refine busWrite_keeps (sub hw rfl) ?_
      exact h
    clear_value x0
    refine mk3_keeps ?_
    exact h1

theorem mgtReset_keeps {s} (hw : μ ||| 64563367326577004 = μ) (h : Keeps μ s0 s) : Keeps μ s0 (mgtReset s).2.2 := by
  unfold mgtReset
  extract_lets x0 x1
  have h2 : Keeps μ s0 x0 := by
    unfold x0
    refine raise_keeps ?_
    refine forceFromHost_keeps (sub hw rfl) ?_
    exact h
  clear_value x0
  clear_value x1
  refine mk3_keeps ?_
  refine upd_mgt (sub hw rfl) ?_
  exact h2

theorem resetExecute_keeps {s} (hw : μ ||| 576460752303423487 = μ) (h : Keeps μ s0 s) : Keeps μ s0 (resetExecute s) := by
  unfold resetExecute
  split
  · rename_i y0 y1 e2
    refine ite_intro (P := Keeps μ s0) (fun _ => ?_) (fun _ => ?_)
    · refine romClocks_keeps ?_
      refine resetDevice_keeps (sub hw rfl) ?_
      exact h
    · exact h
  · rename_i y3 e4
    exact h

theorem lanternRelit_keeps {s} (hw : μ ||| 9007199254740992 = μ) (h : Keeps μ s0 s) : Keeps μ s0 (lanternRelit s) := by
  unfold lanternRelit
  refine ite_intro (P := Keeps μ s0) (fun _ => ?_) (fun _ => ?_)
  · extract_lets x0 x1
    clear_value x0
    clear_value x1
    refine upd_lantern (sub hw rfl) ?_
    exact h
  · exact h

end Sys2Proof.Laws
end

