-- ==== Sys2Proof/Laws/Keeps8.lean ====
section
/-!
SUPPORT. The functions of the model keep the queue, the fuses and the canonical memories: part 8.
-/

namespace Sys2Proof.Laws

open Sys2Proof.Machine Sys2Proof.Safety

variable {s0 : State} {α β γ δ : Type} {μ : Nat}

theorem lanternBoundary_keeps {s} (hw : μ ||| 9007199254740992 = μ) (h : Keeps μ s0 s) : Keeps μ s0 (lanternBoundary s) := by
  unfold lanternBoundary
  refine ite_intro (P := Keeps μ s0) (fun _ => ?_) (fun _ => ?_)
  · exact h
  · extract_lets x0 x1 x2 x3
    clear_value x0
    have h4 : Keeps μ s0 x1 := by
      unfold x1
      refine ite_intro (P := Keeps μ s0) (fun _ => ?_) (fun _ => ?_)
      · refine lanternRelit_keeps (sub hw rfl) ?_
        refine wrF_keeps ?_
        refine upd_lantern (sub hw rfl) ?_
        exact h
      · exact h
    clear_value x1
    clear_value x2
    clear_value x3
    refine ite_intro (P := Keeps μ s0) (fun _ => ?_) (fun _ => ?_)
    · refine wrF_keeps ?_
      refine upd_lantern (sub hw rfl) ?_
      exact h4
    · exact h4

theorem immediateWrite_keeps {s ag a v eff} (h : Keeps μ s0 s) (hf5 : ∀ a0, Keeps μ s0 a0 → Keeps μ s0 (eff a0)) : Keeps μ s0 (immediateWrite s ag a v eff) := by
  unfold immediateWrite
  refine asAgent_keeps ?_ ?_
  · exact h
  · intro x0 h1
    split
    · rename_i y2 y3 e4
      have h5 : Keeps μ s0 y3 := by
        refine of2 e4 ?_
        refine admitWrite_keeps ?_
        exact h1
      exact h5
    · rename_i y6 y7 e8
      have h9 : Keeps μ s0 y7 := by
        refine of2 e8 ?_
        refine admitWrite_keeps ?_
        exact h1
      refine hf5 _ ?_
      exact h9

theorem lanternTestEnd_keeps {s} (hw : μ ||| 9007199254740992 = μ) (h : Keeps μ s0 s) : Keeps μ s0 (lanternTestEnd s) := by
  unfold lanternTestEnd
  split
  · rename_i y0 e1
    exact h
  · rename_i y2 y3 e4
    refine ite_intro (P := Keeps μ s0) (fun _ => ?_) (fun _ => ?_)
    · exact h
    · extract_lets x5 x6
      clear_value x5
      have h7 : Keeps μ s0 x6 := by
        unfold x6
        refine wrF_keeps ?_
        refine upd_lantern (sub hw rfl) ?_
        exact h
      clear_value x6
      refine lanternsDue_keeps (sub hw rfl) ?_
      refine raise_keeps ?_
      exact h7

theorem sentryStart_keeps {s} (hw : μ ||| 2251799813685248 = μ) (h : Keeps μ s0 s) : Keeps μ s0 (sentryStart s) := by
  unfold sentryStart
  split
  · rename_i y0 e1
    exact h
  · rename_i y2 y3 y4 e5
    extract_lets x6 x7
    clear_value x6
    clear_value x7
    refine ite_intro (P := Keeps μ s0) (fun _ => ?_) (fun _ => ?_)
    · exact h
    · refine wrF_keeps ?_
      refine upd_sentry (sub hw rfl) ?_
      exact h

theorem sentryOver_keeps {s k} (hw : μ ||| 6755399441055744 = μ) (h : Keeps μ s0 s) : Keeps μ s0 (sentryOver s k) := by
  unfold sentryOver
  extract_lets x0 x1 x2 x3
  clear_value x0
  clear_value x1
  have h4 : Keeps μ s0 x2 := by
    unfold x2
    refine upd_taps (sub hw rfl) ?_
    exact h
  clear_value x2
  clear_value x3
  refine wrF_keeps ?_
  refine upd_sentry (sub hw rfl) ?_
  exact h4

theorem sentryEnd_keeps {s cells corrected uncorrectable} (hw : μ ||| 6755399449444608 = μ) (h : Keeps μ s0 s) : Keeps μ s0 (sentryEnd s cells corrected uncorrectable) := by
  unfold sentryEnd
  split
  · rename_i y0 e1
    exact h
  · rename_i y2 y3 y4 y5 e6
    extract_lets x7 x8 x9 x10 x11 x12 x13 x14 x15
    clear_value x7
    clear_value x8
    clear_value x9
    have h16 : Keeps μ s0 x10 := by
      unfold x10
      refine ite_intro (P := Keeps μ s0) (fun _ => ?_) (fun _ => ?_)
      · exact h
      · refine raise_keeps ?_
        refine bumpSat_keeps ?_
        exact h
    clear_value x10
    have h17 : Keeps μ s0 x11 := by
      unfold x11
      refine ite_intro (P := Keeps μ s0) (fun _ => ?_) (fun _ => ?_)
      · refine report_keeps (sub hw rfl) ?_
        refine raise_keeps ?_
        refine bumpSat_keeps ?_
        exact h16
      · exact h16
    clear_value x11
    have h18 : Keeps μ s0 x12 := by
      unfold x12
      refine wrF_keeps ?_
      refine sntPut_keeps (sub hw rfl) ?_
      exact h17
    clear_value x12
    have h19 : Keeps μ s0 x13 := by
      unfold x13
      refine ite_intro (P := Keeps μ s0) (fun _ => ?_) (fun _ => ?_)
      · refine raise_keeps ?_
        refine bumpSat_keeps ?_
        exact h18
      · exact h18
    clear_value x13
    clear_value x14
    have h20 : Keeps μ s0 x15 := by
      unfold x15
      refine sentryOver_keeps (sub hw rfl) ?_
      refine upd_sentry (sub hw rfl) ?_
      exact h19
    clear_value x15
    refine wr_keeps ?_
    refine wr_keeps ?_
    exact h20

theorem compCut_keeps {s} (hw : μ ||| 1125899906842624 = μ) (h : Keeps μ s0 s) : Keeps μ s0 (compCut s) := by
  unfold compCut
  split
  · rename_i y0 e1
    exact h
  · rename_i y2 y3 e4
    refine ite_intro (P := Keeps μ s0) (fun _ => ?_) (fun _ => ?_)
    · exact h
    · extract_lets x5
      have h6 : Keeps μ s0 x5 := by
        unfold x5
        refine setCycle_keeps (sub hw rfl) ?_
        exact h
      clear_value x5
      refine foldl_intro (P := Keeps μ s0) ?_ ?_
      · exact h6
      · intro x7 x8 h9
        extract_lets x10
        clear_value x10
        refine ite_intro (P := Keeps μ s0) (fun _ => ?_) (fun _ => ?_)
        · refine wr_keeps ?_
          exact h9
        · exact h9

theorem sentryCut_keeps {s} (hw : μ ||| 6755399441055744 = μ) (h : Keeps μ s0 s) : Keeps μ s0 (sentryCut s) := by
  unfold sentryCut
  split
  · rename_i y0 e1
    exact h
  · rename_i y2 y3 y4 e5
    refine ite_intro (P := Keeps μ s0) (fun _ => ?_) (fun _ => ?_)
    · exact h
    · extract_lets x6 x7 x8 x9
      clear_value x6
      have h10 : Keeps μ s0 x7 := by
        unfold x7
        refine upd_sentry (sub hw rfl) ?_
        exact h
      clear_value x7
      clear_value x8
      have h11 : Keeps μ s0 x9 := by
        unfold x9
        refine sentryOver_keeps (sub hw rfl) ?_
        refine raise_keeps ?_
        refine bumpSat_keeps ?_
        exact h10
      clear_value x9
      refine ite_intro (P := Keeps μ s0) (fun _ => ?_) (fun _ => ?_)
      · exact h10
      · refine wr_keeps ?_
        exact h11

theorem noteVerdict_keeps {s c v j} (hw : μ ||| 1125908496777472 = μ) (h : Keeps μ s0 s) : Keeps μ s0 (noteVerdict s c v j) := by
  unfold noteVerdict
  extract_lets x0 x1 x2 x3 x4 x5 x6 x7
  clear_value x0
  clear_value x1
  clear_value x2
  have h8 : Keeps μ s0 x3 := by
    unfold x3
    refine upd_comp (sub hw rfl) ?_
    exact h
  clear_value x3
  have h9 : Keeps μ s0 x4 := by
    unfold x4
    refine setRec_keeps (sub hw rfl) ?_
    exact h8
  clear_value x4
  have h10 : Keeps μ s0 x5 := by
    unfold x5
    refine wr_keeps ?_
    exact h9
  clear_value x5
  have h11 : Keeps μ s0 x6 := by
    unfold x6
    refine bump_keeps ?_
    exact h10
  clear_value x6
  have h12 : Keeps μ s0 x7 := by
    unfold x7
    refine ite_intro (P := Keeps μ s0) (fun _ => ?_) (fun _ => ?_)
    · refine bumpSat_keeps ?_
      exact h11
    · exact h11
  clear_value x7
  refine ite_intro (P := Keeps μ s0) (fun _ => ?_) (fun _ => ?_)
  · refine report_keeps (sub hw rfl) ?_
    refine raise_keeps ?_
    refine bumpSat_keeps ?_
    exact h12
  · exact h12

theorem gridPod_keeps {s c verdict zones} (h : Keeps μ s0 s) : Keeps μ s0 (gridPod s c verdict zones).2 := by
  unfold gridPod
  extract_lets x0 x1 x2 x3 x4 x5
  clear_value x0
  have h6 : Keeps μ s0 (x1).2 := by
    unfold x1
    refine drawFree_keeps ?_
    exact h
  clear_value x1
  have h7 : Keeps μ s0 (x2).2 := by
    unfold x2
    refine drawFree_keeps ?_
    exact h6
  clear_value x2
  have h8 : Keeps μ s0 (x3).2.2 := by
    unfold x3
    split
    · rename_i y9 y10 e11
      refine mk3_keeps ?_
      exact h
    · rename_i y12 e13
      refine mk3_keeps ?_
      exact h7
  clear_value x3
  clear_value x4
  clear_value x5
  refine mk2_keeps ?_
  exact h8

theorem rrContested_keeps {s frame} (hw : μ ||| 1024 = μ) (h : Keeps μ s0 s) : Keeps μ s0 (rrContested s frame) := by
  unfold rrContested
  refine ite_intro (P := Keeps μ s0) (fun _ => ?_) (fun _ => ?_)
  · refine ite_intro (P := Keeps μ s0) (fun _ => ?_) (fun _ => ?_)
    · refine rrContestFreeze_keeps (sub hw rfl) ?_
      exact h
    · refine upd_rr (sub hw rfl) ?_
      exact h
  · exact h

theorem releaseContested_keeps {s c verdict zones} (hw : μ ||| 1280 = μ) (h : Keeps μ s0 s) : Keeps μ s0 (releaseContested s c verdict zones) := by
  unfold releaseContested
  extract_lets x0 x1 x2
  have h3 : Keeps μ s0 x0 := by
    unfold x0
    refine foldl_intro (P := Keeps μ s0) ?_ ?_
    · exact h
    · intro x4 x5 h6
      refine sendResult_keeps (sub hw rfl) ?_
      exact h6
  clear_value x0
  have h7 : Keeps μ s0 x1 := by
    unfold x1
    refine foldl_intro (P := Keeps μ s0) ?_ ?_
    · exact h3
    · intro x8 x9 h10
      refine sendResult_keeps (sub hw rfl) ?_
      exact h10
  clear_value x1
  have h11 : Keeps μ s0 x2 := by
    unfold x2
    refine ite_intro (P := Keeps μ s0) (fun _ => ?_) (fun _ => ?_)
    · refine foldl_intro (P := Keeps μ s0) ?_ ?_
      · exact h7
      · intro x12 x13 h14
        refine sendResult_keeps (sub hw rfl) ?_
        exact h14
    · exact h3
  clear_value x2
  split
  rename_i y15 y16 y17 e18
  have h19 : Keeps μ s0 y17 := by
    refine of2 e18 ?_
    refine gridPod_keeps ?_
    exact h11
  refine rrContested_keeps (sub hw rfl) ?_
  refine raise_keeps ?_
  refine sendResult_keeps (sub hw rfl) ?_
  exact h19

theorem compVerdict_keeps {s rail} (hw : μ ||| 64281892349867372 = μ) (h : Keeps μ s0 s) : Keeps μ s0 (compVerdict s rail) := by
  unfold compVerdict
  split
  · rename_i y0 e1
    exact h
  · rename_i y2 y3 e4
    refine ite_intro (P := Keeps μ s0) (fun _ => ?_) (fun _ => ?_)
    · exact h
    · refine ite_intro (P := Keeps μ s0) (fun _ => ?_) (fun _ => ?_)
      · extract_lets x5
        have h6 : Keeps μ s0 x5 := by
          unfold x5
          refine setCycle_keeps (sub hw rfl) ?_
          exact h
        clear_value x5
        refine ite_intro (P := Keeps μ s0) (fun _ => ?_) (fun _ => ?_)
        · refine report_keeps (sub hw rfl) ?_
          refine raise_keeps ?_
          exact h6
        · exact h6
      · extract_lets x7 x8 x9 x10 x11
        clear_value x7
        clear_value x8
        have h12 : Keeps μ s0 x9 := by
          unfold x9
          refine noteVerdict_keeps (sub hw rfl) ?_
          exact h
        clear_value x9
        have h13 : Keeps μ s0 x10 := by
          unfold x10
          refine setCycle_keeps (sub hw rfl) ?_
          exact h12
        clear_value x10
        have h14 : Keeps μ s0 x11 := by
          unfold x11
          refine wrF_keeps ?_
          refine raise_keeps ?_
          refine bumpSat_keeps ?_
          exact h13
        clear_value x11
        refine ite_intro (P := Keeps μ s0) (fun _ => ?_) (fun _ => ?_)
        · refine foldl_intro (P := Keeps μ s0) ?_ ?_
          · refine setCycle_keeps (sub hw rfl) ?_
            exact h12
          · intro x15 x16 h17
            refine sendResult_keeps (sub hw rfl) ?_
            exact h17
        · refine ite_intro (P := Keeps μ s0) (fun _ => ?_) (fun _ => ?_)
          · refine collect_keeps (sub hw rfl) ?_
            exact h14
          · refine releaseContested_keeps (sub hw rfl) ?_
            refine setCycle_keeps (sub hw rfl) ?_
            exact h12

theorem collectNext_keeps {s} (hw : μ ||| 64281892349866348 = μ) (h : Keeps μ s0 s) : Keeps μ s0 (collectNext s) := by
  unfold collectNext
  split
  · rename_i y0 e1
    exact h
  · rename_i y2 y3 y4 e5
    refine collect_keeps (sub hw rfl) ?_
    refine upd_fc (sub hw rfl) ?_
    exact h

theorem levelRestores_keeps {s i} (hw : μ ||| 9007199254740992 = μ) (h : Keeps μ s0 s) : Keeps μ s0 (levelRestores s i) := by
  unfold levelRestores
  refine ite_intro (P := Keeps μ s0) (fun _ => ?_) (fun _ => ?_)
  · refine lanternsDue_keeps (sub hw rfl) ?_
    refine wrF_keeps ?_
    refine upd_lantern (sub hw rfl) ?_
    exact h
  · refine ite_intro (P := Keeps μ s0) (fun _ => ?_) (fun _ => ?_)
    · refine wrF_keeps ?_
      exact h
    · refine ite_intro (P := Keeps μ s0) (fun _ => ?_) (fun _ => ?_)
      · refine foldl_intro (P := Keeps μ s0) ?_ ?_
        · exact h
        · intro x0 x1 h2
          refine ite_intro (P := Keeps μ s0) (fun _ => ?_) (fun _ => ?_)
          · refine wrF_keeps ?_
            exact h2
          · exact h2
      · refine ite_intro (P := Keeps μ s0) (fun _ => ?_) (fun _ => ?_)
        · refine wr_keeps ?_
          exact h
        · exact h

theorem faultLevelClear_keeps {s i} (hw : μ ||| 9007199254741248 = μ) (h : Keeps μ s0 s) : Keeps μ s0 (faultLevelClear s i) := by
  unfold faultLevelClear
  refine ite_intro (P := Keeps μ s0) (fun _ => ?_) (fun _ => ?_)
  · refine levelRestores_keeps (sub hw rfl) ?_
    refine levelClear_keeps (sub hw rfl) ?_
    exact h
  · exact h

theorem quietExpire_keeps {s} (hw : μ ||| 10133099161583872 = μ) (h : Keeps μ s0 s) : Keeps μ s0 (quietExpire s) := by
  unfold quietExpire
  split
  · rename_i y0 e1
    exact h
  · rename_i y2 y3 e4
    refine ite_intro (P := Keeps μ s0) (fun _ => ?_) (fun _ => ?_)
    · exact h
    · refine exitAtDisable_keeps (sub hw rfl) ?_
      refine upd_fc (sub hw rfl) ?_
      exact h

theorem reexecArray_keeps {s op} (hw : μ ||| 105599807258988 = μ) (h : Keeps μ s0 s) : Keeps μ s0 (reexecArray s op) := by
  unfold reexecArray
  extract_lets x0 x1
  clear_value x0
  clear_value x1
  refine ite_intro (P := Keeps μ s0) (fun _ => ?_) (fun _ => ?_)
  · refine failExec_keeps (sub hw rfl) ?_
    refine opGone_keeps (sub hw rfl) ?_
    exact h
  · refine ite_intro (P := Keeps μ s0) (fun _ => ?_) (fun _ => ?_)
    · exact h
    · split
      · rename_i y2 y3 y4 e5
        exact h
      · rename_i y6 y7 y8 y9 e10
        extract_lets x11 x12 x13
        clear_value x11
        have h14 : Keeps μ s0 x12 := by
          unfold x12
          refine jobFlags_keeps (sub hw rfl) ?_
          refine updOp_keeps (sub hw rfl) ?_
          exact h
        clear_value x12
        have h15 : Keeps μ s0 x13 := by
          unfold x13
          refine opBegin_keeps (sub hw rfl) ?_
          exact h14
        clear_value x13
        refine rotRegs_keeps ?_
        refine foldl_intro (P := Keeps μ s0) ?_ ?_
        · exact h15
        · intro x16 x17 h18
          refine arrStart_keeps (sub hw rfl) ?_
          exact h18

theorem reexecEngine_keeps {s op} (hw : μ ||| 105597659775340 = μ) (h : Keeps μ s0 s) : Keeps μ s0 (reexecEngine s op) := by
  unfold reexecEngine
  refine ite_intro (P := Keeps μ s0) (fun _ => ?_) (fun _ => ?_)
  · refine failExec_keeps (sub hw rfl) ?_
    refine opGone_keeps (sub hw rfl) ?_
    exact h
  · extract_lets x0
    have h1 : Keeps μ s0 x0 := by
      unfold x0
      refine updOp_keeps (sub hw rfl) ?_
      exact h
    clear_value x0
    refine engNext_keeps (sub hw rfl) ?_
    refine jobFlags_keeps (sub hw rfl) ?_
    exact h1

theorem reexecJob_keeps {s inst job} (hw : μ ||| 671088640 = μ) (h : Keeps μ s0 s) : Keeps μ s0 (reexecJob s inst job) := by
  unfold reexecJob
  split
  · rename_i y0 e1
    exact h
  · rename_i y2 y3 e4
    split
    · rename_i y5 e6
      exact h
    · rename_i y7 y8 e9
      refine ite_intro (P := Keeps μ s0) (fun _ => ?_) (fun _ => ?_)
      · exact h
      · refine fireJob_keeps (sub hw rfl) ?_
        refine updInst_keeps (sub hw rfl) ?_
        exact h

theorem seqAct_keeps {op v1 v2 v3 v4} (hw : μ ||| 105596586033516 = μ) (h : Keeps μ s0 v1) : Keeps μ s0 (seqAct op v1 v2 v3 v4) := by
  unfold seqAct
  split
  · rename_i e0
    refine seqOpenAct_keeps (sub hw rfl) ?_
    exact h
  · rename_i e1
    split
    · rename_i e2
      refine seqCloseAct_keeps (sub hw rfl) ?_
      exact h
    · rename_i e3
      split
      · rename_i e4
        refine seqAppendAct_keeps (sub hw rfl) ?_
        exact h
      · rename_i e5
        split
        · rename_i e6
          refine seqStageAct_keeps (sub hw rfl) ?_
          exact h
        · rename_i e7
          split
          · rename_i e8
            refine seqReleaseAct_keeps (sub hw rfl) ?_
            exact h
          · rename_i e9
            split
            · rename_i e10
              refine seqImportanceAct_keeps (sub hw rfl) ?_
              exact h
            · rename_i e11
              refine seqRestoreAct_keeps (sub hw rfl) ?_
              exact h

theorem reexecSeq_keeps {s id} (hw : μ ||| 105596586033516 = μ) (h : Keeps μ s0 s) : Keeps μ s0 (reexecSeq s id) := by
  unfold reexecSeq
  split
  · rename_i y0 e1
    exact h
  · rename_i y2 y3 y4 e5
    extract_lets x6 x7 x8
    have h9 : Keeps μ s0 x6 := by
      unfold x6
      refine setSeq_keeps (sub hw rfl) ?_
      exact h
    clear_value x6
    have h10 : Keeps μ s0 x7 := by
      unfold x7
      split
      · rename_i y11 y12 y13 y14 y15 e16
        refine jobFlags_keeps (sub hw rfl) ?_
        exact h9
      · rename_i y17 y18 e19
        exact h9
    clear_value x7
    clear_value x8
    refine seqRun_keeps (sub hw rfl) ?_ ?_
    · exact h10
    · intro x20 x21 x22 x23 h24
      refine seqAct_keeps (sub hw rfl) ?_
      exact h24

theorem reexecute_keeps {s t} (hw : μ ||| 105600344129900 = μ) (h : Keeps μ s0 s) : Keeps μ s0 (reexecute s t) := by
  unfold reexecute
  split
  · rename_i y0 y1
    split
    · rename_i y2 y3 e4
      split
      · rename_i y5 y6 e7
        refine ite_intro (P := Keeps μ s0) (fun _ => ?_) (fun _ => ?_)
        · exact h
        · refine ite_intro (P := Keeps μ s0) (fun _ => ?_) (fun _ => ?_)
          · refine lateDiscard_keeps ?_
            refine opGone_keeps (sub hw rfl) ?_
            exact h
          · refine ite_intro (P := Keeps μ s0) (fun _ => ?_) (fun _ => ?_)
            · refine reexecArray_keeps (sub hw rfl) ?_
              exact h
            · refine reexecEngine_keeps (sub hw rfl) ?_
              exact h
      · rename_i y8 e9
        exact h
    · rename_i y10 e11
      exact h
  · rename_i y12 y13 y14
    refine reexecJob_keeps (sub hw rfl) ?_
    exact h
  · rename_i y15 y16
    refine reexecSeq_keeps (sub hw rfl) ?_
    exact h

theorem bistResult_keeps {s sig} (hw : μ ||| 36028805608898816 = μ) (h : Keeps μ s0 s) : Keeps μ s0 (bistResult s sig) := by
  unfold bistResult
  split
  · rename_i y0 e1
    exact h
  · rename_i y2 y3 y4 e5
    extract_lets x6 x7 x8 x9 x10
    clear_value x6
    clear_value x7
    have h11 : Keeps μ s0 x8 := by
      unfold x8
      refine wr_keeps ?_
      refine upd_bist (sub hw rfl) ?_
      exact h
    clear_value x8
    have h12 : Keeps μ s0 x9 := by
      unfold x9
      refine setRec_keeps (sub hw rfl) ?_
      exact h11
    clear_value x9
    have h13 : Keeps μ s0 x10 := by
      unfold x10
      refine raise_keeps ?_
      refine ite_intro (P := Keeps μ s0) (fun _ => ?_) (fun _ => ?_)
      · refine lapseRestart_keeps (sub hw rfl) ?_
        exact h12
      · exact h12
    clear_value x10
    split
    rename_i y14 y15 y16 e17
    have h18 : Keeps μ s0 y16 := by
      refine of2 e17 ?_
      refine drawFree_keeps ?_
      exact h13
    refine sendEvent_keeps ?_
    exact h18

theorem sliceStart_keeps {s u} (hw : μ ||| 36028799166447616 = μ) (h : Keeps μ s0 s) : Keeps μ s0 (sliceStart s u) := by
  unfold sliceStart
  refine ite_intro (P := Keeps μ s0) (fun _ => ?_) (fun _ => ?_)
  · exact h
  · refine ite_intro (P := Keeps μ s0) (fun _ => ?_) (fun _ => ?_)
    · extract_lets x0 x1 x2
      clear_value x0
      have h3 : Keeps μ s0 x1 := by
        unfold x1
        refine upd_bist (sub hw rfl) ?_
        exact h
      clear_value x1
      clear_value x2
      refine ite_intro (P := Keeps μ s0) (fun _ => ?_) (fun _ => ?_)
      · refine setArr_keeps (sub hw rfl) ?_
        exact h3
      · exact h3
    · refine bump_keeps ?_
      exact h

theorem sliceFrees_keeps {s u} (hw : μ ||| 36134396826222956 = μ) (h : Keeps μ s0 s) : Keeps μ s0 (sliceFrees s u) := by
  unfold sliceFrees
  refine ite_intro (P := Keeps μ s0) (fun _ => ?_) (fun _ => ?_)
  · refine promote_keeps (sub hw rfl) ?_
    exact h
  · refine ite_intro (P := Keeps μ s0) (fun _ => ?_) (fun _ => ?_)
    · refine engNext_keeps (sub hw rfl) ?_
      exact h
    · refine ite_intro (P := Keeps μ s0) (fun _ => ?_) (fun _ => ?_)
      · refine promote_keeps (sub hw rfl) ?_
        exact h
      · refine ite_intro (P := Keeps μ s0) (fun _ => ?_) (fun _ => ?_)
        · refine upd_bist (sub hw rfl) ?_
          exact h
        · exact h

theorem sliceEnd_keeps {s u fail} (hw : μ ||| 36134396826222956 = μ) (h : Keeps μ s0 s) : Keeps μ s0 (sliceEnd s u fail) := by
  unfold sliceEnd
  split
  · rename_i y0 e1
    exact h
  · rename_i y2 y3 y4 e5
    refine ite_intro (P := Keeps μ s0) (fun _ => ?_) (fun _ => ?_)
    · exact h
    · extract_lets x6 x7 x8 x9 x10
      clear_value x6
      have h11 : Keeps μ s0 x7 := by
        unfold x7
        refine upd_bist (sub hw rfl) ?_
        exact h
      clear_value x7
      have h12 : Keeps μ s0 x8 := by
        unfold x8
        refine wrF_keeps ?_
        exact h11
      clear_value x8
      clear_value x9
      have h13 : Keeps μ s0 x10 := by
        unfold x10
        refine ite_intro (P := Keeps μ s0) (fun _ => ?_) (fun _ => ?_)
        · refine report_keeps (sub hw rfl) ?_
          refine raise_keeps ?_
          refine bumpSat_keeps ?_
          exact h12
        · split
          · rename_i y14 y15 y16 y17 y18 e19
            refine ite_intro (P := Keeps μ s0) (fun _ => ?_) (fun _ => ?_)
            · refine wrF_keeps ?_
              exact h12
            · refine lapseRestart_keeps (sub hw rfl) ?_
              refine wrF_keeps ?_
              exact h12
          · rename_i y20 y21 y22 e23
            exact h12
      clear_value x10
      refine sliceFrees_keeps (sub hw rfl) ?_
      exact h13

theorem coverageLapse_keeps {s u} (hw : μ ||| 256 = μ) (h : Keeps μ s0 s) : Keeps μ s0 (coverageLapse s u) := by
  unfold coverageLapse
  refine ite_intro (P := Keeps μ s0) (fun _ => ?_) (fun _ => ?_)
  · exact h
  · extract_lets x0
    have h1 : Keeps μ s0 x0 := by
      unfold x0
      refine raise_keeps ?_
      refine wrF_keeps ?_
      exact h
    clear_value x0
    refine ite_intro (P := Keeps μ s0) (fun _ => ?_) (fun _ => ?_)
    · exact h1
    · refine report_keeps (sub hw rfl) ?_
      refine bumpSat_keeps ?_
      exact h1

theorem coverageDouble_keeps {s u} (hw : μ ||| 256 = μ) (h : Keeps μ s0 s) : Keeps μ s0 (coverageDouble s u) := by
  unfold coverageDouble
  refine ite_intro (P := Keeps μ s0) (fun _ => ?_) (fun _ => ?_)
  · exact h
  · extract_lets x0
    have h1 : Keeps μ s0 x0 := by
      unfold x0
      refine wrF_keeps ?_
      exact h
    clear_value x0
    refine ite_intro (P := Keeps μ s0) (fun _ => ?_) (fun _ => ?_)
    · exact h1
    · refine report_keeps (sub hw rfl) ?_
      exact h1

theorem wdTimeout_keeps {s k} (hw : μ ||| 306526249637904640 = μ) (h : Keeps μ s0 s) : Keeps μ s0 (wdTimeout s k) := by
  unfold wdTimeout
  refine ite_intro (P := Keeps μ s0) (fun _ => ?_) (fun _ => ?_)
  · exact h
  · refine wdExpire_keeps (sub hw rfl) ?_
    refine wdRestart_keeps (sub hw rfl) ?_
    exact h

theorem attestTake_keeps {s no} (hw : μ ||| 288230376151711752 = μ) (h : Keeps μ s0 s) : Keeps μ s0 (attestTake s no) := by
  unfold attestTake
  refine ite_intro (P := Keeps μ s0) (fun _ => ?_) (fun _ => ?_)
  · exact h
  · split
    · rename_i y0 y1 e2
      exact h
    · rename_i y3 y4 y5 y6 e7
      have h8 : Keeps μ s0 y6 := by
        refine ofSome2 e7 ?_
        refine takePod_keeps (sub hw rfl) ?_
        exact h
      refine upd_sec (sub hw rfl) ?_
      exact h8

theorem attestDone_keeps {s} (hw : μ ||| 288335972217651564 = μ) (h : Keeps μ s0 s) : Keeps μ s0 (attestDone s) := by
  unfold attestDone
  split
  · rename_i y0 e1
    exact h
  · rename_i y2 y3 e4
    refine ite_intro (P := Keeps μ s0) (fun _ => ?_) (fun _ => ?_)
    · exact h
    · extract_lets x5 x6 x7
      clear_value x5
      have h8 : Keeps μ s0 x6 := by
        unfold x6
        refine upd_sec (sub hw rfl) ?_
        exact h
      clear_value x6
      have h9 : Keeps μ s0 (x7).2 := by
        unfold x7
        refine memWrite_keeps (sub hw rfl) ?_
        exact h8
      clear_value x7
      refine podComplete_keeps (sub hw rfl) ?_
      exact h9

theorem hostAuth_keeps {s no} (hw : μ ||| 288300744895889676 = μ) (h : Keeps μ s0 s) : Keeps μ s0 (hostAuth s no) := by
  unfold hostAuth
  refine ite_intro (P := Keeps μ s0) (fun _ => ?_) (fun _ => ?_)
  · exact h
  · split
    · rename_i y0 y1 e2
      exact h
    · rename_i y3 y4 y5 y6 e7
      have h8 : Keeps μ s0 y6 := by
        refine ofSome2 e7 ?_
        refine takePod_keeps (sub hw rfl) ?_
        exact h
      extract_lets x11 x12
      clear_value x11
      have h13 : Keeps μ s0 x12 := by
        unfold x12
        refine renewChallenge_keeps (sub hw rfl) ?_
        exact h8
      clear_value x12
      refine ite_intro (P := Keeps μ s0) (fun _ => ?_) (fun _ => ?_)
      · refine podComplete_keeps (sub hw rfl) ?_
        refine raise_keeps ?_
        refine wrF_keeps ?_
        exact h13
      · refine podComplete_keeps (sub hw rfl) ?_
        refine authFail_keeps ?_
        exact h13

theorem completeFree_keeps {s no} (hw : μ ||| 70368744177932 = μ) (h : Keeps μ s0 s) : Keeps μ s0 (completeFree s no) := by
  unfold completeFree
  refine podComplete_keeps (sub hw rfl) ?_
  refine drawFree_keeps ?_
  exact h

theorem keyImport_keeps {s no} (hw : μ ||| 70428873720140 = μ) (h : Keeps μ s0 s) : Keeps μ s0 (keyImport s no) := by
  unfold keyImport
  extract_lets x0
  have h1 : Keeps μ s0 x0 := by
    unfold x0
    exact h
  clear_value x0
  refine ite_intro (P := Keeps μ s0) (fun _ => ?_) (fun _ => ?_)
  · exact h
  · split
    · rename_i y2 y3 e4
      exact h
    · rename_i y5 y6 y7 y8 e9
      have h10 : Keeps μ s0 y8 := by
        refine ofSome2 e9 ?_
        refine takePod_keeps (sub hw rfl) ?_
        exact h
      extract_lets x13
      clear_value x13
      refine ite_intro (P := Keeps μ s0) (fun _ => ?_) (fun _ => ?_)
      · refine podComplete_keeps (sub hw rfl) ?_
        exact h10
      · refine ite_intro (P := Keeps μ s0) (fun _ => ?_) (fun _ => ?_)
        · refine completeFree_keeps (sub hw rfl) ?_
          exact h10
        · refine ite_intro (P := Keeps μ s0) (fun _ => ?_) (fun _ => ?_)
          · refine podComplete_keeps (sub hw rfl) ?_
            exact h10
          · refine ite_intro (P := Keeps μ s0) (fun _ => ?_) (fun _ => ?_)
            · exact h1
            · split
              · rename_i y14 y15 y16 y17 y18 y19 y20 e21
                have h22 : Keeps μ s0 y20 := by
                  refine of3 e21 ?_
                  refine memRead_keeps (sub hw rfl) ?_
                  exact h10
                split
                · rename_i y23 y24 y25 e26
                  refine podComplete_keeps (sub hw rfl) ?_
                  refine raise_keeps ?_
                  refine setKeySlot_keeps (sub hw rfl) ?_
                  exact h22
                · rename_i y27 e28
                  refine podComplete_keeps (sub hw rfl) ?_
                  refine authFail_keeps ?_
                  exact h22
              · rename_i y29 y30 y31 y32 y33 y34 y35 y36 e37 e38
                have h39 : Keeps μ s0 y36 := by
                  refine of3 e38 ?_
                  refine memRead_keeps (sub hw rfl) ?_
                  exact h10
                refine podComplete_keeps (sub hw rfl) ?_
                exact h39

theorem modelImport_keeps {s no} (hw : μ ||| 288300744895889676 = μ) (h : Keeps μ s0 s) : Keeps μ s0 (modelImport s no) := by
  unfold modelImport
  refine ite_intro (P := Keeps μ s0) (fun _ => ?_) (fun _ => ?_)
  · exact h
  · split
    · rename_i y0 y1 e2
      exact h
    · rename_i y3 y4 y5 y6 e7
      have h8 : Keeps μ s0 y6 := by
        refine ofSome2 e7 ?_
        refine takePod_keeps (sub hw rfl) ?_
        exact h
      extract_lets x11 x12 x13 x14 x15 x16
      clear_value x11
      clear_value x12
      clear_value x13
      clear_value x14
      clear_value x15
      clear_value x16
      refine ite_intro (P := Keeps μ s0) (fun _ => ?_) (fun _ => ?_)
      · refine upd_sec (sub hw rfl) ?_
        exact h8
      · refine completeFree_keeps (sub hw rfl) ?_
        exact h8

theorem keyClear_keeps {s no} (hw : μ ||| 70385924047116 = μ) (h : Keeps μ s0 s) : Keeps μ s0 (keyClear s no) := by
  unfold keyClear
  refine ite_intro (P := Keeps μ s0) (fun _ => ?_) (fun _ => ?_)
  · exact h
  · split
    · rename_i y0 y1 e2
      exact h
    · rename_i y3 y4 y5 y6 e7
      have h8 : Keeps μ s0 y6 := by
        refine ofSome2 e7 ?_
        refine takePod_keeps (sub hw rfl) ?_
        exact h
      extract_lets x11
      clear_value x11
      refine ite_intro (P := Keeps μ s0) (fun _ => ?_) (fun _ => ?_)
      · refine podComplete_keeps (sub hw rfl) ?_
        refine setKeySlot_keeps (sub hw rfl) ?_
        exact h8
      · refine completeFree_keeps (sub hw rfl) ?_
        exact h8

theorem regionWrite_keeps {s r entry} (hw : μ ||| 35244501631328 = μ) (h : Keeps μ s0 s) : Keeps μ s0 (regionWrite s r entry) := by
  unfold regionWrite
  extract_lets x0 x1
  clear_value x0
  have h2 : Keeps μ s0 x1 := by
    unfold x1
    refine foldl_intro (P := Keeps μ s0) ?_ ?_
    · exact h
    · intro x3 x4 h5
      refine ite_intro (P := Keeps μ s0) (fun _ => ?_) (fun _ => ?_)
      · exact h5
      · refine applyPlain_keeps ?_
        exact h5
  clear_value x1
  refine applyEncCtl_keeps (sub hw rfl) ?_
  exact h2

theorem regionSet_keeps {s no} (hw : μ ||| 105613245809004 = μ) (h : Keeps μ s0 s) : Keeps μ s0 (regionSet s no) := by
  unfold regionSet
  refine ite_intro (P := Keeps μ s0) (fun _ => ?_) (fun _ => ?_)
  · exact h
  · split
    · rename_i y0 y1 e2
      exact h
    · rename_i y3 y4 y5 y6 e7
      have h8 : Keeps μ s0 y6 := by
        refine ofSome2 e7 ?_
        refine takePod_keeps (sub hw rfl) ?_
        exact h
      extract_lets x11 x12 x13
      clear_value x11
      clear_value x12
      have h14 : Keeps μ s0 x13 := by
        unfold x13
        refine regionWrite_keeps (sub hw rfl) ?_
        exact h8
      clear_value x13
      refine ite_intro (P := Keeps μ s0) (fun _ => ?_) (fun _ => ?_)
      · refine completeFree_keeps (sub hw rfl) ?_
        refine guardRefused_keeps ?_
        exact h8
      · refine ite_intro (P := Keeps μ s0) (fun _ => ?_) (fun _ => ?_)
        · refine completeFree_keeps (sub hw rfl) ?_
          exact h8
        · refine ite_intro (P := Keeps μ s0) (fun _ => ?_) (fun _ => ?_)
          · refine podComplete_keeps (sub hw rfl) ?_
            exact h8
          · refine ite_intro (P := Keeps μ s0) (fun _ => ?_) (fun _ => ?_)
            · refine podComplete_keeps (sub hw rfl) ?_
              exact h14
            · refine completeFree_keeps (sub hw rfl) ?_
              exact h14

theorem loseScratch_keeps {s} (hw : μ ||| 2147483744 = μ) (h : Keeps μ s0 s) : Keeps μ s0 (loseScratch s) := by
  unfold loseScratch
  refine upd_mem_ecc_arrays (sub hw rfl) ?_ ?_
  · exact h
  · exact fun c => smWf_filter c _

theorem goToSleep_keeps {s wake} (hw : μ ||| 297237577553936481 = μ) (h : Keeps μ s0 s) : Keeps μ s0 (goToSleep s wake) := by
  unfold goToSleep
  extract_lets x0 x1 x2
  have h3 : Keeps μ s0 x0 := by
    unfold x0
    refine lanternsOff_keeps (sub hw rfl) ?_
    refine loseScratch_keeps (sub hw rfl) ?_
    refine bump_keeps ?_
    exact h
  clear_value x0
  have h4 : Keeps μ s0 x1 := by
    unfold x1
    refine foldl_intro (P := Keeps μ s0) ?_ ?_
    · exact h3
    · intro x5 x6 h7
      refine wrF_keeps ?_
      exact h7
  clear_value x1
  clear_value x2
  refine upd_power_sec (sub hw rfl) ?_
  exact h4

theorem pmSleep_keeps {s no} (hw : μ ||| 297307946298114413 = μ) (h : Keeps μ s0 s) : Keeps μ s0 (pmSleep s no) := by
  unfold pmSleep
  split
  · rename_i y0 e1
    exact h
  · rename_i y2 y3 y4 e5
    have h6 : Keeps μ s0 y4 := by
      refine ofSome2 e5 ?_
      refine takePod_keeps (sub hw rfl) ?_
      exact h
    refine ite_intro (P := Keeps μ s0) (fun _ => ?_) (fun _ => ?_)
    · refine podComplete_keeps (sub hw rfl) ?_
      exact h6
    · refine ite_intro (P := Keeps μ s0) (fun _ => ?_) (fun _ => ?_)
      · refine podComplete_keeps (sub hw rfl) ?_
        exact h6
      · refine goToSleep_keeps (sub hw rfl) ?_
        refine podComplete_keeps (sub hw rfl) ?_
        exact h6

theorem applyDeferred_keeps {s d} (h : Keeps μ s0 s) : Keeps μ s0 (applyDeferred s d) := by
  unfold applyDeferred
  extract_lets x0 x1
  have h2 : Keeps μ s0 x0 := by
    unfold x0
    refine copyPending_keeps ?_
    exact h
  clear_value x0
  clear_value x1
  refine upd_keeps ?_
  exact h2

theorem deferredApplies_keeps {s d} (hw : μ ||| 105597664364908 = μ) (h : Keeps μ s0 s) : Keeps μ s0 (deferredApplies s d) := by
  unfold deferredApplies
  refine appliedHooks_keeps (sub hw rfl) ?_ ?_
  · exact h
  · refine applyDeferred_keeps ?_
    exact h

theorem linksFell_keeps {s} (hw : μ ||| 99299778113804 = μ) (h : Keeps μ s0 s) : Keeps μ s0 (linksFell s) := by
  unfold linksFell
  extract_lets x0 x1
  have h2 : Keeps μ s0 x0 := by
    unfold x0
    refine foldl_intro (P := Keeps μ s0) ?_ ?_
    · exact h
    · intro x3 x4 h5
      refine sensorDown_keeps (sub hw rfl) ?_
      exact h5
  clear_value x0
  have h6 : Keeps μ s0 x1 := by
    unfold x1
    refine foldl_intro (P := Keeps μ s0) ?_ ?_
    · exact h2
    · intro x7 x8 h9
      refine glDown_keeps (sub hw rfl) ?_
      exact h9
  clear_value x1
  refine mgtDown_keeps (sub hw rfl) ?_
  refine hostDown_keeps (sub hw rfl) ?_
  exact h6

theorem wakeUp_keeps {s} (hw : μ ||| 315386502480017773 = μ) (h : Keeps μ s0 s) : Keeps μ s0 (wakeUp s) := by
  unfold wakeUp
  extract_lets x0 x1 x2 x3 x4 x5 x6
  clear_value x0
  clear_value x1
  have h7 : Keeps μ s0 x2 := by
    unfold x2
    refine upd_power_sec (sub hw rfl) ?_
    exact h
  clear_value x2
  have h8 : Keeps μ s0 x3 := by
    unfold x3
    refine foldl_intro (P := Keeps μ s0) ?_ ?_
    · exact h7
    · intro x9 x10 h11
      refine wrF_keeps ?_
      exact h11
  clear_value x3
  have h12 : Keeps μ s0 x4 := by
    unfold x4
    refine foldl_intro (P := Keeps μ s0) ?_ ?_
    · exact h8
    · intro x13 x14 h15
      refine deferredApplies_keeps (sub hw rfl) ?_
      refine ite_intro (P := Keeps μ s0) (fun _ => ?_) (fun _ => ?_)
      · exact h15
      · refine wr_keeps ?_
        exact h15
  clear_value x4
  have h16 : Keeps μ s0 x5 := by
    unfold x5
    refine lanternsDue_keeps (sub hw rfl) ?_
    refine linksFell_keeps (sub hw rfl) ?_
    refine foldl_intro (P := Keeps μ s0) ?_ ?_
    · exact h12
    · intro x17 x18 h19
      refine startCore_keeps (sub hw rfl) ?_
      exact h19
  clear_value x5
  clear_value x6
  refine readyToRing_keeps (sub hw rfl) ?_
  refine upd_sec (sub hw rfl) ?_
  exact h16

theorem h4Wake_keeps {s light} (hw : μ ||| 315386502480017773 = μ) (h : Keeps μ s0 s) : Keeps μ s0 (h4Wake s light) := by
  unfold h4Wake
  extract_lets x0
  clear_value x0
  refine ite_intro (P := Keeps μ s0) (fun _ => ?_) (fun _ => ?_)
  · refine wakeUp_keeps (sub hw rfl) ?_
    exact h
  · exact h

theorem railRegs_keeps {s m} (h : Keeps μ s0 s) : Keeps μ s0 (railRegs s m) := by
  unfold railRegs
  refine foldl_intro (P := Keeps μ s0) ?_ ?_
  · exact h
  · intro x0 x1 h2
    refine wr_keeps ?_
    refine wr_keeps ?_
    exact h2

theorem allArrRegs_keeps {s} (h : Keeps μ s0 s) : Keeps μ s0 (allArrRegs s) := by
  unfold allArrRegs
  refine foldl_intro (P := Keeps μ s0) ?_ ?_
  · exact h
  · intro x0 x1 h2
    refine arrRegs_keeps ?_
    exact h2

theorem budget_keeps {s m} (hw : μ ||| 72057604775346176 = μ) (h : Keeps μ s0 s) : Keeps μ s0 (budget s m) := by
  unfold budget
  refine ite_intro (P := Keeps μ s0) (fun _ => ?_) (fun _ => ?_)
  · exact h
  · extract_lets x0 x1 x2 x3 x4 x5 x6 x7 x8 x9 x10 x11 x12 x13 x14 x15 x16
    have h17 : Keeps μ s0 x0 := by
      unfold x0
      refine wr_keeps ?_
      refine railRegs_keeps ?_
      exact h
    clear_value x0
    clear_value x1
    clear_value x2
    clear_value x3
    clear_value x4
    clear_value x5
    clear_value x6
    clear_value x7
    clear_value x8
    have h18 : Keeps μ s0 x9 := by
      unfold x9
      refine upd_pm (sub hw rfl) ?_
      exact h17
    clear_value x9
    clear_value x10
    have h19 : Keeps μ s0 x11 := by
      unfold x11
      refine ite_intro (P := Keeps μ s0) (fun _ => ?_) (fun _ => ?_)
      · refine upd_arrays (sub hw rfl) ?_
        exact h18
      · exact h18
    clear_value x11
    have h20 : Keeps μ s0 x12 := by
      unfold x12
      refine wrF_keeps ?_
      refine wrF_keeps ?_
      exact h19
    clear_value x12
    have h21 : Keeps μ s0 x13 := by
      unfold x13
      refine ite_intro (P := Keeps μ s0) (fun _ => ?_) (fun _ => ?_)
      · refine bump_keeps ?_
        exact h20
      · exact h20
    clear_value x13
    have h22 : Keeps μ s0 x14 := by
      unfold x14
      refine ite_intro (P := Keeps μ s0) (fun _ => ?_) (fun _ => ?_)
      · refine raise_keeps ?_
        exact h21
      · exact h21
    clear_value x14
    clear_value x15
    have h23 : Keeps μ s0 x16 := by
      unfold x16
      refine setRec_keeps (sub hw rfl) ?_
      exact h22
    clear_value x16
    refine allArrRegs_keeps ?_
    exact h23

theorem governor_keeps {s ma} (hw : μ ||| 72057596185411840 = μ) (h : Keeps μ s0 s) : Keeps μ s0 (governor s ma) := by
  unfold governor
  extract_lets x0 x1 x2 x3 x4 x5 x6 x7 x8 x9 x10
  clear_value x0
  clear_value x1
  have h11 : Keeps μ s0 x2 := by
    unfold x2
    refine ite_intro (P := Keeps μ s0) (fun _ => ?_) (fun _ => ?_)
    · refine wr_keeps ?_
      exact h
    · exact h
  clear_value x2
  have h12 : Keeps μ s0 x3 := by
    unfold x3
    refine wrF_keeps ?_
    exact h11
  clear_value x3
  have h13 : Keeps μ s0 x4 := by
    unfold x4
    refine ite_intro (P := Keeps μ s0) (fun _ => ?_) (fun _ => ?_)
    · exact h12
    · refine raise_keeps ?_
      refine bumpSat_keeps ?_
      exact h12
  clear_value x4
  clear_value x5
  have h14 : Keeps μ s0 x6 := by
    unfold x6
    refine allArrRegs_keeps ?_
    refine foldl_intro (P := Keeps μ s0) ?_ ?_
    · exact h13
    · intro x15 x16 h17
      refine setArr_keeps (sub hw rfl) ?_
      exact h17
  clear_value x6
  clear_value x7
  clear_value x8
  have h18 : Keeps μ s0 x9 := by
    unfold x9
    refine upd_pm (sub hw rfl) ?_
    exact h14
  clear_value x9
  clear_value x10
  refine ite_intro (P := Keeps μ s0) (fun _ => ?_) (fun _ => ?_)
  · refine ite_intro (P := Keeps μ s0) (fun _ => ?_) (fun _ => ?_)
    · refine ite_intro (P := Keeps μ s0) (fun _ => ?_) (fun _ => ?_)
      · refine levelReport_keeps (sub hw rfl) ?_
        exact h18
      · exact h18
    · refine upd_pm (sub hw rfl) ?_
      exact h14
  · refine upd_pm (sub hw rfl) ?_
    exact h12

theorem hotStep_keeps {s} (hw : μ ||| 72057594037927936 = μ) (h : Keeps μ s0 s) : Keeps μ s0 (hotStep s) := by
  unfold hotStep
  extract_lets x0 x1 x2 x3 x4
  clear_value x0
  clear_value x1
  clear_value x2
  clear_value x3
  have h5 : Keeps μ s0 x4 := by
    unfold x4
    refine upd_pm (sub hw rfl) ?_
    exact h
  clear_value x4
  refine ite_intro (P := Keeps μ s0) (fun _ => ?_) (fun _ => ?_)
  · exact h
  · refine ite_intro (P := Keeps μ s0) (fun _ => ?_) (fun _ => ?_)
    · refine raise_keeps ?_
      refine wrF_keeps ?_
      exact h5
    · split
      · rename_i y6 y7 y8 y9 y10 y11 e12 e13
        refine ite_intro (P := Keeps μ s0) (fun _ => ?_) (fun _ => ?_)
        · extract_lets x14 x15
          clear_value x14
          have h16 : Keeps μ s0 x15 := by
            unfold x15
            refine upd_pm (sub hw rfl) ?_
            exact h
          clear_value x15
          refine wrF_keeps ?_
          exact h16
        · exact h
      · rename_i y17 y18 y19 y20 e21
        exact h

theorem dieSample_keeps {s t} (hw : μ ||| 256 = μ) (h : Keeps μ s0 s) : Keeps μ s0 (dieSample s t) := by
  unfold dieSample
  extract_lets x0 x1 x2 x3 x4
  clear_value x0
  clear_value x1
  clear_value x2
  have h5 : Keeps μ s0 x3 := by
    unfold x3
    refine wr_keeps ?_
    exact h
  clear_value x3
  have h6 : Keeps μ s0 x4 := by
    unfold x4
    refine ite_intro (P := Keeps μ s0) (fun _ => ?_) (fun _ => ?_)
    · refine raise_keeps ?_
      exact h5
    · exact h5
  clear_value x4
  refine ite_intro (P := Keeps μ s0) (fun _ => ?_) (fun _ => ?_)
  · refine levelReport_keeps (sub hw rfl) ?_
    exact h6
  · exact h6

theorem clockStep_keeps {s} (hw : μ ||| 72057594037927936 = μ) (h : Keeps μ s0 s) : Keeps μ s0 (clockStep s) := by
  unfold clockStep
  extract_lets x0 x1 x2 x3 x4 x5 x6 x7 x8
  clear_value x0
  clear_value x1
  clear_value x2
  clear_value x3
  clear_value x4
  have h9 : Keeps μ s0 x5 := by
    unfold x5
    refine upd_pm (sub hw rfl) ?_
    exact h
  clear_value x5
  have h10 : Keeps μ s0 x6 := by
    unfold x6
    refine ite_intro (P := Keeps μ s0) (fun _ => ?_) (fun _ => ?_)
    · refine raise_keeps ?_
      exact h9
    · exact h9
  clear_value x6
  clear_value x7
  have h11 : ∀ a0, Keeps μ s0 (x8 a0) := by
    intro a0
    unfold x8
    refine ite_intro (P := Keeps μ s0) (fun _ => ?_) (fun _ => ?_)
    · refine upd_pm (sub hw rfl) ?_
      exact h10
    · refine setClockStep_keeps ?_
      exact h10
  clear_value x8
  refine ite_intro (P := Keeps μ s0) (fun _ => ?_) (fun _ => ?_)
  · exact h
  · refine ite_intro (P := Keeps μ s0) (fun _ => ?_) (fun _ => ?_)
    · refine h11 _
    · refine ite_intro (P := Keeps μ s0) (fun _ => ?_) (fun _ => ?_)
      · refine h11 _
      · exact h

theorem holdEntry_keeps {s d idle} (h : Keeps μ s0 s) : Keeps μ s0 (holdEntry s d idle) := by
  unfold holdEntry
  extract_lets x0
  clear_value x0
  refine ite_intro (P := Keeps μ s0) (fun _ => ?_) (fun _ => ?_)
  · exact h
  · refine wr_keeps ?_
    exact h

theorem restartTimeouts_keeps {v0 s} (hw : μ ||| 134217728 = μ) (h : Keeps μ s0 v0) (h2 : Keeps μ s0 s) : Keeps μ s0 (restartTimeouts v0 s) := by
  unfold restartTimeouts
  refine upd_insts (sub hw rfl) ?_
  exact h2

theorem domainWake_keeps {s d} (hw : μ ||| 105597664364908 = μ) (h : Keeps μ s0 s) : Keeps μ s0 (domainWake s d) := by
  unfold domainWake
  refine ite_intro (P := Keeps μ s0) (fun _ => ?_) (fun _ => ?_)
  · exact h
  · extract_lets x0 x1 x2 x3
    have h4 : Keeps μ s0 x0 := by
      unfold x0
      exact h
    clear_value x0
    clear_value x1
    have h5 : Keeps μ s0 x2 := by
      unfold x2
      refine upd_keeps ?_
      exact h
    clear_value x2
    have h6 : Keeps μ s0 x3 := by
      unfold x3
      refine bump_keeps ?_
      refine wr_keeps ?_
      exact h5
    clear_value x3
    refine restartTimeouts_keeps (sub hw rfl) ?_ ?_
    · exact h4
    · refine deferredApplies_keeps (sub hw rfl) ?_
      exact h6

theorem scrubRead_keeps {s a n} (hw : μ ||| 42949673280 = μ) (h : Keeps μ s0 s) : Keeps μ s0 (scrubRead s a n) := by
  unfold scrubRead
  refine foldl2_keeps ?_ ?_
  · refine mk2_keeps ?_
    exact h
  · intro x0 x1 h2
    refine eccReadWord_keeps (sub hw rfl) ?_
    exact h2

theorem scrubStep_keeps {s u} (hw : μ ||| 42949673408 = μ) (h : Keeps μ s0 s) : Keeps μ s0 (scrubStep s u) := by
  unfold scrubStep
  extract_lets x0 x1 x2 x3 x4
  clear_value x0
  clear_value x1
  clear_value x2
  clear_value x3
  have h5 : Keeps μ s0 x4 := by
    unfold x4
    refine scrubRead_keeps (sub hw rfl) ?_
    refine countWords_keeps ?_
    refine setScrub_keeps (sub hw rfl) ?_
    refine extWait_keeps ?_
    exact h
  clear_value x4
  refine ite_intro (P := Keeps μ s0) (fun _ => ?_) (fun _ => ?_)
  · exact h
  · refine ite_intro (P := Keeps μ s0) (fun _ => ?_) (fun _ => ?_)
    · refine bump_keeps ?_
      exact h5
    · exact h5

theorem scrubReads_keeps {n s u} (hw : μ ||| 42949673408 = μ) (h : Keeps μ s0 s) : Keeps μ s0 (scrubReads n s u) := by
  induction n generalizing s with
  | zero => exact h
  | succ n ih => exact ih (scrubStep_keeps hw h)

theorem scrubPeriod_keeps {s u period unit complete lag} (hw : μ ||| 42949673408 = μ) (h : Keeps μ s0 s)
    (hf5 : ∀ a0, Keeps μ s0 a0 → Keeps μ s0 (lag a0)) : Keeps μ s0 (scrubPeriod s u period unit complete lag) := by
  unfold scrubPeriod
  extract_lets x0 x1 x2
  clear_value x0
  clear_value x1
  have h3 : Keeps μ s0 x2 := by
    unfold x2
    refine setScrub_keeps (sub hw rfl) ?_
    refine ite_intro (P := Keeps μ s0) (fun _ => ?_) (fun _ => ?_)
    · exact scrubReads_keeps hw h
    · exact h
  clear_value x2
  refine ite_intro (P := Keeps μ s0) (fun _ => ?_) (fun _ => ?_)
  · exact h
  · refine ite_intro (P := Keeps μ s0) (fun _ => ?_) (fun _ => ?_)
    · refine hf5 _ ?_
      exact h3
    · exact h3

theorem upsetWord_keeps {s w hit} (hw : μ ||| 96 = μ) (h : Keeps μ s0 s) : Keeps μ s0 (upsetWord s w hit) := by
  unfold upsetWord
  extract_lets x0 x1 x2
  clear_value x0
  clear_value x1
  have h3 : Keeps μ s0 (x2).2 := by
    unfold x2
    refine drawFree_keeps ?_
    exact h
  clear_value x2
  refine ite_intro (P := Keeps μ s0) (fun _ => ?_) (fun _ => ?_)
  · refine setEcc_keeps (sub hw rfl) ?_
    exact h
  · refine ite_intro (P := Keeps μ s0) (fun _ => ?_) (fun _ => ?_)
    · refine setEcc_keeps (sub hw rfl) ?_
      exact h
    · refine ite_intro (P := Keeps μ s0) (fun _ => ?_) (fun _ => ?_)
      · refine setEcc_keeps (sub hw rfl) ?_
        exact h3
      · refine setEcc_keeps (sub hw rfl) ?_
        refine memPut_keeps (sub hw rfl) ?_
        exact h3

theorem scrubUpset_keeps {s u upset} (hw : μ ||| 8589934944 = μ) (h : Keeps μ s0 s) : Keeps μ s0 (scrubUpset s u upset) := by
  unfold scrubUpset
  extract_lets x0 x1
  clear_value x0
  clear_value x1
  split
  · rename_i y2
    exact h
  · rename_i y3 y4
    refine upsetWord_keeps (sub hw rfl) ?_
    exact h
  · rename_i y5
    refine ite_intro (P := Keeps μ s0) (fun _ => ?_) (fun _ => ?_)
    · exact h
    · refine eccUncorrectable_keeps (sub hw rfl) ?_
      exact h

theorem seqRows_keeps {s cls echo fp16 addr stride parts n} (hw : μ ||| 42949673280 = μ) (h : Keeps μ s0 s) : Keeps μ s0 (seqRows s cls echo fp16 addr stride parts n).2.2 := by
  unfold seqRows
  refine ite3_keeps (fun _ => ?_) (fun _ => ?_)
  · refine mk3_keeps ?_
    exact h
  · refine foldl3_keeps ?_ ?_
    · refine mk3_keeps ?_
      exact h
    · intro x0 x1 h2
      refine ite3_keeps (fun _ => ?_) (fun _ => ?_)
      · exact h2
      · split
        · rename_i y3 y4 y5 y6 y7 e8
          have h9 : Keeps μ s0 y7 := by
            refine of3 e8 ?_
            refine memRead_keeps (sub hw rfl) ?_
            exact h2
          extract_lets x10
          clear_value x10
          refine ite3_keeps (fun _ => ?_) (fun _ => ?_)
          · refine mk3_keeps ?_
            exact h9
          · refine mk3_keeps ?_
            exact h9
        · rename_i y11 y12 y13 y14 y15 y16 e17 e18
          have h19 : Keeps μ s0 y16 := by
            refine of3 e18 ?_
            refine memRead_keeps (sub hw rfl) ?_
            exact h2
          refine mk3_keeps ?_
          exact h19

theorem oldSlot_keeps {s g e b} (hw : μ ||| 42949673280 = μ) (h : Keeps μ s0 s) : Keeps μ s0 (oldSlot s g e b).2 := by
  unfold oldSlot
  refine ite2_keeps (fun _ => ?_) (fun _ => ?_)
  · refine mk2_keeps ?_
    exact h
  · refine slotOfPos_keeps (sub hw rfl) ?_
    exact h

theorem freeBytes_keeps {s n} (h : Keeps μ s0 s) : Keeps μ s0 (freeBytes s n).2 := by
  unfold freeBytes
  split
  rename_i y0 y1 y2 e3
  have h4 : Keeps μ s0 y2 := by
    refine of2 e3 ?_
    refine drawFree_keeps ?_
    exact h
  refine mk2_keeps ?_
  exact h4

theorem oldPage_keeps {s e old l p} (h : Keeps μ s0 s) : Keeps μ s0 (oldPage s e old l p).2 := by
  unfold oldPage
  split
  · rename_i y0 y1
    refine ite2_keeps (fun _ => ?_) (fun _ => ?_)
    · refine mk2_keeps ?_
      exact h
    · refine freeBytes_keeps ?_
      exact h
  · rename_i y2
    refine freeBytes_keeps ?_
    exact h

theorem writeBlockLayer_keeps {s e l r0 old pages kRows vRows cls echo} (hw : μ ||| 35227321762144 = μ) (h : Keeps μ s0 s) : Keeps μ s0 (writeBlockLayer s e l r0 old pages kRows vRows cls echo).2.2.2.2 := by
  unfold writeBlockLayer
  refine foldl5_keeps ?_ ?_
  · refine mk5_keeps ?_
    exact h
  · intro x0 x1 h2
    refine ite5_keeps (fun _ => ?_) (fun _ => ?_)
    · exact h2
    · extract_lets x3 x4 x5
      clear_value x3
      have h6 : Keeps μ s0 x4 := by
        unfold x4
        exact h2
      clear_value x4
      clear_value x5
      split
      rename_i y7 y8 y9 y10 e11
      have h12 : Keeps μ s0 y10 := by
        refine of2 e11 ?_
        refine ite2_keeps (fun _ => ?_) (fun _ => ?_)
        · refine mk2_keeps ?_
          exact h6
        · refine oldPage_keeps ?_
          exact h6
      extract_lets x13 x14 x15
      clear_value x13
      clear_value x14
      clear_value x15
      refine ite5_keeps (fun _ => ?_) (fun _ => ?_)
      · split
        rename_i y16 y17 y18 y19 e20
        have h21 : Keeps μ s0 y19 := by
          refine of2 e20 ?_
          refine memWrite_keeps (sub hw rfl) ?_
          exact h12
        refine mk5_keeps ?_
        exact h21
      · split
        rename_i y22 y23 y24 y25 e26
        have h27 : Keeps μ s0 y25 := by
          refine of2 e26 ?_
          refine memWrite_keeps (sub hw rfl) ?_
          exact h12
        refine mk5_keeps ?_
        exact h27

theorem seqQuantCounts_keeps {s sat flush} (h : Keeps μ s0 s) : Keeps μ s0 (seqQuantCounts s sat flush) := by
  unfold seqQuantCounts
  refine bumpSat_keeps ?_
  refine bumpSat_keeps ?_
  exact h

theorem replacePages_keeps {s ps} (hw : μ ||| 33554432 = μ) (h : Keeps μ s0 s) : Keeps μ s0 (replacePages s ps) := by
  unfold replacePages
  refine releaseHeld_keeps (sub hw rfl) ?_
  refine setSeq_keeps (sub hw rfl) ?_
  exact h

theorem commitGroup_keeps {s g} (hw : μ ||| 35227355316576 = μ) (h : Keeps μ s0 s) : Keeps μ s0 (commitGroup s g) := by
  unfold commitGroup
  extract_lets x0 x1 x2 x3
  clear_value x0
  have h4 : Keeps μ s0 x1 := by
    unfold x1
    refine foldl_intro (P := Keeps μ s0) ?_ ?_
    · exact h
    · intro x5 x6 h7
      extract_lets x8 x9 x10 x11 x12 x13 x14
      clear_value x8
      have h15 : Keeps μ s0 x9 := by
        unfold x9
        split
        · rename_i y16 y17
          refine replacePages_keeps (sub hw rfl) ?_
          exact h7
        · rename_i y18
          exact h7
      clear_value x9
      clear_value x10
      clear_value x11
      clear_value x12
      clear_value x13
      have h19 : Keeps μ s0 x14 := by
        unfold x14
        refine writeSlot_keeps (sub hw rfl) ?_
        exact h15
      clear_value x14
      refine writeEntry_keeps (sub hw rfl) ?_
      exact h19
  clear_value x1
  clear_value x2
  have h20 : Keeps μ s0 x3 := by
    unfold x3
    refine writeEntry_keeps (sub hw rfl) ?_
    exact h4
  clear_value x3
  refine setSeq_keeps (sub hw rfl) ?_
  exact h20

theorem appendBlocks_keeps {s c f e g ks vs} (hw : μ ||| 105596586033516 = μ) (h : Keeps μ s0 s) :
    Keeps μ s0 (appendBlocks s c f e g ks vs).2.2.2.2 := by
  unfold appendBlocks
  refine foldl5_keeps ?_ ?_
  · refine mk5_keeps ?_
    exact h
  · intro x45 x46 h47
    refine ite5_keeps (fun _ => ?_) (fun _ => ?_)
    · exact h47
    · extract_lets x48 x49 x50 x51
      have h52 : Keeps μ s0 x48 := by
        unfold x48
        exact h47
      clear_value x48
      clear_value x49
      clear_value x50
      clear_value x51
      split
      · rename_i y53 y54 y55 y56 e57
        have h58 : Keeps μ s0 y56 := by
          refine of2 e57 ?_
          refine oldSlot_keeps (sub hw rfl) ?_
          exact h52
        refine mk5_keeps ?_
        exact h58
      · rename_i y59 y60 y61 y62 e63
        have h64 : Keeps μ s0 y62 := by
          refine of2 e63 ?_
          refine oldSlot_keeps (sub hw rfl) ?_
          exact h52
        split
        rename_i y65 y66 y67 y68 y69 y70 e71
        have h72 : Keeps μ s0 y70 := by
          refine of5 e71 ?_
          refine writeBlockLayer_keeps (sub hw rfl) ?_
          exact h64
        split
        rename_i y73 y74 y75 y76 e77
        have h78 : Keeps μ s0 y76 := by
          refine of3 e77 ?_
          refine ite3_keeps (fun _ => ?_) (fun _ => ?_)
          · refine mk3_keeps ?_
            exact h72
          · refine readRuns_keeps (sub hw rfl) ?_
            exact h72
        extract_lets x79
        clear_value x79
        refine mk5_keeps ?_
        exact h78

theorem seqAppendEnd_keeps {s c mismatch} (hw : μ ||| 105596586033516 = μ) (h : Keeps μ s0 s) : Keeps μ s0 (seqAppendEnd s c mismatch) := by
  unfold seqAppendEnd
  extract_lets x0 x1
  clear_value x0
  have h2 : ∀ a0 a1 a2, Keeps μ s0 a0 → Keeps μ s0 (x1 a0 a1 a2) := by
    intro a0 a1 a2 h3
    unfold x1
    refine seqFail_keeps (sub hw rfl) ?_
    split
    · rename_i y4 y5 e6
      refine discardGroup_keeps (sub hw rfl) ?_
      exact h3
    · rename_i y7 e8
      exact h3
  clear_value x1
  split
  · rename_i y9 e10
    refine seqFail_keeps (sub hw rfl) ?_
    exact h
  · rename_i y11 y12 e13
    split
    · rename_i y14 y15 y16 e17
      have h18 : Keeps μ s0 y16 := by
        refine of2 e17 ?_
        refine readEntry_keeps (sub hw rfl) ?_
        exact h
      refine h2 _ _ _ ?_
      exact h18
    · rename_i y19 y20 y21 e22
      have h23 : Keeps μ s0 y21 := by
        refine of2 e22 ?_
        refine readEntry_keeps (sub hw rfl) ?_
        exact h
      split
      · rename_i y24 y25 y26 e27
        have h28 : Keeps μ s0 y26 := by
          refine of3 e27 ?_
          refine seqRows_keeps (sub hw rfl) ?_
          exact h23
        split
        · rename_i y29 y30 y31 e32
          have h33 : Keeps μ s0 y31 := by
            refine of3 e32 ?_
            refine seqRows_keeps (sub hw rfl) ?_
            exact h28
          split
          · rename_i y34 y35 y36 e37
            have h38 : Keeps μ s0 y36 := by
              refine of2 e37 ?_
              refine seqMismatch_keeps ?_
              exact h33
            refine h2 _ _ _ ?_
            exact h38
          · rename_i y39 y40 e41
            have h42 : Keeps μ s0 y40 := by
              refine of2 e41 ?_
              refine seqMismatch_keeps ?_
              exact h33
            split
            · rename_i y79 y80 y81 y82 y83 e84
              have h44 : Keeps μ s0 y83 := by
                refine of5 e84 ?_
                refine appendBlocks_keeps (sub hw rfl) ?_
                exact h42
              extract_lets x85 x86 x87 x88
              have h89 : Keeps μ s0 x85 := by
                unfold x85
                refine seqQuantCounts_keeps ?_
                exact h44
              clear_value x85
              clear_value x86
              have h90 : Keeps μ s0 x87 := by
                unfold x87
                refine setSeq_keeps (sub hw rfl) ?_
                exact h89
              clear_value x87
              have h91 : Keeps μ s0 x88 := by
                unfold x88
                refine ite_intro (P := Keeps μ s0) (fun _ => ?_) (fun _ => ?_)
                · refine commitGroup_keeps (sub hw rfl) ?_
                  exact h90
                · exact h90
              clear_value x88
              refine seqDone_keeps (sub hw rfl) ?_
              exact h91
            · rename_i y92 y93 y94 y95 y96 y97 e98
              have h44 : Keeps μ s0 y96 := by
                refine of5 e98 ?_
                refine appendBlocks_keeps (sub hw rfl) ?_
                exact h42
              refine h2 _ _ _ ?_
              exact h44
        · rename_i y99 y100 y101 y102 e103 e104
          have h105 : Keeps μ s0 y102 := by
            refine of3 e104 ?_
            refine seqRows_keeps (sub hw rfl) ?_
            exact h28
          refine h2 _ _ _ ?_
          exact h105
      · rename_i y106 y107 y108 y109 e110 e111
        have h112 : Keeps μ s0 y109 := by
          refine of3 e111 ?_
          refine seqRows_keeps (sub hw rfl) ?_
          exact h23
        refine h2 _ _ _ ?_
        exact h112

theorem restoreLive_keeps {s r x} (hw : μ ||| 35227623752032 = μ) (h : Keeps μ s0 s) : Keeps μ s0 (restoreLive s r x) := by
  unfold restoreLive
  extract_lets x0 x1 x2 x3 x4 x5 x6
  clear_value x0
  clear_value x1
  have h7 : Keeps μ s0 x2 := by
    unfold x2
    refine writeSlot_keeps (sub hw rfl) ?_
    exact h
  clear_value x2
  clear_value x3
  have h8 : Keeps μ s0 x4 := by
    unfold x4
    refine setSeq_keeps (sub hw rfl) ?_
    exact h7
  clear_value x4
  have h9 : Keeps μ s0 x5 := by
    unfold x5
    refine writeEntry_keeps (sub hw rfl) ?_
    exact h8
  clear_value x5
  have h10 : Keeps μ s0 x6 := by
    unfold x6
    refine setSeq_keeps (sub hw rfl) ?_
    exact h9
  clear_value x6
  refine seqRegs_keeps (sub hw rfl) ?_
  refine bump_keeps ?_
  exact h10

end Sys2Proof.Laws
end

