-- ==== Sys2Proof/Laws/Keeps9.lean ====
section
/-!
SUPPORT. The functions of the model keep the queue, the fuses and the canonical memories: part 9.
-/

namespace Sys2Proof.Laws

open Sys2Proof.Machine Sys2Proof.Safety

variable {s0 : State} {α β γ δ : Type} {μ : Nat}

theorem seqRestoreEnd_keeps {s c mismatch} (hw : μ ||| 105596586033516 = μ) (h : Keeps μ s0 s) : Keeps μ s0 (seqRestoreEnd s c mismatch) := by
  unfold seqRestoreEnd
  extract_lets x0 x1 x2
  clear_value x0
  clear_value x1
  have h3 : ∀ a0 a1 a2, Keeps μ s0 a0 → Keeps μ s0 (x2 a0 a1 a2) := by
    intro a0 a1 a2 h4
    unfold x2
    refine seqFail_keeps (sub hw rfl) ?_
    refine restoreGone_keeps (sub hw rfl) ?_
    exact h4
  clear_value x2
  split
  · rename_i y5 y6 y7 e8
    have h9 : Keeps μ s0 y7 := by
      refine of2 e8 ?_
      refine readEntry_keeps (sub hw rfl) ?_
      exact h
    refine h3 _ _ _ ?_
    exact h9
  · rename_i y10 y11 y12 e13
    have h14 : Keeps μ s0 y12 := by
      refine of2 e13 ?_
      refine readEntry_keeps (sub hw rfl) ?_
      exact h
    split
    · rename_i y15 y16 y17 e18
      have h19 : Keeps μ s0 y17 := by
        refine of2 e18 ?_
        refine slotOfPos_keeps (sub hw rfl) ?_
        exact h14
      refine h3 _ _ _ ?_
      exact h19
    · rename_i y20 y21 y22 e23
      have h24 : Keeps μ s0 y22 := by
        refine of2 e23 ?_
        refine slotOfPos_keeps (sub hw rfl) ?_
        exact h14
      split
      · rename_i y25 y26 y27 y28 e29
        refine ite_intro (P := Keeps μ s0) (fun _ => ?_) (fun _ => ?_)
        · refine seqDone_keeps (sub hw rfl) ?_
          refine restoreGone_keeps (sub hw rfl) ?_
          exact h24
        · split
          · rename_i y30 y31 y32 y33 e34
            have h35 : Keeps μ s0 y33 := by
              refine of3 e34 ?_
              refine seqRows_keeps (sub hw rfl) ?_
              exact h24
            split
            · rename_i y36 y37 y38 e39
              have h40 : Keeps μ s0 y38 := by
                refine of3 e39 ?_
                refine seqRows_keeps (sub hw rfl) ?_
                exact h35
              split
              · rename_i y41 y42 y43 e44
                have h45 : Keeps μ s0 y43 := by
                  refine of2 e44 ?_
                  refine seqMismatch_keeps ?_
                  exact h40
                refine h3 _ _ _ ?_
                exact h45
              · rename_i y46 y47 e48
                have h49 : Keeps μ s0 y47 := by
                  refine of2 e48 ?_
                  refine seqMismatch_keeps ?_
                  exact h40
                split
                · rename_i y50 y51 y52 y53 y54 e55
                  have h56 : Keeps μ s0 y54 := by
                    refine of5 e55 ?_
                    refine writeBlockLayer_keeps (sub hw rfl) ?_
                    exact h49
                  extract_lets x57 x58 x59 x60 x61
                  have h62 : Keeps μ s0 x57 := by
                    unfold x57
                    refine seqQuantCounts_keeps ?_
                    exact h56
                  clear_value x57
                  clear_value x58
                  clear_value x59
                  have h63 : Keeps μ s0 x60 := by
                    unfold x60
                    refine setSeq_keeps (sub hw rfl) ?_
                    exact h62
                  clear_value x60
                  have h64 : Keeps μ s0 x61 := by
                    unfold x61
                    refine ite_intro (P := Keeps μ s0) (fun _ => ?_) (fun _ => ?_)
                    · refine restoreLive_keeps (sub hw rfl) ?_
                      exact h63
                    · exact h63
                  clear_value x61
                  refine seqDone_keeps (sub hw rfl) ?_
                  exact h64
                · rename_i y65 y66 y67 y68 y69 y70 e71 e72
                  have h73 : Keeps μ s0 y70 := by
                    refine of5 e72 ?_
                    refine writeBlockLayer_keeps (sub hw rfl) ?_
                    exact h49
                  refine h3 _ _ _ ?_
                  exact h73
            · rename_i y74 y75 y76 y77 e78 e79
              have h80 : Keeps μ s0 y77 := by
                refine of3 e79 ?_
                refine seqRows_keeps (sub hw rfl) ?_
                exact h35
              refine h3 _ _ _ ?_
              exact h80
          · rename_i y81 y82 y83 y84 y85 e86 e87
            have h88 : Keeps μ s0 y85 := by
              refine of3 e87 ?_
              refine seqRows_keeps (sub hw rfl) ?_
              exact h24
            refine h3 _ _ _ ?_
            exact h88
      · rename_i y89 y90 y91 e92
        refine seqDone_keeps (sub hw rfl) ?_
        refine restoreGone_keeps (sub hw rfl) ?_
        exact h24

theorem closePages_keeps {s ctx e bs} (hw : μ ||| 105596586033516 = μ) (h : Keeps μ s0 s) : Keeps μ s0 (closePages s ctx e bs) := by
  unfold closePages
  extract_lets x31 x32 x33
  clear_value x31
  have h35 : Keeps μ s0 x32 := by
    unfold x32
    refine freePages_keeps (sub hw rfl) ?_
    exact h
  clear_value x32
  refine poolRegs_keeps ?_
  refine setSeq_keeps (sub hw rfl) ?_
  exact h35

theorem seqCloseEnd_keeps {s c} (hw : μ ||| 105596586033516 = μ) (h : Keeps μ s0 s) : Keeps μ s0 (seqCloseEnd s c) := by
  unfold seqCloseEnd
  extract_lets x0 x1
  clear_value x0
  have h3 : Keeps μ s0 x1 := by
    unfold x1
    split
    · rename_i y4 y5 e6
      refine discardGroup_keeps (sub hw rfl) ?_
      exact h
    · rename_i y7 e8
      exact h
  clear_value x1
  refine ite_intro (P := Keeps μ s0) (fun _ => ?_) (fun _ => ?_)
  · exact h
  · split
    · rename_i y9 y10 y11 y12 e13
      have h14 : Keeps μ s0 y12 := by
        refine of2 e13 ?_
        refine readEntry_keeps (sub hw rfl) ?_
        exact h3
      refine seqFail_keeps (sub hw rfl) ?_
      exact h14
    · rename_i y15 y16 y17 y18 e19
      have h20 : Keeps μ s0 y18 := by
        refine of2 e19 ?_
        refine readEntry_keeps (sub hw rfl) ?_
        exact h3
      split
      · rename_i y21 y22 y23 e24
        have h25 : Keeps μ s0 y23 := by
          refine of2 e24 ?_
          refine readSlots_keeps (sub hw rfl) ?_
          exact h20
        refine seqFail_keeps (sub hw rfl) ?_
        exact h25
      · rename_i y26 y27 y28 e29
        have h30 : Keeps μ s0 y28 := by
          refine of2 e29 ?_
          refine readSlots_keeps (sub hw rfl) ?_
          exact h20
        extract_lets x33 x34
        have h36 : Keeps μ s0 x33 := by
          unfold x33
          refine closePages_keeps (sub hw rfl) ?_
          exact h30
        clear_value x33
        have h37 : Keeps μ s0 x34 := by
          unfold x34
          refine writeEntry_keeps (sub hw rfl) ?_
          exact h36
        clear_value x34
        refine seqDone_keeps (sub hw rfl) ?_
        refine countContexts_keeps ?_
        exact h37

theorem importChunk_keeps {s m i} (hw : μ ||| 42949673280 = μ) (h : Keeps μ s0 s) : Keeps μ s0 (importChunk s m i).2.2 := by
  unfold importChunk
  split
  · rename_i y0 y1 y2 e3
    have h4 : Keeps μ s0 y2 := by
      refine of3 e3 ?_
      refine memRead_keeps (sub hw rfl) ?_
      exact h
    split
    · rename_i y5 y6 y7 e8
      have h9 : Keeps μ s0 y7 := by
        refine of3 e8 ?_
        refine memRead_keeps (sub hw rfl) ?_
        exact h4
      extract_lets x10 x11 x12
      clear_value x10
      clear_value x11
      clear_value x12
      refine ite3_keeps (fun _ => ?_) (fun _ => ?_)
      · refine mk3_keeps ?_
        exact h9
      · refine mk3_keeps ?_
        refine authFail_keeps ?_
        exact h9
    · rename_i y13 y14 y15 y16 e17 e18
      have h19 : Keeps μ s0 y16 := by
        refine of3 e18 ?_
        refine memRead_keeps (sub hw rfl) ?_
        exact h4
      refine mk3_keeps ?_
      exact h19
  · rename_i y20 y21 y22 y23 e24 e25
    have h26 : Keeps μ s0 y23 := by
      refine of3 e25 ?_
      refine memRead_keeps (sub hw rfl) ?_
      exact h
    refine mk3_keeps ?_
    exact h26

theorem importChunks_keeps {m v1 v2 v3} (hw : μ ||| 35227321762144 = μ) (h : Keeps μ s0 v3) : Keeps μ s0 (importChunks m v1 v2 v3).2 := by
  induction v1 generalizing m v2 v3
  · unfold importChunks
    refine mk2_keeps ?_
    exact h
  · rename_i y11 y12
    unfold importChunks
    extract_lets x13 x14
    have h15 : Keeps μ s0 (x13).2.2 := by
      unfold x13
      refine importChunk_keeps (sub hw rfl) ?_
      exact h
    clear_value x13
    have h16 : Keeps μ s0 (x14).2 := by
      unfold x14
      refine memWrite_keeps (sub hw rfl) ?_
      exact h15
    clear_value x14
    refine ite2_keeps (fun _ => ?_) (fun _ => ?_)
    · refine ite2_keeps (fun _ => ?_) (fun _ => ?_)
      · refine y12 ?_
        exact h16
      · exact h16
    · refine mk2_keeps ?_
      exact h15

theorem importDone_keeps {s} (hw : μ ||| 288335972217651564 = μ) (h : Keeps μ s0 s) : Keeps μ s0 (importDone s) := by
  unfold importDone
  split
  · rename_i y0 e1
    exact h
  · rename_i y2 y3 e4
    refine ite_intro (P := Keeps μ s0) (fun _ => ?_) (fun _ => ?_)
    · exact h
    · extract_lets x5 x6
      clear_value x5
      have h7 : Keeps μ s0 x6 := by
        unfold x6
        refine upd_sec (sub hw rfl) ?_
        exact h
      clear_value x6
      split
      · rename_i y8 y9 y10 e11
        have h12 : Keeps μ s0 y10 := by
          refine of2 e11 ?_
          refine importChunks_keeps (sub hw rfl) ?_
          exact h7
        refine podComplete_keeps (sub hw rfl) ?_
        exact h12
      · rename_i y13 y14 y15 y16 e17 e18
        have h19 : Keeps μ s0 y16 := by
          refine of2 e18 ?_
          refine importChunks_keeps (sub hw rfl) ?_
          exact h7
        refine podComplete_keeps (sub hw rfl) ?_
        refine memWrite_keeps (sub hw rfl) ?_
        exact h19

theorem tick_keeps {s} (hw : μ ||| 549755813890 = μ) (h : Keeps μ s0 s) : Keeps μ s0 (tick s) := by
  unfold tick
  refine ite_intro (P := Keeps μ s0) (fun _ => ?_) (fun _ => ?_)
  · exact h
  · refine ite_intro (P := Keeps μ s0) (fun _ => ?_) (fun _ => ?_)
    · refine upd_ridge (sub hw rfl) ?_
      exact h
    · refine ite_intro (P := Keeps μ s0) (fun _ => ?_) (fun _ => ?_)
      · refine upd_ridge_time (sub hw rfl) ?_
        exact h
      · refine ite_intro (P := Keeps μ s0) (fun _ => ?_) (fun _ => ?_)
        · refine upd_ridge_time (sub hw rfl) ?_
          exact h
        · refine upd_time (sub hw rfl) ?_
          exact h

end Sys2Proof.Laws
end

