-- ==== Sys2Proof/Laws/KeepsExec1.lean ====
section
/-!
SUPPORT. Every command keeps the queue, the fuses and the canonical memories: the first half.
-/

namespace Sys2Proof.Laws

open Sys2Proof.Machine Sys2Proof.Safety

variable {s0 : State} {μ : Nat}

/-- A command on a block that runs. -/
theorem whenOn_keeps {f : State → State} {t : State} (hf : ∀ a, Keeps μ s0 a → Keeps μ s0 (f a))
    (h : whenOn f s0 = .next t) : Keeps μ s0 t := by
  unfold whenOn at h
  cases h
  exact ite_intro (P := Keeps μ s0) (fun _ => endCommand_keeps (Keeps.refl _ _) (hf _ (Keeps.refl _ _))) (fun _ => Keeps.refl _ _)

theorem execRailWindowFault_keeps {rail above s0 t} (hw : μ ||| 256 = μ) (h : execRailWindowFault rail above s0 = .next t) : Keeps μ s0 t := by
  unfold execRailWindowFault at h
  refine whenOn_keeps ?_ h
  intro a ha
  refine railFault_keeps (sub hw rfl) ?_
  exact ha

theorem execClockLost_keeps {snt stopped s0 t} (hw : μ ||| 64281892349866348 = μ) (h : execClockLost snt stopped s0 = .next t) : Keeps μ s0 t := by
  unfold execClockLost at h
  refine whenOn_keeps ?_ h
  intro a ha
  refine clockLost_keeps (sub hw rfl) ?_
  exact ha

theorem execPllUnlocked_keeps {d s0 t} (hw : μ ||| 256 = μ) (h : execPllUnlocked d s0 = .next t) : Keeps μ s0 t := by
  unfold execPllUnlocked at h
  refine whenOn_keeps ?_ h
  intro a ha
  refine pllUnlocked_keeps (sub hw rfl) ?_
  exact ha

theorem execAonFault_keeps {s0 t} (h : execAonFault s0 = .next t) : Keeps μ s0 t := by
  unfold execAonFault at h
  refine whenOn_keeps ?_ h
  intro a ha
  refine raise_keeps ?_
  refine wrF_keeps ?_
  exact ha

theorem execImageBegin_keeps {f kind len s0 t} (hw : μ ||| 345369805022306560 = μ) (h : execImageBegin f kind len s0 = .next t) : Keeps μ s0 t := by
  unfold execImageBegin at h
  refine whenOn_keeps ?_ h
  intro a ha
  refine mgtServe_keeps (sub hw rfl) ?_ ?_
  · exact ha
  · intro x0 h1
    refine imageBegin_keeps (sub hw rfl) ?_
    exact h1

theorem execImageChunk_keeps {f off data s0 t} (hw : μ ||| 289074801081851936 = μ) (h : execImageChunk f off data s0 = .next t) : Keeps μ s0 t := by
  unfold execImageChunk at h
  refine whenOn_keeps ?_ h
  intro a ha
  refine mgtServe_keeps (sub hw rfl) ?_ ?_
  · exact ha
  · intro x0 h1
    refine imageChunk_keeps (sub hw rfl) ?_
    exact h1

theorem execImageEnd_keeps {f fuseFails s0 t} (hw : μ ||| 489484993098162432 = μ) (h : execImageEnd f fuseFails s0 = .next t) : Keeps μ s0 t := by
  unfold execImageEnd at h
  refine whenOn_keeps ?_ h
  intro a ha
  refine mgtServe_keeps (sub hw rfl) ?_ ?_
  · exact ha
  · intro x0 h1
    refine imageEnd_keeps (sub hw rfl) ?_
    exact h1

theorem execImageTimeout_keeps {s0 t} (hw : μ ||| 288230376151711744 = μ) (h : execImageTimeout s0 = .next t) : Keeps μ s0 t := by
  unfold execImageTimeout at h
  refine whenOn_keeps ?_ h
  intro a ha
  refine imageTimeout_keeps (sub hw rfl) ?_
  exact ha

theorem execConfigWaitTimeout_keeps {s0 t} (hw : μ ||| 344525380092166400 = μ) (h : execConfigWaitTimeout s0 = .next t) : Keeps μ s0 t := by
  unfold execConfigWaitTimeout at h
  refine whenOn_keeps ?_ h
  intro a ha
  refine configTimeout_keeps (sub hw rfl) ?_
  exact ha

theorem execDramTrainingDone_keeps {failed s0 t} (hw : μ ||| 288230376151711776 = μ) (h : execDramTrainingDone failed s0 = .next t) : Keeps μ s0 t := by
  unfold execDramTrainingDone at h
  refine whenOn_keeps ?_ h
  intro a ha
  refine trainingEnds_keeps (sub hw rfl) ?_
  exact ha

theorem execPowerOnBistDone_keeps {failed s0 t} (hw : μ ||| 496908948742403948 = μ) (h : execPowerOnBistDone failed s0 = .next t) : Keeps μ s0 t := by
  unfold execPowerOnBistDone at h
  refine whenOn_keeps ?_ h
  intro a ha
  refine bistEnds_keeps (sub hw rfl) ?_
  exact ha

theorem execBootComplete_keeps {s0 t} (hw : μ ||| 297237575406452736 = μ) (h : execBootComplete s0 = .next t) : Keeps μ s0 t := by
  unfold execBootComplete at h
  refine whenOn_keeps ?_ h
  intro a ha
  refine bootComplete_keeps (sub hw rfl) ?_
  exact ha

theorem execRegisterWrite_keeps {agent addr bytes s0 t} (hw : μ ||| 496908948734015340 = μ) (h : execRegisterWrite agent addr bytes s0 = .next t) : Keeps μ s0 t := by
  unfold execRegisterWrite at h
  refine whenOn_keeps ?_ h
  intro a ha
  refine ite_intro (P := Keeps μ s0) (fun _ => ?_) (fun _ => ?_)
  · refine asAgent_keeps ?_ ?_
    · exact ha
    · intro x0 h1
      refine regWrite_keeps (sub hw rfl) ?_
      exact h1
  · exact ha

theorem execPostedWriteApply_keeps {page s0 t} (hw : μ ||| 496908948734015340 = μ) (h : execPostedWriteApply page s0 = .next t) : Keeps μ s0 t := by
  unfold execPostedWriteApply at h
  refine whenOn_keeps ?_ h
  intro a ha
  refine postedApply_keeps (sub hw rfl) ?_
  exact ha

theorem execEvtAck_keeps {agent page mask seq s0 t} (h : execEvtAck agent page mask seq s0 = .next t) : Keeps μ s0 t := by
  unfold execEvtAck at h
  refine whenOn_keeps ?_ h
  intro a ha
  refine pageWrite_keeps ?_ ?_
  · exact ha
  · intro x0 h1
    refine orderedWrite_keeps ?_ ?_
    · exact h1
    · intro x2 h3
      refine writeEvtAck_keeps ?_
      exact h3

theorem execMbxSelCapture_keeps {agent page sel s0 t} (h : execMbxSelCapture agent page sel s0 = .next t) : Keeps μ s0 t := by
  unfold execMbxSelCapture at h
  refine whenOn_keeps ?_ h
  intro a ha
  refine pageWrite_keeps ?_ ?_
  · exact ha
  · intro x0 h1
    refine orderedWrite_keeps ?_ ?_
    · exact h1
    · intro x2 h3
      refine writeMbxSel_keeps ?_
      exact h3

theorem execMbxSelCancel_keeps {agent page s0 t} (h : execMbxSelCancel agent page s0 = .next t) : Keeps μ s0 t := by
  unfold execMbxSelCancel at h
  refine whenOn_keeps ?_ h
  intro a ha
  refine pageWrite_keeps ?_ ?_
  · exact ha
  · intro x0 h1
    refine orderedWrite_keeps ?_ ?_
    · exact h1
    · intro x2 h3
      refine writeMbxSel_keeps ?_
      exact h3

theorem execMbxCaptureDone_keeps {page s0 t} (h : execMbxCaptureDone page s0 = .next t) : Keeps μ s0 t := by
  unfold execMbxCaptureDone at h
  refine whenOn_keeps ?_ h
  intro a ha
  refine captureDone_keeps ?_
  exact ha

theorem execKey_keeps {agent page v s0 t} (h : execKey agent page v s0 = .next t) : Keeps μ s0 t := by
  unfold execKey at h
  refine whenOn_keeps ?_ h
  intro a ha
  refine pageWrite_keeps ?_ ?_
  · exact ha
  · intro x0 h1
    refine writeKey_keeps ?_
    exact h1

theorem execUnlockLapse_keeps {agent page s0 t} (h : execUnlockLapse agent page s0 = .next t) : Keeps μ s0 t := by
  unfold execUnlockLapse at h
  refine whenOn_keeps ?_ h
  intro a ha
  extract_lets x0 x1
  clear_value x0
  clear_value x1
  refine upd_keeps ?_
  exact ha

theorem execLock_keeps {agent page bit s0 t} (h : execLock agent page bit s0 = .next t) : Keeps μ s0 t := by
  unfold execLock at h
  refine whenOn_keeps ?_ h
  intro a ha
  refine pageWrite_keeps ?_ ?_
  · exact ha
  · intro x0 h1
    refine writeLock_keeps ?_
    exact h1

theorem execUpdateStrobe_keeps {agent mask s0 t} (h : execUpdateStrobe agent mask s0 = .next t) : Keeps μ s0 t := by
  unfold execUpdateStrobe at h
  refine whenOn_keeps ?_ h
  intro a ha
  refine asAgent_keeps ?_ ?_
  · exact ha
  · intro x0 h1
    refine writeStrobe_keeps ?_
    exact h1

theorem execUpdateGroupApply_keeps {g s0 t} (hw : μ ||| 105597664364908 = μ) (h : execUpdateGroupApply g s0 = .next t) : Keeps μ s0 t := by
  unfold execUpdateGroupApply at h
  refine whenOn_keeps ?_ h
  intro a ha
  extract_lets x0
  clear_value x0
  refine ite_intro (P := Keeps μ s0) (fun _ => ?_) (fun _ => ?_)
  · refine groupApplies_keeps (sub hw rfl) ?_
    exact ha
  · exact ha

theorem execPodPortWrite_keeps {off bytes s0 t} (hw : μ ||| 8 = μ) (h : execPodPortWrite off bytes s0 = .next t) : Keeps μ s0 t := by
  unfold execPodPortWrite at h
  refine whenOn_keeps ?_ h
  intro a ha
  refine podPortWrite_keeps (sub hw rfl) ?_
  exact ha

theorem execPodResync_keeps {agent v s0 t} (hw : μ ||| 8 = μ) (h : execPodResync agent v s0 = .next t) : Keeps μ s0 t := by
  unfold execPodResync at h
  refine whenOn_keeps ?_ h
  intro a ha
  refine namedWrite_keeps ?_ ?_
  · exact ha
  · intro x0 h1
    refine applyResync_keeps (sub hw rfl) ?_
    exact h1

theorem execPodReceive_keeps {via rrLost s0 t} (hw : μ ||| 263994531120492 = μ) (h : execPodReceive via rrLost s0 = .next t) : Keeps μ s0 t := by
  unfold execPodReceive at h
  refine whenOn_keeps ?_ h
  intro a ha
  refine ite_intro (P := Keeps μ s0) (fun _ => ?_) (fun _ => ?_)
  · refine receiveStream_keeps (sub hw rfl) ?_
    exact ha
  · refine receiveGuyline_keeps (sub hw rfl) ?_
    exact ha

theorem execPodStart_keeps {no s0 t} (hw : μ ||| 496926609639536492 = μ) (h : execPodStart no s0 = .next t) : Keeps μ s0 t := by
  unfold execPodStart at h
  refine whenOn_keeps ?_ h
  intro a ha
  refine podStart_keeps (sub hw rfl) ?_
  exact ha

theorem execOriginClose_keeps {no s0 t} (hw : μ ||| 8 = μ) (h : execOriginClose no s0 = .next t) : Keeps μ s0 t := by
  unfold execOriginClose at h
  refine whenOn_keeps ?_ h
  intro a ha
  refine originClose_keeps (sub hw rfl) ?_
  exact ha

theorem execOriginWindowClose_keeps {origin s0 t} (hw : μ ||| 70368744177932 = μ) (h : execOriginWindowClose origin s0 = .next t) : Keeps μ s0 t := by
  unfold execOriginWindowClose at h
  refine whenOn_keeps ?_ h
  intro a ha
  refine originWindowClose_keeps (sub hw rfl) ?_
  exact ha

theorem execRetainCfg_keeps {agent v s0 t} (hw : μ ||| 8 = μ) (h : execRetainCfg agent v s0 = .next t) : Keeps μ s0 t := by
  unfold execRetainCfg at h
  refine whenOn_keeps ?_ h
  intro a ha
  refine namedWrite_keeps ?_ ?_
  · exact ha
  · intro x0 h1
    refine applyRetainCfg_keeps (sub hw rfl) ?_
    exact h1

theorem execBar2Access_keeps {off acc rrLost s0 t} (hw : μ ||| 496939803779069804 = μ) (h : execBar2Access off acc rrLost s0 = .next t) : Keeps μ s0 t := by
  unfold execBar2Access at h
  refine whenOn_keeps ?_ h
  intro a ha
  refine bar2Access_keeps (sub hw rfl) ?_
  exact ha

theorem execRemoteTimeout_keeps {s0 t} (hw : μ ||| 13194139533312 = μ) (h : execRemoteTimeout s0 = .next t) : Keeps μ s0 t := by
  unfold execRemoteTimeout at h
  refine whenOn_keeps ?_ h
  intro a ha
  refine remoteTimeout_keeps (sub hw rfl) ?_
  exact ha

theorem execU4Aperture_keeps {agent v s0 t} (h : execU4Aperture agent v s0 = .next t) : Keeps μ s0 t := by
  unfold execU4Aperture at h
  refine whenOn_keeps ?_ h
  intro a ha
  refine namedWrite_keeps ?_ ?_
  · exact ha
  · intro x0 h1
    refine applyPlain_keeps ?_
    exact h1

theorem execFunctionLevelReset_keeps {s0 t} (hw : μ ||| 8796093022208 = μ) (h : execFunctionLevelReset s0 = .next t) : Keeps μ s0 t := by
  unfold execFunctionLevelReset at h
  refine whenOn_keeps ?_ h
  intro a ha
  refine functionReset_keeps (sub hw rfl) ?_
  exact ha

theorem execMsixUnmask_keeps {agent vector v s0 t} (h : execMsixUnmask agent vector v s0 = .next t) : Keeps μ s0 t := by
  unfold execMsixUnmask at h
  refine whenOn_keeps ?_ h
  intro a ha
  refine namedWrite_keeps ?_ ?_
  · exact ha
  · intro x0 h1
    refine applyMsixCtrl_keeps ?_
    exact h1

theorem execUsb4BlockReceive_keeps {seq ok jobs s0 t} (hw : μ ||| 11270128402696 = μ) (h : execUsb4BlockReceive seq ok jobs s0 = .next t) : Keeps μ s0 t := by
  unfold execUsb4BlockReceive at h
  refine whenOn_keeps ?_ h
  intro a ha
  refine mediaBlock_keeps (sub hw rfl) ?_
  exact ha

theorem execHostLinkDown_keeps {jobs s0 t} (hw : μ ||| 11270128402696 = μ) (h : execHostLinkDown jobs s0 = .next t) : Keeps μ s0 t := by
  unfold execHostLinkDown at h
  refine whenOn_keeps ?_ h
  intro a ha
  refine hostDown_keeps (sub hw rfl) ?_
  exact ha

theorem execHostLinkUp_keeps {gen4 s0 t} (hw : μ ||| 2199023255808 = μ) (h : execHostLinkUp gen4 s0 = .next t) : Keeps μ s0 t := by
  unfold execHostLinkUp at h
  refine whenOn_keeps ?_ h
  intro a ha
  refine hostLinkUp_keeps (sub hw rfl) ?_
  exact ha

theorem execTsfFrameReceive_keeps {port frame rrLost s0 t} (hw : μ ||| 35227328462176 = μ) (h : execTsfFrameReceive port frame rrLost s0 = .next t) : Keeps μ s0 t := by
  unfold execTsfFrameReceive at h
  refine whenOn_keeps ?_ h
  intro a ha
  refine frameReceive_keeps (sub hw rfl) ?_
  exact ha

theorem execStreamWindowStart_keeps {port vc s0 t} (hw : μ ||| 8594524416 = μ) (h : execStreamWindowStart port vc s0 = .next t) : Keeps μ s0 t := by
  unfold execStreamWindowStart at h
  refine whenOn_keeps ?_ h
  intro a ha
  refine windowStart_keeps (sub hw rfl) ?_
  exact ha

theorem execFsDeadline_keeps {port vc s0 t} (hw : μ ||| 4589824 = μ) (h : execFsDeadline port vc s0 = .next t) : Keeps μ s0 t := by
  unfold execFsDeadline at h
  refine whenOn_keeps ?_ h
  intro a ha
  refine fsDeadline_keeps (sub hw rfl) ?_
  exact ha

theorem execFeDeadline_keeps {port vc s0 t} (hw : μ ||| 8594524416 = μ) (h : execFeDeadline port vc s0 = .next t) : Keeps μ s0 t := by
  unfold execFeDeadline at h
  refine whenOn_keeps ?_ h
  intro a ha
  refine feDeadline_keeps (sub hw rfl) ?_
  exact ha

theorem execTpDeadline_keeps {port vc s0 t} (hw : μ ||| 2304 = μ) (h : execTpDeadline port vc s0 = .next t) : Keeps μ s0 t := by
  unfold execTpDeadline at h
  refine whenOn_keeps ?_ h
  intro a ha
  refine tpDeadline_keeps (sub hw rfl) ?_
  exact ha

theorem execStreamEnable_keeps {agent port vc v s0 t} (h : execStreamEnable agent port vc v s0 = .next t) : Keeps μ s0 t := by
  unfold execStreamEnable at h
  refine whenOn_keeps ?_ h
  intro a ha
  extract_lets x0
  clear_value x0
  refine namedWrite_keeps ?_ ?_
  · exact ha
  · intro x1 h2
    refine applyStCtl_keeps ?_
    exact h2

theorem execCamSettings_keeps {no s0 t} (hw : μ ||| 70368744239372 = μ) (h : execCamSettings no s0 = .next t) : Keeps μ s0 t := by
  unfold execCamSettings at h
  refine whenOn_keeps ?_ h
  intro a ha
  split
  · rename_i y0 y1 y2 e3
    have h4 : Keeps μ s0 y2 := by
      refine ofSome2 e3 ?_
      refine iteO2_keeps (fun _ => ?_) (fun _ => ?_)
      · refine takePod_keeps (sub hw rfl) ?_
        exact ha
      · exact none_keeps
    refine camSettings_keeps (sub hw rfl) ?_
    exact h4
  · rename_i y11 e12
    exact ha

theorem execControlResponse_keeps {port s0 t} (hw : μ ||| 70368744214796 = μ) (h : execControlResponse port s0 = .next t) : Keeps μ s0 t := by
  unfold execControlResponse at h
  refine whenOn_keeps ?_ h
  intro a ha
  refine controlResponse_keeps (sub hw rfl) ?_
  exact ha

theorem execCamAckTimeout_keeps {port s0 t} (hw : μ ||| 70368744239372 = μ) (h : execCamAckTimeout port s0 = .next t) : Keeps μ s0 t := by
  unfold execCamAckTimeout at h
  refine whenOn_keeps ?_ h
  intro a ha
  refine ackTimeout_keeps (sub hw rfl) ?_
  exact ha

theorem execSettingsApplyRidge_keeps {port s0 t} (hw : μ ||| 4096 = μ) (h : execSettingsApplyRidge port s0 = .next t) : Keeps μ s0 t := by
  unfold execSettingsApplyRidge at h
  refine whenOn_keeps ?_ h
  intro a ha
  refine camExpire_keeps (sub hw rfl) ?_
  exact ha

theorem execGptpSyncSend_keeps {port s0 t} (hw : μ ||| 28672 = μ) (h : execGptpSyncSend port s0 = .next t) : Keeps μ s0 t := by
  unfold execGptpSyncSend at h
  refine whenOn_keeps ?_ h
  intro a ha
  extract_lets x0 x1 x2 x3 x4
  clear_value x0
  clear_value x1
  clear_value x2
  clear_value x3
  have h5 : Keeps μ s0 x4 := by
    unfold x4
    refine setSensor_keeps (sub hw rfl) ?_
    exact ha
  clear_value x4
  refine ite_intro (P := Keeps μ s0) (fun _ => ?_) (fun _ => ?_)
  · refine portSend_keeps (sub hw rfl) ?_
    exact h5
  · exact ha

theorem execGptpMessageReceive_keeps {port msg s0 t} (hw : μ ||| 24576 = μ) (h : execGptpMessageReceive port msg s0 = .next t) : Keeps μ s0 t := by
  unfold execGptpMessageReceive at h
  refine whenOn_keeps ?_ h
  intro a ha
  extract_lets x0
  clear_value x0
  refine ite_intro (P := Keeps μ s0) (fun _ => ?_) (fun _ => ?_)
  · split
    · rename_i y1 y2 y3
      refine portSend_keeps (sub hw rfl) ?_
      exact ha
    · rename_i y4 y5 y6 y7 y8 y9
      refine wr_keeps ?_
      exact ha
    · rename_i y10 y11
      exact ha
  · exact ha

theorem execSensorLinkUp_keeps {port s0 t} (hw : μ ||| 4352 = μ) (h : execSensorLinkUp port s0 = .next t) : Keeps μ s0 t := by
  unfold execSensorLinkUp at h
  refine whenOn_keeps ?_ h
  intro a ha
  extract_lets x0 x1 x2 x3 x4
  clear_value x0
  clear_value x1
  clear_value x2
  have h5 : Keeps μ s0 x3 := by
    unfold x3
    refine setSensor_keeps (sub hw rfl) ?_
    exact ha
  clear_value x3
  have h6 : Keeps μ s0 x4 := by
    unfold x4
    refine wr_keeps ?_
    exact h5
  clear_value x4
  refine ite_intro (P := Keeps μ s0) (fun _ => ?_) (fun _ => ?_)
  · exact ha
  · refine levelClear_keeps (sub hw rfl) ?_
    exact h6

theorem execSensorLinkDown_keeps {port cause s0 t} (hw : μ ||| 12544 = μ) (h : execSensorLinkDown port cause s0 = .next t) : Keeps μ s0 t := by
  unfold execSensorLinkDown at h
  refine whenOn_keeps ?_ h
  intro a ha
  refine sensorDown_keeps (sub hw rfl) ?_
  exact ha

theorem execMkaFrameReceive_keeps {port icvOk s0 t} (hw : μ ||| 24576 = μ) (h : execMkaFrameReceive port icvOk s0 = .next t) : Keeps μ s0 t := by
  unfold execMkaFrameReceive at h
  refine whenOn_keeps ?_ h
  intro a ha
  refine mkaFrame_keeps (sub hw rfl) ?_
  exact ha

theorem execMacsecRekey_keeps {port s0 t} (hw : μ ||| 24576 = μ) (h : execMacsecRekey port s0 = .next t) : Keeps μ s0 t := by
  unfold execMacsecRekey at h
  refine whenOn_keeps ?_ h
  intro a ha
  refine macRekey_keeps (sub hw rfl) ?_
  exact ha

theorem execOldSaExpire_keeps {port s0 t} (hw : μ ||| 8192 = μ) (h : execOldSaExpire port s0 = .next t) : Keeps μ s0 t := by
  unfold execOldSaExpire at h
  refine whenOn_keeps ?_ h
  intro a ha
  refine oldSaGone_keeps (sub hw rfl) ?_
  exact ha

theorem execPipeLine_keeps {q mainErr tapErr s0 t} (hw : μ ||| 4538826959356260 = μ) (h : execPipeLine q mainErr tapErr s0 = .next t) : Keeps μ s0 t := by
  unfold execPipeLine at h
  refine whenOn_keeps ?_ h
  intro a ha
  refine pipeLine_keeps (sub hw rfl) ?_
  exact ha

theorem execStatisticsPod_keeps {q slot s0 t} (hw : μ ||| 1048576 = μ) (h : execStatisticsPod q slot s0 = .next t) : Keeps μ s0 t := by
  unfold execStatisticsPod at h
  refine whenOn_keeps ?_ h
  intro a ha
  extract_lets x0 x1 x2
  clear_value x0
  clear_value x1
  have h3 : Keeps μ s0 x2 := by
    unfold x2
    refine upd_statQ (sub hw rfl) ?_
    exact ha
  clear_value x2
  refine foldl_intro (P := Keeps μ s0) ?_ ?_
  · exact h3
  · intro x4 x5 h6
    refine bump_keeps ?_
    refine sendTo_keeps ?_
    exact h6

theorem execPpFormationStart_keeps {s0 t} (hw : μ ||| 2097152 = μ) (h : execPpFormationStart s0 = .next t) : Keeps μ s0 t := by
  unfold execPpFormationStart at h
  refine whenOn_keeps ?_ h
  intro a ha
  split
  · rename_i y0 y1 y2 e3 e4
    refine ite_intro (P := Keeps μ s0) (fun _ => ?_) (fun _ => ?_)
    · extract_lets x5 x6
      clear_value x5
      clear_value x6
      refine wr_keeps ?_
      refine upd_pp (sub hw rfl) ?_
      exact ha
    · exact ha
  · rename_i y7 y8 e9
    exact ha

theorem execPpFormationDone_keeps {s0 t} (hw : μ ||| 35227323859300 = μ) (h : execPpFormationDone s0 = .next t) : Keeps μ s0 t := by
  unfold execPpFormationDone at h
  refine whenOn_keeps ?_ h
  intro a ha
  split
  · rename_i y0 y1 e2
    refine ite_intro (P := Keeps μ s0) (fun _ => ?_) (fun _ => ?_)
    · exact ha
    · refine ppFinish_keeps (sub hw rfl) ?_
      exact ha
  · rename_i y3 e4
    exact ha

theorem execBatchSubmit_keeps {no s0 t} (hw : μ ||| 4194312 = μ) (h : execBatchSubmit no s0 = .next t) : Keeps μ s0 t := by
  unfold execBatchSubmit at h
  refine whenOn_keeps ?_ h
  intro a ha
  split
  · rename_i y0 y1 y2 e3
    have h4 : Keeps μ s0 y2 := by
      refine ofSome2 e3 ?_
      refine takePod_keeps (sub hw rfl) ?_
      exact ha
    refine ite_intro (P := Keeps μ s0) (fun _ => ?_) (fun _ => ?_)
    · extract_lets x7 x8 x9
      clear_value x7
      clear_value x8
      have h10 : Keeps μ s0 x9 := by
        unfold x9
        refine setDq_keeps (sub hw rfl) ?_
        exact h4
      clear_value x9
      refine dqUpdate_keeps (sub hw rfl) ?_
      exact h10
    · exact ha
  · rename_i y11 e12
    exact ha

theorem execQueueReset_keeps {no s0 t} (hw : μ ||| 70368748372236 = μ) (h : execQueueReset no s0 = .next t) : Keeps μ s0 t := by
  unfold execQueueReset at h
  refine whenOn_keeps ?_ h
  intro a ha
  split
  · rename_i y0 y1 y2 e3
    have h4 : Keeps μ s0 y2 := by
      refine ofSome2 e3 ?_
      refine takePod_keeps (sub hw rfl) ?_
      exact ha
    extract_lets x7 x8 x9
    clear_value x7
    clear_value x8
    have h10 : Keeps μ s0 x9 := by
      unfold x9
      refine wrF_keeps ?_
      refine setDq_keeps (sub hw rfl) ?_
      exact h4
    clear_value x9
    refine ite_intro (P := Keeps μ s0) (fun _ => ?_) (fun _ => ?_)
    · refine podComplete_keeps (sub hw rfl) ?_
      exact h10
    · exact ha
  · rename_i y11 e12
    exact ha

theorem execDecodeSampleStart_keeps {q hdr s0 t} (hw : μ ||| 105596070200684 = μ) (h : execDecodeSampleStart q hdr s0 = .next t) : Keeps μ s0 t := by
  unfold execDecodeSampleStart at h
  refine whenOn_keeps ?_ h
  intro a ha
  refine ite_intro (P := Keeps μ s0) (fun _ => ?_) (fun _ => ?_)
  · exact ha
  · refine dqStart_keeps (sub hw rfl) ?_
    exact ha

theorem execDecodeSampleDone_keeps {q pic s0 t} (hw : μ ||| 105596070200684 = μ) (h : execDecodeSampleDone q pic s0 = .next t) : Keeps μ s0 t := by
  unfold execDecodeSampleDone at h
  refine whenOn_keeps ?_ h
  intro a ha
  refine ite_intro (P := Keeps μ s0) (fun _ => ?_) (fun _ => ?_)
  · exact ha
  · refine dqDone_keeps (sub hw rfl) ?_
    exact ha

theorem execDecodeDeadline_keeps {q s0 t} (hw : μ ||| 105596070200684 = μ) (h : execDecodeDeadline q s0 = .next t) : Keeps μ s0 t := by
  unfold execDecodeDeadline at h
  refine whenOn_keeps ?_ h
  intro a ha
  refine ite_intro (P := Keeps μ s0) (fun _ => ?_) (fun _ => ?_)
  · exact ha
  · refine dqTimeout_keeps (sub hw rfl) ?_
    exact ha

theorem execDecodeConfigApply_keeps {q s0 t} (hw : μ ||| 4194304 = μ) (h : execDecodeConfigApply q s0 = .next t) : Keeps μ s0 t := by
  unfold execDecodeConfigApply at h
  refine whenOn_keeps ?_ h
  intro a ha
  refine dqApply_keeps (sub hw rfl) ?_
  exact ha

theorem execArrayIssue_keeps {exec n s0 t} (hw : μ ||| 105599807258988 = μ) (h : execArrayIssue exec n s0 = .next t) : Keeps μ s0 t := by
  unfold execArrayIssue at h
  refine whenOn_keeps ?_ h
  intro a ha
  refine arrayIssue_keeps (sub hw rfl) ?_
  exact ha

theorem execWeightTileLoad_keeps {op kt nt fault s0 t} (hw : μ ||| 105599807258988 = μ) (h : execWeightTileLoad op kt nt fault s0 = .next t) : Keeps μ s0 t := by
  unfold execWeightTileLoad at h
  refine whenOn_keeps ?_ h
  intro a ha
  refine onLoadingOp_keeps (sub hw rfl) ?_ ?_
  · exact ha
  · intro x0 x1 h2
    refine weightTileLoad_keeps (sub hw rfl) ?_
    exact h2

theorem execArrayTileDone_keeps {op fault s0 t} (hw : μ ||| 105599807258988 = μ) (h : execArrayTileDone op fault s0 = .next t) : Keeps μ s0 t := by
  unfold execArrayTileDone at h
  refine whenOn_keeps ?_ h
  intro a ha
  refine onArrayOp_keeps (sub hw rfl) ?_ ?_
  · exact ha
  · intro x0 x1 h2
    refine arrayTile_keeps (sub hw rfl) ?_
    exact h2

theorem execAbftVerdict_keeps {op s0 t} (hw : μ ||| 105599807258988 = μ) (h : execAbftVerdict op s0 = .next t) : Keeps μ s0 t := by
  unfold execAbftVerdict at h
  refine whenOn_keeps ?_ h
  intro a ha
  refine onArrayOp_keeps (sub hw rfl) ?_ ?_
  · exact ha
  · intro x0 x1 h2
    refine abftVerdict_keeps (sub hw rfl) ?_
    exact h2

theorem execAbftLate_keeps {op s0 t} (hw : μ ||| 105599807258988 = μ) (h : execAbftLate op s0 = .next t) : Keeps μ s0 t := by
  unfold execAbftLate at h
  refine whenOn_keeps ?_ h
  intro a ha
  refine onArrayOp_keeps (sub hw rfl) ?_ ?_
  · exact ha
  · intro x0 x1 h2
    refine abftLate_keeps (sub hw rfl) ?_
    exact h2

theorem execArrayOperationDone_keeps {op loss s0 t} (hw : μ ||| 105599807258988 = μ) (h : execArrayOperationDone op loss s0 = .next t) : Keeps μ s0 t := by
  unfold execArrayOperationDone at h
  refine whenOn_keeps ?_ h
  intro a ha
  refine onArrayOp_keeps (sub hw rfl) ?_ ?_
  · exact ha
  · intro x0 x1 h2
    refine arrayDone_keeps (sub hw rfl) ?_
    exact h2

theorem execBallastEnd_keeps {c a s0 t} (hw : μ ||| 2147483648 = μ) (h : execBallastEnd c a s0 = .next t) : Keeps μ s0 t := by
  unfold execBallastEnd at h
  refine whenOn_keeps ?_ h
  intro a ha
  split
  · rename_i y0 y1 e2
    refine ite_intro (P := Keeps μ s0) (fun _ => ?_) (fun _ => ?_)
    · extract_lets x3 x4
      have h5 : Keeps μ s0 x3 := by
        unfold x3
        refine ballastEnds_keeps (sub hw rfl) ?_
        exact ha
      clear_value x3
      clear_value x4
      refine arrRegs_keeps ?_
      refine setArr_keeps (sub hw rfl) ?_
      exact h5
    · exact ha
  · rename_i y6 e7
    exact ha

theorem execActivityLevelStep_keeps {c a s0 t} (hw : μ ||| 2147483648 = μ) (h : execActivityLevelStep c a s0 = .next t) : Keeps μ s0 t := by
  unfold execActivityLevelStep at h
  refine whenOn_keeps ?_ h
  intro a ha
  extract_lets x0 x1 x2 x3 x4 x5
  clear_value x0
  clear_value x1
  clear_value x2
  clear_value x3
  have h6 : Keeps μ s0 x4 := by
    unfold x4
    refine wrF_keeps ?_
    exact ha
  clear_value x4
  have h7 : Keeps μ s0 x5 := by
    unfold x5
    refine ite_intro (P := Keeps μ s0) (fun _ => ?_) (fun _ => ?_)
    · refine bumpSat_keeps ?_
      exact h6
    · exact h6
  clear_value x5
  refine ite_intro (P := Keeps μ s0) (fun _ => ?_) (fun _ => ?_)
  · exact ha
  · refine ite_intro (P := Keeps μ s0) (fun _ => ?_) (fun _ => ?_)
    · refine arrRegs_keeps ?_
      refine capNote_keeps (sub hw rfl) ?_
      exact ha
    · refine arrRegs_keeps ?_
      refine capNote_keeps (sub hw rfl) ?_
      refine setArr_keeps (sub hw rfl) ?_
      exact h7

theorem execArrFence_keeps {agent c a v s0 t} (hw : μ ||| 36028797018964224 = μ) (h : execArrFence agent c a v s0 = .next t) : Keeps μ s0 t := by
  unfold execArrFence at h
  refine whenOn_keeps ?_ h
  intro a ha
  refine namedWrite_keeps ?_ ?_
  · exact ha
  · intro x0 h1
    refine applyArrFence_keeps (sub hw rfl) ?_
    exact h1

theorem execAbftInject_keeps {agent c v s0 t} (h : execAbftInject agent c v s0 = .next t) : Keeps μ s0 t := by
  unfold execAbftInject at h
  refine whenOn_keeps ?_ h
  intro a ha
  refine namedWrite_keeps ?_ ?_
  · exact ha
  · intro x0 h1
    refine applyPlain_keeps ?_
    exact h1

theorem execEngineIssue_keeps {exec e s0 t} (hw : μ ||| 105597659775340 = μ) (h : execEngineIssue exec e s0 = .next t) : Keeps μ s0 t := by
  unfold execEngineIssue at h
  refine whenOn_keeps ?_ h
  intro a ha
  refine engineIssue_keeps (sub hw rfl) ?_
  exact ha

theorem execEngineOperationDone_keeps {c e loss fault s0 t} (hw : μ ||| 105601954742636 = μ) (h : execEngineOperationDone c e loss fault s0 = .next t) : Keeps μ s0 t := by
  unfold execEngineOperationDone at h
  refine whenOn_keeps ?_ h
  intro a ha
  split
  · rename_i y0 y1 y2 e3
    have h4 : Keeps μ s0 y2 := by
      refine of2 e3 ?_
      refine engReady_keeps (sub hw rfl) ?_
      exact ha
    refine ite_intro (P := Keeps μ s0) (fun _ => ?_) (fun _ => ?_)
    · exact h4
    · refine engNext_keeps (sub hw rfl) ?_
      refine engCycles_keeps (sub hw rfl) ?_
      refine engineDone_keeps (sub hw rfl) ?_
      exact h4
  · rename_i y5 y6 e7
    have h8 : Keeps μ s0 y6 := by
      refine of2 e7 ?_
      refine engReady_keeps (sub hw rfl) ?_
      exact ha
    refine engNext_keeps (sub hw rfl) ?_
    exact h8

theorem execEngFence_keeps {agent c e v s0 t} (hw : μ ||| 36134394678739308 = μ) (h : execEngFence agent c e v s0 = .next t) : Keeps μ s0 t := by
  unfold execEngFence at h
  refine whenOn_keeps ?_ h
  intro a ha
  refine namedWrite_keeps ?_ ?_
  · exact ha
  · intro x0 h1
    refine applyEngFence_keeps (sub hw rfl) ?_
    exact h1

theorem execEngInject_keeps {agent c e v s0 t} (h : execEngInject agent c e v s0 = .next t) : Keeps μ s0 t := by
  unfold execEngInject at h
  refine whenOn_keeps ?_ h
  intro a ha
  refine namedWrite_keeps ?_ ?_
  · exact ha
  · intro x0 h1
    refine applyPlain_keeps ?_
    exact h1

theorem execScratchScrubPass_keeps {c complete s0 t} (hw : μ ||| 42949673408 = μ) (h : execScratchScrubPass c complete s0 = .next t) : Keeps μ s0 t := by
  unfold execScratchScrubPass at h
  refine whenOn_keeps ?_ h
  intro a ha
  refine scrubPeriod_keeps (sub hw rfl) ?_ ?_
  · exact ha
  · intro x0 h1
    refine raise_keeps ?_
    refine bumpSat_keeps ?_
    exact h1

theorem execScrInject_keeps {agent c v s0 t} (h : execScrInject agent c v s0 = .next t) : Keeps μ s0 t := by
  unfold execScrInject at h
  refine whenOn_keeps ?_ h
  intro a ha
  refine namedWrite_keeps ?_ ?_
  · exact ha
  · intro x0 h1
    refine applyPlain_keeps ?_
    exact h1

theorem execPegCount_keeps {agent peg v s0 t} (hw : μ ||| 134217740 = μ) (h : execPegCount agent peg v s0 = .next t) : Keeps μ s0 t := by
  unfold execPegCount at h
  refine whenOn_keeps ?_ h
  intro a ha
  refine asAgent_keeps ?_ ?_
  · exact ha
  · intro x0 h1
    refine writePegCount_keeps (sub hw rfl) ?_
    exact h1

theorem execPegCfg_keeps {agent peg v s0 t} (hw : μ ||| 134217740 = μ) (h : execPegCfg agent peg v s0 = .next t) : Keeps μ s0 t := by
  unfold execPegCfg at h
  refine whenOn_keeps ?_ h
  intro a ha
  refine asAgent_keeps ?_ ?_
  · exact ha
  · intro x0 h1
    refine writePegCfg_keeps (sub hw rfl) ?_
    exact h1

theorem execPegIncWrite_keeps {agent peg v s0 t} (hw : μ ||| 70368744177924 = μ) (h : execPegIncWrite agent peg v s0 = .next t) : Keeps μ s0 t := by
  unfold execPegIncWrite at h
  refine whenOn_keeps ?_ h
  intro a ha
  refine asAgent_keeps ?_ ?_
  · exact ha
  · intro x0 h1
    refine writePegInc_keeps (sub hw rfl) ?_
    exact h1

theorem execRollEnable_keeps {agent c r ctl s0 t} (h : execRollEnable agent c r ctl s0 = .next t) : Keeps μ s0 t := by
  unfold execRollEnable at h
  refine whenOn_keeps ?_ h
  intro a ha
  extract_lets x0
  clear_value x0
  refine namedWrite_keeps ?_ ?_
  · exact ha
  · intro x1 h2
    refine applyRollCtl_keeps ?_
    exact h2

theorem execRollAppendReserve_keeps {c r s0 t} (hw : μ ||| 16777216 = μ) (h : execRollAppendReserve c r s0 = .next t) : Keeps μ s0 t := by
  unfold execRollAppendReserve at h
  refine whenOn_keeps ?_ h
  intro a ha
  refine rollGrant_keeps (sub hw rfl) ?_
  exact ha

theorem execRollAppendCommit_keeps {c r s0 t} (hw : μ ||| 16777476 = μ) (h : execRollAppendCommit c r s0 = .next t) : Keeps μ s0 t := by
  unfold execRollAppendCommit at h
  refine whenOn_keeps ?_ h
  intro a ha
  refine rollCommit_keeps (sub hw rfl) ?_
  exact ha

theorem execRollCommit_keeps {agent c r v s0 t} (hw : μ ||| 260 = μ) (h : execRollCommit agent c r v s0 = .next t) : Keeps μ s0 t := by
  unfold execRollCommit at h
  refine whenOn_keeps ?_ h
  intro a ha
  refine namedWrite_keeps ?_ ?_
  · exact ha
  · intro x0 h1
    refine applyRollCommit_keeps (sub hw rfl) ?_
    exact h1

theorem execRollRelease_keeps {agent c r v s0 t} (h : execRollRelease agent c r v s0 = .next t) : Keeps μ s0 t := by
  unfold execRollRelease at h
  refine whenOn_keeps ?_ h
  intro a ha
  refine namedWrite_keeps ?_ ?_
  · exact ha
  · intro x0 h1
    refine applyRollRelease_keeps ?_
    exact h1

theorem execRollReset_keeps {agent c r s0 t} (hw : μ ||| 16777216 = μ) (h : execRollReset agent c r s0 = .next t) : Keeps μ s0 t := by
  unfold execRollReset at h
  refine whenOn_keeps ?_ h
  intro a ha
  refine namedWrite_keeps ?_ ?_
  · exact ha
  · intro x0 h1
    refine applyRollReset_keeps (sub hw rfl) ?_
    exact h1

theorem execSeqOpen_keeps {src s0 t} (hw : μ ||| 36134393604997484 = μ) (h : execSeqOpen src s0 = .next t) : Keeps μ s0 t := by
  unfold execSeqOpen at h
  refine whenOn_keeps ?_ h
  intro a ha
  refine seqCommand_keeps (sub hw rfl) ?_ ?_
  · exact ha
  · intro x0 x1 x2 x3 h4
    refine seqOpenAct_keeps (sub hw rfl) ?_
    exact h4

theorem execSeqClose_keeps {src s0 t} (hw : μ ||| 36134393604997484 = μ) (h : execSeqClose src s0 = .next t) : Keeps μ s0 t := by
  unfold execSeqClose at h
  refine whenOn_keeps ?_ h
  intro a ha
  refine seqCommand_keeps (sub hw rfl) ?_ ?_
  · exact ha
  · intro x0 x1 x2 x3 h4
    refine seqCloseAct_keeps (sub hw rfl) ?_
    exact h4

theorem execSeqAppend_keeps {src s0 t} (hw : μ ||| 36134393604997484 = μ) (h : execSeqAppend src s0 = .next t) : Keeps μ s0 t := by
  unfold execSeqAppend at h
  refine whenOn_keeps ?_ h
  intro a ha
  refine seqCommand_keeps (sub hw rfl) ?_ ?_
  · exact ha
  · intro x0 x1 x2 x3 h4
    refine seqAppendAct_keeps (sub hw rfl) ?_
    exact h4

theorem execSeqStage_keeps {src s0 t} (hw : μ ||| 36134393604997484 = μ) (h : execSeqStage src s0 = .next t) : Keeps μ s0 t := by
  unfold execSeqStage at h
  refine whenOn_keeps ?_ h
  intro a ha
  refine seqCommand_keeps (sub hw rfl) ?_ ?_
  · exact ha
  · intro x0 x1 x2 x3 h4
    refine seqStageAct_keeps (sub hw rfl) ?_
    exact h4

theorem execStageStart_keeps {id s0 t} (hw : μ ||| 301989888 = μ) (h : execStageStart id s0 = .next t) : Keeps μ s0 t := by
  unfold execStageStart at h
  refine whenOn_keeps ?_ h
  intro a ha
  split
  · rename_i y0 e1
    exact ha
  · rename_i y2 y3 e4
    extract_lets x5
    clear_value x5
    refine ite_intro (P := Keeps μ s0) (fun _ => ?_) (fun _ => ?_)
    · exact ha
    · refine stageProceed_keeps (sub hw rfl) ?_
      exact ha

theorem execStageCopyDone_keeps {id mismatch s0 t} (hw : μ ||| 105596586033516 = μ) (h : execStageCopyDone id mismatch s0 = .next t) : Keeps μ s0 t := by
  unfold execStageCopyDone at h
  refine whenOn_keeps ?_ h
  intro a ha
  split
  · rename_i y0 e1
    exact ha
  · rename_i y2 y3 e4
    refine ite_intro (P := Keeps μ s0) (fun _ => ?_) (fun _ => ?_)
    · exact ha
    · refine seqStageEnd_keeps (sub hw rfl) ?_
      exact ha

theorem execSeqRelease_keeps {src s0 t} (hw : μ ||| 36134393604997484 = μ) (h : execSeqRelease src s0 = .next t) : Keeps μ s0 t := by
  unfold execSeqRelease at h
  refine whenOn_keeps ?_ h
  intro a ha
  refine seqCommand_keeps (sub hw rfl) ?_ ?_
  · exact ha
  · intro x0 x1 x2 x3 h4
    refine seqReleaseAct_keeps (sub hw rfl) ?_
    exact h4

theorem execSeqImportance_keeps {src s0 t} (hw : μ ||| 36134393604997484 = μ) (h : execSeqImportance src s0 = .next t) : Keeps μ s0 t := by
  unfold execSeqImportance at h
  refine whenOn_keeps ?_ h
  intro a ha
  refine seqCommand_keeps (sub hw rfl) ?_ ?_
  · exact ha
  · intro x0 x1 x2 x3 h4
    refine seqImportanceAct_keeps (sub hw rfl) ?_
    exact h4

theorem execSeqRestore_keeps {src s0 t} (hw : μ ||| 36134393604997484 = μ) (h : execSeqRestore src s0 = .next t) : Keeps μ s0 t := by
  unfold execSeqRestore at h
  refine whenOn_keeps ?_ h
  intro a ha
  refine seqCommand_keeps (sub hw rfl) ?_ ?_
  · exact ha
  · intro x0 x1 x2 x3 h4
    refine seqRestoreAct_keeps (sub hw rfl) ?_
    exact h4

theorem execRecomputeTimeout_keeps {ctx pos s0 t} (hw : μ ||| 105596586033516 = μ) (h : execRecomputeTimeout ctx pos s0 = .next t) : Keeps μ s0 t := by
  unfold execRecomputeTimeout at h
  refine whenOn_keeps ?_ h
  intro a ha
  split
  · rename_i y0 e1
    exact ha
  · rename_i y2 y3 e4
    refine ite_intro (P := Keeps μ s0) (fun _ => ?_) (fun _ => ?_)
    · exact ha
    · extract_lets x5
      have h6 : Keeps μ s0 x5 := by
        unfold x5
        refine seqRegs_keeps (sub hw rfl) ?_
        refine setSeq_keeps (sub hw rfl) ?_
        exact ha
      clear_value x5
      refine foldl_intro (P := Keeps μ s0) ?_ ?_
      · exact h6
      · intro x7 x8 h9
        refine seqFail_keeps (sub hw rfl) ?_
        exact h9

theorem execSeqCtl_keeps {agent v s0 t} (h : execSeqCtl agent v s0 = .next t) : Keeps μ s0 t := by
  unfold execSeqCtl at h
  refine whenOn_keeps ?_ h
  intro a ha
  refine namedWrite_keeps ?_ ?_
  · exact ha
  · intro x0 h1
    refine applySeqCtl_keeps ?_
    exact h1

theorem execSeqInject_keeps {agent v s0 t} (h : execSeqInject agent v s0 = .next t) : Keeps μ s0 t := by
  unfold execSeqInject at h
  refine whenOn_keeps ?_ h
  intro a ha
  refine namedWrite_keeps ?_ ?_
  · exact ha
  · intro x0 h1
    refine applyPlain_keeps ?_
    exact h1

theorem execGraphLoad_keeps {no s0 t} (hw : μ ||| 70411760959820 = μ) (h : execGraphLoad no s0 = .next t) : Keeps μ s0 t := by
  unfold execGraphLoad at h
  refine whenOn_keeps ?_ h
  intro a ha
  refine graphLoad_keeps (sub hw rfl) ?_
  exact ha

theorem execGraphUnload_keeps {no s0 t} (hw : μ ||| 70368811286796 = μ) (h : execGraphUnload no s0 = .next t) : Keeps μ s0 t := by
  unfold execGraphUnload at h
  refine whenOn_keeps ?_ h
  intro a ha
  refine graphUnload_keeps (sub hw rfl) ?_
  exact ha

theorem execInstanceStart_keeps {slot s0 t} (hw : μ ||| 105596586033516 = μ) (h : execInstanceStart slot s0 = .next t) : Keeps μ s0 t := by
  unfold execInstanceStart at h
  refine whenOn_keeps ?_ h
  intro a ha
  refine instanceStart_keeps (sub hw rfl) ?_
  exact ha

end Sys2Proof.Laws
end

