-- ==== Sys2Proof/Laws/KeepsExec2.lean ====
section
/-!
SUPPORT. Every command keeps the queue, the fuses and the canonical memories: the second half, and the theorem over all commands.
-/

namespace Sys2Proof.Laws

open Sys2Proof.Machine Sys2Proof.Safety

variable {s0 : State} {μ : Nat}

theorem execCycleLaunch_keeps {g s0 t} (hw : μ ||| 84548090677563244 = μ) (h : execCycleLaunch g s0 = .next t) : Keeps μ s0 t := by
  unfold execCycleLaunch at h
  refine whenOn_keeps ?_ h
  intro a ha
  refine cycleLaunch_keeps (sub hw rfl) ?_
  exact ha

theorem execJobFire_keeps {s0 t} (hw : μ ||| 105597122904428 = μ) (h : execJobFire s0 = .next t) : Keeps μ s0 t := by
  unfold execJobFire at h
  refine whenOn_keeps ?_ h
  intro a ha
  refine jobFire_keeps (sub hw rfl) ?_
  exact ha

theorem execJobComplete_keeps {exec s0 t} (hw : μ ||| 1231496492876140 = μ) (h : execJobComplete exec s0 = .next t) : Keeps μ s0 t := by
  unfold execJobComplete at h
  refine whenOn_keeps ?_ h
  intro a ha
  refine jobComplete_keeps (sub hw rfl) ?_
  exact ha

theorem execJobTimeout_keeps {exec s0 t} (hw : μ ||| 105596586033516 = μ) (h : execJobTimeout exec s0 = .next t) : Keeps μ s0 t := by
  unfold execJobTimeout at h
  refine whenOn_keeps ?_ h
  intro a ha
  refine jobTimeout_keeps (sub hw rfl) ?_
  exact ha

theorem execCycleDeadline_keeps {g s0 t} (hw : μ ||| 105596586034028 = μ) (h : execCycleDeadline g s0 = .next t) : Keeps μ s0 t := by
  unfold execCycleDeadline at h
  refine whenOn_keeps ?_ h
  intro a ha
  refine deadlinesUpTo_keeps (sub hw rfl) ?_
  exact ha

theorem execFgEnable_keeps {agent g s0 t} (hw : μ ||| 1125899906844160 = μ) (h : execFgEnable agent g s0 = .next t) : Keeps μ s0 t := by
  unfold execFgEnable at h
  refine whenOn_keeps ?_ h
  intro a ha
  refine namedWrite_keeps ?_ ?_
  · exact ha
  · intro x0 h1
    refine fgEnable_keeps (sub hw rfl) ?_
    exact h1

theorem execFgDisable_keeps {agent g s0 t} (hw : μ ||| 10133099161585408 = μ) (h : execFgDisable agent g s0 = .next t) : Keeps μ s0 t := by
  unfold execFgDisable at h
  refine whenOn_keeps ?_ h
  intro a ha
  refine namedWrite_keeps ?_ ?_
  · exact ha
  · intro x0 h1
    refine fgDisable_keeps (sub hw rfl) ?_
    exact h1

theorem execDetCtl_keeps {agent v s0 t} (h : execDetCtl agent v s0 = .next t) : Keeps μ s0 t := by
  unfold execDetCtl at h
  refine whenOn_keeps ?_ h
  intro a ha
  refine namedWrite_keeps ?_ ?_
  · exact ha
  · intro x0 h1
    refine applyDetCtl_keeps ?_
    exact h1

theorem execRrRecord_keeps {agent v s0 t} (hw : μ ||| 1536 = μ) (h : execRrRecord agent v s0 = .next t) : Keeps μ s0 t := by
  unfold execRrRecord at h
  refine whenOn_keeps ?_ h
  intro a ha
  refine namedWrite_keeps ?_ ?_
  · exact ha
  · intro x0 h1
    refine rrRecord_keeps (sub hw rfl) ?_
    exact h1

theorem execRrReplay_keeps {agent v s0 t} (hw : μ ||| 1024 = μ) (h : execRrReplay agent v s0 = .next t) : Keeps μ s0 t := by
  unfold execRrReplay at h
  refine whenOn_keeps ?_ h
  intro a ha
  refine namedWrite_keeps ?_ ?_
  · exact ha
  · intro x0 h1
    refine rrReplay_keeps (sub hw rfl) ?_
    exact h1

theorem execRrOff_keeps {agent v s0 t} (hw : μ ||| 1536 = μ) (h : execRrOff agent v s0 = .next t) : Keeps μ s0 t := by
  unfold execRrOff at h
  refine whenOn_keeps ?_ h
  intro a ha
  refine namedWrite_keeps ?_ ?_
  · exact ha
  · intro x0 h1
    refine rrOff_keeps (sub hw rfl) ?_
    exact h1

theorem execReplayEntry_keeps {s0 t} (hw : μ ||| 496926609646223212 = μ) (h : execReplayEntry s0 = .next t) : Keeps μ s0 t := by
  unfold execReplayEntry at h
  refine whenOn_keeps ?_ h
  intro a ha
  refine replayEntry_keeps (sub hw rfl) ?_
  exact ha

theorem execRingPodWrite_keeps {r s0 t} (hw : μ ||| 24 = μ) (h : execRingPodWrite r s0 = .next t) : Keeps μ s0 t := by
  unfold execRingPodWrite at h
  refine whenOn_keeps ?_ h
  intro a ha
  refine ringWrite_keeps (sub hw rfl) ?_
  exact ha

theorem execRingWaitExpire_keeps {r s0 t} (hw : μ ||| 256 = μ) (h : execRingWaitExpire r s0 = .next t) : Keeps μ s0 t := by
  unfold execRingWaitExpire at h
  refine whenOn_keeps ?_ h
  intro a ha
  refine ringExpire_keeps (sub hw rfl) ?_
  exact ha

theorem execRingTail_keeps {agent r v s0 t} (h : execRingTail agent r v s0 = .next t) : Keeps μ s0 t := by
  unfold execRingTail at h
  refine whenOn_keeps ?_ h
  intro a ha
  refine namedWrite_keeps ?_ ?_
  · exact ha
  · intro x0 h1
    refine applyPlain_keeps ?_
    exact h1

theorem execRingCfgWrite_keeps {agent r v s0 t} (hw : μ ||| 288230376151712000 = μ) (h : execRingCfgWrite agent r v s0 = .next t) : Keeps μ s0 t := by
  unfold execRingCfgWrite at h
  refine whenOn_keeps ?_ h
  intro a ha
  refine namedWrite_keeps ?_ ?_
  · exact ha
  · intro x0 h1
    refine applyRingCfg_keeps (sub hw rfl) ?_
    exact h1

theorem execMsixCoalesceExpire_keeps {r s0 t} (h : execMsixCoalesceExpire r s0 = .next t) : Keeps μ s0 t := by
  unfold execMsixCoalesceExpire at h
  refine whenOn_keeps ?_ h
  intro a ha
  refine coalesceEnd_keeps ?_
  exact ha

theorem execDramRefresh_keeps {v0 s0 t} (h : execDramRefresh v0 s0 = .next t) : Keeps μ s0 t := by
  unfold execDramRefresh at h
  refine whenOn_keeps ?_ h
  intro a ha
  exact ha

theorem execDramTempSample_keeps {temps s0 t} (hw : μ ||| 72057602627862784 = μ) (h : execDramTempSample temps s0 = .next t) : Keeps μ s0 t := by
  unfold execDramTempSample at h
  refine whenOn_keeps ?_ h
  intro a ha
  refine tempSample_keeps (sub hw rfl) ?_
  exact ha

theorem execDramCeRate_keeps {ch s0 t} (hw : μ ||| 34359738624 = μ) (h : execDramCeRate ch s0 = .next t) : Keeps μ s0 t := by
  unfold execDramCeRate at h
  refine whenOn_keeps ?_ h
  intro a ha
  extract_lets x0 x1
  clear_value x0
  have h2 : Keeps μ s0 x1 := by
    unfold x1
    refine upd_corrections (sub hw rfl) ?_
    exact ha
  clear_value x1
  refine ite_intro (P := Keeps μ s0) (fun _ => ?_) (fun _ => ?_)
  · refine report_keeps (sub hw rfl) ?_
    refine raise_keeps ?_
    refine drawFree_keeps ?_
    exact h2
  · exact h2

theorem execDramScrubPass_keeps {complete s0 t} (hw : μ ||| 42949673408 = μ) (h : execDramScrubPass complete s0 = .next t) : Keeps μ s0 t := by
  unfold execDramScrubPass at h
  refine whenOn_keeps ?_ h
  intro a ha
  refine scrubPeriod_keeps (sub hw rfl) ?_ ?_
  · exact ha
  · intro x0 h1
    refine raise_keeps ?_
    refine bumpSat_keeps ?_
    exact h1

theorem execChInject_keeps {agent ch v s0 t} (h : execChInject agent ch v s0 = .next t) : Keeps μ s0 t := by
  unfold execChInject at h
  refine whenOn_keeps ?_ h
  intro a ha
  refine namedWrite_keeps ?_ ?_
  · exact ha
  · intro x0 h1
    refine applyPlain_keeps ?_
    exact h1

theorem execEncRegionEnable_keeps {agent r v s0 t} (hw : μ ||| 35244501631328 = μ) (h : execEncRegionEnable agent r v s0 = .next t) : Keeps μ s0 t := by
  unfold execEncRegionEnable at h
  refine whenOn_keeps ?_ h
  intro a ha
  refine namedWrite_keeps ?_ ?_
  · exact ha
  · intro x0 h1
    refine applyEncCtl_keeps (sub hw rfl) ?_
    exact h1

theorem execEncRegionReady_keeps {r s0 t} (hw : μ ||| 35227321762144 = μ) (h : execEncRegionReady r s0 = .next t) : Keeps μ s0 t := by
  unfold execEncRegionReady at h
  refine whenOn_keeps ?_ h
  intro a ha
  refine encReady_keeps (sub hw rfl) ?_
  exact ha

theorem execEncRegionDisable_keeps {agent r v s0 t} (hw : μ ||| 35244501631328 = μ) (h : execEncRegionDisable agent r v s0 = .next t) : Keeps μ s0 t := by
  unfold execEncRegionDisable at h
  refine whenOn_keeps ?_ h
  intro a ha
  refine namedWrite_keeps ?_ ?_
  · exact ha
  · intro x0 h1
    refine applyEncCtl_keeps (sub hw rfl) ?_
    exact h1

theorem execGuylineFlitReceive_keeps {port flit uncorrectable jobs s0 t} (hw : μ ||| 88442100777228 = μ) (h : execGuylineFlitReceive port flit uncorrectable jobs s0 = .next t) : Keeps μ s0 t := by
  unfold execGuylineFlitReceive at h
  refine whenOn_keeps ?_ h
  intro a ha
  refine flitReceive_keeps (sub hw rfl) ?_
  exact ha

theorem execFlitAckTimeout_keeps {port s0 t} (hw : μ ||| 206158430208 = μ) (h : execFlitAckTimeout port s0 = .next t) : Keeps μ s0 t := by
  unfold execFlitAckTimeout at h
  refine whenOn_keeps ?_ h
  intro a ha
  refine ite_intro (P := Keeps μ s0) (fun _ => ?_) (fun _ => ?_)
  · refine replayFlits_keeps (sub hw rfl) ?_
    exact ha
  · exact ha

theorem execLinkRetryFail_keeps {port jobs s0 t} (hw : μ ||| 88304661823756 = μ) (h : execLinkRetryFail port jobs s0 = .next t) : Keeps μ s0 t := by
  unfold execLinkRetryFail at h
  refine whenOn_keeps ?_ h
  intro a ha
  extract_lets x0 x1 x2
  clear_value x0
  clear_value x1
  clear_value x2
  refine ite_intro (P := Keeps μ s0) (fun _ => ?_) (fun _ => ?_)
  · refine glDown_keeps (sub hw rfl) ?_
    refine bumpSat_keeps ?_
    exact ha
  · exact ha

theorem execGuylineTrainingDone_keeps {port v1 s0 t} (hw : μ ||| 68719476992 = μ) (h : execGuylineTrainingDone port v1 s0 = .next t) : Keeps μ s0 t := by
  unfold execGuylineTrainingDone at h
  refine whenOn_keeps ?_ h
  intro a ha
  refine trainingDone_keeps (sub hw rfl) ?_
  exact ha

theorem execGuylinePacketSend_keeps {port s0 t} (hw : μ ||| 206158430464 = μ) (h : execGuylinePacketSend port s0 = .next t) : Keeps μ s0 t := by
  unfold execGuylinePacketSend at h
  refine whenOn_keeps ?_ h
  intro a ha
  refine packetSend_keeps (sub hw rfl) ?_
  exact ha

theorem execGlWrite_keeps {port rrLost s0 t} (hw : μ ||| 496909017453492076 = μ) (h : execGlWrite port rrLost s0 = .next t) : Keeps μ s0 t := by
  unfold execGlWrite at h
  refine whenOn_keeps ?_ h
  intro a ha
  refine ite_intro (P := Keeps μ s0) (fun _ => ?_) (fun _ => ?_)
  · exact ha
  · refine deliver_keeps (sub hw rfl) ?_ ?_
    · exact ha
    · intro x0 x1 h2
      refine packetWrite_keeps (sub hw rfl) ?_
      exact h2

theorem execGlReadReq_keeps {port s0 t} (hw : μ ||| 111669150016 = μ) (h : execGlReadReq port s0 = .next t) : Keeps μ s0 t := by
  unfold execGlReadReq at h
  refine whenOn_keeps ?_ h
  intro a ha
  refine ite_intro (P := Keeps μ s0) (fun _ => ?_) (fun _ => ?_)
  · exact ha
  · refine deliver_keeps (sub hw rfl) ?_ ?_
    · exact ha
    · intro x0 x1 h2
      refine packetRead_keeps (sub hw rfl) ?_
      exact h2

theorem execGlReadCpl_keeps {port s0 t} (hw : μ ||| 13262859010304 = μ) (h : execGlReadCpl port s0 = .next t) : Keeps μ s0 t := by
  unfold execGlReadCpl at h
  refine whenOn_keeps ?_ h
  intro a ha
  refine deliver_keeps (sub hw rfl) ?_ ?_
  · exact ha
  · intro x0 x1 h2
    refine packetCompletion_keeps (sub hw rfl) ?_
    exact h2

theorem execGlPod_keeps {port s0 t} (hw : μ ||| 140806207832320 = μ) (h : execGlPod port s0 = .next t) : Keeps μ s0 t := by
  unfold execGlPod at h
  refine whenOn_keeps ?_ h
  intro a ha
  refine ite_intro (P := Keeps μ s0) (fun _ => ?_) (fun _ => ?_)
  · exact ha
  · refine deliver_keeps (sub hw rfl) ?_ ?_
    · exact ha
    · intro x0 x1 h2
      refine packetPod_keeps (sub hw rfl) ?_
      exact h2

theorem execGlPegInc_keeps {port s0 t} (hw : μ ||| 68719476996 = μ) (h : execGlPegInc port s0 = .next t) : Keeps μ s0 t := by
  unfold execGlPegInc at h
  refine whenOn_keeps ?_ h
  intro a ha
  refine deliver_keeps (sub hw rfl) ?_ ?_
  · exact ha
  · intro x0 x1 h2
    refine pegInc_keeps (sub hw rfl) ?_
    exact h2

theorem execGlSync_keeps {port s0 t} (hw : μ ||| 618475290880 = μ) (h : execGlSync port s0 = .next t) : Keeps μ s0 t := by
  unfold execGlSync at h
  refine whenOn_keeps ?_ h
  intro a ha
  refine deliver_keeps (sub hw rfl) ?_ ?_
  · exact ha
  · intro x0 x1 h2
    refine syncArrive_keeps (sub hw rfl) ?_
    exact h2

theorem execGlDelayReq_keeps {port s0 t} (hw : μ ||| 68719476992 = μ) (h : execGlDelayReq port s0 = .next t) : Keeps μ s0 t := by
  unfold execGlDelayReq at h
  refine whenOn_keeps ?_ h
  intro a ha
  refine deliver_keeps (sub hw rfl) ?_ ?_
  · exact ha
  · intro x0 x1 h2
    refine delayReqArrive_keeps (sub hw rfl) ?_
    exact h2

theorem execGlDelayResp_keeps {port hops epoch s0 t} (hw : μ ||| 618475290882 = μ) (h : execGlDelayResp port hops epoch s0 = .next t) : Keeps μ s0 t := by
  unfold execGlDelayResp at h
  refine whenOn_keeps ?_ h
  intro a ha
  refine deliver_keeps (sub hw rfl) ?_ ?_
  · exact ha
  · intro x0 x1 h2
    refine delayRespArrive_keeps (sub hw rfl) ?_
    exact h2

theorem execSyncInterval_keeps {port s0 t} (hw : μ ||| 68719476736 = μ) (h : execSyncInterval port s0 = .next t) : Keeps μ s0 t := by
  unfold execSyncInterval at h
  refine whenOn_keeps ?_ h
  intro a ha
  refine syncInterval_keeps (sub hw rfl) ?_
  exact ha

theorem execSyncTimeout_keeps {s0 t} (hw : μ ||| 549755814144 = μ) (h : execSyncTimeout s0 = .next t) : Keeps μ s0 t := by
  unfold execSyncTimeout at h
  refine whenOn_keeps ?_ h
  intro a ha
  refine syncTimeout_keeps (sub hw rfl) ?_
  exact ha

theorem execRouteFailover_keeps {port s0 t} (hw : μ ||| 68719476736 = μ) (h : execRouteFailover port s0 = .next t) : Keeps μ s0 t := by
  unfold execRouteFailover at h
  refine whenOn_keeps ?_ h
  intro a ha
  refine routeFailover_keeps (sub hw rfl) ?_
  exact ha

theorem execRouteRestore_keeps {port s0 t} (hw : μ ||| 68719476736 = μ) (h : execRouteRestore port s0 = .next t) : Keeps μ s0 t := by
  unfold execRouteRestore at h
  refine whenOn_keeps ?_ h
  intro a ha
  refine routeRestore_keeps (sub hw rfl) ?_
  exact ha

theorem execOpenFibre_keeps {lane jobs s0 t} (hw : μ ||| 100399289741580 = μ) (h : execOpenFibre lane jobs s0 = .next t) : Keeps μ s0 t := by
  unfold execOpenFibre at h
  refine whenOn_keeps ?_ h
  intro a ha
  refine openFibre_keeps (sub hw rfl) ?_
  exact ha

theorem execLightReceived_keeps {lane s0 t} (hw : μ ||| 1099511627776 = μ) (h : execLightReceived lane s0 = .next t) : Keeps μ s0 t := by
  unfold execLightReceived at h
  refine whenOn_keeps ?_ h
  intro a ha
  refine lightReceived_keeps (sub hw rfl) ?_
  exact ha

theorem execProbeStart_keeps {group s0 t} (hw : μ ||| 1099511627776 = μ) (h : execProbeStart group s0 = .next t) : Keeps μ s0 t := by
  unfold execProbeStart at h
  refine whenOn_keeps ?_ h
  intro a ha
  refine probeStart_keeps (sub hw rfl) ?_
  exact ha

theorem execProbeEnd_keeps {group s0 t} (hw : μ ||| 1099511627776 = μ) (h : execProbeEnd group s0 = .next t) : Keeps μ s0 t := by
  unfold execProbeEnd at h
  refine whenOn_keeps ?_ h
  intro a ha
  refine probeEnd_keeps (sub hw rfl) ?_
  exact ha

theorem execLaserFault_keeps {lane jobs s0 t} (hw : μ ||| 99299778113804 = μ) (h : execLaserFault lane jobs s0 = .next t) : Keeps μ s0 t := by
  unfold execLaserFault at h
  refine whenOn_keeps ?_ h
  intro a ha
  refine laserFault_keeps (sub hw rfl) ?_
  exact ha

theorem execMgtHello_keeps {f s0 t} (hw : μ ||| 844424930140160 = μ) (h : execMgtHello f s0 = .next t) : Keeps μ s0 t := by
  unfold execMgtHello at h
  refine whenOn_keeps ?_ h
  intro a ha
  refine mgtServe_keeps (sub hw rfl) ?_ ?_
  · exact ha
  · intro x0 h1
    refine mk3_keeps ?_
    exact h1

theorem execMgtStart_keeps {f slot privs nonce s0 t} (hw : μ ||| 844424930140160 = μ) (h : execMgtStart f slot privs nonce s0 = .next t) : Keeps μ s0 t := by
  unfold execMgtStart at h
  refine whenOn_keeps ?_ h
  intro a ha
  refine mgtServe_keeps (sub hw rfl) ?_ ?_
  · exact ha
  · intro x0 h1
    refine startShake_keeps (sub hw rfl) ?_
    exact h1

theorem execMgtGet_keeps {f obj off s0 t} (hw : μ ||| 844424930140160 = μ) (h : execMgtGet f obj off s0 = .next t) : Keeps μ s0 t := by
  unfold execMgtGet at h
  refine whenOn_keeps ?_ h
  intro a ha
  refine mgtServe_keeps (sub hw rfl) ?_ ?_
  · exact ha
  · intro x0 h1
    refine getObject_keeps ?_
    exact h1

theorem execMgtPutCt_keeps {f off data s0 t} (hw : μ ||| 844424930140160 = μ) (h : execMgtPutCt f off data s0 = .next t) : Keeps μ s0 t := by
  unfold execMgtPutCt at h
  refine whenOn_keeps ?_ h
  intro a ha
  refine mgtServe_keeps (sub hw rfl) ?_ ?_
  · exact ha
  · intro x0 h1
    refine putObject_keeps (sub hw rfl) ?_
    exact h1

theorem execMgtPutKey_keeps {f off data s0 t} (hw : μ ||| 844424930140160 = μ) (h : execMgtPutKey f off data s0 = .next t) : Keeps μ s0 t := by
  unfold execMgtPutKey at h
  refine whenOn_keeps ?_ h
  intro a ha
  refine mgtServe_keeps (sub hw rfl) ?_ ?_
  · exact ha
  · intro x0 h1
    refine putObject_keeps (sub hw rfl) ?_
    exact h1

theorem execMgtFinish_keeps {f sig s0 t} (hw : μ ||| 289074801081851904 = μ) (h : execMgtFinish f sig s0 = .next t) : Keeps μ s0 t := by
  unfold execMgtFinish at h
  refine whenOn_keeps ?_ h
  intro a ha
  refine mgtServe_keeps (sub hw rfl) ?_ ?_
  · exact ha
  · intro x0 h1
    refine finishShake_keeps (sub hw rfl) ?_
    exact h1

theorem execSessionClose_keeps {f s0 t} (hw : μ ||| 844424930140160 = μ) (h : execSessionClose f s0 = .next t) : Keeps μ s0 t := by
  unfold execSessionClose at h
  refine whenOn_keeps ?_ h
  intro a ha
  refine mgtServe_keeps (sub hw rfl) ?_ ?_
  · exact ha
  · intro x0 h1
    refine mk3_keeps ?_
    refine closeSession_keeps (sub hw rfl) ?_
    exact h1

theorem execSessionIdleTimeout_keeps {s0 t} (hw : μ ||| 281474976710656 = μ) (h : execSessionIdleTimeout s0 = .next t) : Keeps μ s0 t := by
  unfold execSessionIdleTimeout at h
  refine whenOn_keeps ?_ h
  intro a ha
  refine sessionIdle_keeps (sub hw rfl) ?_
  exact ha

theorem execMgtRegRead_keeps {f addr s0 t} (hw : μ ||| 844424930140160 = μ) (h : execMgtRegRead f addr s0 = .next t) : Keeps μ s0 t := by
  unfold execMgtRegRead at h
  refine whenOn_keeps ?_ h
  intro a ha
  refine mgtServe_keeps (sub hw rfl) ?_ ?_
  · exact ha
  · intro x0 h1
    refine mgtRegRead_keeps ?_
    exact h1

theorem execMgtRegWrite_keeps {f addr v s0 t} (hw : μ ||| 497471898687436652 = μ) (h : execMgtRegWrite f addr v s0 = .next t) : Keeps μ s0 t := by
  unfold execMgtRegWrite at h
  refine whenOn_keeps ?_ h
  intro a ha
  refine mgtServe_keeps (sub hw rfl) ?_ ?_
  · exact ha
  · intro x0 h1
    refine mgtRegWrite_keeps (sub hw rfl) ?_
    exact h1

theorem execMgtMemRead_keeps {f addr len s0 t} (hw : μ ||| 844467879813440 = μ) (h : execMgtMemRead f addr len s0 = .next t) : Keeps μ s0 t := by
  unfold execMgtMemRead at h
  refine whenOn_keeps ?_ h
  intro a ha
  refine ite_intro (P := Keeps μ s0) (fun _ => ?_) (fun _ => ?_)
  · exact ha
  · refine mgtServe_keeps (sub hw rfl) ?_ ?_
    · exact ha
    · intro x0 h1
      refine mgtMemRead_keeps (sub hw rfl) ?_
      exact h1

theorem execMgtMemWrite_keeps {f addr bytes s0 t} (hw : μ ||| 497471898687436652 = μ) (h : execMgtMemWrite f addr bytes s0 = .next t) : Keeps μ s0 t := by
  unfold execMgtMemWrite at h
  refine whenOn_keeps ?_ h
  intro a ha
  refine ite_intro (P := Keeps μ s0) (fun _ => ?_) (fun _ => ?_)
  · exact ha
  · refine mgtServe_keeps (sub hw rfl) ?_ ?_
    · exact ha
    · intro x0 h1
      refine mgtMemWrite_keeps (sub hw rfl) ?_
      exact h1

theorem execMgtReset_keeps {f s0 t} (hw : μ ||| 65126317279998316 = μ) (h : execMgtReset f s0 = .next t) : Keeps μ s0 t := by
  unfold execMgtReset at h
  refine whenOn_keeps ?_ h
  intro a ha
  refine mgtServe_keeps (sub hw rfl) ?_ ?_
  · exact ha
  · intro x0 h1
    refine mgtReset_keeps (sub hw rfl) ?_
    exact h1

theorem execResetExecute_keeps {s0 t} (hw : μ ||| 576460752303423487 = μ) (h : execResetExecute s0 = .next t) : Keeps μ s0 t := by
  unfold execResetExecute at h
  refine whenOn_keeps ?_ h
  intro a ha
  refine resetExecute_keeps (sub hw rfl) ?_
  exact ha

theorem execMgtStatus_keeps {f s0 t} (hw : μ ||| 844424930140160 = μ) (h : execMgtStatus f s0 = .next t) : Keeps μ s0 t := by
  unfold execMgtStatus at h
  refine whenOn_keeps ?_ h
  intro a ha
  refine mgtServe_keeps (sub hw rfl) ?_ ?_
  · exact ha
  · intro x0 h1
    refine mk3_keeps ?_
    exact h1

theorem execLanternWordBoundary_keeps {s0 t} (hw : μ ||| 9007199254740992 = μ) (h : execLanternWordBoundary s0 = .next t) : Keeps μ s0 t := by
  unfold execLanternWordBoundary at h
  refine whenOn_keeps ?_ h
  intro a ha
  refine lanternBoundary_keeps (sub hw rfl) ?_
  exact ha

theorem execLanternTest_keeps {agent v s0 t} (hw : μ ||| 9007199254740992 = μ) (h : execLanternTest agent v s0 = .next t) : Keeps μ s0 t := by
  unfold execLanternTest at h
  refine whenOn_keeps ?_ h
  intro a ha
  refine immediateWrite_keeps ?_ ?_
  · exact ha
  · intro x0 h1
    refine ite_intro (P := Keeps μ s0) (fun _ => ?_) (fun _ => ?_)
    · refine lanternTest_keeps (sub hw rfl) ?_
      exact h1
    · exact h1

theorem execLanternTestEnd_keeps {s0 t} (hw : μ ||| 9007199254740992 = μ) (h : execLanternTestEnd s0 = .next t) : Keeps μ s0 t := by
  unfold execLanternTestEnd at h
  refine whenOn_keeps ?_ h
  intro a ha
  refine lanternTestEnd_keeps (sub hw rfl) ?_
  exact ha

theorem execSentryEnable_keeps {agent v s0 t} (h : execSentryEnable agent v s0 = .next t) : Keeps μ s0 t := by
  unfold execSentryEnable at h
  refine whenOn_keeps ?_ h
  intro a ha
  refine namedWrite_keeps ?_ ?_
  · exact ha
  · intro x0 h1
    refine applySntCtl_keeps ?_
    exact h1

theorem execSentryRunStart_keeps {s0 t} (hw : μ ||| 2251799813685248 = μ) (h : execSentryRunStart s0 = .next t) : Keeps μ s0 t := by
  unfold execSentryRunStart at h
  refine whenOn_keeps ?_ h
  intro a ha
  refine sentryStart_keeps (sub hw rfl) ?_
  exact ha

theorem execSentryRunEnd_keeps {cells corrected uncorrectable s0 t} (hw : μ ||| 6755399449444608 = μ) (h : execSentryRunEnd cells corrected uncorrectable s0 = .next t) : Keeps μ s0 t := by
  unfold execSentryRunEnd at h
  refine whenOn_keeps ?_ h
  intro a ha
  refine sentryEnd_keeps (sub hw rfl) ?_
  exact ha

theorem execSntInject_keeps {agent v s0 t} (h : execSntInject agent v s0 = .next t) : Keeps μ s0 t := by
  unfold execSntInject at h
  refine whenOn_keeps ?_ h
  intro a ha
  refine namedWrite_keeps ?_ ?_
  · exact ha
  · intro x0 h1
    refine applyPlain_keeps ?_
    exact h1

theorem execCompEnable_keeps {agent v s0 t} (hw : μ ||| 1125899906842880 = μ) (h : execCompEnable agent v s0 = .next t) : Keeps μ s0 t := by
  unfold execCompEnable at h
  refine whenOn_keeps ?_ h
  intro a ha
  refine namedWrite_keeps ?_ ?_
  · exact ha
  · intro x0 h1
    refine applyCompCtl_keeps (sub hw rfl) ?_
    exact h1

theorem execJudgementCutOff_keeps {s0 t} (hw : μ ||| 7881299347898368 = μ) (h : execJudgementCutOff s0 = .next t) : Keeps μ s0 t := by
  unfold execJudgementCutOff at h
  refine whenOn_keeps ?_ h
  intro a ha
  refine compCut_keeps (sub hw rfl) ?_
  refine sentryCut_keeps (sub hw rfl) ?_
  exact ha

theorem execCompVerdict_keeps {rail s0 t} (hw : μ ||| 64281892349867372 = μ) (h : execCompVerdict rail s0 = .next t) : Keeps μ s0 t := by
  unfold execCompVerdict at h
  refine whenOn_keeps ?_ h
  intro a ha
  refine compVerdict_keeps (sub hw rfl) ?_
  exact ha

theorem execLockstepMismatch_keeps {p addr s0 t} (hw : μ ||| 18014407099416832 = μ) (h : execLockstepMismatch p addr s0 = .next t) : Keeps μ s0 t := by
  unfold execLockstepMismatch at h
  refine whenOn_keeps ?_ h
  intro a ha
  refine lsMismatch_keeps (sub hw rfl) ?_
  exact ha

theorem execLsDebugHalt_keeps {agent mask copy s0 t} (hw : μ ||| 64281892349866348 = μ) (h : execLsDebugHalt agent mask copy s0 = .next t) : Keeps μ s0 t := by
  unfold execLsDebugHalt at h
  refine whenOn_keeps ?_ h
  intro a ha
  refine namedWrite_keeps ?_ ?_
  · exact ha
  · intro x0 h1
    refine applyLsDebug_keeps (sub hw rfl) ?_
    exact h1

theorem execLsDebugResume_keeps {agent s0 t} (hw : μ ||| 64281892349866348 = μ) (h : execLsDebugResume agent s0 = .next t) : Keeps μ s0 t := by
  unfold execLsDebugResume at h
  refine whenOn_keeps ?_ h
  intro a ha
  refine namedWrite_keeps ?_ ?_
  · exact ha
  · intro x0 h1
    refine applyLsDebug_keeps (sub hw rfl) ?_
    exact h1

theorem execLsInject_keeps {agent v s0 t} (hw : μ ||| 18014407099416832 = μ) (h : execLsInject agent v s0 = .next t) : Keeps μ s0 t := by
  unfold execLsInject at h
  refine whenOn_keeps ?_ h
  intro a ha
  refine namedWrite_keeps ?_ ?_
  · exact ha
  · intro x0 h1
    refine applyLsInject_keeps (sub hw rfl) ?_
    exact h1

theorem execFaultReport_keeps {ext s0 t} (hw : μ ||| 64281892349866348 = μ) (h : execFaultReport ext s0 = .next t) : Keeps μ s0 t := by
  unfold execFaultReport at h
  refine whenOn_keeps ?_ h
  intro a ha
  split
  · rename_i y0
    refine collectNext_keeps (sub hw rfl) ?_
    exact ha
  · rename_i y1 y2
    refine collectFrom_keeps (sub hw rfl) ?_
    exact ha

theorem execFaultLevelClear_keeps {i s0 t} (hw : μ ||| 9007199254741248 = μ) (h : execFaultLevelClear i s0 = .next t) : Keeps μ s0 t := by
  unfold execFaultLevelClear at h
  refine whenOn_keeps ?_ h
  intro a ha
  refine faultLevelClear_keeps (sub hw rfl) ?_
  exact ha

theorem execQuietPeriodExpire_keeps {s0 t} (hw : μ ||| 10133099161583872 = μ) (h : execQuietPeriodExpire s0 = .next t) : Keeps μ s0 t := by
  unfold execQuietPeriodExpire at h
  refine whenOn_keeps ?_ h
  intro a ha
  refine quietExpire_keeps (sub hw rfl) ?_
  exact ha

theorem execFcSelfFault_keeps {copies crcs s0 t} (hw : μ ||| 64281892349866348 = μ) (h : execFcSelfFault copies crcs s0 = .next t) : Keeps μ s0 t := by
  unfold execFcSelfFault at h
  refine whenOn_keeps ?_ h
  intro a ha
  refine ite_intro (P := Keeps μ s0) (fun _ => ?_) (fun _ => ?_)
  · exact ha
  · extract_lets x0
    have h1 : Keeps μ s0 x0 := by
      unfold x0
      refine wr_keeps ?_
      exact ha
    clear_value x0
    refine ite_intro (P := Keeps μ s0) (fun _ => ?_) (fun _ => ?_)
    · exact h1
    · refine collectFrom_keeps (sub hw rfl) ?_
      exact h1

theorem execFcForceSafe_keeps {agent v s0 t} (hw : μ ||| 64281892349866348 = μ) (h : execFcForceSafe agent v s0 = .next t) : Keeps μ s0 t := by
  unfold execFcForceSafe at h
  refine whenOn_keeps ?_ h
  intro a ha
  refine immediateWrite_keeps ?_ ?_
  · exact ha
  · intro x0 h1
    refine ite_intro (P := Keeps μ s0) (fun _ => ?_) (fun _ => ?_)
    · refine forceFromHost_keeps (sub hw rfl) ?_
      exact h1
    · exact h1

theorem execFcKill_keeps {agent v s0 t} (hw : μ ||| 64281892349866348 = μ) (h : execFcKill agent v s0 = .next t) : Keeps μ s0 t := by
  unfold execFcKill at h
  refine whenOn_keeps ?_ h
  intro a ha
  refine immediateWrite_keeps ?_ ?_
  · exact ha
  · intro x0 h1
    refine ite_intro (P := Keeps μ s0) (fun _ => ?_) (fun _ => ?_)
    · refine collect_keeps (sub hw rfl) ?_
      exact h1
    · exact h1

theorem execFcInject_keeps {agent v s0 t} (hw : μ ||| 256 = μ) (h : execFcInject agent v s0 = .next t) : Keeps μ s0 t := by
  unfold execFcInject at h
  refine whenOn_keeps ?_ h
  intro a ha
  refine namedWrite_keeps ?_ ?_
  · exact ha
  · intro x0 h1
    refine applyFcInject_keeps (sub hw rfl) ?_
    exact h1

theorem execReexecutionStart_keeps {v0 s0 t} (hw : μ ||| 105600344129900 = μ) (h : execReexecutionStart v0 s0 = .next t) : Keeps μ s0 t := by
  unfold execReexecutionStart at h
  refine whenOn_keeps ?_ h
  intro a ha
  refine reexecute_keeps (sub hw rfl) ?_
  exact ha

theorem execBistCmd_keeps {agent v s0 t} (hw : μ ||| 36028797018963968 = μ) (h : execBistCmd agent v s0 = .next t) : Keeps μ s0 t := by
  unfold execBistCmd at h
  refine whenOn_keeps ?_ h
  intro a ha
  refine namedWrite_keeps ?_ ?_
  · exact ha
  · intro x0 h1
    refine applyBistCmd_keeps (sub hw rfl) ?_
    exact h1

theorem execBistResult_keeps {sig s0 t} (hw : μ ||| 36028805608898816 = μ) (h : execBistResult sig s0 = .next t) : Keeps μ s0 t := by
  unfold execBistResult at h
  refine whenOn_keeps ?_ h
  intro a ha
  refine bistResult_keeps (sub hw rfl) ?_
  exact ha

theorem execBistSliceStart_keeps {u s0 t} (hw : μ ||| 36028799166447616 = μ) (h : execBistSliceStart u s0 = .next t) : Keeps μ s0 t := by
  unfold execBistSliceStart at h
  refine whenOn_keeps ?_ h
  intro a ha
  refine sliceStart_keeps (sub hw rfl) ?_
  exact ha

theorem execBistSliceEnd_keeps {u fail s0 t} (hw : μ ||| 36134396826222956 = μ) (h : execBistSliceEnd u fail s0 = .next t) : Keeps μ s0 t := by
  unfold execBistSliceEnd at h
  refine whenOn_keeps ?_ h
  intro a ha
  refine sliceEnd_keeps (sub hw rfl) ?_
  exact ha

theorem execCoverageLapse_keeps {u s0 t} (hw : μ ||| 256 = μ) (h : execCoverageLapse u s0 = .next t) : Keeps μ s0 t := by
  unfold execCoverageLapse at h
  refine whenOn_keeps ?_ h
  intro a ha
  refine coverageLapse_keeps (sub hw rfl) ?_
  exact ha

theorem execCoverageLapseDouble_keeps {u s0 t} (hw : μ ||| 256 = μ) (h : execCoverageLapseDouble u s0 = .next t) : Keeps μ s0 t := by
  unfold execCoverageLapseDouble at h
  refine whenOn_keeps ?_ h
  intro a ha
  refine coverageDouble_keeps (sub hw rfl) ?_
  exact ha

theorem execWdKick_keeps {agent core token s0 t} (hw : μ ||| 306526249637904640 = μ) (h : execWdKick agent core token s0 = .next t) : Keeps μ s0 t := by
  unfold execWdKick at h
  refine whenOn_keeps ?_ h
  intro a ha
  refine namedWrite_keeps ?_ ?_
  · exact ha
  · intro x0 h1
    refine wdKick_keeps (sub hw rfl) ?_
    exact h1

theorem execWatchdogExpired_keeps {core s0 t} (hw : μ ||| 306526249637904640 = μ) (h : execWatchdogExpired core s0 = .next t) : Keeps μ s0 t := by
  unfold execWatchdogExpired at h
  refine whenOn_keeps ?_ h
  intro a ha
  refine wdTimeout_keeps (sub hw rfl) ?_
  exact ha

theorem execAttest_keeps {no s0 t} (hw : μ ||| 288230376151711752 = μ) (h : execAttest no s0 = .next t) : Keeps μ s0 t := by
  unfold execAttest at h
  refine whenOn_keeps ?_ h
  intro a ha
  refine attestTake_keeps (sub hw rfl) ?_
  exact ha

theorem execAttestOutputWritten_keeps {s0 t} (hw : μ ||| 288335972217651564 = μ) (h : execAttestOutputWritten s0 = .next t) : Keeps μ s0 t := by
  unfold execAttestOutputWritten at h
  refine whenOn_keeps ?_ h
  intro a ha
  refine attestDone_keeps (sub hw rfl) ?_
  exact ha

theorem execHostAuth_keeps {no s0 t} (hw : μ ||| 288300744895889676 = μ) (h : execHostAuth no s0 = .next t) : Keeps μ s0 t := by
  unfold execHostAuth at h
  refine whenOn_keeps ?_ h
  intro a ha
  refine hostAuth_keeps (sub hw rfl) ?_
  exact ha

theorem execKeyImport_keeps {no s0 t} (hw : μ ||| 70428873720140 = μ) (h : execKeyImport no s0 = .next t) : Keeps μ s0 t := by
  unfold execKeyImport at h
  refine whenOn_keeps ?_ h
  intro a ha
  refine keyImport_keeps (sub hw rfl) ?_
  exact ha

theorem execModelImport_keeps {no s0 t} (hw : μ ||| 288300744895889676 = μ) (h : execModelImport no s0 = .next t) : Keeps μ s0 t := by
  unfold execModelImport at h
  refine whenOn_keeps ?_ h
  intro a ha
  refine modelImport_keeps (sub hw rfl) ?_
  exact ha

theorem execKeyClear_keeps {no s0 t} (hw : μ ||| 70385924047116 = μ) (h : execKeyClear no s0 = .next t) : Keeps μ s0 t := by
  unfold execKeyClear at h
  refine whenOn_keeps ?_ h
  intro a ha
  refine keyClear_keeps (sub hw rfl) ?_
  exact ha

theorem execRegionSet_keeps {no s0 t} (hw : μ ||| 105613245809004 = μ) (h : execRegionSet no s0 = .next t) : Keeps μ s0 t := by
  unfold execRegionSet at h
  refine whenOn_keeps ?_ h
  intro a ha
  refine regionSet_keeps (sub hw rfl) ?_
  exact ha

theorem execSecSvnCommit_keeps {agent v s0 t} (hw : μ ||| 144115188075855872 = μ) (h : execSecSvnCommit agent v s0 = .next t) : Keeps μ s0 t := by
  unfold execSecSvnCommit at h
  refine whenOn_keeps ?_ h
  intro a ha
  refine namedWrite_keeps ?_ ?_
  · exact ha
  · intro x0 h1
    refine svnCommit_keeps (sub hw rfl) ?_
    exact h1

theorem execTrngFailed_keeps {s0 t} (h : execTrngFailed s0 = .next t) : Keeps μ s0 t := by
  unfold execTrngFailed at h
  refine whenOn_keeps ?_ h
  intro a ha
  refine ite_intro (P := Keeps μ s0) (fun _ => ?_) (fun _ => ?_)
  · exact ha
  · refine raise_keeps ?_
    refine wr_keeps ?_
    exact ha

theorem execPmSleep_keeps {no s0 t} (hw : μ ||| 297307946298114413 = μ) (h : execPmSleep no s0 = .next t) : Keeps μ s0 t := by
  unfold execPmSleep at h
  refine whenOn_keeps ?_ h
  intro a ha
  refine pmSleep_keeps (sub hw rfl) ?_
  exact ha

theorem execPmBudgetInterval_keeps {m s0 t} (hw : μ ||| 72057604775346176 = μ) (h : execPmBudgetInterval m s0 = .next t) : Keeps μ s0 t := by
  unfold execPmBudgetInterval at h
  refine whenOn_keeps ?_ h
  intro a ha
  refine budget_keeps (sub hw rfl) ?_
  exact ha

theorem execGovernorSample_keeps {ma s0 t} (hw : μ ||| 72057596185411840 = μ) (h : execGovernorSample ma s0 = .next t) : Keeps μ s0 t := by
  unfold execGovernorSample at h
  refine whenOn_keeps ?_ h
  intro a ha
  refine governor_keeps (sub hw rfl) ?_
  exact ha

theorem execPmEmergencyCap_keeps {agent v s0 t} (h : execPmEmergencyCap agent v s0 = .next t) : Keeps μ s0 t := by
  unfold execPmEmergencyCap at h
  refine whenOn_keeps ?_ h
  intro a ha
  refine immediateWrite_keeps ?_ ?_
  · exact ha
  · intro x0 h1
    refine applyCap_keeps ?_
    exact h1

theorem execDramHotReduction_keeps {s0 t} (hw : μ ||| 72057594037927936 = μ) (h : execDramHotReduction s0 = .next t) : Keeps μ s0 t := by
  unfold execDramHotReduction at h
  refine whenOn_keeps ?_ h
  intro a ha
  refine hotStep_keeps (sub hw rfl) ?_
  exact ha

theorem execDieTempSample_keeps {temps s0 t} (hw : μ ||| 256 = μ) (h : execDieTempSample temps s0 = .next t) : Keeps μ s0 t := by
  unfold execDieTempSample at h
  refine whenOn_keeps ?_ h
  intro a ha
  refine dieSample_keeps (sub hw rfl) ?_
  exact ha

theorem execClockStep_keeps {s0 t} (hw : μ ||| 72057594037927936 = μ) (h : execClockStep s0 = .next t) : Keeps μ s0 t := by
  unfold execClockStep at h
  refine whenOn_keeps ?_ h
  intro a ha
  refine clockStep_keeps (sub hw rfl) ?_
  exact ha

theorem execHoldLevelEntry_keeps {d idle s0 t} (h : execHoldLevelEntry d idle s0 = .next t) : Keeps μ s0 t := by
  unfold execHoldLevelEntry at h
  refine whenOn_keeps ?_ h
  intro a ha
  refine holdEntry_keeps ?_
  exact ha

theorem execDomainWake_keeps {d s0 t} (hw : μ ||| 105597664364908 = μ) (h : execDomainWake d s0 = .next t) : Keeps μ s0 t := by
  unfold execDomainWake at h
  refine whenOn_keeps ?_ h
  intro a ha
  refine domainWake_keeps (sub hw rfl) ?_
  exact ha

theorem execPmWake_keeps {agent c v s0 t} (h : execPmWake agent c v s0 = .next t) : Keeps μ s0 t := by
  unfold execPmWake at h
  refine whenOn_keeps ?_ h
  intro a ha
  refine namedWrite_keeps ?_ ?_
  · exact ha
  · intro x0 h1
    refine applyPmWake_keeps ?_
    exact h1

theorem execMgtLinkUp_keeps {s0 t} (h : execMgtLinkUp s0 = .next t) : Keeps μ s0 t := by
  unfold execMgtLinkUp at h
  refine whenOn_keeps ?_ h
  intro a ha
  refine ite_intro (P := Keeps μ s0) (fun _ => ?_) (fun _ => ?_)
  · refine wrF_keeps ?_
    refine romClocks_keeps ?_
    exact ha
  · exact ha

theorem execMgtLinkDown_keeps {s0 t} (hw : μ ||| 8192 = μ) (h : execMgtLinkDown s0 = .next t) : Keeps μ s0 t := by
  unfold execMgtLinkDown at h
  refine whenOn_keeps ?_ h
  intro a ha
  refine mgtDown_keeps (sub hw rfl) ?_
  exact ha

theorem execPatrolScrubRead_keeps {u upset s0 t} (hw : μ ||| 42949673440 = μ) (h : execPatrolScrubRead u upset s0 = .next t) : Keeps μ s0 t := by
  unfold execPatrolScrubRead at h
  refine whenOn_keeps ?_ h
  intro a ha
  refine ite_intro (P := Keeps μ s0) (fun _ => ?_) (fun _ => ?_)
  · refine scrubStep_keeps (sub hw rfl) ?_
    refine scrubUpset_keeps (sub hw rfl) ?_
    exact ha
  · exact ha

theorem execSeqCommandComplete_keeps {id mismatch s0 t} (hw : μ ||| 105596586033516 = μ) (h : execSeqCommandComplete id mismatch s0 = .next t) : Keeps μ s0 t := by
  unfold execSeqCommandComplete at h
  refine whenOn_keeps ?_ h
  intro a ha
  split
  · rename_i y0 e1
    exact ha
  · rename_i y2 y3 e4
    refine ite_intro (P := Keeps μ s0) (fun _ => ?_) (fun _ => ?_)
    · exact ha
    · refine ite_intro (P := Keeps μ s0) (fun _ => ?_) (fun _ => ?_)
      · refine seqAppendEnd_keeps (sub hw rfl) ?_
        exact ha
      · refine ite_intro (P := Keeps μ s0) (fun _ => ?_) (fun _ => ?_)
        · refine seqRestoreEnd_keeps (sub hw rfl) ?_
          exact ha
        · refine seqCloseEnd_keeps (sub hw rfl) ?_
          exact ha

theorem execModelImportDone_keeps {s0 t} (hw : μ ||| 288335972217651564 = μ) (h : execModelImportDone s0 = .next t) : Keeps μ s0 t := by
  unfold execModelImportDone at h
  refine whenOn_keeps ?_ h
  intro a ha
  refine importDone_keeps (sub hw rfl) ?_
  exact ha

theorem execCoreRestarted_keeps {core s0 t} (hw : μ ||| 18014407099416832 = μ) (h : execCoreRestarted core s0 = .next t) : Keeps μ s0 t := by
  unfold execCoreRestarted at h
  refine whenOn_keeps ?_ h
  intro a ha
  refine ite_intro (P := Keeps μ s0) (fun _ => ?_) (fun _ => ?_)
  · exact ha
  · refine startCore_keeps (sub hw rfl) ?_
    exact ha

theorem execPowerOnReset_keeps {t} (hw : μ ||| 576460752303423487 = μ) (h : execPowerOnReset s0 = .next t) : Keeps μ s0 t := by
  cases h
  exact upd_power (sub hw rfl) (resetDevice_keeps hw (Keeps.refl _ _))

theorem execPowerGood_keeps {t} (hw : μ ||| 576460752303423487 = μ) (h : execPowerGood s0 = .next t) : Keeps μ s0 t := by
  cases h
  exact ite_intro (P := Keeps μ s0) (fun _ => endCommand_keeps (Keeps.refl _ _) (romClocks_keeps (resetDevice_keeps hw (Keeps.refl _ _))))
    (fun _ => Keeps.refl _ _)

theorem execH4Wake_keeps {light t} (hw : μ ||| 315386502480017773 = μ) (h : execH4Wake light s0 = .next t) : Keeps μ s0 t := by
  cases h
  exact ite_intro (P := Keeps μ s0) (fun _ => endCommand_keeps (Keeps.refl _ _) (h4Wake_keeps hw (Keeps.refl _ _))) (fun _ => Keeps.refl _ _)

/-- The bits of a list of parts. -/
def partsMask (l : List Part) : Nat := l.foldr (fun p n => 1 <<< partBit p ||| n) 0

/-- Whatever the command: the queue stays, no fuse bit is restored, the memories stay canonical, and only the parts that the
command may change differ. -/
theorem exec_keeps {i : Instr} {t : State} (h : exec i s0 = .next t) : Keeps (partsMask (mayChange i)) s0 t := by
  match i, h with
  | .powerOnReset, h => exact execPowerOnReset_keeps (by simp only [mayChange]; decide +kernel) h
  | .powerGood, h => exact execPowerGood_keeps (by simp only [mayChange]; decide +kernel) h
  | .railWindowFault _ _, h => exact execRailWindowFault_keeps (by simp only [mayChange]; decide +kernel) h
  | .clockLost _ _, h => exact execClockLost_keeps (by simp only [mayChange]; decide +kernel) h
  | .pllUnlocked _, h => exact execPllUnlocked_keeps (by simp only [mayChange]; decide +kernel) h
  | .aonFault, h => exact execAonFault_keeps h
  | .imageBegin _ _ _, h => exact execImageBegin_keeps (by simp only [mayChange]; decide +kernel) h
  | .imageChunk _ _ _, h => exact execImageChunk_keeps (by simp only [mayChange]; decide +kernel) h
  | .imageEnd _ _, h => exact execImageEnd_keeps (by simp only [mayChange]; decide +kernel) h
  | .imageTimeout, h => exact execImageTimeout_keeps (by simp only [mayChange]; decide +kernel) h
  | .configWaitTimeout, h => exact execConfigWaitTimeout_keeps (by simp only [mayChange]; decide +kernel) h
  | .dramTrainingDone _, h => exact execDramTrainingDone_keeps (by simp only [mayChange]; decide +kernel) h
  | .powerOnBistDone _, h => exact execPowerOnBistDone_keeps (by simp only [mayChange]; decide +kernel) h
  | .bootComplete, h => exact execBootComplete_keeps (by simp only [mayChange]; decide +kernel) h
  | .registerWrite _ _ _, h => exact execRegisterWrite_keeps (by simp only [mayChange]; decide +kernel) h
  | .postedWriteApply _, h => exact execPostedWriteApply_keeps (by simp only [mayChange]; decide +kernel) h
  | .evtAck _ _ _ _, h => exact execEvtAck_keeps h
  | .mbxSelCapture _ _ _, h => exact execMbxSelCapture_keeps h
  | .mbxSelCancel _ _, h => exact execMbxSelCancel_keeps h
  | .mbxCaptureDone _, h => exact execMbxCaptureDone_keeps h
  | .key _ _ _, h => exact execKey_keeps h
  | .unlockLapse _ _, h => exact execUnlockLapse_keeps h
  | .lock _ _ _, h => exact execLock_keeps h
  | .updateStrobe _ _, h => exact execUpdateStrobe_keeps h
  | .updateGroupApply _, h => exact execUpdateGroupApply_keeps (by simp only [mayChange]; decide +kernel) h
  | .podPortWrite _ _, h => exact execPodPortWrite_keeps (by simp only [mayChange]; decide +kernel) h
  | .podResync _ _, h => exact execPodResync_keeps (by simp only [mayChange]; decide +kernel) h
  | .podReceive _ _, h => exact execPodReceive_keeps (by simp only [mayChange]; decide +kernel) h
  | .podStart _, h => exact execPodStart_keeps (by simp only [mayChange]; decide +kernel) h
  | .originClose _, h => exact execOriginClose_keeps (by simp only [mayChange]; decide +kernel) h
  | .originWindowClose _, h => exact execOriginWindowClose_keeps (by simp only [mayChange]; decide +kernel) h
  | .retainCfg _ _, h => exact execRetainCfg_keeps (by simp only [mayChange]; decide +kernel) h
  | .bar2Access _ _ _, h => exact execBar2Access_keeps (by simp only [mayChange]; decide +kernel) h
  | .remoteTimeout, h => exact execRemoteTimeout_keeps (by simp only [mayChange]; decide +kernel) h
  | .u4Aperture _ _, h => exact execU4Aperture_keeps h
  | .functionLevelReset, h => exact execFunctionLevelReset_keeps (by simp only [mayChange]; decide +kernel) h
  | .msixUnmask _ _ _, h => exact execMsixUnmask_keeps h
  | .usb4BlockReceive _ _ _, h => exact execUsb4BlockReceive_keeps (by simp only [mayChange]; decide +kernel) h
  | .hostLinkDown _, h => exact execHostLinkDown_keeps (by simp only [mayChange]; decide +kernel) h
  | .hostLinkUp _, h => exact execHostLinkUp_keeps (by simp only [mayChange]; decide +kernel) h
  | .tsfFrameReceive _ _ _, h => exact execTsfFrameReceive_keeps (by simp only [mayChange]; decide +kernel) h
  | .streamWindowStart _ _, h => exact execStreamWindowStart_keeps (by simp only [mayChange]; decide +kernel) h
  | .fsDeadline _ _, h => exact execFsDeadline_keeps (by simp only [mayChange]; decide +kernel) h
  | .feDeadline _ _, h => exact execFeDeadline_keeps (by simp only [mayChange]; decide +kernel) h
  | .tpDeadline _ _, h => exact execTpDeadline_keeps (by simp only [mayChange]; decide +kernel) h
  | .streamEnable _ _ _ _, h => exact execStreamEnable_keeps h
  | .camSettings _, h => exact execCamSettings_keeps (by simp only [mayChange]; decide +kernel) h
  | .controlResponse _, h => exact execControlResponse_keeps (by simp only [mayChange]; decide +kernel) h
  | .camAckTimeout _, h => exact execCamAckTimeout_keeps (by simp only [mayChange]; decide +kernel) h
  | .settingsApplyRidge _, h => exact execSettingsApplyRidge_keeps (by simp only [mayChange]; decide +kernel) h
  | .gptpSyncSend _, h => exact execGptpSyncSend_keeps (by simp only [mayChange]; decide +kernel) h
  | .gptpMessageReceive _ _, h => exact execGptpMessageReceive_keeps (by simp only [mayChange]; decide +kernel) h
  | .sensorLinkUp _, h => exact execSensorLinkUp_keeps (by simp only [mayChange]; decide +kernel) h
  | .sensorLinkDown _ _, h => exact execSensorLinkDown_keeps (by simp only [mayChange]; decide +kernel) h
  | .mkaFrameReceive _ _, h => exact execMkaFrameReceive_keeps (by simp only [mayChange]; decide +kernel) h
  | .macsecRekey _, h => exact execMacsecRekey_keeps (by simp only [mayChange]; decide +kernel) h
  | .oldSaExpire _, h => exact execOldSaExpire_keeps (by simp only [mayChange]; decide +kernel) h
  | .pipeLine _ _ _, h => exact execPipeLine_keeps (by simp only [mayChange]; decide +kernel) h
  | .statisticsPod _ _, h => exact execStatisticsPod_keeps (by simp only [mayChange]; decide +kernel) h
  | .ppFormationStart, h => exact execPpFormationStart_keeps (by simp only [mayChange]; decide +kernel) h
  | .ppFormationDone, h => exact execPpFormationDone_keeps (by simp only [mayChange]; decide +kernel) h
  | .batchSubmit _, h => exact execBatchSubmit_keeps (by simp only [mayChange]; decide +kernel) h
  | .queueReset _, h => exact execQueueReset_keeps (by simp only [mayChange]; decide +kernel) h
  | .decodeSampleStart _ _, h => exact execDecodeSampleStart_keeps (by simp only [mayChange]; decide +kernel) h
  | .decodeSampleDone _ _, h => exact execDecodeSampleDone_keeps (by simp only [mayChange]; decide +kernel) h
  | .decodeDeadline _, h => exact execDecodeDeadline_keeps (by simp only [mayChange]; decide +kernel) h
  | .decodeConfigApply _, h => exact execDecodeConfigApply_keeps (by simp only [mayChange]; decide +kernel) h
  | .arrayIssue _ _, h => exact execArrayIssue_keeps (by simp only [mayChange]; decide +kernel) h
  | .weightTileLoad _ _ _ _, h => exact execWeightTileLoad_keeps (by simp only [mayChange]; decide +kernel) h
  | .arrayTileDone _ _, h => exact execArrayTileDone_keeps (by simp only [mayChange]; decide +kernel) h
  | .abftVerdict _, h => exact execAbftVerdict_keeps (by simp only [mayChange]; decide +kernel) h
  | .abftLate _, h => exact execAbftLate_keeps (by simp only [mayChange]; decide +kernel) h
  | .arrayOperationDone _ _, h => exact execArrayOperationDone_keeps (by simp only [mayChange]; decide +kernel) h
  | .ballastEnd _ _, h => exact execBallastEnd_keeps (by simp only [mayChange]; decide +kernel) h
  | .activityLevelStep _ _, h => exact execActivityLevelStep_keeps (by simp only [mayChange]; decide +kernel) h
  | .arrFence _ _ _ _, h => exact execArrFence_keeps (by simp only [mayChange]; decide +kernel) h
  | .abftInject _ _ _, h => exact execAbftInject_keeps h
  | .engineIssue _ _, h => exact execEngineIssue_keeps (by simp only [mayChange]; decide +kernel) h
  | .engineOperationDone _ _ _ _, h => exact execEngineOperationDone_keeps (by simp only [mayChange]; decide +kernel) h
  | .engFence _ _ _ _, h => exact execEngFence_keeps (by simp only [mayChange]; decide +kernel) h
  | .engInject _ _ _ _, h => exact execEngInject_keeps h
  | .scratchScrubPass _ _, h => exact execScratchScrubPass_keeps (by simp only [mayChange]; decide +kernel) h
  | .scrInject _ _ _, h => exact execScrInject_keeps h
  | .pegCount _ _ _, h => exact execPegCount_keeps (by simp only [mayChange]; decide +kernel) h
  | .pegCfg _ _ _, h => exact execPegCfg_keeps (by simp only [mayChange]; decide +kernel) h
  | .pegIncWrite _ _ _, h => exact execPegIncWrite_keeps (by simp only [mayChange]; decide +kernel) h
  | .rollEnable _ _ _ _, h => exact execRollEnable_keeps h
  | .rollAppendReserve _ _, h => exact execRollAppendReserve_keeps (by simp only [mayChange]; decide +kernel) h
  | .rollAppendCommit _ _, h => exact execRollAppendCommit_keeps (by simp only [mayChange]; decide +kernel) h
  | .rollCommit _ _ _ _, h => exact execRollCommit_keeps (by simp only [mayChange]; decide +kernel) h
  | .rollRelease _ _ _ _, h => exact execRollRelease_keeps h
  | .rollReset _ _ _, h => exact execRollReset_keeps (by simp only [mayChange]; decide +kernel) h
  | .seqOpen _, h => exact execSeqOpen_keeps (by simp only [mayChange]; decide +kernel) h
  | .seqClose _, h => exact execSeqClose_keeps (by simp only [mayChange]; decide +kernel) h
  | .seqAppend _, h => exact execSeqAppend_keeps (by simp only [mayChange]; decide +kernel) h
  | .seqStage _, h => exact execSeqStage_keeps (by simp only [mayChange]; decide +kernel) h
  | .stageStart _, h => exact execStageStart_keeps (by simp only [mayChange]; decide +kernel) h
  | .stageCopyDone _ _, h => exact execStageCopyDone_keeps (by simp only [mayChange]; decide +kernel) h
  | .seqRelease _, h => exact execSeqRelease_keeps (by simp only [mayChange]; decide +kernel) h
  | .seqImportance _, h => exact execSeqImportance_keeps (by simp only [mayChange]; decide +kernel) h
  | .seqRestore _, h => exact execSeqRestore_keeps (by simp only [mayChange]; decide +kernel) h
  | .recomputeTimeout _ _, h => exact execRecomputeTimeout_keeps (by simp only [mayChange]; decide +kernel) h
  | .seqCtl _ _, h => exact execSeqCtl_keeps h
  | .seqInject _ _, h => exact execSeqInject_keeps h
  | .graphLoad _, h => exact execGraphLoad_keeps (by simp only [mayChange]; decide +kernel) h
  | .graphUnload _, h => exact execGraphUnload_keeps (by simp only [mayChange]; decide +kernel) h
  | .instanceStart _, h => exact execInstanceStart_keeps (by simp only [mayChange]; decide +kernel) h
  | .cycleLaunch _, h => exact execCycleLaunch_keeps (by simp only [mayChange]; decide +kernel) h
  | .jobFire, h => exact execJobFire_keeps (by simp only [mayChange]; decide +kernel) h
  | .jobComplete _, h => exact execJobComplete_keeps (by simp only [mayChange]; decide +kernel) h
  | .jobTimeout _, h => exact execJobTimeout_keeps (by simp only [mayChange]; decide +kernel) h
  | .cycleDeadline _, h => exact execCycleDeadline_keeps (by simp only [mayChange]; decide +kernel) h
  | .fgEnable _ _, h => exact execFgEnable_keeps (by simp only [mayChange]; decide +kernel) h
  | .fgDisable _ _, h => exact execFgDisable_keeps (by simp only [mayChange]; decide +kernel) h
  | .detCtl _ _, h => exact execDetCtl_keeps h
  | .rrRecord _ _, h => exact execRrRecord_keeps (by simp only [mayChange]; decide +kernel) h
  | .rrReplay _ _, h => exact execRrReplay_keeps (by simp only [mayChange]; decide +kernel) h
  | .rrOff _ _, h => exact execRrOff_keeps (by simp only [mayChange]; decide +kernel) h
  | .replayEntry, h => exact execReplayEntry_keeps (by simp only [mayChange]; decide +kernel) h
  | .ringPodWrite _, h => exact execRingPodWrite_keeps (by simp only [mayChange]; decide +kernel) h
  | .ringWaitExpire _, h => exact execRingWaitExpire_keeps (by simp only [mayChange]; decide +kernel) h
  | .ringTail _ _ _, h => exact execRingTail_keeps h
  | .ringCfgWrite _ _ _, h => exact execRingCfgWrite_keeps (by simp only [mayChange]; decide +kernel) h
  | .msixCoalesceExpire _, h => exact execMsixCoalesceExpire_keeps h
  | .dramRefresh c, h => exact execDramRefresh_keeps (v0 := c) h
  | .dramTempSample _, h => exact execDramTempSample_keeps (by simp only [mayChange]; decide +kernel) h
  | .dramCeRate _, h => exact execDramCeRate_keeps (by simp only [mayChange]; decide +kernel) h
  | .dramScrubPass _, h => exact execDramScrubPass_keeps (by simp only [mayChange]; decide +kernel) h
  | .chInject _ _ _, h => exact execChInject_keeps h
  | .encRegionEnable _ _ _, h => exact execEncRegionEnable_keeps (by simp only [mayChange]; decide +kernel) h
  | .encRegionReady _, h => exact execEncRegionReady_keeps (by simp only [mayChange]; decide +kernel) h
  | .encRegionDisable _ _ _, h => exact execEncRegionDisable_keeps (by simp only [mayChange]; decide +kernel) h
  | .guylineFlitReceive _ _ _ _, h => exact execGuylineFlitReceive_keeps (by simp only [mayChange]; decide +kernel) h
  | .flitAckTimeout _, h => exact execFlitAckTimeout_keeps (by simp only [mayChange]; decide +kernel) h
  | .linkRetryFail _ _, h => exact execLinkRetryFail_keeps (by simp only [mayChange]; decide +kernel) h
  | .guylineTrainingDone _ _, h => exact execGuylineTrainingDone_keeps (by simp only [mayChange]; decide +kernel) h
  | .guylinePacketSend _, h => exact execGuylinePacketSend_keeps (by simp only [mayChange]; decide +kernel) h
  | .glWrite _ _, h => exact execGlWrite_keeps (by simp only [mayChange]; decide +kernel) h
  | .glReadReq _, h => exact execGlReadReq_keeps (by simp only [mayChange]; decide +kernel) h
  | .glReadCpl _, h => exact execGlReadCpl_keeps (by simp only [mayChange]; decide +kernel) h
  | .glPod _, h => exact execGlPod_keeps (by simp only [mayChange]; decide +kernel) h
  | .glPegInc _, h => exact execGlPegInc_keeps (by simp only [mayChange]; decide +kernel) h
  | .glSync _, h => exact execGlSync_keeps (by simp only [mayChange]; decide +kernel) h
  | .glDelayReq _, h => exact execGlDelayReq_keeps (by simp only [mayChange]; decide +kernel) h
  | .glDelayResp _ _ _, h => exact execGlDelayResp_keeps (by simp only [mayChange]; decide +kernel) h
  | .syncInterval _, h => exact execSyncInterval_keeps (by simp only [mayChange]; decide +kernel) h
  | .syncTimeout, h => exact execSyncTimeout_keeps (by simp only [mayChange]; decide +kernel) h
  | .routeFailover _, h => exact execRouteFailover_keeps (by simp only [mayChange]; decide +kernel) h
  | .routeRestore _, h => exact execRouteRestore_keeps (by simp only [mayChange]; decide +kernel) h
  | .openFibre _ _, h => exact execOpenFibre_keeps (by simp only [mayChange]; decide +kernel) h
  | .lightReceived _, h => exact execLightReceived_keeps (by simp only [mayChange]; decide +kernel) h
  | .probeStart _, h => exact execProbeStart_keeps (by simp only [mayChange]; decide +kernel) h
  | .probeEnd _, h => exact execProbeEnd_keeps (by simp only [mayChange]; decide +kernel) h
  | .laserFault _ _, h => exact execLaserFault_keeps (by simp only [mayChange]; decide +kernel) h
  | .mgtHello _, h => exact execMgtHello_keeps (by simp only [mayChange]; decide +kernel) h
  | .mgtStart _ _ _ _, h => exact execMgtStart_keeps (by simp only [mayChange]; decide +kernel) h
  | .mgtGet _ _ _, h => exact execMgtGet_keeps (by simp only [mayChange]; decide +kernel) h
  | .mgtPutCt _ _ _, h => exact execMgtPutCt_keeps (by simp only [mayChange]; decide +kernel) h
  | .mgtPutKey _ _ _, h => exact execMgtPutKey_keeps (by simp only [mayChange]; decide +kernel) h
  | .mgtFinish _ _, h => exact execMgtFinish_keeps (by simp only [mayChange]; decide +kernel) h
  | .sessionClose _, h => exact execSessionClose_keeps (by simp only [mayChange]; decide +kernel) h
  | .sessionIdleTimeout, h => exact execSessionIdleTimeout_keeps (by simp only [mayChange]; decide +kernel) h
  | .mgtRegRead _ _, h => exact execMgtRegRead_keeps (by simp only [mayChange]; decide +kernel) h
  | .mgtRegWrite _ _ _, h => exact execMgtRegWrite_keeps (by simp only [mayChange]; decide +kernel) h
  | .mgtMemRead _ _ _, h => exact execMgtMemRead_keeps (by simp only [mayChange]; decide +kernel) h
  | .mgtMemWrite _ _ _, h => exact execMgtMemWrite_keeps (by simp only [mayChange]; decide +kernel) h
  | .mgtReset _, h => exact execMgtReset_keeps (by simp only [mayChange]; decide +kernel) h
  | .resetExecute, h => exact execResetExecute_keeps (by simp only [mayChange]; decide +kernel) h
  | .mgtStatus _, h => exact execMgtStatus_keeps (by simp only [mayChange]; decide +kernel) h
  | .lanternWordBoundary, h => exact execLanternWordBoundary_keeps (by simp only [mayChange]; decide +kernel) h
  | .lanternTest _ _, h => exact execLanternTest_keeps (by simp only [mayChange]; decide +kernel) h
  | .lanternTestEnd, h => exact execLanternTestEnd_keeps (by simp only [mayChange]; decide +kernel) h
  | .sentryEnable _ _, h => exact execSentryEnable_keeps h
  | .sentryRunStart, h => exact execSentryRunStart_keeps (by simp only [mayChange]; decide +kernel) h
  | .sentryRunEnd _ _ _, h => exact execSentryRunEnd_keeps (by simp only [mayChange]; decide +kernel) h
  | .sntInject _ _, h => exact execSntInject_keeps h
  | .compEnable _ _, h => exact execCompEnable_keeps (by simp only [mayChange]; decide +kernel) h
  | .judgementCutOff, h => exact execJudgementCutOff_keeps (by simp only [mayChange]; decide +kernel) h
  | .compVerdict _, h => exact execCompVerdict_keeps (by simp only [mayChange]; decide +kernel) h
  | .lockstepMismatch _ _, h => exact execLockstepMismatch_keeps (by simp only [mayChange]; decide +kernel) h
  | .lsDebugHalt _ _ _, h => exact execLsDebugHalt_keeps (by simp only [mayChange]; decide +kernel) h
  | .lsDebugResume _, h => exact execLsDebugResume_keeps (by simp only [mayChange]; decide +kernel) h
  | .lsInject _ _, h => exact execLsInject_keeps (by simp only [mayChange]; decide +kernel) h
  | .faultReport _, h => exact execFaultReport_keeps (by simp only [mayChange]; decide +kernel) h
  | .faultLevelClear _, h => exact execFaultLevelClear_keeps (by simp only [mayChange]; decide +kernel) h
  | .quietPeriodExpire, h => exact execQuietPeriodExpire_keeps (by simp only [mayChange]; decide +kernel) h
  | .fcSelfFault _ _, h => exact execFcSelfFault_keeps (by simp only [mayChange]; decide +kernel) h
  | .fcForceSafe _ _, h => exact execFcForceSafe_keeps (by simp only [mayChange]; decide +kernel) h
  | .fcKill _ _, h => exact execFcKill_keeps (by simp only [mayChange]; decide +kernel) h
  | .fcInject _ _, h => exact execFcInject_keeps (by simp only [mayChange]; decide +kernel) h
  | .reexecutionStart _, h => exact execReexecutionStart_keeps (by simp only [mayChange]; decide +kernel) h
  | .bistCmd _ _, h => exact execBistCmd_keeps (by simp only [mayChange]; decide +kernel) h
  | .bistResult _, h => exact execBistResult_keeps (by simp only [mayChange]; decide +kernel) h
  | .bistSliceStart _, h => exact execBistSliceStart_keeps (by simp only [mayChange]; decide +kernel) h
  | .bistSliceEnd _ _, h => exact execBistSliceEnd_keeps (by simp only [mayChange]; decide +kernel) h
  | .coverageLapse _, h => exact execCoverageLapse_keeps (by simp only [mayChange]; decide +kernel) h
  | .coverageLapseDouble _, h => exact execCoverageLapseDouble_keeps (by simp only [mayChange]; decide +kernel) h
  | .wdKick _ _ _, h => exact execWdKick_keeps (by simp only [mayChange]; decide +kernel) h
  | .watchdogExpired _, h => exact execWatchdogExpired_keeps (by simp only [mayChange]; decide +kernel) h
  | .attest _, h => exact execAttest_keeps (by simp only [mayChange]; decide +kernel) h
  | .attestOutputWritten, h => exact execAttestOutputWritten_keeps (by simp only [mayChange]; decide +kernel) h
  | .hostAuth _, h => exact execHostAuth_keeps (by simp only [mayChange]; decide +kernel) h
  | .keyImport _, h => exact execKeyImport_keeps (by simp only [mayChange]; decide +kernel) h
  | .modelImport _, h => exact execModelImport_keeps (by simp only [mayChange]; decide +kernel) h
  | .keyClear _, h => exact execKeyClear_keeps (by simp only [mayChange]; decide +kernel) h
  | .regionSet _, h => exact execRegionSet_keeps (by simp only [mayChange]; decide +kernel) h
  | .secSvnCommit _ _, h => exact execSecSvnCommit_keeps (by simp only [mayChange]; decide +kernel) h
  | .trngFailed, h => exact execTrngFailed_keeps h
  | .pmSleep _, h => exact execPmSleep_keeps (by simp only [mayChange]; decide +kernel) h
  | .h4Wake _, h => exact execH4Wake_keeps (by simp only [mayChange]; decide +kernel) h
  | .pmBudgetInterval _, h => exact execPmBudgetInterval_keeps (by simp only [mayChange]; decide +kernel) h
  | .governorSample _, h => exact execGovernorSample_keeps (by simp only [mayChange]; decide +kernel) h
  | .pmEmergencyCap _ _, h => exact execPmEmergencyCap_keeps h
  | .dramHotReduction, h => exact execDramHotReduction_keeps (by simp only [mayChange]; decide +kernel) h
  | .dieTempSample _, h => exact execDieTempSample_keeps (by simp only [mayChange]; decide +kernel) h
  | .clockStep, h => exact execClockStep_keeps (by simp only [mayChange]; decide +kernel) h
  | .holdLevelEntry _ _, h => exact execHoldLevelEntry_keeps h
  | .domainWake _, h => exact execDomainWake_keeps (by simp only [mayChange]; decide +kernel) h
  | .pmWake _ _ _, h => exact execPmWake_keeps h
  | .mgtLinkUp, h => exact execMgtLinkUp_keeps h
  | .mgtLinkDown, h => exact execMgtLinkDown_keeps (by simp only [mayChange]; decide +kernel) h
  | .patrolScrubRead _ _, h => exact execPatrolScrubRead_keeps (by simp only [mayChange]; decide +kernel) h
  | .seqCommandComplete _ _, h => exact execSeqCommandComplete_keeps (by simp only [mayChange]; decide +kernel) h
  | .modelImportDone, h => exact execModelImportDone_keeps (by simp only [mayChange]; decide +kernel) h
  | .coreRestarted _, h => exact execCoreRestarted_keeps (by simp only [mayChange]; decide +kernel) h

theorem partsMask_bit {l : List Part} {p : Part} (h : p ∉ l) : (partsMask l).testBit (partBit p) = false := by
  induction l with
  | nil => simp [partsMask]
  | cons q t ih =>
    have hq : partBit q ≠ partBit p := by
      intro e
      have : q = p := by revert e; cases q <;> cases p <;> first | (intro _; rfl) | (intro e; exact absurd e (by decide))
      exact h (this ▸ List.mem_cons_self)
    have ht : p ∉ t := fun c => h (List.mem_cons_of_mem _ c)
    show (1 <<< partBit q ||| partsMask t).testBit (partBit p) = false
    rw [Nat.one_shiftLeft, Nat.testBit_or, ih ht, Nat.testBit_two_pow_of_ne hq]
    rfl

end Sys2Proof.Laws
end

