-- ==== Sys2Proof/Tests/Slice0.lean ====
section
/-!
SUPPORT. Tests: commands that are not well formed, and for each statement a state and operands that meet its hypotheses, on
which the command does what the statement says. The expected values are those of the spec's rules.
-/

namespace Sys2Proof.Tests

open Sys2Proof Sys2Proof.Machine Sys2Proof.Safety

-- One test at a time: their kernel runs in parallel would ask for too many threads.
set_option Elab.async false

-- The checksums of whole flits recurse deeper than the default.
set_option maxRecDepth 8000

/-- The state after a command. -/
def after (c : Instr) (s : State) : State :=
  match exec c s with
  | .next t => t
  | _ => s

/-- The state right after reset. -/
abbrev z : State := State.reset


/-- The management port is up. -/
abbrev mz : State := wr z A.MGT_STATUS 1

/-- A management frame for it, outside any session. -/
abbrev mf : MgtFrame := { src := 5, dest := BitVec.ofNat 48 (mgtAddr z), sec := none, session := 0, seq := 1, tagOk := true }

/-! ### Commands that are not well formed: each check refuses one -/

/-- The chunk of an image is empty, and longer than a frame carries (R497). -/
theorem test_ill_image_chunk : (Instr.imageChunk mf 0 []).wellFormed = false ∧
    (Instr.imageChunk mf 0 (List.replicate 1477 0)).wellFormed = false := by decide +kernel

/-- A unit named twice, a write and a read of no byte, and accesses that leave their aperture. -/
theorem test_ill_accesses : (Instr.powerOnBistDone [1, 1]).wellFormed = false ∧
    (Instr.registerWrite .host 0 []).wellFormed = false ∧ (Instr.podPortWrite 0 []).wellFormed = false ∧
    (Instr.podPortWrite 0xFFFFF [0, 0]).wellFormed = false ∧ (Instr.bar2Access 0 (.read 0) false).wellFormed = false ∧
    (Instr.bar2Access 0 (.read 4097) false).wellFormed = false ∧ (Instr.bar2Access 0 (.write []) false).wellFormed = false ∧
    (Instr.bar2Access 0xFFFFFFF (.write [0, 0]) false).wellFormed = false := by decide

/-- A frame of 1,501 bytes, and chroma planes of two sizes. -/
theorem test_ill_sensor_data :
    (Instr.tsfFrameReceive 0 { fcsOk := true, dest := 0, sec := none, etherType := 0, data := List.replicate 1501 0 } false).wellFormed
      = false ∧
    (Instr.decodeSampleDone 0 (some { y := [0], cb := [0], cr := [] })).wellFormed = false := by decide +kernel

/-- An issue of no descriptor, and losses of no access. -/
theorem test_ill_operations : (Instr.arrayIssue 0 0).wellFormed = false ∧
    (Instr.arrayOperationDone 0 (some { count := 0, bank := 0, requester := 0, write := false, granule := 0 })).wellFormed = false ∧
    (Instr.engineOperationDone 0 0 (some { count := 0, bank := 0, requester := 0, write := false, granule := 0 }) none).wellFormed
      = false := by decide

/-- A flit that is not 256 bytes long, and a training with a short key. -/
theorem test_ill_guyline :
    let x : GlTraining := { ring := 0, peerPort := 0, cert := [], ik := [], kem := [], buffers := Vector.replicate 6 0 }
    (Instr.guylineFlitReceive 0 [0] false []).wellFormed = false ∧ (Instr.guylineTrainingDone 0 x).wellFormed = false := by
  decide

/-- Management frames with a short nonce, a short signature, and no data or too much of it. -/
theorem test_ill_management : (Instr.mgtStart mf 0 0 [0]).wellFormed = false ∧ (Instr.mgtPutCt mf 0 []).wellFormed = false ∧
    (Instr.mgtPutKey mf 0 (List.replicate 1025 0)).wellFormed = false ∧ (Instr.mgtFinish mf [0]).wellFormed = false ∧
    (Instr.mgtMemRead mf 0 0).wellFormed = false ∧ (Instr.mgtMemWrite mf 0 []).wellFormed = false := by decide +kernel

/-- More occupied cells than the grid has. -/
theorem test_ill_sentry_cells (cells : List (BitVec 2)) (h : 65536 < cells.length) :
    (Instr.sentryRunEnd cells 0 false).wellFormed = false := by simp [Instr.wellFormed]; omega

/-- A budget interval without the levels of every array. -/
theorem test_ill_power_sample :
    let x : PowerSample := PowerSample.mk 0 (Vector.replicate 6 0) (Vector.replicate 6 0) 0 0 []
    (Instr.pmBudgetInterval x).wellFormed = false := by decide

/-- A session with every privilege is open. -/
abbrev ms : State := { mz with mgt := { mz.mgt with session := some { id := 9, src := 5, slot := 0, privs := 15, lastAt := 0 } } }

/-- A frame of that session. -/
abbrev mfs : MgtFrame := { mf with session := 9 }

/-- A handshake of that frame's sender. -/
abbrev h0 : Handshake :=
  { src := 5, id := 9, slot := 0, privs := 1, clientNonce := [], deviceNonce := [], seed := [], startedAt := 0 }

/-- A step's next state. -/
def stepped (s : State) : State :=
  match step s with
  | .next t => t
  | _ => s

/-- A control pod of a section that runs, with arrival number 1. -/
abbrev ctl (sect op : Nat) (body : List Byte) : RxPod :=
  { no := 1, body := body, via := 0, arrived := 0, stage := .running,
    hdr := { version := 1, kind := 4, cls := 3, flags := 0, length := (body.length + 7) / 8, origin := 7, target := sect,
             sequence := 0, frame := 0, operation := op, completionPeg := 0, waitPeg := 0, waitTarget := 0, launch := 0 } }

/-- A state in which that pod has been received. -/
abbrev withPod (s : State) (p : RxPod) : State := { s with pods := { s.pods with rx := [p] } }

/-- A whole ORIGIN_CLOSE pod of origin 7: header, body, trailer. -/
abbrev closeBytes : List Byte :=
  let pre := [0x41, 3, 2, 0, 7, 0, 5, 0] ++ leBytes 4 9 ++ leBytes 4 0 ++ leBytes 2 0x10 ++ zeros 30 ++ leBytes 4 9 ++ zeros 8
  pre ++ leBytes 4 (crc32c pre)

/-- An event pod that waits at ring 2. -/
abbrev outP : OutPod := { kind := 8, cls := 2, operation := 7, body := [1, 2, 3] }

/-- Ring 2 enabled on a host link that is up, with that pod waiting. -/
abbrev rz : State :=
  setRing (wr (wr (wr (wr z A.U4_STATUS 13) (A.RING_CFG 2) 0x8B0) (A.RING_HEADPTR_LO 2) 0x100000) (A.MSIX_CTRL 5) 0) 2 { queue := [{ pod := outP, since := some 0 }] }

/-- Port 3 up in a settled ingress. -/
abbrev pz : State := wr z (A.PORT_STATUS 3) 1

/-- A control response on port 3: TSF subtype 4, length 5, sequence 6. -/
abbrev respFrame : EthFrame :=
  { fcsOk := true, dest := BitVec.ofNat 48 (portAddr z 3), sec := none, etherType := 0x88B5,
    data := [0x14, 0, 0, 5, 0, 0, 0, 6] ++ zeros 8 ++ [0, 0, 0, 9, 1] ++ zeros 30 }

/-- Stream 48 in an enabled window that began at count 1, in a phase. -/
abbrev stz (ph : FramePhase) : State :=
  setStream { z with ridge := 200000000 } 48
    { win := some (1, 4), phase := ph, cfg := { ctl := 0x2003, format := 0x2B, geom := 0x20004, deadlines := 0x20001, tpDl := 3 } }

/-- A frame on port 3 that holds one CSI-2 packet of virtual channel 0: header word without its check bits, line, payload. -/
abbrev csiFrame (v line : Nat) (payload : List Byte) : EthFrame :=
  let p := leBytes 4 (v + 0x1000000 * headerEcc v) ++ (if payload = [] then [] else payload ++ leBytes 2 (crc16 payload))
  { respFrame with data := [0x11, 3, 0] ++ leBytes 1 p.length ++ [0, 0, 0, 6] ++ zeros 4 ++ beBytes 2 line ++ zeros 2 ++ p ++ zeros 30 }

/-- Port 3 up at count 7 with frame group 0 launching every ms from count 1, and its stream 0 within the window of frame 4, of
lines of four 8-bit pixels for pipe 0. -/
abbrev csz (ph : FramePhase) : State :=
  let s := wr (wr (wr (wr (wr pz (A.FG_CTL 0) 1) (A.FG_PERIOD 0) 1000000) (A.FG_LAUNCH0_LO 0) 1) (A.FG_FRAME0 0) 4) (A.ST_CTL 1 16) 3
  setStream (setFg { s with ridge := 7 } 0 { first := 0, cur := 0, running := [] }) 48
    { win := some (1, 4), phase := ph, cfg := { ctl := 3, format := 0x2A, geom := 0x20004, deadlines := 0x20001, tpDl := 3 } }

/-- A frame on port 3 with one point, in base time 7. -/
abbrev pointFrame : EthFrame :=
  { respFrame with data := [0x12, 0, 0, 32, 0, 0, 0, 6] ++ zeros 8 ++ (zeros 7 ++ [7, 0, 1, 1, 0] ++ zeros 4) ++
      ([0, 0, 0, 1] ++ [255, 255, 255, 255] ++ [0, 0, 0, 2] ++ [5, 2, 0, 3]) }

/-- Point preparation takes points of the ports of a mask for frame group 0. -/
abbrev ppz (mask : Nat) : State := wr (wr (wr (csz .awaited) A.PP_SOURCES mask) A.PP_CTL 1) A.PP_BUF_SIZE 1

/-- A job entry with one descriptor for unit `u`. -/
abbrev oneJob (u : Nat) : JobEntry :=
  { index := 0, unit := u, exit := true, orderFree := false, covered := false, peg := 0, waits := [], hops := 0,
    descOffset := 0, descCount := 1, timeout := 0, ring := 0, stream := 0x400, result := 0 }

/-- A graph of that job in slot 2, its descriptors at the start of DRAM. -/
abbrev oneGraph (u : Nat) : Graph :=
  { addr := 0x1000000000, len := 0, cls := 2, bound := false, fg := 0, notify := false, jobs := [oneJob u], paramAddr := 0, paramSize := 0 }

/-- An instance of it with frame 0. -/
abbrev oneInst (j : JobRun) : Instance :=
  { id := 3, slot := 2, addr := 0x1000000000, frame := 0, cls := 2, tagCls := 2, cause := .cycle, seq := 0, entry := 0,
    cycle := none, jobs := [j] }

/-- Its job runs as firing 7 on cluster 0. -/
abbrev runJob (u : Nat) : JobRun := { entry := oneJob u, stage := .running, exec := 7 }

/-- A device on which that job runs, with the descriptor stored. -/
abbrev jz (u : Nat) (d : List Byte) : State :=
  let s := setGraph { z with insts := [oneInst (runJob u)], nextId := 10 } 2 (some (oneGraph u))
  memPut { s with cores := smSet (fun _ => {}) s.cores 3 { running := true } } 0x1000000000 d

/-- A linear array operation of one token, K = N = 1, with ABFT, all of whose operands lie in DRAM. -/
abbrev arrDesc : List Byte :=
  [1, 0, 0, 0x40] ++ zeros 12 ++ leBytes 8 0x1000010000 ++ zeros 8 ++ leBytes 8 0x1000020000 ++ zeros 8 ++ leBytes 8 0x1000030000
    ++ zeros 8 ++ leBytes 8 0x1000040000 ++ leBytes 4 0 ++ leBytes 2 0x400 ++ zeros 2 ++ zeros 8 ++ zeros 4 ++ leBytes 4 1
    ++ leBytes 8 0x1000050000 ++ leBytes 8 0x1000060000 ++ zeros 16

/-- The operation of it, running. -/
abbrev arrOp : Op :=
  { id := 5, issue := 4, exec := 7, index := 0, cluster := 0, unit := 0, desc := arrDesc, addr := 0x1000000000, frame := 0,
    cls := 2, tagCls := 2, slot := 2, job := 0, stage := .running }

/-- The device with that operation. -/
abbrev oz (o : Op) (u : Nat := 0) (d : List Byte := arrDesc) : State := { jz u d with ops := [o] }

/-- A vector operation of one element on engine 3. -/
abbrev vecDesc : List Byte :=
  [0x41, 0x30, 0, 0, 0, 0, 0, 0] ++ leBytes 2 0x400 ++ zeros 2 ++ leBytes 4 1 ++ leBytes 8 0x1000050000 ++ zeros 8
    ++ leBytes 8 0x1000060000 ++ zeros 8 ++ leBytes 8 0x1000010000 ++ zeros 8 ++ leBytes 8 0x1000020000 ++ zeros 56

/-- The operation of it, running. -/
abbrev vecOp : Op := { arrOp with unit := 7, desc := vecDesc }

/-- The state with an unlock of the host armed on a page. -/
abbrev unlocked (s : State) (p : Nat) : State :=
  { s with rf := { s.rf with unlocks := [{ page := p, agent := .host, lapse := s.ridge + 9 }] } }

/-- Roll 7 of cluster 0 enabled with 4 KiB, bound outside on both sides. -/
abbrev rollz : State := wr z (A.ROLL_CTL 0 0 7) 0x61

/-- The sequence engine enabled, with a class S share and no other pages. -/
abbrev qz : State :=
  wr (wr (wr (wr (wr (wr (wr z A.SEQ_CTL 1) A.SEQ_DIR_BASE_HI 0x10) A.SEQ_POOL_BASE_LO 0x20000000) A.SEQ_POOL_BASE_HI 0x10)
    A.SEQ_POOL_S 64) A.SEQ_CACHE_S 8) A.SEQ_RECOMP_TIMEOUT 1

/-- A class S context of one layer with one block. -/
abbrev qe : SeqEntry :=
  { state := 1, cls := 1, stats := false, recompute := false, vTok := false, recompSlot := 0, layers := 1, kp := 1, vp := 0,
    maxBlocks := 1, window := 0, sink := 0, recent := 0, stream := 0x400, tokens := 0, live := 0, dropped := 0, mapPages := 1,
    recompEntry := 0, aux := 0, map := [0x80000000, 0, 0, 0, 0, 0], version := 0 }

/-- The 64 bytes of a command of class S on context 3. -/
abbrev qb (op : Nat) (args : List Byte) : List Byte := padTo 64 (leBytes 1 (1 + 16 * op) ++ [1, 0, 0, 3] ++ zeros 11 ++ args)

/-- The pod of that command. -/
abbrev qp (op : Nat) (args : List Byte) : RxPod :=
  { ctl 6 op (qb op args ++ zeros 16) with hdr := { (ctl 6 op []).hdr with cls := 1, length := 4 } }

/-- The arguments of an OPEN of such a context. -/
abbrev qOpen : List Byte := [4, 0, 0, 1, 0, 0, 0, 0, 0, 0, 0, 4]

/-- The arguments of an APPEND of one token. -/
abbrev qAppend : List Byte :=
  leBytes 4 0 ++ leBytes 4 1 ++ leBytes 8 0x1040000000 ++ leBytes 8 0x1040010000 ++ zeros 8 ++ leBytes 8 0x1040020000 ++ leBytes 4 1

/-- The arguments of a STAGE of positions up to 9 into frame 0. -/
abbrev qStage : List Byte := [2, 0, 0, 0] ++ leBytes 4 0 ++ leBytes 4 9 ++ zeros 4

/-- The arguments of a RELEASE or an IMPORTANCE of the view at frame 0. -/
abbrev qView : List Byte := zeros 16 ++ leBytes 8 0x1040030000

/-- The engine with that context open and a pod waiting. -/
abbrev qs (op : Nat) (args : List Byte) : State := withPod (writeEntry qz 3 qe) (qp op args)

/-- A view at frame 0. -/
abbrev qv : SeqView := { ctx := 3, layer := 0, frame0 := 0, frames := 2, cls := 1, inst := 0, job := 0, exec := 0, slots := [none] }

/-- An accepted command. -/
abbrev qcmd (op : Nat) (args : List Byte) (st : SeqStage) : SeqCmd :=
  { id := 4, bytes := qb op args, issuer := .pod 1, cls := 1, frame := 0, stage := st, acceptedAt := 0 }

/-- The engine with one command in it, taken from the pod. -/
abbrev qq (op : Nat) (args : List Byte) (st : SeqStage) : State :=
  setSeq (withPod (writeEntry qz 3 qe) { qp op args with taken := true }) (fun q => { q with cmds := [qcmd op args st] })


/-- The same context with two layers, whose first an open group has written; the pod's command is for the second. -/
abbrev qe2 : SeqEntry := { qe with layers := 2 }

/-- That group. -/
abbrev qg : SeqGroup :=
  { ctx := 3, pos := 0, n := 1, frame := 0, layer := 1, busy := false, inst := 0, job := 0, exec := 0,
    blocks := [{ pos := 0, fill := 1, flags := 0, pages := [], scales := [] }] }

/-- The engine with that context and that group, and a pod waiting. -/
abbrev qs2 (op : Nat) (args : List Byte) : State :=
  let b : List Byte := padTo 64 (leBytes 1 (1 + 16 * op) ++ [1, 0, 0, 3] ++ zeros 7 ++ [1] ++ zeros 3 ++ args)
  setSeq (withPod (writeEntry qz 3 qe2) { qp op args with body := b ++ zeros 16 }) (fun q => { q with groups := [qg] })

/-- A live block of the context, and a view of it. -/
abbrev qlive : SeqSlot := { state := 1, pages := [0x80000005], scales := List.replicate 64 0 }

/-- The view at frame 0 that shows block 0. -/
abbrev qv0 : SeqView := { qv with slots := [some 0] }

/-- The engine with that block and that view, a mass of 2 in memory and an IMPORTANCE waiting. -/
abbrev qscore : State :=
  let s := (memWrite (writeSlot (qs 6 qView) qe 0 qlive) .host 0x1040030000 (leBytes 4 0x40000000)).2
  setSeq s (fun q => { q with views := [qv0] })

/-- A dropped block of the context. -/
abbrev qdrop : SeqSlot := { state := 2, pages := [0], scales := List.replicate 64 0 }

/-- The engine with that block and a pod waiting. -/
abbrev qdropped (op : Nat) (args : List Byte) : State := writeSlot (qs op args) qe 0 qdrop

/-- A group of that context at its only layer. -/
abbrev qg0 : SeqGroup := { qg with layer := 0 }

/-- A recompute request for block 7. -/
abbrev qreq : SeqRequest :=
  { ctx := 3, pos := 7, at_ := 0, slot := 0, start := { cause := .recompute 3 7, entry := 0, frame := 0, cls := 1, seq := 0, body := [] } }

/-- The dropped block as RESTOREs have it before its only layer is written. -/
abbrev qrest : SeqRestore :=
  { ctx := 3, layer := 0, inst := 0, block := { pos := 0, fill := 1, flags := 0, pages := [0x80000002], scales := [] } }

/-- The engine with a context of two layers, and an APPEND of the first layer of a group at work on it. -/
abbrev qappending : State :=
  setSeq (writeEntry (qq 3 qAppend .running) 3 qe2) (fun q => { q with groups := [qg0] })

/-- The dropped block of the context with two layers. -/
abbrev qdrop2 : SeqSlot := { state := 2, pages := [0, 0], scales := List.replicate 128 0 }

/-- The engine with that context, that block in its slot, by the bytes of Table 11.3 that are not zero, and a RESTORE of its first
layer at work. -/
abbrev qrestoring : State :=
  let s := writeEntry (qq 7 qAppend .running) 3 qe2
  setSeq (memWrite s .sequence 0x1020000108 [2, 0, 0, 0, 68, 84, 70, 217]).2 (fun q => { q with restoring := [qrest] })

/-- The engine off, its regions apart. -/
abbrev qoff : State :=
  wr (wr (wr (wr (wr (wr (wr z A.SEQ_DIR_BASE_HI 0x10) A.SEQ_WORK_BASE_LO 0x10000000) A.SEQ_WORK_BASE_HI 0x10)
    A.SEQ_POOL_BASE_LO 0x20000000) A.SEQ_POOL_BASE_HI 0x10) A.SEQ_POOL_SIZE 1) A.SEQ_POOL_S 0

/-- A graph image: a header and one result emitter. -/
abbrev gImage : List Byte :=
  [1, 2, 0, 0] ++ leBytes 2 1 ++ zeros 14 ++ leBytes 4 64 ++ zeros 36 ++ zeros 4
    ++ [0, 0, 6, 0, 0, 0, 0, 0] ++ zeros 36 ++ leBytes 4 1 ++ leBytes 4 1 ++ [0, 0] ++ leBytes 2 0x400 ++ leBytes 8 0x1000010000

/-- The pod that loads it into slot 2. -/
abbrev gLoad : RxPod :=
  { ctl 5 1 ([2] ++ zeros 7 ++ leBytes 8 0x1000000000 ++ leBytes 4 128 ++ zeros 4) with
    hdr := { (ctl 5 1 []).hdr with length := 3 } }

/-- A request to start slot 2, and the graph with that request in its queue. -/
abbrev sReq : StartReq := { cause := .cycle, entry := 0, frame := 5, cls := 2, seq := 0, body := [] }

/-- Ridge time is locked, and frame group 0 has a period. -/
abbrev fz : State := wr (wr { z with ridge := 500 } (A.FG_PERIOD 0) 1000000) A.RIDGE_STATUS 2

/-- A record ring in DRAM whose first entry is a launch marker of frame group 0, with STRICT set. -/
abbrev rrz : State :=
  memPut (wr (wr (wr z A.DET_CTL 1) A.RR_BASE_HI 0x10) A.RR_SIZE 1) 0x1000000000 (rrBytes 0 5 0 0 0 [])

/-- In a multi-device configuration: guyline port A up to ring id 5, without encryption, and the route to that ring id. -/
abbrev kz : State := wr (wr (wr (wr z (A.GL_CFG 0) 0x501) (A.GL_STATUS 0) 0x503) (A.GL_ROUTE 5) 1) A.ID_RING 0x100

/-- A packet of ring id 5. -/
abbrev pk (kind : Nat) : Packet := { kind := kind, dst := 0, src := 5, cls := 2, vc := 1, timed := false }

/-- Port A with that packet received. -/
abbrev kr (k : Packet) : State := setGl kz 0 { rxq := [k] }

/-- A device that takes its time through port A from ring id 5. -/
abbrev uz (s : State) : State := wr s A.GL_SYNC_CFG 0x105

/-- The first data flit, with zero slots only. -/
abbrev flit0 : List Byte := zeros 252 ++ leBytes 4 (crc32c (zeros 252))

/-- An idle flit that acknowledges flit 2 and returns 9 slots of buffer class 1. -/
abbrev flitI : List Byte :=
  let h := leBytes 2 0x1000 ++ leBytes 2 2 ++ leBytes 2 73 ++ zeros 246
  h ++ leBytes 4 (crc32c h)

/-- Region 3 set up over 2 MiB of DRAM. -/
abbrev ez : State :=
  wr (wr (wr z (A.ENC_BASE_HI 3) 0x10) (A.ENC_SIZE 3) 1) (A.ENC_META_HI 3) 0x11

/-- Slot 0 of pipe 0 is the sentry's only tap, not yet written, and a run of frame 5 falls due. -/
abbrev sz : State := { wr z A.SNT_TAP_MASK_LO 1 with sentry := { due := some (5, 0) } }

/-- A cycle that the comparator judges, its cut-off passed. -/
abbrev cc : CompCycle := { frame := 5, launch := 0, deadline := 200000, snap := compSnap z, cut := true }

/-- The comparator with that cycle and a sentry grid of it, of which nothing is asked. -/
abbrev cz (c : CompCycle) : State :=
  { z with ridge := 60000, comp := { cycle := some c, window := [true] },
           sentry := { last := some { frame := 5, flags := 0, void := false, at_ := 9 } } }

/-- The core of pair 2 runs. -/
abbrev lz : State := lsRegs { z with cores := [(5, { running := true })] }

/-- A debug session is open. -/
abbrev dz (s : State) : State := unlocked (wr s A.MGT_STATUS 4) 0x2DB

/-- A report of a lock-step pair. -/
abbrev rp : Report := { source := 0x0F1, status := St.LOCKSTEP_MISMATCH, detected := 4 }

/-- Key slot 3 holds an imported key. -/
abbrev sk : State := { z with keySlots := [(3, { valid := true, imported := true, model := 8 })] }

/-- A slot configuration that meets its constraints, but for SL_CTL: slot 1 of pipe 0, on stream 48 of one pixel. -/
abbrev slotWords : List (Nat × Word) :=
  [(A.ST_GEOM 1 16, 0x10001), (A.SL_CTL 0 1 + 92, 0x10001), (A.SL_CTL 0 1 + 96, 0x11), (A.SL_CTL 0 1 + 180, 0x10),
   (A.SL_CTL 0 1 + 188, 64), (A.SL_CTL 0 1 + 196, 0x10000), (A.SL_CTL 0 1 + 200, 0x10), (A.SL_CTL 0 1 + 208, 0x4005)]

/-- Update group 0 is due with some pending words; the live words and the statuses of the slots are as given. -/
abbrev dueGroup (live pend : List (Nat × Word)) : State :=
  let s : State := { z with rf := { z.rf with live := smSetAll regDefault [] live, pend := smSetAll regDefault [] pend } }
  { setGroup s 0 { armed := true, due := 5 } with ridge := 6 }

/-- Slot 1 was rejected, and the pending SL_CTL makes its configuration whole. -/
abbrev applyOk : State :=
  let s := dueGroup (slotWords ++ [(A.SL_STATUS 0 1, 2)]) (slotWords ++ [(A.SL_CTL 0 1, 0x301020)])
  { s with pegs := [(0x4005, { cfg := 0x400 })] }

/-- The pending SL_CTL enables a slot without a configuration. -/
abbrev applyBad : State := dueGroup [] [(A.SL_CTL 0 1, 0x301021)]

/-- The pending ST_CTL of stream 48 is zero. -/
abbrev applyOff : State := setStream (dueGroup [(A.ST_CTL 1 16, 1)] []) 48 { cfg := { ctl := 1 } }

/-- A data pod that waits to write two bytes at the start of DRAM. -/
abbrev dataPod : RxPod :=
  { ctl 0 0 (leBytes 8 0x1000000000 ++ leBytes 8 2 ++ [7, 8] ++ zeros 14) with
    stage := .waiting, hdr := { (ctl 0 0 []).hdr with kind := 2, length := 3 } }

/-- The same for the device with ring id 5. -/
abbrev remotePod : RxPod := { dataPod with body := leBytes 8 0x5001000000000 ++ leBytes 8 2 ++ [7, 8] ++ zeros 14 }

/-- That region enabled and still being zero-filled. -/
abbrev fillz : State := wr ez (A.ENC_CTL 3) 1

/-- An idle flit that acknowledges flit 2 and asks for a replay. -/
abbrev flitN : List Byte :=
  let h := leBytes 2 0x1000 ++ leBytes 2 2 ++ leBytes 2 7 ++ leBytes 2 1 ++ zeros 244
  h ++ leBytes 4 (crc32c h)

/-- The first data flit, with one packet and its CRC. -/
abbrev flitK (k : Packet) (crc : Nat) : List Byte :=
  let h := zeros 8 ++ padTo 224 (packetBytes k crc) ++ zeros 20
  h ++ leBytes 4 (crc32c h)

/-- A WRITE of one byte to this device, and a PEG_INC to ring id 9. -/
abbrev pkW : Packet := { pk 1 with addr := 0x1000000040, payload := [7], len := 1 }
abbrev pkF : Packet := { pk 5 with dst := 9, addr := 4, len := 1 }
theorem test_stepTakesFront :
  let s : State := { z with pending := [.lanternWordBoundary] }
  s.pending = .lanternWordBoundary :: [] := by decide +kernel

theorem test_emptyQueueTicks :
  let s : State := { z with time := { z.time with slew := -1, phase := 4999 } }
  s.pending = [] ∧ s.power ≠ .held ∧ s.time.slew < 0 ∧ 4999 ≤ s.time.phase ∧ z.time.slew = 0 ∧
    (stepped s).ridge = 0 ∧ (stepped s).time.slew = 0 := by decide +kernel

theorem test_offBlockIsInert :
  let s : State := { z with power := .asleep }
  s.power ≠ .on ∧ (Instr.clockStep ≠ .powerOnReset) ∧ (Instr.clockStep ≠ .powerGood) ∧ after .clockStep s = s := by
  decide +kernel

theorem test_stepKeepsCanonicalMemory :
  MemoryCanonical { z with mem := [(0x10000000, 1), (0x10000005, 7)] } := by decide +kernel

theorem test_fusesNeverRestored :
  let s : State := { z with fuses := { z.fuses with revoked := 1 }, pending := [.powerOnReset] }
  (stepped s).fuses.revoked = 1 ∧ (stepped s).power = .held := by decide +kernel

theorem test_execLeavesQueue :
  (after .powerOnReset { z with pending := [.clockStep] }).pending = [.clockStep] := by decide +kernel

theorem test_commandFrame :
  Part.mem ∉ mayChange .clockStep ∧ Part.pm ∈ mayChange .clockStep ∧ (after .clockStep z).mem = z.mem := by decide +kernel

theorem test_resetState :
  hasHeader 0x2D8 = true ∧ rd z (hdrAddr 0x2D8 0x008) = 0x100 ∧ rd z A.MGT_STATUS = 0 := by decide +kernel

theorem test_powerOnReset :
  let s : State := { wr z A.DET_CTL 1 with ridge := 7, fuses := { z.fuses with revoked := 2 } }
  let t : State := after .powerOnReset s
  (t.power = .held) ∧ (t.fuses = s.fuses) ∧ (t.pegs = []) ∧ (t.pods = {}) ∧ (t.keySlots = []) ∧ (t.mgt = {}) ∧ (t.sec = {}) ∧ (t.mem = []) ∧ (t.insts = []) ∧ (t.ops = []) ∧ (t.graphs = []) ∧ (t.ridge = 0) := by decide +kernel

theorem test_powerGood :
  let s : State := { wr z A.DET_CTL 1 with ridge := 7, power := .held, fuses := { z.fuses with revoked := 2 } }
  let t : State := after .powerGood s
  (s.power = .held) ∧ (t.power = .on) ∧ (t.fuses = s.fuses) ∧ (t.pegs = []) ∧ (t.pods = {}) ∧ (t.keySlots = []) ∧ (t.mgt = {}) ∧ (t.sec = {}) ∧ (t.mem = []) ∧ (t.insts = []) ∧ (t.ops = []) ∧ (t.graphs = []) ∧ (t.ridge = 0) := by decide +kernel

theorem test_resetExecute :
  let w : Nat := 4
  let s : State := { wr z A.DET_CTL 1 with ridge := 7, mgt := { z.mgt with resetAt := some 4 }, fuses := { z.fuses with revoked := 2 } }
  let t : State := after .resetExecute s
  s.power = .on ∧ (s.mgt.resetAt = some w) ∧ (w ≤ s.ridge) ∧ (t.power = .on) ∧ (t.fuses = s.fuses) ∧ (t.pegs = []) ∧ (t.pods = {}) ∧ (t.keySlots = []) ∧ (t.mgt = {}) ∧ (t.sec = {}) ∧ (t.mem = []) ∧ (t.insts = []) ∧ (t.ops = []) ∧ (t.graphs = []) ∧ (t.ridge = 0) := by decide +kernel

theorem test_pmSleep :
  let no : Nat := 1
  let p : RxPod := ctl 0xA 0x10 (leBytes 16 5)
  let s : State := withPod { z with mem := [(0x10000000, 7), (0x1000000000, 3)] } p
  let t : State := after (.pmSleep no) s
  s.power = .on ∧ (runningControl s no 0xA 0x10 = some p) ∧ (p.hdr.length = 2) ∧ (leAt p.body 8 8 = 0) ∧ (sleepRefused s no = false) ∧ (t.power = .asleep) ∧ (t.sec.wakeAt = some 5) ∧ (rdB t (A.CH_STATUS 15) 2 = true) ∧ (t.mem = [(0x1000000000, 3)]) := by decide +kernel

theorem test_h4Wake :
  let light : Bool := true
  let s : State := { wr z (A.CH_STATUS 3) 4 with power := .asleep }
  let t : State := after (.h4Wake light) s
  (s.power = .asleep) ∧ (light = true) ∧ (t.power = .on) ∧ (t.sec.ready.isSome = true) ∧ (rdB t (A.CH_STATUS 3) 2 = false) := by decide +kernel

theorem test_dramTrainingDone :
  let failed : BitVec 16 := 4
  let s : State := wr z A.FW_STATUS 3
  let t : State := after (.dramTrainingDone failed) s
  s.power = .on ∧ (s.sec.stopped = false) ∧ (fwStage s = 3 ∨ fwStage s = 4) ∧ (rdB t (A.CH_STATUS 2) 0 = false) ∧ (rdB t (A.CH_STATUS 3) 0 = true) ∧ (rdF t A.MEM_STATUS 15 0 = 65531) ∧ (fwStage t = 4) ∧ (t.sec.stopped = true) := by decide +kernel

theorem test_powerOnBistDone :
  let failed : List (BitVec 6) := []
  let s : State := wr z A.FW_STATUS 5
  let t : State := after (.powerOnBistDone failed) s
  s.power = .on ∧ (s.sec.stopped = false) ∧ (fwStage s = 5) ∧ (s.sec.configured = false) ∧ (s.sec.cfg = none) ∧ (t.sec.configured = true) := by decide +kernel

theorem test_bootComplete :
  let s : State := { wr z A.FW_STATUS 5 with sec := { z.sec with configured := true } }
  let t : State := after .bootComplete s
  s.power = .on ∧ (s.sec.stopped = false) ∧ (fwStage s = 5) ∧ (s.sec.configured = true) ∧ (fwStage t = 6) ∧ (rdB t A.PM_STATUS 8 = true) ∧ (t.lantern.booted = true) ∧ (bitN (evtFlags t 0x010) 4 = true) ∧ ((ringOn s (eventRing s) = false → t.sec.ready.isSome = true)) := by decide +kernel

theorem test_configWaitTimeout :
  let w : Nat := 5
  let s : State := { wr z A.FW_STATUS 2 with ridge := 2000000005, sec := { z.sec with cfgWait := some 5 } }
  let t : State := after .configWaitTimeout s
  s.power = .on ∧ (s.sec.cfgWait = some w) ∧ (fwStage s = 2) ∧ (w + 2000000000 ≤ s.ridge) ∧ (fwStage t = 3) ∧ (t.sec.cfgWait = none) ∧ (t.sec.xfer = none) := by decide +kernel

theorem test_imageTimeout :
  let x : Transfer := { src := 5, kind := 1, len := 8192, lastAt := 1 }
  let s : State := { z with ridge := 2000000001, sec := { z.sec with xfer := some x } }
  let t : State := after .imageTimeout s
  s.power = .on ∧ (s.sec.xfer = some x) ∧ (x.lastAt + 2000000000 ≤ s.ridge) ∧ (t.sec.xfer = none) ∧ (rdF t A.FW_STATUS 31 16 = St.IMAGE_TIMEOUT) ∧ (rdF t A.FW_STATUS 15 0 = rdF s A.FW_STATUS 15 0) := by decide +kernel

theorem test_imageBegin :
  let f : MgtFrame := mf
  let kind : BitVec 8 := 1
  let len : Word := 8192
  let u : State := mz
  let s : State := mz
  let t : State := after (.imageBegin f kind len) s
  s.power = .on ∧ (mgtTaken s f 2 (imageNeed s) = some u) ∧ (boundElsewhere u f = false) ∧ ((u.sec.stopped = true → underRom u = false)) ∧ (kindExpected u kind.toNat = true) ∧ (lengthOk kind.toNat len.toNat = true) ∧ (f.seq ≠ 0xFFFFFFFF) ∧ (t.sec.xfer = some { src := f.src.toNat, kind := kind.toNat, len := len.toNat, lastAt := u.ridge }) ∧ (t.sec.cfgWait = none) ∧ (t.mgtOut = u.mgtOut ++ [respOf f 2 0 []]) := by decide +kernel

theorem test_imageChunk :
  let f : MgtFrame := mf
  let off : Word := 0x2FFFFC0
  let data : List Byte := List.replicate 128 7
  let u : State := { mz with sec := { mz.sec with xfer := some { src := 5, kind := 1, len := 0x4000000, lastAt := 0 } } }
  let x : Transfer := { src := 5, kind := 1, len := 0x4000000, lastAt := 0 }
  let s : State := u
  let t : State := after (.imageChunk f off data) s
  s.power = .on ∧ (mgtTaken s f 3 (imageNeed s) = some u) ∧ (transferOf u f = some x) ∧ (off.toNat % 64 = 0) ∧ (1 ≤ data.length) ∧ (data.length ≤ 1472) ∧ (off.toNat + data.length ≤ x.len) ∧ (data.length % 64 = 0 ∨ off.toNat + data.length = x.len) ∧ (f.seq ≠ 0xFFFFFFFF) ∧ (memByte t (scratchBase 0 + 0x2FFFFFF) = 7) ∧ (memByte t (scratchBase 1) = 7) ∧ (memByte t (scratchBase 1 + 64) = 0) ∧ (t.mgtOut = [respOf f 3 0 []]) := by decide +kernel

theorem test_imageEnd :
  let f : MgtFrame := mf
  let fails : Bool := false
  let u : State := { mz with sec := { mz.sec with xfer := some { src := 5, kind := 1, len := 128, lastAt := 0 } } }
  let x : Transfer := { src := 5, kind := 1, len := 128, lastAt := 0 }
  let s : State := u
  let t : State := after (.imageEnd f fails) s
  s.power = .on ∧ (mgtTaken s f 4 (imageNeed s) = some u) ∧ (transferOf u f = some x) ∧ (f.seq ≠ 0xFFFFFFFF) ∧ (t.sec.xfer = none) ∧ (t.mgtOut = [respOf f 4 St.IMAGE_MALFORMED []]) ∧ (bitN (evtFlags t 0x038) 0 = true) := by decide +kernel

theorem test_transferBound :
  let x : Transfer := { src := 6, kind := 1, len := 8192, got := [(0, 64)], lastAt := 0 }
  let s : State := { mz with sec := { mz.sec with xfer := some x } }
  s.power = .on ∧ mgtTaken s mf 2 (imageNeed s) = some s ∧ mgtTaken s mf 4 (imageNeed s) = some s ∧ x.src ≠ mf.src.toNat ∧
    (after (.imageBegin mf 1 8192) s).mgtOut = [respOf mf 2 St.IMAGE_BUSY []] ∧
    (after (.imageEnd mf false) s).sec.xfer = some x ∧
    (after (.imageBegin { mf with src := 6 } 1 16384) s).sec.xfer =
      some { src := 6, kind := 1, len := 16384, got := [], lastAt := 0 } := by decide +kernel

theorem test_mgtHello :
  let f : MgtFrame := mf
  let u : State := mz
  let s : State := mz
  let t : State := after (.mgtHello f) s
  s.power = .on ∧ (mgtTaken s f 1 .open_ = some u) ∧ (t.mgtOut.length = 1) ∧ ((t.mgtOut.map (·.status)) = [0]) := by decide +kernel

theorem test_mgtStatus :
  let f : MgtFrame := mf
  let u : State := mz
  let s : State := mz
  let t : State := after (.mgtStatus f) s
  s.power = .on ∧ (mgtTaken s f 49 .open_ = some u) ∧ (t.mgtOut = u.mgtOut ++ [respOf f 0x31 0 (statusBody u)]) := by decide +kernel

theorem test_mgtStart :
  let f : MgtFrame := mf
  let slot : BitVec 8 := 0
  let privs : BitVec 8 := 1
  let nonce : List Byte := [7]
  let u : State := { mz with fuses := { mz.fuses with owners := [(0, some [1])], privs := 15 } }
  let s : State := u
  let t : State := after (.mgtStart f slot privs nonce) s
  s.power = .on ∧ (mgtTaken s f 16 .open_ = some u) ∧ (startStatus u f slot.toNat privs.toNat = 0) ∧ (t.mgt.shake.isSome = true) := by decide +kernel

theorem test_mgtGet :
  let f : MgtFrame := mf
  let obj : BitVec 8 := 2
  let off : BitVec 16 := 0
  let u : State := { mz with mgt := { mz.mgt with shake := some h0 } }
  let h : Handshake := h0
  let s : State := u
  let t : State := after (.mgtGet f obj off) s
  s.power = .on ∧ (mgtTaken s f 16 .open_ = some u) ∧ ((obj = 0 → shakeOf u f = some h)) ∧ (obj.toNat ≤ 2) ∧ (t.mgtOut.length = 1) := by decide +kernel

theorem test_mgtPutCt :
  let f : MgtFrame := mf
  let off : BitVec 16 := 1
  let data : List Byte := [3, 4]
  let u : State := { mz with mgt := { mz.mgt with shake := some h0 } }
  let h : Handshake := h0
  let s : State := u
  let t : State := after (.mgtPutCt f off data) s
  s.power = .on ∧ (mgtTaken s f 16 .open_ = some u) ∧ (shakeOf u f = some h) ∧ (data.length ≤ 1024) ∧ (off.toNat + data.length ≤ 1568) ∧ (f.seq ≠ 0xFFFFFFFF) ∧ (t.mgt.shake = some { h with ct := putFragment h.ct off.toNat data }) ∧ (t.mgtOut = u.mgtOut ++ [respOf f 0x10 0 []]) := by decide +kernel

theorem test_mgtPutKey :
  let f : MgtFrame := mf
  let off : BitVec 16 := 1
  let data : List Byte := [3, 4]
  let u : State := { mz with mgt := { mz.mgt with shake := some h0 } }
  let h : Handshake := h0
  let s : State := u
  let t : State := after (.mgtPutKey f off data) s
  s.power = .on ∧ (mgtTaken s f 16 .open_ = some u) ∧ (shakeOf u f = some h) ∧ (data.length ≤ 1024) ∧ (off.toNat + data.length ≤ 1793) ∧ (f.seq ≠ 0xFFFFFFFF) ∧ (t.mgt.shake = some { h with pk := putFragment h.pk off.toNat data }) ∧ (t.mgtOut = u.mgtOut ++ [respOf f 0x10 0 []]) := by decide +kernel

theorem test_mgtFinish :
  let f : MgtFrame := mf
  let sig : List Byte := []
  let u : State := { mz with mgt := { mz.mgt with shake := some h0 } }
  let h : Handshake := h0
  let s : State := u
  let t : State := after (.mgtFinish f sig) s
  s.power = .on ∧ (mgtTaken s f 16 .open_ = some u) ∧ (shakeOf u f = some h) ∧ (f.seq ≠ 0xFFFFFFFF) ∧ (t.mgt.shake = none) ∧ (t.mgt.session = none) ∧ (t.mgtOut = [respOf f 0x10 St.SESSION_AUTH_FAIL []]) ∧ (rd t A.SEC_AUTH_FAILS = 1) := by decide +kernel

theorem test_mgtRegRead :
  let f : MgtFrame := mfs
  let addr : BitVec 56 := 0x2A0008
  let u : State := ms
  let s : State := ms
  let t : State := after (.mgtRegRead f addr) s
  s.power = .on ∧ (mgtTaken s f 32 (.priv 1) = some u) ∧ (isLocal u addr.toNat = true) ∧ (place (addrLocal addr.toNat) = .regs) ∧ (t.mgtOut = [respOf f 0x20 0 [0, 1, 0, 0]]) := by decide +kernel

theorem test_mgtRegWrite :
  let f : MgtFrame := mfs
  let addr : BitVec 56 := 0x001018
  let v : Word := 0x12345
  let u : State := ms
  let s : State := ms
  let t : State := after (.mgtRegWrite f addr v) s
  s.power = .on ∧ (mgtTaken s f 33 (.priv 1) = some u) ∧ (isLocal u addr.toNat = true) ∧ (place (addrLocal addr.toNat) = .regs) ∧ (f.seq ≠ 0xFFFFFFFF) ∧ (t.mgtOut = [respOf f 0x21 0 []]) ∧ (rd t 0x001018 = 0x2345) := by decide +kernel

theorem test_mgtMemRead :
  let f : MgtFrame := mfs
  let addr : BitVec 56 := 0x1000000000
  let len : BitVec 11 := 4
  let u : State := ms
  let s : State := ms
  let t : State := after (.mgtMemRead f addr len) s
  s.power = .on ∧ (mgtWaits s addr.toNat len.toNat = false) ∧ (mgtTaken s f 34 (.priv 2) = some u) ∧ (isLocal u addr.toNat = true) ∧ ((busRead u .management (addrLocal addr.toNat) len.toNat).1 ≠ St.ADDR_UNREACHABLE) ∧ (t.mgtOut = u.mgtOut ++ [respOf f 0x22 (busRead u .management (addrLocal addr.toNat) len.toNat).1 (if (busRead u .management (addrLocal addr.toNat) len.toNat).1 = 0 then (busRead u .management (addrLocal addr.toNat) len.toNat).2.1 else [])]) := by decide +kernel

theorem test_mgtMemWrite :
  let f : MgtFrame := mfs
  let addr : BitVec 56 := 0x1000000000
  let bytes : List Byte := [1, 2, 3, 4]
  let u : State := ms
  let s : State := ms
  let t : State := after (.mgtMemWrite f addr bytes) s
  s.power = .on ∧ (mgtWaits s addr.toNat bytes.length = false) ∧ (mgtTaken s f 35 (.priv 2) = some u) ∧ (isLocal u addr.toNat = true) ∧ ((busWrite u .management (addrLocal addr.toNat) bytes).1 ≠ St.ADDR_UNREACHABLE) ∧ (t.mem = [(0x1000000000, 1), (0x1000000001, 2), (0x1000000002, 3), (0x1000000003, 4)]) := by decide +kernel

theorem test_mgtReset :
  let f : MgtFrame := mfs
  let u : State := ms
  let s : State := ms
  let t : State := after (.mgtReset f) s
  s.power = .on ∧ (mgtTaken s f 48 (.priv 3) = some u) ∧ (t.mgt.resetAt = some (u.ridge + 1000000)) ∧ (t.mgtOut = u.mgtOut ++ [respOf f 0x30 0 []]) := by decide +kernel

theorem test_sessionClose :
  let f : MgtFrame := mfs
  let u : State := ms
  let s : State := ms
  let t : State := after (.sessionClose f) s
  s.power = .on ∧ (mgtTaken s f 17 .session = some u) ∧ (t.mgt.session = none) ∧ (t.mgt.shake = none) ∧ (rdB t A.MGT_STATUS 1 = false) ∧ (t.mgtOut = u.mgtOut ++ [respOf f 0x11 0 []]) := by decide +kernel

theorem test_sessionIdleTimeout :
  let x : Session := { id := 9, src := 5, slot := 0, privs := 15, lastAt := 0 }
  let s : State := { ms with ridge := 60000000000 }
  let t : State := after .sessionIdleTimeout s
  s.power = .on ∧ (s.mgt.session = some x) ∧ (x.lastAt + 60000000000 ≤ s.ridge) ∧ (t.mgt.session = none) ∧ (t.mgt.shake = none) ∧ (rdF t A.MGT_STATUS 2 1 = 0) ∧ (rdB t A.SEC_STATUS 2 = false) ∧ (bitN (evtFlags t 0x030) 3 = true) := by decide +kernel

theorem test_mgtLinkUp :
  let s : State := z
  let t : State := after .mgtLinkUp s
  s.power = .on ∧ (laneFit s 46 = true) ∧ (rdB t A.MGT_STATUS 0 = true) ∧ (rdF t A.MGT_STATUS 2 1 = rdF s A.MGT_STATUS 2 1) := by decide +kernel

theorem test_mgtLinkDown :
  let s : State := mz
  let t : State := after .mgtLinkDown s
  s.power = .on ∧ (rdB s A.MGT_STATUS 0 = true) ∧ (rdB t A.MGT_STATUS 0 = false) ∧ (rdF t A.MGT_STATUS 2 1 = rdF s A.MGT_STATUS 2 1) ∧ (bitN (evtFlags t 0x2A0) 0 = true) := by decide +kernel

theorem test_railWindowFault :
  let rail : Fin 6 := 0
  let above : Bool := true
  let s : State := z
  let t : State := after (.railWindowFault rail above) s
  s.power = .on ∧ (rd t (A.RAIL_FAULTS 0) = 1) ∧ (bitN (evtFlags t 0x011) 0 = true) ∧ (levelActive t 0x151 = true) ∧ (t.fc.inbox.length = 1) := by decide +kernel

theorem test_clockLost :
  let stopped : Bool := true
  let s : State := wr (wr z A.CLK_MON 7) A.LANTERN_STATUS 3
  let t : State := after (.clockLost false stopped) s
  s.power = .on ∧ (rd t A.CLK_MON = 6) ∧ (rdF t A.LANTERN_STATUS 1 0 = 0) ∧ (t.lantern.clockLost = true) ∧ (t.fc.inbox.length = 1) := by decide +kernel

theorem test_clockLostSnt :
  let stopped : Bool := false
  let s : State := wr z A.CLK_MON 7
  let t : State := after (.clockLost true stopped) s
  s.power = .on ∧ (rdB t A.CLK_MON 1 = false) ∧ (bitN (evtFlags t 0x020) 0 = true) ∧ (t.lantern.clockLost = s.lantern.clockLost) := by decide +kernel

theorem test_pllUnlocked :
  let d : Fin 26 := 7
  let s : State := wr z (A.CLK_STATUS 6) 0x18
  let t : State := after (.pllUnlocked d) s
  s.power = .on ∧ (pllDomain d.val = true) ∧ (rdF t A.CLK_MON 15 8 = d.val) ∧ (rdB t (A.CLK_STATUS (d.val - 1)) 4 = false) ∧ (bitN (evtFlags t 0x020) 1 = true) ∧ (levelActive t 0x15A = true) := by decide +kernel

theorem test_aonFault :
  let s : State := wr z A.CLK_MON 7
  let t : State := after .aonFault s
  s.power = .on ∧ (rdB t A.CLK_MON 2 = false) ∧ (bitN (evtFlags t 0x020) 2 = true) ∧ (t.fc.inbox = s.fc.inbox) := by decide +kernel

theorem test_pmBudgetInterval :
  let m : PowerSample := { pkg := 90, volts := .replicate 6 750, amps := .replicate 6 1000, basePower := 90000, baseCurrent := 60000, levels := [] }
  let s : State := { z with cores := [(1, { running := true })] }
  let t : State := after (.pmBudgetInterval m) s
  s.power = .on ∧ (pmRuns s = true) ∧ (rd t A.PM_POWER = 90) ∧ (rd t (A.RAIL_V 5) = 750) ∧ (t.pm.capS = 16) ∧ (t.pm.capAQ = 16) ∧ (rdF t A.PM_STATUS 1 0 = 0) := by decide +kernel

theorem test_governorSample :
  let ma : BitVec 20 := 300000
  let s : State := z
  let t : State := after (.governorSample ma) s
  s.power = .on ∧ (rdB t A.PM_STATUS 3 = true) ∧ (rdF t (A.RAIL_I_MAX 0) 19 0 = 300000) ∧ (rd t A.PM_GOV_TRIPS = 1) := by decide +kernel

theorem test_pmEmergencyCap :
  let agent : Agent := .host
  let v : Word := 5
  let s : State := z
  let t : State := after (.pmEmergencyCap agent v) s
  s.power = .on ∧ (takesEffectNow s agent A.PM_EMERGENCY_CAP v.toNat = true) ∧ (rdF t A.PM_EMERGENCY_CAP 8 0 = 100) ∧ (rdB t A.PM_STATUS 2 = true) := by decide +kernel

theorem test_dramHotReduction :
  let s : State := wr { z with cores := [(1, { running := true })] } A.MEM_TEMP_MAX 190
  let t : State := after .dramHotReduction s
  s.power = .on ∧ (pmRuns s = true) ∧ (dramHotAt s ≤ dramMax s) ∧ (s.pm.limitAt = none) ∧ (t.pm.work = some 230) ∧ (rdB t A.PM_STATUS 4 = true) ∧ (rd t A.PM_STATUS = 16) := by decide +kernel

theorem test_dieTempSample :
  let temps : Vector (BitVec 16) 16 := ⟨#[1, 2, 240, 4, 5, 6, 240, 8, 0xFFFF, 1, 1, 1, 1, 1, 1, 1], rfl⟩
  let s : State := z
  let t : State := after (.dieTempSample temps) s
  s.power = .on ∧ (rd t A.DIE_TEMP = 2 * 65536 + 240) ∧ (bitN (evtFlags t 0x011) 1 = true) ∧ (levelActive t 0x15B = true) := by decide +kernel

theorem test_clockStep :
  let s : State := wr { z with cores := [(1, { running := true })] } A.DIE_TEMP 220
  let t : State := after .clockStep s
  s.power = .on ∧ (pmRuns s = true) ∧ ((rdF s A.DIE_TEMP_HOT 15 0 : Int) ≤ sgn 16 (rdF s A.DIE_TEMP 15 0)) ∧ (s.pm.clockDue.getD (rdF s A.PM_STATUS 7 5) < 4) ∧ (s.pm.clockAt = none) ∧ (rdF t A.PM_STATUS 7 5 = 1) ∧ (rd t (A.CLK_FREQ 5) = 612500) ∧ (t.pm.clockAt = some 0) := by decide +kernel

theorem test_holdLevelEntry :
  let d : Fin 26 := 6
  let idle : BitVec 64 := 10000
  let s : State := z
  let t : State := after (.holdLevelEntry d idle) s
  s.power = .on ∧ (d.val ≠ 0) ∧ (holdLevel s d.val + 1 ≤ 3) ∧ (holdLevel s d.val + 1 ≤ holdLimit s d.val) ∧ (idleTicks (holdLevel s d.val + 1) ≤ idle.toNat) ∧ (domainBusy s d.val = false) ∧ (holdLevel t 6 = 1) := by decide +kernel

theorem test_domainWake :
  let d : Fin 26 := 6
  let s : State := { wr z (A.CLK_STATUS 5) 1 with rf := { (wr z (A.CLK_STATUS 5) 1).rf with wakes := [6] } }
  let t : State := after (.domainWake d) s
  s.power = .on ∧ (d.val ≠ 0) ∧ (holdLevel s d.val ≠ 0) ∧ (s.rf.wakes.contains d.val = true) ∧ (holdLevel t 6 = 0) ∧ (rd t (A.CLK_WAKES 5) = 1) ∧ (t.rf.wakes = []) := by decide +kernel

theorem test_pmWake :
  let agent : Agent := .host
  let c : Fin 3 := 2
  let v : Word := 77
  let s : State := z
  let t : State := after (.pmWake agent c v) s
  s.power = .on ∧ (takesEffect s agent (wakeAddr c.val) v.toNat = true) ∧ (rdF t (wakeAddr c.val) 17 0 = (if fldN v.toNat 17 0 ≤ 250000 then fldN v.toNat 17 0 else rdF s (wakeAddr c.val) 17 0)) := by decide +kernel

theorem test_registerWrite :
  let agent : Agent := .host
  let p : Nat := 0x001
  let v : Nat := 0x12345
  let s : State := z
  let t : State := after (.registerWrite agent (BitVec.ofNat 24 (hdrAddr p 0x018)) (leBytes 4 v)) s
  s.power = .on ∧ (hasHeader p = true) ∧ (isPosted p = false) ∧ (takesPage s agent p = true) ∧ (rd t (hdrAddr p 0x018) = v % 65536) := by decide +kernel

theorem test_registerWrite_2 :
  let agent : Agent := .management
  let addr : BitVec 24 := 0x011018
  let bytes : List Byte := [1, 2]
  let s : State := z
  let t : State := after (.registerWrite agent addr bytes) s
  s.power = .on ∧ (hasHeader (addr.toNat / 0x1000) = true) ∧ ((agent = .host → hostUnauth s = false)) ∧ (addr.toNat % 4 ≠ 0 ∨ (bytes.length ≠ 4 ∧ (bytes.length ≠ 8 ∨ agent ≠ .host))) ∧ (bitN (evtFlags t (addr.toNat / 0x1000)) 15 = true) := by decide +kernel

theorem test_barredWrite :
  let agent : Agent := .management
  let o : Nat := 0x100
  let v : Nat := 5
  let s : State := z
  let t : State := after (.registerWrite agent (BitVec.ofNat 24 (0x261000 + o)) (leBytes 4 v)) s
  s.power = .on ∧ (agent ≠ .firmware 0) ∧ (agent ≠ .host ∨ hostUnauth s = false) ∧ (o < 0x1000) ∧ (o % 4 = 0) ∧ (bitN (evtFlags t 0x261) 14 = true) ∧ (t.rf.unlocks = s.rf.unlocks) ∧ (postedOf t 0x261 = postedOf s 0x261) := by decide +kernel

theorem test_postedWriteApply :
  let page : BitVec 12 := 0x104
  let w : PostedWrite := { agent := .host, addr := 0x104018, value := 7 }
  let rest : List PostedWrite := []
  let s : State := setPosted z 0x104 [w]
  let t : State := after (.postedWriteApply page) s
  s.power = .on ∧ (postedOf s page.toNat = w :: rest) ∧ (holdLevel s (pageDomain page.toNat) = 0) ∧ (rd t 0x104018 = 7) ∧ (postedOf t 0x104 = []) := by decide +kernel

theorem test_evtAck :
  let agent : Agent := .host
  let page : BitVec 12 := 0x010
  let mask : BitVec 16 := 2
  let seq : BitVec 8 := 5
  let s : State := wr z 0x010010 0x50007
  let t : State := after (.evtAck agent page mask seq) s
  s.power = .on ∧ (hasHeader page.toNat = true) ∧ (takesTurn s agent page.toNat (hdrAddr page.toNat 0x014) = true) ∧ (rd t 0x010010 = 0x50005) ∧ (rd t 0x010014 = 0x50000) := by decide +kernel

theorem test_mbxSelCapture :
  let agent : Agent := .host
  let page : BitVec 12 := 0x003
  let sel : BitVec 8 := 2
  let s : State := { wr z 0x003024 0x703 with rf := { (wr z 0x003024 0x703).rf with captures := [(3, 1)] } }
  let t : State := after (.mbxSelCapture agent page sel) s
  s.power = .on ∧ (hasHeader page.toNat = true) ∧ (takesTurn s agent page.toNat (hdrAddr page.toNat 0x020) = true) ∧ (t.rf.captures = [(3, 2)]) ∧ (rd t 0x003024 = 0x700) ∧ (rd t 0x003020 = 2) := by decide +kernel

theorem test_mbxSelCancel :
  let agent : Agent := .host
  let page : BitVec 12 := 0x003
  let s : State := { wr z 0x003024 0x703 with rf := { (wr z 0x003024 0x703).rf with captures := [(3, 1)] } }
  let t : State := after (.mbxSelCancel agent page) s
  s.power = .on ∧ (hasHeader page.toNat = true) ∧ (takesTurn s agent page.toNat (hdrAddr page.toNat 0x020) = true) ∧ (t.rf.captures = []) ∧ (rd t 0x003024 = 0x700) := by decide +kernel

theorem test_mbxCaptureDone :
  let page : BitVec 12 := 3
  let sel : Nat := 1
  let r : Option (List Nat × State) := some ([7, 0], { z with ridge := 7 })
  let s : State := { z with ridge := 7, rf := { z.rf with captures := [(3, 1)] } }
  let t : State := after (.mbxCaptureDone page) s
  s.power = .on ∧ (s.rf.captures.find? (fun c => c.1 == page.toNat) = some (page.toNat, sel)) ∧ (captureWords { s with rf := { s.rf with captures := s.rf.captures.filter (fun c => c.1 != page.toNat) } } page.toNat sel = r) ∧ (rd t 0x003028 = 7) ∧ (rd t 0x003024 = 0x101) ∧ (t.rf.captures = []) := by decide +kernel

theorem test_key :
  let agent : Agent := .host
  let page : BitVec 12 := 0x002
  let v : Word := 0x00027E57
  let s : State := z
  let t : State := after (.key agent page v) s
  s.power = .on ∧ (hasHeader page.toNat = true) ∧ (locked s page.toNat = false) ∧ (multiDevice s = false) ∧ (takesPage s agent page.toNat = true) ∧ (fldN v.toNat 15 0 = 0x7E57) ∧ (fldN v.toNat 27 16 = page.toNat) ∧ (unlockArmed t 2 .host = true) ∧ (t.rf.unlocks.length = 1) := by decide +kernel

theorem test_unlockLapse :
  let agent : Agent := .host
  let page : BitVec 12 := 2
  let s : State := { z with ridge := 9, rf := { z.rf with unlocks := [{ page := 2, agent := .host, lapse := 9 }, { page := 2, agent := .host, lapse := 10 }] } }
  let t : State := after (.unlockLapse agent page) s
  s.power = .on ∧ (t.rf.unlocks.length = 1) := by decide +kernel

theorem test_lock :
  let agent : Agent := .host
  let page : BitVec 12 := 2
  let bit : Bool := true
  let s : State := z
  let t : State := after (.lock agent page bit) s
  s.power = .on ∧ (hasHeader page.toNat = true) ∧ (takesPage s agent page.toNat = true) ∧ ((bit = true → locked t page.toNat = true)) ∧ ((bit = false → locked t page.toNat = locked s page.toNat)) := by decide +kernel

theorem test_updateStrobe :
  let agent : Agent := .host
  let mask : BitVec 16 := 9
  let s : State := setGroup (wrShadow z 0x200008 0) 3 { armed := true }
  let t : State := after (.updateStrobe agent mask) s
  s.power = .on ∧ (agent = .host → hostUnauth s = false) ∧ ((groupOf t 0).armed = true) ∧ ((groupOf t 3).due = 1000) ∧ (rd t A.UPDATE_PENDING = 9) ∧ (bitN (evtFlags t 1) 1 = true) := by decide +kernel

theorem test_updateGroupApply :
  let g : Fin 16 := 3
  let s : State := { setGroup (wrF z (hdrAddr 0x200 0x008) 3 0 3) 3 { armed := true, due := 5 } with ridge := 6 }
  let t : State := after (.updateGroupApply g) s
  s.power = .on ∧ ((groupOf s g.val).armed = true) ∧ ((groupOf s g.val).boundary = none) ∧ ((groupOf s g.val).due ≤ s.ridge) ∧ (appliesPlainly s g.val = true) ∧ ((groupOf t 3).armed = false) ∧ ((groupOf t 3).lastT = 5) ∧ ((groupOf t 3).applied = 1) ∧ (rd t A.UPDATE_PENDING = 0) := by decide +kernel

theorem test_applySlot :
  let g : Fin 16 := 0
  let q : Fin 16 := 0
  let i : Fin 4 := 1
  let s : State := applyOk
  let t : State := after (.updateGroupApply g) s
  s.power = .on ∧ ((groupOf s g.val).armed = true) ∧ ((groupOf s g.val).boundary = none) ∧ ((groupOf s g.val).due ≤ s.ridge) ∧ (∀ a ∈ changedAddrs s (applyGroup s g.val (groupOf s g.val).due), unitActs a = true → a ∈ slotOwn q.val i.val) ∧ (∃ a ∈ changedAddrs s (applyGroup s g.val (groupOf s g.val).due), a ∈ slotOwn q.val i.val) ∧ (∀ k < 64, rdB s (A.SL_STATUS (k / 4) (k % 4)) 1 = true → pageGroup s (0x081 + 2 * (k / 4)) = g.val → k = 4 * q.val + i.val) ∧ (slotConfigOk (applyGroup s g.val (groupOf s g.val).due) (slotLive (applyGroup s g.val (groupOf s g.val).due) q.val i.val) = true) ∧ (rdB s (A.SL_STATUS 0 1) 1 = true) ∧ (rdB t (A.SL_STATUS 0 1) 1 = false) := by decide +kernel

theorem test_applySlotBad :
  let g : Fin 16 := 0
  let q : Fin 16 := 0
  let i : Fin 4 := 1
  let s : State := applyBad
  let t : State := after (.updateGroupApply g) s
  s.power = .on ∧ ((groupOf s g.val).armed = true) ∧ ((groupOf s g.val).boundary = none) ∧ ((groupOf s g.val).due ≤ s.ridge) ∧ (∀ a ∈ changedAddrs s (applyGroup s g.val (groupOf s g.val).due), unitActs a = true → a ∈ slotOwn q.val i.val) ∧ (∃ a ∈ changedAddrs s (applyGroup s g.val (groupOf s g.val).due), a ∈ slotOwn q.val i.val) ∧ (∀ k < 64, rdB s (A.SL_STATUS (k / 4) (k % 4)) 1 = true → pageGroup s (0x081 + 2 * (k / 4)) = g.val → k = 4 * q.val + i.val) ∧ (slotConfigOk (applyGroup s g.val (groupOf s g.val).due) (slotLive (applyGroup s g.val (groupOf s g.val).due) q.val i.val) = false) ∧ (rdB t (A.SL_STATUS 0 1) 1 = true) ∧ (bitN (evtFlags t 0x080) 4 = true) ∧ (rd t (A.SL_CTL 0 1) = 0) := by decide +kernel

theorem test_applyStreamOff :
  let g : Fin 16 := 0
  let st : Fin 512 := 48
  let s : State := applyOff
  let t : State := after (.updateGroupApply g) s
  s.power = .on ∧ ((groupOf s g.val).armed = true) ∧ ((groupOf s g.val).boundary = none) ∧ ((groupOf s g.val).due ≤ s.ridge) ∧ ((∀ a ∈ changedAddrs s (applyGroup s g.val (groupOf s g.val).due), unitActs a = true → a = A.ST_CTL (st.val / 32) (st.val % 32))) ∧ (A.ST_CTL (st.val / 32) (st.val % 32) ∈ changedAddrs s (applyGroup s g.val (groupOf s g.val).due)) ∧ ((streamOf s st.val).cfg.on = true) ∧ ((streamCfg (rd (applyGroup s g.val (groupOf s g.val).due)) st.val).on = false) ∧ (∀ k < 64, rdB s (A.SL_STATUS (k / 4) (k % 4)) 1 = true → pageGroup s (0x081 + 2 * (k / 4)) ≠ g.val) ∧ ((streamOf t 48).cfg.on = false) ∧ (rd t (A.ST_CTL 1 16) = 0) ∧ ((groupOf t 0).applied = 1) := by decide +kernel

theorem test_fullQueue :
  let agent : Agent := .host
  let addr : BitVec 24 := 0x0E2104
  let bytes : List Byte := [1, 0, 0, 0]
  let row : RegRow := ((findReg 0x0E2104).map (·.1)).getD ⟨0, [], .ro, .const 0, 0, [], .no⟩
  let js : List Nat := []
  let s : State := setPosted z 0x0E2 (List.replicate 16 { agent := .host, addr := 0x0E2104, value := 0 })
  let t : State := after (.registerWrite agent addr bytes) s
  s.power = .on ∧ (hasHeader (addr.toNat / 0x1000) = true) ∧ (isPosted (addr.toNat / 0x1000) = true) ∧ (16 ≤ (postedOf s (addr.toNat / 0x1000)).length) ∧ ((agent = .host → hostUnauth s = false)) ∧ (addr.toNat % 4 = 0) ∧ (bytes.length = 4) ∧ (0x100 ≤ addr.toNat % 0x1000) ∧ (findReg addr.toNat = some (row, js)) ∧ (row.acc ≠ .rws) ∧ (row.acc ≠ .rwi) ∧ ((admitWrite s agent addr.toNat (leNat bytes)).1 = true) ∧ (postedOf t (addr.toNat / 0x1000) = postedOf s (addr.toNat / 0x1000)) ∧ (rdB t (hdrAddr (addr.toNat / 0x1000) 0x00C) 1 = true) ∧ (bitN (evtFlags t (addr.toNat / 0x1000)) 13 = true) := by decide +kernel

theorem test_fullQueue_2 :
  let agent : Agent := .host
  let p : Nat := 0x104
  let o : Nat := 0x018
  let v : Nat := 3
  let s : State := setPosted z 0x104 (List.replicate 16 { agent := .host, addr := 0x104018, value := 0 })
  let t : State := after (.registerWrite agent (BitVec.ofNat 24 (hdrAddr p o)) (leBytes 4 v)) s
  s.power = .on ∧ (hasHeader p = true) ∧ (isPosted p = true) ∧ (16 ≤ (postedOf s p).length) ∧ (takesPage s agent p = true) ∧ (o = 0x014 ∨ o = 0x018 ∨ o = 0x020) ∧ (postedOf t p = postedOf s p) ∧ (rdB t (hdrAddr p 0x00C) 1 = true) ∧ (bitN (evtFlags t p) 13 = true) := by decide +kernel

theorem test_guardedWithoutUnlock :
  let s : State := { z with rf := { z.rf with unlocks := [{ page := 2, agent := .management, lapse := 9 }] } }
  hasHeader 2 = true ∧ guardedRwi A.FC_KILL = true ∧ hasHeader (A.FC_KILL / 0x1000) = true ∧
    unlockArmed s (A.FC_KILL / 0x1000) .host = false ∧ (findReg A.FC_KILL).isSome = true ∧
    bitN (evtFlags (after (.registerWrite .host (BitVec.ofNat 24 A.FC_KILL) [1, 0, 0, 0]) s) (A.FC_KILL / 0x1000)) 14 = true ∧
    bitN (evtFlags (after (.key .host 2 0x7E57) s) 2) 14 = true ∧ (after (.key .host 2 0x7E57) s).rf.unlocks.length = 1 := by
  decide +kernel

theorem test_detCtl :
  let agent : Agent := .host
  let v : Word := 1
  let s : State := { z with rf := { z.rf with unlocks := [{ page := 2, agent := .host, lapse := 9 }] } }
  let t : State := after (.detCtl agent v) s
  s.power = .on ∧ (takesEffect s agent A.DET_CTL v.toNat = true) ∧ (bitN v.toNat 0 ≠ strict s) ∧ (strict t = true) ∧ (rdB t A.DET_STATUS 0 = true) := by decide +kernel

theorem test_detCtlBusy :
  let agent : Agent := .host
  let v : Word := 1
  let s : State := let s0 := wr z (A.FG_CTL 3) 1
    { s0 with rf := { s0.rf with unlocks := [{ page := 2, agent := .host, lapse := 9 }] } }
  let t : State := after (.detCtl agent v) s
  s.power = .on ∧ (takesEffect s agent A.DET_CTL v.toNat = true) ∧ (bitN v.toNat 0 ≠ strict s) ∧ (fgOn s 3 = true) ∧ (strict s = false) ∧ (strict t = false) ∧ (rdB t A.DET_STATUS 1 = true) ∧ (bitN (evtFlags t 2) 0 = true) := by decide +kernel

theorem test_sourceClassRange :
  let a := A.FC_SRC_CFG 0x14A
  let w (v : Word) : PostedWrite := { agent := .host, addr := a, value := v }
  let s (v : Word) : State := setPosted z 0x2C1 [w v]
  (sourceInfo 0x14A).map (fun x => (x.floor, x.ceiling, x.fixed)) = some (3, 5, false) ∧
    holdLevel (s 5) (pageDomain 0x2C1) = 0 ∧ rdF (s 5) a 2 0 = 3 ∧ rdF (after (.postedWriteApply 0x2C1) (s 5)) a 2 0 = 5 ∧
    rdF (after (.postedWriteApply 0x2C1) (s 2)) a 2 0 = 3 ∧
    bitN (evtFlags (after (.postedWriteApply 0x2C1) (s 2)) 0x2C0) 6 = true := by decide +kernel

theorem test_podPortWrite :
  let off : BitVec 20 := 0
  let bytes : List Byte := [1, 2, 3]
  let s : State := wr z A.FW_STATUS 6
  let t : State := after (.podPortWrite off bytes) s
  s.power = .on ∧ (rdF s A.FW_STATUS 3 0 = 6) ∧ (streamIsLost s = false) ∧ (off.toNat = rdF s A.POD_STREAM_POS 19 0) ∧ (rd t A.POD_STREAM_POS = (rd s A.POD_STREAM_POS + bytes.length) % 4294967296) ∧ (t.pods.stream = s.pods.stream ++ bytes.drop s.pods.skip) ∧ (t.pods.skip = s.pods.skip - bytes.length) ∧ (t.pods.rx = s.pods.rx) := by decide +kernel

theorem test_podPortWriteLost :
  let off : BitVec 20 := 8
  let bytes : List Byte := [1, 2, 3]
  let s : State := wr z A.FW_STATUS 6
  let t : State := after (.podPortWrite off bytes) s
  s.power = .on ∧ (rdF s A.FW_STATUS 3 0 = 6) ∧ (streamIsLost s = false) ∧ (off.toNat ≠ rdF s A.POD_STREAM_POS 19 0) ∧ (streamIsLost t = true) ∧ (t.pods.stream = []) ∧ (t.pods.rx = s.pods.rx) ∧ (rd t A.POD_STREAM_POS = rd s A.POD_STREAM_POS) ∧ (rdF t A.POD_STATE 31 16 = St.STREAM_POSITION_INVALID) ∧ (bitN (evtFlags t 0x0E1) 1 = true) := by decide +kernel

theorem test_podPortWriteIgnored :
  let off : BitVec 20 := 0
  let bytes : List Byte := [1]
  let s : State := z
  let t : State := after (.podPortWrite off bytes) s
  s.power = .on ∧ (rdF s A.FW_STATUS 3 0 ≠ 6 ∨ streamIsLost s = true) ∧ (t.pods = s.pods) := by decide +kernel

theorem test_podReceive :
  let via : Fin 4 := 0
  let rrLost : Bool := false
  let h : PodHeader := parseHeader closeBytes
  let b : List Byte := closeBytes
  let p : RxPod := { no := 0, hdr := parseHeader closeBytes, body := zeros 16, via := 0, arrived := 0 }
  let s : State := { (wr z A.CLS_CTL 7) with pods := { z.pods with stream := closeBytes } }
  let t : State := after (.podReceive via rrLost) s
  s.power = .on ∧ (via = 0) ∧ (wholePod s h b = true) ∧ (replaying s = false) ∧ ((rrMode s = 1 → rrLost = true ∨ s.rr.frozen = true)) ∧ (newToOrigin s h = true) ∧ (p = arrivedPod s 0 h b) ∧ (ownRing s (h.target / 256) = true) ∧ (arrivalStatus s p = 0) ∧ (t.pods.rx = [p]) ∧ (t.pods.stream = []) ∧ (rd t A.POD_ACCEPT_COUNT = 1) ∧ (t.pods.windows.map (fun w => (w.origin, w.head, w.marks.map (·.state))) = [(7, 9, [.queued])]) := by decide +kernel

theorem test_podRejected :
  let via : Fin 4 := 0
  let rrLost : Bool := false
  let h : PodHeader := parseHeader closeBytes
  let b : List Byte := closeBytes
  let s : State := { wr z A.CLS_CTL 0 with pods := { z.pods with stream := closeBytes } }
  let t : State := after (.podReceive via rrLost) s
  s.power = .on ∧ (via = 0) ∧ (wholePod s h b = true) ∧ (replaying s = false) ∧ ((rrMode s = 1 → rrLost = true ∨ s.rr.frozen = true)) ∧ (newToOrigin s h = true) ∧ (arrivalStatus s (arrivedPod s 0 h b) ≠ 0) ∧ (t.pods.rx = []) ∧ (t.pods.stream = []) ∧ (rd t A.POD_REJECT_COUNT = 1) ∧ (t.pods.windows.map (fun w => w.marks.map (·.state)) = [[.rejected St.CLASS_UNAVAILABLE]]) := by decide +kernel

theorem test_podDuplicate :
  let via : Fin 4 := 0
  let rrLost : Bool := false
  let h : PodHeader := parseHeader closeBytes
  let b : List Byte := closeBytes
  let w : Window := { origin := 7, head := 10, marks := [{ seq := 9, state := .running }] }
  let m : SeqRec := { seq := 9, state := .running }
  let s : State := { z with pods := { z.pods with stream := closeBytes, windows := [w] } }
  let t : State := after (.podReceive via rrLost) s
  s.power = .on ∧ (via = 0) ∧ (wholePod s h b = true) ∧ (replaying s = false) ∧ ((rrMode s = 1 → rrLost = true ∨ s.rr.frozen = true)) ∧ (windowOf s h.origin = some w) ∧ (seqDist h.sequence w.head ≤ 0) ∧ (inWindow w.head h.sequence = true) ∧ (seqRec w h.sequence = some m) ∧ (t.pods.rx = s.pods.rx) ∧ (t.pods.stream = s.pods.stream.drop (32 * h.length)) ∧ (rd t A.DUP_COUNT = min (rd s A.DUP_COUNT + 1) 4294967295) ∧ (bitN (evtFlags t 0x0E2) 0 = true) := by decide +kernel

theorem test_podBadCrc :
  let via : Fin 4 := 0
  let rrLost : Bool := false
  let h : PodHeader := parseHeader closeBytes
  let s : State := { z with pods := { z.pods with stream := closeBytes.take 60 ++ zeros 4 } }
  let t : State := after (.podReceive via rrLost) s
  s.power = .on ∧ (via = 0) ∧ (streamIsLost s = false) ∧ (h = parseHeader s.pods.stream) ∧ (headerStatus h = 0) ∧ (32 * h.length ≤ s.pods.stream.length) ∧ (32 * h.length ≤ podCredit s) ∧ (crc32c (s.pods.stream.take (32 * h.length - 4)) ≠ leAt s.pods.stream (32 * h.length - 4) 4) ∧ (streamIsLost t = true) ∧ (rdF t A.POD_STATE 31 16 = St.CRC_ERROR) ∧ (t.pods.stream = []) ∧ (t.pods.rx = s.pods.rx) ∧ (rd t A.POD_REJECT_COUNT = min (rd s A.POD_REJECT_COUNT + 1) 4294967295) := by decide +kernel

theorem test_podOverrun :
  let via : Fin 4 := 0
  let rrLost : Bool := false
  let h : PodHeader := parseHeader closeBytes
  let s : State := { wr z A.POD_RING_CFG 0 with pods := { z.pods with stream := closeBytes, rx := [{ ctl 5 0x10 [] with hdr := { (ctl 5 0x10 []).hdr with length := 131071 } }] } }
  let t : State := after (.podReceive via rrLost) s
  s.power = .on ∧ (via = 0) ∧ (streamIsLost s = false) ∧ (h = parseHeader s.pods.stream) ∧ (32 ≤ s.pods.stream.length) ∧ (headerStatus h = 0) ∧ (podCredit s < 32 * h.length) ∧ (streamIsLost t = true) ∧ (rdF t A.POD_STATE 31 16 = St.POD_OVERRUN) ∧ (t.pods.stream = []) ∧ (t.pods.rx = s.pods.rx) := by decide +kernel

theorem test_podGuyline :
  let via : Fin 4 := 2
  let rrLost : Bool := false
  let h : PodHeader := parseHeader closeBytes
  let b : List Byte := closeBytes
  let p : RxPod := { no := 0, hdr := parseHeader closeBytes, body := zeros 16, via := 2, arrived := 0 }
  let s : State := { (wr z A.CLS_CTL 7) with podsIn := [(1, [3]), (2, closeBytes)] }
  let t : State := after (.podReceive via rrLost) s
  s.power = .on ∧ (via ≠ 0) ∧ (s.podsIn.find? (fun x => x.1 == via.val) = some (via.val, b)) ∧ (h = parseHeader b) ∧ (headerStatus h = 0) ∧ (b.length = 32 * h.length) ∧ (32 * h.length ≤ creditNow s) ∧ (trailerStatus h b = 0) ∧ (replaying s = false) ∧ ((rrMode s = 1 → rrLost = true ∨ s.rr.frozen = true)) ∧ (newToOrigin s h = true) ∧ (p = arrivedPod s via.val h b) ∧ (ownRing s (h.target / 256) = true) ∧ (arrivalStatus s p = 0) ∧ (t.pods.rx = [p]) ∧ (t.podsIn = [(1, [3])]) ∧ (rd t A.POD_ACCEPT_COUNT = 1) := by decide +kernel

theorem test_podResync :
  let agent : Agent := .host
  let v : Word := 64
  let s : State := wr z A.POD_STATE 1
  let t : State := after (.podResync agent v) s
  s.power = .on ∧ (takesEffect s agent A.POD_RESYNC v.toNat = true) ∧ (streamIsLost s = true) ∧ (v.toNat % 32 = 0) ∧ (rd t A.POD_STREAM_POS = v.toNat) ∧ (t.pods.stream = []) ∧ (t.pods.skip = 0) ∧ (streamIsLost t = false) := by decide +kernel

theorem test_podResyncIgnored :
  let agent : Agent := .host
  let v : Word := 65
  let s : State := wr z A.POD_STATE 1
  let t : State := after (.podResync agent v) s
  s.power = .on ∧ (takesEffect s agent A.POD_RESYNC v.toNat = true) ∧ (streamIsLost s = false ∨ v.toNat % 32 ≠ 0) ∧ (t.pods = s.pods) ∧ (streamIsLost t = true) := by decide +kernel

theorem test_retainCfg :
  let agent : Agent := .host
  let v : Word := 2
  let s : State := z
  let t : State := after (.retainCfg agent v) s
  s.power = .on ∧ (takesEffect s agent A.RETAIN_CFG v.toNat = true) ∧ (rd t A.RETAIN_CFG = 2) ∧ (rd t A.RETAIN_FREED = 0) := by decide +kernel

theorem test_podStart :
  let no : Nat := 1
  let p : RxPod := { ctl 5 0x10 (zeros 16) with stage := .waiting }
  let s : State := withPod z p
  let t : State := after (.podStart no) s
  s.power = .on ∧ (podAt s no = some p) ∧ (p.stage = .waiting) ∧ (pegEnds s p = false) ∧ (startable s p = true) ∧ (p.hdr.kind ≠ 2) ∧ (podAt t no = some { p with stage := .running }) := by decide +kernel

theorem test_podStartData :
  let no : Nat := 1
  let p : RxPod := dataPod
  let s : State := withPod z p
  let t : State := after (.podStart no) s
  s.power = .on ∧ (podAt s no = some p) ∧ (p.stage = .waiting) ∧ (pegEnds s p = false) ∧ (startable s p = true) ∧ (p.hdr.kind = 2) ∧ (isLocal s (leAt p.body 0 8) = true) ∧ (encWaits s (addrLocal (leAt p.body 0 8)) (leAt p.body 8 4) = false) ∧ (t.pods.rx = []) ∧ (t.mem = [(0x1000000000, 7), (0x1000000001, 8)]) := by decide +kernel

theorem test_podStartRemote :
  let no : Nat := 1
  let p : RxPod := remotePod
  let g : Nat := 0
  let s : State := withPod kz p
  let t : State := after (.podStart no) s
  s.power = .on ∧ (podAt s no = some p) ∧ (p.stage = .waiting) ∧ (pegEnds s p = false) ∧ (startable s p = true) ∧ (p.hdr.kind = 2) ∧ (isLocal s (leAt p.body 0 8) = false) ∧ (routePort s (addrRing (leAt p.body 0 8)) = some g) ∧ (t.outWrites.length = 1) ∧ ((glOf t 0).txq.map (fun k => (k.kind, k.dst, k.addr, k.payload)) = [(1, 5, 0x1000000000, [7, 8])]) ∧ ((podAt t 1).map (·.stage) = some .running) := by decide +kernel

theorem test_podPegEnds :
  let no : Nat := 1
  let p : RxPod := { ctl 5 0x10 (zeros 16) with stage := .waiting, hdr := { (ctl 5 0x10 (zeros 16)).hdr with completionPeg := 0x4005 } }
  let s : State := withPod z p
  let t : State := after (.podStart no) s
  s.power = .on ∧ (podAt s no = some p) ∧ (p.stage = .waiting) ∧ (pegEnds s p = true) ∧ (t.pods.rx = []) := by decide +kernel

theorem test_podWaits :
  let no : Nat := 1
  let p : RxPod := { ctl 5 0x10 (zeros 16) with stage := .waiting, hdr := { (ctl 5 0x10 (zeros 16)).hdr with flags := 8, launch := 9 } }
  let s : State := withPod z p
  let t : State := after (.podStart no) s
  s.power = .on ∧ (podAt s no = some p) ∧ (p.stage = .waiting) ∧ (pegEnds s p = false) ∧ (startable s p = false) ∧ (t.pods = s.pods) := by decide +kernel

theorem test_originClose :
  let no : Nat := 1
  let p : RxPod := ctl 5 0x10 (zeros 16)
  let s : State := withPod z p
  let t : State := after (.originClose no) s
  s.power = .on ∧ (runningControl s no 5 0x10 = some p) ∧ (podAt t no = some { p with taken := true }) := by decide +kernel

theorem test_originWindowClose :
  let origin : BitVec 16 := 7
  let p : RxPod := { ctl 5 0x10 (zeros 16) with taken := true }
  let s : State := { withPod z p with pods := { (withPod z p).pods with windows := [{ origin := 7, head := 0, marks := [{ seq := 0, state := .running }] }] } }
  let t : State := after (.originWindowClose origin) s
  s.power = .on ∧ (closingPod s origin.toNat = some p) ∧ (t.pods.windows = []) ∧ (t.pods.rx = []) ∧ (rd t A.ORIGIN_OPEN = 0) := by decide +kernel

theorem test_ringPodWrite :
  let r : Fin 16 := 2
  let e : RingEntry := { pod := outP, since := some 0 }
  let rest : List RingEntry := []
  let s : State := rz
  let t : State := after (.ringPodWrite r) s
  s.power = .on ∧ ((ringOf s r.val).queue = e :: rest) ∧ (ringReady s r.val e.pod = true) ∧ (lostBefore s e.pod = false) ∧ (rd t (A.RING_HEAD 2) = 64) ∧ ((ringOf t 2).queue = []) ∧ (smGet memDefault t.hostMem 0x100000 = 64) ∧ (t.msixOut.length = 1) ∧ (smGet memDefault t.hostMem 0 = 0x81) := by decide +kernel

theorem test_ringLostBefore :
  let r : Fin 16 := 2
  let e : RingEntry := { pod := { outP with kind := 9 }, since := some 0 }
  let rest : List RingEntry := []
  let s : State := { setRing rz 2 { queue := [e] } with lostEvents := 3 }
  let t : State := after (.ringPodWrite r) s
  s.power = .on ∧ ((ringOf s r.val).queue = e :: rest) ∧ (ringReady s r.val e.pod = true) ∧ (lostBefore s e.pod = true) ∧ (rd t (A.RING_HEAD 2) = 128) ∧ ((ringOf t 2).queue = []) ∧ (t.lostEvents = 0) := by decide +kernel

theorem test_ringPodStays :
  let r : Fin 16 := 2
  let s : State := wr rz A.U4_STATUS 0
  let t : State := after (.ringPodWrite r) s
  s.power = .on ∧ ((ringOf s r.val).queue = [{ pod := outP, since := some 0 }]) ∧ (ringReady s r.val outP = false) ∧ (t.rings = s.rings) := by decide +kernel

theorem test_ringWaitExpire :
  let r : Fin 16 := 2
  let e : RingEntry := { pod := outP, since := some 0 }
  let rest : List RingEntry := []
  let w : Nat := 0
  let s : State := { wr rz A.U4_STATUS 0 with ridge := 100000 }
  let t : State := after (.ringWaitExpire r) s
  s.power = .on ∧ ((ringOf s r.val).queue = e :: rest) ∧ (e.since = some w) ∧ (w + 100000 ≤ s.ridge) ∧ (ringReady s r.val e.pod = false) ∧ ((ringOf t 2).queue = []) ∧ (rd t (A.RING_DROPS 2) = 1) := by decide +kernel

theorem test_ringTail :
  let agent : Agent := .host
  let r : Fin 16 := 15
  let v : Word := 0x1234567
  let s : State := z
  let t : State := after (.ringTail agent r v) s
  s.power = .on ∧ (takesEffect s agent (A.RING_TAIL r.val) v.toNat = true) ∧ (rd t (A.RING_TAIL r.val) = v.toNat) := by decide +kernel

theorem test_ringCfgWrite :
  let agent : Agent := .host
  let r : Fin 16 := 2
  let v : Word := 0x31
  let s : State := z
  let t : State := after (.ringCfgWrite agent r v) s
  s.power = .on ∧ (takesEffect s agent (A.RING_CFG r.val) v.toNat = true) ∧ (ringOn t 2 = true) ∧ (rd t (A.RING_CFG 2) = 0x31) := by decide +kernel

theorem test_ringDisable :
  let agent : Agent := .host
  let r : Fin 16 := 2
  let v : Word := 0
  let s : State := rz
  let t : State := after (.ringCfgWrite agent r v) s
  s.power = .on ∧ (takesEffect s agent (A.RING_CFG r.val) v.toNat = true) ∧ (ringOn s r.val = true) ∧ (bitN v.toNat 4 = false) ∧ (ringOn t 2 = false) ∧ ((ringOf t 2).queue = []) ∧ (rd t (A.RING_DROPS 2) = 1) := by decide +kernel

theorem test_msixCoalesceExpire :
  let r : Fin 16 := 2
  let w : Nat := 5
  let s : State := setRing { wr z (A.MSIX_CTRL 0) 0 with ridge := 6 } 2 { msgDue := some 5 }
  let t : State := after (.msixCoalesceExpire r) s
  s.power = .on ∧ ((ringOf s r.val).msgDue = some w) ∧ (w ≤ s.ridge) ∧ (t.msixOut.length = 1) ∧ ((ringOf t 2).msgDue = none) := by decide +kernel

theorem test_bar2Access :
  let off : BitVec 28 := 0
  let b : List Byte := [7]
  let rrLost : Bool := false
  let u : State := (busWrite (wr (wr z A.U4_STATUS 13) A.U4_APERTURE_HI 0x10) .host 0x1000000000 [7]).2
  let s : State := wr (wr z A.U4_STATUS 13) A.U4_APERTURE_HI 0x10
  let t : State := after (.bar2Access off (.write b) rrLost) s
  s.power = .on ∧ (hostUp s = true) ∧ (hostUnauth s = false) ∧ (1 ≤ b.length) ∧ (b.length ≤ 4096) ∧ (off.toNat + b.length ≤ 268435456) ∧ (isLocal s (rdWide s A.U4_APERTURE_LO + off.toNat) = true) ∧ (encWaits s (addrLocal (rdWide s A.U4_APERTURE_LO + off.toNat)) b.length = false) ∧ (busWrite s .host (addrLocal (rdWide s A.U4_APERTURE_LO + off.toNat)) b = (0, u)) ∧ (t.hostOut = [.posted]) ∧ (t.mem = [(0x1000000000, 7)]) := by decide +kernel

theorem test_bar2WriteRefused :
  let off : BitVec 28 := 0
  let b : List Byte := [7]
  let rrLost : Bool := false
  let st : Nat := St.ADDR_UNMAPPED
  let u : State := (busWrite (wr (wr z A.U4_STATUS 13) A.U4_APERTURE_HI 0xFFFF) .host 0xFFFF00000000 [7]).2
  let s : State := wr (wr z A.U4_STATUS 13) A.U4_APERTURE_HI 0xFFFF
  let t : State := after (.bar2Access off (.write b) rrLost) s
  s.power = .on ∧ (hostUp s = true) ∧ (hostUnauth s = false) ∧ (1 ≤ b.length) ∧ (b.length ≤ 4096) ∧ (off.toNat + b.length ≤ 268435456) ∧ (isLocal s (rdWide s A.U4_APERTURE_LO + off.toNat) = true) ∧ (encWaits s (addrLocal (rdWide s A.U4_APERTURE_LO + off.toNat)) b.length = false) ∧ (busWrite s .host (addrLocal (rdWide s A.U4_APERTURE_LO + off.toNat)) b = (st, u)) ∧ (st ≠ 0) ∧ (t.hostOut = [.unsupportedRequest]) ∧ (t.mem = []) := by decide +kernel

theorem test_bar2WriteRemote :
  let off : BitVec 28 := 0
  let b : List Byte := [7]
  let rrLost : Bool := false
  let g : Nat := 0
  let s : State := wr (wr kz A.U4_STATUS 13) A.U4_APERTURE_HI 0x50010
  let t : State := after (.bar2Access off (.write b) rrLost) s
  s.power = .on ∧ (hostUp s = true) ∧ (hostUnauth s = false) ∧ (1 ≤ b.length) ∧ (b.length ≤ 4096) ∧ (off.toNat + b.length ≤ 268435456) ∧ (isLocal s (rdWide s A.U4_APERTURE_LO + off.toNat) = false) ∧ (routePort s (addrRing (rdWide s A.U4_APERTURE_LO + off.toNat)) = some g) ∧ (t.hostOut = [.posted]) ∧ (t.outWrites.length = 1) ∧ ((glOf t 0).txq.map (fun k => (k.kind, k.dst, k.addr, k.payload)) = [(1, 5, 0x1000000000, [7])]) := by decide +kernel

theorem test_bar2Read :
  let off : BitVec 28 := 1
  let n : Nat := 2
  let rrLost : Bool := false
  let u : State := { wr (wr z A.U4_STATUS 13) A.U4_APERTURE_HI 0x10 with mem := [(0x1000000001, 7)] }
  let s : State := u
  let t : State := after (.bar2Access off (.read n) rrLost) s
  s.power = .on ∧ (hostUp s = true) ∧ ((busRead s .host 0x1000000001 2).1 = 0) ∧ (t.hostOut = [.data [7, 0]]) := by decide +kernel

theorem test_bar2ReadRemote :
  let off : BitVec 28 := 0
  let n : Nat := 8
  let rrLost : Bool := false
  let g : Nat := 0
  let s : State := wr (wr kz A.U4_STATUS 13) A.U4_APERTURE_HI 0x50010
  let t : State := after (.bar2Access off (.read n) rrLost) s
  s.power = .on ∧ (hostUp s = true) ∧ (hostUnauth s = false) ∧ (1 ≤ n) ∧ (n ≤ 4096) ∧ (off.toNat + n ≤ 268435456) ∧ (isLocal s (rdWide s A.U4_APERTURE_LO + off.toNat) = false) ∧ (routePort s (addrRing (rdWide s A.U4_APERTURE_LO + off.toNat)) = some g) ∧ (t.hostOut = []) ∧ (t.remote = [{ tag := 0, at_ := 0, len := 8 }]) := by decide +kernel

theorem test_bar2Unauth :
  let off : BitVec 28 := 0
  let acc : BusAccess := .read 8
  let rrLost : Bool := false
  let s : State := { wr z A.U4_STATUS 13 with sec := { z.sec with hostKey := some [1] } }
  let t : State := after (.bar2Access off acc rrLost) s
  s.power = .on ∧ (hostUp s = true) ∧ (hostUnauth s = true) ∧ (1 ≤ (match acc with | .read n => n | .write b => b.length)) ∧ ((match acc with | .read n => n | .write b => b.length) ≤ 4096) ∧ (off.toNat + (match acc with | .read n => n | .write b => b.length) ≤ 268435456) ∧ (t.hostOut = [.completerAbort]) := by decide +kernel

theorem test_remoteTimeout :
  let r : RemoteRead := { tag := 1, at_ := 2, len := 4 }
  let rest : List RemoteRead := []
  let s : State := { z with ridge := 200002, remote := [r] }
  let t : State := after .remoteTimeout s
  s.power = .on ∧ (s.remote = r :: rest) ∧ (r.at_ + 200000 ≤ s.ridge) ∧ (t.remote = rest) ∧ (t.hostOut = s.hostOut ++ [.completerAbort]) := by decide +kernel

theorem test_u4Aperture :
  let agent : Agent := .host
  let v : Word := 3
  let s : State := { z with rf := { z.rf with staged := [(A.U4_APERTURE_LO, 0x10000000)] } }
  let t : State := after (.u4Aperture agent v) s
  s.power = .on ∧ (takesEffect s agent A.U4_APERTURE_HI v.toNat = true) ∧ (rd t A.U4_APERTURE_HI = 3) ∧ (rd t A.U4_APERTURE_LO = 0x10000000) := by decide +kernel

theorem test_functionLevelReset :
  let s : State := wr (wr (wr z A.U4_STATUS 13) (A.MSIX_CTRL 63) 0) (A.MSIX_PBA 1) 5
  let t : State := after .functionLevelReset s
  s.power = .on ∧ (rdB s A.U4_STATUS 2 = true) ∧ (rd t (A.MSIX_CTRL 63) = 1) ∧ (rd t (A.MSIX_PBA 1) = 0) := by decide +kernel

theorem test_msixUnmask :
  let agent : Agent := .host
  let vector : Fin 64 := 33
  let v : Word := 0
  let s : State := wr z (A.MSIX_PBA 1) 2
  let t : State := after (.msixUnmask agent vector v) s
  s.power = .on ∧ (takesEffect s agent (A.MSIX_CTRL vector.val) v.toNat = true) ∧ (bitN v.toNat 0 = false) ∧ (t.msixOut.length = 1) ∧ (rd t (A.MSIX_PBA 1) = 0) := by decide +kernel

theorem test_usb4BlockReceive :
  let seq : BitVec 12 := 6
  let ok : Bool := true
  let jobs : List (BitVec 32) := []
  let s : State := { wr z A.U4_STATUS 13 with media := { z.media with rxSeq := 5, retries := 2 } }
  let t : State := after (.usb4BlockReceive seq ok jobs) s
  s.power = .on ∧ (rdB s A.U4_STATUS 0 = true) ∧ (seq.toNat = (s.media.rxSeq + 1) % 4096) ∧ (s.media.failAt = none) ∧ (t.media = { rxSeq := 6 }) := by decide +kernel

theorem test_usb4BlockBad :
  let seq : BitVec 12 := 6
  let ok : Bool := false
  let jobs : List (BitVec 32) := []
  let s : State := { wr z A.U4_STATUS 13 with media := { z.media with rxSeq := 5, retries := 2 } }
  let t : State := after (.usb4BlockReceive seq ok jobs) s
  s.power = .on ∧ (rdB s A.U4_STATUS 0 = true) ∧ (s.media.failAt = none) ∧ (s.media.retries < 8) ∧ (ok = false ∨ seq.toNat ≠ (s.media.rxSeq + 1) % 4096) ∧ (t.media.retries = 3) ∧ (rd t A.U4_RETRIES = 1) := by decide +kernel

theorem test_hostLinkDown :
  let jobs : List (BitVec 32) := []
  let s : State := wr z A.U4_STATUS 13
  let t : State := after (.hostLinkDown jobs) s
  s.power = .on ∧ (rdB s A.U4_STATUS 0 = true) ∧ (rdB t A.U4_STATUS 0 = false) ∧ (rdB t A.U4_STATUS 3 = rdB s A.U4_STATUS 3) ∧ (rd t A.U4_LINK_DOWNS = min (rd s A.U4_LINK_DOWNS + 1) 0xFFFFFFFF) ∧ (rd t A.U4_ROOT_TAG = (smGet (fun _ => 0) s.linkDowns 0 + 1) % 4096) ∧ (t.remote = []) ∧ (t.media = {}) ∧ (streamIsLost t = true) ∧ (bitN (evtFlags t 0x280) 0 = true) ∧ (levelActive t 0x138 = true) := by decide +kernel

theorem test_hostLinkUp :
  let gen4 : Bool := true
  let s : State := wrF z A.U4_CFG 0 0 1
  let t : State := after (.hostLinkUp gen4) s
  s.power = .on ∧ (rdB s A.U4_STATUS 0 = false) ∧ (laneFit s 44 = true) ∧ (laneFit s 45 = true) ∧ ((if gen4 then rdB s A.U4_CFG 0 else rdB s A.U4_CFG 1) = true) ∧ (rd t A.U4_STATUS = 13 + 2 * b2n gen4) ∧ (bitN (evtFlags t 0x280) 1 = true) ∧ (t.media = {}) ∧ (levelActive t 0x138 = false) ∧ ((s.sec.hostKey.isSome = true → rdB t A.SEC_STATUS 1 = false)) := by decide +kernel

theorem test_tsfFrameReceive :
  let port : Fin 32 := 3
  let frame : EthFrame := respFrame
  let rrLost : Bool := false
  let s : State := setSensor pz 3 { lastSeq := some 2 }
  let t : State := after (.tsfFrameReceive port frame rrLost) s
  s.power = .on ∧ (rdB s (A.PORT_STATUS port.val) 0 = true) ∧ (unitOn s (0x040 + port.val) = true) ∧ (46 ≤ frame.data.length) ∧ (frame.dest.toNat = portAddr s port.val) ∧ (bitN (sensorOf s port.val).cfg 4 = false) ∧ (tsfHeaderOk frame.data = true) ∧ (leAt frame.data 0 1 % 16 = 4) ∧ (beAt frame.data 2 2 = 5) ∧ ((sensorOf s port.val).lastSeq = some 2) ∧ (0 < sgn 32 (beAt frame.data 4 4 + 4294967296 - 2)) ∧ (rrMode s = 0) ∧ ((sensorOf t 3).lastSeq = some 6) ∧ ((sensorOf t 3).responses = [(9, 1)]) ∧ (rd t (A.PORT_SEQ_GAP 3) = 3) := by decide +kernel

theorem test_protectedResponse :
  let port : Fin 32 := 3
  let tag : SecTag := { icvOk := true, an := 1, pn := 9 }
  let a : MacSa := { an := 1, nextPn := 7 }
  let frame : EthFrame := { respFrame with sec := some tag }
  let rrLost : Bool := false
  let s : State := setSec (setSensor pz 3 { cfg := 0x30 }) 3 { sa := some a, old := some (a, 4) }
  let t : State := after (.tsfFrameReceive port frame rrLost) s
  s.power = .on ∧ (tag.an.toNat = a.an) ∧ (a.nextPn ≤ tag.pn.toNat) ∧ (bitN (sensorOf s 3).cfg 4 = true) ∧ ((secOf t 3).sa = some { an := 1, nextPn := 10 }) ∧ ((secOf t 3).old = none) ∧ ((sensorOf t 3).responses = [(9, 1)]) := by decide +kernel

theorem test_csiFrameStart :
  let port : Fin 32 := 3
  let frame : EthFrame := csiFrame 0x500 0 []
  let rrLost : Bool := false
  let h : CsiHeader := { dt := 0, vc := 0, wc := 5 }
  let fixed : Bool := false
  let w : Nat × Nat := (1, 4)
  let s : State := csz .awaited
  let t : State := after (.tsfFrameReceive port frame rrLost) s
  s.power = .on ∧ (checkHeader (tsfPayload frame) = some (h, fixed)) ∧ ((streamOf s 48).phase = .awaited) ∧ (windowNow s (streamOf s 48).cfg = some w) ∧ ((streamOf t 48).phase = .opened) ∧ ((streamOf t 48).startAt = 7) ∧ ((streamOf t 48).csi = some 5) ∧ (rdB t (A.ST_STATUS 1 16) 0 = true) := by decide +kernel

theorem test_csiFrameEnd :
  let port : Fin 32 := 3
  let frame : EthFrame := csiFrame 0x501 0 []
  let rrLost : Bool := false
  let h : CsiHeader := { dt := 1, vc := 0, wc := 5 }
  let fixed : Bool := false
  let s : State := csz .opened
  let t : State := after (.tsfFrameReceive port frame rrLost) s
  s.power = .on ∧ (checkHeader (tsfPayload frame) = some (h, fixed)) ∧ ((streamOf s 48).phase = .opened) ∧ ((streamOf t 48).phase = .closed) ∧ (rd t (A.ST_FRAMES 1 16) = 1) := by decide +kernel

theorem test_csiLine :
  let port : Fin 32 := 3
  let frame : EthFrame := csiFrame 0x32A 0 [9, 8, 7]
  let rrLost : Bool := false
  let h : CsiHeader := { dt := 0x2A, vc := 0, wc := 3 }
  let fixed : Bool := false
  let px : List Nat := [9, 8, 7]
  let s : State := csz .opened
  let t : State := after (.tsfFrameReceive port frame rrLost) s
  s.power = .on ∧ (checkHeader (tsfPayload frame) = some (h, fixed)) ∧ (h.dt = (streamOf s 48).cfg.dt) ∧ ((streamOf s 48).cfg.route = 1) ∧ (beAt frame.data 2 2 = h.wc + 6) ∧ (crc16 (((tsfPayload frame).drop 4).take h.wc) = leAt (tsfPayload frame) (h.wc + 4) 2) ∧ (px = (unpack h.dt (((tsfPayload frame).drop 4).take h.wc)).take (streamOf s 48).cfg.width) ∧ ((pipeQueue t 0).map (fun l => (l.stream, l.index, l.valid)) = [(48, 0, 3)]) ∧ ((pipeQueue t 0).map (·.px) = [some [9, 8, 7, 0]]) ∧ ((pipeQueue t 0).all (fun l => l.flags &&& flShort == flShort) = true) ∧ ((streamOf t 48).next = 1) := by decide +kernel

theorem test_csiContinue :
  let port : Fin 32 := 3
  let frame : EthFrame := { respFrame with data := [0x11, 0, 0, 2, 0, 0, 0, 6, 0, 0, 0, 3, 0, 0, 0, 0, 8, 9] ++ zeros 30 }
  let rrLost : Bool := false
  let a : PacketAsm := { len := 3, keep := true, data := [1, 2, 3], lineIndex := 0, stream := 48 }
  let s : State := setSensor pz 3 { asm := some a }
  let t : State := after (.tsfFrameReceive port frame rrLost) s
  s.power = .on ∧ ((sensorOf s port.val).asm = some a) ∧ (beAt frame.data 8 4 = a.len) ∧ ((sensorOf t 3).asm.map (fun x => (x.len, x.data)) = some (5, [1, 2, 3, 8, 9])) := by decide +kernel

theorem test_csiSegmentLost :
  let port : Fin 32 := 3
  let frame : EthFrame := { respFrame with data := [0x11, 0, 0, 2, 0, 0, 0, 6, 0, 0, 0, 4, 0, 0, 0, 0, 8, 9] ++ zeros 30 }
  let rrLost : Bool := false
  let a : PacketAsm := { len := 3, keep := true, data := [1, 2, 3], lineIndex := 0, stream := 48 }
  let s : State := setSensor pz 3 { asm := some a }
  let t : State := after (.tsfFrameReceive port frame rrLost) s
  s.power = .on ∧ ((sensorOf s port.val).asm = some a) ∧ (beAt frame.data 8 4 ≠ a.len) ∧ ((sensorOf t port.val).asm = none) ∧ (rd t (portCounter port.val 8) = min (rd s (portCounter port.val 8) + 1) 0xFFFFFFFF) ∧ (bitN (evtFlags t (0x040 + port.val)) 4 = true) := by decide +kernel

theorem test_pointsTaken :
  let port : Fin 32 := 3
  let frame : EthFrame := pointFrame
  let rrLost : Bool := false
  let l : Nat := 1
  let k : Nat := 4
  let s : State := ppz 8
  let t : State := after (.tsfFrameReceive port frame rrLost) s
  s.power = .on ∧ (pointsValid (tsfPayload frame) = true) ∧ (cycleAt s (rdF s A.PP_CTL 5 3) 0 s.ridge = some (l, k)) ∧ (1 ≤ 65536 * rdF s A.PP_BUF_SIZE 6 0) ∧ (t.pp.points.map (fun p => (p.port, p.x, p.y, p.z)) = [(3, 1, -1, 2)]) ∧ (t.pp.points.map (fun p => (p.intensity, p.ret, p.stamp, p.frame)) = [(5, 2, 3007, 4)]) := by decide +kernel

theorem test_pointsUnframed :
  let port : Fin 32 := 3
  let frame : EthFrame := pointFrame
  let rrLost : Bool := false
  let s : State := ppz 0
  let t : State := after (.tsfFrameReceive port frame rrLost) s
  s.power = .on ∧ (pointsValid (tsfPayload frame) = true) ∧ (rdB s A.PP_SOURCES port.val = false) ∧ (rd t A.PP_UNFRAMED = 1) ∧ (t.pp = s.pp) := by decide +kernel

theorem test_frameFcs :
  let port : Fin 32 := 3
  let frame : EthFrame := { respFrame with fcsOk := false }
  let rrLost : Bool := false
  let s : State := pz
  let t : State := after (.tsfFrameReceive port frame rrLost) s
  s.power = .on ∧ (rdB s (A.PORT_STATUS port.val) 0 = true) ∧ (unitOn s (0x040 + port.val) = true) ∧ (frame.fcsOk = false ∨ frame.data.length < 46 ∨ 1500 < frame.data.length) ∧ (rd t (portCounter port.val 0) = min (rd s (portCounter port.val 0) + 1) 0xFFFFFFFF) ∧ (bitN (evtFlags t (0x040 + port.val)) 1 = true) ∧ (t.sensors = s.sensors) ∧ (t.streams = s.streams) ∧ (t.pp = s.pp) := by decide +kernel

theorem test_frameAddr :
  let port : Fin 32 := 3
  let frame : EthFrame := { respFrame with dest := 5 }
  let rrLost : Bool := false
  let s : State := pz
  let t : State := after (.tsfFrameReceive port frame rrLost) s
  s.power = .on ∧ (rdB s (A.PORT_STATUS port.val) 0 = true) ∧ (unitOn s (0x040 + port.val) = true) ∧ (frame.fcsOk = true) ∧ (46 ≤ frame.data.length) ∧ (frame.data.length ≤ 1500) ∧ (frame.dest.toNat ≠ portAddr s port.val) ∧ (frame.dest.toNat ≠ 0x0180C200000E) ∧ (rd t (portCounter port.val 1) = min (rd s (portCounter port.val 1) + 1) 0xFFFFFFFF) ∧ (t.sensors = s.sensors) ∧ (t.streams = s.streams) ∧ (t.pp = s.pp) := by decide +kernel

theorem test_frameMacsec :
  let port : Fin 32 := 3
  let frame : EthFrame := respFrame
  let rrLost : Bool := false
  let s : State := setSensor pz 3 { cfg := 0x30 }
  let t : State := after (.tsfFrameReceive port frame rrLost) s
  s.power = .on ∧ (rdB s (A.PORT_STATUS port.val) 0 = true) ∧ (unitOn s (0x040 + port.val) = true) ∧ (frame.fcsOk = true) ∧ (46 ≤ frame.data.length) ∧ (frame.data.length ≤ 1500) ∧ (frame.dest.toNat = portAddr s port.val ∨ frame.dest.toNat = 0x0180C200000E) ∧ (frame.sec = none) ∧ (bitN (sensorOf s port.val).cfg 4 = true) ∧ (bitN (sensorOf s port.val).cfg 5 = true) ∧ (frame.etherType ≠ 0x888E) ∧ (rd t (portCounter port.val 2) = min (rd s (portCounter port.val 2) + 1) 0xFFFFFFFF) ∧ (bitN (evtFlags t (0x040 + port.val)) 2 = true) ∧ (t.sensors = s.sensors) ∧ (t.streams = s.streams) ∧ (t.pp = s.pp) := by decide +kernel

theorem test_frameEtype :
  let port : Fin 32 := 3
  let frame : EthFrame := { respFrame with etherType := 0x800 }
  let rrLost : Bool := false
  let s : State := pz
  let t : State := after (.tsfFrameReceive port frame rrLost) s
  s.power = .on ∧ (rdB s (A.PORT_STATUS port.val) 0 = true) ∧ (unitOn s (0x040 + port.val) = true) ∧ (frame.fcsOk = true) ∧ (46 ≤ frame.data.length) ∧ (frame.data.length ≤ 1500) ∧ (frame.dest.toNat = portAddr s port.val ∨ frame.dest.toNat = 0x0180C200000E) ∧ (frame.sec = none) ∧ ((bitN (sensorOf s port.val).cfg 4 && bitN (sensorOf s port.val).cfg 5) = false) ∧ (frame.etherType ≠ 0x88B5) ∧ (frame.etherType ≠ 0x88F7) ∧ (frame.etherType ≠ 0x888E) ∧ (rd t (portCounter port.val 3) = min (rd s (portCounter port.val 3) + 1) 0xFFFFFFFF) ∧ (t.sensors = s.sensors) ∧ (t.streams = s.streams) ∧ (t.pp = s.pp) := by decide +kernel

theorem test_frameHeader :
  let port : Fin 32 := 3
  let frame : EthFrame := { respFrame with data := 0x24 :: zeros 50 }
  let rrLost : Bool := false
  let s : State := pz
  let t : State := after (.tsfFrameReceive port frame rrLost) s
  s.power = .on ∧ (rdB s (A.PORT_STATUS port.val) 0 = true) ∧ (unitOn s (0x040 + port.val) = true) ∧ (frame.fcsOk = true) ∧ (46 ≤ frame.data.length) ∧ (frame.data.length ≤ 1500) ∧ (frame.dest.toNat = portAddr s port.val ∨ frame.dest.toNat = 0x0180C200000E) ∧ (frame.sec = none) ∧ ((bitN (sensorOf s port.val).cfg 4 && bitN (sensorOf s port.val).cfg 5) = false) ∧ (frame.etherType = 0x88B5) ∧ (tsfHeaderOk frame.data = false) ∧ (rd t (portCounter port.val 4) = min (rd s (portCounter port.val 4) + 1) 0xFFFFFFFF) ∧ (bitN (evtFlags t (0x040 + port.val)) 3 = true) ∧ (t.sensors = s.sensors) ∧ (t.streams = s.streams) ∧ (t.pp = s.pp) := by decide +kernel

theorem test_frameStale :
  let port : Fin 32 := 3
  let frame : EthFrame := respFrame
  let rrLost : Bool := false
  let q : Nat := 6
  let s : State := setSensor pz 3 { lastSeq := some 6 }
  let t : State := after (.tsfFrameReceive port frame rrLost) s
  s.power = .on ∧ (rdB s (A.PORT_STATUS port.val) 0 = true) ∧ (unitOn s (0x040 + port.val) = true) ∧ (frame.fcsOk = true) ∧ (46 ≤ frame.data.length) ∧ (frame.data.length ≤ 1500) ∧ (frame.dest.toNat = portAddr s port.val ∨ frame.dest.toNat = 0x0180C200000E) ∧ (frame.sec = none) ∧ ((bitN (sensorOf s port.val).cfg 4 && bitN (sensorOf s port.val).cfg 5) = false) ∧ (frame.etherType = 0x88B5) ∧ (tsfHeaderOk frame.data = true) ∧ (0 < beAt frame.data 2 2) ∧ (beAt frame.data 2 2 ≤ 1484) ∧ (16 + beAt frame.data 2 2 ≤ frame.data.length) ∧ ((sensorOf s port.val).lastSeq = some q) ∧ (sgn 32 (beAt frame.data 4 4 + 4294967296 - q) ≤ 0) ∧ (rd t (portCounter port.val 7) = min (rd s (portCounter port.val 7) + 1) 0xFFFFFFFF) ∧ (bitN (evtFlags t (0x040 + port.val)) 3 = true) ∧ (t.sensors = s.sensors) ∧ (t.streams = s.streams) ∧ (t.pp = s.pp) := by decide +kernel

theorem test_frameReplay :
  let port : Fin 32 := 3
  let frame : EthFrame := respFrame
  let rrLost : Bool := false
  let s : State := wr pz A.RR_CTL 2
  let t : State := after (.tsfFrameReceive port frame rrLost) s
  s.power = .on ∧ (replaying s = true) ∧ (rd t A.RR_LIVE_DISCARDED = min (rd s A.RR_LIVE_DISCARDED + 1) 0xFFFFFFFF) ∧ ((sensorOf t port.val).responses = (sensorOf s port.val).responses) ∧ ((sensorOf t port.val).asm = (sensorOf s port.val).asm) ∧ (t.streams = s.streams) ∧ (t.pp = s.pp) := by decide +kernel

theorem test_tsfLength :
  let f : EthFrame := { respFrame with data := [0x14, 0, 0xFF, 0xFF] ++ zeros 46 }
  let g : EthFrame := { respFrame with data := [0x14, 0, 0, 40] ++ zeros 44 }
  tsfHeaderOk f.data = true ∧ tsfHeaderOk g.data = true ∧ beAt f.data 2 2 = 0xFFFF ∧ beAt g.data 2 2 = 40 ∧
    rdB pz (A.PORT_STATUS 3) 0 = true ∧ g.dest.toNat = portAddr pz 3 ∧ bitN (sensorOf pz 3).cfg 4 = false ∧
    rd (after (.tsfFrameReceive 3 f false) pz) (portCounter 3 5) = 1 ∧
    rd (after (.tsfFrameReceive 3 g false) pz) (portCounter 3 6) = 1 := by decide +kernel

theorem test_streamWindowStart :
  let port : Fin 32 := 3
  let vc : Fin 16 := 0
  let w : Nat × Nat := (1000001, 5)
  let s : State := { csz .closed with ridge := 1000003 }
  let t : State := after (.streamWindowStart port vc) s
  s.power = .on ∧ (windowNow s (streamCfg (rd s) (16 * port.val + vc.val)) = some w) ∧ (¬((streamOf s (16 * port.val + vc.val)).win.isSome = true ∧ windowNow s (streamOf s (16 * port.val + vc.val)).cfg = (streamOf s (16 * port.val + vc.val)).win)) ∧ ((streamOf s (16 * port.val + vc.val)).win ≠ some w) ∧ (¬((streamCfg (rd s) (16 * port.val + vc.val)).fg = (streamOf s (16 * port.val + vc.val)).cfg.fg ∧ (streamOf s (16 * port.val + vc.val)).win.any (fun v => v.2 == w.2) = true)) ∧ ((streamOf t 48).win = some w) ∧ ((streamOf t 48).cfg.on = false) ∧ (bitN (evtFlags t 0x061) 5 = true) := by decide +kernel

theorem test_withinWindow :
  let port : Fin 32 := 3
  let vc : Fin 16 := 0
  let w : Nat × Nat := (1, 4)
  let s : State := csz .opened
  let t : State := after (.streamWindowStart port vc) s
  s.power = .on ∧ ((streamOf s (16 * port.val + vc.val)).win = some w) ∧ (windowNow s (streamOf s (16 * port.val + vc.val)).cfg = some w) ∧ (t.streams = s.streams) := by decide +kernel

theorem test_withoutCycle :
  let port : Fin 32 := 3
  let vc : Fin 16 := 0
  let s : State := stz .closed
  let t : State := after (.streamWindowStart port vc) s
  s.power = .on ∧ (fgOn s 0 = false) ∧ (windowNow s (streamCfg (rd s) 48) = none) ∧ ((streamOf t 48).win = none) := by decide +kernel

theorem test_fsDeadline :
  let port : Fin 32 := 3
  let vc : Fin 16 := 0
  let w : Nat × Nat := (1, 4)
  let s : State := stz .awaited
  let t : State := after (.fsDeadline port vc) s
  s.power = .on ∧ ((streamOf s (16 * port.val + vc.val)).win = some w) ∧ ((streamOf s (16 * port.val + vc.val)).cfg.on = true) ∧ (streamRuns s (16 * port.val + vc.val) = true) ∧ ((streamOf s (16 * port.val + vc.val)).phase = .awaited) ∧ (w.1 + (streamOf s (16 * port.val + vc.val)).cfg.fsDl ≤ s.ridge) ∧ ((streamOf t (16 * port.val + vc.val)).phase = .closed) ∧ ((streamOf t (16 * port.val + vc.val)).voided = true) ∧ (rd t (A.ST_MISSING (stPage (16 * port.val + vc.val)) (stEntry (16 * port.val + vc.val))) = min (rd s (A.ST_MISSING (stPage (16 * port.val + vc.val)) (stEntry (16 * port.val + vc.val))) + 1) 0xFFFFFFFF) ∧ (rd t (A.ST_FLAGGED (stPage (16 * port.val + vc.val)) (stEntry (16 * port.val + vc.val))) = min (rd s (A.ST_FLAGGED (stPage (16 * port.val + vc.val)) (stEntry (16 * port.val + vc.val))) + 1) 0xFFFFFFFF) ∧ (bitN (evtFlags t (0x060 + stPage (16 * port.val + vc.val))) 0 = true) ∧ (bitN (evtFlags t (0x060 + stPage (16 * port.val + vc.val))) 1 = true) := by decide +kernel

theorem test_fsEarly :
  let port : Fin 32 := 3
  let vc : Fin 16 := 0
  let s : State := stz .opened
  let t : State := after (.fsDeadline port vc) s
  s.power = .on ∧ ((streamOf s 48).phase ≠ .awaited) ∧ (t.streams = s.streams) := by decide +kernel

theorem test_feDeadline :
  let port : Fin 32 := 3
  let vc : Fin 16 := 0
  let w : Nat × Nat := (1, 4)
  let s : State := stz .opened
  let t : State := after (.feDeadline port vc) s
  s.power = .on ∧ ((streamOf s (16 * port.val + vc.val)).win = some w) ∧ ((streamOf s (16 * port.val + vc.val)).cfg.on = true) ∧ ((streamOf s (16 * port.val + vc.val)).phase = .opened) ∧ (w.1 + (streamOf s (16 * port.val + vc.val)).cfg.feDl ≤ s.ridge) ∧ ((streamOf t (16 * port.val + vc.val)).phase = .closed) ∧ (rd t (A.ST_FRAMES (stPage (16 * port.val + vc.val)) (stEntry (16 * port.val + vc.val))) = (rd s (A.ST_FRAMES (stPage (16 * port.val + vc.val)) (stEntry (16 * port.val + vc.val))) + 1) % 4294967296) := by decide +kernel

theorem test_feEarly :
  let port : Fin 32 := 3
  let vc : Fin 16 := 0
  let s : State := stz .awaited
  let t : State := after (.feDeadline port vc) s
  s.power = .on ∧ ((streamOf s 48).phase ≠ .opened) ∧ (t.streams = s.streams) := by decide +kernel

theorem test_tpDeadline :
  let port : Fin 32 := 3
  let vc : Fin 16 := 0
  let w : Nat × Nat := (1, 4)
  let s : State := stz .closed
  let t : State := after (.tpDeadline port vc) s
  s.power = .on ∧ ((streamOf s (16 * port.val + vc.val)).win = some w) ∧ ((streamOf s (16 * port.val + vc.val)).cfg.on = true) ∧ ((streamOf s (16 * port.val + vc.val)).cfg.tpCamera = true) ∧ ((streamOf s (16 * port.val + vc.val)).tpDone = false) ∧ (w.1 + (streamOf s (16 * port.val + vc.val)).cfg.tpDeadline ≤ s.ridge) ∧ ((streamOf t (16 * port.val + vc.val)).tpDone = true) ∧ (rd t (A.ST_TP_FAIL (stPage (16 * port.val + vc.val)) (stEntry (16 * port.val + vc.val))) = min (rd s (A.ST_TP_FAIL (stPage (16 * port.val + vc.val)) (stEntry (16 * port.val + vc.val))) + 1) 0xFFFFFFFF) ∧ (bitN (evtFlags t (0x060 + stPage (16 * port.val + vc.val))) 3 = true) := by decide +kernel

theorem test_tpEarly :
  let port : Fin 32 := 3
  let vc : Fin 16 := 0
  let s : State := csz .awaited
  let t : State := after (.tpDeadline port vc) s
  s.power = .on ∧ ((streamOf s 48).cfg.tpCamera = false) ∧ (t.streams = s.streams) := by decide +kernel

theorem test_streamEnable :
  let agent : Agent := .host
  let port : Fin 32 := 3
  let vc : Fin 16 := 0
  let v : Word := 0
  let s : State := z
  let t : State := after (.streamEnable agent port vc v) s
  s.power = .on ∧ (takesEffect s agent (A.ST_CTL (stPage (16 * port.val + vc.val)) (stEntry (16 * port.val + vc.val))) (v.toNat ||| 1) = true) ∧ (bitN (rdShadow t (A.ST_CTL 1 16)) 0 = false) ∧ (bitN (evtFlags t 0x061) 5 = true) := by decide +kernel

theorem test_camSettings :
  let no : Nat := 1
  let p : RxPod := ctl 2 1 (zeros 24)
  let s : State := withPod z p
  let t : State := after (.camSettings no) s
  s.power = .on ∧ (unitOn s 0x070 = true) ∧ (runningControl s no 2 1 = some p) ∧ (camStatus s p ≠ 0) ∧ (camStatus s p = St.SETTINGS_ID_INVALID) ∧ (t.pods.rx = []) ∧ (bitN (evtFlags t 0x070) 0 = true) := by decide +kernel

theorem test_camSettingsAccepted :
  let no : Nat := 1
  let p : RxPod := { ctl 2 1 ([8, 0, 0, 0, 7, 0, 1, 0] ++ zeros 8 ++ [9] ++ zeros 7) with hdr := { (ctl 2 1 (zeros 24)).hdr with frame := 16 } }
  let s : State := withPod (setSensor (csz .awaited) 3 { cfg := 0x100 }) p
  let t : State := after (.camSettings no) s
  s.power = .on ∧ (unitOn s 0x070 = true) ∧ (runningControl s no 2 1 = some p) ∧ (camStatus s p = 0) ∧ (t.camPods = [{ no := 1, ports := [(3, none)] }]) ∧ ((sensorOf t 3).outstanding = [(16, 12000001)]) ∧ (t.portOut.length = 1) ∧ (rd t (A.CAM_MSG_COUNT 3) = 1) := by decide +kernel

theorem test_controlResponse :
  let port : Fin 32 := 3
  let id : Nat := 9
  let rest : List (Nat × Nat) := []
  let m : CamMsg := { id := 9, pod := 1, settings := 7, applyAt := 0, payload := [], sentAt := 0 }
  let s : State := { withPod (setSensor pz 3 { responses := [(9, 0)], msgs := [m] }) (ctl 2 1 []) with camPods := [{ no := 1, ports := [(3, none)] }] }
  let t : State := after (.controlResponse port) s
  s.power = .on ∧ ((sensorOf s port.val).responses = (id, 0) :: rest) ∧ ((sensorOf s port.val).msgs.find? (fun m => m.id == id) = some m) ∧ (rdF t (A.CAM_STATUS 3) 15 8 = 7) ∧ (t.pods.rx = []) ∧ (t.camPods = []) := by decide +kernel

theorem test_camNack :
  let port : Fin 32 := 3
  let id : Nat := 9
  let res : Nat := 2
  let rest : List (Nat × Nat) := []
  let m : CamMsg := { id := 9, pod := 1, settings := 7, applyAt := 0, payload := [], sentAt := 0 }
  let s : State := setSensor pz 3 { responses := [(9, 2)], msgs := [m] }
  let t : State := after (.controlResponse port) s
  s.power = .on ∧ ((sensorOf s port.val).responses = (id, res) :: rest) ∧ (1 ≤ res) ∧ (res ≤ 2) ∧ ((sensorOf s port.val).msgs.find? (fun m => m.id == id) = some m) ∧ ((sensorOf t port.val).responses = rest) ∧ ((sensorOf t port.val).msgs = (sensorOf s port.val).msgs.filter (fun k => k.id != id)) ∧ (rdF t (A.CAM_STATUS port.val) 31 28 = 1) ∧ (rd t (A.CAM_FAIL_COUNT port.val) = min (rd s (A.CAM_FAIL_COUNT port.val) + 1) 0xFFFFFFFF) ∧ (bitN (evtFlags t 0x070) 1 = true) := by decide +kernel

theorem test_camPassedOver :
  let port : Fin 32 := 3
  let id : Nat := 9
  let res : Nat := 3
  let rest : List (Nat × Nat) := [(1, 1)]
  let s : State := setSensor pz 3 { responses := [(9, 3), (1, 1)] }
  let t : State := after (.controlResponse port) s
  s.power = .on ∧ ((sensorOf s port.val).responses = (id, res) :: rest) ∧ (2 < res ∨ (sensorOf s port.val).msgs.find? (fun m => m.id == id) = none) ∧ ((sensorOf t port.val).responses = rest) ∧ ((sensorOf t port.val).msgs = (sensorOf s port.val).msgs) := by decide +kernel

theorem test_camAckTimeout :
  let port : Fin 32 := 3
  let m : CamMsg := { id := 9, pod := 1, settings := 7, applyAt := 100000001, payload := [], sentAt := 0 }
  let s : State := setSensor { pz with ridge := 100000000 } 3 { msgs := [m] }
  let t : State := after (.camAckTimeout port) s
  s.power = .on ∧ ((sensorOf s port.val).msgs.find? (fun m => decide (m.sentAt + 1000 * rdF s A.CAM_ACK_TIMEOUT 15 0 ≤ s.ridge)) = some m) ∧ (m.resends < rdF s A.CAM_ACK_TIMEOUT 19 16) ∧ (s.ridge ≤ m.applyAt) ∧ (t.portOut = s.portOut ++ sentFrame s port.val (fun sec => .tsf port.val (portAddr s port.val) sec (camBytes s port.val m.id 1 m.settings (gptpTime s m.applyAt) m.payload))) ∧ (rd t (A.CAM_MSG_COUNT port.val) = (rd s (A.CAM_MSG_COUNT port.val) + 1) % 4294967296) ∧ ((sensorOf t port.val).msgs = (sensorOf s port.val).msgs.map (fun k => if k.id = m.id then { k with sentAt := s.ridge, resends := k.resends + 1 } else k)) := by decide +kernel

theorem test_camNoAck :
  let port : Fin 32 := 3
  let m : CamMsg := { id := 9, pod := 1, settings := 7, applyAt := 0, payload := [], sentAt := 0 }
  let s : State := setSensor { pz with ridge := 100000000 } 3 { msgs := [m] }
  let t : State := after (.camAckTimeout port) s
  s.power = .on ∧ ((sensorOf s port.val).msgs.find? (fun m => decide (m.sentAt + 1000 * rdF s A.CAM_ACK_TIMEOUT 15 0 ≤ s.ridge)) = some m) ∧ (rdF s A.CAM_ACK_TIMEOUT 19 16 ≤ m.resends ∨ m.applyAt < s.ridge) ∧ ((sensorOf t port.val).msgs = (sensorOf s port.val).msgs.filter (fun k => k.id != m.id)) ∧ (rdF t (A.CAM_STATUS port.val) 31 28 = 2) ∧ (rd t (A.CAM_FAIL_COUNT port.val) = min (rd s (A.CAM_FAIL_COUNT port.val) + 1) 0xFFFFFFFF) ∧ (bitN (evtFlags t 0x070) 2 = true) ∧ (t.portOut = s.portOut) := by decide +kernel

theorem test_settingsApplyRidge :
  let port : Fin 32 := 3
  let s : State := setSensor { pz with ridge := 5 } 3 { outstanding := [(1, 5), (2, 6)] }
  let t : State := after (.settingsApplyRidge port) s
  s.power = .on ∧ ((sensorOf t 3).outstanding = [(2, 6)]) ∧ (rdF t (A.CAM_STATUS 3) 26 24 = 1) := by decide +kernel

theorem test_gptpSyncSend :
  let port : Fin 32 := 3
  let s : State := wr { pz with ridge := 9 } (A.PORT_GPTP 3) 0x1FD
  let t : State := after (.gptpSyncSend port) s
  s.power = .on ∧ (rdB s (A.PORT_STATUS port.val) 0 = true) ∧ (unitOn s (0x040 + port.val) = true) ∧ (rdB s (A.PORT_GPTP port.val) 8 = true) ∧ ((sensorOf s port.val).syncDue ≤ s.ridge) ∧ (t.portOut = [.sync 3 none 9]) ∧ ((sensorOf t 3).syncDue = 125000009) := by decide +kernel

theorem test_gptpMessageReceive :
  let port : Fin 32 := 3
  let t2 : BitVec 64 := 77
  let s : State := wr { pz with ridge := 9 } (A.PORT_GPTP 3) 0x1FD
  let t : State := after (.gptpMessageReceive port (.pdelayReq t2)) s
  s.power = .on ∧ (rdB s (A.PORT_STATUS port.val) 0 = true) ∧ (unitOn s (0x040 + port.val) = true) ∧ (rdB s (A.PORT_GPTP port.val) 8 = true) ∧ (t.portOut = [.pdelay 3 none 77 9]) := by decide +kernel

theorem test_gptpPdelay :
  let port : Fin 32 := 3
  let t1 : BitVec 64 := 100
  let t2 : BitVec 64 := 5
  let t3 : BitVec 64 := 25
  let t4 : BitVec 64 := 300
  let s : State := wr pz (A.PORT_GPTP 3) 0x1FD
  let t : State := after (.gptpMessageReceive port (.pdelayResp t1 t2 t3 t4)) s
  s.power = .on ∧ (rdB s (A.PORT_STATUS port.val) 0 = true) ∧ (unitOn s (0x040 + port.val) = true) ∧ (rdB s (A.PORT_GPTP port.val) 8 = true) ∧ (rd t (A.PORT_PDELAY 3) = 90) := by decide +kernel

theorem test_gptpOther :
  let port : Fin 32 := 3
  let s : State := pz
  let t : State := after (.gptpMessageReceive port .other) s
  s.power = .on ∧ (t.portOut = s.portOut) := by decide +kernel

theorem test_sensorLinkUp :
  let port : Fin 32 := 31
  let s : State := setSensor z 31 { lastSeq := some 8 }
  let t : State := after (.sensorLinkUp port) s
  s.power = .on ∧ (rdB s (A.PORT_STATUS port.val) 0 = false) ∧ (laneFit s port.val = true) ∧ (rdB t (A.PORT_STATUS 31) 0 = true) ∧ ((sensorOf t 31).lastSeq = none) := by decide +kernel

theorem test_sensorLinkDown :
  let port : Fin 32 := 3
  let cause : LinkCause := .openFibre
  let s : State := pz
  let t : State := after (.sensorLinkDown port cause) s
  s.power = .on ∧ (rdB s (A.PORT_STATUS port.val) 0 = true) ∧ (rd t (A.PORT_STATUS port.val) = 4 * b2n (cause == .openFibre)) ∧ ((sensorOf t port.val).asm = none) ∧ ((secOf t port.val).sa = none) ∧ ((secOf t port.val).old = none) ∧ (bitN (evtFlags t (0x040 + port.val)) 0 = true) ∧ (levelActive t (0x040 + port.val) = true) ∧ (t.fc.inbox = s.fc.inbox ++ [{ source := 0x040 + port.val, status := (match cause with | .openFibre => St.OPEN_FIBRE | .laserFault => St.LASER_FAULT | .other => Config.freeValue s.freeCount % 65536), detail := port.val, detected := s.ridge }]) := by decide +kernel

theorem test_sensorAlreadyDown :
  let port : Fin 32 := 4
  let cause : LinkCause := .laserFault
  let s : State := pz
  let t : State := after (.sensorLinkDown port cause) s
  s.power = .on ∧ (rdB s (A.PORT_STATUS port.val) 0 = false) ∧ (t.fc = s.fc) := by decide +kernel

theorem test_mkaFrameReceive :
  let port : Fin 33 := 3
  let icvOk : Bool := true
  let s : State := setSec (setSensor pz 3 { cfg := 0x10 }) 3 { key := some ([], []), saks := 5 }
  let t : State := after (.mkaFrameReceive port icvOk) s
  s.power = .on ∧ (portKeyed s port.val = true) ∧ (icvOk = true) ∧ ((secOf s port.val).sa = none) ∧ (s.sec.keysStopped = false) ∧ ((secOf t port.val).sa = some { an := (secOf s port.val).saks % 4 }) ∧ ((secOf t port.val).saks = (secOf s port.val).saks + 1) ∧ (t.portOut = s.portOut ++ [.sak port.val ((secOf s port.val).saks % 4)]) ∧ ((port.val < 32 → rdB t (A.PORT_STATUS port.val) 1 = true)) := by decide +kernel

theorem test_mkaRefused :
  let port : Fin 33 := 3
  let icvOk : Bool := true
  let s : State := pz
  let t : State := after (.mkaFrameReceive port icvOk) s
  s.power = .on ∧ (portKeyed s port.val = false ∨ icvOk = false ∨ (secOf s port.val).sa.isSome = true ∨ s.sec.keysStopped = true) ∧ (t.portOut = s.portOut) := by decide +kernel

theorem test_macsecRekey :
  let port : Fin 33 := 3
  let a : MacSa := { an := 0, nextPn := 0xC0000000 }
  let s : State := setSec (setSensor pz 3 { cfg := 0x10 }) 3 { key := some ([], []), saks := 1, sa := some a }
  let t : State := after (.macsecRekey port) s
  s.power = .on ∧ ((secOf s port.val).sa = some a) ∧ (portKeyed s port.val = true) ∧ ((if portXpn s port.val then 4611686018427387904 else 0xC0000000) ≤ max a.nextPn (secOf s port.val).txPn) ∧ (s.sec.keysStopped = false) ∧ ((secOf t port.val).sa = some { an := (secOf s port.val).saks % 4 }) ∧ ((secOf t port.val).old = some (a, s.ridge + 3000000000)) ∧ (t.portOut = s.portOut ++ [.sak port.val ((secOf s port.val).saks % 4)]) := by decide +kernel

theorem test_oldSaExpire :
  let port : Fin 33 := 3
  let o : MacSa := { an := 0 }
  let w : Nat := 4
  let s : State := setSec { z with ridge := 4 } 3 { sa := some { an := 1 }, old := some (o, 4) }
  let t : State := after (.oldSaExpire port) s
  s.power = .on ∧ ((secOf s port.val).old = some (o, w)) ∧ (w ≤ s.ridge) ∧ ((secOf t port.val).old = none) ∧ ((secOf t port.val).sa = (secOf s port.val).sa) := by decide +kernel

theorem test_pipeLine :
  let q : Fin 16 := 3
  let e1 : Word := 0
  let e2 : Word := 0
  let l : Line := { stream := 0, frame := 4, index := 0, flags := 0, settings := 0, fmt := 0x2B, width := 2, lines := 4, pad := 0, px := none, valid := 2, start := 0, test := false }
  let rest : List Line := []
  let n : Nat := 0
  let s : State := setPipeQueue (wr z (A.SL_CTL 3 0) 1) 3 [l]
  let t : State := after (.pipeLine q e1 e2) s
  s.power = .on ∧ (pipeQueue s q.val = l :: rest) ∧ (lineWaits s q.val l = false) ∧ (l.emb = none) ∧ (unitOn s (0x080 + 2 * q.val) = true) ∧ (slotTaking s q.val l = some n) ∧ (l.test = false) ∧ (l.index = 0) ∧ (1 < l.lines) ∧ (pipeQueue t q.val = rest) ∧ ((slotOf t q.val n).cfg = slotLive s q.val n) ∧ ((slotOf t q.val n).frame = l.frame) ∧ ((slotOf t q.val n).busy = true) ∧ ((slotOf t q.val n).rows = [l]) ∧ ((slotOf t q.val n).stats = unitOn s 0x0A8) ∧ (rdB t (A.SL_STATUS q.val n) 0 = true) := by decide +kernel

theorem test_pipeMiddle :
  let q : Fin 16 := 3
  let e1 : Word := 0
  let e2 : Word := 0
  let l : Line := { stream := 0, frame := 4, index := 1, flags := 0, settings := 0, fmt := 0x2B, width := 2, lines := 4, pad := 0, px := none, valid := 2, start := 0, test := false }
  let rest : List Line := []
  let n : Nat := 0
  let s : State := setSlot (setPipeQueue z 3 [l]) 3 0 { busy := true, cfg := [1], frame := 4, rows := [] }
  let t : State := after (.pipeLine q e1 e2) s
  s.power = .on ∧ (pipeQueue s q.val = l :: rest) ∧ (lineWaits s q.val l = false) ∧ (l.emb = none) ∧ (slotTaking s q.val l = some n) ∧ (l.test = false) ∧ (0 < l.index) ∧ (l.index + 1 < l.lines) ∧ ((slotOf t 3 0).rows = [l]) ∧ (pipeQueue t 3 = []) := by decide +kernel

theorem test_pipeLast :
  let q : Fin 16 := 3
  let e1 : Word := 0
  let e2 : Word := 0
  let l : Line := { stream := 0, frame := 4, index := 3, flags := 0, settings := 0, fmt := 0x2B, width := 2, lines := 4, pad := 0, px := none, valid := 2, start := 0, test := false }
  let rest : List Line := []
  let n : Nat := 0
  let s : State := setSlot (setPipeQueue z 3 [l]) 3 0 { busy := true, cfg := [1], frame := 4, rows := [] }
  let t : State := after (.pipeLine q e1 e2) s
  s.power = .on ∧ (pipeQueue s q.val = l :: rest) ∧ (lineWaits s q.val l = false) ∧ (l.emb = none) ∧ (slotTaking s q.val l = some n) ∧ (l.test = false) ∧ (0 < l.index) ∧ (l.index + 1 = l.lines) ∧ (pipeQueue t q.val = rest) ∧ ((slotOf t q.val n).busy = false) ∧ ((slotOf t q.val n).rows = []) ∧ (t.statQ = s.statQ ++ (if (slotOf s q.val n).stats then (statPods (slotOf s q.val n).cfg ((slotOf s q.val n).rows ++ [l]) l).map (fun p => (4 * q.val + n, p)) else [])) ∧ (rd t (A.SL_FRAMES q.val n) = (rd s (A.SL_FRAMES q.val n) + 1) % 4294967296) := by decide +kernel

theorem test_pipeTest :
  let q : Fin 16 := 3
  let e1 : Word := 0
  let e2 : Word := 5
  let l : Line := { stream := 0, frame := 4, index := 4, flags := 0, settings := 0, fmt := 0x2B, width := 2, lines := 4, pad := 0, px := none, valid := 2, start := 0, test := true }
  let rest : List Line := []
  let n : Nat := 0
  let s : State := setSlot (setPipeQueue z 3 [l]) 3 0 { busy := false, cfg := [1], frame := 4, rows := [] }
  let t : State := after (.pipeLine q e1 e2) s
  s.power = .on ∧ (pipeQueue s q.val = l :: rest) ∧ (lineWaits s q.val l = false) ∧ (l.emb = none) ∧ (slotTaking s q.val l = some n) ∧ (l.test = true) ∧ (rd t (A.PIPE_TL_FAIL_COUNT 3) = 1) ∧ (bitN (evtFlags t 0x086) 2 = true) ∧ (pipeQueue t 3 = []) := by decide +kernel

theorem test_pipeNoSlot :
  let q : Fin 16 := 3
  let e1 : Word := 0
  let e2 : Word := 0
  let l : Line := { stream := 0, frame := 4, index := 0, flags := 0, settings := 0, fmt := 0x2B, width := 2, lines := 4, pad := 0, px := none, valid := 2, start := 0, test := false }
  let rest : List Line := []
  let s : State := setPipeQueue z 3 [l]
  let t : State := after (.pipeLine q e1 e2) s
  s.power = .on ∧ (pipeQueue s q.val = l :: rest) ∧ (lineWaits s q.val l = false) ∧ (l.emb = none) ∧ (unitOn s (0x080 + 2 * q.val) = true) ∧ (slotTaking s q.val l = none) ∧ (pipeQueue t q.val = rest) ∧ (t.slots = s.slots) ∧ (rd t (A.PIPE_NOSLOT_COUNT q.val) = min (rd s (A.PIPE_NOSLOT_COUNT q.val) + 1) 0xFFFFFFFF) ∧ (bitN (evtFlags t (0x080 + 2 * q.val)) 5 = true) := by decide +kernel

theorem test_pipeDiscards :
  let q : Fin 16 := 3
  let e1 : Word := 0
  let e2 : Word := 0
  let l : Line := { stream := 0, frame := 4, index := 1, flags := 0, settings := 0, fmt := 0x2B, width := 2, lines := 4, pad := 0, px := none, valid := 2, start := 0, test := false, emb := some [7] }
  let rest : List Line := []
  let s : State := setPipeQueue z 3 [l]
  let t : State := after (.pipeLine q e1 e2) s
  s.power = .on ∧ (pipeQueue s q.val = l :: rest) ∧ (lineWaits s q.val l = false) ∧ (l.emb.isSome = true ∨ (unitOn s (0x080 + 2 * q.val) = false ∧ ((l.index = 0 ∧ l.test = false) ∨ slotTaking s q.val l = none))) ∧ (pipeQueue t 3 = []) := by decide +kernel

theorem test_pipeWaits :
  let q : Fin 16 := 3
  let e1 : Word := 0
  let e2 : Word := 0
  let l : Line := { stream := 0, frame := 4, index := 1, flags := 0, settings := 0, fmt := 0x2B, width := 2, lines := 4, pad := 0, px := none, valid := 2, start := 0, test := false }
  let rest : List Line := []
  let s : State := setSlot (setPipeQueue fillz 3 [l]) 3 0 { busy := true, cfg := [1] ++ List.replicate 43 0 ++ [0, 0x10, 64, 64, 0, 0, 0x10, 64, 0], frame := 4, rows := [] }
  let t : State := after (.pipeLine q e1 e2) s
  s.power = .on ∧ (pipeQueue s q.val = l :: rest) ∧ (lineWaits s q.val l = true) ∧ (t.pipeQ = s.pipeQ) := by decide +kernel

theorem test_statisticsPod :
  let q : Fin 16 := 2
  let slot : Fin 4 := 1
  let s : State := { wr (wr z A.DSP_RING_SEL 0x20) (A.RING_CFG 2) 0x1F with statQ := [(9, outP), (8, outP)] }
  let t : State := after (.statisticsPod q slot) s
  s.power = .on ∧ (t.statQ = [(8, outP)]) ∧ (rd t (A.STE_COUNT 9) = 1) ∧ ((ringOf t 2).queue.map (·.pod) = [outP]) := by decide +kernel

theorem test_ppFormationStart :
  let l : Nat := 0
  let k : Nat := 0
  let s : State := setFg { wr (wr z (A.FG_CTL 0) 1) A.PP_CTL 1 with ridge := 900000000 } 0 { first := 0, cur := 0, running := [] }
  let t : State := after .ppFormationStart s
  s.power = .on ∧ (ppNext s = some (l, k)) ∧ (s.pp.forming = none) ∧ (rdB s A.PP_CTL 0 = true) ∧ (unitOn s 0x0A0 = true) ∧ ((ppWindow s l).2 + 1000 * (rdF s A.PP_GUARD 15 0 : Int) ≤ s.ridge) ∧ (t.pp = { s.pp with forming := some (l, k, strict s || rdB s A.PP_CTL 2), startedAt := s.ridge, last := some l }) ∧ (rd t A.PP_STATUS = 1 + 2 * b2n (strict s || rdB s A.PP_CTL 2)) := by decide +kernel

theorem test_ppNotYet :
  let l : Nat := 0
  let k : Nat := 0
  let s : State := setFg { wr z (A.FG_CTL 0) 1 with ridge := 900000000 } 0 { first := 0, cur := 0, running := [] }
  let t : State := after .ppFormationStart s
  s.power = .on ∧ (ppNext s = some (l, k)) ∧ (rdB s A.PP_CTL 0 = false) ∧ (t.pp = s.pp) := by decide +kernel

theorem test_ppFormationDone :
  let f : Nat × Nat × Bool := (0, 0, false)
  let s : State := { z with pp := { forming := some (0, 0, false), late := 3 } }
  let t : State := after .ppFormationDone s
  s.power = .on ∧ (s.pp.forming = some f) ∧ (encWaits s (rdWide s A.PP_OUT_BASE_LO) (ppOutBytes s) = false) ∧ (t.pp.forming = none) ∧ (t.pp.late = 0) ∧ (t.pp.overflow = false) ∧ (t.pp.last = s.pp.last) ∧ (t.pp.points = s.pp.points.filter (fun p => decide ((ppWindow s (f.1 + fgPeriod s (rdF s A.PP_CTL 5 3))).1 ≤ p.stamp))) ∧ (rd t A.PP_LAST_POINTS = (s.pp.points.filter (fun p => decide ((ppWindow s f.1).1 ≤ p.stamp ∧ (p.stamp : Int) < (ppWindow s f.1).2) && bitN (rd s A.PP_SOURCES) p.port)).length % 4294967296) ∧ (rdB t A.PP_STATUS 0 = false) ∧ (bitN (evtFlags t 0x0A0) 0 = true) ∧ ((s.pp.overflow = true → { source := 0x0C0, status := St.POINTS_OVERFLOW, cls := rdF s A.PP_CTL 7 6, detected := s.ridge } ∈ t.fc.inbox)) := by decide +kernel

theorem test_batchSubmit :
  let no : Nat := 1
  let p : RxPod := { ctl 5 1 ([1] ++ zeros 63) with hdr := { (ctl 5 1 (zeros 64)).hdr with kind := 3 } }
  let s : State := withPod z p
  let t : State := after (.batchSubmit no) s
  s.power = .on ∧ (unitOn s 0x0C0 = true) ∧ (podAt s no = some p) ∧ (p.stage = .running) ∧ (p.taken = false) ∧ (p.hdr.kind = 3) ∧ (p.hdr.operation = 1) ∧ ((p.hdr.target % 256) < 64) ∧ (batchNext s p = true) ∧ ((dqOf t 5).items.length = 1) ∧ (rdF t (A.DQ_DEPTH 0 5) 8 0 = 1) := by decide +kernel

theorem test_batchWaits :
  let no : Nat := 1
  let p : RxPod := { ctl 5 1 ([1] ++ zeros 63) with hdr := { (ctl 5 1 (zeros 64)).hdr with kind := 3 } }
  let s : State := { z with pods := { z.pods with rx := [{ p with no := 0 }, p] } }
  let t : State := after (.batchSubmit no) s
  s.power = .on ∧ (podAt s no = some p) ∧ (batchNext s p = false) ∧ (t.pods = s.pods) := by decide +kernel

theorem test_queueReset :
  let no : Nat := 1
  let p : RxPod := { ctl 5 2 [] with hdr := { (ctl 5 2 []).hdr with kind := 3 } }
  let s : State := withPod (setDq z 5 { valid := true, refs := [4] }) p
  let t : State := after (.queueReset no) s
  s.power = .on ∧ (unitOn s 0x0C0 = true) ∧ (podAt s no = some p) ∧ (p.stage = .running) ∧ (p.taken = false) ∧ (p.hdr.kind = 3) ∧ (p.hdr.operation = 2) ∧ ((p.hdr.target % 256) < 64) ∧ (batchNext s p = true) ∧ ((dqOf s (p.hdr.target % 256)).items = []) ∧ ((dqOf t 5).valid = false) ∧ ((dqOf t 5).refs = []) ∧ (t.pods.rx = []) := by decide +kernel

theorem test_resetWaits :
  let no : Nat := 1
  let p : RxPod := { ctl 5 2 [] with hdr := { (ctl 5 2 []).hdr with kind := 3 } }
  let s : State := withPod (setDq z 5 { items := [{ camera := false, pod := 1, pea := 0, form := 3, addr := 0x1000000000, len := 8, frame := 3, deadline := 0, out := 0x1000100000, tag := 0x1000200000, cls := 2, seq := 5, last := true }] }) p
  let t : State := after (.queueReset no) s
  s.power = .on ∧ (podAt s no = some p) ∧ (batchNext s p = false ∨ (dqOf s (p.hdr.target % 256)).items ≠ []) ∧ (t.pods = s.pods) := by decide +kernel

theorem test_decodeConfigApply :
  let q : Fin 64 := 5
  let s : State := wr (wr (wr (wr (wr z (A.DQ_CTL 0 5) 1) (A.DQ_MAXDIM 0 5) 0x100010) (A.DQ_OUTDIM 0 5) 0x100010) (A.DQ_SLOT 0 5) 0x10000) (A.DQ_MAXBYTES 0 5) 4096
  let t : State := after (.decodeConfigApply q) s
  s.power = .on ∧ ((dqOf s q.val).began = none) ∧ ((dqAddrs q.val).map (rd s) ≠ dqCfg s q.val) ∧ (dqConfigOk s ((dqAddrs q.val).map (rd s)) = true) ∧ ((dqOf t q.val).cfg = some ((dqAddrs q.val).map (rd s))) ∧ ((dqOf t q.val).items = (dqOf s q.val).items) ∧ (rdB t (A.DQ_STATUS (q.val / 16) (q.val % 16)) 2 = false) ∧ ((dqOf t q.val).valid = ((dqOf s q.val).valid && (dqContextKey (dqCfg s q.val) == dqContextKey ((dqAddrs q.val).map (rd s)) && (dqOn (dqCfg s q.val) || !dqOn ((dqAddrs q.val).map (rd s)))))) ∧ (rd t (A.DQ_SLOT_DATA (q.val / 16) (q.val % 16)) = dqSlotData ((dqAddrs q.val).map (rd s)) % 4294967296) := by decide +kernel

theorem test_decodeConfigRejected :
  let q : Fin 64 := 5
  let s : State := wr z (A.DQ_CTL 0 5) 0x31
  let t : State := after (.decodeConfigApply q) s
  s.power = .on ∧ ((dqOf s q.val).began = none) ∧ ((dqAddrs q.val).map (rd s) ≠ dqCfg s q.val) ∧ (dqConfigOk s ((dqAddrs q.val).map (rd s)) = false) ∧ ((dqCfg s q.val).length = 12) ∧ ((dqCfg s q.val).all (fun w => decide (w < 4294967296)) = true) ∧ ((dqAddrs q.val).map (rd t) = dqCfg s q.val) ∧ (t.decq = s.decq) ∧ (rdB t (A.DQ_STATUS (q.val / 16) (q.val % 16)) 2 = true) ∧ (bitN (evtFlags t 0x0C0) 2 = true) := by decide +kernel

theorem test_decodeConfigKept :
  let q : Fin 64 := 5
  let s : State := setDq z 5 { began := some 3 }
  let t : State := after (.decodeConfigApply q) s
  s.power = .on ∧ ((dqOf s q.val).began ≠ none ∨ (dqAddrs q.val).map (rd s) = dqCfg s q.val) ∧ ((dqOf t 5).began = some 3) := by decide +kernel

theorem test_decodeSampleStart :
  let q : Fin 64 := 5
  let hdr : SampleHeaders := { av1 := false, parses := true, unsupported := false, sets := [], uses := 0, size := none, key := true, refs := [], kept := [], names := [] }
  let u : State := dqApply (setDq { wr z (A.DQ_CTL 0 5) 1 with ridge := 7 } 5 { items := [{ camera := false, pod := 1, pea := 0, form := 2, addr := 0x1000000000, len := 8, frame := 3, deadline := 0, out := 0x1000100000, tag := 0x1000200000, cls := 2, seq := 5, last := true }], cfg := some ((dqAddrs 5).map (rd (wr z (A.DQ_CTL 0 5) 1))) }) 5
  let x : Sample := { camera := false, pod := 1, pea := 0, form := 2, addr := 0x1000000000, len := 8, frame := 3, deadline := 0, out := 0x1000100000, tag := 0x1000200000, cls := 2, seq := 5, last := true }
  let rest : List Sample := []
  let s : State := setDq { wr z (A.DQ_CTL 0 5) 1 with ridge := 7 } 5 { items := [x], cfg := some ((dqAddrs 5).map (rd (wr z (A.DQ_CTL 0 5) 1))) }
  let t : State := after (.decodeSampleStart q hdr) s
  s.power = .on ∧ ((dqOf u 5).items = x :: rest) ∧ (dqOn (dqCfg u 5) = true) ∧ ((dqOf u 5).began = none) ∧ (coresBusy s = 0) ∧ (dqWaits s 5 = false) ∧ (dqExpired u 5 x = false) ∧ ((dqOf t q.val).items = x :: rest) ∧ ((dqOf t q.val).began = some s.ridge) ∧ ((dqOf t q.val).rap = (x.form == 1 && hdr.key)) ∧ ((dqOf t q.val).after = refsAfter (dqOf u q.val) hdr) ∧ ((dqOf t q.val).sets = (if x.form = 1 then setsAfter (dqOf u q.val).sets hdr else (dqOf u q.val).sets)) ∧ (rd t A.DEC_STATUS = coresBusy t) := by decide +kernel

theorem test_decodeVoid :
  let q : Fin 64 := 5
  let hdr : SampleHeaders := { av1 := false, parses := true, unsupported := false, sets := [], uses := 0, size := none, key := true, refs := [], kept := [], names := [] }
  let u : State := dqApply (setDq { wr z (A.DQ_CTL 0 5) 1 with ridge := 7 } 5 { items := [{ camera := false, pod := 1, pea := 0, form := 3, addr := 0x1000000000, len := 8, frame := 3, deadline := 0, out := 0x1000100000, tag := 0x1000200000, cls := 2, seq := 5, last := false }], cfg := some ((dqAddrs 5).map (rd (wr z (A.DQ_CTL 0 5) 1))) }) 5
  let x : Sample := { camera := false, pod := 1, pea := 0, form := 3, addr := 0x1000000000, len := 8, frame := 3, deadline := 0, out := 0x1000100000, tag := 0x1000200000, cls := 2, seq := 5, last := false }
  let rest : List Sample := []
  let s : State := setDq { wr z (A.DQ_CTL 0 5) 1 with ridge := 7 } 5 { items := [x], cfg := some ((dqAddrs 5).map (rd (wr z (A.DQ_CTL 0 5) 1))) }
  let t : State := after (.decodeSampleStart q hdr) s
  s.power = .on ∧ ((dqOf u 5).items = x :: rest) ∧ (dqOn (dqCfg u 5) = true) ∧ ((dqOf u 5).began = none) ∧ (coresBusy s = 0) ∧ (dqWaits s 5 = false) ∧ ((dqOf t 5).items = []) ∧ (rd t A.DEC_VOID_COUNT = 1) ∧ (rdF t (A.DQ_STATUS 0 5) 31 16 = St.PEA_SKIPPED) := by decide +kernel

theorem test_decodeUnread :
  let q : Fin 64 := 5
  let hdr : SampleHeaders := { av1 := false, parses := true, unsupported := false, sets := [], uses := 0, size := none, key := true, refs := [], kept := [], names := [] }
  let u : State := dqApply (setDq { wr z (A.DQ_CTL 0 5) 1 with ridge := 7 } 5 { items := [{ camera := false, pod := 1, pea := 0, form := 2, len := 8, frame := 3, deadline := 0, out := 0x1000100000, tag := 0x1000200000, cls := 2, seq := 5, last := false, addr := 0x3000000000 }], cfg := some ((dqAddrs 5).map (rd (wr z (A.DQ_CTL 0 5) 1))) }) 5
  let x : Sample := { camera := false, pod := 1, pea := 0, form := 2, len := 8, frame := 3, deadline := 0, out := 0x1000100000, tag := 0x1000200000, cls := 2, seq := 5, last := false, addr := 0x3000000000 }
  let rest : List Sample := []
  let s : State := setDq { wr z (A.DQ_CTL 0 5) 1 with ridge := 7 } 5 { items := [x], cfg := some ((dqAddrs 5).map (rd (wr z (A.DQ_CTL 0 5) 1))) }
  let t : State := after (.decodeSampleStart q hdr) s
  s.power = .on ∧ ((dqOf u 5).items = x :: rest) ∧ (dqOn (dqCfg u 5) = true) ∧ ((dqOf u 5).began = none) ∧ (coresBusy s = 0) ∧ (dqWaits s 5 = false) ∧ ((memRead (setDq u 5 { dqOf u 5 with began := some s.ridge }) .decode x.addr x.len x.cls (echo := x.seq)).1 ≠ 0) ∧ ((dqOf t 5).items = []) ∧ (rd t A.DEC_VOID_COUNT = 1) := by decide +kernel

theorem test_decodeCheckFails :
  let q : Fin 64 := 5
  let hdr : SampleHeaders := { av1 := false, parses := true, unsupported := false, sets := [], uses := 0, size := none, key := true, refs := [], kept := [], names := [] }
  let u : State := dqApply (setDq { wr z (A.DQ_CTL 0 5) 1 with ridge := 7 } 5 { items := [{ camera := false, pod := 1, pea := 0, form := 1, addr := 0x1000000000, len := 8, frame := 3, deadline := 0, out := 0x1000100000, tag := 0x1000200000, cls := 2, seq := 5, last := false }], cfg := some ((dqAddrs 5).map (rd (wr z (A.DQ_CTL 0 5) 1))) }) 5
  let x : Sample := { camera := false, pod := 1, pea := 0, form := 1, addr := 0x1000000000, len := 8, frame := 3, deadline := 0, out := 0x1000100000, tag := 0x1000200000, cls := 2, seq := 5, last := false }
  let rest : List Sample := []
  let s : State := setDq { wr z (A.DQ_CTL 0 5) 1 with ridge := 7 } 5 { items := [x], cfg := some ((dqAddrs 5).map (rd (wr z (A.DQ_CTL 0 5) 1))) }
  let t : State := after (.decodeSampleStart q hdr) s
  s.power = .on ∧ ((dqOf u 5).items = x :: rest) ∧ (dqOn (dqCfg u 5) = true) ∧ ((dqOf u 5).began = none) ∧ (coresBusy s = 0) ∧ (dqWaits s 5 = false) ∧ (sampleStatus (dqCfg u 5) (dqOf u 5) hdr = St.DECODE_STREAM_ERROR) ∧ ((dqOf t 5).items = []) ∧ (rdF t (A.DQ_STATUS 0 5) 31 16 = St.DECODE_STREAM_ERROR) := by decide +kernel

theorem test_decodeSampleDone :
  let q : Fin 64 := 5
  let pic : Option Picture := some { y := [], cb := [], cr := [] }
  let x : Sample := { camera := false, pod := 1, pea := 0, form := 1, addr := 0x1000000000, len := 8, frame := 3, deadline := 9, out := 0x1000100000, tag := 0x1000200000, cls := 2, seq := 5, last := false }
  let b : Nat := 4
  let s : State := setDq { z with ridge := 9 } 5 { items := [x], began := some 4, luma := 12, after := [3], cfg := (some [1, 0x100010, 0, 64, 0, 0, 0, 0, 0, 0, 0, 0]) }
  let t : State := after (.decodeSampleDone q pic) s
  s.power = .on ∧ ((dqOf s 5).items = [x]) ∧ ((dqOf s 5).began = some b) ∧ (replaying s = false) ∧ (dqDeadline (dqCfg s 5) (dqOf s 5) x = some 9) ∧ ((dqOf t 5).items = []) ∧ ((dqOf t 5).valid = true) ∧ ((dqOf t 5).refs = [3]) := by decide +kernel

theorem test_decodeError :
  let q : Fin 64 := 5
  let pic : Option Picture := none
  let x : Sample := { camera := false, pod := 1, pea := 0, form := 1, addr := 0x1000000000, len := 8, frame := 3, deadline := 9, out := 0x1000100000, tag := 0x1000200000, cls := 2, seq := 5, last := false }
  let b : Nat := 4
  let s : State := setDq { z with ridge := 9 } 5 { items := [x], began := some 4, valid := true, cfg := (some [1, 0x100010, 0, 64, 0, 0, 0, 0, 0, 0, 0, 0]) }
  let t : State := after (.decodeSampleDone q pic) s
  s.power = .on ∧ ((dqOf s 5).items = [x]) ∧ ((dqOf s 5).began = some b) ∧ (replaying s = false) ∧ (dqDeadline (dqCfg s 5) (dqOf s 5) x = some 9) ∧ ((dqOf t 5).items = []) ∧ ((dqOf t 5).valid = false) ∧ ((dqOf t 5).partly = true) := by decide +kernel

theorem test_decodeRaw :
  let q : Fin 64 := 5
  let pic : Option Picture := none
  let x : Sample := { camera := false, pod := 1, pea := 0, form := 2, addr := 0x1000000000, len := 8, frame := 3, deadline := 9, out := 0x1000100000, tag := 0x1000200000, cls := 2, seq := 5, last := true }
  let b : Nat := 4
  let s : State := setDq { z with ridge := 9 } 5 { items := [x], began := some 4, valid := true, cfg := (some [1, 0x100010, 0, 64, 0, 0, 0, 0, 0, 0, 0, 0]) }
  let t : State := after (.decodeSampleDone q pic) s
  s.power = .on ∧ ((dqOf s 5).items = [x]) ∧ ((dqOf s 5).began = some b) ∧ (replaying s = false) ∧ (dqDeadline (dqCfg s 5) (dqOf s 5) x = some 9) ∧ ((dqOf t 5).items = []) ∧ ((dqOf t 5).valid = false) := by decide +kernel

theorem test_decodeDeadline :
  let q : Fin 64 := 5
  let x : Sample := { camera := false, pod := 1, pea := 0, form := 1, addr := 0x1000000000, len := 8, frame := 3, deadline := 9, out := 0x1000100000, tag := 0x1000200000, cls := 2, seq := 5, last := false }
  let rest : List Sample := []
  let s : State := setDq { z with ridge := 9 } 5 { items := [x], cfg := (some [1, 0x100010, 0, 64, 0, 0, 0, 0, 0, 0, 0, 0]) }
  let t : State := after (.decodeDeadline q) s
  s.power = .on ∧ ((dqOf s q.val).items = x :: rest) ∧ (dqExpired s q.val x = true) ∧ (dqWaits s q.val = false) ∧ ((dqOf t 5).items = []) ∧ (rd t A.DEC_DEADLINE_COUNT = 1) ∧ (rd t A.DEC_VOID_COUNT = 1) := by decide +kernel

theorem test_decodeNotYet :
  let q : Fin 64 := 5
  let s : State := z
  let t : State := after (.decodeDeadline q) s
  s.power = .on ∧ ((dqOf s 5).items = []) ∧ (t.decq = s.decq) := by decide +kernel

theorem test_arrayIssue :
  let ex : BitVec 32 := 7
  let x : Instance := oneInst (runJob 0)
  let j : JobRun := runJob 0
  let k : Nat := 0
  let desc : List Byte := arrDesc
  let blk : List Byte := []
  let m : List (Nat × Nat) := [(0, 0)]
  let v : State := (readBlocks (readDescs (jz 0 arrDesc) 0 [0x1000000000] 128 2 0).2.2 0 [arrDesc] 2 0).2.2
  let tags : List Tag := [parseTag 0]
  let w : State := (issueInputs (issueEntered v x j k desc blk m) [issuedOp (jz 0 arrDesc) x j k desc blk m]).2.2
  let s : State := jz 0 arrDesc
  let t : State := after (.arrayIssue ex 1) s
  s.power = .on ∧ (findExec s 7 = some (x, j)) ∧ (coreStalled s 3 = false) ∧ (jobAwake s j = true) ∧ (j.entry.unit ≤ 4) ∧ ((issuable s x j).head? = some k) ∧ (encWaits s 0x1000000000 128 = false) ∧ ((readDescs s 0 [0x1000000000] 128 2 0).1 = 0) ∧ ((readDescs s 0 [0x1000000000] 128 2 0).2.1 = [desc]) ∧ (validateIssue v 0 2 [(desc, blk)] = 0) ∧ (pegStatus v (parseArr desc).outPeg = 0) ∧ (substitute v 0 (arraysOf (parseArr desc)) = some m) ∧ (issueWaits v 0 (m.map (·.2)) [parseArr desc] = false) ∧ (issueFree (issueEntered v x j k desc blk m) [issuedOp s x j k desc blk m] = true) ∧ (opBlocked s (issuedOp s x j k desc blk m) = false) ∧ ((issueInputs (issueEntered v x j k desc blk m) [issuedOp s x j k desc blk m]).1 = 0) ∧ ((issueInputs (issueEntered v x j k desc blk m) [issuedOp s x j k desc blk m]).2.1 = [tags]) ∧ (w.ridge = 0) ∧ (rollOperands desc (arrOperands (parseArr desc)) = []) ∧ ((parseArr desc).aGen = false) ∧ ((t.ops.map (fun o => (o.exec, o.index, o.desc == arrDesc, o.stage))) = [(7, 0, true, .running)]) ∧ ((findExec t 7).map (fun y => y.2.issued) = some [0]) ∧ ((arrUnit t 0 0).target = 16) := by decide +kernel

theorem test_arrayQueued :
  let ex : BitVec 32 := 7
  let x : Instance := oneInst (runJob 0)
  let j : JobRun := runJob 0
  let k : Nat := 0
  let desc : List Byte := arrDesc
  let blk : List Byte := []
  let m : List (Nat × Nat) := [(0, 0)]
  let v : State := (readBlocks (readDescs ({ jz 0 arrDesc with ops := [{ arrOp with exec := 6 }] }) 0 [0x1000000000] 128 2 0).2.2 0 [arrDesc] 2 0).2.2
  let s : State := { jz 0 arrDesc with ops := [{ arrOp with exec := 6 }] }
  let t : State := after (.arrayIssue ex 1) s
  s.power = .on ∧ (findExec s 7 = some (x, j)) ∧ (coreStalled s 3 = false) ∧ (jobAwake s j = true) ∧ (j.entry.unit ≤ 4) ∧ ((issuable s x j).head? = some k) ∧ (encWaits s 0x1000000000 128 = false) ∧ ((readDescs s 0 [0x1000000000] 128 2 0).1 = 0) ∧ ((readDescs s 0 [0x1000000000] 128 2 0).2.1 = [desc]) ∧ (validateIssue v 0 2 [(desc, blk)] = 0) ∧ (pegStatus v (parseArr desc).outPeg = 0) ∧ (substitute v 0 (arraysOf (parseArr desc)) = some m) ∧ (issueWaits v 0 (m.map (·.2)) [parseArr desc] = false) ∧ (issueFree (issueEntered v x j k desc blk m) [issuedOp s x j k desc blk m] = false) ∧ ((t.ops.map (fun o => (o.id, o.stage))) = [(5, .running), (11, .queued)]) ∧ ((findExec t 7).map (fun y => y.2.issued) = some [0]) := by decide +kernel

theorem test_arrayIssueWaits :
  let ex : BitVec 32 := 7
  let x : Instance := oneInst (runJob 0)
  let j : JobRun := runJob 0
  let k : Nat := 0
  let desc : List Byte := arrDesc
  let blk : List Byte := []
  let m : List (Nat × Nat) := [(0, 0)]
  let v : State := (readBlocks (readDescs ({ jz 0 arrDesc with ops := [{ arrOp with stage := .queued }] }) 0 [0x1000000000] 128 2 0).2.2 0 [arrDesc] 2 0).2.2
  let s : State := { jz 0 arrDesc with ops := [{ arrOp with stage := .queued }] }
  let t : State := after (.arrayIssue ex 1) s
  s.power = .on ∧ (findExec s 7 = some (x, j)) ∧ (coreStalled s 3 = false) ∧ (jobAwake s j = true) ∧ (j.entry.unit ≤ 4) ∧ ((issuable s x j).head? = some k) ∧ (encWaits s 0x1000000000 128 = false) ∧ ((readDescs s 0 [0x1000000000] 128 2 0).1 = 0) ∧ ((readDescs s 0 [0x1000000000] 128 2 0).2.1 = [desc]) ∧ (validateIssue v 0 2 [(desc, blk)] = 0) ∧ (pegStatus v (parseArr desc).outPeg = 0) ∧ (substitute v 0 (arraysOf (parseArr desc)) = some m) ∧ (issueWaits v 0 (m.map (·.2)) [parseArr desc] = true) ∧ (t.ops = s.ops) := by decide +kernel

theorem test_weightTileLoad :
  let op : Nat := 5
  let kt : Nat := 0
  let nt : Nat := 0
  let fault : Option LoadFault := some .eccCorrected
  let o : Op := arrOp
  let tl : WTile := (loadTile (oz arrOp) arrOp (parseArr arrDesc) 0 0).2.1
  let s : State := oz arrOp
  let t : State := after (.weightTileLoad op kt nt { fault := fault }) s
  s.power = .on ∧ (opOf s 5 = some o) ∧ (o.stage = .running) ∧ (opWaits s o (arrOperands (parseArr o.desc)) = false) ∧ ((loadTile (bumpSat s (A.ARR_WECC_CORR 0 0) 1) o (parseArr o.desc) 0 0).1 = 0) ∧ (((opOf t 5).map (·.tiles)) = some [tl]) ∧ (rd t (A.ARR_WECC_CORR 0 0) = 1) := by decide +kernel

theorem test_weightUncorrectable :
  let op : Nat := 5
  let kt : Nat := 0
  let nt : Nat := 0
  let o : Op := arrOp
  let s : State := wr (oz arrOp) A.FC_REEXEC_CFG 1
  let t : State := after (.weightTileLoad op kt nt { fault := some .eccUncorrectable }) s
  s.power = .on ∧ (opOf s 5 = some o) ∧ (o.stage = .running) ∧ (opWaits s o (arrOperands (parseArr o.desc)) = false) ∧ (o.retries < retryLimit s) ∧ (opLive s o = true) ∧ ((opOf t 5).map (·.stage) = some (.failed St.WEIGHT_ECC_UNCORRECTABLE)) ∧ (rd t (A.ARR_WECC_UNCORR 0 0) = 1) := by decide +kernel

theorem test_weightMismatch :
  let op : Nat := 5
  let kt : Nat := 0
  let nt : Nat := 0
  let o : Op := arrOp
  let s : State := wr (oz arrOp) A.FC_REEXEC_CFG 1
  let t : State := after (.weightTileLoad op kt nt { fault := some .decodeMismatch }) s
  s.power = .on ∧ (opOf s 5 = some o) ∧ (o.stage = .running) ∧ (opWaits s o (arrOperands (parseArr o.desc)) = false) ∧ (o.retries < retryLimit s) ∧ (opLive s o = true) ∧ ((opOf t 5).map (·.stage) = some (.failed St.LOADER_MISMATCH)) ∧ (bitN (evtFlags t 0x104) 1 = true) := by decide +kernel

theorem test_arrayTileDone :
  let op : Nat := 5
  let o : Op := { arrOp with tiles := [{ kt := 0, nt := 0, rows := [[([0], 0)]], scales := [0] }] }
  let tiles : List WTile := [{ kt := 0, nt := 0, rows := [[([0], 0)]], scales := [0] }]
  let s : State := oz o
  let t : State := after (.arrayTileDone op {}) s
  s.power = .on ∧ (opOf s 5 = some o) ∧ (o.stage = .running) ∧ (opWaits s o (arrOperands (parseArr o.desc)) = false) ∧ (tilesFor o (parseArr o.desc) 0 = some tiles) ∧ (injectFor s o = none) ∧ ((formTile s o (parseArr o.desc) tiles [] (tileSpan (parseArr o.desc) 0) [] none).1 = 0) ∧ ((opOf t 5).map (fun p => (p.written, p.checks.length, p.stage)) = some (1, 1, .running)) := by decide +kernel

theorem test_tileWithoutWeights :
  let op : Nat := 5
  let o : Op := arrOp
  let s : State := oz o
  let t : State := after (.arrayTileDone op {}) s
  s.power = .on ∧ (opOf s 5 = some o) ∧ (o.stage = .running) ∧ (opWaits s o (arrOperands (parseArr o.desc)) = false) ∧ (tilesFor o (parseArr o.desc) 0 = none) ∧ (t.ops = s.ops) := by decide +kernel

theorem test_abftVerdict :
  let op : Nat := 5
  let o : Op := { arrOp with checks := [{ tile := 0, chunk := 0, at_ := 2 }] }
  let s : State := { oz o with ridge := 9 }
  let t : State := after (.abftVerdict op) s
  s.power = .on ∧ (opOf s 5 = some o) ∧ (o.stage = .running) ∧ (opWaits s o (arrOperands (parseArr o.desc)) = false) ∧ (opOf t 5 = some arrOp) ∧ (rd t (A.ABFT_LAT_MAX 0) = 7) := by decide +kernel

theorem test_abftFails :
  let op : Nat := 5
  let o : Op := { arrOp with checks := [{ tile := 0, chunk := 0, at_ := 2, row := some 0 }] }
  let s : State := { wr (oz o) A.FC_REEXEC_CFG 1 with ridge := 9 }
  let t : State := after (.abftVerdict op) s
  s.power = .on ∧ (opOf s 5 = some o) ∧ (o.stage = .running) ∧ (opWaits s o (arrOperands (parseArr o.desc)) = false) ∧ (o.retries < retryLimit s) ∧ (opLive s o = true) ∧ ((opOf t 5).map (·.stage) = some (.failed St.ABFT_FAIL)) ∧ (rd t (A.ABFT_FAIL_COUNT 0) = 1) := by decide +kernel

theorem test_abftLate :
  let op : Nat := 5
  let o : Op := { arrOp with checks := [{ tile := 0, chunk := 0, at_ := 2 }] }
  let s : State := { wr (oz o) A.FC_REEXEC_CFG 1 with ridge := 5003 }
  let t : State := after (.abftLate op) s
  s.power = .on ∧ (opOf s 5 = some o) ∧ (o.stage = .running) ∧ (opWaits s o (arrOperands (parseArr o.desc)) = false) ∧ (o.retries < retryLimit s) ∧ (opLive s o = true) ∧ ((opOf t 5).map (·.stage) = some (.failed St.ABFT_LATE)) ∧ (t.fc.inbox.map (·.status) = [St.ABFT_LATE]) := by decide +kernel

theorem test_arrayOperationDone :
  let op : Nat := 5
  let o : Op := { arrOp with written := 1 }
  let s : State := oz o
  let t : State := after (.arrayOperationDone op none) s
  s.power = .on ∧ (opOf s 5 = some o) ∧ (o.stage = .running) ∧ (opWaits s o (arrOperands (parseArr o.desc)) = false) ∧ (o.written = (parseArr o.desc).outTiles) ∧ (opLive s o = true) ∧ ((arrFlags s o (parseArr o.desc)).1 = 0) ∧ ((writeTagBlock (arrFlags s o (parseArr o.desc)).2.2 (opAgent o) (parseArr o.desc).outTag (parseTag o.outTag) (arrFlags s o (parseArr o.desc)).2.1 o.cls (execEcho s o.exec)).1 = 0) ∧ (t.ops = []) ∧ ((findExec t 7).map (fun y => y.2.finished) = some 1) ∧ (rd t (A.ARR_OPS 0 0) = 1) := by decide +kernel

theorem test_operationNotDone :
  let op : Nat := 5
  let o : Op := arrOp
  let s : State := oz o
  let t : State := after (.arrayOperationDone op none) s
  s.power = .on ∧ (opOf s 5 = some o) ∧ (o.stage = .running) ∧ (opWaits s o (arrOperands (parseArr o.desc)) = false) ∧ (o.written ≠ (parseArr o.desc).outTiles) ∧ (t.ops = s.ops) := by decide +kernel

theorem test_ballastEnd :
  let c : Fin 4 := 1
  let a : Fin 4 := 2
  let w : Nat := 3
  let s : State := setArr (wr { z with ridge := 5003 } (A.ARR_STATUS 1 2) 0x82) 1 2 { mode := 1, ballastAt := some 3, target := 16 }
  let t : State := after (.ballastEnd c a) s
  s.power = .on ∧ ((arrUnit s c.val a.val).ballastAt = some w) ∧ (w + 5000 ≤ s.ridge) ∧ (rd t (A.ARR_STATUS 1 2) = 0x84) ∧ ((arrUnit t 1 2).ballastAt = none) := by decide +kernel

theorem test_ballastGoesOn :
  let c : Fin 4 := 1
  let a : Fin 4 := 2
  let s : State := z
  let t : State := after (.ballastEnd c a) s
  s.power = .on ∧ ((arrUnit s 1 2).ballastAt = none) ∧ (t.arrays = s.arrays) := by decide +kernel

theorem test_activityLevelStep :
  let c : Fin 4 := 1
  let a : Fin 4 := 2
  let s : State := setArr (wr { z with ridge := 500 } (A.ARR_STATUS 1 2) 8) 1 2 { target := 0 }
  let t : State := after (.activityLevelStep c a) s
  s.power = .on ∧ ((arrUnit s c.val a.val).stepAt + 500 ≤ s.ridge) ∧ (arrLevel s c.val a.val ≠ min (arrUnit s c.val a.val).target (levelCap s c.val a.val)) ∧ (min (arrUnit s c.val a.val).target (levelCap s c.val a.val) ≤ 31) ∧ (arrLevel t 1 2 = 0) ∧ (rd t (A.ARR_RAMPS 1 2) = 1) := by decide +kernel

theorem test_levelStays :
  let c : Fin 4 := 1
  let a : Fin 4 := 2
  let s : State := { z with ridge := 500 }
  let t : State := after (.activityLevelStep c a) s
  s.power = .on ∧ (s.ridge < (arrUnit s c.val a.val).stepAt + 500 ∨ arrLevel s c.val a.val = min (arrUnit s c.val a.val).target (levelCap s c.val a.val)) ∧ (arrLevel t c.val a.val = arrLevel s c.val a.val) ∧ ((arrUnit t c.val a.val).stepAt = (arrUnit s c.val a.val).stepAt) ∧ (rd t (A.ARR_RAMPS c.val a.val) = rd s (A.ARR_RAMPS c.val a.val)) := by decide +kernel

theorem test_arrFence :
  let agent : Agent := .host
  let c : Fin 4 := 1
  let a : Fin 4 := 2
  let v : Word := 1
  let s : State := { z with ridge := 4, rf := { z.rf with unlocks := [{ page := 0x146, agent := .host, lapse := 9 }] } }
  let t : State := after (.arrFence agent c a v) s
  s.power = .on ∧ (takesEffect s agent (A.ARR_FENCE c.val a.val) v.toNat = true) ∧ (unitFenced t c.val a.val = bitN v.toNat 0) ∧ (smGet (fun _ => 0) t.bist.passAt (4 * c.val + a.val) = s.ridge) ∧ (rdF t (A.BIST_UNIT_STATUS (4 * c.val + a.val)) 9 8 = 0) ∧ ((bitN v.toNat 0 = true → bitN (evtFlags t (0x104 + 0x40 * c.val + a.val)) 4 = true)) := by decide +kernel

theorem test_abftInject :
  let agent : Agent := .host
  let c : Fin 4 := 1
  let v : Word := 0x1E
  let s : State := { z with rf := { z.rf with unlocks := [{ page := 0x14D, agent := .host, lapse := 9 }] } }
  let t : State := after (.abftInject agent c v) s
  s.power = .on ∧ (takesEffect s agent (A.ABFT_INJECT c.val) v.toNat = true) ∧ (rdF t (A.ABFT_INJECT c.val) 1 0 = fldN v.toNat 1 0) ∧ (rdB t (A.ABFT_INJECT c.val) 4 = bitN v.toNat 4) ∧ (rdF t (A.ABFT_INJECT c.val) 3 2 = (if fldN v.toNat 3 2 = 3 then rdF s (A.ABFT_INJECT c.val) 3 2 else fldN v.toNat 3 2)) := by decide +kernel

theorem test_engineIssue :
  let ex : BitVec 32 := 7
  let e : Fin 4 := 3
  let x : Instance := oneInst (runJob 0)
  let j : JobRun := runJob 0
  let k : Nat := 0
  let desc : List Byte := vecDesc
  let blk : List Byte := []
  let s : State := oz vecOp 0 vecDesc
  let t : State := after (.engineIssue ex e) s
  s.power = .on ∧ (findExec s 7 = some (x, j)) ∧ (coreStalled s 3 = false) ∧ (jobAwake s j = true) ∧ ((issuable s x j).head? = some k) ∧ (encWaits s 0x1000000000 128 = false) ∧ ((readDescs s 0 [0x1000000000] 128 2 0).1 = 0) ∧ ((readDescs s 0 [0x1000000000] 128 2 0).2.1 = [desc]) ∧ (validateEng (readDescs s 0 [0x1000000000] 128 2 0).2.2 0 3 blk desc = 0) ∧ (pegStatus s (parseEng desc).peg = 0) ∧ ((engRunning s 0 3).isSome = true) ∧ (t.ops.map (fun o => (o.exec, o.index, o.unit, o.desc == vecDesc, o.stage)) = [(7, 0, 7, true, .running), (7, 0, 7, true, .queued)]) ∧ ((findExec t 7).map (fun y => y.2.issued) = some [0]) := by decide +kernel

theorem test_engineStarts :
  let ex : BitVec 32 := 7
  let e : Fin 4 := 3
  let x : Instance := oneInst (runJob 0)
  let j : JobRun := runJob 0
  let k : Nat := 0
  let desc : List Byte := vecDesc
  let blk : List Byte := []
  let s : State := jz 0 vecDesc
  let t : State := after (.engineIssue ex e) s
  s.power = .on ∧ (findExec s 7 = some (x, j)) ∧ (coreStalled s 3 = false) ∧ (jobAwake s j = true) ∧ ((issuable s x j).head? = some k) ∧ (encWaits s 0x1000000000 128 = false) ∧ ((readDescs s 0 [0x1000000000] 128 2 0).1 = 0) ∧ ((readDescs s 0 [0x1000000000] 128 2 0).2.1 = [desc]) ∧ (validateEng (readDescs s 0 [0x1000000000] 128 2 0).2.2 0 3 blk desc = 0) ∧ (pegStatus s (parseEng desc).peg = 0) ∧ (engOps s 0 3 = []) ∧ (unitOn s (engPage 0 3) = true) ∧ (opAgent (issuedEngOp s x j e.val k desc blk) = .cluster 0 0x13) ∧ ((checkInputs s (opAgent (issuedEngOp s x j e.val k desc blk)) x.frame x.cls x.seq 0x1000000000 (engInputs (parseEng desc))).1 = 0) ∧ (rollOperands desc (engOperands blk 3 desc) = []) ∧ (blockField (issuedEngOp s x j e.val k desc blk) = none) ∧ (opBlocked s (issuedEngOp s x j e.val k desc blk) = false) ∧ (opWaits s (issuedEngOp s x j e.val k desc blk) (engOperands blk 3 desc) = false) ∧ (t.ops.map (fun o => (o.exec, o.index, o.unit, o.desc == vecDesc, o.stage)) = [(7, 0, 7, true, .running)]) ∧ ((findExec t 7).map (fun y => y.2.issued) = some [0]) := by decide +kernel

theorem test_engineQueueFull :
  let ex : BitVec 32 := 7
  let e : Fin 4 := 3
  let x : Instance := oneInst (runJob 0)
  let j : JobRun := runJob 0
  let s : State := { jz 0 vecDesc with ops := List.replicate 8 { vecOp with stage := .queued } }
  let t : State := after (.engineIssue ex e) s
  s.power = .on ∧ (findExec s ex.toNat = some (x, j)) ∧ (8 ≤ (engOps s j.cluster e.val).countP (fun o => o.stage == .queued)) ∧ (t.ops.length = 8) := by decide +kernel

theorem test_engineOperationDone :
  let c : Fin 4 := 0
  let e : Fin 4 := 3
  let op : Op := vecOp
  let o : EngOut := (runEngine (oz vecOp 0 vecDesc) vecOp).1
  let u : State := (runEngine (oz vecOp 0 vecDesc) vecOp).2
  let v : State := (engineWrites u op o).2
  let s : State := oz vecOp 0 vecDesc
  let t : State := after (.engineOperationDone c e none none) s
  s.power = .on ∧ (engOps s 0 3 = [op]) ∧ (opOf s 5 = some op) ∧ (opWaits s op (engOperands op.block 3 op.desc) = false) ∧ (opLive s op = true) ∧ (o.status = 0) ∧ (rdB s (A.ENG_INJECT 0 3) 0 = false) ∧ ((engineWrites u op o).1 = 0) ∧ ((inheritRuns v (opAgent op) op.cls (execEcho s op.exec) 0 o.flags).1 = 0) ∧ ((writeTagBlock v (opAgent op) (parseEng op.desc).outTag (parseTag op.outTag) (inheritRuns v (opAgent op) op.cls (execEcho s op.exec) 0 o.flags).2.1 op.cls (execEcho s op.exec)).1 = 0) ∧ (t.ops = []) ∧ ((findExec t 7).map (fun y => y.2.finished) = some 1) ∧ (rd t (A.ENG_OPS 0 3) = 1) := by decide +kernel

theorem test_engineUncorrectable :
  let c : Fin 4 := 0
  let e : Fin 4 := 3
  let op : Op := vecOp
  let s : State := wr (oz vecOp 0 vecDesc) A.FC_REEXEC_CFG 1
  let t : State := after (.engineOperationDone c e none (some .eccUncorrectable)) s
  s.power = .on ∧ (engOps s 0 3 = [op]) ∧ (opOf s 5 = some op) ∧ (opWaits s op (engOperands op.block 3 op.desc) = false) ∧ (op.retries < retryLimit s) ∧ (opLive s op = true) ∧ ((opOf t 5).map (·.stage) = some (.failed St.ENGINE_ECC_UNCORRECTABLE)) ∧ (rd t (A.ENG_ECC_UNCORR 0 3) = 1) := by decide +kernel

theorem test_engineMismatch :
  let c : Fin 4 := 0
  let e : Fin 4 := 3
  let op : Op := vecOp
  let o : EngOut := (runEngine (oz vecOp 0 vecDesc) vecOp).1
  let s : State := wr (oz vecOp 0 vecDesc) A.FC_REEXEC_CFG 1
  let t : State := after (.engineOperationDone c e none (some .mismatch)) s
  s.power = .on ∧ (engOps s 0 3 = [op]) ∧ (opOf s 5 = some op) ∧ (opWaits s op (engOperands op.block 3 op.desc) = false) ∧ (op.retries < retryLimit s) ∧ (opLive s op = true) ∧ (o.status = 0) ∧ ((opOf t 5).map (·.stage) = some (.failed St.ENGINE_MISMATCH)) ∧ (rd t (A.ENG_MISMATCH_COUNT 0 3) = 1) := by decide +kernel

theorem test_engineInjected :
  let c : Fin 4 := 0
  let e : Fin 4 := 3
  let op : Op := vecOp
  let o : EngOut := (runEngine (oz vecOp 0 vecDesc) vecOp).1
  let s : State := wr (wr (oz vecOp 0 vecDesc) A.FC_REEXEC_CFG 1) (A.ENG_INJECT 0 3) 1
  let t : State := after (.engineOperationDone c e none none) s
  s.power = .on ∧ (engOps s 0 3 = [op]) ∧ (opOf s 5 = some op) ∧ (opWaits s op (engOperands op.block 3 op.desc) = false) ∧ (op.retries < retryLimit s) ∧ (opLive s op = true) ∧ (o.status = 0) ∧ (o.writes.length = 1) ∧ ((opOf t 5).map (·.stage) = some (.failed St.ENGINE_MISMATCH)) ∧ (rdB t (A.ENG_INJECT 0 3) 0 = false) := by decide +kernel

theorem test_engFence :
  let agent : Agent := .host
  let c : Fin 4 := 1
  let e : Fin 4 := 2
  let v : Word := 1
  let s : State := unlocked { z with ridge := 4 } 0x14B
  let t : State := after (.engFence agent c e v) s
  s.power = .on ∧ (takesEffect s agent (A.ENG_FENCE c.val e.val) v.toNat = true) ∧ (bitN v.toNat 0 = true) ∧ (unitFenced t c.val (4 + e.val) = true) ∧ (smGet (fun _ => 0) t.bist.passAt (16 + 4 * c.val + e.val) = s.ridge) ∧ (bitN (evtFlags t (0x109 + 0x40 * c.val + e.val)) 3 = true) ∧ (t.ops = s.ops) := by decide +kernel

theorem test_engUnfence :
  let agent : Agent := .host
  let c : Fin 4 := 1
  let e : Fin 4 := 2
  let v : Word := 0
  let s : State := unlocked (wr { z with ridge := 4 } (A.ENG_FENCE 1 2) 1) 0x14B
  let t : State := after (.engFence agent c e v) s
  s.power = .on ∧ (takesEffect s agent (A.ENG_FENCE 1 2) v.toNat = true) ∧ (engOps s 1 2 = []) ∧ (unitFenced t c.val (4 + e.val) = false) ∧ (smGet (fun _ => 0) t.bist.passAt (16 + 4 * c.val + e.val) = s.ridge) ∧ (t.ops = s.ops) := by decide +kernel

theorem test_engInject :
  let agent : Agent := .host
  let c : Fin 4 := 1
  let e : Fin 4 := 2
  let v : Word := 1
  let s : State := unlocked z 0x14B
  let t : State := after (.engInject agent c e v) s
  s.power = .on ∧ (takesEffect s agent (A.ENG_INJECT c.val e.val) v.toNat = true) ∧ (rdB t (A.ENG_INJECT c.val e.val) 0 = bitN v.toNat 0) := by decide +kernel

theorem test_scratchScrubPass :
  let c : Fin 4 := 2
  let s : State := setScrub { wr z (A.SCR_SCRUB_CFG 2) 0x10001 with ridge := 1000004 } 2 { started := true, startAt := 4, done := 9 }
  let t : State := after (.scratchScrubPass c false) s
  s.power = .on ∧ (scrubOn s c.val = true) ∧ ((scrubOf s c.val).started = true) ∧ ((scrubOf s c.val).startAt + 1000000 * rdF s (A.SCR_SCRUB_CFG c.val) 15 0 ≤ s.ridge) ∧ (rd t (A.SCR_SCRUB_LAG 2) = 1) ∧ (bitN (evtFlags t 0x190) 3 = true) ∧ ((scrubOf t 2).done = 0) := by decide +kernel

theorem test_scratchPassRead :
  let c : Fin 4 := 2
  let s : State := setScrub { wr z (A.SCR_SCRUB_CFG 2) 0x10001 with ridge := 1000004 } 2 { started := true, startAt := 4, done := 393215 }
  let t : State := after (.scratchScrubPass c true) s
  s.power = .on ∧ (scrubOn s c.val = true) ∧ ((scrubOf s c.val).started = true) ∧ ((scrubOf s c.val).startAt + 1000000 * rdF s (A.SCR_SCRUB_CFG c.val) 15 0 ≤ s.ridge) ∧ ((scrubOf t 2).done = 0) ∧ ((scrubOf t 2).startAt = 1000004) ∧ (t.mem = s.mem) := by decide +kernel

theorem test_scrubPeriodRuns :
  let c : Fin 4 := 2
  let complete : Bool := true
  let s : State := z
  let t : State := after (.scratchScrubPass c complete) s
  s.power = .on ∧ ((scrubOf s 2).started = false) ∧ (t.scrubs = s.scrubs) := by decide +kernel

theorem test_scrInject :
  let agent : Agent := .host
  let c : Fin 4 := 1
  let v : Word := 0x1C5
  let s : State := unlocked z 0x150
  let t : State := after (.scrInject agent c v) s
  s.power = .on ∧ (takesEffect s agent (A.SCR_INJECT c.val) v.toNat = true) ∧ (rd t (A.SCR_INJECT c.val) % 256 = v.toNat % 256) := by decide +kernel

theorem test_patrolScrubRead :
  let u : Fin 5 := 4
  let s : State := setEcc (wr z A.MEM_SCRUB_CFG 0x10000) 0x1000000000 (some { syms := [3], injected := false })
  let t : State := after (.patrolScrubRead u none) s
  s.power = .on ∧ (scrubOn s u.val = true) ∧ ((scrubOf s u.val).done < (scrubSpan u.val).2.2) ∧ (eccOf t 0x1000000000 = none) ∧ ((scrubOf t 4).done = 1) ∧ (rd t (A.CH_ECC_CORR (dramChannel 0x1000000000)) = 1) := by decide +kernel

theorem test_scrubUpset :
  let u : Fin 5 := 4
  let l : List (Fin 72) := [3, 70]
  let s : State := wr z A.MEM_SCRUB_CFG 0x10000
  let t : State := after (.patrolScrubRead u (some (.syms l))) s
  s.power = .on ∧ (scrubOn s u.val = true) ∧ ((scrubOf s u.val).done < (scrubSpan u.val).2.2) ∧ (l ≠ []) ∧ (l.Nodup) ∧ (l.length ≤ eccSure (scrubNext s u.val)) ∧ (eccOf s (scrubNext s u.val) = none) ∧ ((eccOf t 0x1000000000).map (·.syms) = some [3, 70]) ∧ ((scrubOf t 4).done = 1) ∧ (t.fc.inbox.map (·.status) = [St.DRAM_ECC_UNCORRECTABLE]) := by decide +kernel

theorem test_scrubIdle :
  let u : Fin 5 := 4
  let upset : Option Upset := none
  let s : State := wr z A.MEM_SCRUB_CFG 0
  let t : State := after (.patrolScrubRead u upset) s
  s.power = .on ∧ (scrubOn s 4 = false) ∧ (t.scrubs = s.scrubs) := by decide +kernel

theorem test_pegCount :
  let agent : Agent := .host
  let peg : PegId := .cluster 2 5
  let v : Word := 9
  let s : State := setPeg (withPod z { ctl 2 1 [] with hdr := { (ctl 2 1 []).hdr with waitPeg := 0xA005, waitTarget := 12 } }) 0xA005 { count := 12, saturated := true, cfg := 0x200 }
  let t : State := after (.pegCount agent peg v) s
  s.power = .on ∧ (agent = .host → hostUnauth s = false) ∧ ((pegAt t 0xA005).count = 9) ∧ ((pegAt t 0xA005).saturated = false) ∧ ((podAt t 1).map (·.waitMet) = some true) := by decide +kernel

theorem test_pegIncWrite :
  let agent : Agent := .management
  let peg : PegId := .glob 6
  let v : Word := 0xFFFFFFFF
  let s : State := setPeg z 0x4006 { count := 2, cfg := 0x200 }
  let t : State := after (.pegIncWrite agent peg v) s
  s.power = .on ∧ (pegMode (pegAt s (pegRef peg)) = 1) ∧ (s.outWrites = []) ∧ ((pegAt t 0x4006).count = 0xFFFFFFFF) ∧ ((pegAt t 0x4006).saturated = true) := by decide +kernel

theorem test_pegDiscards :
  let agent : Agent := .management
  let peg : PegId := .glob 6
  let v : Word := 1
  let s : State := z
  let t : State := after (.pegIncWrite agent peg v) s
  s.power = .on ∧ (pegMode (pegAt s (pegRef peg)) = 0) ∧ (s.outWrites = []) ∧ ((pegAt t 0x4006).discarded = 1) ∧ (t.fc.inbox.map (·.status) = [St.PEG_INCREMENT_DISCARDED]) := by decide +kernel

theorem test_pegHeld :
  let agent : Agent := .management
  let peg : PegId := .glob 6
  let v : Word := 1
  let s : State := { z with outWrites := [{ id := 4, agent := .management, pod := none, before := 0 }] }
  let t : State := after (.pegIncWrite agent peg v) s
  s.power = .on ∧ (agent = .host → hostUnauth s = false) ∧ (v ≠ 0) ∧ (s.outWrites.any (fun w => w.agent == agent) = true) ∧ (t.pegs = s.pegs) ∧ (t.heldIncs.map (fun h => (h.ref, h.amount, h.waits)) = [(0x4006, 1, [4])]) := by decide +kernel

theorem test_pegZero :
  let agent : Agent := .management
  let peg : PegId := .glob 6
  let v : Word := 0
  let s : State := z
  let t : State := after (.pegIncWrite agent peg v) s
  s.power = .on ∧ (v = 0) ∧ (t.pegs = s.pegs) := by decide +kernel

theorem test_pegCfg :
  let agent : Agent := .host
  let peg : PegId := .cluster 1 3
  let v : Word := 0x600
  let s : State := setPeg z 0x9003 { cfg := 0x200 }
  let t : State := after (.pegCfg agent peg v) s
  s.power = .on ∧ (agent = .host → hostUnauth s = false) ∧ (pegAt t 0x9003 = { cfg := 0x200, cfgRefused := true }) := by decide +kernel

theorem test_pegCfgTaken :
  let t := after (.pegCfg .host (.cluster 1 3) 0x200) (setPeg z 0x9003 { cfgRefused := true })
  pegAt t 0x9003 = { cfg := 0x200 } := by decide +kernel

theorem test_rollEnable :
  let agent : Agent := .host
  let c : Fin 4 := 1
  let r : Fin 64 := 40
  let v : Word := 2
  let s : State := wr z (A.ROLL_HEAD 1 1 8) 9
  let t : State := after (.rollEnable agent c r v) s
  s.power = .on ∧ (takesEffect s agent (A.ROLL_CTL c.val (r.val / 32) (r.val % 32)) (v.toNat ||| 1) = true) ∧ (rollIdle s c.val r.val = true) ∧ (rollConfigOk s c.val r.val (v.toNat ||| 1) = true) ∧ (rollOn t c.val r.val = true) ∧ (rd t (A.ROLL_CTL c.val (r.val / 32) (r.val % 32)) = (v.toNat ||| 1) % 128) ∧ (rollHead t c.val r.val = 0) ∧ (rollTail t c.val r.val = 0) ∧ (rollReserved t c.val r.val = 0) := by decide +kernel

theorem test_rollEnableInvalid :
  let agent : Agent := .host
  let c : Fin 4 := 1
  let r : Fin 64 := 40
  let v : Word := 0x1E
  let s : State := wr z (A.ROLL_HEAD 1 1 8) 9
  let t : State := after (.rollEnable agent c r v) s
  s.power = .on ∧ (takesEffect s agent (A.ROLL_CTL c.val (r.val / 32) (r.val % 32)) (v.toNat ||| 1) = true) ∧ (rollIdle s c.val r.val = true) ∧ (rollConfigOk s c.val r.val (v.toNat ||| 1) = false) ∧ (rollOn t c.val r.val = rollOn s c.val r.val) ∧ (bitN (evtFlags t (rollPage c.val r.val)) 2 = true) ∧ (rollHead t c.val r.val = rollHead s c.val r.val) ∧ (rollTail t c.val r.val = rollTail s c.val r.val) ∧ (rollReserved t c.val r.val = rollReserved s c.val r.val) := by decide +kernel

theorem test_rollEnableInUse :
  let agent : Agent := .host
  let c : Fin 4 := 0
  let r : Fin 64 := 7
  let v : Word := 0x1E
  let s : State := setRoll rollz 0 7 { refs := [5] }
  let t : State := after (.rollEnable agent c r v) s
  s.power = .on ∧ (takesEffect s agent (A.ROLL_CTL c.val (r.val / 32) (r.val % 32)) (v.toNat ||| 1) = true) ∧ (rollIdle s c.val r.val = false) ∧ (t.rolls = s.rolls) := by decide +kernel

theorem test_rollAppendReserve :
  let c : Fin 4 := 0
  let r : Fin 64 := 7
  let w : RollWait := { op := 5, field := 16, exec := 7, len := 64, frame := 3, cls := 2 }
  let rest : List RollWait := []
  let s : State := setRoll rollz 0 7 { waiting := [w] }
  let t : State := after (.rollAppendReserve c r) s
  s.power = .on ∧ ((rollOf s c.val r.val).waiting = w :: rest) ∧ (posDiff (rollReserved s c.val r.val) (rollTail s c.val r.val) + w.len ≤ rollSize s c.val r.val) ∧ ((rollOf t 0 7).waiting = []) ∧ (rollReserved t 0 7 = 64) := by decide +kernel

theorem test_rollFull :
  let c : Fin 4 := 0
  let r : Fin 64 := 7
  let s : State := setRoll rollz 0 7 { waiting := [{ op := 5, field := 16, exec := 7, len := 0x10000, frame := 3, cls := 2 }] }
  let t : State := after (.rollAppendReserve c r) s
  s.power = .on ∧ (((rollOf s 0 7).waiting.head?).map (fun w => decide (rollSize s 0 7 < posDiff (rollReserved s 0 7) (rollTail s 0 7) + w.len)) = some true) ∧ (t.rolls = s.rolls) := by decide +kernel

theorem test_rollAppendCommit :
  let c : Fin 4 := 0
  let r : Fin 64 := 7
  let s : State := setRoll rollz 0 7 { resv := [{ op := 5, field := 16, exec := 7, start := 0, len := 64, frame := 3, cls := 2, performed := true }, { op := 6, field := 16, exec := 7, start := 64, len := 64, frame := 3, cls := 2 }] }
  let t : State := after (.rollAppendCommit c r) s
  s.power = .on ∧ (rollHead s c.val r.val < 4294967296) ∧ ((rollOf t 0 7).resv.map (·.op) = [6]) ∧ (rollHead t 0 7 = 64) := by decide +kernel

theorem test_rollCommit :
  let agent : Agent := .host
  let c : Fin 4 := 0
  let r : Fin 64 := 7
  let v : Word := 0x40
  let s : State := rollz
  let t : State := after (.rollCommit agent c r v) s
  s.power = .on ∧ (takesEffect s agent (A.ROLL_COMMIT c.val (r.val / 32) (r.val % 32)) v.toNat = true) ∧ (rollOn s c.val r.val = true) ∧ (rdB s (A.ROLL_CTL c.val (r.val / 32) (r.val % 32)) 5 = true) ∧ (posDiff (rollHead s c.val r.val) (rollTail s c.val r.val) + v.toNat ≤ rollSize s c.val r.val) ∧ (rollHead t 0 7 = 64) := by decide +kernel

theorem test_rollOverflow :
  let agent : Agent := .host
  let c : Fin 4 := 0
  let r : Fin 64 := 7
  let v : Word := 0x1001
  let s : State := rollz
  let t : State := after (.rollCommit agent c r v) s
  s.power = .on ∧ (takesEffect s agent (A.ROLL_COMMIT c.val (r.val / 32) (r.val % 32)) v.toNat = true) ∧ (rollOn s c.val r.val = true) ∧ (rdB s (A.ROLL_CTL c.val (r.val / 32) (r.val % 32)) 5 = true) ∧ (rollSize s c.val r.val < posDiff (rollHead s c.val r.val) (rollTail s c.val r.val) + v.toNat) ∧ (rollHead t 0 7 = 0) ∧ (bitN (evtFlags t 0x111) 1 = true) := by decide +kernel

theorem test_rollCommitUnbound :
  let agent : Agent := .host
  let c : Fin 4 := 0
  let r : Fin 64 := 8
  let v : Word := 0x40
  let s : State := rollz
  let t : State := after (.rollCommit agent c r v) s
  s.power = .on ∧ (takesEffect s agent (A.ROLL_COMMIT 0 0 8) v.toNat = true) ∧ (rollOn s 0 8 = false) ∧ (t.rolls = s.rolls) := by decide +kernel

theorem test_rollRelease :
  let agent : Agent := .host
  let c : Fin 4 := 0
  let r : Fin 64 := 7
  let v : Word := 64
  let s : State := wr rollz (A.ROLL_HEAD 0 0 7) 64
  let t : State := after (.rollRelease agent c r v) s
  s.power = .on ∧ (takesEffect s agent (A.ROLL_RELEASE c.val (r.val / 32) (r.val % 32)) v.toNat = true) ∧ (rollOn s c.val r.val = true) ∧ (rdB s (A.ROLL_CTL c.val (r.val / 32) (r.val % 32)) 6 = true) ∧ (v.toNat ≤ posDiff (rollHead s c.val r.val) (rollTail s c.val r.val)) ∧ (rollTail t 0 7 = 64) := by decide +kernel

theorem test_rollBeyondHead :
  let agent : Agent := .host
  let c : Fin 4 := 0
  let r : Fin 64 := 7
  let v : Word := 65
  let s : State := wr rollz (A.ROLL_HEAD 0 0 7) 64
  let t : State := after (.rollRelease agent c r v) s
  s.power = .on ∧ (takesEffect s agent (A.ROLL_RELEASE c.val (r.val / 32) (r.val % 32)) v.toNat = true) ∧ (rollOn s c.val r.val = true) ∧ (rdB s (A.ROLL_CTL c.val (r.val / 32) (r.val % 32)) 6 = true) ∧ (posDiff (rollHead s c.val r.val) (rollTail s c.val r.val) < v.toNat) ∧ (rollTail t 0 7 = 0) ∧ (bitN (evtFlags t 0x111) 0 = true) := by decide +kernel

theorem test_rollReleaseUnbound :
  let agent : Agent := .host
  let c : Fin 4 := 0
  let r : Fin 64 := 8
  let v : Word := 64
  let s : State := rollz
  let t : State := after (.rollRelease agent c r v) s
  s.power = .on ∧ (takesEffect s agent (A.ROLL_RELEASE 0 0 8) v.toNat = true) ∧ (rollOn s 0 8 = false) ∧ (t.rolls = s.rolls) := by decide +kernel

theorem test_rollReset :
  let agent : Agent := .host
  let c : Fin 4 := 0
  let r : Fin 64 := 7
  let s : State := wr rollz (A.ROLL_HEAD 0 0 7) 64
  let t : State := after (.rollReset agent c r) s
  s.power = .on ∧ (takesEffect s agent (A.ROLL_RESET c.val (r.val / 32) (r.val % 32)) 1 = true) ∧ ((rollOf s c.val r.val).refs = []) ∧ (rollHead t c.val r.val = 0) ∧ (rollTail t c.val r.val = 0) ∧ (rollReserved t c.val r.val = 0) := by decide +kernel

theorem test_rollReset_2 :
  let agent : Agent := .host
  let c : Fin 4 := 0
  let r : Fin 64 := 7
  let s : State := setRoll (wr rollz (A.ROLL_HEAD 0 0 7) 64) 0 7 { refs := [5] }
  let t : State := after (.rollReset agent c r) s
  s.power = .on ∧ (takesEffect s agent (A.ROLL_RESET c.val (r.val / 32) (r.val % 32)) 1 = true) ∧ ((rollOf s c.val r.val).refs ≠ []) ∧ (t.rolls = s.rolls) ∧ (bitN (evtFlags t (rollPage c.val r.val)) 3 = true) := by decide +kernel

theorem test_seqOpen :
  let src : SeqFrom := .pod 1
  let s : State := withPod (wr qz A.SEQ_POOL_SIZE 1) (qp 1 qOpen)
  let t : State := after (.seqOpen src) s
  s.power = .on ∧ ((seqReady s (.pod 1) 1 (fun u d => ctxBusy u (cmdCtx d) || openWaits u d)).map (fun y => ((makeRoom y.2.2 y.2.1.mapCount y.2.1.cls 0).1, decide ((makeRoom y.2.2 y.2.1.mapCount y.2.1.cls 0).2.seq.used.length + y.2.1.mapCount ≤ poolPages (makeRoom y.2.2 y.2.1.mapCount y.2.1.cls 0).2), (makeRoom y.2.2 y.2.1.mapCount y.2.1.cls 0).2.seq.held)) = some (0, true, [])) ∧ (seqOn s = true) := by decide +kernel

theorem test_seqClose :
  let src : SeqFrom := .pod 1
  let s : State := qs 2 []
  let t : State := after (.seqClose src) s
  s.power = .on ∧ ((seqReady s (.pod 1) 2 (fun _ _ => false)).isSome = true) ∧ (t.seq.cmds.length = 1) ∧ ((entryOf t 3).state = 3) := by decide +kernel

theorem test_seqAppend :
  let src : SeqFrom := .pod 1
  let c : SeqCmd := ((seqReady (qs 3 qAppend) (.pod 1) 3 (fun u d => ctxBusy u (cmdCtx d) || appendWaits u d)).map (·.1)).getD (qcmd 3 qAppend .running)
  let u : State := z
  let s : State := qs 3 qAppend
  let t : State := after (.seqAppend src) s
  s.power = .on ∧ ((seqReady s (.pod 1) 3 (fun u d => ctxBusy u (cmdCtx d) || appendWaits u d)).isSome = true) ∧ ((parseSeq c.bytes).layer = 0) ∧ ((match (readSlots s qe).1 with | .ok l => decide (evictions s 3 qe 0 [0] none l = .evict []) | .bad _ => false) = true) ∧ ((makeRoom (openGroup s c (parseSeq c.bytes) []) 1 1 0).1 = 0) ∧ (t.seq.cmds.map (·.stage) = [.running]) ∧ ((groupOfCtx t 3).map (fun g => (g.pos, g.n, g.layer, g.busy, g.blocks.map (·.pos))) = some (0, 1, 0, true, [0])) := by decide +kernel

theorem test_appendNextLayer :
  let src : SeqFrom := .pod 1
  let c : SeqCmd := ((seqReady (qs2 3 qAppend) (.pod 1) 3 (fun u d => ctxBusy u (cmdCtx d) || appendWaits u d)).map (·.1)).getD (qcmd 3 qAppend .running)
  let u : State := z
  let g : SeqGroup := qg
  let s : State := qs2 3 qAppend
  let t : State := after (.seqAppend src) s
  s.power = .on ∧ ((seqReady s (.pod 1) 3 (fun u d => ctxBusy u (cmdCtx d) || appendWaits u d)).isSome = true) ∧ ((parseSeq c.bytes).layer = 1) ∧ (groupOfCtx s 3 = some qg) ∧ ((makeRoom s 1 1 0).1 = 0) ∧ (t.seq.cmds.map (·.stage) = [.running]) ∧ ((groupOfCtx t 3).map (fun g => (g.pos, g.n, g.layer, g.busy)) = some (0, 1, 1, true)) := by decide +kernel

theorem test_seqStage :
  let src : SeqFrom := .pod 1
  let c : SeqCmd := ((seqReady (qs 4 qStage) (.pod 1) 4 (fun _ _ => false)).map (·.1)).getD (qcmd 4 qStage .running)
  let s : State := qs 4 qStage
  let t : State := after (.seqStage src) s
  s.power = .on ∧ ((seqReady s (.pod 1) 4 (fun _ _ => false)).isSome = true) ∧ ((parseSeq c.bytes).select = 2) ∧ ((parseSeq c.bytes).mark = false) ∧ (strict s = false) ∧ ((readSlots s qe).1 = .ok [(0, parseSlot qe (zeros qe.slotSize))]) ∧ (stageBlocked s c.id 0 (viewFrames qe (parseSeq c.bytes).bMax) = false) ∧ (t.seq.cmds.map (fun d => (d.stage, d.picks)) = [(.copying, [])]) ∧ (t.seq.views.map (fun y => (y.ctx, y.frame0, y.frames)) = [(3, 0, 2)]) := by decide +kernel

theorem test_stageWaits :
  let src : SeqFrom := .pod 1
  let c : SeqCmd := ((seqReady (qs 4 qStage) (.pod 1) 4 (fun _ _ => false)).map (·.1)).getD (qcmd 4 qStage .running)
  let s : State := setSeq (qs 4 qStage) (fun q => { q with views := [qv] })
  let t : State := after (.seqStage src) s
  s.power = .on ∧ ((seqReady s (.pod 1) 4 (fun _ _ => false)).isSome = true) ∧ ((parseSeq c.bytes).select = 2) ∧ ((parseSeq c.bytes).mark = false) ∧ (strict s = false) ∧ ((readSlots s qe).1 = .ok [(0, parseSlot qe (zeros qe.slotSize))]) ∧ (stageBlocked s c.id 0 (viewFrames qe (parseSeq c.bytes).bMax) = true) ∧ (t.seq.cmds.map (fun d => (d.stage, d.picks)) = [(.blocked, [])]) ∧ (t.seq.views = [qv]) := by decide +kernel

theorem test_seqRelease :
  let src : SeqFrom := .pod 1
  let s : State := setSeq (qs 5 qView) (fun q => { q with views := [qv] })
  let t : State := after (.seqRelease src) s
  s.power = .on ∧ ((seqReady s (.pod 1) 5 viewPending).isSome = true) ∧ (t.seq.views = []) ∧ (t.pods.rx = []) := by decide +kernel

theorem test_seqImportance :
  let src : SeqFrom := .pod 1
  let y : SeqView := qv0
  let b : List Byte := leBytes 4 0x40000000
  let s : State := qscore
  let t : State := after (.seqImportance src) s
  s.power = .on ∧ ((seqReady s (.pod 1) 6 (fun u d => ctxBusy u (cmdCtx d) || viewPending u d)).isSome = true) ∧ ((memRead s .sequence 0x1040030000 4 1 3 0).2.1 = b) ∧ (fpFinite (f32v (leAt b 0 4)) = true) ∧ ((slotsOf s qe ((namedMasses y b).map (·.1))).1 = .ok [qlive]) ∧ (t.pods.rx = []) ∧ (((memBytes t 0x102000010A 2) == leBytes 2 0x200) = true) := by decide +kernel

theorem test_seqRestore :
  let src : SeqFrom := .pod 1
  let o : Option SeqSlot := none
  let s : State := qs 7 qAppend
  let t : State := after (.seqRestore src) s
  s.power = .on ∧ ((seqReady s (.pod 1) 7 (fun u d => ctxBusy u (cmdCtx d))).isSome = true) ∧ ((slotOfPos s qe 0).1 = .ok o) ∧ (t.pods.rx = []) ∧ (rd t A.SEQ_COMMANDS = 1) := by decide +kernel

theorem test_restoreDropped :
  let src : SeqFrom := .pod 1
  let u : State := z
  let s : State := qdropped 7 qAppend
  let t : State := after (.seqRestore src) s
  s.power = .on ∧ ((seqReady s (.pod 1) 7 (fun u d => ctxBusy u (cmdCtx d))).isSome = true) ∧ ((slotOfPos s qe 0).1 = .ok (some qdrop)) ∧ ((makeRoom s 1 1 0).1 = 0) ∧ (t.seq.cmds.map (·.stage) = [.running]) ∧ (t.seq.restoring.map (fun r => (r.ctx, r.layer, r.block.pos)) = [(3, 0, 0)]) := by decide +kernel

theorem test_stageStart :
  let id : Nat := 4
  let c : SeqCmd := qcmd 4 qStage .blocked
  let s : State := qq 4 qStage .blocked
  let t : State := after (.stageStart id) s
  s.power = .on ∧ (s.seq.cmds.find? (fun d => d.id == id && d.stage == .blocked) = some c) ∧ (stageBlocked s c.id (parseSeq c.bytes).frame0 (viewFrames (entryOf s (parseSeq c.bytes).ctx) (parseSeq c.bytes).bMax) = false) ∧ (t.seq.cmds.map (·.stage) = [.copying]) ∧ (t.seq.views.map (fun y => (y.ctx, y.frame0)) = [(3, 0)]) := by decide +kernel

theorem test_stageStillWaits :
  let id : Nat := 4
  let s : State := setSeq (qq 4 qStage .blocked) (fun q => { q with views := [qv] })
  let t : State := after (.stageStart id) s
  s.power = .on ∧ (stageBlocked s 4 0 (viewFrames (entryOf s 3) 1) = true) ∧ (t.seq.cmds.map (·.stage) = [.blocked]) := by decide +kernel

theorem test_stageCopyDone :
  let id : Nat := 4
  let c : SeqCmd := qcmd 4 qStage .copying
  let e : SeqEntry := qe
  let s : State := qq 4 qStage .copying
  let t : State := after (.stageCopyDone id false) s
  s.power = .on ∧ (s.seq.cmds.find? (fun d => d.id == 4 && d.stage == .copying) = some c) ∧ (seqFills s = false) ∧ ((readEntry s 3).1 = .ok e) ∧ (stageReady c = true) ∧ ((stageCopy (readEntry s 3).2 c (parseSeq c.bytes) e ((stageSlots c).filterMap (fun y => y))).1 = 0) ∧ (rdB s A.SEQ_INJECT 0 = false) ∧ (t.seq.cmds = []) ∧ (t.pods.rx = []) := by decide +kernel

theorem test_stageMismatch :
  let id : Nat := 4
  let c : SeqCmd := qcmd 4 qStage .copying
  let e : SeqEntry := qe
  let s : State := qq 4 qStage .copying
  let t : State := after (.stageCopyDone id true) s
  s.power = .on ∧ (s.seq.cmds.find? (fun d => d.id == 4 && d.stage == .copying) = some c) ∧ (seqFills s = false) ∧ ((readEntry s 3).1 = .ok e) ∧ (stageReady c = true) ∧ ((stageCopy (readEntry s 3).2 c (parseSeq c.bytes) e ((stageSlots c).filterMap (fun y => y))).1 = 0) ∧ (c.issuer = .pod 1) ∧ (t.seq.cmds = []) ∧ (t.pods.rx = []) ∧ (rd t A.SEQ_MISMATCH_COUNT = 1) := by decide +kernel

theorem test_stageNotReady :
  let id : Nat := 4
  let mismatch : Bool := false
  let s : State := setSeq (qq 4 qStage .copying) (fun q => { q with cmds := [{ qcmd 4 qStage .copying with picks := [qdrop] }] })
  let t : State := after (.stageCopyDone id mismatch) s
  s.power = .on ∧ (s.seq.cmds.map stageReady = [false]) ∧ ((readEntry s 3).1 = .ok qe) ∧ (t.seq = s.seq) := by decide +kernel

theorem test_appendDone :
  let id : Nat := 4
  let c : SeqCmd := qcmd 3 qAppend .running
  let g : SeqGroup := qg0
  let e : SeqEntry := qe2
  let s : State := qappending
  let t : State := after (.seqCommandComplete id false) s
  s.power = .on ∧ (s.seq.cmds.find? (fun d => d.id == 4 && d.stage == .running) = some c) ∧ (seqWaits s c = false) ∧ (s.seq.cmds = [c]) ∧ (groupOfCtx s 3 = some g) ∧ ((readEntry s 3).1 = .ok e) ∧ (((seqRows s 1 0 false 0x1040000000 0 1 1).1, (seqRows s 1 0 false 0x1040000000 0 1 1).2.1.length) = (0, 1)) := by decide +kernel

theorem test_appendMismatch :
  let id : Nat := 4
  let c : SeqCmd := qcmd 3 qAppend .running
  let g : SeqGroup := qg0
  let e : SeqEntry := qe
  let s : State := setSeq (qq 3 qAppend .running) (fun q => { q with groups := [qg0] })
  let t : State := after (.seqCommandComplete id true) s
  s.power = .on ∧ (s.seq.cmds.find? (fun d => d.id == 4 && d.stage == .running) = some c) ∧ (seqWaits s c = false) ∧ (s.seq.cmds = [c]) ∧ (groupOfCtx s 3 = some g) ∧ ((readEntry s 3).1 = .ok e) ∧ (((seqRows s 1 0 false 0x1040000000 0 1 1).1, (seqRows s 1 0 false 0x1040000000 0 1 1).2.1.length) = (0, 1)) ∧ (t.seq.cmds = []) ∧ (t.seq.groups = []) ∧ (t.pods.rx = []) ∧ (rd t A.SEQ_MISMATCH_COUNT = 1) := by decide +kernel

theorem test_restoreDone :
  let id : Nat := 4
  let c : SeqCmd := qcmd 7 qAppend .running
  let e : SeqEntry := qe2
  let r : SeqRestore := qrest
  let x : SeqSlot := qdrop2
  let s : State := qrestoring
  let t : State := after (.seqCommandComplete id false) s
  s.power = .on ∧ (s.seq.cmds.find? (fun d => d.id == 4 && d.stage == .running) = some c) ∧ (seqWaits s c = false) ∧ (s.seq.cmds = [c]) ∧ ((readEntry s 3).1 = .ok e) ∧ ((slotOfPos s e 0).1 = .ok (some x)) ∧ (s.seq.restoring = [r]) ∧ (((seqRows s 1 0 false 0x1040000000 0 1 1).1, (seqRows s 1 0 false 0x1040000000 0 1 1).2.1.length) = (0, 1)) := by decide +kernel

theorem test_closeDone :
  let id : Nat := 4
  let mismatch : Bool := false
  let c : SeqCmd := qcmd 2 [] .running
  let e : SeqEntry := qe
  let s : State := setSeq (qq 2 [] .running) (fun q => { q with commits := [(3, 2)] })
  let t : State := after (.seqCommandComplete id mismatch) s
  s.power = .on ∧ (s.seq.cmds.find? (fun d => d.id == 4 && d.stage == .running) = some c) ∧ (seqWaits s c = false) ∧ (s.seq.cmds = [c]) ∧ (cmdOp c = 2) ∧ (groupOfCtx s 3 = none) ∧ ((readEntry s 3).1 = .ok e) ∧ ((match (readSlots s e).1 with | .ok l => l.length == 1 | .bad _ => false) = true) ∧ (t.seq.cmds = []) ∧ (t.seq.commits = []) ∧ (t.pods.rx = []) ∧ ((entryOf t 3).state = 0) := by decide +kernel

theorem test_seqNothingEnds :
  let id : Nat := 4
  let mismatch : Bool := false
  let s : State := setSeq (qq 2 [] .running) (fun q => { q with cmds := [{ qcmd 3 [] .running with id := 3 }, qcmd 2 [] .running] })
  let t : State := after (.seqCommandComplete id mismatch) s
  s.power = .on ∧ (s.seq.cmds.map (fun d => (d.stage, cmdCtx d, d.id)) = [(.running, 3, 3), (.running, 3, 4)]) ∧ (t.seq = s.seq) := by decide +kernel

theorem test_recomputeTimeout :
  let ctx : BitVec 20 := 3
  let pos : Nat := 7
  let r : SeqRequest := qreq
  let s : State := { setSeq (qq 4 qStage .copying) (fun q => { q with cmds := [{ qcmd 4 qStage .copying with picks := [{ qdrop with pos := 7 }] }], requests := [qreq] }) with ridge := 1001 }
  let t : State := after (.recomputeTimeout ctx pos) s
  s.power = .on ∧ (s.seq.requests.find? (fun r => r.ctx == 3 && r.pos == 7) = some r) ∧ (r.at_ + 1000 * rdF s A.SEQ_RECOMP_TIMEOUT 19 0 < s.ridge) ∧ ((stagesFor s 3 7).map (·.issuer) = [.pod 1]) ∧ (t.seq.cmds = []) ∧ (t.seq.requests = []) ∧ (bitN (evtFlags t 0x200) 2 = true) ∧ (t.pods.rx = []) := by decide +kernel

theorem test_recomputeInTime :
  let ctx : BitVec 20 := 3
  let pos : Nat := 7
  let s : State := { setSeq qz (fun q => { q with requests := [qreq] }) with ridge := 1000 }
  let t : State := after (.recomputeTimeout ctx pos) s
  s.power = .on ∧ (s.ridge ≤ 1000 * rdF s A.SEQ_RECOMP_TIMEOUT 19 0) ∧ (t.seq = s.seq) := by decide +kernel

theorem test_seqCtl :
  let agent : Agent := .host
  let v : Word := 3
  let s : State := qoff
  let t : State := after (.seqCtl agent v) s
  s.power = .on ∧ (takesEffect s agent A.SEQ_CTL v.toNat = true) ∧ (seqOn s = false) ∧ (bitN v.toNat 0 = true) ∧ (seqRegionsOk s = true) ∧ (seqOn t = true) ∧ (rdB t A.SEQ_CTL 1 = true) := by decide +kernel

theorem test_seqRejected :
  let agent : Agent := .host
  let v : Word := 3
  let s : State := z
  let t : State := after (.seqCtl agent v) s
  s.power = .on ∧ (takesEffect s agent A.SEQ_CTL v.toNat = true) ∧ (seqOn s = false) ∧ (bitN v.toNat 0 = true) ∧ (seqRegionsOk s = false) ∧ (seqOn t = false) ∧ (bitN (evtFlags t 0x200) 6 = true) := by decide +kernel

theorem test_seqDropEnable :
  let agent : Agent := .host
  let v : Word := 2
  let s : State := z
  let t : State := after (.seqCtl agent v) s
  s.power = .on ∧ (takesEffect s agent A.SEQ_CTL v.toNat = true) ∧ (seqOn s = false) ∧ (bitN v.toNat 0 = false) ∧ (seqOn t = false) ∧ (rdB t A.SEQ_CTL 1 = bitN v.toNat 1) := by decide +kernel

theorem test_seqDisable :
  let agent : Agent := .host
  let v : Word := 0
  let s : State := wr z A.SEQ_CTL 1
  let t : State := after (.seqCtl agent v) s
  s.power = .on ∧ (takesEffect s agent A.SEQ_CTL v.toNat = true) ∧ (seqOn s = true) ∧ (bitN v.toNat 0 = false) ∧ (rd s A.SEQ_CONTEXTS = 0) ∧ (seqOn t = false) ∧ (rdB t A.SEQ_STATUS 0 = false) := by decide +kernel

theorem test_seqStays :
  let agent : Agent := .host
  let v : Word := 0
  let s : State := wr (wr z A.SEQ_CTL 1) A.SEQ_CONTEXTS 2
  let t : State := after (.seqCtl agent v) s
  s.power = .on ∧ (takesEffect s agent A.SEQ_CTL v.toNat = true) ∧ (seqOn s = true) ∧ (rd s A.SEQ_CONTEXTS = 2) ∧ (seqOn t = true) := by decide +kernel

theorem test_seqInject :
  let agent : Agent := .host
  let v : Word := 1
  let s : State := unlocked z 0x200
  let t : State := after (.seqInject agent v) s
  s.power = .on ∧ (takesEffect s agent A.SEQ_INJECT v.toNat = true) ∧ (rdB t A.SEQ_INJECT 0 = bitN v.toNat 0) := by decide +kernel

theorem test_appendWrites :
  (appendBlocks qappending (qcmd 3 qAppend .running) (parseSeq (qcmd 3 qAppend .running).bytes) qe2 qg0
    (seqRows qappending 1 0 false 0x1040000000 0 1 1).2.1 [[]]).1 = 0 := by decide +kernel

theorem test_restoreWrites :
  (writeBlockLayer qrestoring qe2 0 0 none [0x80000002] (seqRows qrestoring 1 0 false 0x1040000000 0 1 1).2.1 [[]] 1 0).1 = 0 := by
  decide +kernel

theorem test_graphLoad :
  let no : Nat := 1
  let p : RxPod := gLoad
  let g : Graph := oneGraph 6
  let s : State := withPod (memPut z 0x1000000000 gImage) gLoad
  let t : State := after (.graphLoad no) s
  s.power = .on ∧ ((takePod s 1 4 (isControl 5 1)).map (·.1) = some p) ∧ (p.hdr.length = 3) ∧ (leAt p.body 1 7 = 0) ∧ (leNat (p.body.drop 20) = 0) ∧ (64 ≤ leAt p.body 16 4) ∧ (dramRange (leAt p.body 8 8) (leAt p.body 16 4) = true) ∧ (encWaits s (leAt p.body 8 8) (leAt p.body 16 4) = false) ∧ ((readGraph s (leAt p.body 0 1) (leAt p.body 8 8) (leAt p.body 16 4) p.hdr.cls p.hdr.sequence).1 = 0) ∧ ((graphOf t 2).map (fun g => (g.addr, g.len, g.cls, g.jobs.map (·.unit))) = some (0x1000000000, 128, 2, [6])) ∧ (t.pods.rx = []) := by decide +kernel

theorem test_graphRefused :
  let no : Nat := 1
  let st : Nat := St.GRAPH_INVALID
  let p : RxPod := gLoad
  let s : State := withPod z gLoad
  let t : State := after (.graphLoad no) s
  s.power = .on ∧ ((takePod s 1 4 (isControl 5 1)).map (·.1) = some p) ∧ (p.hdr.length = 3) ∧ (leAt p.body 1 7 = 0) ∧ (leNat (p.body.drop 20) = 0) ∧ (64 ≤ leAt p.body 16 4) ∧ (dramRange (leAt p.body 8 8) (leAt p.body 16 4) = true) ∧ (encWaits s (leAt p.body 8 8) (leAt p.body 16 4) = false) ∧ ((readGraph s (leAt p.body 0 1) (leAt p.body 8 8) (leAt p.body 16 4) p.hdr.cls p.hdr.sequence).1 = st) ∧ (t.graphs = s.graphs) ∧ (t.pods.rx = []) := by decide +kernel

theorem test_graphLoadMalformed :
  let no : Nat := 1
  let p : RxPod := { gLoad with hdr := { gLoad.hdr with length := 4 } }
  let s : State := withPod z { gLoad with hdr := { gLoad.hdr with length := 4 } }
  let t : State := after (.graphLoad no) s
  s.power = .on ∧ ((takePod s 1 4 (isControl 5 1)).map (·.1) = some p) ∧ (p.hdr.length = 4) ∧ (t.graphs = s.graphs) ∧ (t.pods.rx = []) := by decide +kernel

theorem test_graphUnload :
  let no : Nat := 1
  let p : RxPod := ctl 5 2 ([2] ++ zeros 23)
  let g : Graph := oneGraph 6
  let s : State := setGraph (withPod z (ctl 5 2 ([2] ++ zeros 23))) 2 (some (oneGraph 6))
  let t : State := after (.graphUnload no) s
  s.power = .on ∧ ((takePod s 1 4 (isControl 5 2)).map (·.1) = some p) ∧ (p.hdr.length = 3) ∧ (leNat (p.body.drop 1) = 0) ∧ (graphOf s (leAt p.body 0 1) = some g) ∧ (g.unload = none) ∧ ((g.bound && fgOn s g.fg) = false) ∧ (activeInsts s = []) ∧ (graphOf t 2 = none) ∧ (t.pods.rx = []) := by decide +kernel

theorem test_unloadWaits :
  let no : Nat := 1
  let p : RxPod := ctl 5 2 ([2] ++ zeros 23)
  let g : Graph := oneGraph 6
  let s : State := setGraph { withPod z (ctl 5 2 ([2] ++ zeros 23)) with insts := [oneInst (runJob 6)] } 2 (some (oneGraph 6))
  let t : State := after (.graphUnload no) s
  s.power = .on ∧ ((takePod s 1 4 (isControl 5 2)).map (·.1) = some p) ∧ (p.hdr.length = 3) ∧ (leNat (p.body.drop 1) = 0) ∧ (graphOf s (leAt p.body 0 1) = some g) ∧ (g.unload = none) ∧ ((g.bound && fgOn s g.fg) = false) ∧ ((activeInsts s).map (·.slot) = [2]) ∧ ((graphOf t 2).map (·.unload) = some (some 1)) := by decide +kernel

theorem test_unloadBusy :
  let no : Nat := 1
  let p : RxPod := ctl 5 2 ([2] ++ zeros 23)
  let g : Graph := { oneGraph 6 with unload := some 4 }
  let s : State := setGraph (withPod z (ctl 5 2 ([2] ++ zeros 23))) 2 (some { oneGraph 6 with unload := some 4 })
  let t : State := after (.graphUnload no) s
  s.power = .on ∧ ((takePod s 1 4 (isControl 5 2)).map (·.1) = some p) ∧ (p.hdr.length = 3) ∧ (leNat (p.body.drop 1) = 0) ∧ (graphOf s (leAt p.body 0 1) = some g) ∧ (g.unload.isSome = true) ∧ (t.graphs = s.graphs) ∧ (t.pods.rx = []) := by decide +kernel

theorem test_unloadMalformed :
  let no : Nat := 1
  let p : RxPod := ctl 5 2 ([2, 1] ++ zeros 22)
  let s : State := withPod z (ctl 5 2 ([2, 1] ++ zeros 22))
  let t : State := after (.graphUnload no) s
  s.power = .on ∧ ((takePod s 1 4 (isControl 5 2)).map (·.1) = some p) ∧ (leNat (p.body.drop 1) = 1) ∧ (t.graphs = s.graphs) ∧ (t.pods.rx = []) := by decide +kernel

theorem test_instanceStart :
  let slot : BitVec 8 := 2
  let g : Graph := { oneGraph 6 with queue := [sReq] }
  let q : StartReq := sReq
  let rest : List StartReq := []
  let s : State := setGraph { z with starts := [(2, sReq)] } 2 (some (oneGraph 6))
  let t : State := after (.instanceStart slot) s
  s.power = .on ∧ (graphOf (admitStarts s 2) 2 = some g) ∧ (g.queue = q :: rest) ∧ (encWaits s g.paramAddr g.paramSize = false) ∧ (g.bound = false) ∧ (g.unload = none) ∧ (queueReady s q = true) ∧ (s.insts = []) ∧ ((writeParams (setGraph (admitStarts s 2) 2 (some { g with queue := rest })) g q).1 = 0) ∧ (t.insts.map (fun x => (x.slot, x.frame, x.cls, x.jobs.map (·.stage))) = [(2, 5, 2, [.waiting])]) ∧ ((graphOf t 2).map (·.queue) = some []) := by decide +kernel

theorem test_startWaits :
  let slot : BitVec 8 := 2
  let s : State := setGraph { z with starts := [(2, sReq)], insts := [oneInst (runJob 6)] } 2 (some (oneGraph 6))
  let t : State := after (.instanceStart slot) s
  s.power = .on ∧ ((activeInsts s).map (·.slot) = [2]) ∧ (t.insts.length = 1) ∧ ((graphOf t 2).map (·.queue) = some [sReq]) := by decide +kernel

theorem test_jobFire :
  let x : Instance := oneInst { entry := oneJob 6 }
  let j : JobRun := { entry := oneJob 6 }
  let s : State := { setGraph z 2 (some (oneGraph 6)) with insts := [x], cores := smSet (fun _ => {}) z.cores 2 { running := true }, nextExec := 4294967295 }
  let t : State := after .jobFire s
  s.power = .on ∧ (coreStalled s 2 = false) ∧ (nextReady s = some (x, j)) ∧ (badWait s x j = false) ∧ ((findExec t 4294967295).map (fun y => (y.1.id, y.2.stage)) = some (3, .running)) ∧ (t.nextExec = 0) ∧ (rd t A.DSP_FIRED = 1) := by decide +kernel

theorem test_fireBadWait :
  let x : Instance := oneInst { entry := { oneJob 6 with waits := [{ peg := 0x4006, lag := 0, epoch := false, target := 1 }] } }
  let j : JobRun := { entry := { oneJob 6 with waits := [{ peg := 0x4006, lag := 0, epoch := false, target := 1 }] } }
  let g : Graph := oneGraph 6
  let s : State := { setGraph z 2 (some (oneGraph 6)) with insts := [x], cores := smSet (fun _ => {}) z.cores 2 { running := true } }
  let t : State := after .jobFire s
  s.power = .on ∧ (coreStalled s 2 = false) ∧ (nextReady s = some (x, j)) ∧ (badWait s x j = true) ∧ (x.life = .active) ∧ (s.insts.find? (fun y => y.id == x.id) = some x) ∧ (graphOf s x.slot = some g) ∧ (g.unload = none) ∧ (t.insts = []) ∧ (t.nextExec = s.nextExec) := by decide +kernel

theorem test_nothingFires :
  let s : State := { z with cores := smSet (fun _ => {}) z.cores 2 { running := true } }
  let t : State := after .jobFire s
  s.power = .on ∧ (nextReady s = none) ∧ (t.insts = []) := by decide +kernel

theorem test_jobComplete :
  let ex : BitVec 32 := 7
  let x : Instance := { oneInst { runJob 5 with finished := 1 } with jobs := [{ runJob 5 with finished := 1 }, { entry := { oneJob 5 with index := 1 } }] }
  let j : JobRun := { runJob 5 with finished := 1 }
  let s : State := { jz 5 [] with insts := [x] }
  let t : State := after (.jobComplete ex) s
  s.power = .on ∧ (findExec s 7 = some (x, j)) ∧ (s.insts.find? (fun y => y.id == x.id) = some x) ∧ (jobAwake s j = true) ∧ (j.entry.unit = 5) ∧ (j.entry.descCount ≤ j.finished) ∧ (pegUnconfigured s j.entry.peg = false) ∧ (x.life = .active) ∧ (exitsDone (doneJob x 0) = false) ∧ (t.insts.map (fun y => y.jobs.map (·.stage)) = [[.done, .waiting]]) := by decide +kernel

theorem test_lastExit :
  let ex : BitVec 32 := 7
  let x : Instance := oneInst { runJob 5 with finished := 1 }
  let j : JobRun := { runJob 5 with finished := 1 }
  let g : Graph := oneGraph 5
  let s : State := { jz 5 [] with insts := [x] }
  let t : State := after (.jobComplete ex) s
  s.power = .on ∧ (findExec s 7 = some (x, j)) ∧ (s.insts.find? (fun y => y.id == x.id) = some x) ∧ (jobAwake s j = true) ∧ (j.entry.unit = 5) ∧ (j.entry.descCount ≤ j.finished) ∧ (pegUnconfigured s j.entry.peg = false) ∧ (x.life = .active) ∧ (exitsDone (doneJob x 0) = true) ∧ (graphOf s 2 = some g) ∧ (g.unload = none) ∧ (t.insts = []) ∧ ((graphOf t 2).map (·.done) = some 1) := by decide +kernel

theorem test_straggler :
  let ex : BitVec 32 := 7
  let x : Instance := { oneInst { runJob 5 with finished := 1 } with life := .completed, jobs := [{ runJob 5 with finished := 1 }, { entry := { oneJob 5 with index := 1 } }] }
  let j : JobRun := { runJob 5 with finished := 1 }
  let s : State := { jz 5 [] with insts := [x] }
  let t : State := after (.jobComplete ex) s
  s.power = .on ∧ (findExec s 7 = some (x, j)) ∧ (s.insts.find? (fun y => y.id == x.id) = some x) ∧ (jobAwake s j = true) ∧ (j.entry.unit = 5) ∧ (j.entry.descCount ≤ j.finished) ∧ (pegUnconfigured s j.entry.peg = false) ∧ (x.life = .completed) ∧ (t.insts.map (fun y => y.jobs.map (·.stage)) = [[.done, .waiting]]) := by decide +kernel

theorem test_retired :
  let ex : BitVec 32 := 9
  let s : State := jz 5 []
  let t : State := after (.jobComplete ex) s
  s.power = .on ∧ (findExec s ex.toNat = none) ∧ (rd t A.DSP_LATE_DISCARD = 1) := by decide +kernel

theorem test_afterDeadline :
  let ex : BitVec 32 := 7
  let x : Instance := { oneInst { runJob 5 with finished := 1 } with life := .cut, jobs := [{ runJob 5 with finished := 1 }, { runJob 5 with exec := 8, entry := { oneJob 5 with index := 1 } }] }
  let j : JobRun := { runJob 5 with finished := 1 }
  let s : State := { jz 5 [] with insts := [x] }
  let t : State := after (.jobComplete ex) s
  s.power = .on ∧ (findExec s 7 = some (x, j)) ∧ (jobAwake s j = true) ∧ (x.life = .cut) ∧ (j.entry.unit = 5) ∧ (j.entry.descCount ≤ j.finished) ∧ (t.insts.map (fun y => y.jobs.map (·.stage)) = [[.cancelled, .running]]) ∧ (rd t A.DSP_LATE_DISCARD = 1) := by decide +kernel

theorem test_donePegUnconfigured :
  let ex : BitVec 32 := 7
  let x : Instance := oneInst { runJob 5 with finished := 1, entry := { oneJob 5 with peg := 0x4006 } }
  let j : JobRun := { runJob 5 with finished := 1, entry := { oneJob 5 with peg := 0x4006 } }
  let g : Graph := oneGraph 5
  let s : State := { jz 5 [] with insts := [x] }
  let t : State := after (.jobComplete ex) s
  s.power = .on ∧ (findExec s ex.toNat = some (x, j)) ∧ (jobAwake s j = true) ∧ (x.life = .active) ∧ (j.entry.unit ≠ 6) ∧ (j.entry.descCount ≤ j.finished) ∧ (pegUnconfigured s j.entry.peg = true) ∧ (s.insts.find? (fun y => y.id == x.id) = some x) ∧ (graphOf s x.slot = some g) ∧ (g.unload = none) ∧ (t.insts = []) := by decide +kernel

theorem test_notYet :
  let ex : BitVec 32 := 7
  let x : Instance := oneInst (runJob 5)
  let j : JobRun := runJob 5
  let s : State := jz 5 []
  let t : State := after (.jobComplete ex) s
  s.power = .on ∧ (findExec s 7 = some (x, j)) ∧ (j.entry.unit = 5) ∧ (j.finished < j.entry.descCount) ∧ (t.insts = s.insts) := by decide +kernel

theorem test_jobTimeout :
  let ex : BitVec 32 := 7
  let x : Instance := oneInst (runJob 5)
  let j : JobRun := runJob 5
  let s : State := wr { jz 5 [] with ridge := 60000 } A.FC_REEXEC_CFG 1
  let t : State := after (.jobTimeout ex) s
  s.power = .on ∧ (findExec s 7 = some (x, j)) ∧ (jobAwake s j = true) ∧ (j.firedAt + effTimeout j.entry ≤ s.ridge) ∧ (j.retries < retryLimit s) ∧ (x.life = .active) ∧ (t.insts.map (fun y => y.jobs.map (·.stage)) = [[.retrying]]) ∧ (rd t A.DSP_TIMEOUTS = 1) ∧ (bitN (evtFlags t 0x0E0) 1 = true) ∧ (t.fc.inbox.map (·.source) = [0x101]) := by decide +kernel

theorem test_timeoutEnds :
  let ex : BitVec 32 := 7
  let x : Instance := oneInst (runJob 5)
  let j : JobRun := runJob 5
  let g : Graph := oneGraph 5
  let s : State := wr { jz 5 [] with ridge := 60000 } A.FC_REEXEC_CFG 0
  let t : State := after (.jobTimeout ex) s
  s.power = .on ∧ (findExec s ex.toNat = some (x, j)) ∧ (jobAwake s j = true) ∧ (j.firedAt + effTimeout j.entry ≤ s.ridge) ∧ (retryLimit s ≤ j.retries) ∧ (x.life = .active) ∧ (s.insts.find? (fun y => y.id == x.id) = some x) ∧ (graphOf s x.slot = some g) ∧ (g.unload = none) ∧ (t.insts = []) ∧ (rd t A.DSP_TIMEOUTS = 1) := by decide +kernel

theorem test_timeoutAfterEnd :
  let ex : BitVec 32 := 7
  let x : Instance := { oneInst (runJob 5) with life := .cut, jobs := [runJob 5, { runJob 5 with exec := 8, entry := { oneJob 5 with index := 1 } }] }
  let j : JobRun := runJob 5
  let s : State := { jz 5 [] with ridge := 60000, insts := [x] }
  let t : State := after (.jobTimeout ex) s
  s.power = .on ∧ (findExec s 7 = some (x, j)) ∧ (jobAwake s j = true) ∧ (j.firedAt + effTimeout j.entry ≤ s.ridge) ∧ (x.life = .cut) ∧ (t.insts.map (fun y => y.jobs.map (·.stage)) = [[.cancelled, .running]]) ∧ (rd t A.DSP_TIMEOUTS = 1) := by decide +kernel

theorem test_inTime :
  let ex : BitVec 32 := 7
  let s : State := jz 5 []
  let t : State := after (.jobTimeout ex) s
  s.power = .on ∧ (s.ridge < effTimeout (oneJob 5)) ∧ (t.insts = s.insts) := by decide +kernel

theorem test_resultEmitter :
  let s : State := { rz with insts := [oneInst { runJob 6 with entry := { oneJob 6 with ring := 2, result := 0x1000000000 } }] }
  let t := after (.jobComplete 7) s
  jobAwake s (runJob 6) = true ∧ t.insts = [] ∧ (ringOf t 2).queue.map (·.pod.kind) = [8, 8] := by decide +kernel

theorem test_fgEnable :
  let agent : Agent := .host
  let g : Fin 8 := 0
  let n : Nat := 2
  let s : State := fz
  let t : State := after (.fgEnable agent g) s
  s.power = .on ∧ (takesEffect s agent (A.FG_CTL g.val) 1 = true) ∧ (fgOn s g.val = false) ∧ (ridgeLocked s = true) ∧ (replaying s = false) ∧ (n = ceilDiv (s.ridge + 1000000 - fgStart s g.val) (fgPeriod s g.val)) ∧ (fgOn t g.val = true) ∧ (fgOf t g.val = { first := n, cur := n, running := (fgOf s g.val).running }) ∧ (rd t (A.FG_FRAME g.val) = (rd s (A.FG_FRAME0 g.val) + n) % 4294967296) := by decide +kernel

theorem test_fgEnableInReplay :
  let agent : Agent := .host
  let g : Fin 8 := 1
  let d : Int := 5
  let s : State := let s : State := wr (wr (wr (wr rrz (A.FG_PERIOD 1) 1000000) A.RIDGE_STATUS 2) A.RR_HEAD 1) A.RR_CTL 2; { s with rr := { s.rr with delta := some 5 } }
  let t : State := after (.fgEnable agent g) s
  s.power = .on ∧ (takesEffect s agent (A.FG_CTL g.val) 1 = true) ∧ (fgOn s g.val = false) ∧ (ridgeLocked s = true) ∧ (replaying s = true) ∧ (s.rr.delta = some d) ∧ (fgOn t 1 = true) ∧ ((fgOf t 1).cycle = none) ∧ (t.rr.delta = some 5) := by decide +kernel

theorem test_fgEnableMarked :
  let agent : Agent := .host
  let g : Fin 8 := 0
  let at_ : Nat := 0
  let kind : Nat := 5
  let aux : Nat := 0
  let b : List Byte := []
  let s : State := wr (wr (wr (wr rrz (A.FG_PERIOD 0) 1000000) A.RIDGE_STATUS 2) A.RR_HEAD 1) A.RR_CTL 2
  let t : State := after (.fgEnable agent g) s
  s.power = .on ∧ (takesEffect s agent (A.FG_CTL g.val) 1 = true) ∧ (fgOn s g.val = false) ∧ (ridgeLocked s = true) ∧ (replaying s = true) ∧ (s.rr.delta = none) ∧ (rrEntry s (rd s A.RR_START) = some (at_, kind, g.val, aux, b)) ∧ (fgOn t 0 = true) ∧ ((fgOf t 0).cycle = some (s.ridge + 1000000, 0)) ∧ (t.rr.delta = some (s.ridge + 1000000)) := by decide +kernel

theorem test_fgUnlocked :
  let agent : Agent := .host
  let g : Fin 8 := 0
  let s : State := wr (wr z A.ID_RING 3) A.RIDGE_STATUS 0
  let t : State := after (.fgEnable agent g) s
  s.power = .on ∧ (takesEffect s agent (A.FG_CTL g.val) 1 = true) ∧ (fgOn s g.val = false) ∧ (ridgeLocked s = false) ∧ (fgOn t g.val = false) ∧ (t.fgs = s.fgs) ∧ (bitN (evtFlags t 3) 0 = true) := by decide +kernel

theorem test_fgAlreadyOn :
  let agent : Agent := .host
  let g : Fin 8 := 0
  let s : State := wr fz (A.FG_CTL 0) 1
  let t : State := after (.fgEnable agent g) s
  s.power = .on ∧ (takesEffect s agent (A.FG_CTL g.val) 1 = true) ∧ (fgOn s g.val = true) ∧ (fgOn t 0 = true) := by decide +kernel

theorem test_fgDisable :
  let agent : Agent := .host
  let g : Fin 8 := 0
  let s : State := setFg (wr fz (A.FG_CTL 0) 1) 0 { first := 2, cur := 2, running := [(4, 5, 6)] }
  let t : State := after (.fgDisable agent g) s
  s.power = .on ∧ (takesEffect s agent (A.FG_CTL g.val) 0 = true) ∧ (fgOn s g.val = true) ∧ (fgOn t g.val = false) ∧ (fgOf t g.val = { running := (fgOf s g.val).running }) ∧ (rd t (A.FG_FRAME g.val) = 0) ∧ (t.insts = s.insts) := by decide +kernel

theorem test_fgAlreadyOff :
  let agent : Agent := .host
  let g : Fin 8 := 0
  let s : State := fz
  let t : State := after (.fgDisable agent g) s
  s.power = .on ∧ (takesEffect s agent (A.FG_CTL g.val) 0 = true) ∧ (fgOn s g.val = false) ∧ (fgOn t 0 = false) := by decide +kernel

theorem test_cycleLaunch :
  let g : Fin 8 := 0
  let l : Nat := 2000000
  let k : Nat := 2
  let s : State := setGraph (setFg (wr { fz with ridge := 2000000 } (A.FG_CTL 0) 1) 0 { first := 2, cur := 2 }) 2 (some { oneGraph 6 with bound := true })
  let t : State := after (.cycleLaunch g) s
  s.power = .on ∧ (nextLaunch s g.val = some (l, k)) ∧ (l ≤ s.ridge) ∧ ((fgOf t 0).launched = true) ∧ ((fgOf t 0).running.map (fun c => (c.1, c.2.1)) = [(2000000, 2)]) ∧ (t.insts.map (fun x => (x.slot, x.frame)) = [(2, 2)]) ∧ (rd t (A.FG_FRAME 0) = 2) := by decide +kernel

theorem test_replayEndsGroup :
  let g : Fin 8 := 0
  let s : State := let s : State := setFg (wr (wr rrz (A.FG_CTL 0) 1) A.RR_CTL 2) 0 { running := [(4, 5, 6)] }; { s with rr := { s.rr with delta := some 5, ended := true } }
  let t : State := after (.cycleLaunch g) s
  s.power = .on ∧ (nextLaunch s g.val = none) ∧ (replayStops s g.val = true) ∧ (fgOn t 0 = false) ∧ ((fgOf t 0).running = [(4, 5, 6)]) ∧ (rrMode t = 0) := by decide +kernel

theorem test_notDue :
  let g : Fin 8 := 0
  let s : State := setFg (wr fz (A.FG_CTL 0) 1) 0 { first := 2, cur := 2 }
  let t : State := after (.cycleLaunch g) s
  s.power = .on ∧ (nextLaunch s 0 = some (2000000, 2)) ∧ (s.ridge < 2000000) ∧ (t.insts = []) := by decide +kernel

theorem test_cycleDeadline :
  let g : Fin 8 := 0
  let s : State := setFg { jz 6 [] with ridge := 9, insts := [{ oneInst { entry := oneJob 6 } with cycle := some (0, 4, 9) }] } 0 { running := [(4, 0, 9)] }
  let t : State := after (.cycleDeadline g) s
  s.power = .on ∧ ((fgOf t 0).running = []) ∧ (t.insts = []) ∧ (rd t (A.FG_MISSED 0) = 1) ∧ (bitN (evtFlags t 3) 1 = true) := by decide +kernel

theorem test_deadlineMissed :
  let g : Fin 8 := 0
  let r : Nat × Nat × Nat := (4, 0, 9)
  let s : State := setFg { jz 6 [] with ridge := 9, insts := [{ oneInst { entry := oneJob 6 } with cycle := some (0, 4, 9) }] } 0 { running := [(4, 0, 9)] }
  let t : State := after (.cycleDeadline g) s
  s.power = .on ∧ ((fgOf s g.val).running.filter (fun c => decide (c.2.2 ≤ s.ridge)) = [r]) ∧ (s.insts.any (fun x => x.life == .active && x.cycle.any (fun c => c.1 == g.val && c.2.1 == r.1)) = true) ∧ (rd t (A.FG_MISSED g.val) = min (rd s (A.FG_MISSED g.val) + 1) 0xFFFFFFFF) ∧ (bitN (evtFlags t 3) 1 = true) ∧ (bitN (evtFlags t 0x0E0) 2 = true) := by decide +kernel

theorem test_rrRecord :
  let agent : Agent := .host
  let v : Word := 0x70F
  let s : State := unlocked (wr z A.RR_HEAD 6) 2
  let t : State := after (.rrRecord agent v) s
  s.power = .on ∧ (takesEffect s agent A.RR_CTL (rrFields v.toNat + 1) = true) ∧ (rrMode s ≠ 1) ∧ (rrMode t = 1) ∧ (t.rr = {}) ∧ (rd t A.RR_HEAD = 0) ∧ (rdF t A.RR_CTL 15 8 = 7) := by decide +kernel

theorem test_rrRecordsOn :
  let agent : Agent := .host
  let v : Word := 0x70F
  let s : State := unlocked (wr (wr z A.RR_HEAD 6) A.RR_CTL 1) 2
  let t : State := after (.rrRecord agent v) s
  s.power = .on ∧ (takesEffect s agent A.RR_CTL (rrFields v.toNat + 1) = true) ∧ (rrMode s = 1) ∧ (rrMode t = 1) ∧ (rd t A.RR_HEAD = 6) ∧ (rdF t A.RR_CTL 15 8 = 7) := by decide +kernel

theorem test_rrReplay :
  let agent : Agent := .host
  let v : Word := 2
  let s : State := unlocked rrz 2
  let t : State := after (.rrReplay agent v) s
  s.power = .on ∧ (takesEffect s agent A.RR_CTL (rrFields v.toNat + 2) = true) ∧ ((rrEntry s (rd s A.RR_START)).map (fun e => e.2.1) = some 5) ∧ (rd s A.RR_START < rrUnits s) ∧ (strict s = true) ∧ (∀ g < 8, fgOn s g = false) ∧ (rrMode t = 2) ∧ (bitN (evtFlags t 2) 5 = false) := by decide +kernel

theorem test_rrReplayRefused :
  let agent : Agent := .host
  let v : Word := 2
  let s : State := unlocked z 2
  let t : State := after (.rrReplay agent v) s
  s.power = .on ∧ (takesEffect s agent A.RR_CTL (rrFields v.toNat + 2) = true) ∧ (strict s = false) ∧ (rrMode t = rrMode s) ∧ (t.rr = s.rr) ∧ (bitN (evtFlags t 2) 5 = true) ∧ (t.fgs = s.fgs) := by decide +kernel

theorem test_rrOff :
  let agent : Agent := .host
  let v : Word := 0
  let s : State := unlocked (wr z A.RR_CTL 1) 2
  let t : State := after (.rrOff agent v) s
  s.power = .on ∧ (takesEffect s agent A.RR_CTL (rrFields v.toNat) = true) ∧ (s.rr.delta = none) ∧ (rrMode t = 0) ∧ (t.rr = { s.rr with delta := none, ended := false, voids := [] }) ∧ (t.fgs = s.fgs) ∧ (t.mem = s.mem) := by decide +kernel

theorem test_rrReplayLeft :
  let agent : Agent := .host
  let v : Word := 0
  let d : Int := 5
  let s : State := let s : State := unlocked (setFg (wr (wr fz (A.FG_CTL 0) 1) A.RR_CTL 2) 0 { cycle := some (4, 5), running := [(4, 5, 6)] }) 2; { s with rr := { s.rr with delta := some 5 } }
  let t : State := after (.rrOff agent v) s
  s.power = .on ∧ (takesEffect s agent A.RR_CTL (rrFields v.toNat) = true) ∧ (s.rr.delta = some d) ∧ (rrMode t = 0) ∧ ((fgOf t 0).cycle = none) ∧ ((fgOf t 0).first = 2) := by decide +kernel

theorem test_replaysFrame :
  let d : Int := 5
  let at_ : Nat := 0
  let src : Nat := 1
  let aux : Nat := 12884901890
  let b : List Byte := [4]
  let s : State := let s : State := memPut (wr rrz A.RR_HEAD 9) 0x1000000000 (rrBytes 0 1 1 12884901890 0 [4]); wr { s with ridge := 9, rr := { s.rr with delta := some 5 } } A.RR_CTL 2
  let t : State := after .replayEntry s
  s.power = .on ∧ (s.rr.delta = some d) ∧ (s.rr.ended = false) ∧ (rrEntry s s.rr.pos = some (at_, 1, src, aux, b)) ∧ (t.rr.pos = 2) := by decide +kernel

theorem test_replaysPod :
  let d : Int := 5
  let at_ : Nat := 0
  let src : Nat := 1
  let aux : Nat := 12884901890
  let b : List Byte := [4]
  let s : State := let s : State := memPut (wr rrz A.RR_HEAD 9) 0x1000000000 (rrBytes 0 2 1 12884901890 0 [4]); wr { s with ridge := 9, rr := { s.rr with delta := some 5 } } A.RR_CTL 2
  let t : State := after .replayEntry s
  s.power = .on ∧ (s.rr.delta = some d) ∧ (s.rr.ended = false) ∧ (rrEntry s s.rr.pos = some (at_, 2, src, aux, b)) ∧ (t.rr.pos = 2) := by decide +kernel

theorem test_replaysWrite :
  let d : Int := 5
  let at_ : Nat := 0
  let aux : Nat := 0x1000020000
  let b : List Byte := [4]
  let s : State := let s : State := memPut (wr rrz A.RR_HEAD 9) 0x1000000000 (rrBytes 0 3 0 0x1000020000 0 [4]); wr { s with ridge := 9, rr := { s.rr with delta := some 5 } } A.RR_CTL 2
  let t : State := after .replayEntry s
  s.power = .on ∧ (s.rr.delta = some d) ∧ (s.rr.ended = false) ∧ (rrEntry s s.rr.pos = some (at_, 3, 0, aux, b)) ∧ (encWaits s aux b.length = false) ∧ (t.rr.pos = 2) ∧ (memByte t 0x1000020000 = 4) := by decide +kernel

theorem test_replaysVoid :
  let d : Int := 5
  let at_ : Nat := 0
  let src : Nat := 1
  let aux : Nat := 12884901890
  let b : List Byte := []
  let s : State := let s : State := memPut (wr rrz A.RR_HEAD 9) 0x1000000000 (rrBytes 0 4 1 12884901890 0 []); wr { s with ridge := 9, rr := { s.rr with delta := some 5 } } A.RR_CTL 2
  let t : State := after .replayEntry s
  s.power = .on ∧ (s.rr.delta = some d) ∧ (s.rr.ended = false) ∧ (rrEntry s s.rr.pos = some (at_, 4, src, aux, b)) ∧ (t.rr.pos = 1) ∧ (t.rr.voids = [(1, 2, 3)]) := by decide +kernel

theorem test_replayOver :
  let d : Int := 5
  let at_ : Nat := 0
  let src : Nat := 1
  let aux : Nat := 12884901890
  let b : List Byte := []
  let s : State := let s : State := memPut (wr rrz A.RR_HEAD 1) 0x1000000000 (rrBytes 0 4 1 12884901890 0 []); wr { s with ridge := 9, rr := { s.rr with delta := some 5 } } A.RR_CTL 2
  let t : State := after .replayEntry s
  s.power = .on ∧ (s.rr.delta = some d) ∧ (s.rr.ended = false) ∧ (rrEntry s s.rr.pos = some (at_, 4, src, aux, b)) ∧ (replaying s = true) ∧ (t.rr.pos = 1) ∧ (rrMode t = 0) ∧ (t.rr.delta = none) ∧ (bitN (evtFlags t 2) 3 = true) := by decide +kernel

theorem test_replayUnreadable :
  let d : Int := 5
  let g : Fin 8 := 0
  let s : State := let s : State := wr (wr rrz (A.FG_CTL 0) 1) A.RR_CTL 2; { s with rr := { s.rr with delta := some 5, pos := 4 } }
  let t : State := after .replayEntry s
  s.power = .on ∧ (s.rr.delta = some d) ∧ (s.rr.ended = false) ∧ (rrEntry s s.rr.pos = none) ∧ (fgOn s g.val = true) ∧ (t.rr.ended = true) ∧ (t.rr.pos = s.rr.pos) ∧ (t.rr.delta = some d) := by decide +kernel

theorem test_replayWaits :
  let s : State := rrz
  let t : State := after .replayEntry s
  s.power = .on ∧ (s.rr.delta = none) ∧ (t.rr = s.rr) := by decide +kernel

theorem test_reexecutionStart :
  let inst : Nat := 3
  let job : Nat := 0
  let x : Instance := oneInst { runJob 5 with stage := .retrying }
  let j : JobRun := { runJob 5 with stage := .retrying }
  let s : State := { jz 5 [] with insts := [x], nextExec := 8, cores := smSet (fun _ => {}) z.cores 2 { running := true } }
  let t : State := after (.reexecutionStart (.job inst job)) s
  s.power = .on ∧ (s.insts.find? (fun x => x.id == inst) = some x) ∧ (x.jobs.find? (fun j => j.entry.index == job && j.stage == .retrying) = some j) ∧ (coreStalled s 2 = false) ∧ ((findExec t 8).map (fun y => (y.1.flags, y.2.retries)) = some (64, 1)) := by decide +kernel

theorem test_reexecArray :
  let id : Nat := 5
  let st : Nat := 9
  let op : Op := { arrOp with stage := .failed 9 }
  let o2 : Op := { arrOp with unit := 1, stage := .waiting, issueUnits := [1], retries := 1 }
  let l : List Nat := [1]
  let s : State := { oz op with cores := smSet (fun _ => {}) z.cores 3 { running := true } }
  let t : State := after (.reexecutionStart (.op id)) s
  s.power = .on ∧ (opOf s id = some op) ∧ (op.stage = .failed st) ∧ (coreStalled s 3 = false) ∧ (opLive s op = true) ∧ (op.unit < 4) ∧ (streamFits s op = true) ∧ (reexecArrays s op 1 = some l) ∧ (o2 = { op with unit := 1, stage := .waiting, issueUnits := [1], retries := 1 }) ∧ (opBlocked (jobFlags (updOp s 5 (fun _ => o2)) 7 64) o2 = false) ∧ (opWaits (jobFlags (updOp s 5 (fun _ => o2)) 7 64) o2 (arrOperands (parseArr op.desc)) = false) ∧ ((opResolve (jobFlags (updOp s 5 (fun _ => o2)) 7 64) o2 (arrOperands (parseArr op.desc))).1 = 0) ∧ (t.ops.map (fun o => (o.unit, o.retries, o.stage)) = [(1, 1, .running)]) := by decide +kernel

theorem test_reexecEngine :
  let id : Nat := 5
  let st : Nat := 9
  let op : Op := { vecOp with stage := .failed 9 }
  let s : State := let s := oz op 0 vecDesc; { s with ops := [op, { vecOp with id := 6 }] }
  let t : State := after (.reexecutionStart (.op id)) s
  s.power = .on ∧ (opOf s id = some op) ∧ (op.stage = .failed st) ∧ (coreStalled s (3 + op.cluster) = false) ∧ (opLive s op = true) ∧ (4 ≤ op.unit) ∧ (unitFenced s op.cluster op.unit = false) ∧ ((∃ o ∈ s.ops, o.id ≠ op.id ∧ o.cluster = op.cluster ∧ o.unit = op.unit ∧ o.stage ≠ .queued)) ∧ (t.ops = s.ops.map (fun o => if o.id = op.id then { o with stage := .queued, retries := o.retries + 1 } else o)) ∧ (t.mem = s.mem) := by decide +kernel

theorem test_reexecGone :
  let id : Nat := 5
  let st : Nat := 9
  let op : Op := { vecOp with stage := .failed 9, exec := 99 }
  let s : State := let s := oz op 0 vecDesc; { s with ops := [op] }
  let t : State := after (.reexecutionStart (.op id)) s
  s.power = .on ∧ (opOf s id = some op) ∧ (op.stage = .failed st) ∧ (coreStalled s (3 + op.cluster) = false) ∧ (opLive s op = false) ∧ (t.ops = []) ∧ (rd t A.DSP_LATE_DISCARD = 1) := by decide +kernel

theorem test_reexecSeq :
  let id : Nat := 4
  let st : Nat := 9
  let c : SeqCmd := { qcmd 2 [] .running with issuer := .job 7 0 3 0 }
  let s : State := setSeq { writeEntry qz 3 qe with insts := [oneInst (runJob 5)] } (fun q => { q with failed := [(c, 9)] })
  let t : State := after (.reexecutionStart (.seq id)) s
  s.power = .on ∧ (s.seq.failed.find? (fun c => c.1.id == id) = some (c, st)) ∧ (cmdOp c = 2) ∧ ((seqValidate s c.bytes c.cls 0 false).1 = 0) ∧ (t.seq.cmds.map (·.retries) = [1]) ∧ (t.seq.failed = []) ∧ (t.insts.map (·.flags) = [64]) := by decide +kernel

theorem test_nothingAgain :
  let r : Reexec := .op 5
  let s : State := oz arrOp
  let t : State := after (.reexecutionStart r) s
  s.power = .on ∧ ((opOf s 5).map (·.stage) = some .running) ∧ (t.ops = s.ops) := by decide +kernel

theorem test_dramRefresh :
  let ch : Fin 16 := 3
  let s : State := { z with flagged := [4] }
  let t : State := after (.dramRefresh ch) s
  s.power = .on ∧ (t.flagged = []) := by decide +kernel

theorem test_dramTempSample :
  let temps : Vector (BitVec 16) 20 := #v[5, 6, 7, 8, 9, 10, 11, 12, 13, 14, 15, 16, 17, 18, 19, 20, 200, 0, 0xFFFF, 0]
  let s : State := z
  let t : State := after (.dramTempSample temps) s
  s.power = .on ∧ (rd t (A.CH_TEMP 3) = 8 + 65536 * 200) ∧ (rd t (A.CH_TEMP 9) = 14 + 65536 * 65535) ∧ (dramMax t = 200) ∧ (rdF t A.MEM_TEMP_MAX 20 16 = 16) ∧ (levelActive t 0x132 = true) ∧ (bitN (evtFlags t 0x260) 3 = true) ∧ (rdB t (A.CH_STATUS 2) 1 = true) ∧ (rdB t (A.CH_STATUS 4) 1 = false) := by decide +kernel

theorem test_dramCeRate :
  let ch : Fin 16 := 2
  let s : State := wr { z with corrections := [(2, 5)] } (A.CH_CE_LIMIT 2) 4
  let t : State := after (.dramCeRate ch) s
  s.power = .on ∧ (t.corrections = []) ∧ (levelActive t 0x122 = true) ∧ (bitN (evtFlags t 0x242) 2 = true) ∧ (t.fc.inbox.map (·.source) = [0x122]) := by decide +kernel

theorem test_dramScrubPass :
  let s : State := setScrub { wr z A.MEM_SCRUB_CFG 0x10001 with ridge := 3600000000004 } 4 { started := true, startAt := 4, done := 9 }
  let t : State := after (.dramScrubPass false) s
  s.power = .on ∧ (scrubOn s 4 = true) ∧ ((scrubOf s 4).started = true) ∧ ((scrubOf s 4).startAt + 3600000000000 * rdF s A.MEM_SCRUB_CFG 7 0 ≤ s.ridge) ∧ (rd t A.MEM_SCRUB_LAG = 1) ∧ (bitN (evtFlags t 0x260) 0 = true) ∧ ((scrubOf t 4).done = 0) := by decide +kernel

theorem test_dramPassRead :
  let s : State := setScrub { wr z A.MEM_SCRUB_CFG 0x10001 with ridge := 3600000000004 } 4 { started := true, startAt := 4, done := 2147483647 }
  let t : State := after (.dramScrubPass true) s
  s.power = .on ∧ (scrubOn s 4 = true) ∧ ((scrubOf s 4).started = true) ∧ ((scrubOf s 4).startAt + 3600000000000 * rdF s A.MEM_SCRUB_CFG 7 0 ≤ s.ridge) ∧ (rd t A.MEM_SCRUB_LAG = 0) ∧ (rd t A.MEM_SCRUB_PASSES = 1) ∧ ((scrubOf t 4).done = 0) := by decide +kernel

theorem test_dramScrubRuns :
  let complete : Bool := false
  let s : State := z
  let t : State := after (.dramScrubPass complete) s
  s.power = .on ∧ ((scrubOf s 4).started = false) ∧ (t.scrubs = s.scrubs) := by decide +kernel

theorem test_chInject :
  let agent : Agent := .host
  let ch : Fin 16 := 5
  let v : Word := 7
  let s : State := unlocked z 0x245
  let t : State := after (.chInject agent ch v) s
  s.power = .on ∧ (takesEffect s agent (A.CH_INJECT ch.val) v.toNat = true) ∧ (rd t (A.CH_INJECT ch.val) % 4 = v.toNat % 4) := by decide +kernel

theorem test_encRegionEnable :
  let agent : Agent := .firmware 0
  let r : Fin 16 := 3
  let v : Word := 0xE
  let s : State := ez
  let t : State := after (.encRegionEnable agent r v) s
  s.power = .on ∧ (takesEffect s agent (A.ENC_CTL r.val) (setFldN v.toNat 0 0 1) = true) ∧ (encOn s r.val = false) ∧ (trngFailed s = false) ∧ (s.sec.keysStopped = false) ∧ (encConfigOk s r.val = true) ∧ (encOn t r.val = true) ∧ (rd t (A.ENC_STATUS r.val) = 2) ∧ ((keySlot t (fldN v.toNat 4 1)).valid = true) ∧ ((keySlot t (fldN v.toNat 4 1)).imported = false) ∧ (t.mem = s.mem) := by decide +kernel

theorem test_encRegionEnable_2 :
  let agent : Agent := .firmware 0
  let r : Fin 16 := 3
  let v : Word := 0xE
  let s : State := wr ez (A.ENC_META_HI 3) 0x10
  let t : State := after (.encRegionEnable agent r v) s
  s.power = .on ∧ (takesEffect s agent (A.ENC_CTL r.val) (setFldN v.toNat 0 0 1) = true) ∧ (encOn s r.val = false) ∧ (trngFailed s = false) ∧ (s.sec.keysStopped = false) ∧ (encConfigOk s r.val = false) ∧ (encOn t r.val = false) ∧ (rd t (A.ENC_STATUS r.val) = rd s (A.ENC_STATUS r.val)) ∧ (bitN (evtFlags t 0x261) 1 = true) ∧ (t.keySlots = s.keySlots) ∧ (t.mem = s.mem) := by decide +kernel

theorem test_encEnableHeld :
  let agent : Agent := .firmware 0
  let r : Fin 16 := 3
  let v : Word := 0xE
  let s : State := fillz
  let t : State := after (.encRegionEnable agent r v) s
  s.power = .on ∧ (takesEffect s agent (A.ENC_CTL r.val) (setFldN v.toNat 0 0 1) = true) ∧ (encOn s 3 = true) ∧ (t.keySlots = s.keySlots) := by decide +kernel

theorem test_encRegionReady :
  let r : Fin 16 := 3
  let s : State := wr (wr (wr ez (A.ENC_CTL 3) 1) (A.ENC_SIZE 3) 0) (A.ENC_STATUS 3) 2
  let t : State := after (.encRegionReady r) s
  s.power = .on ∧ (encOn s r.val = true) ∧ (rdB s (A.ENC_STATUS r.val) 1 = true) ∧ (rd t (A.ENC_STATUS 3) = 1) := by decide +kernel

theorem test_encNotFilling :
  let r : Fin 16 := 3
  let s : State := ez
  let t : State := after (.encRegionReady r) s
  s.power = .on ∧ (encOn s 3 = false) ∧ (t.mem = s.mem) := by decide +kernel

theorem test_encRegionDisable :
  let agent : Agent := .firmware 0
  let r : Fin 16 := 3
  let v : Word := 0
  let s : State := wr (wr (wr ez (A.ENC_CTL 3) 1) (A.ENC_SIZE 3) 0) (A.ENC_STATUS 3) 1
  let t : State := after (.encRegionDisable agent r v) s
  s.power = .on ∧ (takesEffect s agent (A.ENC_CTL r.val) (setFldN v.toNat 0 0 0) = true) ∧ (encOn s r.val = true) ∧ (rdB s (A.ENC_STATUS r.val) 0 = true) ∧ (encOn t 3 = false) ∧ (rd t (A.ENC_STATUS 3) = 0) := by decide +kernel

theorem test_encDisableFilling :
  let agent : Agent := .firmware 0
  let r : Fin 16 := 3
  let v : Word := 0
  let s : State := wr (wr (wr ez (A.ENC_CTL 3) 1) (A.ENC_SIZE 3) 0) (A.ENC_STATUS 3) 2
  let t : State := after (.encRegionDisable agent r v) s
  s.power = .on ∧ (takesEffect s agent (A.ENC_CTL r.val) (setFldN v.toNat 0 0 0) = true) ∧ (encOn s r.val = true) ∧ (rdB s (A.ENC_STATUS r.val) 0 = false) := by decide +kernel

theorem test_encDisableOff :
  let agent : Agent := .firmware 0
  let r : Fin 16 := 3
  let v : Word := 4
  let s : State := ez
  let t : State := after (.encRegionDisable agent r v) s
  s.power = .on ∧ (takesEffect s agent (A.ENC_CTL r.val) (setFldN v.toNat 0 0 0) = true) ∧ (encOn s r.val = false) ∧ (encOn t 3 = false) ∧ (rd t (A.ENC_CTL 3) = 4) := by decide +kernel

theorem test_encReadyConfig : encConfigOk (wr (wr ez (A.ENC_CTL 3) 1) (A.ENC_STATUS 3) 2) 3 = true := by decide +kernel

theorem test_guylineFlitReceive :
  let p : Fin 3 := 0
  let b : List Byte := []
  let bad : Bool := false
  let jobs : List (BitVec 32) := []
  let s : State := kz
  let t : State := after (.guylineFlitReceive p b bad jobs) s
  s.power = .on ∧ (glUp s p.val = true) ∧ ((bad || b.length != 256 || crc32c (b.take 252) != leAt b 252 4) = true) ∧ ((glOf s p.val).nak = false) ∧ (t.glOut.map (fun f => (f.1, leAt f.2 0 2, leAt f.2 6 2, f.2.length)) = [(0, 0x1FFF, 1, 256)]) ∧ ((glOf t p.val).nak = true) := by decide +kernel

theorem test_flitAhead :
  let p : Fin 3 := 0
  let b : List Byte := flit0
  let bad : Bool := false
  let jobs : List (BitVec 32) := []
  let s : State := setGl kz 0 { rxSeq := 4090 }
  let t : State := after (.guylineFlitReceive p b bad jobs) s
  s.power = .on ∧ (glUp s 0 = true) ∧ ((bad || b.length != 256 || crc32c (b.take 252) != leAt b 252 4) = false) ∧ (leAt b 0 2 = 0) ∧ (t.glOut.map (fun f => (f.1, leAt f.2 0 2, leAt f.2 2 2 % 4096, leAt f.2 6 2)) = [(0, 0x1FFF, 4090, 1)]) ∧ ((glOf t p.val).nak = true) := by decide +kernel

theorem test_flitAgain :
  let p : Fin 3 := 0
  let b : List Byte := flit0
  let bad : Bool := false
  let jobs : List (BitVec 32) := []
  let s : State := setGl kz 0 { rxSeq := 6 }
  let t : State := after (.guylineFlitReceive p b bad jobs) s
  s.power = .on ∧ (glUp s p.val = true) ∧ ((bad || b.length != 256 || crc32c (b.take 252) != leAt b 252 4) = false) ∧ (leAt b 0 2 / 4096 = 0) ∧ (¬(leAt b 0 2 % 4096 = ((glOf s p.val).rxSeq + 1) % 4096)) ∧ (((glOf s p.val).rxSeq + 4096 - leAt b 0 2 % 4096) % 4096 < 512) ∧ ((glOf s p.val).rxSeq < 4096) ∧ (bitN (leAt b 6 1) 0 = false) ∧ ((glOf s p.val).nak = false) ∧ (t.glOut.map (fun f => (f.1, leAt f.2 0 2, leAt f.2 2 2 % 4096, leAt f.2 6 2)) = [(0, 0x1FFF, 6, 0)]) ∧ ((glOf t 0).rxSeq = 6) := by decide +kernel

theorem test_flitIgnored :
  let p : Fin 3 := 0
  let b : List Byte := flit0
  let bad : Bool := false
  let jobs : List (BitVec 32) := []
  let s : State := z
  let t : State := after (.guylineFlitReceive p b bad jobs) s
  s.power = .on ∧ (glUp s 0 = false) ∧ (t.glOut = []) ∧ (t.gl = []) := by decide +kernel

theorem test_flitIdle :
  let p : Fin 3 := 0
  let b : List Byte := flitI
  let bad : Bool := false
  let jobs : List (BitVec 32) := []
  let s : State := { setGl kz 0 { retry := [(1, []), (2, []), (3, [])], retries := 4, ending := [(2, 7), (3, 8)] } with outWrites := [{ id := 7, agent := .host, pod := none, before := 0 }, { id := 8, agent := .host, pod := none, before := 0 }] }
  let t : State := after (.guylineFlitReceive p b bad jobs) s
  s.power = .on ∧ (glUp s p.val = true) ∧ ((bad || b.length != 256 || crc32c (b.take 252) != leAt b 252 4) = false) ∧ (leAt b 0 2 / 4096 = 1) ∧ (bitN (leAt b 6 1) 0 = false) ∧ ((glOf t 0).retry.map (·.1) = [3]) ∧ ((glOf t 0).retries = 0) ∧ (creditOf t 0 1 = 9) ∧ (creditOf t 0 0 = 0) ∧ (t.outWrites.map (·.id) = [8]) := by decide +kernel

theorem test_flitNak :
  let p : Fin 3 := 0
  let b : List Byte := flitN
  let bad : Bool := false
  let jobs : List (BitVec 32) := []
  let rest : List (Nat × List Byte) := [(3, [9])]
  let s : State := setGl kz 0 { retry := [(1, []), (2, [8]), (3, [9])], retries := 8 }
  let t : State := after (.guylineFlitReceive p b bad jobs) s
  s.power = .on ∧ (glUp s p.val = true) ∧ ((bad || b.length != 256 || crc32c (b.take 252) != leAt b 252 4) = false) ∧ (leAt b 0 2 / 4096 = 1) ∧ (bitN (leAt b 6 1) 0 = true) ∧ (rest = (if ((glOf s p.val).retry.any (fun f => f.1 == leAt b 2 2 % 4096)) = true then (((glOf s p.val).retry.dropWhile (fun f => f.1 != leAt b 2 2 % 4096)).drop 1) else (glOf s p.val).retry)) ∧ (rest ≠ []) ∧ (((glOf s p.val).retry.any (fun f => f.1 == leAt b 2 2 % 4096)) = true ∨ (glOf s p.val).retries < 8) ∧ (t.glOut = [(0, [9])]) ∧ ((glOf t 0).retries = 1) ∧ (rd t (A.GL_RETRIES 0) = 1) := by decide +kernel

theorem test_flitData :
  let p : Fin 3 := 0
  let b : List Byte := flit0
  let bad : Bool := false
  let jobs : List (BitVec 32) := []
  let s : State := kz
  let t : State := after (.guylineFlitReceive p b bad jobs) s
  s.power = .on ∧ (glUp s p.val = true) ∧ ((bad || b.length != 256 || crc32c (b.take 252) != leAt b 252 4) = false) ∧ (leAt b 0 2 / 4096 = 0) ∧ (leAt b 0 2 % 4096 = ((glOf s p.val).rxSeq + 1) % 4096) ∧ (flitHolds s p.val b = true) ∧ (bitN (leAt b 6 1) 0 = false) ∧ ((glOf t 0).rxSeq = 0) ∧ ((glOf t 0).rxFlits = 1) ∧ (t.glOut.map (fun f => (f.1, leAt f.2 2 2 % 4096, f.2.length)) = [(0, 0, 256)]) := by decide +kernel

theorem test_flitPacket :
  let p : Fin 3 := 0
  let b : List Byte := flitK pkW (packetCrc pkW)
  let bad : Bool := false
  let jobs : List (BitVec 32) := []
  let y : List Byte := padTo 224 (packetBytes pkW (packetCrc pkW))
  let k : Packet := pkW
  let s : State := kz
  let t : State := after (.guylineFlitReceive p b bad jobs) s
  s.power = .on ∧ (glUp s p.val = true) ∧ ((bad || b.length != 256 || crc32c (b.take 252) != leAt b 252 4) = false) ∧ (leAt b 0 2 / 4096 = 0) ∧ (leAt b 0 2 % 4096 = ((glOf s p.val).rxSeq + 1) % 4096) ∧ (flitHolds s p.val b = true) ∧ ((glOf s p.val).rxBytes = []) ∧ (y = flitPlain s p.val b) ∧ (1 ≤ leAt y 0 1 % 16) ∧ (leAt y 0 1 % 16 ≤ 8) ∧ ((48 + roundUp (payloadLen y) 16) ≤ 224) ∧ (y.drop (48 + roundUp (payloadLen y) 16) = zeros (224 - (48 + roundUp (payloadLen y) 16))) ∧ (k = parsePacket y ((y.drop 32).take (payloadLen y))) ∧ (k.dst = ringId s) ∧ (packetCrc k = (leAt y ((48 + roundUp (payloadLen y) 16) - 16) 4)) ∧ ((glOf t 0).rxq = [pkW]) := by decide +kernel

theorem test_flitForward :
  let p : Fin 3 := 0
  let b : List Byte := flitK pkF 5
  let bad : Bool := false
  let jobs : List (BitVec 32) := []
  let y : List Byte := padTo 224 (packetBytes pkF 5)
  let k : Packet := pkF
  let q : Nat := 1
  let s : State := wr (wr (wr kz (A.GL_CFG 1) 0x901) (A.GL_STATUS 1) 0x903) (A.GL_ROUTE 9) 2
  let t : State := after (.guylineFlitReceive p b bad jobs) s
  s.power = .on ∧ (glUp s p.val = true) ∧ ((bad || b.length != 256 || crc32c (b.take 252) != leAt b 252 4) = false) ∧ (leAt b 0 2 / 4096 = 0) ∧ (leAt b 0 2 % 4096 = ((glOf s p.val).rxSeq + 1) % 4096) ∧ (flitHolds s p.val b = true) ∧ ((glOf s p.val).rxBytes = []) ∧ (y = flitPlain s p.val b) ∧ (1 ≤ leAt y 0 1 % 16) ∧ (leAt y 0 1 % 16 ≤ 8) ∧ ((48 + roundUp (payloadLen y) 16) ≤ 224) ∧ (y.drop (48 + roundUp (payloadLen y) 16) = zeros (224 - (48 + roundUp (payloadLen y) 16))) ∧ (k = parsePacket y ((y.drop 32).take (payloadLen y))) ∧ (k.dst ≠ ringId s) ∧ (isTimeMsg k.kind = false) ∧ (k.hops + 1 < 255) ∧ (routePort s k.dst = some q) ∧ ((glOf t 1).txq = [{ pkF with hops := 1, crc := some 5 }]) ∧ ((glOf t 0).rxq = []) := by decide +kernel

theorem test_flitPacketBad :
  let p : Fin 3 := 0
  let b : List Byte := flitK pkW 5
  let bad : Bool := false
  let jobs : List (BitVec 32) := []
  let y : List Byte := padTo 224 (packetBytes pkW 5)
  let k : Packet := pkW
  let s : State := kz
  let t : State := after (.guylineFlitReceive p b bad jobs) s
  s.power = .on ∧ (glUp s p.val = true) ∧ ((bad || b.length != 256 || crc32c (b.take 252) != leAt b 252 4) = false) ∧ (leAt b 0 2 / 4096 = 0) ∧ (leAt b 0 2 % 4096 = ((glOf s p.val).rxSeq + 1) % 4096) ∧ (flitHolds s p.val b = true) ∧ ((glOf s p.val).rxBytes = []) ∧ (y = flitPlain s p.val b) ∧ (1 ≤ leAt y 0 1 % 16) ∧ (leAt y 0 1 % 16 ≤ 8) ∧ ((48 + roundUp (payloadLen y) 16) ≤ 224) ∧ (y.drop (48 + roundUp (payloadLen y) 16) = zeros (224 - (48 + roundUp (payloadLen y) 16))) ∧ (k = parsePacket y ((y.drop 32).take (payloadLen y))) ∧ (k.dst = ringId s) ∧ (packetCrc k ≠ (leAt y ((48 + roundUp (payloadLen y) 16) - 16) 4)) ∧ ((glOf t 0).rxq = []) ∧ (rd t (A.GL_E2E_CRC 0) = 1) ∧ (bitN (evtFlags t 0x288) 4 = true) ∧ (t.fc.inbox.map (fun r => (r.source, r.status)) = [(0x139, St.GUYLINE_E2E_CRC)]) := by decide +kernel

theorem test_flitAckTimeout :
  let p : Fin 3 := 0
  let s : State := { setGl kz 0 { retry := [(1, [7]), (2, [8])], retries := 7 } with ridge := 250 }
  let t : State := after (.flitAckTimeout p) s
  s.power = .on ∧ (glUp s p.val = true) ∧ ((glOf s p.val).ackAt + 250 ≤ s.ridge) ∧ ((glOf s p.val).retry ≠ []) ∧ ((glOf s p.val).retries < 8) ∧ (t.glOut = s.glOut ++ (glOf s p.val).retry.map (fun f => (p.val, f.2))) ∧ ((glOf t p.val) = { (glOf s p.val) with retries := (glOf s p.val).retries + 1, failAt := some ((glOf s p.val).failAt.getD s.ridge), ackAt := s.ridge }) ∧ (rd t (A.GL_RETRIES p.val) = (rd s (A.GL_RETRIES p.val) + 1) % 4294967296) := by decide +kernel

theorem test_ackInTime :
  let p : Fin 3 := 0
  let s : State := { setGl kz 0 { retry := [(1, [7])], retries := 8 } with ridge := 250 }
  let t : State := after (.flitAckTimeout p) s
  s.power = .on ∧ (8 ≤ (glOf s 0).retries) ∧ (t.glOut = []) ∧ (t.gl = s.gl) := by decide +kernel

theorem test_linkRetryFail :
  let p : Fin 3 := 0
  let jobs : List (BitVec 32) := []
  let f : Nat := 1
  let s : State := { setGl kz 0 { retry := [(1, [7])], failAt := some 1 } with ridge := 2001 }
  let t : State := after (.linkRetryFail p jobs) s
  s.power = .on ∧ (rdB s (A.GL_STATUS p.val) 0 = true) ∧ ((glOf s p.val).failAt = some f) ∧ (f + 2000 ≤ s.ridge ∨ 8 ≤ (glOf s p.val).retries) ∧ (glUp t p.val = false) ∧ (rdB t (A.GL_STATUS p.val) 0 = false) ∧ (rd t (A.GL_ROOT_TAG p.val) = 4096 * (p.val + 1) + (smGet (fun _ => 0) s.linkDowns (p.val + 1) + 1) % 4096) ∧ ((glOf t p.val).retry = []) ∧ ((glOf t p.val).txq = []) ∧ ((glOf t p.val).failoverAt = some (s.ridge + 101000)) ∧ (t.outWrites = s.outWrites.filter (fun w => !(portWrites (glOf s p.val)).contains w.id)) ∧ (bitN (evtFlags t (glPage p.val)) 0 = true) ∧ (rd t (A.GL_RETRY_FAILS p.val) = min (rd s (A.GL_RETRY_FAILS p.val) + 1) 0xFFFFFFFF) ∧ (bitN (evtFlags t (glPage p.val)) 1 = true) ∧ ((glOf t p.val).rxq = (glOf s p.val).rxq) ∧ ((0x139 + p.val, St.LINK_RETRY_FAIL) ∈ t.fc.inbox.map (fun r => (r.source, r.status))) := by decide +kernel

theorem test_retryHolds :
  let p : Fin 3 := 0
  let jobs : List (BitVec 32) := []
  let s : State := kz
  let t : State := after (.linkRetryFail p jobs) s
  s.power = .on ∧ ((glOf s 0).failAt = none) ∧ (t.gl = s.gl) := by decide +kernel

theorem test_guylineTrainingDone :
  let p : Fin 3 := 0
  let tr : GlTraining := { ring := 5, peerPort := 1, cert := [], ik := [], kem := [], buffers := #v[1, 2, 3, 4, 5, 6] }
  let s : State := wr (wr kz (A.GL_STATUS 0) 0) (hdrAddr (glPage 0) 0x044) 1
  let t : State := after (.guylineTrainingDone p tr) s
  s.power = .on ∧ (rdB s (A.GL_STATUS p.val) 0 = false) ∧ (rdB s (A.GL_CFG p.val) 0 = true) ∧ (locked s (glPage p.val) = true) ∧ ((glLanes p.val).all (laneFit s) = true) ∧ (tr.ring.toNat ≠ ringId s) ∧ (tr.ring.toNat = rdF s (A.GL_CFG p.val) 15 8) ∧ (rdB s A.SEC_TRNG_STATUS 1 = false) := by decide +kernel

theorem test_trainingRefused :
  let p : Fin 3 := 0
  let tr : GlTraining := { ring := 6, peerPort := 1, cert := [], ik := [], kem := [], buffers := #v[1, 2, 3, 4, 5, 6] }
  let s : State := wr (wr kz (A.GL_STATUS 0) 0) (hdrAddr (glPage 0) 0x044) 1
  let t : State := after (.guylineTrainingDone p tr) s
  s.power = .on ∧ (rdB s (A.GL_STATUS p.val) 0 = false) ∧ (rdB s (A.GL_CFG p.val) 0 = true) ∧ (locked s (glPage p.val) = true) ∧ ((glLanes p.val).all (laneFit s) = true) ∧ (tr.ring.toNat ≠ rdF s (A.GL_CFG 0) 15 8) ∧ (rdB t (A.GL_STATUS p.val) 0 = false) ∧ (rdF t (A.GL_STATUS p.val) 15 8 = tr.ring.toNat) ∧ (levelActive t (0x139 + p.val) = true) ∧ ((bitN (evtFlags t (glPage p.val)) 3 = (bitN (evtFlags s (glPage p.val)) 3 || (tr.ring.toNat != ringId s && tr.ring.toNat != rdF s (A.GL_CFG p.val) 15 8)))) ∧ (t.gl = s.gl) := by decide +kernel

theorem test_trainingIgnored :
  let p : Fin 3 := 0
  let tr : GlTraining := { ring := 6, peerPort := 1, cert := [], ik := [], kem := [], buffers := #v[1, 2, 3, 4, 5, 6] }
  let s : State := z
  let t : State := after (.guylineTrainingDone p tr) s
  s.power = .on ∧ (rdB s (A.GL_CFG 0) 0 = false) ∧ (t.gl = s.gl) := by decide +kernel

theorem test_guylinePacketSend :
  let p : Fin 3 := 0
  let k : Packet := { pk 1 with payload := [1, 2] }
  let s : State := setGl kz 0 { txq := [k], credit := [(2, 4)] }
  let t : State := after (.guylinePacketSend p) s
  s.power = .on ∧ (nextPacket s p.val [] (glOf s p.val).txq = some k) ∧ (glUp s p.val = true) ∧ ((glOf s p.val).retry.length + ceilDiv (packetSlots k) 14 ≤ 512) ∧ ((glOf s p.val).txSeq < 4096) ∧ (k.src = ringId s ∨ expired s k = false) ∧ ((glOf t 0).txq = []) ∧ ((glOf t 0).retry.map (fun f => (f.1, f.2.length)) = [(0, 256)]) ∧ (creditOf t 0 2 = 0) := by decide +kernel

theorem test_packetTooOld :
  let p : Fin 3 := 0
  let k : Packet := { pk 2 with timed := true }
  let s : State := wr { setGl kz 0 { txq := [k], credit := [(2, 4)] } with ridge := 100001 } A.RIDGE_STATUS 2
  let t : State := after (.guylinePacketSend p) s
  s.power = .on ∧ (nextPacket s p.val [] (glOf s p.val).txq = some k) ∧ (glUp s p.val = true) ∧ ((glOf s p.val).retry.length + ceilDiv (packetSlots k) 14 ≤ 512) ∧ (k.src ≠ ringId s) ∧ (expired s k = true) ∧ ((glOf t p.val) = { (glOf s p.val) with txq := (glOf s p.val).txq.erase k }) ∧ (t.glOut = s.glOut) ∧ (rd t (A.GL_EXPIRED p.val) = min (rd s (A.GL_EXPIRED p.val) + 1) 0xFFFFFFFF) ∧ (bitN (evtFlags t (glPage p.val)) 7 = true) ∧ ((0x139 + p.val, St.GUYLINE_EXPIRED) ∈ t.fc.inbox.map (fun r => (r.source, r.status))) := by decide +kernel

theorem test_packetWaits :
  let p : Fin 3 := 0
  let s : State := setGl kz 0 { txq := [pk 1], credit := [(2, 1)] }
  let t : State := after (.guylinePacketSend p) s
  s.power = .on ∧ (nextPacket s 0 [] (glOf s 0).txq = none) ∧ (t.gl = s.gl) ∧ (t.glOut = []) := by decide +kernel

theorem test_routeFailover :
  let p : Fin 3 := 0
  let f : Nat := 0
  let s : State := wr (setGl kz 0 { failoverAt := some 0 }) (A.GL_ROUTE 6) 0x21
  let t : State := after (.routeFailover p) s
  s.power = .on ∧ ((glOf s p.val).failoverAt = some f) ∧ (f ≤ s.ridge) ∧ (rdB t (A.GL_ROUTE 6) 8 = true) ∧ (rdB t (A.GL_ROUTE 5) 8 = false) ∧ (rd t A.GL_FAILOVERS = 1) ∧ (rdB t (A.GL_STATUS 0) 2 = true) ∧ ((glOf t 0).failoverAt = none) := by decide +kernel

theorem test_failoverEarly :
  let p : Fin 3 := 0
  let s : State := kz
  let t : State := after (.routeFailover p) s
  s.power = .on ∧ ((glOf s 0).failoverAt = none) ∧ (t.gl = s.gl) := by decide +kernel

theorem test_routeRestore :
  let p : Fin 3 := 0
  let f : Nat := 0
  let s : State := wr (setGl kz 0 { restoreAt := some 0 }) (A.GL_ROUTE 6) 0x121
  let t : State := after (.routeRestore p) s
  s.power = .on ∧ ((glOf s p.val).restoreAt = some f) ∧ (f ≤ s.ridge) ∧ (glUp s p.val = true) ∧ (rd t (A.GL_ROUTE 6) = 0x21) ∧ (rd t (A.GL_ROUTE 5) = 1) ∧ ((glOf t 0).restoreAt = none) := by decide +kernel

theorem test_restoreEarly :
  let p : Fin 3 := 0
  let s : State := kz
  let t : State := after (.routeRestore p) s
  s.power = .on ∧ ((glOf s 0).restoreAt = none) ∧ (t.gl = s.gl) := by decide +kernel

theorem test_openFibre :
  let lane : Fin 49 := 33
  let jobs : List (BitVec 32) := []
  let g : Nat := 32
  let s : State := { kz with ridge := 7 }
  let t : State := after (.openFibre lane jobs) s
  s.power = .on ∧ (laneGroup lane.val = some g) ∧ ((lanesOf s g).shut = none) ∧ ((lanesOf t 32).shut = some 7) ∧ (laneShut t 35 = true) ∧ (laneShut t 36 = false) ∧ (glUp t 0 = false) ∧ (bitN (evtFlags t 0x2A8) 0 = true) := by decide +kernel

theorem test_darkInShutdown :
  let lane : Fin 49 := 3
  let jobs : List (BitVec 32) := []
  let g : Nat := 3
  let f : Nat := 4
  let s : State := setLanes (wr z (A.PH_LANE_STATUS 3) 3) 3 { shut := some 4 }
  let t : State := after (.openFibre lane jobs) s
  s.power = .on ∧ (laneGroup lane.val = some g) ∧ ((lanesOf s g).shut = some f) ∧ (rd t (A.PH_LANE_STATUS 3) = 2) ∧ (t.lanes = s.lanes) := by decide +kernel

theorem test_darkLantern :
  let lane : Fin 49 := 47
  let jobs : List (BitVec 32) := []
  let s : State := z
  let t : State := after (.openFibre lane jobs) s
  s.power = .on ∧ (laneGroup lane.val = none) ∧ (t.lanes = s.lanes) := by decide +kernel

theorem test_lightReceived :
  let lane : Fin 49 := 46
  let g : Nat := 36
  let f : Nat := 4
  let s : State := setLanes (wr z (A.PH_LANE_STATUS 46) 2) 36 { shut := some 4 }
  let t : State := after (.lightReceived lane) s
  s.power = .on ∧ (laneGroup lane.val = some g) ∧ ((lanesOf s g).shut = some f) ∧ (lanesOf t 36 = {}) ∧ (laneShut t 46 = false) ∧ (rdB t A.PH_STATUS 0 = false) ∧ (bitN (evtFlags t 0x2A8) 2 = true) := by decide +kernel

theorem test_lightOutsideShutdown :
  let lane : Fin 49 := 3
  let s : State := z
  let t : State := after (.lightReceived lane) s
  s.power = .on ∧ ((lanesOf s 3).shut = none) ∧ (laneGroup 3 = some 3) ∧ (rd t (A.PH_LANE_STATUS 3) = 1) ∧ (t.lanes = []) := by decide +kernel

theorem test_probeStart :
  let g : Fin 37 := 9
  let f : Nat := 4
  let s : State := { setLanes (wr z A.PH_PROBE_CFG 1) 9 { shut := some 4 } with ridge := 1000004 }
  let t : State := after (.probeStart g) s
  s.power = .on ∧ ((lanesOf s g.val).shut = some f) ∧ ((lanesOf s g.val).probe = none) ∧ ((lanesOf s g.val).probed.getD f + probeInterval s ≤ s.ridge) ∧ (lanesOf t g.val = { lanesOf s g.val with probe := some s.ridge, probed := some s.ridge }) := by decide +kernel

theorem test_probeWaits :
  let g : Fin 37 := 9
  let s : State := z
  let t : State := after (.probeStart g) s
  s.power = .on ∧ ((lanesOf s 9).shut = none) ∧ (t.lanes = []) := by decide +kernel

theorem test_probeEnd :
  let g : Fin 37 := 9
  let f : Nat := 4
  let s : State := { setLanes z 9 { shut := some 4, probe := some 4 } with ridge := 2000004 }
  let t : State := after (.probeEnd g) s
  s.power = .on ∧ ((lanesOf s g.val).probe = some f) ∧ (f + 2000000 ≤ s.ridge) ∧ (lanesOf t g.val = { lanesOf s g.val with probe := none }) := by decide +kernel

theorem test_probeLasts :
  let g : Fin 37 := 9
  let s : State := z
  let t : State := after (.probeEnd g) s
  s.power = .on ∧ ((lanesOf s 9).probe = none) ∧ (t.lanes = []) := by decide +kernel

theorem test_laserFault :
  let lane : Fin 49 := 3
  let jobs : List (BitVec 32) := []
  let s : State := wr z (A.PORT_STATUS 3) 1
  let t : State := after (.laserFault lane jobs) s
  s.power = .on ∧ (laserCut s lane.val = false) ∧ (laserCut t 3 = true) ∧ (rdB t (A.PORT_STATUS 3) 0 = false) ∧ (t.fc.inbox.map (fun r => (r.source, r.status)) = [(0x043, St.LASER_FAULT)]) := by decide +kernel

theorem test_laserCutAlready :
  let lane : Fin 49 := 3
  let jobs : List (BitVec 32) := []
  let s : State := wr z (A.PH_LANE_STATUS 3) 4
  let t : State := after (.laserFault lane jobs) s
  s.power = .on ∧ (laserCut s lane.val = true) ∧ (t.lanes = []) := by decide +kernel

/-- A flit whose tag is all ones. -/
abbrev flit1 : List Byte :=
  let h : List Byte := zeros 232 ++ List.replicate 16 1 ++ zeros 4
  h ++ leBytes 4 (crc32c h)

/-- Whatever the cipher, one of two flits that differ in their tags alone is forged. -/
theorem test_flitForged : ∃ b : List Byte, ∃ s : State, s.power = .on ∧ glUp s 0 = true ∧
    (false || b.length != 256 || crc32c (b.take 252) != leAt b 252 4) = false ∧ leAt b 0 2 / 4096 = 0 ∧
    leAt b 0 2 % 4096 = ((glOf s 0).rxSeq + 1) % 4096 ∧ flitHolds s 0 b = false := by
  have hp : flitPlain (wr kz (A.GL_CFG 0) 0x503) 0 flit1 = flitPlain (wr kz (A.GL_CFG 0) 0x503) 0 flit0 := by
    unfold flitPlain
    rw [show (flit1.drop 8).take 224 = (flit0.drop 8).take 224 by decide +kernel]
  have he : rdB (wr kz (A.GL_CFG 0) 0x503) (A.GL_CFG 0) 1 = true := by decide +kernel
  rcases Bool.eq_false_or_eq_true (flitHolds (wr kz (A.GL_CFG 0) 0x503) 0 flit0) with h | h
  · refine ⟨flit1, wr kz (A.GL_CFG 0) 0x503, by decide +kernel, by decide +kernel, by decide +kernel, by decide +kernel,
      by decide +kernel, ?_⟩
    unfold flitHolds at h ⊢
    rw [hp, show flit1.take 8 = flit0.take 8 by decide +kernel, show (flit1.drop 232).take 16 = List.replicate 16 1 by decide +kernel]
    rw [show (flit0.drop 232).take 16 = zeros 16 by decide +kernel] at h
    simp only [he, Bool.not_true, Bool.false_or, beq_iff_eq, beq_eq_false_iff_ne, ne_eq] at h ⊢
    rw [h]
    decide
  · exact ⟨flit0, wr kz (A.GL_CFG 0) 0x503, by decide +kernel, by decide +kernel, by decide +kernel, by decide +kernel,
      by decide +kernel, h⟩

theorem test_laserFaultLantern : rdB (after (.laserFault 48 []) (wr z A.LANTERN_STATUS 3)) A.LANTERN_STATUS 1 = false := by decide +kernel

theorem test_glWrite :
  let p : Fin 3 := 0
  let lost : Bool := false
  let k : Packet := { pk 1 with addr := 0x1000000040, peg := 0x4006, payload := [7, 8] }
  let s : State := setPeg (kr k) 0x4006 { cfg := 0x400, count := 3 }
  let t : State := after (.glWrite p lost) s
  s.power = .on ∧ (headWaits s 0 (fun k => encWaits s k.addr k.payload.length) = false) ∧ ((takePacket s 0 1).map (·.1) = some k) ∧ (expired s k = false) ∧ ((busWrite s (packetAgent k) k.addr k.payload k.cls).1 = 0) ∧ (rrMode s = 0) ∧ (memBytes t 0x1000000040 2 = [7, 8]) ∧ ((pegAt t 0x4006).count = 5) ∧ ((glOf t 0).rxq = []) := by decide +kernel

theorem test_glWriteRefused :
  let p : Fin 3 := 0
  let lost : Bool := false
  let k : Packet := { pk 1 with addr := 0x2FC0000000, peg := 0x4006, payload := [7, 8] }
  let s : State := setPeg (kr k) 0x4006 { cfg := 0x400, count := 3 }
  let t : State := after (.glWrite p lost) s
  s.power = .on ∧ (headWaits s 0 (fun k => encWaits s k.addr k.payload.length) = false) ∧ ((takePacket s 0 1).map (·.1) = some k) ∧ (expired s k = false) ∧ ((busWrite s (packetAgent k) k.addr k.payload k.cls).1 ≠ 0) ∧ ((pegAt t 0x4006).count = 3) ∧ ((glOf t 0).rxq = []) := by decide +kernel

theorem test_glReadReq :
  let p : Fin 3 := 0
  let k : Packet := { pk 2 with addr := 0x1000000000, len := 2, readTag := 6 }
  let s : State := memPut (kr k) 0x1000000001 [9]
  let t : State := after (.glReadReq p) s
  s.power = .on ∧ (headWaits s 0 (fun k => encWaits s k.addr k.len) = false) ∧ ((takePacket s 0 2).map (·.1) = some k) ∧ (expired s k = false) ∧ ((busRead s (packetAgent k) k.addr k.len k.cls).1 = 0) ∧ (routePort s k.src = some 0) ∧ ((glOf t 0).txq = [readAnswer s 0 k 0 [0, 9]]) ∧ ((glOf t 0).txq.map (fun m => (m.kind, m.dst, m.readTag, m.status, m.payload)) = [(3, 5, 6, 0, [0, 9])]) := by decide +kernel

theorem test_glReadNoRoute :
  let p : Fin 3 := 0
  let k : Packet := { pk 2 with src := 7, addr := 0x1000000000, len := 2, readTag := 6 }
  let s : State := kr k
  let t : State := after (.glReadReq p) s
  s.power = .on ∧ (headWaits s 0 (fun k => encWaits s k.addr k.len) = false) ∧ ((takePacket s 0 2).map (·.1) = some k) ∧ (expired s k = false) ∧ (routePort s k.src = none) ∧ ((glOf t 0).txq = []) ∧ ((glOf t 0).rxq = []) := by decide +kernel

theorem test_glReadCpl :
  let p : Fin 3 := 0
  let k : Packet := { pk 3 with readTag := 6, payload := [4] }
  let s : State := { kr k with remote := [{ tag := 6, at_ := 0, len := 1 }] }
  let t : State := after (.glReadCpl p) s
  s.power = .on ∧ ((takePacket s 0 3).map (·.1) = some k) ∧ (expired s k = false) ∧ (t.remote = []) ∧ (t.hostOut = [.data [4]]) ∧ ((glOf t 0).rxq = []) := by decide +kernel

theorem test_glReadCplStray :
  let p : Fin 3 := 0
  let k : Packet := { pk 3 with readTag := 6, payload := [4] }
  let s : State := { kr k with remote := [{ tag := 5, at_ := 0, len := 1 }] }
  let t : State := after (.glReadCpl p) s
  s.power = .on ∧ ((takePacket s 0 3).map (·.1) = some k) ∧ (expired s k = false) ∧ (t.hostOut = []) ∧ ((glOf t 0).rxq = []) := by decide +kernel

theorem test_glPod :
  let p : Fin 3 := 0
  let k : Packet := { pk 4 with first := false, payload := [4] }
  let s : State := setGl kz 0 { rxq := [k], asm := [(21, [9])] }
  let t : State := after (.glPod p) s
  s.power = .on ∧ (headWaits s 0 (fun k => decide (creditNow s < assembledBytes s + k.payload.length)) = false) ∧ ((takePacket s 0 4).map (·.1) = some k) ∧ (expired s k = false) ∧ (t.podsIn = [(1, [9, 4])]) ∧ ((glOf t 0).asm = []) := by decide +kernel

theorem test_glPegInc :
  let p : Fin 3 := 0
  let k : Packet := { pk 5 with addr := 0x100000009, peg := 0x4006 }
  let s : State := setPeg (kr k) 0x4006 { cfg := 0x200, count := 3 }
  let t : State := after (.glPegInc p) s
  s.power = .on ∧ ((takePacket s 0 5).map (·.1) = some k) ∧ (expired s k = false) ∧ ((pegAt t 0x4006).count = 12) ∧ ((glOf t 0).rxq = []) := by decide +kernel

theorem test_glSync :
  let p : Fin 3 := 0
  let k : Packet := { pk 6 with addr := 77 }
  let s : State := { uz (kr k) with ridge := 90 }
  let t : State := after (.glSync p) s
  s.power = .on ∧ ((takePacket s 0 6).map (·.1) = some k) ∧ (expired s k = false) ∧ (upstreamPort s = some 0) ∧ ((glOf t 0).t1 = some 77) ∧ ((glOf t 0).t2 = some 90) ∧ ((glOf t 0).txq.map (fun m => (m.kind, m.dst)) = [(7, 5)]) := by decide +kernel

theorem test_glSyncElsewhere :
  let p : Fin 3 := 0
  let k : Packet := { pk 6 with addr := 77 }
  let s : State := kr k
  let t : State := after (.glSync p) s
  s.power = .on ∧ ((takePacket s 0 6).map (·.1) = some k) ∧ (expired s k = false) ∧ (upstreamPort s = none) ∧ ((glOf t 0).t1 = none) ∧ ((glOf t 0).rxq = []) := by decide +kernel

theorem test_glDelayReq :
  let p : Fin 3 := 0
  let k : Packet := pk 7
  let s : State := { kr k with ridge := 90 }
  let t : State := after (.glDelayReq p) s
  s.power = .on ∧ ((takePacket s 0 7).map (·.1) = some k) ∧ (expired s k = false) ∧ ((glOf t 0).txq.map (fun m => (m.kind, m.dst, m.addr)) = [(8, 5, 90)]) := by decide +kernel

theorem test_glDelayResp :
  let p : Fin 3 := 0
  let hops : BitVec 8 := 1
  let epoch : BitVec 64 := 9
  let k : Packet := { pk 8 with addr := 60 }
  let t1 : Nat := 40
  let t2 : Nat := 52
  let t3 : Nat := 54
  let s : State := { uz (setGl kz 0 { rxq := [k], t1 := some 40, t2 := some 52, t3 := some 54 }) with ridge := 70 }
  let t : State := after (.glDelayResp p hops epoch) s
  s.power = .on ∧ ((takePacket s 0 8).map (·.1) = some k) ∧ (expired s k = false) ∧ (upstreamPort s = some 0) ∧ (t.ridge = 67) ∧ (rd t A.RIDGE_SKEW = 3) ∧ (t.time.good = 0) ∧ ((glOf t 0).rxq = []) ∧ ((glOf t 0).t1 = none) := by decide +kernel

theorem test_glDelayStray :
  let p : Fin 3 := 0
  let hops : BitVec 8 := 1
  let epoch : BitVec 64 := 9
  let k : Packet := { pk 8 with addr := 60 }
  let s : State := uz (kr k)
  let t : State := after (.glDelayResp p hops epoch) s
  s.power = .on ∧ ((takePacket s 0 8).map (·.1) = some k) ∧ (expired s k = false) ∧ ((glOf s 0).t1 = none) ∧ ((glOf t 0).rxq = []) ∧ (t.time = s.time) := by decide +kernel

theorem test_glWriteNotDue :
  let p : Fin 3 := 0
  let lost : Bool := false
  let s : State := kz
  let t : State := after (.glWrite p lost) s
  s.power = .on ∧ (takePacket s 0 1 = none) ∧ (t.gl = s.gl) := by decide +kernel

theorem test_glWriteTooOld :
  let p : Fin 3 := 0
  let lost : Bool := false
  let k : Packet := { pk 1 with timed := true }
  let s : State := wr { kr k with ridge := 100001 } A.RIDGE_STATUS 2
  let t : State := after (.glWrite p lost) s
  s.power = .on ∧ (headWaits s 0 (fun k => encWaits s k.addr k.payload.length) = false) ∧ ((takePacket s 0 1).map (·.1) = some k) ∧ (expired s k = true) ∧ ((glOf t 0).rxq = []) ∧ (rd t (A.GL_EXPIRED 0) = 1) := by decide +kernel

theorem test_glReadReqNotDue :
  let p : Fin 3 := 0
  let s : State := kz
  let t : State := after (.glReadReq p) s
  s.power = .on ∧ (takePacket s 0 2 = none) ∧ (t.gl = s.gl) := by decide +kernel

theorem test_glReadReqTooOld :
  let p : Fin 3 := 0
  let k : Packet := { pk 2 with timed := true }
  let s : State := wr { kr k with ridge := 100001 } A.RIDGE_STATUS 2
  let t : State := after (.glReadReq p) s
  s.power = .on ∧ (headWaits s 0 (fun k => encWaits s k.addr k.len) = false) ∧ ((takePacket s 0 2).map (·.1) = some k) ∧ (expired s k = true) ∧ ((glOf t 0).rxq = []) ∧ (rd t (A.GL_EXPIRED 0) = 1) := by decide +kernel

theorem test_glReadCplNotDue :
  let p : Fin 3 := 0
  let s : State := kz
  let t : State := after (.glReadCpl p) s
  s.power = .on ∧ (takePacket s 0 3 = none) ∧ (t.gl = s.gl) := by decide +kernel

theorem test_glReadCplTooOld :
  let p : Fin 3 := 0
  let k : Packet := { pk 3 with timed := true }
  let s : State := wr { kr k with ridge := 100001 } A.RIDGE_STATUS 2
  let t : State := after (.glReadCpl p) s
  s.power = .on ∧ ((takePacket s 0 3).map (·.1) = some k) ∧ (expired s k = true) ∧ ((glOf t 0).rxq = []) ∧ (rd t (A.GL_EXPIRED 0) = 1) := by decide +kernel

theorem test_glPodNotDue :
  let p : Fin 3 := 0
  let s : State := kz
  let t : State := after (.glPod p) s
  s.power = .on ∧ (takePacket s 0 4 = none) ∧ (t.gl = s.gl) := by decide +kernel

theorem test_glPodTooOld :
  let p : Fin 3 := 0
  let k : Packet := { pk 4 with timed := true }
  let s : State := wr { kr k with ridge := 100001 } A.RIDGE_STATUS 2
  let t : State := after (.glPod p) s
  s.power = .on ∧ (headWaits s 0 (fun k => decide (creditNow s < assembledBytes s + k.payload.length)) = false) ∧ ((takePacket s 0 4).map (·.1) = some k) ∧ (expired s k = true) ∧ ((glOf t 0).rxq = []) ∧ (rd t (A.GL_EXPIRED 0) = 1) := by decide +kernel

theorem test_glPegIncNotDue :
  let p : Fin 3 := 0
  let s : State := kz
  let t : State := after (.glPegInc p) s
  s.power = .on ∧ (takePacket s 0 5 = none) ∧ (t.gl = s.gl) := by decide +kernel

theorem test_glPegIncTooOld :
  let p : Fin 3 := 0
  let k : Packet := { pk 5 with timed := true }
  let s : State := wr { kr k with ridge := 100001 } A.RIDGE_STATUS 2
  let t : State := after (.glPegInc p) s
  s.power = .on ∧ ((takePacket s 0 5).map (·.1) = some k) ∧ (expired s k = true) ∧ ((glOf t 0).rxq = []) ∧ (rd t (A.GL_EXPIRED 0) = 1) := by decide +kernel

theorem test_glSyncNotDue :
  let p : Fin 3 := 0
  let s : State := kz
  let t : State := after (.glSync p) s
  s.power = .on ∧ (takePacket s 0 6 = none) ∧ (t.gl = s.gl) := by decide +kernel

theorem test_glSyncTooOld :
  let p : Fin 3 := 0
  let k : Packet := { pk 6 with timed := true }
  let s : State := wr { kr k with ridge := 100001 } A.RIDGE_STATUS 2
  let t : State := after (.glSync p) s
  s.power = .on ∧ ((takePacket s 0 6).map (·.1) = some k) ∧ (expired s k = true) ∧ ((glOf t 0).rxq = []) ∧ (rd t (A.GL_EXPIRED 0) = 1) := by decide +kernel

theorem test_glDelayReqNotDue :
  let p : Fin 3 := 0
  let s : State := kz
  let t : State := after (.glDelayReq p) s
  s.power = .on ∧ (takePacket s 0 7 = none) ∧ (t.gl = s.gl) := by decide +kernel

theorem test_glDelayReqTooOld :
  let p : Fin 3 := 0
  let k : Packet := { pk 7 with timed := true }
  let s : State := wr { kr k with ridge := 100001 } A.RIDGE_STATUS 2
  let t : State := after (.glDelayReq p) s
  s.power = .on ∧ ((takePacket s 0 7).map (·.1) = some k) ∧ (expired s k = true) ∧ ((glOf t 0).rxq = []) ∧ (rd t (A.GL_EXPIRED 0) = 1) := by decide +kernel

theorem test_glDelayRespNotDue :
  let p : Fin 3 := 0
  let hops : BitVec 8 := 1
  let epoch : BitVec 64 := 9
  let s : State := kz
  let t : State := after (.glDelayResp p hops epoch) s
  s.power = .on ∧ (takePacket s 0 8 = none) ∧ (t.gl = s.gl) := by decide +kernel

theorem test_glDelayRespTooOld :
  let p : Fin 3 := 0
  let hops : BitVec 8 := 1
  let epoch : BitVec 64 := 9
  let k : Packet := { pk 8 with timed := true }
  let s : State := wr { kr k with ridge := 100001 } A.RIDGE_STATUS 2
  let t : State := after (.glDelayResp p hops epoch) s
  s.power = .on ∧ ((takePacket s 0 8).map (·.1) = some k) ∧ (expired s k = true) ∧ ((glOf t 0).rxq = []) ∧ (rd t (A.GL_EXPIRED 0) = 1) := by decide +kernel

theorem test_syncInterval :
  let p : Fin 3 := 0
  let s : State := kz
  let t : State := after (.syncInterval p) s
  s.power = .on ∧ (glUp s 0 = true) ∧ (ridgeLocked s = true) ∧ (upstreamPort s = none) ∧ ((glOf s 0).t1 = none) ∧ ((glOf s 0).txq = []) ∧ ((glOf t 0).txq.map (fun m => (m.kind, m.dst)) = [(6, 5)]) := by decide +kernel

theorem test_syncNotDue :
  let p : Fin 3 := 0
  let s : State := z
  let t : State := after (.syncInterval p) s
  s.power = .on ∧ (glUp s 0 = false) ∧ (t.gl = []) := by decide +kernel

theorem test_syncTimeout :
  let s : State := wr { uz z with ridge := 1000000 } A.RIDGE_STATUS 2
  let t : State := after .syncTimeout s
  s.power = .on ∧ (ridgeMaster s = false) ∧ (rdB s A.RIDGE_STATUS 1 = true) ∧ (s.time.lastSync + 1000000 ≤ s.ridge) ∧ (rdB t A.RIDGE_STATUS 1 = false) ∧ (bitN (evtFlags t 3) 2 = true) ∧ (levelActive t 0x13C = true) ∧ (t.time = { s.time with good := 0, bad := 0, slew := 0 }) ∧ (t.ridge = s.ridge) := by decide +kernel

theorem test_syncStillHeard :
  let s : State := uz z
  let t : State := after .syncTimeout s
  s.power = .on ∧ (s.ridge < s.time.lastSync + 1000000) ∧ (t.time = s.time) := by decide +kernel

theorem test_lanternWordBoundary :
  let s : State := { wr z A.LANTERN_CFG 6 with lantern := { z.lantern with due := true }, ridge := 64000 }
  let t : State := after .lanternWordBoundary s
  s.power = .on ∧ (s.ridge % 32000 = 0) ∧ (rdF t A.LANTERN_STATUS 1 0 = 3) ∧ (t.lantern.due = false) ∧ (fldN t.lantern.word.toNat 31 10 = 0xA5 * 16384 + 6 * 2048 + 256) ∧ (crc8 32 t.lantern.word.toNat = 0) := by decide +kernel

theorem test_lanternMidWord :
  let s : State := { z with ridge := 5 }
  let t : State := after .lanternWordBoundary s
  s.power = .on ∧ (s.ridge % 32000 ≠ 0) ∧ (t.lantern = s.lantern) := by decide +kernel

theorem test_lanternTest :
  let agent : Agent := .host
  let v : Word := 1
  let s : State := unlocked (wr { z with ridge := 9 } A.LANTERN_STATUS 3) 0x2E0
  let t : State := after (.lanternTest agent v) s
  s.power = .on ∧ (takesEffectNow s agent A.LANTERN_TEST v.toNat = true) ∧ (v.getLsbD 0 = true) ∧ (s.lantern.test = none) ∧ (safeState s = false) ∧ (t.lantern.test = some s.ridge) ∧ (rdF t A.LANTERN_STATUS 1 0 = 0) ∧ (rdB t A.LANTERN_STATUS 2 = true) ∧ (rd t A.LANTERN_TESTS = (rd s A.LANTERN_TESTS + 1) % 4294967296) ∧ (t.lantern.word = 0) ∧ (t.lantern.due = false) := by decide +kernel

theorem test_lanternTestIgnored :
  let agent : Agent := .host
  let v : Word := 0
  let s : State := unlocked z 0x2E0
  let t : State := after (.lanternTest agent v) s
  s.power = .on ∧ (takesEffectNow s agent A.LANTERN_TEST v.toNat = true) ∧ (v.getLsbD 0 = false) ∧ (t.lantern = s.lantern) := by decide +kernel

theorem test_lanternTestEnd :
  let f : Nat := 0
  let s : State := wr (wr { z with ridge := 7000, lantern := { booted := true, test := some 0 } } A.LANTERN_TEST_LEN 7) A.LANTERN_STATUS 4
  let t : State := after .lanternTestEnd s
  s.power = .on ∧ (s.lantern.test = some f) ∧ (f + 1000 * rdF s A.LANTERN_TEST_LEN 16 0 ≤ s.ridge) ∧ (t.lantern.test = none) ∧ (t.lantern.due = true) ∧ (rdB t A.LANTERN_STATUS 2 = false) := by decide +kernel

theorem test_lanternTestRuns :
  let s : State := z
  let t : State := after .lanternTestEnd s
  s.power = .on ∧ (s.lantern.test = none) ∧ (t.lantern = s.lantern) := by decide +kernel

theorem test_sentryEnable :
  let agent : Agent := .host
  let v : Word := 0x4000001
  let s : State := unlocked z 0x2D0
  let t : State := after (.sentryEnable agent v) s
  s.power = .on ∧ (takesEffect s agent A.SNT_CTL v.toNat = true) ∧ (sentryRegionsOk s = true) ∧ (sentryOn t = true) ∧ (rdF t A.SNT_CTL 27 16 = 0x400) := by decide +kernel

theorem test_sentryRunStart :
  let k : Nat := 5
  let l : Nat := 0
  let s : State := { wr sz A.SNT_START_LIMIT 2 with ridge := 2000 }
  let t : State := after .sentryRunStart s
  s.power = .on ∧ (s.sentry.due = some (k, l)) ∧ (bistBusy s 0x2A = false) ∧ (sentryMissing s k = [] ∨ l + 1000 * rdF s A.SNT_START_LIMIT 19 0 ≤ s.ridge) ∧ (t.sentry.run = some (5, 2000, [0])) ∧ (t.sentry.due = none) := by decide +kernel

theorem test_sentryWaits :
  let s : State := z
  let t : State := after .sentryRunStart s
  s.power = .on ∧ (s.sentry.due = none) ∧ (t.sentry = s.sentry) := by decide +kernel

theorem test_sentryRunEnd :
  let cells : List (BitVec 2) := [1, 2]
  let corrected : Nat := 0
  let bad : Bool := false
  let k : Nat := 5
  let f : Nat := 1000
  let miss : List Nat := [0]
  let s : State := wr { z with ridge := 5000, sentry := { run := some (5, 1000, [0]) } } A.COMP_GRID_DIM 1
  let t : State := after (.sentryRunEnd cells corrected bad) s
  s.power = .on ∧ (s.sentry.run = some (k, f, miss)) ∧ (t.sentry.run = none) ∧ (t.sentry.last.map (·.frame) = some 5) ∧ (t.sntMem = [(0x7FC000, 9)]) ∧ (rd t A.SNT_STATUS = 2 + 65536 * 5) ∧ (rd t A.SNT_LAST_TIME = 4) := by decide +kernel

theorem test_sentryIdle :
  let cells : List (BitVec 2) := []
  let corrected : Nat := 1
  let bad : Bool := true
  let s : State := z
  let t : State := after (.sentryRunEnd cells corrected bad) s
  s.power = .on ∧ (s.sentry.run = none) ∧ (t.sntMem = s.sntMem) := by decide +kernel

theorem test_sntInject :
  let agent : Agent := .host
  let v : Word := 1
  let s : State := unlocked z 0x2D0
  let t : State := after (.sntInject agent v) s
  s.power = .on ∧ (takesEffect s agent A.SNT_INJECT v.toNat = true) ∧ (rdB t A.SNT_INJECT 0 = bitN v.toNat 0) := by decide +kernel

theorem test_compEnable :
  let agent : Agent := .host
  let v : Word := 0xF0820
  let s : State := unlocked (cz cc) 0x2D8
  let t : State := after (.compEnable agent v) s
  s.power = .on ∧ (takesEffect s agent A.COMP_CTL v.toNat = true) ∧ (bitN v.toNat 0 = true → compConfigOk s = true) ∧ (rd t A.COMP_CTL = 0xF0820) ∧ (t.comp.cycle = none) := by decide +kernel

theorem test_compUnusable :
  let agent : Agent := .host
  let v : Word := 1
  let s : State := unlocked (wr z A.COMP_GRID_DIM 0) 0x2D8
  let t : State := after (.compEnable agent v) s
  s.power = .on ∧ (takesEffect s agent A.COMP_CTL v.toNat = true) ∧ (bitN v.toNat 0 = true) ∧ (compConfigOk s = false) ∧ (rd t A.COMP_CTL = setFldN (setFldN (v.toNat % 0x100000) 0 0 (rdF s A.COMP_CTL 0 0)) 15 4 (if fgOn s (coveredFg s) = true ∨ fldN v.toNat 9 4 < fldN v.toNat 15 10 then rdF s A.COMP_CTL 15 4 else fldN v.toNat 15 4)) ∧ (compOn t = compOn s) ∧ (bitN (evtFlags t 0x2D8) 3 = true) := by decide +kernel

theorem test_judgementCutOff :
  let c : CompCycle := { cc with cut := false, seen := [0x400], snap := { compSnap z with entries := [0, 0x4000001] } }
  let s : State := cz c
  let t : State := after .judgementCutOff s
  s.power = .on ∧ (s.comp.cycle = some c) ∧ (c.cut = false) ∧ (cutOff c ≤ s.ridge) ∧ (rd t (A.COV_LAST 1) = 1 + 65536 * 5) ∧ (t.comp.cycle = some { c with cut := true }) := by decide +kernel

theorem test_judgementCutOff_2 :
  let k : Nat := 5
  let j : Nat := 9
  let s : State := { z with ridge := 9, sentry := { cutAt := some (5, 9), run := some (5, 1, []) } }
  let t : State := after .judgementCutOff s
  s.power = .on ∧ (s.sentry.cutAt = some (k, j)) ∧ (j ≤ s.ridge) ∧ (t.sentry.run = none) ∧ (rd t A.SNT_LATE_COUNT = 1) := by decide +kernel

theorem test_cutOffEarly :
  let s : State := z
  let t : State := after .judgementCutOff s
  s.power = .on ∧ (s.sentry.cutAt = none) ∧ (s.comp.cycle = none) ∧ (t.comp = s.comp) := by decide +kernel

theorem test_compVerdict :
  let rail : Bool := false
  let c : CompCycle := cc
  let z1 : Nat × Nat × Nat := (0, 0, 0)
  let s : State := wr (cz cc) A.COMP_CTL 0x10
  let t : State := after (.compVerdict rail) s
  s.power = .on ∧ (s.comp.cycle = some c) ∧ (c.judged = false) ∧ (c.cut = true ∨ inputsComplete s c = true) ∧ (c.safe = false) ∧ (safeState s = false) ∧ (judge s c rail = ([], z1)) ∧ (t.comp.window = [false, true]) ∧ (t.comp.cycle.map (·.judged) = some true) ∧ (rd t A.COMP_CYCLES = 1) ∧ (rdF t A.COMP_STATUS 10 8 = 0) := by decide +kernel

theorem test_compVerdict_2 :
  let rail : Bool := true
  let c : CompCycle := cc
  let v : Nat := 6
  let r : List Nat := []
  let z1 : Nat × Nat × Nat := (0, 0, 0)
  let s : State := wr (cz cc) A.COMP_CTL 0x410
  let t : State := after (.compVerdict rail) s
  s.power = .on ∧ (s.comp.cycle = some c) ∧ (c.judged = false) ∧ (c.cut = true ∨ inputsComplete s c = true) ∧ (c.safe = false) ∧ (safeState s = false) ∧ (judge s c rail = (v :: r, z1)) ∧ (compK s ≤ ((true :: s.comp.window).take (compW s)).countP (· == true)) ∧ (t.comp.window = [true, true]) ∧ (safeState t = true) ∧ (rdB t A.COMP_STATUS 11 = true) ∧ (rd t A.COMP_SAFE_COUNT = 1) ∧ ((logAt t 0).map (·.source) = some 0x140) := by decide +kernel

theorem test_compVerdict_3 :
  let rail : Bool := true
  let c : CompCycle := cc
  let v : Nat := 6
  let r : List Nat := []
  let z1 : Nat × Nat × Nat := (0, 0, 0)
  let s : State := wr (cz cc) A.COMP_CTL 0x820
  let t : State := after (.compVerdict rail) s
  s.power = .on ∧ (s.comp.cycle = some c) ∧ (c.judged = false) ∧ (c.cut = true ∨ inputsComplete s c = true) ∧ (c.safe = false) ∧ (safeState s = false) ∧ (judge s c rail = (v :: r, z1)) ∧ (((true :: s.comp.window).take (compW s)).countP (· == true) < compK s) ∧ (t.comp.window = [true, true]) ∧ (safeState t = false) ∧ (bitN (evtFlags t 0x2D8) 0 = true) ∧ (rd t A.COMP_DISAGREE = 1) := by decide +kernel

theorem test_compNoVerdict :
  let rail : Bool := true
  let c : CompCycle := { cc with safe := true }
  let s : State := cz c
  let t : State := after (.compVerdict rail) s
  s.power = .on ∧ (s.comp.cycle = some c) ∧ (c.judged = false) ∧ (c.cut = true ∨ inputsComplete s c = true) ∧ (c.safe = true ∨ safeState s = true) ∧ (t.fc.inbox.map (·.source) = [0x141]) ∧ (t.comp.window = [true]) := by decide +kernel

theorem test_compNotDue :
  let rail : Bool := true
  let s : State := z
  let t : State := after (.compVerdict rail) s
  s.power = .on ∧ (s.comp.cycle = none) ∧ (t.comp = s.comp) := by decide +kernel

theorem test_lockstepMismatch :
  let p : Fin 5 := 2
  let addr : Word := 0x1234
  let s : State := lz
  let t : State := after (.lockstepMismatch p addr) s
  s.power = .on ∧ (pairCompares s p.val = true) ∧ ((coreAt t (pairCore p.val)).stopped = true) ∧ (rdB t A.LS_STATUS (8 + p.val) = true) ∧ (rd t A.LS_MISMATCH_COUNT = min (rd s A.LS_MISMATCH_COUNT + 1) 0xFFFFFFFF) ∧ (bitN (evtFlags t 0x2DB) 0 = true) ∧ ((0x0F0 + p.val, St.LOCKSTEP_MISMATCH, false) ∈ t.fc.inbox.map (fun r => (r.source, r.status, r.injected))) := by decide +kernel

theorem test_pairNotCompared :
  let p : Fin 5 := 3
  let addr : Word := 0x1234
  let s : State := lz
  let t : State := after (.lockstepMismatch p addr) s
  s.power = .on ∧ (pairCompares s p.val = false) ∧ (t.fc = s.fc) := by decide +kernel

theorem test_lsDebugHalt :
  let agent : Agent := .host
  let mask : BitVec 5 := 4
  let copy : Fin 2 := 0
  let s : State := dz lz
  let t : State := after (.lsDebugHalt agent mask copy) s
  s.power = .on ∧ (takesEffect s agent A.LS_DEBUG mask.toNat = true) ∧ (rdB s A.MGT_STATUS 2 = true) ∧ (mask ≠ 0) ∧ ((coreAt t 5).halted0 = true) ∧ ((coreAt t 5).halted1 = true) ∧ ((coreAt t 4).halted0 = false) ∧ (rd t A.LS_STATUS = 4) := by decide +kernel

theorem test_haltWithoutSession :
  let agent : Agent := .host
  let mask : BitVec 5 := 4
  let copy : Fin 2 := 0
  let s : State := unlocked lz 0x2DB
  let t : State := after (.lsDebugHalt agent mask copy) s
  s.power = .on ∧ (takesEffect s agent A.LS_DEBUG mask.toNat = true) ∧ (rdB s A.MGT_STATUS 2 = false) ∧ (t.cores = s.cores) ∧ (rd t A.LS_DEBUG = 4) := by decide +kernel

theorem test_lsDebugResume :
  let agent : Agent := .host
  let s : State := dz { z with ridge := 50, cores := [(5, { running := true, halted0 := true, halted1 := true, kickAt := 10, haltAt := 30 })] }
  let t : State := after (.lsDebugResume agent) s
  s.power = .on ∧ (takesEffect s agent A.LS_DEBUG 0x100 = true) ∧ (rdB s A.MGT_STATUS 2 = true) ∧ (coreAt t 5 = { running := true, kickAt := 30 }) ∧ (rd t A.LS_STATUS = 0) := by decide +kernel

theorem test_resumeWithoutSession :
  let agent : Agent := .host
  let s : State := unlocked lz 0x2DB
  let t : State := after (.lsDebugResume agent) s
  s.power = .on ∧ (takesEffect s agent A.LS_DEBUG 0x100 = true) ∧ (rdB s A.MGT_STATUS 2 = false) ∧ (t.cores = s.cores) ∧ (t.fc = s.fc) ∧ (rd t A.LS_DEBUG = 0) := by decide +kernel

theorem test_lsInject :
  let agent : Agent := .host
  let v : Word := 0xA
  let s : State := unlocked lz 0x2DB
  let t : State := after (.lsInject agent v) s
  s.power = .on ∧ (takesEffect s agent A.LS_INJECT v.toNat = true) ∧ (fldN v.toNat 2 0 ≤ 4) ∧ ((coreAt t 5).stopped = true) ∧ (rdB t A.LS_INJECT 3 = false) ∧ (t.fc.inbox.map (fun r => (r.source, r.injected)) = [(0x0F2, true)]) := by decide +kernel

theorem test_injectNoPair :
  let agent : Agent := .host
  let v : Word := 5
  let s : State := unlocked lz 0x2DB
  let t : State := after (.lsInject agent v) s
  s.power = .on ∧ (takesEffect s agent A.LS_INJECT v.toNat = true) ∧ (4 < fldN v.toNat 2 0) ∧ (rdF t A.LS_INJECT 2 0 = rdF s A.LS_INJECT 2 0) ∧ ((bitN v.toNat 3 = false → rdB t A.LS_INJECT 3 = false ∧ t.cores = s.cores)) := by decide +kernel

theorem test_faultReport :
  let r : Report := rp
  let rest : List Report := []
  let s : State := let s := wr { z with fc := { z.fc with inbox := [rp] } } A.FC_LOG_HEAD 0x700FF; { s with insts := [{ oneInst (runJob 5) with cls := 1 }] }
  let t : State := after (.faultReport none) s
  s.power = .on ∧ (s.fc.inbox = r :: rest) ∧ ((r.tag != 0 && s.fc.openMerge.any (fun m => m.1 == r.tag)) = false) ∧ ((logAt t 255).map (fun x => (x.source, x.cls, x.seq, x.detected)) = some (0x0F1, 4, 7, 4)) ∧ (rd t A.FC_LOG_HEAD = 0x80000) ∧ (safeState t = true) ∧ (t.fc.inbox = []) ∧ (rd t (A.FC_SRC_COUNT 0x0F1) = 1) := by decide +kernel

theorem test_faultReport_2 :
  let r : Report := { source := 0x101, status := St.JOB_TIMEOUT, tag := 0x1001 }
  let rest : List Report := []
  let m : Nat × Nat := (0x1001, 6)
  let x : FaultRecord := { detected := 0, source := 0x139, cls := 1, merged := false, injected := false, exhausted := false, status := 0, tag := 0x1001, placement := 0, detail := 0, mergedCount := 0, seq := 0 }
  let s : State := { z with fc := { z.fc with inbox := [r], openMerge := [m], log := [(6, some x)] } }
  let t : State := after (.faultReport none) s
  s.power = .on ∧ (s.fc.inbox = r :: rest) ∧ (r.tag ≠ 0) ∧ (s.fc.openMerge.find? (fun m => m.1 == r.tag) = some m) ∧ (logAt s m.2 = some x) ∧ ((logAt t 6).map (fun x => (x.merged, x.mergedCount, x.cls)) = some (true, 1, 2)) := by decide +kernel

theorem test_noReport :
  let s : State := z
  let t : State := after (.faultReport none) s
  s.power = .on ∧ (s.fc.inbox = []) ∧ (t.fc = s.fc) := by decide +kernel

theorem test_faultReport_3 :
  let f : FaultIn := { source := 0x010, status := 0x123, detail := 3, tag := 0, cls := 0 }
  let s : State := { z with ridge := 8 }
  let t : State := after (.faultReport (some f)) s
  s.power = .on ∧ ((sourceInfo f.source.toNat).isSome = true) ∧ ((f.tag.toNat != 0 && s.fc.openMerge.any (fun m => m.1 == f.tag.toNat)) = false) ∧ ((logAt t 0).map (fun x => (x.source, x.status, x.detected, x.cls)) = some (0x010, 0x123, 8, 3)) ∧ (rd t A.FC_LOG_HEAD = 0x10001) := by decide +kernel

theorem test_faultReportMerged :
  let f : FaultIn := { source := 0x101, status := 0x123, detail := 3, tag := 0x1001, cls := 0 }
  let m : Nat × Nat := (0x1001, 6)
  let x : FaultRecord := { detected := 0, source := 0x139, cls := 1, merged := false, injected := false, exhausted := false, status := 0, tag := 0x1001, placement := 0, detail := 0, mergedCount := 0, seq := 0 }
  let s : State := { z with fc := { z.fc with openMerge := [m], log := [(6, some x)] } }
  let t : State := after (.faultReport (some f)) s
  s.power = .on ∧ ((sourceInfo f.source.toNat).isSome = true) ∧ (f.tag.toNat ≠ 0) ∧ (s.fc.openMerge.find? (fun m => m.1 == f.tag.toNat) = some m) ∧ (logAt s m.2 = some x) ∧ ((logAt t 6).map (fun x => (x.merged, x.mergedCount, x.cls)) = some (true, 1, 2)) := by decide +kernel

theorem test_unknownSource :
  let f : FaultIn := { source := 0x0C4, status := 0x123, detail := 3, tag := 0, cls := 0 }
  let s : State := z
  let t : State := after (.faultReport (some f)) s
  s.power = .on ∧ ((sourceInfo f.source.toNat).isNone = true) ∧ (t.fc = s.fc) := by decide +kernel

theorem test_faultLevelClear :
  let src : BitVec 9 := 0x131
  let s : State := wrF z (A.FC_SRC_CFG 0x131) 12 12 1
  let t : State := after (.faultLevelClear src) s
  s.power = .on ∧ (levelActive s src.toNat = true) ∧ (levelSources.contains src.toNat = true) ∧ (levelHolds s src.toNat = false) ∧ (levelActive t src.toNat = false) := by decide +kernel

theorem test_levelStands :
  let src : BitVec 9 := 0x131
  let s : State := z
  let t : State := after (.faultLevelClear src) s
  s.power = .on ∧ (levelActive s 0x131 = false) ∧ (t.fc = s.fc) := by decide +kernel

theorem test_quietPeriodExpire :
  let f : Nat := 0
  let s : State := wr (wr { z with ridge := 3000000, fc := { z.fc with quietFrom := some 0 } } A.FC_QUIET 3) A.FC_STATUS 1
  let t : State := after .quietPeriodExpire s
  s.power = .on ∧ (s.fc.quietFrom = some f) ∧ (f + 1000000 * rdF s A.FC_QUIET 13 0 ≤ s.ridge) ∧ (rdF s A.FC_RECOVERY_CFG 3 0 ≠ 0) ∧ (safeState t = false) ∧ (t.fc.exits = [3000000]) ∧ (rd t A.FC_RECOVERIES = 1) := by decide +kernel

theorem test_quietGoesOn :
  let s : State := z
  let t : State := after .quietPeriodExpire s
  s.power = .on ∧ (s.fc.quietFrom = none) ∧ (t.fc = s.fc) := by decide +kernel

theorem test_fcSelfFault :
  let copies : Bool := true
  let crcs : Bool := false
  let s : State := z
  let t : State := after (.fcSelfFault copies crcs) s
  s.power = .on ∧ ((copies && crcs) = false) ∧ (levelActive s 0x1F0 = false) ∧ (rd t A.FC_SELF_STATUS = 1) ∧ (levelActive t 0x1F0 = true) ∧ (bitN (evtFlags t 0x2C0) 4 = true) ∧ ((logAt t 0).map (·.source) = some 0x1F0) := by decide +kernel

theorem test_selfFaultStands :
  let copies : Bool := true
  let crcs : Bool := true
  let s : State := z
  let t : State := after (.fcSelfFault copies crcs) s
  s.power = .on ∧ ((copies && crcs) = true) ∧ (t.fc = s.fc) := by decide +kernel

theorem test_fcForceSafe :
  let agent : Agent := .host
  let v : Word := 1
  let s : State := z
  let t : State := after (.fcForceSafe agent v) s
  s.power = .on ∧ (takesEffectNow s agent A.FC_FORCE_SAFE v.toNat = true) ∧ (v.getLsbD 0 = true) ∧ (safeState t = true) ∧ ((logAt t 0).map (·.source) = some 0x1FF) := by decide +kernel

theorem test_forceZero :
  let agent : Agent := .host
  let v : Word := 2
  let s : State := z
  let t : State := after (.fcForceSafe agent v) s
  s.power = .on ∧ (takesEffectNow s agent A.FC_FORCE_SAFE v.toNat = true) ∧ (v.getLsbD 0 = false) ∧ (t.fc = s.fc) := by decide +kernel

theorem test_fcKill :
  let agent : Agent := .host
  let v : Word := 1
  let s : State := unlocked z 0x2C0
  let t : State := after (.fcKill agent v) s
  s.power = .on ∧ (takesEffectNow s agent A.FC_KILL v.toNat = true) ∧ (v.getLsbD 0 = true) ∧ (rdF t A.FC_STATUS 1 0 = 2) ∧ ((logAt t 0).map (·.source) = some 0x1FE) := by decide +kernel

theorem test_killZero :
  let agent : Agent := .host
  let v : Word := 2
  let s : State := unlocked z 0x2C0
  let t : State := after (.fcKill agent v) s
  s.power = .on ∧ (takesEffectNow s agent A.FC_KILL v.toNat = true) ∧ (v.getLsbD 0 = false) ∧ (t.fc = s.fc) := by decide +kernel

theorem test_fcInject :
  let agent : Agent := .host
  let v : Word := 0x1131
  let s : State := unlocked z 0x2C0
  let t : State := after (.fcInject agent v) s
  s.power = .on ∧ (takesEffect s agent A.FC_INJECT v.toNat = true) ∧ (bitN v.toNat 12 = true) ∧ ((sourceInfo (fldN v.toNat 8 0)).isSome = true) ∧ ((fldN v.toNat 8 0) ≠ 0x1F0) ∧ ((fldN v.toNat 8 0) ≠ 0x1F1) ∧ ((fldN v.toNat 8 0) ≠ 0x1FE) ∧ ((fldN v.toNat 8 0) ≠ 0x1FF) ∧ (t.fc.inbox.map (fun r => (r.source, r.status, r.injected)) = [(0x131, St.DRAM_OVERTEMP, true)]) ∧ (rd t A.FC_INJECT = 0x131) := by decide +kernel

theorem test_fcInjectRefused :
  let agent : Agent := .host
  let v : Word := 0x11F0
  let s : State := unlocked z 0x2C0
  let t : State := after (.fcInject agent v) s
  s.power = .on ∧ (takesEffect s agent A.FC_INJECT v.toNat = true) ∧ (bitN v.toNat 12 = true) ∧ ((sourceInfo (fldN v.toNat 8 0)).isNone = true ∨ (fldN v.toNat 8 0) = 0x1F0 ∨ (fldN v.toNat 8 0) = 0x1F1 ∨ (fldN v.toNat 8 0) = 0x1FE ∨ (fldN v.toNat 8 0) = 0x1FF) ∧ (t.fc = s.fc) ∧ (bitN (evtFlags t 0x2C0) 6 = true) ∧ (rd t A.FC_INJECT = (fldN v.toNat 8 0)) := by decide +kernel

theorem test_fcInjectNamed :
  let agent : Agent := .host
  let v : Word := 0x131
  let s : State := unlocked z 0x2C0
  let t : State := after (.fcInject agent v) s
  s.power = .on ∧ (takesEffect s agent A.FC_INJECT v.toNat = true) ∧ (bitN v.toNat 12 = false) ∧ (t.fc = s.fc) ∧ (rd t A.FC_INJECT = 0x131) := by decide +kernel

theorem test_bistCmd :
  let agent : Agent := .host
  let v : Word := 0x8124
  let s : State := unlocked z 0x2E8
  let t : State := after (.bistCmd agent v) s
  s.power = .on ∧ (takesEffect s agent A.BIST_CMD v.toNat = true) ∧ (t.bist.cmd = some (0x24, true)) ∧ (rd t A.BIST_STATUS = 1 + 256 * 0x24) ∧ (rd t A.BIST_CMD = 0x124) := by decide +kernel

theorem test_bistResult :
  let sig : BitVec 128 := 7
  let u : Nat := 0
  let mem : Bool := true
  let s : State := { z with bist := { z.bist with cmd := some (0, true), expected := zeros 16 ++ [7] ++ zeros 15 } }
  let t : State := after (.bistResult sig) s
  s.power = .on ∧ (s.bist.cmd = some (u, mem)) ∧ (u < 64) ∧ (t.bist.cmd = none) ∧ (rd t A.BIST_STATUS = 0) := by decide +kernel

theorem test_noTestRuns :
  let sig : BitVec 128 := 7
  let s : State := z
  let t : State := after (.bistResult sig) s
  s.power = .on ∧ (s.bist.cmd = none) ∧ (t.bist = s.bist) := by decide +kernel

theorem test_bistSliceStart :
  let u : BitVec 6 := 0x11
  let s : State := wr { z with ridge := 6 } A.BIST_CTL 1
  let t : State := after (.bistSliceStart u) s
  s.power = .on ∧ ((bistUnit u.toNat).isSome = true) ∧ (rdB s A.BIST_CTL 0 = true) ∧ (bistExempt s u.toNat = false) ∧ (bistBusy s u.toNat = false) ∧ (s.bist.slices.any (fun x => bistPlace x.1 == bistPlace u.toNat) = false) ∧ (t.bist.slices = [(0x11, 6)]) := by decide +kernel

theorem test_sliceNotDue :
  let u : BitVec 6 := 0x3F
  let s : State := z
  let t : State := after (.bistSliceStart u) s
  s.power = .on ∧ ((bistUnit u.toNat).isNone = true) ∧ (t.bist = s.bist) := by decide +kernel

theorem test_bistSliceEnd :
  let u : BitVec 6 := 0x25
  let fail : Bool := false
  let n : Nat := 0x25
  let f : Nat := 0
  let total : Nat := 1
  let l : Nat := 20
  let s : State := wr { z with ridge := 20000, bist := { z.bist with slices := [(0x25, 0)] } } (A.BIST_UNIT_STATUS 0x25) 0x700
  let t : State := after (.bistSliceEnd u fail) s
  s.power = .on ∧ (s.bist.slices.find? (fun x => x.1 == u.toNat) = some (n, f)) ∧ (f + sliceTicks u.toNat ≤ s.ridge) ∧ (bistUnit u.toNat = some (total, l)) ∧ (t.bist.slices = []) ∧ (rd t (A.BIST_UNIT_STATUS 0x25) = 0) ∧ (smGet (fun _ => 0) t.bist.passAt 0x25 = 20000) := by decide +kernel

theorem test_sliceRuns :
  let u : BitVec 6 := 0x25
  let fail : Bool := true
  let s : State := z
  let t : State := after (.bistSliceEnd u fail) s
  s.power = .on ∧ (s.bist.slices = []) ∧ (t.bist = s.bist) := by decide +kernel

theorem test_coverageLapse :
  let u : BitVec 6 := 0x2B
  let s : State := { wr z A.BIST_INTERVAL 1 with ridge := 1000001 }
  let t : State := after (.coverageLapse u) s
  s.power = .on ∧ ((bistUnit u.toNat).isSome = true) ∧ (bistExempt s u.toNat = false) ∧ (rdB s (A.BIST_UNIT_STATUS u.toNat) 8 = false) ∧ (bistInterval s < sincePass s u.toNat) ∧ (rdB t (A.BIST_UNIT_STATUS 0x2B) 8 = true) ∧ (levelActive t 0x148 = true) ∧ (rd t A.BIST_LAPSES = 1) := by decide +kernel

theorem test_coverageHolds :
  let u : BitVec 6 := 0x2B
  let s : State := z
  let t : State := after (.coverageLapse u) s
  s.power = .on ∧ (sincePass s u.toNat ≤ bistInterval s) ∧ (t.bist = s.bist) := by decide +kernel

theorem test_coverageLapseDouble :
  let u : BitVec 6 := 0x2B
  let s : State := { wr z A.BIST_INTERVAL 1 with ridge := 2000000 }
  let t : State := after (.coverageLapseDouble u) s
  s.power = .on ∧ ((bistUnit u.toNat).isSome = true) ∧ (bistExempt s u.toNat = false) ∧ (rdB s (A.BIST_UNIT_STATUS u.toNat) 9 = false) ∧ (2 * bistInterval s ≤ sincePass s u.toNat) ∧ (rdB t (A.BIST_UNIT_STATUS 0x2B) 9 = true) ∧ (t.fc.inbox.map (·.source) = [0x149]) := by decide +kernel

theorem test_coverageDoubleHolds :
  let u : BitVec 6 := 0x2B
  let s : State := z
  let t : State := after (.coverageLapseDouble u) s
  s.power = .on ∧ (sincePass s u.toNat < 2 * bistInterval s) ∧ (t.bist = s.bist) := by decide +kernel

theorem test_wdKick :
  let agent : Agent := .firmware 3
  let core : Fin 7 := 3
  let token : BitVec 8 := 1
  let s : State := wr (wr { z with ridge := 20000, cores := [(3, { running := true })] } (A.WD_CFG 3) 0x30001) (A.WD_STATUS 3) 0x100
  let t : State := after (.wdKick agent core token) s
  s.power = .on ∧ (takesEffect s agent (A.WD_KICK core.val) token.toNat = true) ∧ (agent = .firmware core) ∧ (wdRunning s core.val = true) ∧ ((coreAt t 3).kickAt = 20000) ∧ (rdF t (A.WD_STATUS 3) 7 0 = 1) ∧ (rd t (A.WD_EXPIRIES 3) = 0) := by decide +kernel

theorem test_kickOfAnother :
  let agent : Agent := .host
  let core : Fin 7 := 3
  let token : BitVec 8 := 1
  let s : State := z
  let t : State := after (.wdKick agent core token) s
  s.power = .on ∧ (takesEffect s agent (A.WD_KICK core.val) token.toNat = true) ∧ (agent ≠ .firmware core ∨ wdRunning s core.val = false) ∧ (t.fc = s.fc) := by decide +kernel

theorem test_watchdogExpired :
  let core : Fin 7 := 0
  let s : State := wr (wr { z with ridge := 30000, cores := [(0, { running := true })] } (A.WD_CFG 0) 0x30001) (A.WD_STATUS 0) 0x100
  let t : State := after (.watchdogExpired core) s
  s.power = .on ∧ (wdRunning s core.val = true) ∧ ((coreAt s core.val).kickAt + 10000 * rdF s (A.WD_CFG core.val) 31 16 ≤ s.ridge) ∧ ((coreAt t 0).running = false) ∧ (t.sec.keysStopped = true) ∧ (rd t (A.WD_EXPIRIES 0) = 1) ∧ (rdB t (A.WD_STATUS 0) 9 = true) := by decide +kernel

theorem test_windowOpen :
  let core : Fin 7 := 0
  let s : State := z
  let t : State := after (.watchdogExpired core) s
  s.power = .on ∧ (wdRunning s 0 = false) ∧ (t.fc = s.fc) := by decide +kernel

theorem test_coreRestarted :
  let core : Fin 7 := 4
  let s : State := wr { z with ridge := 3, sec := { z.sec with fw := some { m := [], version := 0, svn := 0, len := 0 } } } (A.WD_STATUS 4) 7
  let t : State := after (.coreRestarted core) s
  s.power = .on ∧ ((coreAt s core.val).running = false) ∧ (s.sec.fw ≠ none) ∧ (core.val = 0 → s.sec.keysStopped = false) ∧ ((coreAt t core.val).running = true) ∧ ((coreAt t core.val).kickAt = s.ridge) ∧ ((coreAt t core.val).halted0 = false) ∧ ((coreAt t core.val).halted1 = false) ∧ (rdF t (A.WD_STATUS core.val) 7 0 = 0) ∧ (wdRunning t core.val = true) := by decide +kernel

theorem test_coreStays :
  let core : Fin 7 := 4
  let s : State := z
  let t : State := after (.coreRestarted core) s
  s.power = .on ∧ (s.sec.fw.isNone = true) ∧ (t.fc = s.fc) := by decide +kernel

theorem test_attest :
  let no : Nat := 1
  let p : RxPod := ctl 10 1 ([2] ++ zeros 7 ++ leBytes 8 0x1000000000 ++ zeros 32)
  let s : State := withPod z p
  let t : State := after (.attest no) s
  s.power = .on ∧ (s.sec.attest = none) ∧ (s.sec.keysStopped = false) ∧ ((takePod s 1 4 (isControl 10 1)).map (·.1) = some p) ∧ (t.sec.attest = some { no := 1, what := 2, addr := 0x1000000000, nonce := zeros 32 }) := by decide +kernel

theorem test_attestNotTaken :
  let no : Nat := 1
  let s : State := z
  let t : State := after (.attest no) s
  s.power = .on ∧ ((takePod s 1 4 (isControl 10 1)).isNone = true) ∧ (t.sec = s.sec) ∧ (t.pods = s.pods) := by decide +kernel

theorem test_attestOutputWritten :
  let a : Attest := { no := 1, what := 2, addr := 0x1000000000, nonce := [] }
  let s : State := { z with sec := { z.sec with attest := some a } }
  let t : State := after .attestOutputWritten s
  s.power = .on ∧ (s.sec.attest = some a) ∧ (encWaits s a.addr (attestLen a.what) = false) := by decide +kernel

theorem test_attestWaits :
  let s : State := z
  let t : State := after .attestOutputWritten s
  s.power = .on ∧ (s.sec.attest = none) ∧ (t.sec = s.sec) := by decide +kernel

theorem test_hostAuth :
  let no : Nat := 1
  let p : RxPod := ctl 10 2 [4]
  let s : State := withPod z p
  let t : State := after (.hostAuth no) s
  s.power = .on ∧ (s.sec.keysStopped = false) ∧ ((takePod s 1 4 (isControl 10 2)).map (·.1) = some p) ∧ (rdB t A.SEC_STATUS 1 = false) ∧ (bitN (evtFlags t 0x030) 0 = true) ∧ (t.pods.rx = []) := by decide +kernel

theorem test_hostAuthNotTaken :
  let no : Nat := 1
  let s : State := z
  let t : State := after (.hostAuth no) s
  s.power = .on ∧ ((takePod s 1 4 (isControl 10 2)).isNone = true) ∧ (t.sec = s.sec) ∧ (t.pods = s.pods) := by decide +kernel

theorem test_keyImport :
  let no : Nat := 1
  let p : RxPod := ctl 10 4 ([3] ++ zeros 7 ++ leBytes 8 0x1000000000)
  let s : State := withPod z p
  let t : State := after (.keyImport no) s
  s.power = .on ∧ (s.sec.keysStopped = false) ∧ ((takePod s 1 4 (isControl 10 4)).map (·.1) = some p) ∧ (trngFailed s = false) ∧ ((leAt p.body 0 1) < 16) ∧ ((((keySlot s (leAt p.body 0 1)).valid && !(keySlot s (leAt p.body 0 1)).imported) || slotNamed s (leAt p.body 0 1)) = false) ∧ (encWaits s (addrLocal (leAt p.body 8 8)) 1648 = false) ∧ ((memRead s (.firmware 0) (addrLocal (leAt p.body 8 8)) 1648 p.hdr.cls (echo := p.hdr.sequence)).1 = 0) ∧ (t.keySlots = []) ∧ (bitN (evtFlags t 0x030) 0 = true) ∧ (t.pods.rx = []) := by decide +kernel

theorem test_keyImportRefused :
  let no : Nat := 1
  let p : RxPod := ctl 10 4 ([3] ++ zeros 7 ++ leBytes 8 0x1000000000)
  let s : State := withPod (wr z A.SEC_TRNG_STATUS 2) p
  let t : State := after (.keyImport no) s
  s.power = .on ∧ (s.sec.keysStopped = false) ∧ ((takePod s 1 4 (isControl 10 4)).map (·.1) = some p) ∧ (trngFailed s = true) ∧ (t.keySlots = s.keySlots) ∧ (t.pods.rx = []) := by decide +kernel

theorem test_keyImportUnread :
  let no : Nat := 1
  let p : RxPod := ctl 10 4 ([3] ++ zeros 7 ++ leBytes 8 0xFFFF00000000)
  let s : State := withPod z p
  let t : State := after (.keyImport no) s
  s.power = .on ∧ (s.sec.keysStopped = false) ∧ ((takePod s 1 4 (isControl 10 4)).map (·.1) = some p) ∧ (trngFailed s = false) ∧ ((leAt p.body 0 1) < 16) ∧ ((((keySlot s (leAt p.body 0 1)).valid && !(keySlot s (leAt p.body 0 1)).imported) || slotNamed s (leAt p.body 0 1)) = false) ∧ (encWaits s (addrLocal (leAt p.body 8 8)) 1648 = false) ∧ ((memRead s (.firmware 0) (addrLocal (leAt p.body 8 8)) 1648 p.hdr.cls (echo := p.hdr.sequence)).1 ≠ 0) ∧ (t.keySlots = s.keySlots) ∧ (t.pods.rx = []) := by decide +kernel

theorem test_keyImportNotTaken :
  let no : Nat := 1
  let s : State := z
  let t : State := after (.keyImport no) s
  s.power = .on ∧ ((takePod s 1 4 (isControl 10 4)).isNone = true) ∧ (t.sec = s.sec) ∧ (t.pods = s.pods) := by decide +kernel

theorem test_keyImportWaits :
  let no : Nat := 1
  let p : RxPod := ctl 10 4 ([3] ++ zeros 7 ++ leBytes 8 0x1000000000)
  let s : State := withPod fillz p
  let t : State := after (.keyImport no) s
  s.power = .on ∧ (s.sec.keysStopped = false) ∧ ((takePod s 1 4 (isControl 10 4)).map (·.1) = some p) ∧ (trngFailed s = false) ∧ ((leAt p.body 0 1) < 16) ∧ ((((keySlot s (leAt p.body 0 1)).valid && !(keySlot s (leAt p.body 0 1)).imported) || slotNamed s (leAt p.body 0 1)) = false) ∧ (encWaits s (addrLocal (leAt p.body 8 8)) 1648 = true) ∧ (t.pods = s.pods) := by decide +kernel

theorem test_modelImport :
  let no : Nat := 1
  let p : RxPod := ctl 10 5 ([3, 3] ++ zeros 6 ++ leBytes 8 0x1200000000 ++ leBytes 8 0x1000000000 ++ leBytes 4 65536)
  let s : State := { withPod (wr ez (A.ENC_CTL 3) 1) p with keySlots := sk.keySlots }
  let t : State := after (.modelImport no) s
  s.power = .on ∧ (s.sec.import_ = none) ∧ (s.sec.keysStopped = false) ∧ ((takePod s 1 4 (isControl 10 5)).map (·.1) = some p) ∧ ((leAt p.body 0 1) < 16 ∧ leAt p.body 1 1 < 16 ∧ leAt p.body 24 4 % 65536 = 0 ∧ leAt p.body 24 4 ≠ 0 ∧ (keySlot s (leAt p.body 0 1)).imported = true ∧ encOn s (leAt p.body 1 1) = true ∧ rdF s (A.ENC_CTL (leAt p.body 1 1)) 6 5 = 0 ∧ encBase s (leAt p.body 1 1) ≤ addrLocal (leAt p.body 16 8) ∧ addrLocal (leAt p.body 16 8) + leAt p.body 24 4 ≤ encBase s (leAt p.body 1 1) + encSize s (leAt p.body 1 1)) ∧ (t.sec.import_ = some { no := 1, slot := 3, region := 3, src := 0x1200000000, dst := 0x1000000000, len := 65536 }) := by decide +kernel

theorem test_modelImportRefused :
  let no : Nat := 1
  let p : RxPod := ctl 10 5 ([16, 3] ++ zeros 26)
  let s : State := withPod z p
  let t : State := after (.modelImport no) s
  s.power = .on ∧ (s.sec.import_ = none) ∧ (s.sec.keysStopped = false) ∧ ((takePod s 1 4 (isControl 10 5)).map (·.1) = some p) ∧ (¬((leAt p.body 0 1) < 16 ∧ leAt p.body 1 1 < 16 ∧ leAt p.body 24 4 % 65536 = 0 ∧ leAt p.body 24 4 ≠ 0 ∧ (keySlot s (leAt p.body 0 1)).imported = true ∧ encOn s (leAt p.body 1 1) = true ∧ rdF s (A.ENC_CTL (leAt p.body 1 1)) 6 5 = 0 ∧ encBase s (leAt p.body 1 1) ≤ addrLocal (leAt p.body 16 8) ∧ addrLocal (leAt p.body 16 8) + leAt p.body 24 4 ≤ encBase s (leAt p.body 1 1) + encSize s (leAt p.body 1 1))) ∧ (t.sec = s.sec) ∧ (t.pods.rx = []) := by decide +kernel

theorem test_modelImportNotTaken :
  let no : Nat := 1
  let s : State := z
  let t : State := after (.modelImport no) s
  s.power = .on ∧ ((takePod s 1 4 (isControl 10 5)).isNone = true) ∧ (t.sec = s.sec) ∧ (t.pods = s.pods) := by decide +kernel

theorem test_modelImportDone :
  let m : ModelImport := { no := 1, slot := 3, region := 3, src := 0, dst := 0x1000000000, len := 0 }
  let s : State := withPod { z with sec := { z.sec with import_ := some m } } (ctl 10 5 [])
  let t : State := after .modelImportDone s
  s.power = .on ∧ (s.sec.import_ = some m) ∧ (encWaits s m.dst m.len = false) ∧ (encWaits s m.src (m.len + 16 * (m.len / 65536)) = false) ∧ ((importChunks m (m.len / 65536) 0 s).1 = 0) ∧ (t.sec.import_ = none) ∧ (t.pods.rx = []) := by decide +kernel

theorem test_modelImportWaits :
  let s : State := z
  let t : State := after .modelImportDone s
  s.power = .on ∧ (s.sec.import_ = none) ∧ (t.sec = s.sec) := by decide +kernel

theorem test_keyClear :
  let no : Nat := 1
  let p : RxPod := ctl 10 6 ([3] ++ zeros 7)
  let s : State := withPod sk p
  let t : State := after (.keyClear no) s
  s.power = .on ∧ (s.sec.keysStopped = false) ∧ ((takePod s 1 4 (isControl 10 6)).map (·.1) = some p) ∧ ((leAt p.body 0 1) < 16) ∧ ((keySlot s (leAt p.body 0 1)).imported = true) ∧ (keySlot t 3 = {}) ∧ (rd t A.SEC_KEY_SLOTS = 0) ∧ (t.pods.rx = []) := by decide +kernel

theorem test_keyClearRefused :
  let no : Nat := 1
  let p : RxPod := ctl 10 6 ([3] ++ zeros 7)
  let s : State := withPod z p
  let t : State := after (.keyClear no) s
  s.power = .on ∧ (s.sec.keysStopped = false) ∧ ((takePod s 1 4 (isControl 10 6)).map (·.1) = some p) ∧ ((keySlot s (leAt p.body 0 1)).imported = false) ∧ (t.keySlots = s.keySlots) ∧ (t.pods.rx = []) := by decide +kernel

theorem test_keyClearNotTaken :
  let no : Nat := 1
  let s : State := z
  let t : State := after (.keyClear no) s
  s.power = .on ∧ ((takePod s 1 4 (isControl 10 6)).isNone = true) ∧ (t.sec = s.sec) ∧ (t.pods = s.pods) := by decide +kernel

theorem test_regionSet :
  let no : Nat := 1
  let p : RxPod := ctl 10 7 ([3] ++ zeros 31 ++ zeros 4 ++ leBytes 4 0x10 ++ leBytes 4 1 ++ zeros 4 ++ leBytes 4 0x11 ++ leBytes 4 1 ++ zeros 8)
  let s : State := withPod z p
  let t : State := after (.regionSet no) s
  s.power = .on ∧ (s.sec.keysStopped = false) ∧ ((takePod s 1 4 (isControl 10 7)).map (·.1) = some p) ∧ ((multiDevice s || locked s 0x261) = false) ∧ ((leAt p.body 0 1) < 16) ∧ ((trngFailed s && bitN (leAt ((p.body.drop 32).take 32) 20 4) 0) = false) ∧ (p.body.length = 64) ∧ (encOn (regionWrite s (leAt p.body 0 1) ((p.body.drop 32).take 32)) (leAt p.body 0 1) = bitN (leAt ((p.body.drop 32).take 32) 20 4) 0) ∧ (encOn t 3 = true) ∧ (encBase t 3 = 0x1000000000) ∧ (encMeta t 3 = 0x1100000000) ∧ (rd t (A.ENC_STATUS 3) = 2) ∧ (t.pods.rx = []) := by decide +kernel

theorem test_regionSetUnusable :
  let no : Nat := 1
  let p : RxPod := ctl 10 7 ([3] ++ zeros 31 ++ zeros 20 ++ leBytes 4 1 ++ zeros 8)
  let v : State := regionWrite z 3 ((p.body.drop 32).take 32)
  let s : State := withPod z p
  let t : State := after (.regionSet no) s
  s.power = .on ∧ (s.sec.keysStopped = false) ∧ ((takePod s 1 4 (isControl 10 7)).map (·.1) = some p) ∧ ((multiDevice s || locked s 0x261) = false) ∧ ((leAt p.body 0 1) < 16) ∧ ((trngFailed s && bitN (leAt ((p.body.drop 32).take 32) 20 4) 0) = false) ∧ (p.body.length = 64) ∧ (encOn v (leAt p.body 0 1) = !bitN (leAt ((p.body.drop 32).take 32) 20 4) 0) ∧ (encOn t 3 = false) ∧ (t.pods.rx = []) := by decide +kernel

theorem test_regionSetRefused :
  let no : Nat := 1
  let p : RxPod := ctl 10 7 ([3] ++ zeros 31 ++ zeros 4 ++ leBytes 4 0x10 ++ leBytes 4 1 ++ zeros 4 ++ leBytes 4 0x11 ++ leBytes 4 1 ++ zeros 8)
  let s : State := withPod (wr z A.ID_RING 0x100) p
  let t : State := after (.regionSet no) s
  s.power = .on ∧ (s.sec.keysStopped = false) ∧ ((takePod s 1 4 (isControl 10 7)).map (·.1) = some p) ∧ (multiDevice s = true) ∧ (t.keySlots = s.keySlots) ∧ (bitN (evtFlags t 0x261) 14 = true) ∧ (t.pods.rx = []) := by decide +kernel

theorem test_regionSetNotTaken :
  let no : Nat := 1
  let s : State := z
  let t : State := after (.regionSet no) s
  s.power = .on ∧ ((takePod s 1 4 (isControl 10 7)).isNone = true) ∧ (t.sec = s.sec) ∧ (t.pods = s.pods) := by decide +kernel

theorem test_secSvnCommit :
  let agent : Agent := .management
  let v : Word := 1
  let s : State := let s := unlocked ms 0x030; { s with rf := { s.rf with unlocks := [{ page := 0x030, agent := .management, lapse := 9 }] }, sec := { s.sec with fw := some { m := [], version := 0, svn := 3, len := 0 } } }
  let t : State := after (.secSvnCommit agent v) s
  s.power = .on ∧ (takesEffect s agent A.SEC_SVN_COMMIT v.toNat = true) ∧ (bitN v.toNat 0 = true) ∧ (s.mgt.session.map (fun x => bitN x.privs 0) = some true) ∧ (s.fuses.counter < fwSvn s) ∧ (t.fuses.counter = 3) ∧ (rdF t A.FW_SVN 14 8 = 3) := by decide +kernel

theorem test_svnRefused :
  let agent : Agent := .host
  let v : Word := 1
  let s : State := unlocked z 0x030
  let t : State := after (.secSvnCommit agent v) s
  s.power = .on ∧ (takesEffect s agent A.SEC_SVN_COMMIT v.toNat = true) ∧ (fwSvn s ≤ s.fuses.counter) ∧ (t.fuses = s.fuses) := by decide +kernel

theorem test_trngFailed :
  let s : State := z
  let t : State := after .trngFailed s
  s.power = .on ∧ (trngFailed s = false) ∧ (rd t A.SEC_TRNG_STATUS = 2) ∧ (bitN (evtFlags t 0x030) 4 = true) := by decide +kernel

theorem test_trngFailedAlready :
  let s : State := wr z A.SEC_TRNG_STATUS 2
  let t : State := after .trngFailed s
  s.power = .on ∧ (trngFailed s = true) ∧ (t.sec = s.sec) := by decide +kernel

theorem test_registerWrite_3 :
  let addr : BitVec 24 := 0x2100
  let b : List Byte := [1, 0, 0, 0]
  let s : State := wr { z with sec := { z.sec with hostKey := some [] } } A.SEC_STATUS 0
  let t : State := after (.registerWrite .host addr b) s
  s.power = .on ∧ (hostUnauth s = true) ∧ (rd t A.DET_CTL = rd s A.DET_CTL) ∧ (t.rf.posted = s.rf.posted) := by decide +kernel


end Sys2Proof.Tests
end

section
/-!
PROOFS. Register pages (chapter 3): posted writes that meet a full queue, and guarded writes without an unlock. First what
the events of a command leave of the register file, then one rule for each stage a register write passes, then the
obligations.
-/

namespace Sys2Proof.RegisterPages

open Sys2Proof.Machine Sys2Proof.Safety Sys2Proof.Laws

/-! ### What events leave of the register file -/

/-- From `s` to `t` the register file differs at most in the live values: queues, unlocks and copies are the same. -/
def LiveOnly (s t : State) : Prop := ∃ live, t.rf = { s.rf with live := live }

theorem LiveOnly.refl (s : State) : LiveOnly s s := ⟨s.rf.live, rfl⟩

theorem LiveOnly.trans {s t u : State} (a : LiveOnly s t) (b : LiveOnly t u) : LiveOnly s u := by
  obtain ⟨_, ht⟩ := a
  obtain ⟨live, hu⟩ := b
  exact ⟨live, by rw [hu, ht]⟩

theorem LiveOnly.ite {s a b : State} {c : Prop} [Decidable c] (ha : LiveOnly s a) (hb : LiveOnly s b) :
    LiveOnly s (if c then a else b) := by
  split
  · exact ha
  · exact hb

theorem LiveOnly.unlocks {s t : State} (h : LiveOnly s t) : t.rf.unlocks = s.rf.unlocks := by
  obtain ⟨_, ht⟩ := h
  rw [ht]

theorem LiveOnly.postedOf {s t : State} (h : LiveOnly s t) (p : Nat) : postedOf t p = postedOf s p := by
  obtain ⟨_, ht⟩ := h
  rw [Machine.postedOf, ht, Machine.postedOf]

theorem wrF_liveOnly (s : State) (a hi lo v : Nat) : LiveOnly s (wrF s a hi lo v) := ⟨_, rfl⟩

theorem raise_liveOnly (s : State) (p m : Nat) : LiveOnly s (raise s p m) := ⟨_, rfl⟩

theorem msixSignal_liveOnly (s : State) (v : Nat) : LiveOnly s (msixSignal s v) :=
  LiveOnly.ite ⟨_, rfl⟩ (LiveOnly.refl s)

theorem sendTo_liveOnly (s : State) (r : Nat) (p : OutPod) : LiveOnly s (sendTo s r p) :=
  LiveOnly.ite ⟨_, rfl⟩ (LiveOnly.refl s)

theorem notify_liveOnly (s : State) (p : Nat) : LiveOnly s (notify s p) := by
  have pod (x : State) (h : LiveOnly s x) :
      LiveOnly s (if bitN (routeOf x p) 7 then sendTo x (eventRing x) (pageEventPod x p) else x) :=
    LiveOnly.ite (h.trans (sendTo_liveOnly _ _ _)) h
  exact LiveOnly.ite (pod _ (LiveOnly.ite (msixSignal_liveOnly _ _) (LiveOnly.refl s))) (LiveOnly.refl s)

theorem notifyAll_liveOnly (l : List Nat) (s : State) :
    LiveOnly s (l.foldl (fun s p => if p = 0x0E0 then s else notify s p) s) := by
  induction l generalizing s with
  | nil => exact LiveOnly.refl s
  | cons p l ih => exact LiveOnly.trans (LiveOnly.ite (LiveOnly.refl s) (notify_liveOnly s p)) (ih _)

theorem endCommand_liveOnly (s0 s : State) : LiveOnly s (endCommand s0 s) := by
  have last (x : State) :
      LiveOnly x { (if (incremented s0 x).contains 0x0E0 then notify x 0x0E0 else x) with flagged := [] } :=
    LiveOnly.trans (LiveOnly.ite (notify_liveOnly x 0x0E0) (LiveOnly.refl x)) ⟨_, rfl⟩
  exact (notifyAll_liveOnly (incremented s0 s) s).trans (last _)

/-! ### Flags and registers once a command has ended -/

/-- An event flag is its bit of EVT_STATUS. -/
theorem bitN_evtFlags (s : State) (p : Nat) {k : Nat} (hk : k < 16) :
    bitN (evtFlags s p) k = bitN (rd s (hdrAddr p 0x010)) k := by
  simp [evtFlags, rdF, bitN_eq_testBit, testBit_fldN, hk]

/-- A flag that a command raises last is set once the command has ended. -/
theorem evtFlags_endCommand_raise (s0 s : State) (p m : Nat) {k : Nat} (hk : k < 16) (hm : m < 2 ^ 16)
    (h : bitN m k = true) : bitN (evtFlags (endCommand s0 (raise s p m)) p) k = true := by
  rw [bitN_evtFlags _ _ hk]
  exact bitN_endCommand_grows _ _ _ _ hk (bitN_raise_sets s p m k hk hm h)

/-- Raising flags of a page and notifying writes no register but those of `eventAddr`. -/
theorem rd_endCommand_raise (s0 s : State) {p a : Nat} (m : Nat) (h : ¬eventAddr p a) :
    rd (endCommand s0 (raise s p m)) a = rd s a := by
  obtain ⟨hflags, hnotify⟩ := not_or.mp h
  rw [rd_endCommand s0 _ hnotify, rd_raise s m hflags]

/-! ### The pages a register write reaches -/

/-- The last page with the common header is 0x2EA (Table 3.1). -/
theorem hasHeader_lt {p : Nat} (h : hasHeader p = true) : p < 0x300 := by
  by_contra hp
  have : pageInfo p = none := by simp (disch := omega) only [pageInfo, if_neg]
  simp [hasHeader, this] at h

/-- A peg page carries no header (R67). -/
theorem isPegPage_eq_false {p : Nat} (h : hasHeader p = true) : isPegPage p = false := by
  have hlt := hasHeader_lt h
  rw [← Bool.not_eq_true]
  intro hpeg
  have hcluster : (0x100 ≤ p ∧ p < 0x200) ∧ 0x20 ≤ (p - 0x100) % 0x40 ∧ (p - 0x100) % 0x40 < 0x24 := by
    simp only [isPegPage, Bool.or_eq_true, Bool.and_eq_true, decide_eq_true_eq] at hpeg
    omega
  have : pageInfo p = none := by simp (disch := omega) only [pageInfo, if_neg, if_pos, clusterPage]
  simp [hasHeader, this] at h

/-- The fabric interface judges a register of a page with the common header at that page's address. -/
theorem toNat_hdrAddr {p o : Nat} (hp : hasHeader p = true) (ho : o < 0x1000) :
    (BitVec.ofNat 24 (hdrAddr p o)).toNat = hdrAddr p o := by
  have := hasHeader_lt hp
  rw [BitVec.toNat_ofNat, Nat.mod_eq_of_lt (by unfold hdrAddr; omega)]

/-! ### The stages of a register write -/

/-- REGISTER_WRITE of an aligned word to a page with the common header, by an agent that is not held off. -/
theorem exec_registerWrite_word {agent : Agent} {addr : BitVec 24} {bytes : List Byte} {s : State} (hon : s.power = .on)
    (hpage : hasHeader (addr.toNat / 0x1000) = true) (hhost : agent = .host → hostUnauth s = false)
    (halign : addr.toNat % 4 = 0) (hlen : bytes.length = 4) :
    exec (.registerWrite agent addr bytes) s
      = .next (endCommand s (writeWord s agent addr.toNat (leNat bytes))) := by
  have hregs : place addr.toNat = .regs := by
    have := hasHeader_lt hpage
    exact if_pos (by omega)
  have hagent : ¬(agent == .host && hostUnauth s) = true := by
    rw [Bool.and_eq_true, beq_iff_eq]
    rintro ⟨hag, hun⟩
    simp [hhost hag] at hun
  show execRegisterWrite agent addr bytes s = _
  rw [execRegisterWrite, whenOn_on _ hon, if_pos hregs, asAgent, if_neg hagent, regWrite, if_pos ⟨halign, hlen⟩]

section
variable {s : State} {ag : Agent} {a v : Nat} {row : RegRow} {js : List Nat}

/-- A page that is barred to the agent admits none of its writes. -/
theorem pageBarred_of_admitted (h : (admitWrite s ag a v).1 = true) : pageBarred ag (a / 0x1000) = false := by
  rw [← Bool.not_eq_true]
  intro hb
  simp [admitWrite, hb] at h

/-- A write to a block register that the fabric interface refuses leaves the state that the refusal leaves. -/
theorem writeWord_refused (hpage : hasHeader (a / 0x1000) = true) (hoff : 0x100 ≤ a % 0x1000)
    (hreg : findReg a = some (row, js)) (h : (admitWrite s ag a v).1 = false) :
    writeWord s ag a v = (admitWrite s ag a v).2 := by
  unfold writeWord
  by_cases hb : pageBarred ag (a / 0x1000) = true
  · simp [isPegPage_eq_false hpage, hpage, hb, admitWrite]
  · rcases hw : admitWrite s ag a v with ⟨b, u⟩
    obtain rfl : b = false := by simpa [hw] using h
    simp [isPegPage_eq_false hpage, hpage, hb, Nat.not_lt.mpr hoff, hreg]

/-- A write to a block register that is admitted and bypasses no queue is posted (R78). -/
theorem writeWord_posted (hpage : hasHeader (a / 0x1000) = true) (hposted : isPosted (a / 0x1000) = true)
    (hoff : 0x100 ≤ a % 0x1000) (hreg : findReg a = some (row, js)) (hrws : row.acc ≠ .rws) (hrwi : row.acc ≠ .rwi)
    (h : (admitWrite s ag a v).1 = true) : writeWord s ag a v = postWrite (admitWrite s ag a v).2 ag a v := by
  have hb := pageBarred_of_admitted h
  rcases hw : admitWrite s ag a v with ⟨b, u⟩
  obtain rfl : b = true := by simpa [hw] using h
  unfold writeWord
  simp [isPegPage_eq_false hpage, hpage, hb, Nat.not_lt.mpr hoff, hreg, hw, hrws, hrwi, hposted]

/-- A write to a header register of a posted page is posted, unless it is judged at once. -/
theorem writeWord_header_posted {p o : Nat} (hpage : hasHeader p = true) (hposted : isPosted p = true)
    (hbar : pageBarred ag p = false) (ho : o < 0x048) (hres : o ≠ 0x01C) (hq : headerAtOnce o = false) :
    writeWord s ag (hdrAddr p o) v = postWrite s ag (hdrAddr p o) v := by
  have hp : hdrAddr p o / 0x1000 = p := by unfold hdrAddr; omega
  have hm : hdrAddr p o % 0x1000 = o := by unfold hdrAddr; omega
  have ho2 : o < 0x100 := by omega
  unfold writeWord
  simp [hp, hm, isPegPage_eq_false hpage, hpage, hbar, ho, ho2, hres, hq, hposted]

/-- A posted write that meets a full queue leaves its marks and nothing else (R79). -/
theorem postWrite_full (h : 16 ≤ (postedOf s (a / 0x1000)).length) :
    postWrite s ag a v = raise (wrF s (hdrAddr (a / 0x1000) 0x00C) 1 1 1) (a / 0x1000) 0x2000 :=
  if_neg (Nat.not_lt.mpr h)

/-- Admission writes no queue and no register. -/
theorem admitted_same (h : (admitWrite s ag a v).1 = true) :
    (∀ p, postedOf (admitWrite s ag a v).2 p = postedOf s p) ∧ ∀ b, rd (admitWrite s ag a v).2 b = rd s b := by
  rcases admitWrite_state s ag a v h with e | e
  · rw [e]
    exact ⟨fun _ => rfl, fun _ => rfl⟩
  · rw [e]
    exact ⟨fun _ => rfl, dropUnlock_rd s _ ag⟩

/-- The guarded RWI registers have access code RWI (Table 3.6). -/
theorem acc_of_guardedRwi (hg : guardedRwi a = true) (hreg : findReg a = some (row, js)) : row.acc = .rwi := by
  have hl : (findReg A.LANTERN_TEST).map (·.1.acc) = some .rwi := by decide +kernel
  have hk : (findReg A.FC_KILL).map (·.1.acc) = some .rwi := by decide +kernel
  rw [guardedRwi, Bool.or_eq_true, beq_iff_eq, beq_iff_eq] at hg
  rcases hg with rfl | rfl
  · simpa [hreg] using hl
  · simpa [hreg] using hk

/-- Under the key policy a guarded field admits no write without an unlock (R88). -/
theorem admitWrite_withoutUnlock (hreg : findReg a = some (row, js)) (hg : row.acc = .rwk ∨ guardedRwi a = true)
    (hopen : guardShut s (a / 0x1000) = false) (hdebug : debugWrite s ag (a / 0x1000) = false)
    (hno : unlockArmed s (a / 0x1000) ag = false) :
    admitWrite s ag a v = (false, guardRefused s (a / 0x1000)) := by
  have hrwl : row.acc ≠ .rwl := by
    rcases hg with hk | hi
    · simp [hk]
    · simp [acc_of_guardedRwi hi hreg]
  unfold admitWrite
  by_cases hb : pageBarred ag (a / 0x1000) = true
  · simp [hb]
  · simp [hb, hreg, hrwl, hg, hdebug, hopen, hno]

end

/-! ### Unlocks -/

theorem guardShut_eq_false {s : State} {p : Nat} (hl : locked s p = false) (hm : multiDevice s = false) :
    guardShut s p = false := by
  rw [guardShut, hl, hm, Bool.or_self]

theorem guardRefused_eq_raise (s : State) {p : Nat} (h : hasHeader p = true) : guardRefused s p = raise s p 0x4000 :=
  if_pos h

theorem guardRefused_unlocks (s : State) (p : Nat) : (guardRefused s p).rf.unlocks = s.rf.unlocks :=
  (LiveOnly.ite (raise_liveOnly s p 0x4000) (LiveOnly.refl s)).unlocks

/-- Using up an agent's unlock leaves those of other agents. -/
theorem mem_dropUnlock {s : State} {p : Nat} {ag : Agent} {u : Unlock} (hu : u ∈ s.rf.unlocks) (hne : u.agent ≠ ag) :
    u ∈ (dropUnlock s p ag).rf.unlocks :=
  List.mem_filter.mpr ⟨hu, by simp [hne]⟩

/-- An unlock that has been dropped is not armed. -/
theorem unlockArmed_dropUnlock (s : State) (p : Nat) (ag : Agent) : unlockArmed (dropUnlock s p ag) p ag = false := by
  simp only [unlockArmed, dropUnlock, List.any_eq_false, List.mem_filter]
  rintro u ⟨-, hu⟩
  rw [Bool.not_eq_true'] at hu
  simp [hu]

/-- Whether an unlock is armed is said by the unlocks and ridge time. -/
theorem unlockArmed_congr {s t : State} (hu : t.rf.unlocks = s.rf.unlocks) (hr : t.ridge = s.ridge) (p : Nat) (ag : Agent) :
    unlockArmed t p ag = unlockArmed s p ag := by
  rw [unlockArmed, hu, hr, unlockArmed]

/-- The fabric interface changes nothing, or sets GUARD_REFUSED, or uses up the writer's own unlock. -/
theorem admitWrite_snd (s : State) (ag : Agent) (a v : Nat) :
    (admitWrite s ag a v).2 = s ∨ (admitWrite s ag a v).2 = guardRefused s (a / 0x1000) ∨
      (admitWrite s ag a v).2 = dropUnlock s (a / 0x1000) ag := by
  unfold admitWrite
  by_cases hb : pageBarred ag (a / 0x1000) = true
  · simp [hb]
  · rcases findReg a with _ | ⟨row, _⟩
    · simp [hb]
    · simp only [hb, Bool.false_eq_true, if_false]
      split_ifs <;> simp

/-- No write takes an unlock of another agent (R88). -/
theorem admitWrite_keeps_others {s : State} {ag : Agent} (a v : Nat) {u : Unlock} (hu : u ∈ s.rf.unlocks)
    (hne : u.agent ≠ ag) : u ∈ (admitWrite s ag a v).2.rf.unlocks := by
  rcases admitWrite_snd s ag a v with e | e | e
  · rwa [e]
  · rwa [e, guardRefused_unlocks]
  · rw [e]
    exact mem_dropUnlock hu hne

/-- A KEY write with a wrong value or page number ends its writer's unlock and is refused (R87, R88). -/
theorem writeKey_wrong {s : State} {ag : Agent} {p v : Nat} (hpage : hasHeader p = true) (hopen : guardShut s p = false)
    (hwrong : ¬(fldN v 15 0 = 0x7E57 ∧ fldN v 27 16 = p)) :
    writeKey s ag p v = guardRefused (dropUnlock s p ag) p := by
  rw [writeKey, if_neg (by simp [hpage]), if_neg (by simp [hopen]), if_neg hwrong]

/-- KEY by an agent that reaches the page. -/
theorem exec_key {agent : Agent} {page : BitVec 12} {v : Word} {s : State} (hon : s.power = .on)
    (htakes : takesPage s agent page.toNat = true) :
    exec (.key agent page v) s = .next (endCommand s (writeKey s agent page.toNat v.toNat)) := by
  show execKey agent page v s = _
  rw [execKey, whenOn_on _ hon, pageWrite_effect s agent page.toNat _ htakes]

/-! ### A discarded write, at the end of its command -/

/-- What a posted write that met a full queue leaves at the end of its command (R79). -/
theorem fullQueue_endCommand (s0 s : State) (p : Nat) :
    let t := endCommand s0 (raise (wrF s (hdrAddr p 0x00C) 1 1 1) p 0x2000)
    postedOf t p = postedOf s p ∧ rdB t (hdrAddr p 0x00C) 1 = true ∧ bitN (evtFlags t p) 13 = true ∧
      ∀ a, a ≠ hdrAddr p 0x00C → ¬eventAddr p a → rd t a = rd s a := by
  intro t
  have hbusy : ¬eventAddr p (hdrAddr p 0x00C) := by
    unfold eventAddr hdrAddr A.EVENTS_LOST A.MSIX_PBA
    omega
  refine ⟨?_, ?_, evtFlags_endCommand_raise _ _ _ _ (by decide) (by decide) (by decide), ?_⟩
  · exact ((wrF_liveOnly s _ _ _ _).trans ((raise_liveOnly _ _ _).trans (endCommand_liveOnly s0 _))).postedOf p
  · rw [rdB, rd_endCommand_raise _ _ _ hbusy, ← rdB, rdB_wrF_same _ _ _ _ _ _ (by decide) (by decide)]
    rfl
  · intro a ha hev
    rw [rd_endCommand_raise _ _ _ hev, rd_wrF_ne _ _ _ _ ha]

/-- What a refused guarded write leaves at the end of its command (R88). -/
theorem guardRefused_endCommand (s0 s : State) {p : Nat} (hpage : hasHeader p = true) :
    let t := endCommand s0 (guardRefused s p)
    bitN (evtFlags t p) 14 = true ∧ t.rf.unlocks = s.rf.unlocks ∧ ∀ a, ¬eventAddr p a → rd t a = rd s a := by
  intro t
  simp only [t, guardRefused_eq_raise s hpage]
  exact ⟨evtFlags_endCommand_raise _ _ _ _ (by decide) (by decide) (by decide),
    ((raise_liveOnly s p 0x4000).trans (endCommand_liveOnly s0 _)).unlocks, fun _ h => rd_endCommand_raise _ _ _ h⟩

/-! ### The obligations -/

/-- Settles O26: a block register's write is admitted, then posted; a header register's is posted; either meets the full
queue. -/
theorem postedQueueFull : Obligations.PostedQueueFull := by
  unfold Obligations.PostedQueueFull
  constructor
  · intro agent addr bytes row js s hon hpage hposted hfull hhost halign hlen hoff hreg hrws hrwi hadm
    obtain ⟨hq, hrd⟩ := admitted_same hadm
    refine ⟨_, exec_registerWrite_word hon hpage hhost halign hlen, ?_⟩
    rw [writeWord_posted hpage hposted hoff hreg hrws hrwi hadm, postWrite_full (by rwa [hq]), ← hq]
    simp only [← hrd]
    exact fullQueue_endCommand s _ _
  · intro agent p o v s hon hpage hposted hfull htakes ho
    have haddr := toNat_hdrAddr hpage (o := o) (by omega)
    have hp : hdrAddr p o / 0x1000 = p := by unfold hdrAddr; omega
    have hq : headerAtOnce o = false := by rcases ho with rfl | rfl | rfl <;> rfl
    obtain ⟨hhost, hbar⟩ : (agent = .host → hostUnauth s = false) ∧ pageBarred agent p = false := by
      simpa [takesPage, ← imp_iff_not_or] using htakes
    refine ⟨_, exec_registerWrite_word hon (by rwa [haddr, hp]) hhost (by rw [haddr]; unfold hdrAddr; omega)
      (length_leBytes 4 v), ?_⟩
    rw [haddr, writeWord_header_posted hpage hposted hbar (by omega) (by omega) hq, postWrite_full (by rwa [hp]), hp]
    exact fullQueue_endCommand s s p

/-- Settles O27: the fabric interface refuses the write before it changes anything; a wrong KEY ends only its writer's
unlock. -/
theorem guardedWithoutUnlock : Obligations.GuardedWithoutUnlock := by
  unfold Obligations.GuardedWithoutUnlock
  refine ⟨?_, ?_, fun _ a v _ u hu hne => admitWrite_keeps_others a v hu hne⟩
  · intro agent addr bytes row js s hon hpage hhost halign hlen hoff hreg hguard hlock hmulti hno hdebug
    have hadm := admitWrite_withoutUnlock (v := leNat bytes) hreg hguard (guardShut_eq_false hlock hmulti) hdebug hno
    refine ⟨_, exec_registerWrite_word hon hpage hhost halign hlen, ?_⟩
    rw [writeWord_refused hpage hoff hreg (by rw [hadm]), hadm]
    exact guardRefused_endCommand s s hpage
  · intro agent page v s hon hpage hlock hmulti htakes hwrong
    obtain ⟨hflag, hunlocks, hrd⟩ := guardRefused_endCommand s (dropUnlock s page.toNat agent) hpage
    refine ⟨_, exec_key hon htakes, ?_⟩
    rw [writeKey_wrong hpage (guardShut_eq_false hlock hmulti) hwrong]
    refine ⟨hflag, ?_, ?_, hrd⟩
    · intro u hu hne
      rw [hunlocks]
      exact mem_dropUnlock hu hne
    · rw [unlockArmed_congr hunlocks (by simp [guardRefused_eq_raise _ hpage, dropUnlock]), unlockArmed_dropUnlock]

end Sys2Proof.RegisterPages
end

section
/-!
PROOFS. TSF frames at a sensor port (chapter 4): the length of a TSF frame (R97). First what a failed check of Table 4.4
leaves, then a frame that reaches the TSF checks and what they make of its length, then that only the bytes within the length
are read.
-/

namespace Sys2Proof.SensorIngress

open Sys2Proof.Machine Sys2Proof.Safety Sys2Proof.Laws Sys2Proof.RegisterPages

/-! ### A failed check of Table 4.4 -/

/-- A port's counters lie beside its page's header and beside what notifications write. -/
theorem portCounter_not_eventAddr {n k : Nat} (hn : n < 32) (hk : k < 16) : ¬eventAddr (0x040 + n) (portCounter n k) := by
  unfold eventAddr portCounter A.PORT_COUNT A.PORT_COUNT_HI A.EVENTS_LOST A.MSIX_PBA hdrAddr
  split <;> omega

theorem portFail_flagged (s : State) (n k : Nat) {flag : Nat} (h : flag ≠ 0) :
    portFail s n k flag = raise (bumpSat s (portCounter n k) 1) (0x040 + n) flag := if_neg h

theorem portFail_event (s : State) (n k flag : Nat) : EventStep s (portFail s n k flag) :=
  (wr_event s _ _).trans (EventStep.ite (EventStep.refl _) (raise_event _ _ _))

/-- At the end of its command, a failed check with a flag has counted in its counter, which saturates, and set the flag; what
else it wrote, its notification wrote (Table 4.4). -/
theorem portFail_endCommand (s0 s : State) {n k flag i : Nat} (hn : n < 32) (hk : k < 16) (hi : i < 16) (hflag : flag < 2 ^ 16)
    (hbit : bitN flag i = true) :
    let t := endCommand s0 (portFail s n k flag)
    rd t (portCounter n k) = min (rd s (portCounter n k) + 1) 0xFFFFFFFF ∧ bitN (evtFlags t (0x040 + n)) i = true ∧
      EventStep s t := by
  have h0 : flag ≠ 0 := by
    rintro rfl
    simp [bitN_eq_testBit] at hbit
  have hstep := (portFail_event s n k flag).trans (endCommand_event s0 _)
  rw [portFail_flagged s n k h0] at hstep ⊢
  exact ⟨by rw [rd_endCommand_raise _ _ _ (portCounter_not_eventAddr hn hk), rd_bumpSat_same],
    evtFlags_endCommand_raise _ _ _ _ hi hflag hbit, hstep⟩

/-! ### A frame that reaches the TSF checks -/

/-- TSF_FRAME_RECEIVE is the frame's arrival, where the block runs. -/
theorem exec_tsfFrameReceive (port : Fin 32) (frame : EthFrame) (rrLost : Bool) (s : State) :
    exec (.tsfFrameReceive port frame rrLost) s = whenOn (fun s => frameReceive s port.val frame rrLost) s := rfl

/-- A frame without a SecTAG passes a port that does not require one (R95). -/
theorem macsecCheck_untagged (s : State) (n : Nat) {cfg : Nat} {f : EthFrame} (hsec : f.sec = none)
    (hcfg : (bitN cfg 4 && bitN cfg 5) = false) : macsecCheck s n cfg f = some s := by
  simp [macsecCheck, hsec, hcfg]

/-- A whole TSF frame for the port, without MACsec, comes to the TSF checks (steps 1 to 4 of Table 4.4). -/
theorem frameReceive_tsf {s : State} {n : Nat} {f : EthFrame} (rrLost : Bool) (hlink : rdB s (A.PORT_STATUS n) 0 = true)
    (hunit : unitOn s (0x040 + n) = true) (hfcs : f.fcsOk = true) (hmin : 46 ≤ f.data.length) (hmax : f.data.length ≤ 1500)
    (hdest : f.dest.toNat = portAddr s n ∨ f.dest.toNat = 0x0180C200000E) (hsec : f.sec = none)
    (hcfg : (bitN (sensorOf s n).cfg 4 && bitN (sensorOf s n).cfg 5) = false) (htype : f.etherType = 0x88B5) :
    frameReceive s n f rrLost = tsfReceive s n f.data rrLost := by
  have hup : ¬(rdB s (A.PORT_STATUS n) 0 = false ∨ unitOn s (0x040 + n) = false) := by simp [hlink, hunit]
  have hwhole : ¬(f.fcsOk = false ∨ f.data.length < 46 ∨ 1500 < f.data.length) := by
    rintro (h | h)
    · simp [hfcs] at h
    · omega
  have hmine : ¬(f.dest.toNat ≠ portAddr s n ∧ f.dest.toNat ≠ 0x0180C200000E) := by tauto
  have htag : ¬(f.sec.isSome = true ∧ bitN (sensorOf s n).cfg 4 = false) := by simp [hsec]
  have htsf : f.etherType.toNat = 0x88B5 := by rw [htype]; rfl
  rw [frameReceive, if_neg hup, if_neg hwhole, if_neg hmine, if_neg htag, macsecCheck_untagged s n hsec hcfg]
  exact if_pos htsf

/-- A TSF frame with a good header and a length that is invalid or too great fails the check of its length, and nothing else
happens (R97, steps 6 and 7 of Table 4.4). -/
theorem tsfReceive_badLength (s : State) (n : Nat) {b : List Byte} (rrLost : Bool) (hheader : tsfHeaderOk b = true)
    (hlen : beAt b 2 2 = 0 ∨ beAt b 2 2 = 0xFFFF ∨ 1484 < beAt b 2 2 ∨ b.length < 16 + beAt b 2 2) :
    tsfReceive s n b rrLost = portFail s n (if beAt b 2 2 = 0 ∨ beAt b 2 2 = 0xFFFF then 5 else 6) 8 := by
  rw [tsfReceive, if_neg (by simp [hheader])]
  by_cases hinvalid : beAt b 2 2 = 0 ∨ beAt b 2 2 = 0xFFFF
  · rw [if_pos hinvalid, if_pos hinvalid]
  · rw [if_neg hinvalid, if_neg hinvalid, if_pos (by tauto)]

/-! ### Bytes that two frames have in common -/

section
variable {b d : List Byte} {m : Nat}

/-- Buffers with the same first `m` bytes have the same bytes in every range within them. -/
theorem range_congr (h : d.take m = b.take m) {off n : Nat} (hn : off + n ≤ m) :
    (d.drop off).take n = (b.drop off).take n := by
  have key (l : List Byte) : (l.drop off).take n = ((l.take m).take (off + n)).drop off := by
    rw [List.take_drop, List.take_take, Nat.min_eq_left hn]
  rw [key d, h, ← key b]

theorem leAt_congr (h : d.take m = b.take m) {off n : Nat} (hn : off + n ≤ m) : leAt d off n = leAt b off n := by
  rw [leAt, range_congr h hn, leAt]

theorem beAt_congr (h : d.take m = b.take m) {off n : Nat} (hn : off + n ≤ m) : beAt d off n = beAt b off n := by
  rw [beAt, range_congr h hn, beAt]

/-- The header is judged by its own 16 bytes (R96). -/
theorem tsfHeaderOk_congr (h : d.take m = b.take m) (hm : 16 ≤ m) (hb : 16 ≤ b.length) (hd : 16 ≤ d.length) :
    tsfHeaderOk d = tsfHeaderOk b := by
  have hsub : leAt d 0 1 = leAt b 0 1 := leAt_congr h (by omega)
  have hflags : leAt d 1 1 = leAt b 1 1 := leAt_congr h (by omega)
  have hreserved : leAt d 14 2 = leAt b 14 2 := leAt_congr h (by omega)
  simp only [tsfHeaderOk, hsub, hflags, hreserved, hb, hd]

/-- A TSF frame is delivered by its header and the bytes within its length. -/
theorem tsfDeliver_congr (s : State) (n : Nat) (h : d.take (16 + beAt b 2 2) = b.take (16 + beAt b 2 2)) :
    tsfDeliver s n d = tsfDeliver s n b := by
  have hsub : leAt d 0 1 = leAt b 0 1 := leAt_congr h (by omega)
  have hflags : leAt d 1 1 = leAt b 1 1 := leAt_congr h (by omega)
  have hlen : beAt d 2 2 = beAt b 2 2 := beAt_congr h (by omega)
  have hoff : beAt d 8 4 = beAt b 8 4 := beAt_congr h (by omega)
  have hline : beAt d 12 2 = beAt b 12 2 := beAt_congr h (by omega)
  have hpayload : (d.drop 16).take (beAt b 2 2) = (b.drop 16).take (beAt b 2 2) := range_congr h le_rfl
  simp only [tsfDeliver, hsub, hflags, hlen, hoff, hline, hpayload]

/-- What a TSF frame does, and what the recorder takes of it, depends on its header and the bytes within its length only
(R97). -/
theorem tsfReceive_congr (s : State) (n : Nat) (rrLost : Bool) (h : d.take (16 + beAt b 2 2) = b.take (16 + beAt b 2 2))
    (hb : 16 + beAt b 2 2 ≤ b.length) (hd : 16 + beAt b 2 2 ≤ d.length) :
    tsfReceive s n d rrLost = tsfReceive s n b rrLost := by
  have hlen : beAt d 2 2 = beAt b 2 2 := beAt_congr h (by omega)
  have hseq : beAt d 4 4 = beAt b 4 4 := beAt_congr h (by omega)
  have hheader : tsfHeaderOk d = tsfHeaderOk b := tsfHeaderOk_congr h (by omega) (by omega) (by omega)
  simp only [tsfReceive, hlen, hheader, h, tsfDeliver_congr _ n h, Nat.not_lt.mpr hb, Nat.not_lt.mpr hd]
  rw [hseq]

end

/-- Until the TSF checks, a whole frame's data are not looked at (steps 1 to 4 of Table 4.4). -/
theorem frameReceive_congr {f : EthFrame} {d : List Byte} (s : State) (n : Nat) (rrLost : Bool) (hmin : 46 ≤ f.data.length)
    (hmax : f.data.length ≤ 1500) (hdmin : 46 ≤ d.length) (hdmax : d.length ≤ 1500)
    (htsf : ∀ u, tsfReceive u n d rrLost = tsfReceive u n f.data rrLost) :
    frameReceive s n { f with data := d } rrLost = frameReceive s n f rrLost := by
  have hsec : macsecCheck s n (sensorOf s n).cfg { f with data := d } = macsecCheck s n (sensorOf s n).cfg f := rfl
  simp only [frameReceive, hsec, htsf, Nat.not_lt.mpr hmin, Nat.not_lt.mpr hmax, Nat.not_lt.mpr hdmin, Nat.not_lt.mpr hdmax]

/-! ### The obligation -/

/-- Settles O35: a bad length fails the one check of the TSF frame that it reaches; with a good one, no check and no delivery
reads a byte beyond it. -/
theorem tsfLength : Obligations.TsfLength := by
  unfold Obligations.TsfLength
  constructor
  · intro port frame rrLost s hon hlink hunit hfcs hmin hmax hdest hsec hcfg htype hheader hlen
    have hreach := frameReceive_tsf rrLost hlink hunit hfcs hmin hmax (.inl hdest) hsec (by rw [hcfg, Bool.false_and]) htype
    refine ⟨_, (exec_tsfFrameReceive port frame rrLost s).trans (whenOn_on _ hon), ?_⟩
    rw [hreach, tsfReceive_badLength s port.val rrLost hheader hlen]
    have hk : (if beAt frame.data 2 2 = 0 ∨ beAt frame.data 2 2 = 0xFFFF then 5 else 6) < 16 := by split <;> omega
    obtain ⟨hcount, hflag, _, _, _, _, _, heq⟩ :=
      portFail_endCommand s s (flag := 8) (i := 3) port.isLt hk (by decide) (by decide) (by decide)
    exact ⟨hcount, hflag, by rw [heq], by rw [heq], by rw [heq], by rw [heq], by rw [heq]⟩
  · intro port frame d rrLost s _ hb hd hmin hmax hdmin hdmax hsame
    have htsf (u : State) := tsfReceive_congr u port.val rrLost hsame hb hd
    simp only [exec_tsfFrameReceive, frameReceive_congr _ port.val rrLost hmin hmax hdmin hdmax htsf]

end Sys2Proof.SensorIngress
end

section
/-!
PROOFS. Pegs and rolls (chapter 10): writes of PEG_CFG (R289, R293) and resets of a roll (R303). For each first what its
shared operations leave, then the command as its effect, then the obligation.
-/

namespace Sys2Proof.ScratchPegs

open Sys2Proof.Machine Sys2Proof.Safety Sys2Proof.Laws Sys2Proof.RegisterPages

/-! ### Pegs and the waits on them -/

@[simp] theorem pegAt_setPeg_same (s : State) (r : Nat) (p : Peg) : pegAt (setPeg s r p) r = p := by
  simp [pegAt, setPeg]

@[simp] theorem pegAt_setPeg_ne (s : State) {r q : Nat} (p : Peg) (h : q ≠ r) : pegAt (setPeg s r p) q = pegAt s q := by
  simp [pegAt, setPeg, h]

@[simp] theorem pegAt_latchWaits (s : State) (r : Nat) : pegAt (latchWaits s) r = pegAt s r := rfl

/-- The waits of pods that are satisfied now, or were before, are satisfied once they are latched (R293). -/
theorem waitMet_latchWaits (s : State) (no : Nat) :
    (podAt (latchWaits s) no).map (·.waitMet) =
      (podAt s no).map (fun p => p.waitMet || pegMet s p.hdr.waitPeg p.hdr.waitTarget none) := by
  simp only [podAt, latchWaits, List.find?_map, Option.map_map]
  rfl

/-- So are the waits of jobs (R293). -/
theorem met_latchWaits (s : State) :
    (latchWaits s).insts.map (fun x => x.jobs.map (·.met)) = s.insts.map (fun x => x.jobs.map (metWaits s x.frame)) := by
  simp [latchWaits, Function.comp_def]

/-! ### A write of PEG_CFG -/

/-- The values of PEG_CFG that are refused, by their fields (R289). -/
theorem pegCfgBad_iff (v : Word) :
    pegCfgBad v = true ↔
      fldN v.toNat 10 9 = 3 ∨ bitN v.toNat 19 = true ∨ fldN v.toNat 31 24 ≠ 0 ∨ fldN v.toNat 18 16 < fldN v.toNat 22 20 := by
  simp only [pegCfgBad, Bool.or_eq_true, beq_iff_eq, bne_iff_ne, decide_eq_true_eq, or_assoc]
  simp only [fld, bitN_eq_testBit, BitVec.testBit_toNat]

theorem writePegCfg_bad (s : State) (r : Nat) {v : Word} (h : pegCfgBad v = true) :
    writePegCfg s r v = setPeg s r { pegAt s r with cfgRefused := true } := if_pos h

theorem writePegCfg_good (s : State) (r : Nat) {v : Word} (h : ¬pegCfgBad v = true) :
    writePegCfg s r v = setPeg (latchWaits s) r { pegAt s r with cfg := v, cfgRefused := false } := if_neg h

theorem writePegCfg_flagged (s : State) (r : Nat) (v : Word) : (writePegCfg s r v).flagged = s.flagged := by
  unfold writePegCfg
  split <;> rfl

/-- An agent that is not held off acts (R498). -/
theorem asAgent_acts {s : State} {ag : Agent} (f : State → State) (h : ag = .host → hostUnauth s = false) :
    asAgent s ag f = f s := by
  refine if_neg ?_
  rw [Bool.and_eq_true, beq_iff_eq]
  rintro ⟨hag, hun⟩
  simp [h hag] at hun

/-- PEG_CFG by an agent that is not held off is the write, and notifies nobody. -/
theorem exec_pegCfg {agent : Agent} (peg : PegId) (v : Word) {s : State} (hon : s.power = .on)
    (hhost : agent = .host → hostUnauth s = false) :
    exec (.pegCfg agent peg v) s = .next { writePegCfg s (pegRef peg) v with flagged := [] } := by
  have hacts := asAgent_acts (fun s => writePegCfg s (pegRef peg) v) hhost
  show whenOn (fun s => asAgent s agent (fun s => writePegCfg s (pegRef peg) v)) s = _
  rw [whenOn_quiet _ hon (by rw [hacts, writePegCfg_flagged]), hacts]

/-! ### Rolls -/

@[simp] theorem rd_setRoll (s : State) (c r : Nat) (x : Roll) (a : Nat) : rd (setRoll s c r x) a = rd s a := rfl

/-- Head, tail and reservation pointer of a roll that is zeroed. -/
theorem rollZero_zero (s : State) (c r : Nat) :
    rollHead (rollZero s c r) c r = 0 ∧ rollTail (rollZero s c r) c r = 0 ∧ rollReserved (rollZero s c r) c r = 0 := by
  simp [rollZero, rollHead, rollTail, rollReserved]

/-- Zeroing a roll writes no other register. -/
theorem rd_rollZero (s : State) {c r a : Nat} (hhead : a ≠ A.ROLL_HEAD c (r / 32) (r % 32))
    (htail : a ≠ A.ROLL_TAIL c (r / 32) (r % 32)) (hreserve : a ≠ A.ROLL_RESERVE c (r / 32) (r % 32)) :
    rd (rollZero s c r) a = rd s a := by
  rw [rollZero, rd_wr_ne _ _ hreserve, rd_wr_ne _ _ htail, rd_wr_ne _ _ hhead]

/-! ### A write of 1 to ROLL_RESET -/

theorem applyRollReset_free {s : State} {c r : Nat} (h : (rollOf s c r).refs = []) :
    applyRollReset s c r 1 = rollZero (setRoll s c r {}) c r := by
  rw [applyRollReset, if_neg (by decide), if_pos (by rw [h]; rfl)]

theorem applyRollReset_busy {s : State} {c r : Nat} (h : (rollOf s c r).refs ≠ []) :
    applyRollReset s c r 1 = raise s (rollPage c r) 8 := by
  rw [applyRollReset, if_neg (by decide), if_neg (by rwa [List.isEmpty_iff])]

/-- Admission moves no roll and flags no page. -/
theorem admitted_rolls_flagged {s : State} {ag : Agent} {a v : Nat} (h : (admitWrite s ag a v).1 = true) :
    (admitWrite s ag a v).2.rolls = s.rolls ∧ (admitWrite s ag a v).2.flagged = s.flagged := by
  rcases admitWrite_state s ag a v h with e | e
  · rw [e]
    exact ⟨rfl, rfl⟩
  · rw [e]
    exact ⟨rfl, rfl⟩

/-- ROLL_RESET that takes effect resets the roll in a state with the rolls, flagged pages and registers it found: at most an
unlock has been used up. -/
theorem exec_rollReset {agent : Agent} {c : Fin 4} {r : Fin 64} {s : State} (hon : s.power = .on)
    (htakes : takesEffect s agent (A.ROLL_RESET c.val (r.val / 32) (r.val % 32)) 1 = true) :
    ∃ u, exec (.rollReset agent c r) s = .next (endCommand s (applyRollReset u c.val r.val 1)) ∧
      u.rolls = s.rolls ∧ u.flagged = s.flagged ∧ ∀ a, rd u a = rd s a := by
  have hadm : (admitWrite s agent (A.ROLL_RESET c.val (r.val / 32) (r.val % 32)) 1).1 = true := by
    simp only [takesEffect, Bool.and_eq_true] at htakes
    obtain ⟨⟨_, hadmitted⟩, _⟩ := htakes
    exact hadmitted
  obtain ⟨hrolls, hflagged⟩ := admitted_rolls_flagged hadm
  refine ⟨_, ?_, hrolls, hflagged, (admitted_same hadm).2⟩
  show execRollReset agent c r s = _
  rw [execRollReset, whenOn_on _ hon, namedWrite_effect s agent _ _ _ htakes]

theorem rollOf_congr {s t : State} (h : t.rolls = s.rolls) (c r : Nat) : rollOf t c r = rollOf s c r := by
  rw [rollOf, h, rollOf]

/-! ### The obligations -/

/-- Settles O48: a refused value sets only the flag; any other latches the waits before the configuration changes. -/
theorem pegConfig : Obligations.PegConfig := by
  unfold Obligations.PegConfig
  intro agent peg v s hon hhost
  refine ⟨_, exec_pegCfg peg v hon hhost, ?_⟩
  simp only [← pegCfgBad_iff]
  by_cases hbad : pegCfgBad v = true
  · rw [writePegCfg_bad s _ hbad, if_pos hbad, if_pos hbad]
    exact ⟨pegAt_setPeg_same _ _ _, fun _ => pegAt_setPeg_ne s _, ⟨rfl, rfl⟩, fun _ => rfl⟩
  · rw [writePegCfg_good s _ hbad, if_neg hbad, if_neg hbad]
    exact ⟨pegAt_setPeg_same _ _ _, fun _ => pegAt_setPeg_ne (latchWaits s) _, ⟨waitMet_latchWaits s, met_latchWaits s⟩,
      fun _ => rfl⟩

/-- Settles O50: by whether an operation references the roll. -/
theorem rollReset : Obligations.RollReset := by
  unfold Obligations.RollReset
  constructor
  · intro agent c r s hon htakes hfree
    obtain ⟨u, hexec, hrolls, hflagged, hrd⟩ := exec_rollReset hon htakes
    refine ⟨_, hexec, ?_⟩
    have hquiet : (rollZero (setRoll u c.val r.val {}) c.val r.val).flagged = s.flagged := hflagged
    obtain ⟨hhead, htail, hreserve⟩ := rollZero_zero (setRoll u c.val r.val {}) c.val r.val
    rw [applyRollReset_free (by rwa [rollOf_congr hrolls]), endCommand_quiet _ _ hquiet]
    refine ⟨hhead, htail, hreserve, fun a ha ht hr => ?_⟩
    rw [rd_withFlagged, rd_rollZero _ ha ht hr, rd_setRoll, hrd]
  · intro agent c r s hon htakes hbusy
    obtain ⟨u, hexec, hrolls, _, hrd⟩ := exec_rollReset hon htakes
    refine ⟨_, hexec, ?_⟩
    rw [applyRollReset_busy (by rwa [rollOf_congr hrolls])]
    refine ⟨?_, evtFlags_endCommand_raise _ _ _ _ (by decide) (by decide) (by decide), fun a h => ?_⟩
    · rw [endCommand_rolls, raise_rolls, hrolls]
    · rw [rd_endCommand_raise _ _ _ h, hrd]

end Sys2Proof.ScratchPegs
end

section
/-!
PROOFS. The STRICT bit (chapter 12): writes of DET_CTL (R353). First when the device is idle, then what a write that changes
the bit does, idle or not, then the command as its effect, then the obligation.
-/

namespace Sys2Proof.StrictBit

open Sys2Proof.Machine Sys2Proof.Safety Sys2Proof.Laws Sys2Proof.RegisterPages

/-! ### When STRICT may change -/

/-- No frame group is enabled and no job is at work (R353). -/
def DetIdle (s : State) : Prop := (∀ g < 8, fgOn s g = false) ∧ anyRuns s = false

/-- The model's check of R353, over all frame groups. -/
theorem busy_eq_false_iff (s : State) : ((List.range 8).any (fgOn s) || anyRuns s) = false ↔ DetIdle s := by
  simp only [DetIdle, Bool.or_eq_false_iff, List.any_eq_false, List.mem_range, Bool.not_eq_true]

theorem detIdle_congr {s t : State} (hinsts : t.insts = s.insts) (hrd : ∀ a, rd t a = rd s a) :
    DetIdle t ↔ DetIdle s := by
  simp only [DetIdle, anyRuns, fgOn, rdB, hinsts, hrd]

theorem strict_congr {s t : State} (hrd : ∀ a, rd t a = rd s a) : strict t = strict s := by
  rw [strict, rdB, hrd, strict, rdB]

/-! ### A write that changes the bit -/

theorem applyDetCtl_idle {s : State} {v : Nat} (hchange : bitN v 0 ≠ strict s) (hidle : DetIdle s) :
    applyDetCtl s v = wr (wr s A.DET_CTL (b2n (bitN v 0))) A.DET_STATUS (b2n (bitN v 0)) := by
  rw [applyDetCtl, ← strict, if_neg hchange, if_neg (by rw [(busy_eq_false_iff s).mpr hidle]; decide)]

theorem applyDetCtl_busy {s : State} {v : Nat} (hchange : bitN v 0 ≠ strict s) (hbusy : ¬DetIdle s) :
    applyDetCtl s v = raise (wrF s A.DET_STATUS 1 1 1) 0x002 1 := by
  rw [applyDetCtl, ← strict, if_neg hchange, if_pos]
  rwa [← Bool.not_eq_false, busy_eq_false_iff]

/-- A register that is written with a bit reads that bit. -/
theorem rdB_wr_b2n (s : State) (a : Nat) (b : Bool) : rdB (wr s a (b2n b)) a 0 = b := by
  rw [rdB, rd_wr_same]
  cases b <;> rfl

/-! ### The command -/

/-- Admission writes nothing but the register file. -/
theorem admitWrite_rf {s : State} {ag : Agent} {a v : Nat} (h : (admitWrite s ag a v).1 = true) :
    ∃ rf, (admitWrite s ag a v).2 = { s with rf := rf } := by
  rcases admitWrite_state s ag a v h with e | e
  · exact ⟨s.rf, e⟩
  · exact ⟨_, e⟩

/-- DET_CTL that takes effect writes the bit in a state with the jobs, flagged pages and registers it found: at most an
unlock has been used up. -/
theorem exec_detCtl {agent : Agent} {v : Word} {s : State} (hon : s.power = .on)
    (htakes : takesEffect s agent A.DET_CTL v.toNat = true) :
    ∃ u, exec (.detCtl agent v) s = .next (endCommand s (applyDetCtl u v.toNat)) ∧
      u.insts = s.insts ∧ u.flagged = s.flagged ∧ ∀ a, rd u a = rd s a := by
  have hadm : (admitWrite s agent A.DET_CTL v.toNat).1 = true := by
    simp only [takesEffect, Bool.and_eq_true] at htakes
    obtain ⟨⟨_, hadmitted⟩, _⟩ := htakes
    exact hadmitted
  obtain ⟨rf, hu⟩ := admitWrite_rf hadm
  refine ⟨_, ?_, by rw [hu], by rw [hu], (admitted_same hadm).2⟩
  show execDetCtl agent v s = _
  rw [execDetCtl, whenOn_on _ hon, namedWrite_effect s agent _ _ _ htakes]

/-- While idle, a change applies, notifies nobody, and writes DET_CTL and DET_STATUS alone. -/
theorem detCtl_idle {s0 s : State} {v : Nat} (hflagged : s.flagged = s0.flagged) (hchange : bitN v 0 ≠ strict s)
    (hidle : DetIdle s) :
    let t := endCommand s0 (applyDetCtl s v)
    strict t = bitN v 0 ∧ rdB t A.DET_STATUS 0 = bitN v 0 ∧
      ∀ a, a ≠ A.DET_CTL → a ≠ A.DET_STATUS → rd t a = rd s a := by
  intro t
  have ht (a : Nat) : rd t a = rd (wr (wr s A.DET_CTL (b2n (bitN v 0))) A.DET_STATUS (b2n (bitN v 0))) a := by
    have hquiet : (applyDetCtl s v).flagged = s0.flagged := by rwa [applyDetCtl_idle hchange hidle]
    rw [show t = _ from endCommand_quiet _ _ hquiet, rd_withFlagged, applyDetCtl_idle hchange hidle]
  refine ⟨?_, ?_, fun a hctl hstatus => ?_⟩
  · rw [strict, rdB, ht, rd_wr_ne _ _ (by decide)]
    exact rdB_wr_b2n s A.DET_CTL _
  · rw [rdB, ht]
    exact rdB_wr_b2n _ A.DET_STATUS _
  · rw [ht, rd_wr_ne _ _ hstatus, rd_wr_ne _ _ hctl]

/-- Otherwise it is ignored: DET_STATUS[1] and the flag STRICT_REFUSED are set, and nothing else but what the flag's
notification writes. -/
theorem detCtl_busy {s0 s : State} {v : Nat} (hchange : bitN v 0 ≠ strict s) (hbusy : ¬DetIdle s) :
    let t := endCommand s0 (applyDetCtl s v)
    strict t = strict s ∧ rdB t A.DET_STATUS 1 = true ∧ bitN (evtFlags t 0x002) 0 = true ∧
      ∀ a, ¬eventAddr 0x002 a → a ≠ A.DET_STATUS → rd t a = rd s a := by
  intro t
  have ht : t = endCommand s0 (raise (wrF s A.DET_STATUS 1 1 1) 0x002 1) := by rw [← applyDetCtl_busy hchange hbusy]
  have hrd (a : Nat) (h : ¬eventAddr 0x002 a) : rd t a = rd (wrF s A.DET_STATUS 1 1 1) a := by
    rw [ht, rd_endCommand_raise _ _ _ h]
  have hframe (a : Nat) (h : ¬eventAddr 0x002 a) (hstatus : a ≠ A.DET_STATUS) : rd t a = rd s a := by
    rw [hrd a h, rd_wrF_ne _ _ _ _ hstatus]
  refine ⟨?_, ?_, ?_, hframe⟩
  · rw [strict, rdB, hframe _ (by unfold eventAddr; decide) (by decide), strict, rdB]
  · rw [rdB, hrd _ (by unfold eventAddr; decide), ← rdB, rdB_wrF_same _ _ _ _ _ _ (by decide) (by decide)]
    rfl
  · rw [ht]
    exact evtFlags_endCommand_raise _ _ _ _ (by decide) (by decide) (by decide)

/-! ### The obligation -/

/-- Settles O28: by whether the device is idle. An enabled frame group is one of the reasons for which it is not. -/
theorem strictRefused : Obligations.StrictRefused := by
  unfold Obligations.StrictRefused
  constructor
  · intro agent v s hon htakes hchange
    obtain ⟨u, hexec, hinsts, hflagged, hrd⟩ := exec_detCtl hon htakes
    refine ⟨_, hexec, ?_⟩
    rw [← strict_congr hrd] at hchange ⊢
    simp only [← hrd]
    exact ⟨fun hidle => detCtl_idle hflagged hchange ((detIdle_congr hinsts hrd).mpr hidle),
      fun hbusy => detCtl_busy hchange fun h => hbusy ((detIdle_congr hinsts hrd).mp h)⟩
  · intro agent v s hon htakes hchange hgroup hoff
    obtain ⟨u, hexec, hinsts, _, hrd⟩ := exec_detCtl hon htakes
    rw [← strict_congr hrd] at hchange hoff
    have hbusy : ¬DetIdle u := fun h => by
      obtain ⟨hgroups, _⟩ := (detIdle_congr hinsts hrd).mp h
      rw [hgroups 3 (by decide)] at hgroup
      contradiction
    obtain ⟨hstrict, _⟩ := detCtl_busy (s0 := s) hchange hbusy
    exact ⟨_, hexec, hstrict.trans hoff⟩

end Sys2Proof.StrictBit
end

section
/-!
PROOFS. Classes of fault sources (chapter 16): writes of FC_SRC_CFG (R461, Table 16.12). First where the register of a source
stands, then what a write of it does when it is refused and when it is taken, then the posted write as its effect, then the
obligation.
-/

namespace Sys2Proof.FaultSources

open Sys2Proof.Machine Sys2Proof.Safety Sys2Proof.Laws Sys2Proof.RegisterPages

/-! ### A part of a field -/

/-- A field that starts where a field that has been set starts, and lies within it, reads the low bits of what was set. -/
theorem fldN_setFldN_inside (w v : Nat) {hi hi2 : Nat} (h : hi2 ≤ hi) : fldN (setFldN w hi 0 v) hi2 0 = fldN v hi2 0 := by
  apply Nat.eq_of_testBit_eq
  intro i
  rw [testBit_fldN, testBit_fldN, testBit_setFldN _ _ _ _ _ (Nat.zero_le _)]
  by_cases hin : i < hi2 + 1 - 0
  · rw [if_pos (by omega), Nat.zero_add i, Nat.sub_zero i]
  · rw [decide_eq_false hin, Bool.false_and, Bool.false_and]

/-! ### The register rows of a page -/

/-- The rows of the group stand on the page. -/
def onPage (p : Nat) (g : RegGroup) : Bool := decide (g.page ≤ p) && (splitDims g.dims (p - g.page)).isSome

/-- Only the groups on the page of an address can hold its register. -/
theorem findIn_filter_onPage (a : Nat) (l : List RegGroup) : findIn a (l.filter (onPage (a / 0x1000))) = findIn a l := by
  induction l with
  | nil => rfl
  | cons g t ih =>
    by_cases hpage : g.page ≤ a / 0x1000
    · rcases hdims : splitDims g.dims (a / 0x1000 - g.page) with _ | ps
      · simp [onPage, findIn, hpage, hdims, ih]
      · simp [onPage, findIn, hpage, hdims, ih]
    · simp [onPage, findIn, hpage, ih]

/-! ### Where FC_SRC_CFG stands (Table 16.12) -/

/-- FC_SRC_CFG: RWL; class and report, bits [3:0], are written, and the rest reads only. -/
def srcCfgRow : RegRow := ⟨0x100, [(512, 0x4)], .rwl, .source, 0xF, [], .no⟩

/-- Merging a value into FC_SRC_CFG replaces bits [3:0]; no field is refused. -/
theorem mergeFields_srcCfg (cur v : Nat) : mergeFields srcCfgRow cur v = (setFldN cur 3 0 v, false) := by
  have hbits : (v &&& 0xF) ||| (cur - (cur &&& 0xF)) = setFldN cur 3 0 v := by
    have hmask (w : Nat) : w &&& 0xF = w % 2 ^ 4 := Nat.and_two_pow_sub_one_eq_mod w 4
    have habove : cur - cur % 2 ^ 4 = 2 ^ 4 * (cur / 2 ^ 4) := by omega
    have hlow : v % 2 ^ 4 < 2 ^ 4 := Nat.mod_lt _ (by decide)
    rw [setFldN_eq _ _ _ _ (by decide), hmask, hmask, habove, Nat.or_comm, ← Nat.two_pow_add_eq_or_of_lt hlow]
    omega
  exact congrArg (·, false) hbits

section
variable {n : Nat} (hn : n < 512)
include hn

theorem srcCfg_page : A.FC_SRC_CFG n / 0x1000 = 0x2C1 := by
  unfold A.FC_SRC_CFG
  omega

theorem srcCfg_offset : A.FC_SRC_CFG n % 0x1000 = 0x100 + 4 * n := by
  unfold A.FC_SRC_CFG
  omega

/-- A register of another page is not that of a source. -/
theorem srcCfg_ne {b : Nat} (hb : b / 0x1000 ≠ 0x2C1) : A.FC_SRC_CFG n ≠ b := by
  rintro rfl
  exact hb (srcCfg_page hn)

theorem findReg_srcCfg : findReg (A.FC_SRC_CFG n) = some (srcCfgRow, [n]) := by
  have hgroups : regGroups.filter (onPage 0x2C1) = [regs2C1] := by decide +kernel
  rw [findReg, ← findIn_filter_onPage, srcCfg_page hn, hgroups]
  simp [findIn, regs2C1, srcCfg_page hn, srcCfg_offset hn, splitDims, hn, srcCfgRow]

/-- Neither the sequence engine nor an enabled object freezes FC_SRC_CFG. -/
theorem srcCfg_notFrozen (s : State) : seqFrozen s (A.FC_SRC_CFG n) = false ∧ frozenByUse s (A.FC_SRC_CFG n) = false := by
  simp [seqFrozen, frozenByUse, srcCfg_page hn]

/-- FC_SRC_CFG has no range of R10 that depends on other fields: the range of the class is R461's. -/
theorem rangeBad_srcCfg (s : State) (v : Nat) : rangeBad s (A.FC_SRC_CFG n) v = false := by
  simp (disch := decide) [rangeBad, srcCfg_page hn, srcCfg_ne hn]

/-- A write that takes effect at the register of source `n` is judged by R461. -/
theorem applyReg_srcCfg (s : State) (ag : Agent) (v : Nat) :
    applyReg s ag (A.FC_SRC_CFG n) v = applySrcCfg s n v := by
  have hinfo : pageInfo 0x2C1 = some { cls := 0x0A0, inst := 0, page := 1, domain := 25 } := by decide
  obtain ⟨hseq, huse⟩ := srcCfg_notFrozen hn s
  have hblock : ¬A.FC_SRC_CFG n % 0x1000 < 0x100 := by
    rw [srcCfg_offset hn]
    omega
  unfold applyReg
  simp only [srcCfg_page hn, hinfo, if_neg hblock, hseq, huse, findReg_srcCfg hn, Bool.or_self]
  simp (disch := decide) [applyOuter, srcCfg_page hn, srcCfg_ne hn, List.getElem?_cons_zero]

/-- A value that reaches FC_SRC_CFG replaces class and report. -/
theorem applyPlain_srcCfg (s : State) (v : Nat) : applyPlain s (A.FC_SRC_CFG n) v = wrF s (A.FC_SRC_CFG n) 3 0 v := by
  have hacc : ¬(srcCfgRow.acc = .ro ∨ srcCfgRow.acc = .wo) := by decide
  have hlive : srcCfgRow.acc ≠ .rws := by decide
  have hlow : srcCfgRow.wide ≠ .low := by decide
  have hhigh : srcCfgRow.wide ≠ .high := by decide
  simp [applyPlain, findReg_srcCfg hn, hacc, rangeBad_srcCfg hn, hlive, hlow, hhigh, mergeFields_srcCfg, wrF]

end

/-! ### A write of FC_SRC_CFG, refused and taken (R461) -/

/-- A class outside the permitted range changes nothing but the flag CONFIG_REJECTED of page 0x2C0. -/
theorem applySrcCfg_refused {s : State} {n v : Nat} {x : SourceInfo} (hx : sourceInfo n = some x)
    (hlo : x.floor ≤ rdF s (A.FC_SRC_CFG n) 2 0) (hhi : rdF s (A.FC_SRC_CFG n) 2 0 ≤ x.ceiling)
    (hout : fldN v 2 0 < x.floor ∨ x.ceiling < fldN v 2 0) : applySrcCfg s n v = raise s 0x2C0 0x40 := by
  have hchange : fldN v 2 0 ≠ rdF s (A.FC_SRC_CFG n) 2 0 := by omega
  simp only [applySrcCfg, hx]
  exact if_pos ⟨hchange, .inr hout⟩

/-- A permitted class of a source that is not fixed is written. -/
theorem applySrcCfg_taken {s : State} {n v : Nat} {x : SourceInfo} (hn : n < 512) (hx : sourceInfo n = some x)
    (hfree : x.fixed = false) (hlo : x.floor ≤ fldN v 2 0) (hhi : fldN v 2 0 ≤ x.ceiling) :
    applySrcCfg s n v = quietFollow (wrF s (A.FC_SRC_CFG n) 3 0 v) := by
  have hpermitted : ¬(x.fixed = true ∨ fldN v 2 0 < x.floor ∨ x.ceiling < fldN v 2 0) := by
    simp only [hfree, Bool.false_eq_true, false_or]
    omega
  simp only [applySrcCfg, hx, applyPlain_srcCfg hn]
  exact if_neg fun ⟨_, hbad⟩ => hpermitted hbad

/-- The register then reads that class. -/
theorem rdF_wrF_srcCfg (s : State) (n v : Nat) : rdF (wrF s (A.FC_SRC_CFG n) 3 0 v) (A.FC_SRC_CFG n) 2 0 = fldN v 2 0 := by
  rw [rdF, rd_wrF_same _ _ _ _ _ (by decide) (by decide), fldN_setFldN_inside _ _ (by decide)]

/-! ### The command -/

/-- The posted queues are beside the live registers. -/
@[simp] theorem rd_setPosted (s : State) (p : Nat) (q : List PostedWrite) (a : Nat) : rd (setPosted s p q) a = rd s a := rfl

/-- POSTED_WRITE_APPLY of a page whose domain runs takes the head of its queue and makes it take effect. -/
theorem exec_postedWriteApply {page : BitVec 12} {w : PostedWrite} {rest : List PostedWrite} {s : State}
    (hon : s.power = .on) (hqueue : postedOf s page.toNat = w :: rest) (hruns : holdLevel s (pageDomain page.toNat) = 0) :
    exec (.postedWriteApply page) s
      = .next (endCommand s (applyReg (setPosted s page.toNat rest) w.agent w.addr w.value.toNat)) := by
  show execPostedWriteApply page s = _
  rw [execPostedWriteApply, whenOn_on _ hon]
  simp only [postedApply, hqueue, if_pos hruns]

/-! ### The obligation -/

/-- The end of a command does not touch the register of a source. -/
theorem not_notifyAddr_srcCfg {n : Nat} (hn : n < 512) : ¬notifyAddr (A.FC_SRC_CFG n) := by
  simp (disch := decide) [notifyAddr, srcCfg_ne hn]

/-- Settles O29: by whether the class that the posted write names is in the source's range. -/
theorem sourceClassRange : Obligations.SourceClassRange := by
  unfold Obligations.SourceClassRange
  intro n x w rest s hon hn hx hqueue hruns haddr hlo hhi
  refine ⟨_, exec_postedWriteApply hon hqueue hruns, ?_, ?_⟩
  · intro hout
    rw [haddr, applyReg_srcCfg hn, applySrcCfg_refused (s := setPosted s _ rest) hx hlo hhi hout]
    exact ⟨evtFlags_endCommand_raise _ _ _ _ (by decide) (by decide) (by decide),
      fun a h => (rd_endCommand_raise _ _ _ h).trans (rd_setPosted s _ rest a)⟩
  · intro hfree hfloor hceiling
    rw [haddr, applyReg_srcCfg hn, applySrcCfg_taken hn hx hfree hfloor hceiling,
      rdF_endCommand _ _ _ _ (not_notifyAddr_srcCfg hn), rdF, rd_quietFollow, ← rdF, rdF_wrF_srcCfg]

end Sys2Proof.FaultSources
end

section
/-!
PROOFS. The sender of an image transfer (chapter 17): IMAGE_BEGIN, IMAGE_CHUNK, IMAGE_END and the time limit (R491). First what
the answer to a management request leaves of the security core and of the responses, then the request as its effect, then
whom a transfer is bound to, then the obligation.
-/

namespace Sys2Proof.ImageTransfer

open Sys2Proof.Machine Sys2Proof.Safety Sys2Proof.Laws

/-! ### The answer to a management request -/

@[simp] theorem closeSession_sec (s : State) : (closeSession s).sec = s.sec := by
  unfold closeSession
  extract_lets was s0 s1
  split
  · exact raise_sec _ _ _
  · rfl

@[simp] theorem closeSession_mgtOut (s : State) : (closeSession s).mgtOut = s.mgtOut := by
  unfold closeSession
  extract_lets was s0 s1
  split
  · exact raise_mgtOut _ _ _
  · rfl

@[simp] theorem mgtSend_sec (s : State) (r : MgtResp) (keep : Bool) : (mgtSend s r keep).sec = s.sec := by
  cases keep <;> rfl

@[simp] theorem mgtSend_mgtOut (s : State) (r : MgtResp) (keep : Bool) : (mgtSend s r keep).mgtOut = s.mgtOut ++ [r] := by
  cases keep <;> rfl

/-- The outcome of an operation other than an unreachable address is counted, sent and kept; only the last sequence of a session
does more. -/
theorem mgtAnswer_answered (f : MgtFrame) (op : Nat) (inSession : Bool) {r : Nat × List Byte × State}
    (h : r.1 ≠ St.ADDR_UNREACHABLE) :
    mgtAnswer f op inSession r =
      if inSession && f.seq.toNat == 0xFFFFFFFF
      then closeSession (mgtSend (bump r.2.2 A.MGT_REQUESTS 1) (respOf f op r.1 r.2.1) true)
      else mgtSend (bump r.2.2 A.MGT_REQUESTS 1) (respOf f op r.1 r.2.1) true := by
  rw [mgtAnswer, if_neg h]

theorem mgtAnswer_sec (f : MgtFrame) (op : Nat) (inSession : Bool) {r : Nat × List Byte × State}
    (h : r.1 ≠ St.ADDR_UNREACHABLE) : (mgtAnswer f op inSession r).sec = r.2.2.sec := by
  rw [mgtAnswer_answered f op inSession h]
  split
  · rw [closeSession_sec, mgtSend_sec, bump, wr_sec]
  · rw [mgtSend_sec, bump, wr_sec]

theorem mgtAnswer_mgtOut (f : MgtFrame) (op : Nat) (inSession : Bool) {r : Nat × List Byte × State}
    (h : r.1 ≠ St.ADDR_UNREACHABLE) :
    (mgtAnswer f op inSession r).mgtOut = r.2.2.mgtOut ++ [respOf f op r.1 r.2.1] := by
  rw [mgtAnswer_answered f op inSession h]
  split
  · rw [closeSession_mgtOut, mgtSend_mgtOut, bump, wr_mgtOut]
  · rw [mgtSend_mgtOut, bump, wr_mgtOut]

/-- An image request that is taken, and whose operation answers anything but an unreachable address, leaves the security core
as the operation does, and its response behind the responses that the operation leaves. -/
theorem imageRequest_answered {s u v : State} {f : MgtFrame} {op st : Nat} {body : List Byte}
    {h : State → Nat × List Byte × State} (hon : s.power = .on) (htaken : mgtTaken s f op (imageNeed s) = some u)
    (hop : h u = (st, body, v)) (hst : st ≠ St.ADDR_UNREACHABLE) :
    ∃ t, whenOn (fun s => mgtServe s f op (imageNeed s) h) s = .next t ∧
      t.sec = v.sec ∧ t.mgtOut = v.mgtOut ++ [respOf f op st body] := by
  have hr : (h u).1 ≠ St.ADDR_UNREACHABLE := by rwa [hop]
  refine ⟨_, whenOn_on _ hon, ?_, ?_⟩
  · rw [endCommand_sec, mgtServe_taken _ _ _ _ _ _ htaken, mgtAnswer_sec _ _ _ hr, hop]
  · rw [endCommand_mgtOut, mgtServe_taken _ _ _ _ _ _ htaken, mgtAnswer_mgtOut _ _ _ hr, hop]

/-! ### The sender that a transfer is bound to -/

theorem boundElsewhere_of_some {s : State} {x : Transfer} (f : MgtFrame) (hx : s.sec.xfer = some x) :
    boundElsewhere s f = (x.src != f.src.toNat) := by
  rw [boundElsewhere, hx]

theorem boundElsewhere_of_none {s : State} (f : MgtFrame) (hx : s.sec.xfer = none) : boundElsewhere s f = false := by
  rw [boundElsewhere, hx]

theorem imageBegin_busy {s : State} {f : MgtFrame} (kind n : Nat) (h : boundElsewhere s f = true) :
    imageBegin f kind n s = (St.IMAGE_BUSY, [], s) := by
  rw [imageBegin, if_pos h]

theorem imageChunk_busy {s : State} {f : MgtFrame} (o : Nat) (d : List Byte) (h : boundElsewhere s f = true) :
    imageChunk f o d s = (St.IMAGE_BUSY, [], s) := by
  rw [imageChunk, if_pos h]

theorem imageEnd_busy {s : State} {f : MgtFrame} (fails : Bool) (h : boundElsewhere s f = true) :
    imageEnd f fails s = (St.IMAGE_BUSY, [], s) := by
  rw [imageEnd, if_pos h]

/-- An IMAGE_BEGIN of an expected kind and a permitted length, from the bound sender or with no transfer running, binds a new
transfer of which nothing has been staged (R490, R491). -/
theorem imageBegin_binds {s : State} {f : MgtFrame} {kind n : Nat} (hbound : boundElsewhere s f = false)
    (hruns : s.sec.stopped = true → underRom s = false) (hkind : kindExpected s kind = true)
    (hlen : lengthOk kind n = true) :
    imageBegin f kind n s = (0, [], { romClocks s with sec := { s.sec with
      xfer := some { src := f.src.toNat, kind := kind, len := n, got := [], lastAt := s.ridge }, cfgWait := none } }) := by
  have hexpected : ¬(s.sec.stopped ∧ underRom s = true ∨ kindExpected s kind = false) := by
    rintro (⟨hstop, hrom⟩ | hbad)
    · simp [hruns hstop] at hrom
    · simp [hkind] at hbad
  have hsome : ¬(kind = 2 ∧ n = 0 ∧ fwStage s = 2) := by
    rintro ⟨-, rfl, -⟩
    simp [lengthOk] at hlen
  rw [imageBegin, if_neg (by simp [hbound]), if_neg hexpected, if_neg hsome, if_neg (by simp [hlen])]

/-- A transfer that has had no request for 2 s is abandoned. -/
theorem imageTimeout_due {s : State} {x : Transfer} (hx : s.sec.xfer = some x) (hdue : x.lastAt + 2000000000 ≤ s.ridge) :
    imageTimeout s = setImageStatus { s with sec := { s.sec with xfer := none } } St.IMAGE_TIMEOUT := by
  rw [imageTimeout, hx]
  exact if_pos hdue

/-! ### The obligation -/

/-- Settles O15: by whom the transfer is bound to when the request is taken. -/
theorem transferBound : Obligations.TransferBound := by
  unfold Obligations.TransferBound
  refine ⟨?_, ?_, ?_⟩
  · intro f kind len s u hon htaken hfree hruns hkind hlen
    have hbound : boundElsewhere u f = false := by
      rcases hfree with hnone | ⟨x, hx, hsrc⟩
      · exact boundElsewhere_of_none f hnone
      · rw [boundElsewhere_of_some f hx, hsrc, bne_self_eq_false]
    obtain ⟨t, hexec, hsec, -⟩ :=
      imageRequest_answered hon htaken (imageBegin_binds hbound hruns hkind hlen) (by decide)
    exact ⟨t, hexec, by rw [hsec]⟩
  · intro f c op s u x hon hrequest htaken hx hsrc
    have hbound : boundElsewhere u f = true := by rwa [boundElsewhere_of_some f hx, bne_iff_ne]
    have hbusy : ∃ t, exec c s = .next t ∧ t.sec = u.sec ∧ t.mgtOut = u.mgtOut ++ [respOf f op St.IMAGE_BUSY []] := by
      rcases hrequest with ⟨kind, len, rfl, rfl⟩ | ⟨off, data, rfl, rfl⟩ | ⟨fails, rfl, rfl⟩
      · exact imageRequest_answered hon htaken (imageBegin_busy _ _ hbound) (by decide)
      · exact imageRequest_answered hon htaken (imageChunk_busy _ _ hbound) (by decide)
      · exact imageRequest_answered hon htaken (imageEnd_busy _ hbound) (by decide)
    obtain ⟨t, hexec, hsec, hout⟩ := hbusy
    exact ⟨t, hexec, by rw [hsec, hx], hout⟩
  · intro s x hon hx hdue
    refine ⟨_, whenOn_on imageTimeout hon, ?_, ?_⟩
    · rw [endCommand_sec, imageTimeout_due hx hdue, setImageStatus, wrF_sec]
    · rw [rdF_endCommand _ _ _ _ (by unfold notifyAddr; decide), imageTimeout_due hx hdue, setImageStatus]
      exact rdF_wrF_same _ _ _ _ _ (by decide) (by decide)

end Sys2Proof.ImageTransfer
end
